-- ==== Sys2Proof/Word.lean ====
section
/-! DEFINITION. The word types of the KX7144-A and the names of its parts (R12, R43, R283). -/

namespace Sys2Proof

/-- A 64-bit general register or control-state register (R48, R74). -/
abbrev W := BitVec 64
abbrev Byte := BitVec 8
/-- A 5-bit register field of an instruction (R89). -/
abbrev Reg := BitVec 5
/-- A 128-byte line's contents, byte 0 in bits [7:0] (R166, R3). -/
abbrev LineData := BitVec 1024
/-- A physical line number, PA[51:7]. -/
abbrev Line := BitVec 45

/-- Physical strand number (R13, R20). -/
abbrev StrandId := Fin 576
/-- Physical core number, equal to its power domain (R43). -/
abbrev CoreId := Fin 144
/-- Cluster, die times 9 plus the cluster of the die. -/
abbrev ClusterId := Fin 36
/-- Compute die C0 to C3. -/
abbrev CDieId := Fin 4
/-- Hub die and half: 0 is HW and West, 1 is HE and East. -/
abbrev HubId := Fin 2
abbrev SliceId := Fin 8192
abbrev StackId := Fin 8
abbrev OctetId := Fin 12
abbrev DomainId := Fin 232
/-- Bridge bundle: 0 is N, 1 is S. -/
abbrev BundleId := Fin 2
/-- Main feed: 0 is A, 1 is B. -/
abbrev FeedId := Fin 2
/-- The PORT byte of R283: octet in [6:3], port within the octet in [2:0]. -/
abbrev PortId := BitVec 8

end Sys2Proof
end

