-- ==== Sys2Proof/Syntax.lean ====
section
/-! DEFINITION. The commands of the KX7144-A block: one constructor of `Instr` per row of the opcode table, and the operand types they use. -/

namespace Sys2Proof

/-- Access size of an indexed or displaced load or store (R111). -/
inductive Size where | b | h | w | d
  deriving DecidableEq, Repr

/-- Operand width: a `.D` or a `.W` form (R120). -/
inductive Width where | d | w
  deriving DecidableEq, Repr

/-- Address form of a load or store: S format (base plus scaled index) or LM format (R95). -/
inductive MemForm where
  | idx (ra rb : Reg) (x : Bool)
  | disp (base : Reg) (d : BitVec 24)
  deriving DecidableEq, Repr

/-- Binary floating format (R145). -/
inductive FFmt where | s | d | q
  deriving DecidableEq, Repr

/-- 24-bit form, rounded by CS.FPSTAT.RM, or 48-bit form with its RND field (R148, R149). -/
inductive FForm where | short | long (rnd : BitVec 3)
  deriving DecidableEq, Repr

/-- The six format conversions of FCVT, in the order of their fn codes (R149). -/
inductive FConv where | sd | sq | ds | dq | qs | qd
  deriving DecidableEq, Repr

/-- Target of a TIMER: the K or the S copy of CS.TCMP (R66). -/
inductive TimerTarget where | k | s
  deriving DecidableEq, Repr

/-- Who acknowledges a TLBI or WCI: a core, or an engine's translation cache (R243, R361). -/
inductive AckAgent where | core (c : CoreId) | engines (h : HubId)
  deriving DecidableEq, Repr

/-- Class of a device's answer to a channel engine's command (R300, R306, R321). -/
inductive DevClass where
  /-- Ended normally: DSTAT is DONE. -/
  | good
  /-- Temporarily unable to act: SCSI BUSY or TASK SET FULL, or NVMe status with DNR clear (R306). -/
  | busy
  /-- SCSI UNIT ATTENTION (R306). -/
  | attention
  /-- Tape filemark read or early warning passed: UNIT_EXCEPTION (R300). -/
  | exception
  /-- Any other error: UNIT_CHECK with a sense block (R300, R302). -/
  | error
  deriving DecidableEq, Repr

/-- Fields of the sense block that a device reports (R302). -/
structure SenseInfo where
  kind : Byte
  key : Byte
  code : BitVec 16
  sfl : Byte
  info : BitVec 64
  raw : List Byte
  deriving DecidableEq, Repr

/-- A device's answer: its class, the data or block it delivered, a reported position, its sense. -/
structure DevResult where
  cls : DevClass
  /-- Bytes a READ delivered (a tape block may be longer than the COUNT, R296). -/
  data : List Byte
  /-- Logical object number of READ POSITION (R333). -/
  pos : BitVec 64
  sense : SenseInfo
  deriving DecidableEq, Repr

/-- What a path probe found (R284, R331). -/
structure ProbeResult where
  ok : Bool
  blksz : BitVec 32
  plainFormat : Bool
  deriving DecidableEq, Repr

/-- What happens at a channel engine's sequencer (R280). -/
inductive EngineEvent where
  /-- A doorbell, device completion or timer event. -/
  | event
  /-- A path, DMA or protocol fault of work at base or event level. -/
  | fault
  /-- A fault of the routine that runs in the bank in use. -/
  | ownFault
  /-- The engine executes its next micro-word; the event code, for a word that dispatches on it. -/
  | word (code : BitVec 14)
  /-- An internal error is detected. -/
  | internal
  /-- The running bank returns with BR = 3. -/
  | bankReturn
  deriving DecidableEq, Repr

/-- Job pools of a hub (R342, R375). -/
inductive PoolKind where | comp | bulk | pk
  deriving DecidableEq, Repr

/-- A compression, bulk or public-key engine of one hub (R375). -/
structure EngineRef where
  pool : PoolKind
  hub : HubId
  n : Fin 4
  deriving DecidableEq, Repr

/-- Why a job attempt ends (R383). -/
inductive AttemptEndKind where | mismatch | checkstop
  deriving DecidableEq, Repr

/-- An inbound RDMA operation (R373). -/
structure InboundRdma where
  slice : SliceId
  rkey : BitVec 32
  addr : BitVec 64
  len : Nat
  write : Bool
  data : List Byte
  deriving DecidableEq, Repr

/-- How the network answers the oldest outstanding work request of a queue pair (R372). -/
structure NetqResult where
  status : Byte
  recv : Bool
  imm : BitVec 32
  srcQp : BitVec 24
  data : List Byte
  deriving DecidableEq, Repr

/-- A received Ethernet frame, as R412 classes it, or one met by a full FIFO (R41). -/
inductive FrameKind where | roce | tcp | neighbour | other | fifoFull
  deriving DecidableEq, Repr

/-- A hub's copy that is rebuilt from the other hub (R445). -/
inductive HubCopy where | journal | directory | keyTable
  deriving DecidableEq, Repr

/-- What an error strikes (R255, R421, R423): a strand, a channel engine's sequencer, or an array. `wide` tells an error that spans two
sub-arrays, which the code does not correct. -/
inductive ErrSite where
  | strand (t : StrandId)
  | chan (h : HubId) (n : Fin 16)
  | l2 (c : ClusterId) (l : Line) (wide : Bool)
  | l3 (l : Line) (wide : Bool)
  /-- A line of a cluster's scratchpad, by its number there. -/
  | spad (c : ClusterId) (n : Fin 32768) (wide : Bool)
  /-- A line in its memory controller's write queue. -/
  | queue (l : Line) (wide : Bool)
  /-- The only copy of the line that a strand's access meets: an error of two sub-arrays, detected by that access (R437). -/
  | met (t : StrandId) (l : Line)
  /-- A hub's journal half, slice directory replica or key table. -/
  | copy (h : HubId) (c : HubCopy) (wide : Bool)
  deriving DecidableEq, Repr

/-- Where a transient error strikes (R421 to R424, R255). -/
inductive ErrUnit where
  | pipeline
  | array
  /-- A ROM or slip word: its check bits can correct it, or cannot (R255). -/
  | microWord (corrected : Bool)
  deriving DecidableEq, Repr

/-- A unit that runs the proving loop (R429). -/
inductive ProvedUnit where
  | core (c : CoreId)
  | chan (h : HubId) (n : Fin 16)
  | eng (e : EngineRef)
  deriving DecidableEq, Repr

/-- The step of R431 that ends the repair of a line read. -/
inductive ReadOutcome where | clean | onDie | ecc | reconstruct | lost
  deriving DecidableEq, Repr

/-- A steward-bus link (R24). Dies are numbered C0 to C3, HW, HE. -/
inductive StewardLink where
  | cluster (c : ClusterId)
  | nearDie (d : Fin 6)
  | farDie (d : Fin 6)
  | island
  deriving DecidableEq, Repr

/-- What a client's certificate chains to (R491). -/
inductive CertKind where | session | viewer | neither
  deriving DecidableEq, Repr

/-- Findings of a PROVING step: the units that fail it, and what FAR training found (R474, R476). -/
structure Findings where
  cores : List CoreId
  clusters : List ClusterId
  hbm : List StackId
  /-- Dies C0 to C3, HW, HE whose steward, L3 and mesh, or crossbar, journal, directory or key storage fails. -/
  dies : List (Fin 6)
  chans : List (HubId × Fin 16)
  engines : List EngineRef
  bundles : List BundleId
  feeds : List FeedId
  islands : List HubId
  mgmtPorts : List HubId
  octets : List OctetId
  links : List ClusterId
  /-- Far-memory ports that are UP at the end of training, with their capacity in bytes (R416). -/
  farUp : List (PortId × Nat)
  /-- Jenrek test number of the findings. -/
  test : BitVec 16
  deriving DecidableEq, Repr

/-- Where a Flelet request arrives: a TLS connection, or a slot of an island's mailbox (R489, R494). -/
inductive FSource where
  | conn (n : Nat)
  | mailbox (island : HubId) (slot : Fin 16)
  deriving DecidableEq, Repr

/-- A Flelet packet but for its OPCODE: header fields and parameters (R496). -/
structure Packet where
  magic : BitVec 16
  version : Byte
  flags : Byte
  status : Byte
  detail : Byte
  sequence : BitVec 32
  session : BitVec 32
  plen : BitVec 32
  ticket : BitVec 32
  mode : Byte
  half : Byte
  island : Byte
  reserved : BitVec 40
  params : List Byte
  deriving DecidableEq, Repr

/-- A management unit that has been repaired (R445). -/
inductive MgmtUnit where
  | island (h : HubId)
  | port (h : HubId)
  | islandLink
  deriving DecidableEq, Repr

/-- The commands, one per row of the opcode table. An instruction names the strand `t` that executes it. -/
inductive Instr where
  /-- LD (R111): Zero-extending load of 1, 2, 4 or 8 bytes from data space into rd. -/
  | ld (t : StrandId) (sz : Size) (m : MemForm) (rd : Reg)
  /-- LDS (R111): Sign-extending load of 1, 2 or 4 bytes from data space into rd. -/
  | lds (t : StrandId) (sz : Size) (m : MemForm) (rd : Reg)
  /-- ST (R111): Store of the low 1, 2, 4 or 8 bytes of rd to data space through the store buffer. -/
  | st (t : StrandId) (sz : Size) (m : MemForm) (rd : Reg)
  /-- IRD (R111): Reads 8 bytes of instruction space as data into rd. -/
  | ird (t : StrandId) (base : Reg) (disp : BitVec 24) (rd : Reg)
  /-- IWR (R111): Writes 8 bytes of rd into instruction space, with no flush. -/
  | iwr (t : StrandId) (base : Reg) (disp : BitVec 24) (rd : Reg)
  /-- BMOVE (R139): Block move in data space in chunks of up to 256 bytes, committing after each chunk. -/
  | bmove (t : StrandId) (rd ra rb : Reg)
  /-- LDR (R112): Load that sets a reservation on the 256-byte granule holding the address. -/
  | ldr (t : StrandId) (wd : Width) (rd ra : Reg)
  /-- STC (R112): Stores rb only if the reservation holds, sets rd and CC, and ends the reservation. -/
  | stc (t : StrandId) (wd : Width) (rd ra rb : Reg)
  /-- CAS (R218): Indivisible compare-and-swap with full fence ordering before and after. -/
  | cas (t : StrandId) (wd : Width) (rd ra rb : Reg)
  /-- B_COND (R113): Branches to the offset when the selected condition of CS.STATUS.CC holds. -/
  | bCond (t : StrandId) (cond : BitVec 5) (off : BitVec 24)
  /-- BZ (R114): Branches when reg[ra] is zero. -/
  | bz (t : StrandId) (ra : Reg) (off : BitVec 24)
  /-- BNZ (R114): Branches when reg[ra] is non-zero. -/
  | bnz (t : StrandId) (ra : Reg) (off : BitVec 24)
  /-- BLTZ (R114): Branches when reg[ra] is negative. -/
  | bltz (t : StrandId) (ra : Reg) (off : BitVec 24)
  /-- BGEZ (R114): Branches when reg[ra] is zero or positive. -/
  | bgez (t : StrandId) (ra : Reg) (off : BitVec 24)
  /-- CALL (R52): Pushes the return address on the link stack, rotates the window forward and jumps to the target. -/
  | call (t : StrandId) (off : BitVec 24)
  /-- CALLR (R114): CALL to the address held in reg[ra]. -/
  | callr (t : StrandId) (ra : Reg)
  /-- JR (R114): Jumps to reg[ra][47:0]. -/
  | jr (t : StrandId) (ra : Reg)
  /-- RET (R53): Pops the return address, rotates the window back and returns. -/
  | ret (t : StrandId)
  /-- RTT (R63): Returns from a trap, restoring CS.STATUS from TINFO3 without raising privilege. -/
  | rtt (t : StrandId)
  /-- CSRD (R73): Reads a CS register by number into rd. -/
  | csrd (t : StrandId) (rd : Reg) (num : BitVec 12)
  /-- CSWR (R73): Writes reg[ra] to a CS register that has no behaviour of its own. -/
  | cswr (t : StrandId) (num : BitVec 12) (ra : Reg)
  /-- WRITE_CS_SPAD (R180): CSWR of CS.SPAD that converts L2 ways to or from scratchpad for the cluster. -/
  | writeCsSpad (t : StrandId) (ra : Reg)
  /-- WRITE_CS_CACHECTL (R191): CSWR of CS.CACHECTL that disables a cache level after writing it back, or enables it again. -/
  | writeCsCachectl (t : StrandId) (ra : Reg)
  /-- WRITE_CS_TCMP (R67): CSWR of CS.TCMP that sets the timer compare value and deasserts or asserts TIMER. -/
  | writeCsTcmp (t : StrandId) (sel : BitVec 3) (ra : Reg)
  /-- WRITE_CS_WIN (R55): CSWR of CS.WIN that sets WCUR and WBASE unless the resident count would be 15. -/
  | writeCsWin (t : StrandId) (ra : Reg)
  /-- SVC (R115): Raises SUPERVISOR_CALL with the 24-bit operand. -/
  | svc (t : StrandId) (imm : BitVec 24)
  /-- BRK (R115): Raises BREAKPOINT with the 24-bit operand. -/
  | brk (t : StrandId) (imm : BitVec 24)
  /-- WAIT (R115): Suspends the strand until a CS.IPEND bit is set or a machine check arises. -/
  | wait (t : StrandId)
  /-- WAIT_WAKE (R115): A suspended WAIT completes when a pending bit is set or a machine check arises. -/
  | waitWake (t : StrandId)
  /-- FENCE_M (R201): Waits until the store buffer is empty and every older data-space access is performed. -/
  | fenceM (t : StrandId)
  /-- FENCE_M_COMPLETE (R201): A waiting FENCE.M completes once the store buffer has drained. -/
  | fenceMComplete (t : StrandId)
  /-- FENCE_IO (R211): Waits for older I/O stores to complete or fail, then delivers any failure record. -/
  | fenceIo (t : StrandId)
  /-- FENCE_IO_COMPLETE (R211): A waiting FENCE.IO completes when its older I/O stores have ended, raising DEFERRED_STORE_ERROR if a record is held. -/
  | fenceIoComplete (t : StrandId)
  /-- TSYNC (R243): Waits for acknowledgement of every older TLBI, WCI and IFLUSH.RANGE of the strand. -/
  | tsync (t : StrandId)
  /-- TSYNC_COMPLETE (R243): A waiting TSYNC completes when every core and engine reached has acknowledged. -/
  | tsyncComplete (t : StrandId)
  /-- NOP (R115): Does nothing. -/
  | nop (t : StrandId)
  /-- CLOCK (R185): Locks the line holding ra into a lockable L2 way allowed by the way mask. -/
  | clock (t : StrandId) (ra : Reg)
  /-- CUNLOCK (R186): Clears the lock of a line or frees a locked LE slot. -/
  | cunlock (t : StrandId) (ra : Reg)
  /-- CINV_RANGE (R193): Writes back and invalidates the data-space lines of a range in the covered caches, line by line. -/
  | cinvRange (t : StrandId) (scope ra rb : Reg)
  /-- CINV_ALL (R193): Writes back and invalidates every covered cache level and releases its locks. -/
  | cinvAll (t : StrandId) (scope : Reg)
  /-- IFLUSH_RANGE (R100): Invalidates the instruction-space lines of a range in the L1I of every core in scope. -/
  | iflushRange (t : StrandId) (scope ra rb : Reg)
  /-- TLBI_VA (R241): Removes TLB entries translating one page for an ASID in the scope. -/
  | tlbiVa (t : StrandId) (scope ra rb : Reg) (x : Bool)
  /-- TLBI_TAG (R241): Removes TLB entries of one ASID, or of the whole partition with ALL. -/
  | tlbiTag (t : StrandId) (scope rb : Reg)
  /-- TLBI_ALL (R241): Removes all TLB entries of the partition, or of the module at scope 2. -/
  | tlbiAll (t : StrandId) (scope : Reg)
  /-- WCI_VA (R241): Removes walk-cache entries on the walk of one address. -/
  | wciVa (t : StrandId) (scope ra rb : Reg) (x : Bool)
  /-- WCI_TAG (R241): Removes walk-cache entries of one ASID, or of the partition including stage 2 with ALL. -/
  | wciTag (t : StrandId) (scope rb : Reg)
  /-- WCI_ALL (R241): Removes all walk-cache entries in scope. -/
  | wciAll (t : StrandId) (scope : Reg)
  /-- TLBI_ACK (R243): A core or engine acknowledges a TLBI or WCI once entries are removed and accesses through them are performed. -/
  | tlbiAck (a : AckAgent)
  /-- IOLD (R104): Checked load from a slice register in I/O space that waits for its reply. -/
  | iold (t : StrandId) (wd : Width) (rd : Reg) (iob : BitVec 2) (addr : BitVec 24)
  /-- IOLD_REPLY (R104): An IOLD reply arrives and is checked against the tag. -/
  | ioldReply (t : StrandId)
  /-- IOLD_TIMEOUT (R104): An IOLD gets no reply within the I/O completion timeout and completes with all ones and a held failure. -/
  | ioldTimeout (t : StrandId)
  /-- IOST (R103): Checked posted store to a slice register without behaviour of its own. -/
  | iost (t : StrandId) (wd : Width) (rd : Reg) (iob : BitVec 2) (addr : BitVec 24)
  /-- IODB (R105): Waits for older data-space stores to be visible, then posts a doorbell value. -/
  | iodb (t : StrandId) (rd : Reg) (iob : BitVec 2) (addr : BitVec 24)
  /-- SETIOB (R106): Writes a slice number into a bank register. -/
  | setiob (t : StrandId) (rd : Reg) (iob : BitVec 2) (addr : BitVec 24)
  /-- X_INSTRUCTION (R118): Runs a platform-owner customer micro-routine from the slip customer area. -/
  | xInstruction (t : StrandId) (fn : BitVec 4) (rd ra : Reg) (imm : BitVec 24)
  /-- X_BUDGET (R278): An X execution reaches 65,536 micro-words and is abandoned with ILLEGAL_INSTRUCTION. -/
  | xBudget (t : StrandId)
  /-- ADD (R122): Integer add. -/
  | add (t : StrandId) (wd : Width) (x : Bool) (rd ra rb : Reg)
  /-- SUB (R122): Integer subtract. -/
  | sub (t : StrandId) (wd : Width) (x : Bool) (rd ra rb : Reg)
  /-- ADC (R122): Integer add with carry. -/
  | adc (t : StrandId) (wd : Width) (x : Bool) (rd ra rb : Reg)
  /-- SBC (R122): Integer subtract with borrow. -/
  | sbc (t : StrandId) (wd : Width) (x : Bool) (rd ra rb : Reg)
  /-- AND (R122): Bitwise AND. -/
  | and (t : StrandId) (wd : Width) (x : Bool) (rd ra rb : Reg)
  /-- OR (R122): Bitwise OR. -/
  | or (t : StrandId) (wd : Width) (x : Bool) (rd ra rb : Reg)
  /-- XOR (R122): Bitwise XOR. -/
  | xor (t : StrandId) (wd : Width) (x : Bool) (rd ra rb : Reg)
  /-- ANDN (R122): Bitwise AND with the complement of rb. -/
  | andn (t : StrandId) (wd : Width) (x : Bool) (rd ra rb : Reg)
  /-- SLL (R124): Logical shift left by rb. -/
  | sll (t : StrandId) (wd : Width) (x : Bool) (rd ra rb : Reg)
  /-- SRL (R124): Logical shift right by rb. -/
  | srl (t : StrandId) (wd : Width) (x : Bool) (rd ra rb : Reg)
  /-- SRA (R124): Arithmetic shift right by rb. -/
  | sra (t : StrandId) (wd : Width) (x : Bool) (rd ra rb : Reg)
  /-- ROL (R124): Rotate left by rb. -/
  | rol (t : StrandId) (wd : Width) (x : Bool) (rd ra rb : Reg)
  /-- ROR (R124): Rotate right by rb. -/
  | ror (t : StrandId) (wd : Width) (x : Bool) (rd ra rb : Reg)
  /-- MUL (R122): Low half of the product. -/
  | mul (t : StrandId) (wd : Width) (x : Bool) (rd ra rb : Reg)
  /-- MULH (R122): High half of the signed product. -/
  | mulh (t : StrandId) (wd : Width) (x : Bool) (rd ra rb : Reg)
  /-- MULHU (R122): High half of the unsigned product. -/
  | mulhu (t : StrandId) (wd : Width) (x : Bool) (rd ra rb : Reg)
  /-- NEG (R125): Negation, with edge results for the most negative number. -/
  | neg (t : StrandId) (wd : Width) (rd ra : Reg)
  /-- ABS (R125): Absolute value, with edge results for the most negative number. -/
  | abs (t : StrandId) (wd : Width) (rd ra : Reg)
  /-- CMP (R122): Compares ra with rb and sets CC. -/
  | cmp (t : StrandId) (wd : Width) (ra rb : Reg)
  /-- DSTART (R129): Initialises division state and CC from dividend and divisor. -/
  | dstart (t : StrandId) (wd : Width) (x : Bool) (rd ra rb : Reg)
  /-- DSTEP (R130): Performs one radix-16 division step. -/
  | dstep (t : StrandId) (rd ra rb : Reg)
  /-- DEND (R131): Turns division state into quotient and remainder. -/
  | dend (t : StrandId) (wd : Width) (x : Bool) (rd ra rb : Reg)
  /-- ADDQ (R123): Adds a sign-extended 6-bit immediate. -/
  | addq (t : StrandId) (wd : Width) (rd ra : Reg) (imm : BitVec 6)
  /-- SLLQ (R123): Logical shift left by an immediate. -/
  | sllq (t : StrandId) (wd : Width) (rd ra : Reg) (imm : BitVec 6)
  /-- SRLQ (R123): Logical shift right by an immediate. -/
  | srlq (t : StrandId) (wd : Width) (rd ra : Reg) (imm : BitVec 6)
  /-- SRAQ (R123): Arithmetic shift right by an immediate. -/
  | sraq (t : StrandId) (wd : Width) (rd ra : Reg) (imm : BitVec 6)
  /-- RORQ (R123): Rotate right by an immediate. -/
  | rorq (t : StrandId) (wd : Width) (rd ra : Reg) (imm : BitVec 6)
  /-- CMPQ (R123): Compares ra with a 6-bit immediate. -/
  | cmpq (t : StrandId) (wd : Width) (ra : Reg) (imm : BitVec 6)
  /-- ADDI (R123): Adds a sign-extended 24-bit immediate. -/
  | addi (t : StrandId) (wd : Width) (cc : Bool) (rd ra : Reg) (imm : BitVec 24)
  /-- ANDI (R123): ANDs with a zero-extended 24-bit immediate. -/
  | andi (t : StrandId) (wd : Width) (cc : Bool) (rd ra : Reg) (imm : BitVec 24)
  /-- ORI (R123): ORs with a zero-extended 24-bit immediate. -/
  | ori (t : StrandId) (wd : Width) (cc : Bool) (rd ra : Reg) (imm : BitVec 24)
  /-- XORI (R123): XORs with a zero-extended 24-bit immediate. -/
  | xori (t : StrandId) (wd : Width) (cc : Bool) (rd ra : Reg) (imm : BitVec 24)
  /-- MULI (R123): Multiplies by a sign-extended 24-bit immediate. -/
  | muli (t : StrandId) (wd : Width) (cc : Bool) (rd ra : Reg) (imm : BitVec 24)
  /-- MOVI (R123): Loads a sign-extended 24-bit immediate. -/
  | movi (t : StrandId) (wd : Width) (rd : Reg) (imm : BitVec 24)
  /-- SHLI24 (R123): Shifts ra left 24 bits and ORs in a 24-bit immediate. -/
  | shli24 (t : StrandId) (rd ra : Reg) (imm : BitVec 24)
  /-- CMPI (R123): Compares ra with a 24-bit immediate. -/
  | cmpi (t : StrandId) (wd : Width) (ra : Reg) (imm : BitVec 24)
  /-- DADD (R134): Packed-decimal add from memory to memory. -/
  | dadd (t : StrandId) (rd ra : Reg) (l1 l2 : BitVec 4)
  /-- DSUB (R134): Packed-decimal subtract. -/
  | dsub (t : StrandId) (rd ra : Reg) (l1 l2 : BitVec 4)
  /-- DCMP (R134): Packed-decimal algebraic compare. -/
  | dcmp (t : StrandId) (rd ra : Reg) (l1 l2 : BitVec 4)
  /-- DMOVE (R134): Packed-decimal move with the preferred sign. -/
  | dmove (t : StrandId) (rd ra : Reg) (l1 l2 : BitVec 4)
  /-- FADD (R148): Floating add. -/
  | fadd (t : StrandId) (fmt : FFmt) (form : FForm) (fd fa fb : Reg)
  /-- FSUB (R148): Floating subtract. -/
  | fsub (t : StrandId) (fmt : FFmt) (form : FForm) (fd fa fb : Reg)
  /-- FMUL (R148): Floating multiply. -/
  | fmul (t : StrandId) (fmt : FFmt) (form : FForm) (fd fa fb : Reg)
  /-- FPSYNC (R164): Waits for floating detection and delivers any pending enabled exception. -/
  | fpsync (t : StrandId)
  /-- FMOV (R148): Copies all 128 bits of an f register. -/
  | fmov (t : StrandId) (fd fa : Reg)
  /-- FMVG (R148): Moves 64 bits between a general and an f register. -/
  | fmvg (t : StrandId) (x : Bool) (rd ra : Reg) (hi : Reg)
  /-- FDSTART (R159): Starts a floating division in step form. -/
  | fdstart (t : StrandId) (fmt : FFmt) (fd fa fb : Reg)
  /-- FDSTEP (R159): Advances a floating division by one step. -/
  | fdstep (t : StrandId) (fmt : FFmt) (fd fa fb : Reg)
  /-- FDEND (R159): Ends a floating division, writing the result and flags. -/
  | fdend (t : StrandId) (fmt : FFmt) (fd fa fb : Reg)
  /-- FSQSTART (R159): Starts a square root in step form. -/
  | fsqstart (t : StrandId) (fmt : FFmt) (fd fa : Reg)
  /-- FSQSTEP (R159): Advances a square root by one step. -/
  | fsqstep (t : StrandId) (fmt : FFmt) (fd fa : Reg)
  /-- FSQEND (R159): Ends a square root, writing the result and flags. -/
  | fsqend (t : StrandId) (fmt : FFmt) (fd fa : Reg)
  /-- FCMP (R157): Floating compare that sets CC. -/
  | fcmp (t : StrandId) (fmt : FFmt) (sig : Bool) (fa fb : Reg)
  /-- FLD (R149): Floating load. -/
  | fld (t : StrandId) (fmt : FFmt) (fd base : Reg) (disp : BitVec 24)
  /-- FST (R149): Floating store. -/
  | fst (t : StrandId) (fmt : FFmt) (fd base : Reg) (disp : BitVec 24)
  /-- FMADD (R149): Fused multiply-add. -/
  | fmadd (t : StrandId) (fmt : FFmt) (rnd : BitVec 3) (fd fa fb fc : Reg)
  /-- FMSUB (R149): Fused multiply-subtract. -/
  | fmsub (t : StrandId) (fmt : FFmt) (rnd : BitVec 3) (fd fa fb fc : Reg)
  /-- FNMADD (R149): Negated fused multiply-add. -/
  | fnmadd (t : StrandId) (fmt : FFmt) (rnd : BitVec 3) (fd fa fb fc : Reg)
  /-- FNMSUB (R149): Negated fused multiply-subtract. -/
  | fnmsub (t : StrandId) (fmt : FFmt) (rnd : BitVec 3) (fd fa fb fc : Reg)
  /-- FMIN (R158): IEEE minimum. -/
  | fmin (t : StrandId) (fmt : FFmt) (fd fa fb : Reg)
  /-- FMAX (R158): IEEE maximum. -/
  | fmax (t : StrandId) (fmt : FFmt) (fd fa fb : Reg)
  /-- FMINNUM (R158): IEEE minimumNumber. -/
  | fminnum (t : StrandId) (fmt : FFmt) (fd fa fb : Reg)
  /-- FMAXNUM (R158): IEEE maximumNumber. -/
  | fmaxnum (t : StrandId) (fmt : FFmt) (fd fa fb : Reg)
  /-- FNEG (R149): Negates the sign bit. -/
  | fneg (t : StrandId) (fmt : FFmt) (fd fa : Reg)
  /-- FABS (R149): Clears the sign bit. -/
  | fabs (t : StrandId) (fmt : FFmt) (fd fa : Reg)
  /-- FCPYSGN (R149): Takes the sign bit from fb. -/
  | fcpysgn (t : StrandId) (fmt : FFmt) (fd fa fb : Reg)
  /-- FCVT (R161): Converts between floating formats. -/
  | fcvt (t : StrandId) (c : FConv) (rnd : BitVec 3) (fd fa : Reg)
  /-- FCVTFI (R161): Converts a 64-bit integer to floating. -/
  | fcvtfi (t : StrandId) (fmt : FFmt) (u : Bool) (rnd : BitVec 3) (fd ra : Reg)
  /-- FCVTIF (R161): Converts floating to a 64-bit integer. -/
  | fcvtif (t : StrandId) (fmt : FFmt) (u : Bool) (rnd : BitVec 3) (rd fa : Reg)
  /-- FRINT (R149): Rounds to an integral floating value. -/
  | frint (t : StrandId) (fmt : FFmt) (rnd : BitVec 3) (exact : Bool) (fd fa : Reg)
  /-- INTERRUPT_TAKEN (R66): An enabled INTERRUPT source is taken at an instruction boundary. -/
  | interruptTaken (t : StrandId)
  /-- FAST_INTERRUPT (R66): An enabled fast event is taken at TL 0, entering TL 1. -/
  | fastInterrupt (t : StrandId)
  /-- TIMER (R67): CS.TOD reaches CS.TCMP, asserting TIMER for that target. -/
  | timer (t : StrandId) (tgt : TimerTarget)
  /-- FP_DEFERRED (R163): A pending floating exception is delivered at a TL 0 boundary. -/
  | fpDeferred (t : StrandId)
  /-- HELD_EVENT (R554): An event held behind a window overflow is delivered at the next TL 0 boundary. -/
  | heldEvent (t : StrandId)
  /-- STORE_PERFORMED (R197): The oldest store leaves the store buffer and is performed. -/
  | storePerformed (t : StrandId)
  /-- LINE_FILL (R173): A missed line is installed in the L1 and its parked strand resumes. -/
  | lineFill (t : StrandId)
  /-- WRITE_BACK_ACCEPTED (R177): The home accepts a departing write-back, freeing the way and releasing held requests. -/
  | writeBackAccepted (l : Line)
  /-- WRITE_BACK_RESEND (R435): An unaccepted write-back is resent every 2 µs. -/
  | writeBackResend (l : Line)
  /-- RESERVATION_HOLD_EXPIRY (R217): The 64 rc hold on a reserved granule ends and deferred requests are served. -/
  | reservationHoldExpiry (t : StrandId)
  /-- DIRECTORY_READ (R169): The home directory handles a read request from a cluster. -/
  | directoryRead (c : ClusterId) (l : Line)
  /-- DIRECTORY_WRITE_REQUEST (R169): The home directory handles a write request from a cluster. -/
  | directoryWriteRequest (c : ClusterId) (l : Line)
  /-- DMA_READ (R169): The home directory handles an engine DMA read. -/
  | dmaRead (l : Line) (slot : Byte)
  /-- DMA_WRITE (R347): An engine DMA write arrives, is checked against the slice generation and performed or dropped. -/
  | dmaWrite
  /-- COHERENCE_INVALIDATION (R187): An L2 receives an invalidation and removes the line, keeping locked slots in LE. -/
  | coherenceInvalidation (c : ClusterId) (l : Line)
  /-- IO_STORE_ARRIVAL (R103): A posted I/O store reaches the slice directory and is checked and performed or refused. -/
  | ioStoreArrival (t : StrandId) (s : SliceId)
  /-- IO_STORE_TIMEOUT (R208): A posted I/O store has not completed when its timeout expires and fails. -/
  | ioStoreTimeout (t : StrandId) (s : SliceId)
  /-- DOORBELL (R349): The slice directory receives a doorbell and accepts or ignores the new tail. -/
  | doorbell (t : StrandId) (s : SliceId)
  /-- WRITE_SQCFG (R350): IOST to SQCFG that enables or configures the submission ring. -/
  | writeSqcfg (t : StrandId) (s : SliceId)
  /-- WRITE_CQCFG (R352): IOST to CQCFG that enables, disables or configures the completion ring and events. -/
  | writeCqcfg (t : StrandId) (s : SliceId)
  /-- WRITE_CQHEAD (R355): IOST to CQHEAD that consumes completion entries. -/
  | writeCqhead (t : StrandId) (s : SliceId)
  /-- CLEAR_FAULT (R356): W1C write of SQSTAT or CQSTAT FAULT, making the engine retry the entry. -/
  | clearFault (t : StrandId) (s : SliceId)
  /-- WRITE_QPCFG (R370): IOST to QPCFG that enables or resets a NETQ queue pair. -/
  | writeQpcfg (t : StrandId) (s : SliceId)
  /-- WRITE_MRCTL (R373): IOST to MRCTL that enables or disables an inbound RDMA region. -/
  | writeMrctl (t : StrandId) (s : SliceId)
  /-- START_RECORD (R288): A channel engine reads a Start Record and refuses or accepts it. -/
  | startRecord (s : SliceId)
  /-- HELD_RECORD_WRITE (R307): A record held for lack of completion-ring space is written when space appears. -/
  | heldRecordWrite (s : SliceId)
  /-- CCE_FETCH (R301): The engine fetches and checks the next CCE and performs or issues its command. -/
  | cceFetch (ix : Nat)
  /-- DEVICE_COMPLETION (R321): A device completion arrives and is accepted with a durable checkpoint or suppressed. -/
  | deviceCompletion (id : Nat) (r : DevResult)
  /-- FINAL_POST (R323): The final record is placed in a reserved ring entry or the orphan queue and the entry retires. -/
  | finalPost (ix : Nat)
  /-- SESSION_END (R330): The failed path's session with the target ends, ending a re-driven WRITE's wait. -/
  | sessionEnd (p : PortId) (target : Nat)
  /-- PATH_FAILURE (R328): A port reports a path failure and the engines change path. -/
  | pathFailure (p : PortId) (target : Option Nat)
  /-- DEVICE_TIMEOUT (R332): A device command exceeds its timeout and an abort is sent. -/
  | deviceTimeout (id : Nat)
  /-- ABORT_CONFIRMED (R332): The device confirms an abort and the program ends with DEVICE_TIMEOUT. -/
  | abortConfirmed (id : Nat)
  /-- ABORT_WAIT_EXPIRY (R332): 5 s after an unconfirmed abort, the program ends and the path is set FAILED. -/
  | abortWaitExpiry (id : Nat)
  /-- PATH_PROBE (R331): A FAILED path is probed every 1 s and set ONLINE on success. -/
  | pathProbe (s : SliceId) (image : BitVec 12) (path : Fin 8) (r : ProbeResult)
  /-- ENGINE_FAULT (R280): A channel engine fault enters the fault or check bank or check-stops the engine. -/
  | engineFault (h : HubId) (n : Fin 16) (k : EngineEvent)
  /-- DRAIN_BLOCK_CONFIRMED (R337): The drive confirms a drained block and its buffer space is freed. -/
  | drainBlockConfirmed (stream : Fin 64) (r : DevResult)
  /-- DRAIN_BARRIER_RELEASE (R338): A command waiting at a drain barrier starts once the drain is empty. -/
  | drainBarrierRelease (stream : Fin 64)
  /-- GENERATION_WAIT_EXPIRY (R349): A generation-advancing slice command proceeds once 20 µs have passed since the previous advance. -/
  | generationWaitExpiry (s : SliceId)
  /-- STALE_WRITE_EXPIRY (R347): A tagged engine write still in flight after 100 ms is dropped. -/
  | staleWriteExpiry
  /-- SLICE_DRAIN_COMPLETE (R366): A draining slice writes void entries and becomes BOUND or FREE. -/
  | sliceDrainComplete (s : SliceId)
  /-- COMPLETION_EVENT_DELAY (R357): The oldest unconsumed completion entry reaches DELAY µs of age, asserting the completion event. -/
  | completionEventDelay (s : SliceId)
  /-- ARBITRATION_ROUND (R362): A pool selects the next slice job by weighted fair queueing. -/
  | arbitrationRound (h : HubId) (p : PoolKind)
  /-- COMPRESS (R381): DEFLATE compression job with verification. -/
  | compress (e : EngineRef)
  /-- DECOMPRESS (R388): DEFLATE decompression job. -/
  | decompress (e : EngineRef)
  /-- CONTINUE (R381): Continues a compression or decompression job from its state record. -/
  | continueJob (e : EngineRef)
  /-- AES_GCM_ENCRYPT (R390): AES-GCM encryption job. -/
  | aesGcmEncrypt (e : EngineRef)
  /-- AES_GCM_DECRYPT (R391): AES-GCM decryption job, zeroing output on tag failure. -/
  | aesGcmDecrypt (e : EngineRef)
  /-- AES_XTS_ENCRYPT (R390): AES-XTS encryption job. -/
  | aesXtsEncrypt (e : EngineRef)
  /-- AES_XTS_DECRYPT (R390): AES-XTS decryption job. -/
  | aesXtsDecrypt (e : EngineRef)
  /-- AES_CBC_ENCRYPT (R390): AES-CBC encryption job. -/
  | aesCbcEncrypt (e : EngineRef)
  /-- AES_CBC_DECRYPT (R390): AES-CBC decryption job. -/
  | aesCbcDecrypt (e : EngineRef)
  /-- CHACHA20_POLY1305_ENCRYPT (R390): ChaCha20-Poly1305 encryption job. -/
  | chachaEncrypt (e : EngineRef)
  /-- CHACHA20_POLY1305_DECRYPT (R391): ChaCha20-Poly1305 decryption job. -/
  | chachaDecrypt (e : EngineRef)
  /-- HASH (R390): Hash job, resumable through a state record. -/
  | hash (e : EngineRef)
  /-- HMAC (R390): HMAC job with a keyed handle. -/
  | hmac (e : EngineRef)
  /-- KEY_GENERATE (R394): Generates a key table entry and returns its handle. -/
  | keyGenerate (e : EngineRef)
  /-- KEY_IMPORT_CLEAR (R394): Imports clear key material as a key table entry. -/
  | keyImportClear (e : EngineRef)
  /-- KEY_WRAP (R395): Writes a key as a blob under the module wrapping key. -/
  | keyWrap (e : EngineRef)
  /-- KEY_UNWRAP (R394): Imports a blob of the owner's domain as a key entry. -/
  | keyUnwrap (e : EngineRef)
  /-- KEY_DESTROY (R396): Destroys a key entry after jobs using it end. -/
  | keyDestroy (e : EngineRef)
  /-- KEY_PUBLIC (R394): Returns the public key of an asymmetric entry. -/
  | keyPublic (e : EngineRef)
  /-- RSA_SIGN (R397): RSA signature job. -/
  | rsaSign (e : EngineRef)
  /-- RSA_VERIFY (R397): RSA verification job. -/
  | rsaVerify (e : EngineRef)
  /-- RSA_DECRYPT (R397): RSA-OAEP decryption job. -/
  | rsaDecrypt (e : EngineRef)
  /-- RSA_ENCRYPT (R397): RSA-OAEP encryption job. -/
  | rsaEncrypt (e : EngineRef)
  /-- ECDSA_SIGN (R397): ECDSA signature job. -/
  | ecdsaSign (e : EngineRef)
  /-- ECDSA_VERIFY (R397): ECDSA verification job. -/
  | ecdsaVerify (e : EngineRef)
  /-- ED25519_SIGN (R397): Ed25519 signature job. -/
  | ed25519Sign (e : EngineRef)
  /-- ED25519_VERIFY (R397): Ed25519 verification job. -/
  | ed25519Verify (e : EngineRef)
  /-- MLKEM_ENCAPS (R397): ML-KEM encapsulation job. -/
  | mlkemEncaps (e : EngineRef)
  /-- MLKEM_DECAPS (R397): ML-KEM decapsulation job creating an AES-256 key entry. -/
  | mlkemDecaps (e : EngineRef)
  /-- MLDSA_SIGN (R397): ML-DSA signature job. -/
  | mldsaSign (e : EngineRef)
  /-- MLDSA_VERIFY (R397): ML-DSA verification job. -/
  | mldsaVerify (e : EngineRef)
  /-- JOB_COMPLETE (R378): A compression or cryptographic job ends and writes its 32-byte record. -/
  | jobComplete (s : SliceId)
  /-- ATTEMPT_END (R384): A verification mismatch or engine check-stop ends a job attempt and takes the engine out of service. -/
  | attemptEnd (e : EngineRef) (k : AttemptEndKind)
  /-- RERUN_START (R384): A job whose attempt ended starts again on an unused engine in service. -/
  | rerunStart (s : SliceId)
  /-- SEND (R371): NETQ SEND work request. -/
  | send (s : SliceId) (q : Byte)
  /-- SEND_IMM (R371): NETQ SEND with immediate work request. -/
  | sendImm (s : SliceId) (q : Byte)
  /-- RDMA_WRITE (R371): NETQ RDMA WRITE work request. -/
  | rdmaWrite (s : SliceId) (q : Byte)
  /-- RDMA_WRITE_IMM (R371): NETQ RDMA WRITE with immediate work request. -/
  | rdmaWriteImm (s : SliceId) (q : Byte)
  /-- RDMA_READ (R371): NETQ RDMA READ work request. -/
  | rdmaRead (s : SliceId) (q : Byte)
  /-- RECV (R371): NETQ receive work request. -/
  | recv (s : SliceId) (q : Byte)
  /-- INBOUND_RDMA (R373): An inbound RDMA operation is checked against a memory region and performed or NAKed. -/
  | inboundRdma (r : InboundRdma)
  /-- NETQ_COMPLETION (R372): A NETQ work request completes and its completion entry is written. -/
  | netqCompletion (s : SliceId) (q : Byte) (r : NetqResult)
  /-- TRANSPORT_RETRY_TIMEOUT (R413): The RoCEv2 transport retry timer expires and the request is retried or ends RETRY_EXCEEDED. -/
  | transportRetryTimeout (s : SliceId) (q : Byte)
  /-- CNP_RECEIVED (R413): A congestion notification packet reduces a queue pair's sending rate. -/
  | cnpReceived (s : SliceId) (q : Byte)
  /-- FRAME_RECEIVED (R412): An Ethernet frame is received and handled or discarded. -/
  | frameReceived (p : PortId) (f : FrameKind)
  /-- LINK_UP (R407): Port training succeeds and the port comes UP. -/
  | linkUp (p : PortId) (gen width : Byte)
  /-- TRAINING_TIMEOUT (R409): A port's training bound passes and training restarts. -/
  | trainingTimeout (p : PortId)
  /-- LINK_LOSS (R410): A port declares a link loss and reports path failures. -/
  | linkLoss (p : PortId) (cause : Byte)
  /-- HOLD_EXPIRY (R407): After 10 s in HOLD a port returns to TRAINING. -/
  | holdExpiry (p : PortId)
  /-- TRANSIENT_ERROR (R423): A compare, parity, ECC or residue error causes an immediate retry. -/
  | transientError (at' : ErrSite) (u : ErrUnit) (failedRetry : Bool)
  /-- PROVING_ROUND (R429): A 10 s proving-loop round of a spare or engine ends with a health report. -/
  | provingRound (u : ProvedUnit) (pass : Bool) (test : BitVec 16)
  /-- ENGINE_IDLE_TIMEOUT (R429): An engine idle for 1 s enters the proving loop. -/
  | engineIdleTimeout (u : ProvedUnit)
  /-- SCRUB_READ (R431): A controller reads and repairs a line of its stack in the daily scrub. -/
  | scrubRead (l : Line) (o : ReadOutcome)
  /-- PARITY_WRITEBACK (R433): A dirty parity line is written back within 1 ms of its first delta. -/
  | parityWriteback (m : StackId) (row : Nat)
  /-- STACK_FAILED (R434): An HBM stack is declared failed and the module enters EXPOSED. -/
  | stackFailed (m : StackId) (cause : Byte)
  /-- FAR_MEMBER_LOST (R436): A far-memory member is lost and the range runs on the survivor. -/
  | farMemberLost (base : BitVec 32) (member : Fin 2)
  /-- FAR_COPY_DONE (R436): The rebuild copy of a returned far-memory member ends. -/
  | farCopyDone (base : BitVec 32)
  /-- BUNDLE_LOST (R439): A bridge endpoint declares its bundle lost and traffic moves to the other bundle. -/
  | bundleLost (b : BundleId)
  /-- BUNDLE_RETRAIN (R439): The steering island retrains a lost bundle every 1 s. -/
  | bundleRetrain (b : BundleId) (ok : Bool)
  /-- BUNDLE_READMITTED (R439): After 10 s of error-free test traffic a bundle is readmitted. -/
  | bundleReadmitted (b : BundleId)
  /-- FEED_CURRENT_WINDOW (R440): A 1 ms phase-current comparison flags phases and may declare a feed lost. -/
  | feedCurrentWindow (flagA flagB : Fin 97)
  /-- FEED_PROVING (R441): Every 60 s the load is moved onto each feed in turn and checked. -/
  | feedProving (passA passB : Bool)
  /-- FEED_ADMITTED (R442): A lost feed matching its partners for 60 s is proved and admitted. -/
  | feedAdmitted (f : FeedId) (pass : Bool)
  /-- FEED_APPLIED (R540): A main feed is applied or removed at the lands. -/
  | feedApplied (f : FeedId) (present : Bool)
  /-- HEARTBEAT (R443): The steering island sends a heartbeat every 1 ms. -/
  | heartbeat
  /-- ISLAND_TAKEOVER (R443): The shadow island takes over after 5 ms without heartbeat. -/
  | islandTakeover
  /-- MGMT_PORT_FAILED (R444): A management port fails and Flelet is relayed through the other port. -/
  | mgmtPortFailed (h : HubId)
  /-- STEWARD_FRAME (R26): A steward-bus frame is received, or repeated after a CRC failure. -/
  | stewardFrame (l : StewardLink) (copyA copyB rep : Bool)
  /-- CLUSTER_LOST (R28): After 10 ms of silence a cluster is taken as lost and its strands stop. -/
  | clusterLost (c : ClusterId)
  /-- DIE_LOST (R446): Loss of a compute die stops its strands and the half's memory users. -/
  | dieLost (d : CDieId)
  /-- HUB_LOST (R447): Loss of a hub die moves all slices and journal to the surviving hub. -/
  | hubLost (h : HubId)
  /-- STEWARD_SILENCE (R488): No die steward frame for 100 ms makes the island open the feeds and enter STANDBY. -/
  | stewardSilence
  /-- LEASE_GRANT (R455): An island receives the tie-breaker grant and takes LEAD or FENCED. -/
  | leaseGrant (island half : HubId)
  /-- LEASE_TIMEOUT (R455): No island-link frame within 5 ms of entry decides the half-state by preference. -/
  | leaseTimeout (island : HubId)
  /-- LEASE_RENEWAL (R455): The lease is renewed every 100 ms while the cross wires carry frames. -/
  | leaseRenewal
  /-- SHARED_TARGET_DELAY (R460): 100 ms after entry, LEAD may issue commands to shared targets. -/
  | sharedTargetDelay
  /-- REJOIN_READY (R466): A bundle running error-free for 10 s makes both halves report ready to rejoin. -/
  | rejoinReady (b : BundleId)
  /-- MIRROR_COPY_DONE (R450): The primary-to-twin copy ends and the placement ticket completes. -/
  | mirrorCopyDone (part : Byte)
  /-- REJOIN_COPY_DONE (R467): The rejoin copy of primary ranges ends and the module leaves SPLIT. -/
  | rejoinCopyDone
  /-- START_ATTEMPT (R473): The island closes the feed switches in a start attempt, by AUTOSTART timer. -/
  | startAttempt
  /-- START_ATTEMPT_TIMEOUT (R473): No die steward reports within 3 s and the attempt fails. -/
  | startAttemptTimeout
  /-- PROVING_STEP_COMPLETE (R474): A PROVING step ends and the next begins. -/
  | provingStepComplete (f : Findings)
  /-- PROVING_TIMEOUT (R474): PROVING passes 180 s and the module enters FALLOW. -/
  | provingTimeout
  /-- CONNECTION_OPEN (R489): A TCP/TLS connection arrives at a management port. -/
  | connectionOpen (port : HubId) (cert : CertKind)
  /-- SESSION_TIMEOUT (R491): A session with no packet for 600 s ends. -/
  | sessionTimeout (conn : Nat)
  /-- MAILBOX_POLL (R495): The steering island reads mailbox STATE words and performs requests. -/
  | mailboxPoll (island : HubId)
  /-- IMAGE_STAGING_TIMEOUT (R507): A staging area without IMAGE_DATA for 600 s is discarded. -/
  | imageStagingTimeout (target : Byte)
  /-- SESSION_OPEN (R491): Opens an OWNER or VIEWER session. -/
  | sessionOpen (src : FSource) (p : Packet)
  /-- SESSION_CLOSE (R503): Closes the session and its connection. -/
  | sessionClose (src : FSource) (p : Packet)
  /-- GET_IDENTITY (R503): Returns part, serial and firmware identity. -/
  | getIdentity (src : FSource) (p : Packet)
  /-- GET_INVENTORY (R503): Returns the state of every unit. -/
  | getInventory (src : FSource) (p : Packet)
  /-- SET_OWNER_ANCHOR (R490): Sets the owner anchor keys. -/
  | setOwnerAnchor (src : FSource) (p : Packet)
  /-- SET_MGMT_NET (R503): Sets the management port addresses. -/
  | setMgmtNet (src : FSource) (p : Packet)
  /-- GET_RESULT (R502): Reads a ticket's state or result. -/
  | getResult (src : FSource) (p : Packet)
  /-- RELEASE_RESULT (R502): Frees a finished ticket. -/
  | releaseResult (src : FSource) (p : Packet)
  /-- POWER_ON (R469): Clears the off-hold and makes a start attempt. -/
  | powerOn (src : FSource) (p : Packet)
  /-- POWER_OFF (R469): Opens both feed switches and sets the off-hold. -/
  | powerOff (src : FSource) (p : Packet)
  /-- ENTER_FALLOW (R469): Forces entry to FALLOW. -/
  | enterFallow (src : FSource) (p : Packet)
  /-- PROVE (R469): Runs PROVING again from FALLOW. -/
  | prove (src : FSource) (p : Packet)
  /-- SET_AUTOSTART (R469): Stores the AUTOSTART flag. -/
  | setAutostart (src : FSource) (p : Packet)
  /-- GET_MODE (R469): Reports mode, half-state, reason and feeds. -/
  | getMode (src : FSource) (p : Packet)
  /-- SET_PREFERRED_HALF (R454): Sets the preferred half for the lease. -/
  | setPreferredHalf (src : FSource) (p : Packet)
  /-- REJOIN (R466): Starts rejoin of the halves. -/
  | rejoin (src : FSource) (p : Packet)
  /-- SET_PLACEMENT (R449): Declares a partition's placement. -/
  | setPlacement (src : FSource) (p : Packet)
  /-- GET_FEEDS (R505): Reports feed admission and flagged phases. -/
  | getFeeds (src : FSource) (p : Packet)
  /-- SET_RAIL_LIMITS (R34): Sets rail floor and ceiling for domains, clamping setpoints. -/
  | setRailLimits (src : FSource) (p : Packet)
  /-- SET_RAIL (R34): Requests a domain rail setpoint. -/
  | setRail (src : FSource) (p : Packet)
  /-- SET_DOMAIN (R486): Switches a power domain on or off. -/
  | setDomain (src : FSource) (p : Packet)
  /-- GET_DOMAINS (R505): Reports domain power states. -/
  | getDomains (src : FSource) (p : Packet)
  /-- GET_TILTH (R531): Reads tilth report records. -/
  | getTilth (src : FSource) (p : Packet)
  /-- GET_PACE (R39): Reads pace records. -/
  | getPace (src : FSource) (p : Packet)
  /-- READ_SILT (R527): Reads silt log records. -/
  | readSilt (src : FSource) (p : Packet)
  /-- FREEZE_SILT (R528): Freezes the silt log. -/
  | freezeSilt (src : FSource) (p : Packet)
  /-- THAW_SILT (R525): Thaws the silt log. -/
  | thawSilt (src : FSource) (p : Packet)
  /-- READ_RETAINED (R528): Reads a retained log from flash. -/
  | readRetained (src : FSource) (p : Packet)
  /-- CLEAR_RETAINED (R528): Clears retained logs. -/
  | clearRetained (src : FSource) (p : Packet)
  /-- IMAGE_BEGIN (R507): Opens an image staging area. -/
  | imageBegin (src : FSource) (p : Packet)
  /-- IMAGE_DATA (R507): Writes image bytes into staging. -/
  | imageData (src : FSource) (p : Packet)
  /-- IMAGE_COMMIT (R508): Checks and commits a staged image. -/
  | imageCommit (src : FSource) (p : Packet)
  /-- IMAGE_ABORT (R506): Discards a staging area. -/
  | imageAbort (src : FSource) (p : Packet)
  /-- SET_ACTIVE_SLOT (R506): Chooses the active supervisor slot. -/
  | setActiveSlot (src : FSource) (p : Packet)
  /-- GET_FIRMWARE (R506): Reports firmware slots and sequence floor. -/
  | getFirmware (src : FSource) (p : Packet)
  /-- BIND_SLICE (R344): Binds a slice to an owner. -/
  | bindSlice (src : FSource) (p : Packet)
  /-- UNBIND_SLICE (R368): Drains and frees a slice. -/
  | unbindSlice (src : FSource) (p : Packet)
  /-- RESET_SLICE (R366): Drains a slice with work in flight and advances its generation. -/
  | resetSlice (src : FSource) (p : Packet)
  /-- SET_SHARE (R364): Sets a slice's weight and limit. -/
  | setShare (src : FSource) (p : Packet)
  /-- SET_ROUTE (R344): Sets a slice's completion event target. -/
  | setRoute (src : FSource) (p : Packet)
  /-- SET_WAKE (R359): Sets a partition's wake target and mask. -/
  | setWake (src : FSource) (p : Packet)
  /-- SET_PARTITION (R510): Creates or changes a partition. -/
  | setPartition (src : FSource) (p : Packet)
  /-- SET_SUBCHANNEL (R282): Creates or changes a subchannel. -/
  | setSubchannel (src : FSource) (p : Packet)
  /-- REMOVE_SUBCHANNEL (R509): Removes a subchannel. -/
  | removeSubchannel (src : FSource) (p : Packet)
  /-- SET_PATH_STATE (R509): Sets a path ONLINE or OFFLINE. -/
  | setPathState (src : FSource) (p : Packet)
  /-- SET_TARGET (R511): Sets a target table entry. -/
  | setTarget (src : FSource) (p : Packet)
  /-- SET_NETADDR (R512): Sets a network address table entry. -/
  | setNetaddr (src : FSource) (p : Packet)
  /-- DECLARE_STREAM (R336): Declares a tape stream. -/
  | declareStream (src : FSource) (p : Packet)
  /-- REMOVE_STREAM (R336): Removes a tape stream. -/
  | removeStream (src : FSource) (p : Packet)
  /-- READ_JOURNAL (R318): Reads outstanding journal entries. -/
  | readJournal (src : FSource) (p : Packet)
  /-- READ_ORPHANS (R335): Delivers orphan records. -/
  | readOrphans (src : FSource) (p : Packet)
  /-- SET_OCTET (R406): Stores or applies an octet record. -/
  | setOctet (src : FSource) (p : Packet)
  /-- SET_FARMEM (R509): Stores the far-memory pair configuration. -/
  | setFarmem (src : FSource) (p : Packet)
  /-- READ_PAM (R247): Returns the physical attribute map. -/
  | readPam (src : FSource) (p : Packet)
  /-- CLEAR_POISON (R509): Writes and unpoisons a lost line. -/
  | clearPoison (src : FSource) (p : Packet)
  /-- READ_STRAND (R513): Returns a stopped strand's image. -/
  | readStrand (src : FSource) (p : Packet)
  /-- START_STRAND (R514): Loads an image and starts a strand. -/
  | startStrand (src : FSource) (p : Packet)
  /-- RELEASE_STRAND (R514): Releases a stopped strand. -/
  | releaseStrand (src : FSource) (p : Packet)
  /-- GET_TRANSPORT_KEY (R515): Returns the module's ML-KEM transport key. -/
  | getTransportKey (src : FSource) (p : Packet)
  /-- LOAD_KEY (R516): Loads a signed, encapsulated key into the key table. -/
  | loadKey (src : FSource) (p : Packet)
  /-- LOAD_MEMKEY (R252): Loads a memory-encryption key slot. -/
  | loadMemkey (src : FSource) (p : Packet)
  /-- CLEAR_MEMKEY (R515): Empties a memory-encryption key slot. -/
  | clearMemkey (src : FSource) (p : Packet)
  /-- SET_KEY_QUOTA (R515): Sets a partition's key quota. -/
  | setKeyQuota (src : FSource) (p : Packet)
  /-- REASSIGN_KEY (R515): Changes a key entry's owner. -/
  | reassignKey (src : FSource) (p : Packet)
  /-- DESTROY_KEY (R396): Destroys a key entry through Flelet. -/
  | destroyKey (src : FSource) (p : Packet)
  /-- READ_UNIT (R517): Returns one unit's tilth record. -/
  | readUnit (src : FSource) (p : Packet)
  /-- RUN_SELFTEST (R517): Runs a unit self-test in FALLOW. -/
  | runSelftest (src : FSource) (p : Packet)
  /-- DIAG_DOMAIN (R517): Switches a domain for diagnosis in FALLOW. -/
  | diagDomain (src : FSource) (p : Packet)
  /-- READ_PHYS (R517): Reads physical memory under a key slot in FALLOW. -/
  | readPhys (src : FSource) (p : Packet)
  /-- READ_JOURNAL_RAW (R517): Reads raw journal entries in FALLOW. -/
  | readJournalRaw (src : FSource) (p : Packet)
  /-- TEST_PORT (R546): Opens or closes the IEEE 1149.1 test port. -/
  | testPort (src : FSource) (p : Packet)
  /-- SILT_EVENT (R519): A reported event is assigned SEQ and stored in the silt log. -/
  | siltEvent (loc code : BitVec 16) (data : BitVec 128)
  /-- RETAINED_LOG_WRITTEN (R524): The retained log write to flash completes, letting a pending thaw take effect. -/
  | retainedLogWritten
  /-- TOD_SAVE (R532): The steering island saves CS.TOD to flash every 60 s. -/
  | todSave
  /-- DARK_START (R533): An island boots from dark, resumes CS.TOD and enters STANDBY. -/
  | darkStart (h : HubId) (straps : BitVec 3)
  /-- REFCLK_LOST (R545): A reference input is lost and PLLs change to the other input. -/
  | refclkLost (h : HubId)
  /-- REFCLK_RETURN (R545): 1 s after a reference input returns, PLLs go back to it. -/
  | refclkReturn (h : HubId)
  /-- PACE_WINDOW (R37): A 10 µs pace window ends and its pace record is updated. -/
  | paceWindow (d : DomainId) (count : BitVec 32) (temp : BitVec 16)
  /-- HBM_TEMP_THRESHOLD (R551): An HBM stack crossing 85 °C doubles or restores its refresh rate. -/
  | hbmTempThreshold (m : StackId) (above : Bool)
  /-- UNASSIGNED_INSTRUCTION (R90): A strand fetches an instruction whose major opcode or opcode-fn combination is unassigned, or whose bytes cannot be fetched, and raises ILLEGAL_INSTRUCTION or INSTRUCTION_PAGE_FAULT. -/
  | unassignedInstruction (t : StrandId)
  /-- UNKNOWN_OPCODE (R497): A Flelet request whose OPCODE is not assigned is answered with UNKNOWN_OPCODE and does nothing. -/
  | unknownOpcode (src : FSource) (opcode : BitVec 16) (p : Packet)
  /-- CONNECTION_END (R491): The peer closes or loses a management TCP/TLS connection, ending its session and any image staging that session opened. -/
  | connectionEnd (conn : Nat)
  /-- RECEIVER_DETECTED (R409): A PCIe or CXL port in TRAINING detects a receiver, starting its LTSSM training bound. -/
  | receiverDetected (p : PortId)
  /-- ISLAND_SUPPLY_CHANGE (R472): A management port's PoE-derived island supply appears or disappears, switching its Hardpan island on or off when no main feed is present. -/
  | islandSupplyChange (h : HubId) (present : Bool)
  /-- TCK (R546): An edge on the test port's TCK advances the IEEE 1149.1 TAP controller and boundary scan while the port is open. -/
  | tck (rising tms tdi trstN : Bool)
  /-- MANAGEMENT_REPAIRED (R445): A failed Hardpan island, management port or island link is repaired and proved by the steering island, ending the management row of EXPOSED. -/
  | managementRepaired (u : MgmtUnit)
  /-- HUB_COPY_REBUILT (R445): A hub's out-of-service journal, slice directory or key table copy finishes being rebuilt from the other hub, ending that EXPOSED row. -/
  | hubCopyRebuilt (h : HubId) (c : HubCopy)
  /-- COVERED_CLUSTER_ACK (R193): A covered cluster or core acknowledges its part of a CINV.RANGE, CINV.ALL or IFLUSH.RANGE at scope 1 or 2, completing the instruction at the issuer once all have acknowledged. -/
  | coveredClusterAck (t : StrandId) (c : ClusterId)
  deriving DecidableEq, Repr

end Sys2Proof
end

