-- ==== Sys2Proof/WellFormed.lean ====
section
/-!
DEFINITION. Well-formed commands: every operand has a value that the spec gives a meaning. An instruction
whose operand fails its check raises ILLEGAL_INSTRUCTION or PRIVILEGED_INSTRUCTION when it is executed;
an event whose operand names nothing has no occasion.
-/

namespace Sys2Proof

/-- RND is 0 to 4 or 7 (R149). -/
def rndOk (r : BitVec 3) : Bool := r.toNat ≤ 4 || r.toNat == 7

def FForm.ok : FForm → Bool
  | .short => true
  | .long r => rndOk r

/-- A scope literal is 0, 1 or 2 (R116). -/
def scopeOk (s : Reg) : Bool := s.toNat ≤ 2

/-- The octet of a PORT byte is 0 to 11 and bit 7 is 0 (R283). -/
def portOk (p : PortId) : Bool := p.toNat < 96

/-- Sense fields fit the sense block: at most 48 raw bytes (R302). -/
def DevResult.ok (r : DevResult) : Bool := r.sense.raw.length ≤ 48

/-- Engine number exists: two public-key engines, four of the others (R375). -/
def EngineRef.ok (e : EngineRef) : Bool := e.pool != .pk || e.n.val < 2

/-- Parameter bytes agree with PLEN (R497). -/
def Packet.ok (p : Packet) : Bool := p.params.length == p.plen.toNat && p.plen.toNat ≤ 65472

/-- The operands of a command are within the ranges the spec gives them. -/
def WellFormed : Instr → Bool
  | .lds _ sz _ _ => sz != .d
  | .bCond _ c _ => c.toNat ≤ 14
  | .cinvRange _ s _ _ | .cinvAll _ s | .iflushRange _ s _ _ | .tlbiVa _ s _ _ _ | .tlbiTag _ s _
  | .tlbiAll _ s | .wciVa _ s _ _ _ | .wciTag _ s _ | .wciAll _ s => scopeOk s
  | .fadd _ _ f _ _ _ | .fsub _ _ f _ _ _ | .fmul _ _ f _ _ _ => f.ok
  | .fmvg _ _ _ _ hi => hi.toNat ≤ 1
  | .fmadd _ _ r _ _ _ _ | .fmsub _ _ r _ _ _ _ | .fnmadd _ _ r _ _ _ _ | .fnmsub _ _ r _ _ _ _ => rndOk r
  | .fcvt _ _ r _ _ | .fcvtfi _ _ _ r _ _ | .fcvtif _ _ _ r _ _ | .frint _ _ r _ _ _ => rndOk r
  | .writeCsTcmp _ sel _ => sel.toNat ≤ 2
  | .deviceCompletion _ r | .drainBlockConfirmed _ r => r.ok
  | .sessionEnd p _ | .pathFailure p _ | .frameReceived p _ | .linkUp p _ _ | .trainingTimeout p
  | .linkLoss p _ | .holdExpiry p | .receiverDetected p => portOk p
  | .compress e | .decompress e | .continueJob e => e.ok && e.pool == .comp
  | .aesGcmEncrypt e | .aesGcmDecrypt e | .aesXtsEncrypt e | .aesXtsDecrypt e | .aesCbcEncrypt e
  | .aesCbcDecrypt e | .chachaEncrypt e | .chachaDecrypt e | .hash e | .hmac e
  | .keyImportClear e | .keyWrap e | .keyUnwrap e | .keyDestroy e | .keyPublic e => e.ok && e.pool == .bulk
  | .keyGenerate e => e.ok && e.pool != .comp
  | .rsaSign e | .rsaVerify e | .rsaDecrypt e | .rsaEncrypt e | .ecdsaSign e | .ecdsaVerify e
  | .ed25519Sign e | .ed25519Verify e | .mlkemEncaps e | .mlkemDecaps e | .mldsaSign e
  | .mldsaVerify e => e.ok && e.pool == .pk
  | .attemptEnd e _ => e.ok
  | .provingRound u _ _ | .engineIdleTimeout u => match u with
    | .eng e => e.ok
    | .core _ | .chan _ _ => true
  | .stackFailed _ c => c.toNat == 1 || c.toNat == 2
  | .imageStagingTimeout t => 1 ≤ t.toNat && t.toNat ≤ 5
  | .unknownOpcode _ _ p => p.ok
  | _ => true

end Sys2Proof
end

