-- ==== Sys2Proof/Decode.lean ====
section
/-!
DEFINITION. The bytes of Tyxus instructions (chapter 3 and the encodings of chapters 4 and 5): a decoder that is
total on every word and an encoder, and the command that a table word spells. The opcode table gives its rows no
bits, so no table word spells a command.
-/

namespace Sys2Proof

/-- The command that a word spells by the table's bits: the table gives none. -/
def decodeTableWord (_nbits _w : Nat) : Option Instr := none

/-- An encoded instruction: its length in bytes and its bits (R87, R88). -/
structure Enc where
  len : Nat
  bits : Nat
  deriving DecidableEq, Repr

def need (c : Bool) (i : Instr) : Option Instr := if c then some i else none

def Size.code : Size → Nat
  | .b => 0 | .h => 1 | .w => 2 | .d => 3

def FFmt.code : FFmt → Nat
  | .s => 0 | .d => 1 | .q => 2

def FConv.code : FConv → Nat
  | .sd => 0 | .sq => 1 | .ds => 2 | .dq => 3 | .qs => 4 | .qd => 5

def Width.isW : Width → Bool
  | .w => true | .d => false

def Width.isD : Width → Bool
  | .d => true | .w => false

/-- x = 0 selects .D and x = 1 selects .W (R112). -/
def xWidth (x : Bool) : Width := if x then .w else .d

def sqOp (t : StrandId) (f : FFmt) (fd fa rb : Reg) : Instr :=
  if rb = 0 then .fsqstart t f fd fa else if rb = 1 then .fsqstep t f fd fa else .fsqend t f fd fa


/-- 24-bit instructions by major opcode (R92, R111 to R117, R122, R123, R148). -/
def decodeShort (t : StrandId) (op : Nat) (rd ra rb : Reg) (x : Bool) (i6 : BitVec 6) : Option Instr :=
  match op with
  | 0x01 => some (.add t .d x rd ra rb)
  | 0x02 => some (.sub t .d x rd ra rb)
  | 0x03 => some (.adc t .d x rd ra rb)
  | 0x04 => some (.sbc t .d x rd ra rb)
  | 0x05 => some (.and t .d x rd ra rb)
  | 0x06 => some (.or t .d x rd ra rb)
  | 0x07 => some (.xor t .d x rd ra rb)
  | 0x08 => some (.andn t .d x rd ra rb)
  | 0x09 => some (.sll t .d x rd ra rb)
  | 0x0A => some (.srl t .d x rd ra rb)
  | 0x0B => some (.sra t .d x rd ra rb)
  | 0x0C => some (.rol t .d x rd ra rb)
  | 0x0D => some (.ror t .d x rd ra rb)
  | 0x0E => some (.mul t .d x rd ra rb)
  | 0x0F => some (.mulh t .d x rd ra rb)
  | 0x10 => some (.mulhu t .d x rd ra rb)
  | 0x11 => need (rb == 0 && !x) (.neg t .d rd ra)
  | 0x12 => need (rb == 0 && !x) (.abs t .d rd ra)
  | 0x13 => need (rd == 0 && !x) (.cmp t .d ra rb)
  | 0x18 => some (.dstart t .d x rd ra rb)
  | 0x19 => need (!x) (.dstep t rd ra rb)
  | 0x1A => some (.dend t .d x rd ra rb)
  | 0x21 => some (.add t .w x rd ra rb)
  | 0x22 => some (.sub t .w x rd ra rb)
  | 0x23 => some (.adc t .w x rd ra rb)
  | 0x24 => some (.sbc t .w x rd ra rb)
  | 0x25 => some (.and t .w x rd ra rb)
  | 0x26 => some (.or t .w x rd ra rb)
  | 0x27 => some (.xor t .w x rd ra rb)
  | 0x28 => some (.andn t .w x rd ra rb)
  | 0x29 => some (.sll t .w x rd ra rb)
  | 0x2A => some (.srl t .w x rd ra rb)
  | 0x2B => some (.sra t .w x rd ra rb)
  | 0x2C => some (.rol t .w x rd ra rb)
  | 0x2D => some (.ror t .w x rd ra rb)
  | 0x2E => some (.mul t .w x rd ra rb)
  | 0x2F => some (.mulh t .w x rd ra rb)
  | 0x30 => some (.mulhu t .w x rd ra rb)
  | 0x31 => need (rb == 0 && !x) (.neg t .w rd ra)
  | 0x32 => need (rb == 0 && !x) (.abs t .w rd ra)
  | 0x33 => need (rd == 0 && !x) (.cmp t .w ra rb)
  | 0x38 => some (.dstart t .w x rd ra rb)
  | 0x3A => some (.dend t .w x rd ra rb)
  | 0x40 => some (.addq t .d rd ra i6)
  | 0x41 => some (.sllq t .d rd ra i6)
  | 0x42 => some (.srlq t .d rd ra i6)
  | 0x43 => some (.sraq t .d rd ra i6)
  | 0x44 => some (.rorq t .d rd ra i6)
  | 0x45 => need (rd == 0) (.cmpq t .d ra i6)
  | 0x48 => some (.addq t .w rd ra i6)
  | 0x49 => some (.sllq t .w rd ra i6)
  | 0x4A => some (.srlq t .w rd ra i6)
  | 0x4B => some (.sraq t .w rd ra i6)
  | 0x4C => some (.rorq t .w rd ra i6)
  | 0x4D => need (rd == 0) (.cmpq t .w ra i6)
  | 0x60 => need (!x) (.fadd t .s .short rd ra rb)
  | 0x61 => need (!x) (.fadd t .d .short rd ra rb)
  | 0x62 => need (!x) (.fadd t .q .short rd ra rb)
  | 0x63 => need (rd == 0 && ra == 0 && rb == 0 && !x) (.fpsync t)
  | 0x64 => need (!x) (.fsub t .s .short rd ra rb)
  | 0x65 => need (!x) (.fsub t .d .short rd ra rb)
  | 0x66 => need (!x) (.fsub t .q .short rd ra rb)
  | 0x67 => need (rb == 0 && !x) (.fmov t rd ra)
  | 0x68 => need (!x) (.fmul t .s .short rd ra rb)
  | 0x69 => need (!x) (.fmul t .d .short rd ra rb)
  | 0x6A => need (!x) (.fmul t .q .short rd ra rb)
  | 0x6B => some (.fmvg t x rd ra rb)
  | 0x6C => need (!x) (.fdstart t .s rd ra rb)
  | 0x6D => need (!x) (.fdstart t .d rd ra rb)
  | 0x6E => need (!x) (.fdstart t .q rd ra rb)
  | 0x70 => need (!x) (.fdstep t .s rd ra rb)
  | 0x71 => need (!x) (.fdstep t .d rd ra rb)
  | 0x72 => need (!x) (.fdstep t .q rd ra rb)
  | 0x74 => need (!x) (.fdend t .s rd ra rb)
  | 0x75 => need (!x) (.fdend t .d rd ra rb)
  | 0x76 => need (!x) (.fdend t .q rd ra rb)
  | 0x78 => need (!x && rb.toNat ≤ 2) (sqOp t .s rd ra rb)
  | 0x79 => need (!x && rb.toNat ≤ 2) (sqOp t .d rd ra rb)
  | 0x7A => need (!x && rb.toNat ≤ 2) (sqOp t .q rd ra rb)
  | 0x7C => need (rd == 0) (.fcmp t .s x ra rb)
  | 0x7D => need (rd == 0) (.fcmp t .d x ra rb)
  | 0x7E => need (rd == 0) (.fcmp t .q x ra rb)
  | 0x80 => some (.ld t .b (.idx ra rb x) rd)
  | 0x81 => some (.ld t .h (.idx ra rb x) rd)
  | 0x82 => some (.ld t .w (.idx ra rb x) rd)
  | 0x83 => some (.ld t .d (.idx ra rb x) rd)
  | 0x84 => some (.lds t .b (.idx ra rb x) rd)
  | 0x85 => some (.lds t .h (.idx ra rb x) rd)
  | 0x86 => some (.lds t .w (.idx ra rb x) rd)
  | 0x88 => some (.st t .b (.idx ra rb x) rd)
  | 0x89 => some (.st t .h (.idx ra rb x) rd)
  | 0x8A => some (.st t .w (.idx ra rb x) rd)
  | 0x8B => some (.st t .d (.idx ra rb x) rd)
  | 0x8C => need (rb == 0) (.ldr t (xWidth x) rd ra)
  | 0x8D => some (.stc t (xWidth x) rd ra rb)
  | 0x8E => some (.cas t (xWidth x) rd ra rb)
  | 0x90 => need (rd == 0 && rb == 0 && !x) (.jr t ra)
  | 0x91 => need (rd == 0 && rb == 0 && !x) (.callr t ra)
  | 0x92 => need (rd == 0 && ra == 0 && rb == 0 && !x) (.ret t)
  | 0x93 => need (rd == 0 && ra == 0 && rb == 0 && !x) (.rtt t)
  | 0x98 => need (rd == 0 && ra == 0 && rb == 0 && !x) (.fenceM t)
  | 0x99 => need (rd == 0 && ra == 0 && rb == 0 && !x) (.fenceIo t)
  | 0x9A => need (rd == 0 && ra == 0 && rb == 0 && !x) (.tsync t)
  | 0x9B => need (rd == 0 && ra == 0 && rb == 0 && !x) (.nop t)
  | 0xA0 => need (rd == 0 && rb == 0 && !x) (.clock t ra)
  | 0xA1 => need (rd == 0 && rb == 0 && !x) (.cunlock t ra)
  | 0xA2 => need (!x) (.cinvRange t rd ra rb)
  | 0xA3 => need (ra == 0 && rb == 0 && !x) (.cinvAll t rd)
  | 0xA4 => need (!x) (.iflushRange t rd ra rb)
  | 0xA5 => some (.tlbiVa t rd ra rb x)
  | 0xA6 => need (ra == 0 && !x) (.tlbiTag t rd rb)
  | 0xA7 => need (ra == 0 && rb == 0 && !x) (.tlbiAll t rd)
  | 0xA8 => some (.wciVa t rd ra rb x)
  | 0xA9 => need (ra == 0 && !x) (.wciTag t rd rb)
  | 0xAA => need (ra == 0 && rb == 0 && !x) (.wciAll t rd)
  | 0xB0 => need (!x) (.bmove t rd ra rb)
  | _ => none

/-- LI majors 0xC0 and 0xC1 (R123). -/
def decodeLI (t : StrandId) (wd : Width) (rd ra : Reg) (fn : Nat) (imm : BitVec 24) : Option Instr :=
  match fn with
  | 0x00 => some (.addi t wd false rd ra imm)
  | 0x20 => some (.addi t wd true rd ra imm)
  | 0x01 => some (.andi t wd false rd ra imm)
  | 0x21 => some (.andi t wd true rd ra imm)
  | 0x02 => some (.ori t wd false rd ra imm)
  | 0x22 => some (.ori t wd true rd ra imm)
  | 0x03 => some (.xori t wd false rd ra imm)
  | 0x23 => some (.xori t wd true rd ra imm)
  | 0x04 => some (.muli t wd false rd ra imm)
  | 0x24 => some (.muli t wd true rd ra imm)
  | 0x05 => need (ra == 0) (.movi t wd rd imm)
  | 0x06 => need wd.isD (.shli24 t rd ra imm)
  | 0x08 => need (rd == 0) (.cmpi t wd ra imm)
  | _ => none

/-- Packed decimal, major 0xD0 (R134). -/
def decodeDec (t : StrandId) (rd ra : Reg) (fn : Nat) (imm : Nat) : Option Instr :=
  let l1 := BitVec.ofNat 4 (imm / 16)
  let l2 := BitVec.ofNat 4 imm
  if imm < 256 then
    match fn with
    | 0 => some (.dadd t rd ra l1 l2)
    | 1 => some (.dsub t rd ra l1 l2)
    | 2 => some (.dcmp t rd ra l1 l2)
    | 3 => some (.dmove t rd ra l1 l2)
    | _ => none
  else none

def fmtOf : Nat → FFmt
  | 0 => .s
  | 1 => .d
  | _ => .q

/-- Floating long forms, majors 0xE0 to 0xE3 (R149). -/
def decodeFpLong (t : StrandId) (op : Nat) (rd ra : Reg) (fn imm : Nat) : Option Instr :=
  let f := fmtOf (fn % 4)
  let fb := BitVec.ofNat 5 imm
  let fc := BitVec.ofNat 5 (imm / 32)
  let r := BitVec.ofNat 3 (imm / 1024)
  let i24 := BitVec.ofNat 24 imm
  match op with
  | 0xE0 =>
    if fn < 3 then some (.fld t f rd ra i24)
    else if 8 ≤ fn ∧ fn < 11 then some (.fst t f rd ra i24) else none
  | 0xE1 =>
    if imm < 8192 ∧ fn % 4 < 3 then
      match fn / 4 with
      | 0 => some (.fmadd t f r rd ra fb fc)
      | 1 => some (.fmsub t f r rd ra fb fc)
      | 2 => some (.fnmadd t f r rd ra fb fc)
      | 3 => some (.fnmsub t f r rd ra fb fc)
      | _ => none
    else none
  | 0xE2 =>
    if fn % 4 < 3 then
      match fn / 4 with
      | 0 => need (imm < 8192 && imm / 32 % 32 == 0) (.fadd t f (.long r) rd ra fb)
      | 1 => need (imm < 8192 && imm / 32 % 32 == 0) (.fsub t f (.long r) rd ra fb)
      | 2 => need (imm < 8192 && imm / 32 % 32 == 0) (.fmul t f (.long r) rd ra fb)
      | 3 => need (imm < 32) (.fmin t f rd ra fb)
      | 4 => need (imm < 32) (.fmax t f rd ra fb)
      | 5 => need (imm < 32) (.fminnum t f rd ra fb)
      | 6 => need (imm < 32) (.fmaxnum t f rd ra fb)
      | 7 => need (imm == 0) (.fneg t f rd ra)
      | 8 => need (imm == 0) (.fabs t f rd ra)
      | 9 => need (imm < 32) (.fcpysgn t f rd ra fb)
      | _ => none
    else none
  | 0xE3 =>
    let u := decide (fn % 2 = 1)
    let f2 := fmtOf (fn / 2 % 4)
    let rOnly := imm % 1024 == 0 && imm < 8192
    match fn with
    | 0 => need rOnly (.fcvt t .sd r rd ra)
    | 1 => need rOnly (.fcvt t .sq r rd ra)
    | 2 => need rOnly (.fcvt t .ds r rd ra)
    | 3 => need rOnly (.fcvt t .dq r rd ra)
    | 4 => need rOnly (.fcvt t .qs r rd ra)
    | 5 => need rOnly (.fcvt t .qd r rd ra)
    | _ =>
      if 8 ≤ fn ∧ fn < 14 then need rOnly (.fcvtfi t f2 u r rd ra)
      else if 16 ≤ fn ∧ fn < 22 then need rOnly (.fcvtif t f2 u r rd ra)
      else if 24 ≤ fn ∧ fn < 27 then
        need (imm % 1024 == 0 && imm < 16384) (.frint t f r (decide (imm / 8192 % 2 = 1)) rd ra)
      else none
  | _ => none

/-- Loads and stores of major 0xE8 (R111). -/
def decodeMem (t : StrandId) (rd base : Reg) (fn : Nat) (d : BitVec 24) : Option Instr :=
  match fn with
  | 0 => some (.ld t .b (.disp base d) rd)
  | 1 => some (.ld t .h (.disp base d) rd)
  | 2 => some (.ld t .w (.disp base d) rd)
  | 3 => some (.ld t .d (.disp base d) rd)
  | 4 => some (.lds t .b (.disp base d) rd)
  | 5 => some (.lds t .h (.disp base d) rd)
  | 6 => some (.lds t .w (.disp base d) rd)
  | 8 => some (.st t .b (.disp base d) rd)
  | 9 => some (.st t .h (.disp base d) rd)
  | 10 => some (.st t .w (.disp base d) rd)
  | 11 => some (.st t .d (.disp base d) rd)
  | _ => none

/-- I/O space and SETIOB, major 0xF0 (R117). -/
def decodeLA (t : StrandId) (rd : Reg) (iob : BitVec 2) (fn9 : Nat) (a : BitVec 24) : Option Instr :=
  match fn9 with
  | 0x002 => some (.iold t .w rd iob a)
  | 0x003 => some (.iold t .d rd iob a)
  | 0x00A => some (.iost t .w rd iob a)
  | 0x00B => some (.iost t .d rd iob a)
  | 0x010 => some (.iodb t rd iob a)
  | 0x020 => some (.setiob t rd iob a)
  | _ => none

/-- 48-bit instructions by major opcode (R92). -/
def decodeLong (t : StrandId) (op : Nat) (rd ra : Reg) (fn imm : Nat) (iob : BitVec 2) (fn9 : Nat) :
    Option Instr :=
  let i24 := BitVec.ofNat 24 imm
  match op with
  | 0xC0 => decodeLI t .d rd ra fn i24
  | 0xC1 => decodeLI t .w rd ra fn i24
  | 0xD0 => decodeDec t rd ra fn imm
  | 0xE0 => decodeFpLong t op rd ra fn imm
  | 0xE1 => decodeFpLong t op rd ra fn imm
  | 0xE2 => decodeFpLong t op rd ra fn imm
  | 0xE3 => decodeFpLong t op rd ra fn imm
  | 0xE8 => decodeMem t rd ra fn i24
  | 0xE9 =>
    if fn = 0 then some (.ird t ra i24 rd) else if fn = 8 then some (.iwr t ra i24 rd) else none
  | 0xEA =>
    match fn with
    | 0 => need (ra == 0) (.bCond t rd i24)
    | 1 => need (rd == 0) (.bz t ra i24)
    | 2 => need (rd == 0) (.bnz t ra i24)
    | 3 => need (rd == 0) (.bltz t ra i24)
    | 4 => need (rd == 0) (.bgez t ra i24)
    | _ => none
  | 0xEB => need (rd == 0 && ra == 0 && fn == 0) (.call t i24)
  | 0xEC =>
    match fn with
    | 0 => need (ra == 0 && imm < 4096) (.csrd t rd (BitVec.ofNat 12 imm))
    | 1 => need (rd == 0 && imm < 4096) (.cswr t (BitVec.ofNat 12 imm) ra)
    | _ => none
  | 0xED =>
    match fn with
    | 0 => need (rd == 0 && ra == 0) (.svc t i24)
    | 1 => need (rd == 0 && ra == 0) (.brk t i24)
    | 2 => need (rd == 0 && ra == 0 && imm == 0) (.wait t)
    | _ => none
  | 0xF0 => decodeLA t rd iob fn9 i24
  | 0xFC => if 0x30 ≤ fn then some (.xInstruction t (BitVec.ofNat 4 fn) rd ra i24) else none
  | _ => none

/-- Length in bytes that the first byte fixes (R87). -/
def insnLen (firstByte : Nat) : Nat := if firstByte < 0xC0 then 3 else 6

/-- The instruction of strand `t` that a little-endian word of 3 or 6 bytes spells, or none where R90 makes it
ILLEGAL_INSTRUCTION (R87 to R90). -/
def decodeInsn (t : StrandId) (w : Nat) : Option Instr :=
  let op := w % 256
  let rd : Reg := BitVec.ofNat 5 (w / 256)
  let ra : Reg := BitVec.ofNat 5 (w / 8192)
  let rb : Reg := BitVec.ofNat 5 (w / 262144)
  let r :=
    if op < 0xC0 then decodeShort t op rd ra rb (decide (w / 8388608 % 2 = 1)) (BitVec.ofNat 6 (w / 262144))
    else decodeLong t op rd ra (w / 262144 % 64) (w / 16777216 % 16777216) (BitVec.ofNat 2 (w / 8192))
      (w / 32768 % 512)
  r.filter WellFormed

/-- S format (R89). -/
def encS (op : Nat) (rd ra rb : Reg) (x : Bool) : Enc :=
  ⟨3, op + rd.toNat * 256 + ra.toNat * 8192 + rb.toNat * 262144 + x.toNat * 8388608⟩

/-- SI format (R89). -/
def encSI (op : Nat) (rd ra : Reg) (imm : BitVec 6) : Enc :=
  ⟨3, op + rd.toNat * 256 + ra.toNat * 8192 + imm.toNat * 262144⟩

/-- LI, LM and LB formats (R89). -/
def encL (op : Nat) (rd ra : Reg) (fn imm : Nat) : Enc :=
  ⟨6, op + rd.toNat * 256 + ra.toNat * 8192 + fn * 262144 + imm * 16777216⟩

/-- LA format, major 0xF0 (R89). -/
def encLA (rd : Reg) (iob : BitVec 2) (fn9 : Nat) (a : BitVec 24) : Enc :=
  ⟨6, 0xF0 + rd.toNat * 256 + iob.toNat * 8192 + fn9 * 32768 + a.toNat * 16777216⟩

def wMaj (wd : Width) (m : Nat) : Nat := if wd.isW then m + 0x20 else m
def qMaj (wd : Width) (m : Nat) : Nat := if wd.isW then m + 8 else m
def iMaj (wd : Width) : Nat := if wd.isW then 0xC1 else 0xC0
def ccFn (cc : Bool) : Nat := if cc then 0x20 else 0


/-- The bytes of an instruction command, as one little-endian number, with its length (R88, R89). None for a command that is no instruction. -/
def encodeInsn : Instr → Option Enc
  | .add _ wd x rd ra rb => some (encS (wMaj wd 0x01) rd ra rb x)
  | .sub _ wd x rd ra rb => some (encS (wMaj wd 0x02) rd ra rb x)
  | .adc _ wd x rd ra rb => some (encS (wMaj wd 0x03) rd ra rb x)
  | .sbc _ wd x rd ra rb => some (encS (wMaj wd 0x04) rd ra rb x)
  | .and _ wd x rd ra rb => some (encS (wMaj wd 0x05) rd ra rb x)
  | .or _ wd x rd ra rb => some (encS (wMaj wd 0x06) rd ra rb x)
  | .xor _ wd x rd ra rb => some (encS (wMaj wd 0x07) rd ra rb x)
  | .andn _ wd x rd ra rb => some (encS (wMaj wd 0x08) rd ra rb x)
  | .sll _ wd x rd ra rb => some (encS (wMaj wd 0x09) rd ra rb x)
  | .srl _ wd x rd ra rb => some (encS (wMaj wd 0x0A) rd ra rb x)
  | .sra _ wd x rd ra rb => some (encS (wMaj wd 0x0B) rd ra rb x)
  | .rol _ wd x rd ra rb => some (encS (wMaj wd 0x0C) rd ra rb x)
  | .ror _ wd x rd ra rb => some (encS (wMaj wd 0x0D) rd ra rb x)
  | .mul _ wd x rd ra rb => some (encS (wMaj wd 0x0E) rd ra rb x)
  | .mulh _ wd x rd ra rb => some (encS (wMaj wd 0x0F) rd ra rb x)
  | .mulhu _ wd x rd ra rb => some (encS (wMaj wd 0x10) rd ra rb x)
  | .neg _ wd rd ra => some (encS (wMaj wd 0x11) rd ra 0 false)
  | .abs _ wd rd ra => some (encS (wMaj wd 0x12) rd ra 0 false)
  | .cmp _ wd ra rb => some (encS (wMaj wd 0x13) 0 ra rb false)
  | .dstart _ wd x rd ra rb => some (encS (wMaj wd 0x18) rd ra rb x)
  | .dend _ wd x rd ra rb => some (encS (wMaj wd 0x1A) rd ra rb x)
  | .dstep _ rd ra rb => some (encS 0x19 rd ra rb false)
  | .addq _ wd rd ra imm => some (encSI (qMaj wd 0x40) rd ra imm)
  | .sllq _ wd rd ra imm => some (encSI (qMaj wd 0x41) rd ra imm)
  | .srlq _ wd rd ra imm => some (encSI (qMaj wd 0x42) rd ra imm)
  | .sraq _ wd rd ra imm => some (encSI (qMaj wd 0x43) rd ra imm)
  | .rorq _ wd rd ra imm => some (encSI (qMaj wd 0x44) rd ra imm)
  | .cmpq _ wd ra imm => some (encSI (qMaj wd 0x45) 0 ra imm)
  | .fadd _ f .short fd fa fb => some (encS (0x60 + f.code) fd fa fb false)
  | .fadd _ f (.long r) fd fa fb => some (encL 0xE2 fd fa (0 * 4 + f.code) (fb.toNat + r.toNat * 1024))
  | .fsub _ f .short fd fa fb => some (encS (0x64 + f.code) fd fa fb false)
  | .fsub _ f (.long r) fd fa fb => some (encL 0xE2 fd fa (1 * 4 + f.code) (fb.toNat + r.toNat * 1024))
  | .fmul _ f .short fd fa fb => some (encS (0x68 + f.code) fd fa fb false)
  | .fmul _ f (.long r) fd fa fb => some (encL 0xE2 fd fa (2 * 4 + f.code) (fb.toNat + r.toNat * 1024))
  | .fpsync _ => some (encS 0x63 0 0 0 false)
  | .fmov _ fd fa => some (encS 0x67 fd fa 0 false)
  | .fmvg _ x rd ra hi => some (encS 0x6B rd ra hi x)
  | .fdstart _ f fd fa fb => some (encS (0x6C + f.code) fd fa fb false)
  | .fdstep _ f fd fa fb => some (encS (0x70 + f.code) fd fa fb false)
  | .fdend _ f fd fa fb => some (encS (0x74 + f.code) fd fa fb false)
  | .fsqstart _ f fd fa => some (encS (0x78 + f.code) fd fa 0 false)
  | .fsqstep _ f fd fa => some (encS (0x78 + f.code) fd fa 1 false)
  | .fsqend _ f fd fa => some (encS (0x78 + f.code) fd fa 2 false)
  | .fcmp _ f sig fa fb => some (encS (0x7C + f.code) 0 fa fb sig)
  | .ld _ sz (.idx ra rb x) rd => some (encS (0x80 + sz.code) rd ra rb x)
  | .ld _ sz (.disp b o) rd => some (encL 0xE8 rd b sz.code o.toNat)
  | .lds _ sz (.idx ra rb x) rd => some (encS (0x84 + sz.code) rd ra rb x)
  | .lds _ sz (.disp b o) rd => some (encL 0xE8 rd b (4 + sz.code) o.toNat)
  | .st _ sz (.idx ra rb x) rd => some (encS (0x88 + sz.code) rd ra rb x)
  | .st _ sz (.disp b o) rd => some (encL 0xE8 rd b (8 + sz.code) o.toNat)
  | .ldr _ wd rd ra => some (encS 0x8C rd ra 0 wd.isW)
  | .stc _ wd rd ra rb => some (encS 0x8D rd ra rb wd.isW)
  | .cas _ wd rd ra rb => some (encS 0x8E rd ra rb wd.isW)
  | .jr _ ra => some (encS 0x90 0 ra 0 false)
  | .callr _ ra => some (encS 0x91 0 ra 0 false)
  | .ret _ => some (encS 0x92 0 0 0 false)
  | .rtt _ => some (encS 0x93 0 0 0 false)
  | .fenceM _ => some (encS 0x98 0 0 0 false)
  | .fenceIo _ => some (encS 0x99 0 0 0 false)
  | .tsync _ => some (encS 0x9A 0 0 0 false)
  | .nop _ => some (encS 0x9B 0 0 0 false)
  | .clock _ ra => some (encS 0xA0 0 ra 0 false)
  | .cunlock _ ra => some (encS 0xA1 0 ra 0 false)
  | .cinvRange _ sc ra rb => some (encS 0xA2 sc ra rb false)
  | .iflushRange _ sc ra rb => some (encS 0xA4 sc ra rb false)
  | .cinvAll _ sc => some (encS 0xA3 sc 0 0 false)
  | .tlbiAll _ sc => some (encS 0xA7 sc 0 0 false)
  | .wciAll _ sc => some (encS 0xAA sc 0 0 false)
  | .tlbiVa _ sc ra rb x => some (encS 0xA5 sc ra rb x)
  | .wciVa _ sc ra rb x => some (encS 0xA8 sc ra rb x)
  | .tlbiTag _ sc rb => some (encS 0xA6 sc 0 rb false)
  | .wciTag _ sc rb => some (encS 0xA9 sc 0 rb false)
  | .bmove _ rd ra rb => some (encS 0xB0 rd ra rb false)
  | .addi _ wd cc rd ra imm => some (encL (iMaj wd) rd ra (0 + ccFn cc) imm.toNat)
  | .andi _ wd cc rd ra imm => some (encL (iMaj wd) rd ra (1 + ccFn cc) imm.toNat)
  | .ori _ wd cc rd ra imm => some (encL (iMaj wd) rd ra (2 + ccFn cc) imm.toNat)
  | .xori _ wd cc rd ra imm => some (encL (iMaj wd) rd ra (3 + ccFn cc) imm.toNat)
  | .muli _ wd cc rd ra imm => some (encL (iMaj wd) rd ra (4 + ccFn cc) imm.toNat)
  | .movi _ wd rd imm => some (encL (iMaj wd) rd 0 5 imm.toNat)
  | .shli24 _ rd ra imm => some (encL 0xC0 rd ra 6 imm.toNat)
  | .cmpi _ wd ra imm => some (encL (iMaj wd) 0 ra 8 imm.toNat)
  | .dadd _ rd ra l1 l2 => some (encL 0xD0 rd ra 0 (l1.toNat * 16 + l2.toNat))
  | .dsub _ rd ra l1 l2 => some (encL 0xD0 rd ra 1 (l1.toNat * 16 + l2.toNat))
  | .dcmp _ rd ra l1 l2 => some (encL 0xD0 rd ra 2 (l1.toNat * 16 + l2.toNat))
  | .dmove _ rd ra l1 l2 => some (encL 0xD0 rd ra 3 (l1.toNat * 16 + l2.toNat))
  | .fld _ f fd b o => some (encL 0xE0 fd b f.code o.toNat)
  | .fst _ f fd b o => some (encL 0xE0 fd b (8 + f.code) o.toNat)
  | .fmadd _ f r fd fa fb fc => some (encL 0xE1 fd fa (0 * 4 + f.code) (fb.toNat + fc.toNat * 32 + r.toNat * 1024))
  | .fmsub _ f r fd fa fb fc => some (encL 0xE1 fd fa (1 * 4 + f.code) (fb.toNat + fc.toNat * 32 + r.toNat * 1024))
  | .fnmadd _ f r fd fa fb fc => some (encL 0xE1 fd fa (2 * 4 + f.code) (fb.toNat + fc.toNat * 32 + r.toNat * 1024))
  | .fnmsub _ f r fd fa fb fc => some (encL 0xE1 fd fa (3 * 4 + f.code) (fb.toNat + fc.toNat * 32 + r.toNat * 1024))
  | .fmin _ f fd fa fb => some (encL 0xE2 fd fa (3 * 4 + f.code) fb.toNat)
  | .fmax _ f fd fa fb => some (encL 0xE2 fd fa (4 * 4 + f.code) fb.toNat)
  | .fminnum _ f fd fa fb => some (encL 0xE2 fd fa (5 * 4 + f.code) fb.toNat)
  | .fmaxnum _ f fd fa fb => some (encL 0xE2 fd fa (6 * 4 + f.code) fb.toNat)
  | .fneg _ f fd fa => some (encL 0xE2 fd fa (7 * 4 + f.code) 0)
  | .fabs _ f fd fa => some (encL 0xE2 fd fa (8 * 4 + f.code) 0)
  | .fcpysgn _ f fd fa fb => some (encL 0xE2 fd fa (9 * 4 + f.code) fb.toNat)
  | .fcvt _ c r fd fa => some (encL 0xE3 fd fa c.code (r.toNat * 1024))
  | .fcvtfi _ f u r fd ra => some (encL 0xE3 fd ra (8 + 2 * f.code + u.toNat) (r.toNat * 1024))
  | .fcvtif _ f u r rd fa => some (encL 0xE3 rd fa (16 + 2 * f.code + u.toNat) (r.toNat * 1024))
  | .frint _ f r e fd fa => some (encL 0xE3 fd fa (24 + f.code) (r.toNat * 1024 + e.toNat * 8192))
  | .ird _ b o rd => some (encL 0xE9 rd b 0 o.toNat)
  | .iwr _ b o rd => some (encL 0xE9 rd b 8 o.toNat)
  | .bCond _ c o => some (encL 0xEA c 0 0 o.toNat)
  | .bz _ ra o => some (encL 0xEA 0 ra 1 o.toNat)
  | .bnz _ ra o => some (encL 0xEA 0 ra 2 o.toNat)
  | .bltz _ ra o => some (encL 0xEA 0 ra 3 o.toNat)
  | .bgez _ ra o => some (encL 0xEA 0 ra 4 o.toNat)
  | .call _ o => some (encL 0xEB 0 0 0 o.toNat)
  | .csrd _ rd n => some (encL 0xEC rd 0 0 n.toNat)
  | .cswr _ n ra => some (encL 0xEC 0 ra 1 n.toNat)
  | .writeCsSpad _ ra => some (encL 0xEC 0 ra 1 0x069)
  | .writeCsCachectl _ ra => some (encL 0xEC 0 ra 1 0x068)
  | .writeCsTcmp _ sel ra => some (encL 0xEC 0 ra 1 (0x078 + sel.toNat))
  | .writeCsWin _ ra => some (encL 0xEC 0 ra 1 0x002)
  | .svc _ imm => some (encL 0xED 0 0 0 imm.toNat)
  | .brk _ imm => some (encL 0xED 0 0 1 imm.toNat)
  | .wait _ => some (encL 0xED 0 0 2 0)
  | .iold _ wd rd iob a => some (encLA rd iob (2 + wd.isD.toNat) a)
  | .iost _ wd rd iob a => some (encLA rd iob (10 + wd.isD.toNat) a)
  | .iodb _ rd iob a => some (encLA rd iob 0x10 a)
  | .setiob _ rd iob a => some (encLA rd iob 0x20 a)
  | .xInstruction _ fn rd ra imm => some (encL 0xFC rd ra (0x30 + fn.toNat) imm.toNat)
  | _ => none

/-- Instruction bytes, zero-extended, as CS.TINFO0 of ILLEGAL_INSTRUCTION holds them (R71). -/
def insnBytes (i : Instr) : W := match encodeInsn i with
  | some e => BitVec.ofNat 64 e.bits
  | none => 0

/-- Length in bytes of an instruction command. -/
def lenOf (i : Instr) : Nat := match encodeInsn i with
  | some e => e.len
  | none => 0

/-- The strand that an instruction command names, for a command that an instruction word encodes. -/
def isInsn (i : Instr) : Bool := (encodeInsn i).isSome

end Sys2Proof
end

