-- ==== Sys2Proof/Config.lean ====
section
/-!
DEFINITION. The constants of the model that the spec does not fix: every one is opaque and has no
body, so that nothing can be proved of its value. A fresh choice applies one of them to the counter
`freeCtr` of the state, which the step advances (log entry 2).
-/

namespace Sys2Proof.Config

/-- Key material of a memory-encryption key, or of any key of the key table. -/
abbrev KeyVal := List Byte

/-- A free number: a replacement way, a start position, any choice among a finite set. -/
opaque freeNat : Nat → Nat

/-- A free yes or no. -/
opaque freeBool : Nat → Bool

/-- Does a walk or an access use a cached translation rather than what memory holds now, where the two
differ (R245)? The counter, then which of the access's cached entries. -/
opaque freeWalk : Nat → Nat → Bool

/-- Set of the second-level TLB to which a tag belongs: partition, regime, space, address space, page size and page (R238). -/
opaque stlbSet : List Nat → Nat

/-- A free 64-bit value. -/
opaque freeW : Nat → W

/-- A free byte of a sequence: the counter, then the position. -/
opaque freeByte : Nat → Nat → Byte

/-- A free bit string: a floating encoding, flags and working bits, for a step sequence whose registers were changed (R160). -/
opaque freeQ : Nat → BitVec 246

/-- The byte that a FAR address nothing has written holds (R478). -/
opaque farInit : Nat → Byte

/-- Working state of the floating step sequences (R159): 118 bits of fd and 128 bits of fa hold the
dividend and a mark of the divisor, under an arrangement of each operation, format and count that is not architected. -/
opaque stepPerm : Nat → BitVec 246 ≃ BitVec 246

/-- Mark of a divisor inside the working state of a division (R159). -/
opaque divisorMark : BitVec 128 → BitVec 118

/-- What an UOP code of class REG or ARITH computes from its sources, its immediate and the micro-CC:
the value. The spec names the classes and no code (R257). The list holds the three sources. -/
opaque uop : Byte → Byte → List W → BitVec 32 → BitVec 4 → W

/-- The micro-CC after the same operation, or none when it leaves it. -/
opaque uopCc : Byte → Byte → List W → BitVec 32 → BitVec 4 → Option (BitVec 4)

/-- What an UOP code of class FP does to the f registers: destination number and value, and flags (R257). The code, the f registers, the
three source fields, the immediate, the rounding mode of CS.FPSTAT and the destination field. -/
opaque uopFp : Byte → List (BitVec 128) → List (BitVec 6) → BitVec 32 → BitVec 3 → BitVec 6 → BitVec 5 × (BitVec 128 × BitVec 5)

/-- Which of LOAD, STORE, PROBE.L and PROBE.S an UOP code of class MEM is, 0 to 3 in that order (R257). -/
opaque memUop : Byte → BitVec 2

/-- The value an internal or engine ROM computation outside the spec yields. -/
opaque unstated : Nat → List Byte → List Byte

/-- The bits that an engine chooses to add to a stream between header and trailer (R381, R382): PARAM, the inputs of the stream's
earlier jobs, the input of this one, and whether it ends the stream. Taken only when they decompress to the input (R383). -/
opaque deflateBody : BitVec 16 → List (List Byte) → List Byte → Bool → List Bool

/-- The module wrapping key (R395). -/
opaque wrapKey : List Byte

/-- A public-key function of a standard: operation code, parameter, key, random bytes, message; its output, or none when it
rejects (R397). -/
opaque publicKey : Byte → BitVec 16 → List Byte → List Byte → List Byte → Option (List Byte)

/-- Does a signature verify: algorithm, public key, message, signature (R490, R508, R516). -/
opaque verifies : Byte → List Byte → List Byte → List Byte → Bool

/-- Jenrek's patch key held in island ROM, by algorithm (R508). -/
opaque patchKey : Byte → List Byte

/-- Serial number of the module, 16 bytes (R503). -/
opaque serial : List Byte

/-- Die revisions, ROM identifier: the bytes of GET_IDENTITY that the part fixes (R503). -/
opaque dieRev : List Byte
opaque romId : BitVec 32

/-- The module's ML-KEM-1024 encapsulation key, 1,568 bytes (R515). -/
opaque transportKey : List Byte

/-- Decapsulates and decrypts a key sent to the module: ciphertext, nonce, additional data and wrapped key; none when it fails (R516). -/
opaque openTransport : List Byte → List Byte → List Byte → List Byte → Option (List Byte)

/-- The public part of an asymmetric key, in the encoding of its standard (R394). -/
opaque publicOf : Byte → List Byte → List Byte

/-- Maximum transfer of a device command in bytes on a path, above 0 (R309). -/
opaque maxTransfer : Nat → Nat

/-- What a device reports of its format on a path: logical block size, and whether it has neither metadata nor protection
information (R284). Counter of the free choice, PORT, TARGET and UNIT. -/
opaque deviceFormat : Nat → BitVec 8 → BitVec 16 → BitVec 64 → BitVec 32 × Bool

/-- Test signature of a unit's self-test (R517). -/
opaque testSignature : Nat → List Byte

/-- Does a unit's self-test pass (R517, R486). -/
opaque selfTest : Nat → Nat → Bool

/-- Can a sequencer be written with a loaded bank (R272)? Cores from 0, channel engines from 144. -/
opaque slipTakes : Nat → Nat → Bool

/-- Slip words and match registers that a patch image carries for the core sequencers and for the channel-engine sequencers (R269, R270).
The layout of a patch image is not stated. -/
opaque corePatch : List Byte → List (BitVec 160) × List (BitVec 32)
opaque enginePatch : List Byte → List (BitVec 128) × List (BitVec 32)

/-- ROM words of the core sequencers and of the channel-engine sequencers, by micro-address (R254). -/
opaque coreRom : Nat → BitVec 160
opaque engineRom : Nat → BitVec 128

/-- Check bits of a core micro-word over its bits [159:16], and of an engine micro-word over [127:16] (R256, R279). -/
opaque coreEcc : BitVec 144 → BitVec 16
opaque engineEcc : BitVec 112 → BitVec 16

/-- An engine condition (R279): its code, and the counter of the free choice. -/
opaque engineCond : BitVec 6 → Nat → Bool

end Sys2Proof.Config
end

