-- ==== Sys2Proof/Machine/StateCpu.lean ====
section
/-!
DEFINITION. The strands, cores, clusters, caches and memory of the machine's state (chapters 1, 2, 6 to 9).
A `Table` is a list of key and value pairs with rising keys; a key that it does not list has the
value that the field's comment names.
-/

namespace Sys2Proof.Machine

/-- Sparse array: rising keys, one entry a key. -/
abbrev Table (α : Type) := List (Nat × α)

/-- One copy of the trap registers CS.TCAUSE, CS.TPC and CS.TINFO0-3 (R79). -/
structure TrapCopy where
  cause : Byte := 0
  pc : BitVec 48 := 0
  info0 : W := 0
  info1 : W := 0
  info2 : W := 0
  /-- Saved CS.STATUS. -/
  info3 : W := 0
  deriving DecidableEq, Repr

/-- Rule that gives a trap's handler privilege (R60). -/
inductive HandlerRule where
  /-- K when it arises at U or K, S when it arises at S. -/
  | upK
  /-- K when it arises at U, S when it arises at K or S. -/
  | next
  /-- Always S. -/
  | toS
  /-- The target privilege of the interrupt source. -/
  | target (prv : BitVec 2)
  deriving DecidableEq, Repr

/-- A trap that is due: cause, handler rule and CS.TINFO0-2 (R71). -/
structure TrapReq where
  cause : Byte
  rule : HandlerRule
  info0 : W := 0
  info1 : W := 0
  info2 : W := 0
  deriving DecidableEq, Repr

/-- Tag of a cached translation (R238). `asid` is none for a global entry. -/
structure TlbTag where
  part : Byte
  /-- Supervisor regime (R221). -/
  sup : Bool
  /-- Instruction space. -/
  ispace : Bool
  asid : Option (BitVec 16)
  /-- Size of the page: 0 for 4 KiB, 1 for 2 MiB, 2 for 1 GiB. -/
  level : Fin 3
  /-- Virtual page number of that size. -/
  vpn : Nat
  deriving DecidableEq, Repr

/-- One store of a store buffer (R197), with its physical bytes. -/
structure StoreEntry where
  pa : Nat
  bytes : List Byte
  /-- Key slot of the access (R251). -/
  slot : Byte
  nol3 : Bool
  /-- Translation that the store used, for the acknowledgement rule of R243. -/
  via : Option TlbTag
  deriving DecidableEq, Repr

/-- The failure record of a strand (R209, R210). -/
structure FailRecord where
  slice : BitVec 13
  off : BitVec 24
  part : Byte
  asid : BitVec 16
  /-- Load cause, 0 for a store. -/
  loadCause : BitVec 4
  kind : Byte
  deriving DecidableEq, Repr

/-- A strand-check record (R64, R438): cause, PC and TINFO0-2. -/
structure StrandCheck where
  cause : Byte
  pc : BitVec 48
  info0 : W
  info1 : W
  info2 : W
  deriving DecidableEq, Repr

/-- Whether the strand runs (R481, R514). `frozen` is a running strand held by a substitution or by entry to SPLIT. -/
inductive RunState where | neverStarted | running | stopped | frozen
  deriving DecidableEq, Repr

/-- A pending I/O load (R104). -/
structure IoLoad where
  wd : Width
  rd : Reg
  slice : SliceId
  off : BitVec 24
  part : Byte
  asid : BitVec 16
  gen : BitVec 16
  expiry : Nat
  deriving DecidableEq, Repr

/-- An IODB that waits for the strand's older stores, with the slice and the tag that it was checked with (R105, R106). -/
structure IoBell where
  slice : SliceId
  off : BitVec 24
  data : W
  part : Byte
  asid : BitVec 16
  gen : BitVec 16
  deriving DecidableEq, Repr

/-- Cache maintenance instructions (R193). -/
inductive MaintKind where | range | all (l3 : Bool) | iflush
  deriving DecidableEq, Repr

/-- What a running strand waits for. -/
inductive Activity where
  | ready
  /-- Parked on an L1 miss (R173): line, and whether the L1I misses. -/
  | parked (line : Line) (fetch : Bool) (slot : Byte) (nol3 : Bool)
  /-- In WAIT (R115). -/
  | waiting
  | fenceM
  | fenceIo
  | tsync
  | iold (l : IoLoad)
  | iodb (l : IoBell)
  /-- In a maintenance instruction of scope 1 or 2, with the clusters that have not acknowledged (R193), the physical
  line concerned, and the registers and length of the piece to be committed. -/
  | maint (k : MaintKind) (left : List ClusterId) (line : Option Line) (ra rb : Reg) (len : Nat)
  /-- An X execution has reached its micro-word budget (R278); the bytes of its instruction. -/
  | xBudget (bytes : W)
  deriving DecidableEq, Repr

/-- The registers that a micro-routine changes, as at its last commit (R262). -/
structure RegSnap where
  g : Vector W 7
  k : Vector W 128
  q : Vector W 128
  f : Vector (BitVec 128) 32
  bank : Vector W 64
  status : W
  fpstat : W
  deriving DecidableEq, Repr

/-- A translation that a probe has pinned for the rest of an execution (R258). -/
structure Pin where
  /-- First and last data address of the page, and the physical address of the first. -/
  first : Nat
  last : Nat
  pa : Nat
  slot : Byte
  nol3 : Bool
  via : Option TlbTag
  /-- A PROBE.S has pinned it. -/
  wr : Bool
  deriving DecidableEq, Repr

/-- A customer routine between two of its micro-words: one that waits for a line or for the store buffer is at the word that waits. -/
structure MicroRun where
  /-- Micro-address of the next word. -/
  pos : Nat
  temps : Vector W 16
  /-- Micro-CC, and whether the routine has written it (R258). -/
  cc : BitVec 4
  wroteCc : Bool
  /-- State at the last commit, and the micro-CC that the routine had written by then. -/
  snap : RegSnap
  snapCc : Option (BitVec 4)
  pins : List Pin
  /-- A sealed span is open; address of its first STORE outside a page that a PROBE.S has pinned (R264, R265). -/
  inSpan : Bool
  bad : Option W
  /-- Micro-words executed (R278). -/
  words : Nat
  deriving DecidableEq, Repr

/-- One strand: its architected state and what it waits for (R48 to R84). -/
structure Strand where
  g : Vector W 7 := Vector.replicate 7 0
  /-- k registers of the 16 window slots, slot times 8 plus number (R50). -/
  k : Vector W 128 := Vector.replicate 128 0
  q : Vector W 128 := Vector.replicate 128 0
  f : Vector (BitVec 128) 32 := Vector.replicate 32 0
  /-- Trap-bank registers 0x400 to 0x43F (R84). -/
  bank : Vector W 64 := Vector.replicate 64 0
  pc : BitVec 48 := 0
  /-- CS.STATUS (R75). -/
  status : W := 8#64
  /-- CS.FPSTAT (R76). -/
  fpstat : W := 0
  wcur : BitVec 4 := 0
  wbase : BitVec 4 := 0
  spsel : BitVec 4 := 0
  lsp : W := 0
  wsp : W := 0
  /-- BASE fields of the K and S copies of CS.TVEC. -/
  tvecK : BitVec 32 := 0
  tvecS : BitVec 32 := 0
  trapK : TrapCopy := {}
  trapS : TrapCopy := {}
  trap1 : TrapCopy := {}
  trap2 : TrapCopy := {}
  itbr : W := 0
  dtbr : W := 0
  s2tbr : W := 0
  asid : BitVec 16 := 0
  part : Byte := 0
  iob : Vector (BitVec 13) 4 := Vector.replicate 4 0
  waymaskL2 : BitVec 16 := 0xFFFF
  waymaskL3 : BitVec 16 := 0xFFFF
  chktgt : BitVec 10 := 0x3FF
  tcmpK : W := BitVec.allOnes 64
  tcmpS : W := BitVec.allOnes 64
  run : RunState := .neverStarted
  act : Activity := .ready
  /-- The level-1 handler handles a window trap (R58, R59). -/
  winTrap : Bool := false
  /-- Store buffer, oldest first (R197). -/
  sb : List StoreEntry := []
  /-- Reserved 256-byte granule, by physical address divided by 256 (R213). -/
  resv : Option Nat := none
  /-- The L2 still holds the granule's lines against other requests (R217). -/
  hold : Bool := false
  fail : Option FailRecord := none
  further : BitVec 16 := 0
  /-- Address, kind word and privilege of the floating instruction whose exception is pending, PEND being in `fpstat` (R162, R69). -/
  fpAddr : BitVec 48 := 0
  fpKind : W := 0
  fpPrv : BitVec 2 := 0
  /-- Instructions completed at TL 0 since that instruction (R163). -/
  fpCount : Nat := 0
  /-- Held event (R554). -/
  held : Option TrapReq := none
  check : Option StrandCheck := none
  /-- MACHINE_CHECK of discarded stores, due at the next boundary (R464, R553): TINFO0, kind and TINFO2. -/
  mcheck : Option (W × Nat × W) := none
  /-- Physical strand checks asserting IPEND.ES here, by strand number (R65). -/
  checkSrc : List Nat := []
  /-- Core whose cluster is the scratchpad home, when the strand was moved by substitution (R183). -/
  spHome : Option ClusterId := none
  /-- A slip switch is ordered and the strand still runs from the other bank (R273). -/
  oldSlip : Bool := false
  /-- A customer routine that has not retired (R118, R262). -/
  micro : Option MicroRun := none
  deriving DecidableEq, Repr

/-- A line of an L1 (R166). -/
structure L1Line where
  line : Line
  data : LineData
  deriving DecidableEq, Repr

/-- State of an L2 line (R171). A slot that the table does not list is I. -/
inductive L2State where | s | e | m | le
  deriving DecidableEq, Repr

structure L2Line where
  line : Line
  st : L2State
  locked : Bool
  /-- Key slot and NOL3 of the fill, which a write-back uses (R251, R228). -/
  slot : Byte
  nol3 : Bool
  data : LineData
  deriving DecidableEq, Repr

structure L3Line where
  line : Line
  dirty : Bool
  slot : Byte
  data : LineData
  deriving DecidableEq, Repr

/-- A cached translation (R238): one combined leaf. -/
structure TlbEntry where
  tag : TlbTag
  /-- Physical frame of the page, of its size. -/
  ppn : Nat
  /-- Effective permissions: read, write, user of the stage-1 leaf. -/
  rd : Bool
  wr : Bool
  us : Bool
  /-- SKEY and NOL3 of R229. -/
  skey : Bool
  nol3 : Bool
  /-- D bits of the stage-1 and the stage-2 leaf, true where the stage does not apply. -/
  d1 : Bool
  d2 : Bool
  deriving DecidableEq, Repr

/-- A walk-cache entry (R238): a stage-1 pointer entry, or a stage-2 entry of any level. -/
structure WalkEntry where
  stage2 : Bool
  part : Byte
  sup : Bool
  ispace : Bool
  asid : BitVec 16
  level : Nat
  /-- Address prefix that selects the entry: the address shifted right by 12 + 9 * level. -/
  pre : Nat
  value : W
  deriving DecidableEq, Repr

/-- The bridge transfer of a message between the halves that has not been acknowledged: its bundle, and its sequence number, which is
counted for each sending half (R15, R16). -/
structure Crossing where
  bundle : BundleId
  seq : Nat
  deriving DecidableEq, Repr

/-- What a TLBI or WCI removes (R240, R241). -/
structure InvalOp where
  /-- Issuing strand. -/
  src : StrandId
  wci : Bool
  /-- none for `.ALL` of every partition. -/
  part : Option Byte
  /-- none for both regimes. -/
  sup : Option Bool
  /-- none for both spaces. -/
  ispace : Option Bool
  /-- none for every ASID. -/
  asid : Option (BitVec 16)
  /-- Global entries are removed too. -/
  globals : Bool
  /-- Virtual address of the `.VA` forms. -/
  va : Option W
  /-- WCI: stage-2 entries are removed too. -/
  stage2 : Bool
  /-- The bridge transfer that brings it, in the other half. -/
  via : Option Crossing := none
  deriving DecidableEq, Repr

/-- The ways of each set of a cache in the order of their last use, latest first; a way that is not listed has not been used (R166, R189). -/
abbrev UseOrder := Table (List Nat)

/-- One core's caches and translation structures (R166, R238). -/
structure Core where
  /-- Slot is set times 4 plus way. -/
  l1i : Table L1Line := []
  l1d : Table L1Line := []
  l1iUse : UseOrder := []
  l1dUse : UseOrder := []
  l1ie : Bool := true
  l1de : Bool := true
  dtlb : List TlbEntry := []
  itlb : List TlbEntry := []
  stlb : List TlbEntry := []
  walk : List WalkEntry := []
  /-- TLBI and WCI not yet acknowledged, oldest first (R243). -/
  inval : List InvalOp := []
  deriving DecidableEq, Repr

/-- One cluster's L2 and scratchpad (R166, R178). -/
structure Cluster where
  /-- Slot is set times 16 plus way. -/
  l2 : Table L2Line := []
  l2Use : UseOrder := []
  l2e : Bool := true
  /-- CS.SPAD.WAYS. -/
  ways : BitVec 4 := 0
  /-- Scratchpad bytes by offset, canonical, unlisted 0. -/
  spad : List Host.Cell := []
  /-- Scratchpad lines, by number, whose contents are lost (R437). -/
  spadLost : List Nat := []
  deriving DecidableEq, Repr

/-- The L3 of a compute die; slot is slice times 65536 plus set times 16 plus way (R166, R168). -/
structure Die where
  l3 : Table L3Line := []
  /-- The set of a slice is slice times 4096 plus set. -/
  l3Use : UseOrder := []
  l3e : Bool := true
  deriving DecidableEq, Repr

/-- Directory entry of a line; unlisted is UNCACHED (R169). -/
inductive DirEntry where
  | shared (v : List ClusterId)
  | exclusive (o : ClusterId)
  deriving DecidableEq, Repr

/-- A departing write-back (R175 to R177). -/
structure Departing where
  /-- Half of the cache that holds the data until it is accepted. -/
  holder : HubId
  line : Line
  data : LineData
  slot : Byte
  nol3 : Bool
  /-- L3 ways open to the write-back, from the request that displaced the line (R189). -/
  l3mask : BitVec 16
  /-- The cache that sent it, for a victim: an L2 or an L3, the slot that its line stood in, which no fill takes before the write-back is
  accepted, and the line whose fill displaced it. -/
  fromL2 : Option (ClusterId × Nat)
  fromL3 : Option (CDieId × Nat)
  fill : Line
  resent : Nat
  /-- Its bridge transfer, when its home lies in the other half. -/
  via : Option Crossing := none
  deriving DecidableEq, Repr

/-- A cluster's outstanding request for a line at its home (R169), with the masks of R189 and what CLOCK asks (R185). -/
structure Req where
  cluster : ClusterId
  line : Line
  write : Bool
  l2mask : BitVec 16
  l3mask : BitVec 16
  slot : Byte
  nol3 : Bool
  lock : Bool
  part : Byte
  /-- The fill's mask overflow has been counted (R189). -/
  counted : Bool := false
  /-- Its bridge transfer, when its home lies in the other half. -/
  via : Option Crossing := none
  deriving DecidableEq, Repr

/-- A formed far-memory range (R250, R416, R436): 0 whole, 1 survivor only, 2 copying. -/
structure FarRange where
  /-- GiB from 0x0000_1000_0000_0000. -/
  base : Nat
  size : Nat
  portA : PortId
  portB : PortId
  fstate : Nat
  lost : Option (Fin 2)
  deriving DecidableEq, Repr

/-- An HBM stack with its controller (R434, R551). -/
structure Stack where
  failed : Bool := false
  refresh2 : Bool := false
  /-- Times of the lines uncorrectable at step 2 of R431 in the last second. -/
  uncorr : List Nat := []
  deriving DecidableEq, Repr

/-- Memory, directory and home controllers. -/
structure MemSys where
  /-- MEMORY and FAR bytes as last accepted by the home, plaintext of the writer's key; unlisted is 0 in MEMORY and free in FAR (R478). -/
  cells : List Host.Cell := []
  /-- Key under which a line was last written; an unlisted line was written under the key of slot 0 (R478). -/
  keyOf : Table Config.KeyVal := []
  /-- The 256 key slots (R251). -/
  slots : Table Config.KeyVal := []
  dir : Table DirEntry := []
  poison : List Nat := []
  departing : List Departing := []
  reqs : List Req := []
  hbm : Vector Stack 8 := Vector.replicate 8 {}
  /-- Dirty parity rows of the parity caches (R433): stack, row. -/
  parity : List (StackId × Nat) := []
  ranges : List FarRange := []
  /-- Next sequence number of a bridge transfer, by sending half (R16). -/
  bridgeSeq : Vector Nat 2 := Vector.replicate 2 0
  deriving DecidableEq, Repr

end Sys2Proof.Machine
end

