-- ==== Sys2Proof/Machine/StateIo.lean ====
section
/-!
DEFINITION. The slices, channel subsystem, job engines, keys and ports of the machine's state
(chapters 10 to 14). Times are CS.TOD values in nanoseconds.
-/

namespace Sys2Proof.Machine

/-- Control registers of a ring (R350, R351). -/
structure Ring where
  base : W := 0
  en : Bool := false
  log2n : BitVec 5 := 0
  head : BitVec 32 := 0
  tail : BitVec 32 := 0
  /-- SQSTAT or CQSTAT: INDEX, REASON and FAULT. -/
  index : BitVec 32 := 0
  reason : Byte := 0
  fault : Bool := false
  /-- An access to an entry has failed, and nothing more of the ring is read or written until FAULT is cleared (R356). -/
  stopped : Bool := false
  deriving DecidableEq, Repr

/-- A message that the module sends for a work request (R369, R371): what it asks of the remote side and the bytes it carries. -/
structure NetMsg where
  op : Byte
  port : PortId
  /-- Source and remote address of the network address table entries that it uses (R512). -/
  ip : List Byte
  rip : List Byte
  dqpn : BitVec 24
  raddr : BitVec 64
  rkey : BitVec 32
  imm : BitVec 32
  len : Nat
  data : List Byte
  deriving DecidableEq, Repr

/-- The answer to an inbound RDMA operation: a remote-access NAK, or the bytes that it reads (R373). -/
structure NetAnswer where
  slice : SliceId
  nak : Bool
  data : List Byte
  deriving DecidableEq, Repr

/-- State of a slice (R346). A drain ends in FREE or BOUND. -/
inductive SliceSt where
  | free
  | bound
  | draining (toFree : Bool)
  deriving DecidableEq, Repr

/-- A NETQ queue pair (R370). `sqTail` and `rqTail` are the tails of the accepted doorbells. -/
structure Qp where
  rqpn : BitVec 24 := 0
  addrix : BitVec 12 := 0
  en : Bool := false
  typ : BitVec 2 := 0
  err : Byte := 0
  /-- 0 RESET, 1 READY, 2 ERROR. -/
  st : BitVec 2 := 0
  sqbase : W := 0
  rqbase : W := 0
  sqlog : BitVec 5 := 0
  rqlog : BitVec 5 := 0
  sqhead : BitVec 32 := 0
  rqhead : BitVec 32 := 0
  sqtail : BitVec 32 := 0
  rqtail : BitVec 32 := 0
  spsn : BitVec 24 := 0
  rpsn : BitVec 24 := 0
  /-- Transport retries of the oldest outstanding request (R413). -/
  retries : Nat := 0
  /-- Rate reductions by CNP (R413). -/
  slowed : Nat := 0
  /-- Work requests fetched and not completed, oldest first: 64 bytes each. Those of the send queue stand with their messages. -/
  sent : List (List Byte × NetMsg) := []
  recvs : List (List Byte) := []
  /-- An entry of the send queue, or of the receive queue, could not be read (R356). -/
  sqstop : Bool := false
  rqstop : Bool := false
  deriving DecidableEq, Repr

/-- An inbound RDMA memory region (R373). -/
structure Mr where
  base : W := 0
  len : BitVec 40 := 0
  rwrite : Bool := false
  rread : Bool := false
  en : Bool := false
  seq : BitVec 13 := 0
  /-- It has been enabled, so that its RKEY names it. -/
  used : Bool := false
  deriving DecidableEq, Repr

/-- Where a completion entry comes from, so that its write can be accounted for. -/
inductive RecSrc where
  /-- A refusal of the submission ring (R289). -/
  | notice
  /-- The ACCEPTED notice of a journal entry (R289, R325). -/
  | accepted (ix : Nat)
  /-- A PROGRESS notice of a journal entry (R301). -/
  | progress (ix : Nat)
  /-- The final record of a journal entry (R323). -/
  | final (ix : Nat)
  /-- A job's record (R378). -/
  | job
  /-- A NETQ completion (R372). -/
  | netq
  /-- A void entry (R354). -/
  | void
  deriving DecidableEq, Repr

/-- A completion entry waiting for ring space (R307, R356). -/
structure HeldRec where
  src : RecSrc
  /-- Generation of its job or transaction; none for a record that belongs to no earlier generation. -/
  gen : Option (BitVec 16)
  /-- Counter that it is bound to, when one is reserved for it already (R367). -/
  ctr : Option (BitVec 32) := none
  bytes : List Byte
  deriving DecidableEq, Repr

/-- A slice: binding, rings and counters (R344 to R351, R399, R400). -/
structure Slice where
  st : SliceSt := .free
  kind : Byte := 0
  part : Byte := 0
  asid : BitVec 16 := 0
  gen : BitVec 16 := 0
  weight : BitVec 16 := 0
  limit : BitVec 16 := 0
  s1root : W := 0
  target : Nat := 0
  rkind : Byte := 0
  engmask : Byte := 0
  sq : Ring := {}
  cq : Ring := {}
  arm : Bool := false
  thresh : Byte := 1
  delay : BitVec 10 := 0
  dropped : BitVec 32 := 0
  qfull : BitVec 32 := 0
  /-- CJOBS or KJOBS, CIN or KBYTES, COUT, CRERUN or KFAIL.REJECTED, KFAIL.AUTH. -/
  jobs : W := 0
  bytesIn : W := 0
  bytesOut : W := 0
  reruns : BitVec 32 := 0
  auth : BitVec 32 := 0
  /-- Next completion counter to reserve, counters reserved and not yet written, and records that wait. -/
  cqNext : BitVec 32 := 0
  reserved : List (BitVec 32) := []
  waiting : List HeldRec := []
  /-- Time each unconsumed entry was written (R357). -/
  stamps : List (BitVec 32 × Nat) := []
  /-- The DELAY of the oldest unconsumed entry has passed (R357). -/
  delayed : Bool := false
  qps : Table Qp := []
  mrs : Table Mr := []
  /-- Time of the last generation advance (R349). -/
  lastAdv : Option Nat := none
  /-- Tickets of the drain in progress (R366). -/
  drainTickets : List (BitVec 32) := []
  /-- RESETTOD of the drain (R335). -/
  resetTod : Nat := 0
  deriving DecidableEq, Repr

/-- A posted I/O store (R103, R208). -/
structure Posted where
  strand : StrandId
  slice : SliceId
  off : BitVec 24
  wd : Width
  data : W
  part : Byte
  asid : BitVec 16
  gen : BitVec 16
  expiry : Nat
  deriving DecidableEq, Repr

/-- A tagged engine write in flight to the home (R347): one line piece. `done` names the record it completes. -/
structure TagWrite where
  slice : SliceId
  gen : BitVec 16
  pa : Nat
  bytes : List Byte
  slot : Byte
  issued : Nat
  /-- The channel engine that made it (R326). -/
  eng : Option (HubId × Fin 16) := none
  /-- For a completion entry: its counter and source. -/
  done : Option (BitVec 32 × HeldRec)
  deriving DecidableEq, Repr

/-- A partition (R510, R449, R359). -/
structure Partition where
  kquota : BitVec 16 := 256
  iotmo : BitVec 16 := 50
  blktmo : BitVec 16 := 30
  tapetmo : BitVec 16 := 600
  s2root : W := 0
  domain : W := 0
  /-- PLACE in force: 0 SPANNED, 1 HOMED_WEST, 2 HOMED_EAST, 3 MIRRORED_SPANNED. -/
  place : Byte := 0
  mbase : BitVec 16 := 0
  msize : BitVec 16 := 0
  /-- A copy to the twin is running, for this ticket (R450). -/
  copying : Option (BitVec 32) := none
  wakeMask : Bool := false
  wakeTarget : Option Nat := none
  refusedLocks : BitVec 32 := 0
  maskOvf : BitVec 32 := 0
  deriving DecidableEq, Repr

/-- A path of a subchannel (R283). STATE: 0 OFFLINE, 1 ONLINE, 2 FAILED. -/
structure Path where
  port : PortId
  proto : Byte
  target : BitVec 16
  st : Byte
  unit : BitVec 64
  /-- The device's format has been read on this path since it was last set ONLINE (R284). -/
  probed : Bool := false
  deriving DecidableEq, Repr

/-- A subchannel with its image (R281, R282, R286). -/
structure Subch where
  kind : Byte
  blksz : BitVec 32
  paths : List Path
  busy : Bool := false
  /-- Held sense block, 64 bytes (R302). -/
  sense : Option (List Byte) := none
  /-- Path of the previous transaction (R312). -/
  lastPath : Option Nat := none
  /-- Drain failures and underruns that programs have to report, oldest first: SCSTAT, DSTAT and the sense block (R340, R341). -/
  reports : List (Byte × Byte × Option (List Byte)) := []
  /-- Tape: logical object number at the drive's position (R317, R333). -/
  lon : BitVec 64 := 0
  deriving DecidableEq, Repr

/-- A journal entry (R317). -/
structure JEntry where
  txn : BitVec 64
  tag : BitVec 64
  program : BitVec 64
  slice : BitVec 13
  gen : BitVec 16
  subch : BitVec 16
  part : Byte
  /-- State code of R319. -/
  st : Byte
  asid : BitVec 16
  prio : Byte
  sflags : Byte
  stream : BitVec 16
  path : Byte
  engine : Byte
  cslice : BitVec 16
  cdepth : Byte
  cmode : Byte
  ckcce : BitVec 16
  recov : BitVec 16
  ckaddr : BitVec 64
  ckpos : BitVec 64
  ckxfer : BitVec 32
  ckdone : BitVec 32
  ckresid : BitVec 32
  dups : BitVec 16
  issued : Byte
  jflags : Byte
  acctod : BitVec 64
  ckseq : BitVec 32
  ringix : BitVec 32
  final : List Byte
  deriving DecidableEq, Repr

/-- A device command as the device receives it (R308, R333): its operation code and the fields that the mapping gives. -/
structure Wire where
  code : Byte
  /-- SLBA, LBA or object number; the count of a SPACE. -/
  lba : BitVec 64 := 0
  /-- NLB, or the transfer length: blocks for a block device, bytes for a tape. -/
  blocks : BitVec 32 := 0
  fixed : Bool := false
  sili : Bool := false
  /-- CODE of a SPACE, the count of a WRITE FILEMARKS, LOAD of a LOAD UNLOAD, the form of a READ POSITION. -/
  arg : Byte := 0
  deriving DecidableEq, Repr

/-- Whose device command it is: a transaction's, or a stream drain's (R337). -/
inductive CmdFor where
  | txn (ix : Nat)
  | drain (stream : Nat)
  deriving DecidableEq, Repr

/-- A device command issued (R308, R324). -/
structure DevCmd where
  id : Nat
  /-- Its NVMe command identifier or FCP OX_ID (R324). -/
  cid : BitVec 16
  who : CmdFor
  txn : BitVec 64
  ckseq : BitVec 32
  /-- The engine whose NVMe queue pair carries it (R310). -/
  queue : Byte
  port : PortId
  path : Nat
  /-- Channel command code, and CONTROL order. -/
  cmd : Byte
  order : Byte
  /-- Target table index. -/
  target : Nat
  /-- LBA or object number, byte offset in the group's area, and byte length; the parameter of a CONTROL order. -/
  pos : BitVec 64
  off : Nat
  len : Nat
  param : BitVec 64
  wire : Wire
  /-- The bytes that a WRITE carries. -/
  data : List Byte
  issuedAt : Nat
  /-- Time the abort was sent (R332). -/
  abort : Option Nat
  /-- Still in doubt for its transaction or drain (R324). -/
  live : Bool
  /-- It has answered with a failure that no checkpoint records yet; the port controller holds it no more (R321, R327). -/
  answered : Bool
  /-- An earlier issue of a re-driven WRITE on a failed path (R330). -/
  stale : Bool
  /-- A UNIT ATTENTION has been retried on it (R306). -/
  retried : Bool
  /-- 0 the command itself; 1 the READ POSITION that recovers it, 2 the LOCATE(16) that follows (R333). -/
  recov : Nat
  deriving DecidableEq, Repr

/-- A check ends a program: its status, or a lost line at a physical address (R303, R437). -/
inductive CceErr where
  | check (sc ds : Byte)
  | lost (pa : Nat)
  deriving DecidableEq, Repr

/-- A data-chain group, or a command with a device action, that an engine runs (R294). -/
structure Group where
  cmd : Byte
  /-- FLAGS of the last CCE of the group. -/
  flags : Byte
  order : Byte
  /-- Pieces of the data area, or the parameter: data-space address and length. Empty for SKIP. -/
  area : List (Nat × Nat)
  count : Nat
  /-- Bytes issued to the device. -/
  sent : Nat
  /-- Bytes that the device has confirmed: offset and length of each. -/
  got : List (Nat × Nat)
  /-- Bytes to write: compressed output of a COMPRESS group (R311). -/
  staged : Option (List Byte)
  /-- Its compression is not over (R311). -/
  packing : Bool
  /-- Bytes of the group that count in XFER; the rest is padding. -/
  xlen : Nat
  deriving DecidableEq, Repr

/-- An engine's working state for one transaction between checkpoints (R301). -/
structure Running where
  ix : Nat
  /-- S1ROOT of the owner's binding at acceptance (R334, R360). -/
  root : W
  /-- Address and ordinal of the next CCE. -/
  addr : BitVec 64
  ccno : BitVec 32
  /-- Address and ordinal of the first CCE of the command under way. -/
  caddr : BitVec 64 := 0
  cccno : BitVec 32 := 0
  /-- LBA position of a block program at the start of its command, once a LOCATE has set it. -/
  pos : Option (BitVec 64)
  group : Option Group
  resid : BitVec 32
  xfer : BitVec 32
  /-- SCSTAT and DSTAT that the program ends with once no command is outstanding. -/
  ending : Option (Byte × Byte)
  /-- The check that its compression met (R311). -/
  stop : Option CceErr := none
  /-- An engine has taken it over and has not yet read its program again from the checkpoint (R326). -/
  lost : Bool := false
  /-- Commands in doubt that are to be resolved on the present path, in order (R322). -/
  redo : List DevCmd := []
  /-- What comes next for it waits for a drain, buffer room, a format, a shared target or a compression. -/
  idle : Bool := false
  /-- CS.TOD of the RESET_SLICE that made it an orphan (R335). -/
  resetTod : Nat := 0
  deriving DecidableEq, Repr

/-- An orphan record (R335). -/
structure Orphan where
  ix : Nat
  final : List Byte
  slice : BitVec 16
  gen : BitVec 16
  part : Byte
  asid : BitVec 16
  tod : BitVec 64
  deriving DecidableEq, Repr

/-- A declared tape stream (R336 to R341). -/
structure Stream where
  slice : SliceId
  image : BitVec 12
  rate : BitVec 16
  bufbase : W
  bufsize : BitVec 32
  /-- Buffered blocks that the drive has not confirmed, in order: logical object number and data. -/
  blocks : List (BitVec 64 × List Byte) := []
  active : Bool := false
  /-- A command of the subchannel's program waits at the drain barrier (R338). -/
  barrier : Bool := false
  /-- The drain has to recover its blocks in doubt by READ POSITION before it goes on (R333, R337). -/
  recov : Bool := false
  /-- The channel engine that runs the drain (R326). -/
  engine : HubId × Fin 16 := (0, 0)
  deriving DecidableEq, Repr

/-- Service state of an engine or a core (R429, R430). -/
inductive Service where
  | inService
  | suspect
  | checkStopped
  | outUntilProving
  deriving DecidableEq, Repr

/-- A channel engine (R280, R326). -/
structure ChanEng where
  service : Service := .inService
  /-- Bank in use: 0 base, 1 event, 2 fault, 3 check; and the banks it interrupted. -/
  bank : BitVec 2 := 0
  stack : List (BitVec 2) := []
  /-- Queued events and faults, oldest first; true for a fault. -/
  queue : List Bool := []
  /-- Next micro-address of each bank; the fixed vectors at first (R279). -/
  addr : Vector Nat 4 := #v[0x0000, 0x0100, 0x0200, 0x0300]
  /-- The last word of the base bank was a commit, or none has run (R273, R280). -/
  atCommit : Bool := true
  /-- The running bank has halted until a doorbell or an event (R279). -/
  halted : Bool := false
  rounds : Nat := 0
  /-- Time it returned to service under R430. -/
  returnedAt : Option Nat := none
  lastJob : Nat := 0
  proving : Bool := false
  /-- Engine that reads this engine's rings while it is out of service (R326). -/
  takeover : Option (HubId × Fin 16) := none
  /-- A bank switch is ordered and the engine still runs from the other bank (R273). -/
  slipOld : Bool := false
  deriving DecidableEq, Repr

/-- A job engine's service state (R384, R429). -/
structure JobEng where
  service : Service := .inService
  rounds : Nat := 0
  returnedAt : Option Nat := none
  lastJob : Nat := 0
  proving : Bool := false
  deriving DecidableEq, Repr

/-- Outcome of a job, the fields of its record (R378). -/
structure JobResult where
  status : Byte
  detail : Byte
  consumed : BitVec 32
  produced : BitVec 32
  check : BitVec 32
  deriving DecidableEq, Repr

inductive JobSt where
  /-- Read, waiting for an engine. -/
  | ready
  | running (e : EngineRef)
  /-- Its attempt has ended and it waits for an unused engine (R384). -/
  | rerun
  /-- Its outcome is decided; the record is not written. -/
  | done (r : JobResult)
  deriving DecidableEq, Repr

/-- A COMPRESS or CRYPTO job (R376). -/
structure Job where
  slice : SliceId
  gen : BitVec 16
  sqix : BitVec 32
  /-- The 64-byte descriptor. -/
  desc : List Byte
  cost : Nat
  st : JobSt
  used : List EngineRef
  /-- Re-runs so far (R385). -/
  rerun : Nat
  /-- Engine of the last attempt. -/
  last : Option EngineRef
  /-- The channel transaction whose WRITE group it compresses (R311). -/
  chan : Option Nat := none
  deriving DecidableEq, Repr

/-- Virtual times of a scheduling pool (R362). -/
structure PoolClock where
  v : Rat := 0
  f : Table Rat := []
  /-- Slices known to have a ready job, in a pool whose ready jobs wait in rings. -/
  joined : List Nat := []
  deriving DecidableEq, Repr

/-- A key-table entry (R392, R393). `live` false leaves only the sequence. -/
structure KeyEntry where
  seq : BitVec 16
  live : Bool
  ktype : Byte
  usage : Byte
  part : Byte
  asid : BitVec 16
  material : Config.KeyVal
  deriving DecidableEq, Repr

/-- A state record that an engine has written (R387): its bytes, and the stream it carries. A record is accepted under its
seal exactly when the same slice and generation wrote these bytes. -/
structure SealedRec where
  slice : SliceId
  gen : BitVec 16
  bytes : List Byte
  /-- OP of the stream: 0x01 compression, 0x02 decompression, 0x18 HASH, 0x19 HMAC. -/
  op : Byte
  param : BitVec 16
  /-- Inputs of the stream's ended jobs. -/
  prev : List (List Byte)
  /-- Input that an exhausted job has consumed, and its output bytes already written; for decompression, of the whole stream. -/
  part : List Byte
  written : Nat
  /-- FINAL of the job that wrote it. -/
  fin : Bool
  deriving DecidableEq, Repr

/-- A network address table entry (R512). -/
structure NetAddr where
  slice : BitVec 16
  port : PortId
  alt : Option PortId
  mac : List Byte
  vlan : BitVec 16
  ip : List Byte
  rip : List Byte
  /-- Lost for the rest of SPLIT, or no longer answered by this hub (R463). -/
  lost : Bool := false
  deriving DecidableEq, Repr

/-- An octet record (R403). -/
structure OctetRec where
  mode : Byte := 0
  rate : Byte := 0
  width : Byte := 0
  fec : Byte := 0
  lanes : Byte := 0
  mtu : BitVec 16 := 0
  deriving DecidableEq, Repr

/-- State of a port (R407). -/
inductive PortSt where | off | idle | training | up | hold
  deriving DecidableEq, Repr

structure Port where
  st : PortSt := .off
  /-- Times of the link losses since the port was last released or left HOLD (R407). -/
  losses : List Nat := []
  /-- Start of the training, or of HOLD. -/
  since : Nat := 0
  /-- The first failure after the release has been reported (R410). -/
  reported : Bool := false
  /-- A receiver has been detected (R409). -/
  receiver : Bool := false
  /-- A receiver has been detected since the release (R410). -/
  met : Bool := false
  gen : Byte := 0
  width : Byte := 0
  deriving DecidableEq, Repr

/-- The I/O side of the machine. -/
structure Io where
  /-- Unlisted slices are FREE with generation 0. -/
  slices : Table Slice := []
  posted : List Posted := []
  writes : List TagWrite := []
  parts : Table Partition := []
  /-- Key: slice times 4096 plus image. -/
  subchs : Table Subch := []
  /-- Target table entries, 272 bytes (R511). -/
  targets : Table (List Byte) := []
  /-- Key: partition times 4096 plus index. -/
  netaddrs : Table NetAddr := []
  /-- Journal halves of HW and HE (R316). -/
  journal : Vector (Table JEntry) 2 := Vector.replicate 2 []
  running : List Running := []
  cmds : List DevCmd := []
  nextCmd : Nat := 0
  orphans : Vector (List Orphan) 2 := Vector.replicate 2 []
  streams : Table Stream := []
  /-- Channel engines, hub times 16 plus number. -/
  chans : Vector ChanEng 32 := Vector.replicate 32 {}
  /-- COUNT of each hub and its reserve mark in flash (R314, R315). -/
  txnCount : Vector Nat 2 := Vector.replicate 2 0
  txnMark : Vector Nat 2 := Vector.replicate 2 0
  /-- Job engines: hub times 12, plus pool times 4 (compression, bulk, public-key), plus number. -/
  engines : Vector JobEng 24 := Vector.replicate 24 {}
  jobs : List Job := []
  /-- Pools: hub times 3 plus pool. -/
  pools : Vector PoolClock 6 := Vector.replicate 6 {}
  /-- Pools of the channel engines for reading starts, hub times 16 plus number, and of the ports for transmission (R342). -/
  chanPools : Vector PoolClock 32 := Vector.replicate 32 {}
  txPools : Table PoolClock := []
  /-- NVMe controllers that the module has initialised, each with one I/O queue pair per channel engine: port and target (R310). -/
  controllers : List (PortId × Nat) := []
  /-- The answer last given to an inbound RDMA operation (R373). -/
  answer : Option NetAnswer := none
  /-- Key tables of HW and HE (R392, R462). -/
  keys : Vector (Table KeyEntry) 2 := Vector.replicate 2 []
  sealedRecs : List SealedRec := []
  /-- Octet records in force. -/
  octets : Vector OctetRec 12 := Vector.replicate 12 {}
  /-- Key: PORT byte. -/
  ports : Table Port := []
  /-- Engine translation caches by slice: entries held with the slice (R361), and TLBI or WCI not yet acknowledged, by hub. -/
  etlb : Table (List TlbEntry) := []
  einval : Vector (List InvalOp) 2 := Vector.replicate 2 []
  deriving DecidableEq, Repr

end Sys2Proof.Machine
end

