-- ==== Sys2Proof/Machine/StateCtl.lean ====
section
/-!
DEFINITION. The control hierarchy of the machine's state: modes, feeds, islands, domains, time of day,
Flelet, slips, silt log, tilth report and test port (chapters 1, 9, 15 to 20), and the on-package
flash configuration that only Flelet commands and PROVING write.
-/

namespace Sys2Proof.Machine

/-- Operating modes (R46, R468). -/
inductive Mode where | standby | proving | fallow | operating | exposed | split
  deriving DecidableEq, Repr

/-- Half-states (R47). -/
inductive HalfSt where | none | lead | fenced
  deriving DecidableEq, Repr

/-- A main feed (R440, R540). -/
structure Feed where
  /-- Voltage present at the lands. -/
  present : Bool := false
  closed : Bool := false
  admitted : Bool := false
  /-- Phases flagged in the last 1 ms window. -/
  flagged : Nat := 0
  deriving DecidableEq, Repr

/-- A Hardpan island with its management port (R22, R443 to R445). -/
structure Island where
  /-- PoE-derived supply present at the lands. -/
  supply : Bool := false
  powered : Bool := false
  failed : Bool := false
  portFailed : Bool := false
  /-- Count of the tickets it has issued, and of the silt records it holds or assigned (R501, R519). -/
  tickets : Nat := 0
  deriving DecidableEq, Repr

/-- Who issued a ticket, and who may read it (R501). -/
inductive Role where | owner | viewer | mailbox
  deriving DecidableEq, Repr

/-- A ticket (R501, R502): running, or finished with its result packet. -/
structure Ticket where
  num : BitVec 32
  role : Role
  opcode : BitVec 16
  /-- Header of the STARTED reply, which the result repeats. -/
  hdr : List Byte
  result : Option (List Byte)
  read : Bool
  /-- The one island that holds it, when it was issued in SPLIT. -/
  holder : Option HubId
  deriving DecidableEq, Repr

/-- A management connection and its session (R489 to R492). -/
structure Conn where
  port : HubId
  cert : CertKind
  /-- Session number and role. -/
  session : Option (BitVec 32 × Role)
  maxSeq : BitVec 32
  /-- SEQUENCE and reply of the last 16 requests, newest first. -/
  replies : List (BitVec 32 × List Byte)
  lastPacket : Nat
  deriving DecidableEq, Repr

/-- A slice command that waits for its slice's next generation advance (R349), or behind such a command of its session (R492). -/
structure WaitCmd where
  src : FSource
  opcode : BitVec 16
  packet : Packet
  deriving DecidableEq, Repr

/-- A staging area (R507). -/
structure Staging where
  conn : Nat
  alg : Byte
  length : Nat
  keyid : List Byte
  sig : List Byte
  /-- Bytes written so far, by offset. -/
  data : List Host.Cell
  lastData : Nat
  deriving DecidableEq, Repr

/-- One bank of the core slip (R254, R269). -/
structure SlipBank where
  /-- Slip words from 0x6000, which carry Jenrek's patch, and the 64 match registers. -/
  patch : List (BitVec 160) := []
  matchRegs : List (BitVec 32) := List.replicate 64 0
  /-- X decode entries for fn 0x30 to 0x3F (R260), and X micro-words from 0x6300. -/
  entries : List (BitVec 32) := List.replicate 16 0
  code : List (BitVec 160) := []
  deriving DecidableEq, Repr

/-- One bank of the engine slip: words from 0x2000, and the 16 match registers (R254, R269). -/
structure EngineBank where
  words : List (BitVec 128) := []
  matchRegs : List (BitVec 32) := List.replicate 16 0
  deriving DecidableEq, Repr

/-- An ordered slip switch that some sequencer has not made (R273). -/
structure SlipSwitch where
  target : Byte
  ticket : BitVec 32
  deriving DecidableEq, Repr

/-- A core's place in the module (R424, R476). -/
inductive CoreRole where
  /-- Not good, or out until the next PROVING. -/
  | out
  | assignable
  | spare
  /-- Declared failing with no spare: its stopped strands can still be read (R428). -/
  | failing
  deriving DecidableEq, Repr

structure CoreUnit where
  role : CoreRole := .out
  /-- Times of the failed retries in the last second (R424). -/
  retries : List Nat := []
  /-- Rounds of the proving loop failed in a row (R430). -/
  consec : Nat := 0
  /-- Scratchpad home of a substituted core, 0 when not substituted (R530). -/
  spHome : Option ClusterId := none
  deriving DecidableEq, Repr

/-- A power domain (R33, R34, R43). -/
structure Domain where
  on : Bool := false
  /-- Setpoint in mV. -/
  rail : BitVec 16 := 800
  /-- It was switched, or its rail began to move, in the present pace window (R39). -/
  changed : Bool := false
  /-- Where the rail stood in mV when its last move began, and CS.TOD of that (R33). -/
  moveFrom : Nat := 800
  moveAt : Nat := 0
  /-- Off until the next PROVING. -/
  out : Bool := false
  deriving DecidableEq, Repr

/-- Last pace record of a domain (R39). -/
structure Pace where
  count : BitVec 32 := 0
  rail : BitVec 16 := 0
  temp : BitVec 16 := 0
  st : Byte := 0
  window : BitVec 16 := 0
  deriving DecidableEq, Repr

/-- A silt log record (R518). -/
structure SiltRec where
  tod : BitVec 64
  loc : BitVec 16
  code : BitVec 16
  seq : BitVec 32
  data : BitVec 128
  deriving DecidableEq, Repr

/-- One island's silt log (R520 to R525). -/
structure Silt where
  /-- Ring of at most 65,536 records, oldest first, and the count of records it has overwritten. -/
  ring : List SiltRec := []
  overwritten : Nat := 0
  /-- TRIGGER and CS.TOD of the freeze in force. -/
  frozen : Option (Byte × BitVec 64) := none
  post : List SiltRec := []
  lost : BitVec 32 := 0
  /-- A retained log is being written to flash: its FROZETOD, TRIGGER and records. -/
  writing : Option (BitVec 64 × Byte × List SiltRec) := none
  /-- Cause of a thaw that waits for the write (R525). -/
  thaw : Option Byte := none
  /-- Highest count assigned. -/
  count : Nat := 0
  deriving DecidableEq, Repr

/-- A retained log in flash (R524). -/
structure Retained where
  tod : BitVec 64
  trigger : Byte
  recs : List SiltRec
  deriving DecidableEq, Repr

/-- Counters of one tilth report record (R529); `spec0` to `spec3` are the SPEC counters of its kind in order (R530). -/
structure Tilth where
  corr : BitVec 32 := 0
  uncorr : BitVec 32 := 0
  retry : BitVec 32 := 0
  events : BitVec 32 := 0
  passed : BitVec 32 := 0
  failed : BitVec 32 := 0
  lastTod : BitVec 64 := 0
  spec0 : BitVec 32 := 0
  spec1 : BitVec 32 := 0
  spec2 : BitVec 32 := 0
  spec3 : BitVec 32 := 0
  deriving DecidableEq, Repr

/-- States of an IEEE 1149.1 TAP controller (R546). -/
inductive Tap where
  | reset | idle | selDr | capDr | shDr | ex1Dr | pauDr | ex2Dr | updDr
  | selIr | capIr | shIr | ex1Ir | pauIr | ex2Ir | updIr
  deriving DecidableEq, Repr

/-- The test port (R546). -/
structure TestPort where
  isOpen : Bool := false
  tap : Tap := .reset
  /-- Bit that the last falling edge of TCK put out. -/
  tdo : Bool := false
  deriving DecidableEq, Repr

/-- Progress of an entry to SPLIT and of rejoin, per half (R453, R455, R460, R466). -/
structure HalfSplit where
  half : HalfSt := .none
  /-- Time of step 1. -/
  entered : Nat := 0
  /-- LEAD may issue commands to shared targets (R460). -/
  sharedOk : Bool := false
  /-- Half to which the lease has been granted, once this half's island has the grant (R455). -/
  lease : Option HubId := none
  deriving DecidableEq, Repr

/-- The control hierarchy's state. -/
structure Ctl where
  mode : Mode := .standby
  halves : Vector HalfSplit 2 := Vector.replicate 2 {}
  /-- Ticket and issuing half of an accepted REJOIN (R467). -/
  rejoin : Option (BitVec 32 × HubId) := none
  reason : Byte := 0
  reasonLoc : BitVec 16 := 0
  /-- PROVING step, 0 outside PROVING, and CS.TOD of its entry. -/
  step : Nat := 0
  provingSince : Nat := 0
  /-- Tickets of the POWER_ON or PROVE commands that wait for the start attempt or the PROVING in progress. -/
  startTickets : List (BitVec 32) := []
  feeds : Vector Feed 2 := Vector.replicate 2 {}
  lastProve : BitVec 64 := 0
  islands : Vector Island 2 := Vector.replicate 2 {}
  steering : HubId := 0
  islandLink : Bool := true
  /-- CS.TOD of the two halves. -/
  tod : Vector (BitVec 64) 2 := Vector.replicate 2 0
  /-- Latest value saved to flash and CS.TOD at which that write began (R532). -/
  savedTod : BitVec 64 := 0
  lastSave : BitVec 64 := 0
  refclk : Vector Bool 2 := Vector.replicate 2 true
  offHold : Bool := false
  /-- CS.TOD of the entry to STANDBY, and of the last start attempt; a start attempt is running. -/
  standbySince : Nat := 0
  attempt : Bool := false
  attemptAt : Option Nat := none
  tickets : List Ticket := []
  conns : Table Conn := []
  /-- Replies and closings sent on connections, oldest first; an empty packet is a close. -/
  outbox : List (Nat × List Byte) := []
  genWait : List WaitCmd := []
  staging : Table Staging := []
  /-- Core slip: active and shadow bank; a strand with `oldSlip` still runs the other. -/
  slip : Vector SlipBank 2 := Vector.replicate 2 {}
  coreActive : Bool := false
  /-- Engine slip: active and shadow bank; an engine with `slipOld` still runs the other. -/
  engSlip : Vector EngineBank 2 := Vector.replicate 2 {}
  engActive : Bool := false
  patchId : BitVec 32 := 0
  xId : BitVec 32 := 0
  switching : Option SlipSwitch := none
  cores : Vector CoreUnit 144 := Vector.replicate 144 {}
  lostClusters : List ClusterId := []
  /-- Compute dies whose lanes to their hub have failed (R437). -/
  lostDies : List CDieId := []
  lostHubs : List HubId := []
  /-- Hub copies out of service (R445): journal, slice directory, key table. -/
  hubCopies : List (HubId × HubCopy) := []
  /-- Bridge bundles that are up (R439). -/
  bundles : Vector Bool 2 := Vector.replicate 2 true
  /-- A down bundle runs test traffic, error-free since this time (R439, R466); it has done so for 10 s in SPLIT. -/
  bundleTest : Vector (Option Nat) 2 := Vector.replicate 2 none
  bundleReady : Vector Bool 2 := Vector.replicate 2 false
  /-- Time of the last heartbeat of the steering island (R443). -/
  lastBeat : Nat := 0
  failedLinks : List ClusterId := []
  /-- Steward-bus links other than cluster links that have failed: kind and number. -/
  failedWires : List StewardLink := []
  domains : Vector Domain 232 := Vector.replicate 232 {}
  pace : Vector Pace 232 := Vector.replicate 232 {}
  silt : Vector Silt 2 := Vector.replicate 2 {}
  retained : List (Option Retained) := List.replicate 16 none
  /-- Tilth counters; the key is KIND times 65536 plus the location code or partition (R530). -/
  tilth : Table Tilth := []
  feedProvings : BitVec 32 := 0
  port : TestPort := {}
  /-- SLOT read at the last dark start (R548). -/
  slot : BitVec 3 := 0
  /-- Findings of PROVING so far: cores, stacks, and units that fail (R476). -/
  badCores : List CoreId := []
  badOctets : List OctetId := []
  /-- Far-memory pairs as PROVING judged them: BASE, REASON (R530). -/
  farJudged : List (Nat × Byte) := []
  farUp : List (PortId × Nat) := []
  deriving DecidableEq, Repr

/-- An owner anchor (R490). -/
structure Anchor where
  alg : Byte
  session : List Byte
  viewer : List Byte
  sign : List Byte
  deriving DecidableEq, Repr

/-- A supervisor image slot (R479, R507). -/
structure ImageSlot where
  valid : Bool := false
  load : BitVec 64 := 0
  entry : BitVec 64 := 0
  tvec : BitVec 64 := 0
  seq : BitVec 64 := 0
  /-- The bytes that follow the header. -/
  body : List Byte := []
  deriving DecidableEq, Repr

/-- Far-memory pair record (R509). -/
structure FarPair where
  portA : PortId
  portB : PortId
  base : BitVec 32
  deriving DecidableEq, Repr

/-- Configuration kept in on-package flash that Flelet sets (R472). -/
structure FlashCfg where
  anchor : Option Anchor := none
  /-- Parameters of SET_MGMT_NET for each port (R503). -/
  mgmtNet : Vector (List Byte) 2 := Vector.replicate 2 []
  autostart : Bool := false
  preferred : HubId := 0
  floor : Vector (BitVec 16) 232 := Vector.replicate 232 650
  ceil : Vector (BitVec 16) 232 := Vector.replicate 232 950
  octets : Vector OctetRec 12 := Vector.replicate 12 {}
  farPairs : List FarPair := []
  slots : Vector ImageSlot 2 := Vector.replicate 2 {}
  active : Fin 2 := 0
  /-- Sequence floor (R479). -/
  seqFloor : BitVec 64 := 0
  deriving DecidableEq, Repr

end Sys2Proof.Machine
end

