-- ==== Sys2Proof/Machine/State.lean ====
section
/-!
DEFINITION. The state of the block, the reasons a command can stop, and the state after manufacture.
-/

namespace Sys2Proof.Machine

/-- The machine apart from its queue and its flash configuration. -/
structure Body where
  strands : Vector Strand 576 := Vector.replicate 576 {}
  cores : Vector Core 144 := Vector.replicate 144 {}
  clusters : Vector Cluster 36 := Vector.replicate 36 {}
  dies : Vector Die 4 := Vector.replicate 4 {}
  mem : MemSys := {}
  io : Io := {}
  ctl : Ctl := {}
  /-- The model's own counter of free choices (log entry 2). -/
  freeCtr : Nat := 0
  deriving DecidableEq, Repr

/-- The state: the commands that wait, first in first out, the flash configuration, and the rest. -/
structure State where
  pending : List Instr := []
  cfg : FlashCfg := {}
  body : Body := {}
  deriving DecidableEq, Repr

/-- Reasons for which a command stops the machine. -/
inductive Fault where
  /-- Raised by no command whose effect the spec gives: kept for a walk of the model past its own bounds
  (safe: the machine stops where the model says nothing). -/
  | outsideModel
  deriving DecidableEq, Repr

/-- Reasons for which the model gives a command no meaning. -/
inductive Refusal where
  /-- The command has no meaning in the model yet (safe: nothing can be proved of what follows). -/
  | notModelled (mnemonic : String)
  deriving DecidableEq, Repr

/-- The module as manufactured, dark: no feed, no island supply, every register at its reset value (log entry 1). -/
def State.reset : State := {}

end Sys2Proof.Machine
end

