-- ==== Sys2Proof/Machine/Ops.lean ====
section
/-!
DEFINITION. Operations that every family of commands shares: tables, bytes and cells, the module's
geometry and location codes, free choices, the silt log and the tilth counters.
-/

namespace Sys2Proof.Machine

/-- Answer of a command. -/
abbrev Out := Host.Outcome State Fault Refusal

/-! ## Tables -/

/-- Entry of key `k`. -/
def tGet {α : Type} : Table α → Nat → Option α
  | [], _ => none
  | (j, v) :: r, k => if j = k then some v else tGet r k

/-- The table with `v` under key `k`, keys rising. -/
def tPut {α : Type} : Table α → Nat → α → Table α
  | [], k, v => [(k, v)]
  | (j, w) :: r, k, v =>
    if k < j then (k, v) :: (j, w) :: r
    else if k = j then (k, v) :: r
    else (j, w) :: tPut r k v

/-- The table without key `k`. -/
def tDel {α : Type} (t : Table α) (k : Nat) : Table α := t.filter fun e => e.1 != k

/-- The table with the entry of `k`, if any, changed by `f`. -/
def tMod {α : Type} (t : Table α) (k : Nat) (f : α → α) : Table α :=
  t.map fun e => if e.1 = k then (e.1, f e.2) else e

/-! ## Bytes -/

/-- Value of a little-endian byte string (R3). -/
def leNat : List Byte → Nat
  | [] => 0
  | x :: xs => x.toNat + 256 * leNat xs

/-- The low `n` bytes of `v`, little-endian (R3). -/
def leBytes : Nat → Nat → List Byte
  | 0, _ => []
  | n + 1, v => BitVec.ofNat 8 v :: leBytes n (v / 256)

/-- Bytes of a record given as size and value of each field in order (R3, R4). -/
def pack (fs : List (Nat × Nat)) : List Byte := fs.flatMap fun f => leBytes f.1 f.2

/-- `n` bytes of `l` from offset `off`; bytes beyond its end are left out. -/
def slice (l : List Byte) (off n : Nat) : List Byte := (l.drop off).take n

/-- Little-endian field of a record. -/
def field (l : List Byte) (off n : Nat) : Nat := leNat (slice l off n)

/-- `l` cut or zero-filled to `n` bytes. -/
def padTo (n : Nat) (l : List Byte) : List Byte := l.take n ++ List.replicate (n - l.length) 0

/-- A 16-byte DATA field of a silt record from its fields (R521). -/
def dataOf (fs : List (Nat × Nat)) : BitVec 128 := BitVec.ofNat 128 (leNat (pack fs))

/-! ## Memory cells -/

/-- Byte at `a` of a canonical list of cells; `unl` gives what an unlisted address holds. -/
def cellGet (unl : Nat → Byte) : List Host.Cell → Nat → Byte
  | [], a => unl a
  | (k, v) :: r, a => if k = a then v else cellGet unl r a

/-- The cells after byte `v` is written at `a`. Writing what an unlisted address holds removes the entry. -/
def cellPut (unl : Nat → Byte) : List Host.Cell → Nat → Byte → List Host.Cell
  | [], a, v => if v = unl a then [] else [(a, v)]
  | (k, w) :: r, a, v =>
    if a < k then (if v = unl a then (k, w) :: r else (a, v) :: (k, w) :: r)
    else if a = k then (if v = unl a then r else (a, v) :: r)
    else (k, w) :: cellPut unl r a v

/-- Bytes written from address `a` on. -/
def cellPuts (unl : Nat → Byte) (m : List Host.Cell) (a : Nat) : List Byte → List Host.Cell
  | [] => m
  | x :: xs => cellPuts unl (cellPut unl m a x) (a + 1) xs

/-- `n` bytes read from address `a` on. -/
def cellGets (unl : Nat → Byte) (m : List Host.Cell) (a n : Nat) : List Byte :=
  (List.range n).map fun i => cellGet unl m (a + i)

/-- Keys rise strictly and no entry equals what an unlisted address holds. -/
def Memory.wf (unl : Nat → Byte) : List Host.Cell → Bool
  | [] => true
  | (a, v) :: r =>
    v != unl a && (match r with | [] => true | (b, _) :: _ => decide (a < b)) && Memory.wf unl r

/-- What a MEMORY or FAR byte that nothing has written holds: 0 in MEMORY after PROVING, a free value in FAR (R478). -/
def unwritten (a : Nat) : Byte := if a < 0x100000000000 then 0 else Config.farInit a

/-- What an unlisted scratchpad byte holds (R180). -/
def zeroByte (_ : Nat) : Byte := 0

/-- The bytes of a line's contents. -/
def lineBytes (d : LineData) : List Byte := leBytes 128 d.toNat

/-- A line's contents from its bytes. -/
def lineOf (l : List Byte) : LineData := BitVec.ofNat 1024 (leNat l)

/-- `bytes` of a line's contents from offset `off`. -/
def lineGet (d : LineData) (off n : Nat) : List Byte := leBytes n (d.toNat / 256 ^ off)

/-- A line's contents with bytes replaced from offset `off` on. -/
def lineSet (d : LineData) (off : Nat) (bs : List Byte) : LineData :=
  let l := lineBytes d
  lineOf (l.take off ++ bs ++ l.drop (off + bs.length))

/-! ## Geometry and location codes -/

def coreOf (t : StrandId) : CoreId := ⟨t.val / 4, by omega⟩
def clusterOf (c : CoreId) : ClusterId := ⟨c.val / 4, by omega⟩
def dieOf (c : ClusterId) : CDieId := ⟨c.val / 9, by omega⟩
/-- The half of a compute die (R12). -/
def halfOf (d : CDieId) : HubId := ⟨d.val / 2, by omega⟩
def clusterOfStrand (t : StrandId) : ClusterId := clusterOf (coreOf t)
def halfOfStrand (t : StrandId) : HubId := halfOf (dieOf (clusterOfStrand t))
def halfOfCluster (c : ClusterId) : HubId := halfOf (dieOf c)
def otherHub (h : HubId) : HubId := if h = 0 then 1 else 0
/-- Number `k` of a hub's four strands, cores or the like, as a `Fin`. -/
def strandOf (c : CoreId) (k : Fin 4) : StrandId := ⟨c.val * 4 + k.val, by omega⟩
def coreIn (c : ClusterId) (k : Fin 4) : CoreId := ⟨c.val * 4 + k.val, by omega⟩
def coresOf (c : ClusterId) : List CoreId := [coreIn c 0, coreIn c 1, coreIn c 2, coreIn c 3]
def strandsOfCore (c : CoreId) : List StrandId := [strandOf c 0, strandOf c 1, strandOf c 2, strandOf c 3]
def strandsOfCluster (c : ClusterId) : List StrandId := (coresOf c).flatMap strandsOfCore
def allStrands : List StrandId := List.finRange 576
def allCores : List CoreId := List.finRange 144
def allClusters : List ClusterId := List.finRange 36
def coresOfDie (d : CDieId) : List CoreId := allCores.filter fun c => dieOf (clusterOf c) = d
def clustersOfDie (d : CDieId) : List ClusterId := allClusters.filter fun c => dieOf c = d
/-- The stacks a compute die's controllers drive (R13). -/
def stackOf (d : CDieId) (i : Fin 2) : StackId := ⟨d.val * 2 + i.val, by omega⟩
/-- The half of an octet (R12). -/
def halfOfOctet (o : OctetId) : HubId := if o.val < 6 then 0 else 1

/-- Location code of a compute-die unit (R7). -/
def locCode (die cluster core strand unit : Nat) : BitVec 16 :=
  BitVec.ofNat 16 (die * 8192 + cluster * 512 + core * 128 + strand * 32 + unit)

/-- Location code of a hub engine or port (R10). -/
def hubLoc (h : HubId) (engine : Nat) (sub : Nat := 0) : BitVec 16 :=
  BitVec.ofNat 16 ((4 + h.val) * 8192 + engine * 32 + sub)

/-- A strand, or one of its per-strand units. -/
def strandLoc (t : StrandId) (unit : Nat := 0) : BitVec 16 :=
  locCode (dieOf (clusterOfStrand t)).val ((clusterOfStrand t).val % 9) ((coreOf t).val % 4) (t.val % 4) unit
def coreLoc (c : CoreId) (unit : Nat := 0) : BitVec 16 :=
  locCode (dieOf (clusterOf c)).val ((clusterOf c).val % 9) (c.val % 4) 0 unit
def clusterLoc (c : ClusterId) (unit : Nat) : BitVec 16 :=
  locCode (dieOf c).val (c.val % 9) 0 0 unit
def dieLoc (d : CDieId) (unit : Nat) : BitVec 16 := locCode d.val 15 0 0 unit
/-- Memory controller of a stack (R9). -/
def controllerLoc (m : StackId) : BitVec 16 := locCode (m.val / 2) 15 0 0 (8 + m.val % 2)
def octetLoc (o : OctetId) (sub : Nat := 0) : BitVec 16 := hubLoc (halfOfOctet o) (0x20 + o.val) sub
def islandLoc (h : HubId) : BitVec 16 := hubLoc h 0x32

/-- The half that a location code lies in (R7, R12). -/
def halfOfLoc (l : BitVec 16) : HubId :=
  let d := l.toNat / 8192
  if d = 0 ∨ d = 1 ∨ d = 4 then 0 else 1

/-- Does a location code name a unit (R7 to R11)? An octet has a whole, eight ports and eight lanes (R402). -/
def locValid (l : BitVec 16) : Bool :=
  let n := l.toNat
  let die := n / 8192
  let unit := n % 32
  if die < 4 then
    let cl := n / 512 % 16
    let core := n / 128 % 4
    let str := n / 32 % 4
    if cl ≤ 8 then
      unit ≤ 4 || ((5 ≤ unit && unit ≤ 9) && str = 0) || ((0x18 ≤ unit && unit ≤ 0x1A) && core = 0 && str = 0)
    else cl = 15 && core = 0 && str = 0 && (unit ≤ 0x0D || unit = 0x1F)
  else if die ≤ 5 then
    let e := n / 32 % 256
    if 0x20 ≤ e && e ≤ 0x2B then
      (if die = 4 then e ≤ 0x25 else 0x26 ≤ e) && (unit ≤ 8 || (0x10 ≤ unit && unit ≤ 0x17))
    else
      unit = 0 && (e ≤ 0x19 || (0x30 ≤ e && e ≤ 0x36) || e = 0xFF)
  else false

/-! ## Parts of the state -/

def Body.strand (b : Body) (t : StrandId) : Strand := b.strands[t]
def Body.setStrand (b : Body) (t : StrandId) (s : Strand) : Body := { b with strands := b.strands.set t s }
def Body.modStrand (b : Body) (t : StrandId) (f : Strand → Strand) : Body := b.setStrand t (f (b.strand t))
def Body.core (b : Body) (c : CoreId) : Core := b.cores[c]
def Body.modCore (b : Body) (c : CoreId) (f : Core → Core) : Body := { b with cores := b.cores.set c (f (b.core c)) }
def Body.cluster (b : Body) (c : ClusterId) : Cluster := b.clusters[c]
def Body.modCluster (b : Body) (c : ClusterId) (f : Cluster → Cluster) : Body :=
  { b with clusters := b.clusters.set c (f (b.cluster c)) }
def Body.die (b : Body) (d : CDieId) : Die := b.dies[d]
def Body.modDie (b : Body) (d : CDieId) (f : Die → Die) : Body := { b with dies := b.dies.set d (f (b.die d)) }
def Body.modMem (b : Body) (f : MemSys → MemSys) : Body := { b with mem := f b.mem }
def Body.modIo (b : Body) (f : Io → Io) : Body := { b with io := f b.io }
def Body.modCtl (b : Body) (f : Ctl → Ctl) : Body := { b with ctl := f b.ctl }

/-- A command that changes nothing outside `body`. -/
def onBody (f : Body → Body) (s : State) : Host.Outcome State Fault Refusal := .next { s with body := f s.body }

/-- All strands changed by `f`. -/
def Body.mapStrands (b : Body) (f : StrandId → Strand → Strand) : Body :=
  { b with strands := Vector.ofFn fun t => f t b.strands[t] }
def Body.mapCores (b : Body) (f : CoreId → Core → Core) : Body :=
  { b with cores := Vector.ofFn fun t => f t b.cores[t] }
def Body.mapClusters (b : Body) (f : ClusterId → Cluster → Cluster) : Body :=
  { b with clusters := Vector.ofFn fun t => f t b.clusters[t] }

/-- Spends one free choice (log entry 2). -/
def Body.spend (b : Body) : Body := { b with freeCtr := b.freeCtr + 1 }

/-- A free element of a list, and the state that has spent the choice. A list of one or none spends nothing. -/
def Body.pick {α : Type} (b : Body) (l : List α) : Option α × Body :=
  match l with
  | [] => (none, b)
  | [x] => (some x, b)
  | x :: y :: r => ((x :: y :: r)[Config.freeNat b.freeCtr % (r.length + 2)]?, b.spend)

/-- Bytes of a free value of `n` bytes. -/
def freeBytes (k n : Nat) : List Byte := (List.range n).map (Config.freeByte k)

/-- CS.TOD that a strand reads: that of its half (R37, R532). -/
def Body.tod (b : Body) (h : HubId) : Nat := (b.ctl.tod[h]).toNat

/-- Index of the partition, 0 for the supervisor; an absent partition has the defaults of R510. -/
def Body.part (b : Body) (p : Byte) : Partition :=
  (tGet b.io.parts p.toNat).getD { kquota := if p = 0 then 1024 else 256, domain := BitVec.ofNat 64 p.toNat }

def Body.isSplit (b : Body) : Bool := b.ctl.mode = .split

/-! ## Silt log -/

/-- Appends to a ring of 65,536 records (R520). -/
def Silt.pushRing (g : Silt) (r : SiltRec) : Silt :=
  if g.ring.length < 65536 then { g with ring := g.ring ++ [r] }
  else { g with ring := g.ring.drop 1 ++ [r], overwritten := g.overwritten + 1 }

/-- Stores a record, in the ring or, while frozen, in the post-freeze buffer (R520, R523). -/
def Silt.push (g : Silt) (r : SiltRec) : Silt :=
  match g.frozen with
  | none => g.pushRing r
  | some _ =>
    if g.post.length < 4096 then { g with post := g.post ++ [r] }
    else { g with lost := if g.lost = BitVec.allOnes 32 then g.lost else g.lost + 1 }

/-- SEQ of the record of count `n` that island `h` assigns (R518). -/
def siltSeq (h : HubId) (n : Nat) : BitVec 32 := BitVec.ofNat 32 (h.val * 2147483648 + n % 2147483648)

/-- The islands that receive an event of half `h`, and the island that assigns each one's SEQ (R519, R526). -/
def Body.siltTargets (b : Body) (h : HubId) : List (HubId × HubId) :=
  let live (i : HubId) : Bool := (b.ctl.islands[i]).powered && !(b.ctl.islands[i]).failed
  if b.isSplit then (if live h then [(h, h)] else [])
  else if b.ctl.islandLink then ([0, 1].filter live).map fun i => (i, b.ctl.steering)
  else ([0, 1].filter live).map fun i => (i, i)

/-- Records an event (R518, R519). -/
def Body.report (b : Body) (loc code : BitVec 16) (data : BitVec 128 := 0) : Body :=
  let h := halfOfLoc loc
  let ts := b.siltTargets h
  let top (a : HubId) : Nat :=
    if b.isSplit || !b.ctl.islandLink then (b.ctl.silt[a]).count
    else max (b.ctl.silt[(0 : HubId)]).count (b.ctl.silt[(1 : HubId)]).count
  let rec' (a : HubId) : SiltRec :=
    { tod := b.ctl.tod[h], loc := loc, code := code, seq := siltSeq a (top a + 1), data := data }
  let silt := ts.foldl (fun (v : Vector Silt 2) ia =>
    v.set ia.1 { (v[ia.1]).push (rec' ia.2) with count := top ia.2 + 1 }) b.ctl.silt
  { b with ctl := { b.ctl with silt := silt } }

/-- The steering island's location code, that of events of the module as a whole (R518). -/
def Body.moduleLoc (b : Body) : BitVec 16 := islandLoc b.ctl.steering

/-- Records SILT_FROZEN and, unless it is frozen already, freezes the logs and starts the writing of the
retained log (R522 to R524, R532). `hs` are the islands concerned. -/
def Body.freezeSilt (b : Body) (trigger : Byte) (hs : List HubId := [0, 1]) : Body :=
  let froze (b : Body) (h : HubId) : Body :=
    let g := b.ctl.silt[h]
    let tod := b.ctl.tod[h]
    let g := if g.frozen.isSome then g else
      { g with frozen := some (trigger, tod), writing := some (tod, trigger, g.ring) }
    { b with ctl := { b.ctl with silt := b.ctl.silt.set h g } }
  let fresh := hs.any fun h => (b.ctl.silt[h]).frozen.isNone
  let b := hs.foldl froze b
  let b := if fresh then
    { b with ctl := { b.ctl with savedTod := b.ctl.tod[b.ctl.steering], lastSave := b.ctl.tod[b.ctl.steering] } } else b
  let d := dataOf [(1, trigger.toNat)]
  if b.isSplit then hs.foldl (fun b h => b.report (islandLoc h) 0x0107 d) b
  else b.report b.moduleLoc 0x0107 d

/-! ## Tilth counters -/

/-- Key of a tilth record: its kind, and its location code or partition (R529). -/
def tilthKey (kind : Nat) (loc : Nat) : Nat := kind * 65536 + loc

/-- A 32-bit count that saturates at all ones (R531). -/
def sat32 (x : BitVec 32) (n : Nat := 1) : BitVec 32 := BitVec.ofNat 32 (min (x.toNat + n) 0xFFFFFFFF)

def Body.tilth (b : Body) (kind loc : Nat) : Tilth := (tGet b.ctl.tilth (tilthKey kind loc)).getD {}

/-- Changes the counters of one record (R529). -/
def Body.count (b : Body) (kind loc : Nat) (f : Tilth → Tilth) : Body :=
  { b with ctl := { b.ctl with tilth := tPut b.ctl.tilth (tilthKey kind loc) (f (b.tilth kind loc)) } }

def Tilth.event (r : Tilth) : Tilth := { r with events := sat32 r.events }

end Sys2Proof.Machine
end

