-- ==== Sys2Proof/Machine/Strands.lean ====
section
/-!
DEFINITION. A strand's registers and windows, and taking a trap and returning from one (chapter 2).
-/

namespace Sys2Proof.Machine

def vget {α : Type} {n : Nat} (v : Vector α n) (i : Nat) (d : α) : α := if h : i < n then v[i] else d
def vset {α : Type} {n : Nat} (v : Vector α n) (i : Nat) (x : α) : Vector α n := v.setIfInBounds i x

/-! ## CS.STATUS (R75) -/

def Strand.tl (s : Strand) : Nat := (s.status.extractLsb' 0 2).toNat
def Strand.prv (s : Strand) : BitVec 2 := s.status.extractLsb' 2 2
def Strand.ie (s : Strand) : Bool := s.status.getLsbD 4
def Strand.fie (s : Strand) : Bool := s.status.getLsbD 5
def Strand.dze (s : Strand) : Bool := s.status.getLsbD 7
def Strand.ioe (s : Strand) : Bool := s.status.getLsbD 8
def Strand.doe (s : Strand) : Bool := s.status.getLsbD 9
/-- CC as N, Z, V, C from bit 3 down. -/
def Strand.cc (s : Strand) : BitVec 4 := s.status.extractLsb' 12 4

/-- Replaces `w` bits of `x` from bit `lo` on. -/
def setField (x : W) (lo w : Nat) (v : Nat) : W :=
  let m : W := BitVec.ofNat 64 ((2 ^ w - 1) * 2 ^ lo)
  (x &&& ~~~m) ||| (BitVec.ofNat 64 (v % 2 ^ w * 2 ^ lo))

def Strand.setCC (s : Strand) (c : BitVec 4) : Strand := { s with status := setField s.status 12 4 c.toNat }

/-- Bits that CS.STATUS holds; the others read zero (R75). -/
def statusMask : W := 0xF3FF

/-! ## Registers (R48, R50, R58) -/

/-- Where a register number leads. -/
inductive RegPlace where
  | zero
  | g (i : Nat)
  | k (i : Nat)
  | q (i : Nat)
  | bank (i : Nat)
  deriving DecidableEq, Repr

/-- The place that a register number names at the strand's trap level (R48, R50, R58). -/
def Strand.place (s : Strand) (r : Reg) : RegPlace :=
  let n := r.toNat
  if s.tl = 0 then
    let w := s.wcur.toNat
    if n = 0 then .zero
    else if n < 8 then .g (n - 1)
    else if n < 16 then .q ((w + 15) % 16 * 8 + (n - 8))
    else if n < 24 then .k (w * 8 + (n - 16))
    else .q (w * 8 + (n - 24))
  else
    let base := (s.tl - 1) * 32
    if n < 8 then .bank (base + n)
    else if n < 24 then
      if s.tl = 1 ∧ s.winTrap then
        let w := s.spsel.toNat
        if n < 16 then .q ((w + 15) % 16 * 8 + (n - 8)) else .k (w * 8 + (n - 16))
      else .bank (base + 16 + (n - 8))
    else .bank (base + 8 + (n - 24))

def Strand.getPlace (s : Strand) : RegPlace → W
  | .zero => 0
  | .g i => vget s.g i 0
  | .k i => vget s.k i 0
  | .q i => vget s.q i 0
  | .bank i => vget s.bank i 0

def Strand.setPlace (s : Strand) (v : W) : RegPlace → Strand
  | .zero => s
  | .g i => { s with g := vset s.g i v }
  | .k i => { s with k := vset s.k i v }
  | .q i => { s with q := vset s.q i v }
  | .bank i => { s with bank := vset s.bank i v }

/-- A general register under its number (R48). -/
def Strand.reg (s : Strand) (r : Reg) : W := s.getPlace (s.place r)
def Strand.setReg (s : Strand) (r : Reg) (v : W) : Strand := s.setPlace v (s.place r)

def Strand.freg (s : Strand) (r : Reg) : BitVec 128 := vget s.f r.toNat 0
def Strand.setFreg (s : Strand) (r : Reg) (v : BitVec 128) : Strand := { s with f := vset s.f r.toNat v }

/-- Resident count (R51). -/
def Strand.resident (s : Strand) : Nat := (s.wcur - s.wbase).toNat

/-- Address of a push on, or pop from, the link stack is CS.LSP (R52, R53, R54). -/
def Strand.pend (s : Strand) : Bool := s.fpstat.getLsbD 24

/-! ## Copies of the trap registers (R73, R79) -/

inductive Copy where | k | s | l1 | l2
  deriving DecidableEq, Repr

def Strand.copy (s : Strand) : Copy → TrapCopy
  | .k => s.trapK
  | .s => s.trapS
  | .l1 => s.trap1
  | .l2 => s.trap2

def Strand.setCopy (s : Strand) (v : TrapCopy) : Copy → Strand
  | .k => { s with trapK := v }
  | .s => { s with trapS := v }
  | .l1 => { s with trap1 := v }
  | .l2 => { s with trap2 := v }

/-- The current copy (R73). -/
def Strand.curCopy (s : Strand) : Copy :=
  if s.tl = 1 then .l1 else if s.tl = 2 then .l2 else if s.prv = 2#2 then .s else .k

/-- BASE of CS.TVEC at a handler privilege, as an address (R61, R79). -/
def Strand.vectorBase (s : Strand) (prv : BitVec 2) : Nat :=
  (if prv = 2#2 then s.tvecS else s.tvecK).toNat * 65536

/-! ## Trap causes (R71) -/

def trapIllegal : TrapReq := { cause := 0x01, rule := .upK }
def trapPrivileged : TrapReq := { cause := 0x02, rule := .next }
def trapFetch (va reason : Nat) (kind : Nat := 5) : TrapReq :=
  { cause := 0x03, rule := .upK, info0 := BitVec.ofNat 64 va, info1 := BitVec.ofNat 64 (kind + reason * 256) }
def trapAlign (va : W) (size : Nat) : TrapReq :=
  { cause := 0x08, rule := .upK, info0 := va, info1 := BitVec.ofNat 64 size }
def trapDivide : TrapReq := { cause := 0x09, rule := .upK }
def trapOverflow : TrapReq := { cause := 0x0A, rule := .upK }
def trapDecData (va : W) (sign : Bool) (operand : Nat) : TrapReq :=
  { cause := 0x0B, rule := .upK, info0 := va, info1 := if sign then 1 else 0, info2 := BitVec.ofNat 64 operand }
def trapDecOverflow (va : W) : TrapReq := { cause := 0x0C, rule := .upK, info0 := va }
/-- `kind` is 0 for CALL or RET and 1 for trap entry or RTT. -/
def trapWinOver (spsel : BitVec 4) (kind : W) : TrapReq :=
  { cause := 0x0E, rule := .upK, info0 := spsel.setWidth 64, info1 := kind }
def trapWinUnder (spsel : BitVec 4) (kind : W) : TrapReq :=
  { cause := 0x0F, rule := .upK, info0 := spsel.setWidth 64, info1 := kind }
def trapOwner (bank : Nat) (slice : Nat) (addr : Nat) : TrapReq :=
  { cause := 0x10, rule := .upK, info0 := BitVec.ofNat 64 bank, info1 := BitVec.ofNat 64 slice, info2 := BitVec.ofNat 64 addr }
def trapWindowIo (bank : Nat) (slice : Nat) (addr : Nat) : TrapReq :=
  { trapOwner bank slice addr with cause := 0x14 }
def trapSvc (imm : BitVec 24) : TrapReq := { cause := 0x12, rule := .next, info0 := imm.setWidth 64 }
def trapBrk (imm : BitVec 24) : TrapReq := { cause := 0x13, rule := .upK, info0 := imm.setWidth 64 }
def trapMachine (loc : BitVec 16) (kind : Nat) (pa : Nat) : TrapReq :=
  { cause := 0x31, rule := .toS, info0 := loc.setWidth 64, info1 := BitVec.ofNat 64 kind, info2 := BitVec.ofNat 64 pa }

/-! ## Taking a trap (R57, R60 to R62, R64, R65, R554) -/

/-- Handler privilege (R60); `prv` is the privilege at which the trap arises. -/
def handlerPrv (r : HandlerRule) (prv : BitVec 2) : BitVec 2 :=
  match r with
  | .upK => if prv = 2#2 then 2#2 else 1#2
  | .next => if prv = 0#2 then 1#2 else 2#2
  | .toS => 2#2
  | .target p => p

/-- Vector of a handler (R61). -/
def Strand.vector (s : Strand) (prv : BitVec 2) (newTl : Nat) (cause : Byte) : BitVec 48 :=
  BitVec.ofNat 48 (s.vectorBase prv + newTl * 0x4000 + cause.toNat * 0x100)

/-- Ends the strand's reservation (R215). -/
def Strand.endResv (s : Strand) : Strand := { s with resv := none, hold := false }

/-- CS.STATUS on trap entry: TL and PRV as given; IE, FIE, CT, DZE, IOE and DOE cleared; CC unchanged (R62, steps 4 and 5). -/
def entryStatus (status : W) (prv : BitVec 2) (newTl : Nat) : W :=
  (status &&& 0xF000) ||| BitVec.ofNat 64 (prv.toNat * 4 + newTl)

/-- A customer routine in progress is abandoned: the strand is as at its last commit (R263), at the boundary of its instruction, where it
makes a pending slip switch (R119, R273). -/
def Strand.abandon (s : Strand) : Strand :=
  match s.micro with
  | none => s
  | some m => { s with
      g := m.snap.g
      k := m.snap.k
      q := m.snap.q
      f := m.snap.f
      bank := m.snap.bank
      status := m.snap.status
      fpstat := m.snap.fpstat
      micro := none
      oldSlip := false }

/-- A sealed span is never abandoned (R264). -/
def Strand.inSpan (s : Strand) : Bool := match s.micro with | some m => m.inSpan | none => false

/-- Steps 2 to 7 of R62 at a level that the caller has chosen. A pending slip switch is made at the boundary (R273). -/
def Strand.enter (s0 : Strand) (r : TrapReq) (tpc : BitVec 48) (newTl : Nat) (prv : BitVec 2) : Strand :=
  let s := s0.abandon
  let saved : TrapCopy :=
    { cause := r.cause, pc := tpc, info0 := r.info0, info1 := r.info1, info2 := r.info2, info3 := s.status }
  let tgt : Copy := if newTl = 1 then .l1 else if newTl = 2 then .l2 else if prv = 2#2 then .s else .k
  let win := r.cause = 0x0E ∨ r.cause = 0x0F
  let s := s.setCopy saved tgt
  let s := { s with status := entryStatus s.status prv newTl, pc := s.vector prv newTl r.cause, act := .ready, oldSlip := false }
  let s := if newTl = 0 then { s with wcur := s.wcur + 1 } else s
  let s := if newTl = 1 then { s with winTrap := decide win } else s
  let s := if r.cause = 0x0E then { s with spsel := s.wbase }
    else if r.cause = 0x0F then { s with spsel := s.wcur - 1 } else s
  s.endResv

/-- Does step 1 of R62 replace an event at TL 0 by WINDOW_OVERFLOW? -/
def Strand.replaces (s : Strand) (r : TrapReq) : Bool :=
  s.tl = 0 && s.resident = 14 && !(r.cause = 0x0E || r.cause = 0x0F || r.cause = 0x20)

/-- Raises the strand-check source of `t` on the strand that its CS.CHKTGT names (R65). -/
def Body.raiseCheck (b : Body) (t : StrandId) : Body :=
  let tgt := (b.strand t).chktgt.toNat
  if h : tgt < 576 then
    if tgt = t.val then b
    else b.modStrand ⟨tgt, h⟩ fun u => { u with checkSrc := if u.checkSrc.contains t.val then u.checkSrc else u.checkSrc ++ [t.val] }
  else b

/-- The strand stops with a strand-check record (R64, R65, R438). -/
def Body.stopStrand (b : Body) (t : StrandId) (c : StrandCheck) : Body :=
  (b.modStrand t fun s => { s.abandon with run := .stopped, check := some c }).raiseCheck t

/-- BANK_NESTING (R64, R65). -/
def Body.bankNesting (b : Body) (t : StrandId) (r : TrapReq) (tpc : BitVec 48) : Body :=
  let b := b.report (strandLoc t) 0x0201 (dataOf [(1, r.cause.toNat), (1, 0), (6, tpc.toNat), (8, r.info0.toNat)])
  b.stopStrand t { cause := r.cause, pc := tpc, info0 := r.info0, info1 := r.info1, info2 := r.info2 }

/-- Takes a trap (R57, R62). `completed` says that its instruction has completed, so that a replaced
event is held (R554). -/
def Body.takeTrap (b : Body) (t : StrandId) (r : TrapReq) (tpc : BitVec 48) (completed : Bool := false) : Body :=
  let s := b.strand t
  let hp := handlerPrv r.rule s.prv
  let win := r.cause = 0x0E ∨ r.cause = 0x0F ∨ r.cause = 0x20
  if s.tl = 0 then
    if s.replaces r then
      let w := trapWinOver s.wbase 1
      b.setStrand t
        ({ s with held := if completed then some r else s.held }.enter w tpc 1 (handlerPrv .upK s.prv))
    else if win then b.setStrand t (s.enter r tpc 1 hp)
    else b.setStrand t (s.enter r tpc 0 hp)
  else if s.tl = 1 then b.setStrand t (s.enter r tpc 2 hp)
  else b.bankNesting t r tpc

/-- Delivers FP_DEFERRED for the pending exception at the strand's boundary (R69, R163). PEND is cleared only when
the delivery is not replaced by WINDOW_OVERFLOW (R554). -/
def Body.deliverFp (b : Body) (t : StrandId) : Body :=
  let s := (b.strand t).abandon
  let r : TrapReq :=
    { cause := 0x0D, rule := .target (handlerPrv .upK s.fpPrv), info0 := s.fpAddr.setWidth 64, info1 := s.fpKind }
  let s' := if s.replaces r then s else { s with fpstat := s.fpstat &&& ~~~0x1000000#64 }
  (b.setStrand t s').takeTrap t r s.pc

/-- A trap that is due, with R69 applied: at TL 0 a pending floating exception is delivered first, at the
boundary of the instruction, on the state `b0` before it. -/
def Body.trapOrFp (b0 b : Body) (t : StrandId) (r : TrapReq) (tpc : BitVec 48) (completed : Bool) : Body :=
  let s := b0.strand t
  if s.tl = 0 ∧ s.pend ∧ r.cause ≠ 0x0E ∧ r.cause ≠ 0x0F ∧ r.cause ≠ 0x20 then b0.deliverFp t
  else b.takeTrap t r tpc completed

/-- The event, other than an interrupt, that is due at the strand's instruction boundary before its
instruction executes (R68, items 1 to 3). `forced` says that a pending floating exception may not wait longer (R163). -/
def Body.boundary (b : Body) (t : StrandId) (forced : Bool) : Option Body :=
  let s := b.strand t
  if s.tl = 0 ∧ s.pend ∧ (forced ∨ 24 ≤ s.fpCount ∨ s.mcheck.isSome ∨ s.held.isSome) then some (b.deliverFp t)
  else match s.mcheck with
  | some (loc, kind, pa) =>
    let r := trapMachine (loc.setWidth 16) kind pa.toNat
    let s' := if s.replaces r then s else { s with mcheck := none }
    some ((b.setStrand t s').takeTrap t r s.pc)
  | none =>
    match s.held with
    | some r => if s.tl = 0 then some ((b.setStrand t { s with held := none }).takeTrap t r s.pc true) else none
    | none => none

end Sys2Proof.Machine
end

