-- ==== Sys2Proof/Machine/Due.lean ====
section
/-!
DEFINITION. Time, the completion events of slices, and the interrupts that are due at a strand's boundary (R65 to R69, R357 to R359).
-/

namespace Sys2Proof.Machine

/-! ## Time -/

/-- Time passes until the timebase of half `h` stands at `when` or later; both halves count alike (log entry 5). -/
def Body.reach (b : Body) (h : HubId) (at' : Nat) : Body :=
  let d := BitVec.ofNat 64 (at' - b.tod h)
  b.modCtl fun c => { c with tod := #v[c.tod[(0 : HubId)] + d, c.tod[(1 : HubId)] + d] }

/-! ## Slices: numbers and events -/

/-- The hub that serves a slice by its number (R343). -/
def numberHub (s : SliceId) : HubId := if s.val < 4096 then 0 else 1

/-- The hub that serves a slice now: the other one when its own is lost (R447), or, in SPLIT, the hub of the half in which a
homed or leading partition continues, from when that half has its half-state (R453, R459). -/
def Body.servingHub (b : Body) (s : SliceId) (part : Byte) : HubId :=
  let h := numberHub s
  if b.ctl.lostHubs.contains h then otherHub h
  else if b.isSplit && part != 0 then
    match (b.part part).place.toNat with
    | 1 => if (b.ctl.halves[(0 : HubId)]).half = .none then h else 0
    | 2 => if (b.ctl.halves[(1 : HubId)]).half = .none then h else 1
    | 3 => if (b.ctl.halves[(0 : HubId)]).half = .lead then 0 else if (b.ctl.halves[(1 : HubId)]).half = .lead then 1 else h
    | _ => h
  else h

/-- A placement that spans both halves; one that is still being copied counts as SPANNED (R450). -/
def Body.spans (b : Body) (p : Byte) : Bool := p != 0 && ((b.part p).place = 0 || (b.part p).place = 3)

/-- The engine work of a spanning partition's slice stops at its next job boundary when SPLIT is entered, until the half that serves the
slice has its half-state (R453). -/
def Body.workHeld (b : Body) (s : SliceId) (part : Byte) : Bool :=
  b.isSplit && b.spans part && (b.ctl.halves[b.servingHub s part]).half = .none

def Body.slice (b : Body) (s : SliceId) : Slice := (tGet b.io.slices s.val).getD {}
def Body.setSlice (b : Body) (s : SliceId) (x : Slice) : Body := b.modIo fun i => { i with slices := tPut i.slices s.val x }
def Body.modSlice (b : Body) (s : SliceId) (f : Slice → Slice) : Body := b.setSlice s (f (b.slice s))

/-- When the DELAY of the oldest unconsumed completion entry ends (R357). -/
def Slice.delayEnd (x : Slice) : Option Nat :=
  (x.stamps.find? fun e => e.1 = x.cq.head).map fun e => e.2 + x.delay.toNat * 1000

/-- Is the slice's completion event asserted (R357)? A THRESH of 0 acts as 1 (R351). -/
def Slice.eventAt (x : Slice) (now : Nat) : Bool :=
  (x.arm && max x.thresh.toNat 1 ≤ (x.cq.tail - x.cq.head).toNat) ||
  (x.arm && x.cq.tail != x.cq.head && (match x.delayEnd with | some e => e ≤ now | none => false)) ||
  x.sq.fault || x.cq.fault

def Body.sliceEvent (b : Body) (s : SliceId) : Bool :=
  let x := b.slice s
  x.st != .free && x.eventAt (b.tod (b.servingHub s x.part))

/-! ## Pending sources (R66, R358, R359) -/

inductive IntrKind where | fast | ext | sup
  deriving DecidableEq, Repr

/-- Identifiers of the asserted sources of a kind routed to a strand (R358, R359). -/
def Body.sources (b : Body) (t : StrandId) (k : IntrKind) : List Nat :=
  let s := b.strand t
  let fromSlices (rk : Nat) (same : Bool) : List Nat :=
    b.io.slices.filterMap fun e =>
      if h : e.1 < 8192 then
        if e.2.rkind.toNat = rk ∧ e.2.target = t.val ∧ (!same ∨ s.part = e.2.part) ∧ b.sliceEvent ⟨e.1, h⟩ then
          some (0x01 + e.1 * 65536)
        else none
      else none
  match k with
  | .fast => fromSlices 1 true
  | .ext => fromSlices 2 true
  | .sup =>
    fromSlices 3 false ++ s.checkSrc.map (fun n => 0x30 + n * 65536) ++
    b.io.parts.filterMap fun e =>
      if e.2.wakeTarget = some t.val ∧ !e.2.wakeMask ∧ (b.io.slices.any fun z =>
          if h : z.1 < 8192 then
            z.2.part.toNat = e.1 && (z.2.rkind = 1 || z.2.rkind = 2) && b.sliceEvent ⟨z.1, h⟩ &&
              (if g : z.2.target < 576 then (b.strand ⟨z.2.target, g⟩).part != z.2.part else false)
          else false) then
        some (0x02 + e.1 * 65536)
      else none

def minOf : List Nat → Option Nat
  | [] => none
  | x :: r => match minOf r with | some y => some (min x y) | none => some x

def Body.timerOn (b : Body) (t : StrandId) (tgt : TimerTarget) : Bool :=
  let s := b.strand t
  (match tgt with | .k => s.tcmpK.toNat | .s => s.tcmpS.toNat) ≤ b.tod (halfOfStrand t)

/-- CS.IPEND, whatever the privilege: ES, EK, FK, TS, TK from bit 4 down (R66, R83). -/
def Body.ipend (b : Body) (t : StrandId) : W :=
  let bit (c : Bool) (n : Nat) : Nat := if c then 2 ^ n else 0
  BitVec.ofNat 64 (bit (!(b.sources t .sup).isEmpty) 4 + bit (!(b.sources t .ext).isEmpty) 3 +
    bit (!(b.sources t .fast).isEmpty) 2 + bit (b.timerOn t .s) 1 + bit (b.timerOn t .k) 0)

/-- Is an interrupt of a target taken at this moment (R66)? -/
def Strand.takes (s : Strand) (sup fast : Bool) : Bool :=
  s.tl = 0 &&
  (if sup then s.ie || s.prv != 2#2
   else s.prv != 2#2 && (if fast then s.fie else s.ie))

/-- The interrupt that is taken first at TL 0, of those asserted and enabled (R68, items 4 to 7). -/
def Body.dueInterrupt (b : Body) (t : StrandId) : Option TrapReq :=
  let s := b.strand t
  let mk (cause : Byte) (prv : BitVec 2) (info : Nat) : TrapReq :=
    { cause := cause, rule := .target prv, info0 := BitVec.ofNat 64 info }
  let first (k : IntrKind) (cause : Byte) (prv : BitVec 2) : Option TrapReq :=
    (minOf (b.sources t k)).map (mk cause prv)
  if s.takes true false && b.timerOn t .s then some (mk 0x22 2 s.tcmpS.toNat)
  else match (if s.takes true false then first .sup 0x21 2 else none) with
  | some r => some r
  | none =>
    match (if s.takes false true then first .fast 0x20 1 else none) with
    | some r => some r
    | none =>
      if s.takes false false && b.timerOn t .k then some (mk 0x22 1 s.tcmpK.toNat)
      else if s.takes false false then first .ext 0x21 1
      else none

/-- Is the strand at an instruction boundary at which an interrupt may be taken? A strand that waits in an
instruction that can be abandoned is at that instruction (R203, R264); one parked on a miss is not (R70). -/
def Strand.interruptible (s : Strand) : Bool :=
  s.run = .running && !s.inSpan &&
  match s.act with
  | .parked _ _ _ _ | .waiting => false
  | _ => true

/-- Is a trap at TL 0 due: an interrupt other than FAST_INTERRUPT, which enters TL 1 (R69)? -/
def Body.dueAtTl0 (b : Body) (t : StrandId) : Bool :=
  let s := b.strand t
  (s.takes true false && (b.timerOn t .s || !(b.sources t .sup).isEmpty)) ||
    (s.takes false false && (b.timerOn t .k || !(b.sources t .ext).isEmpty))

/-- Takes the first interrupt that is due at the boundary, or FP_DEFERRED before a trap at TL 0 (R68, R69). -/
def Body.takeInterrupt (b : Body) (t : StrandId) : Option Body :=
  (b.dueInterrupt t).map fun r => if (b.strand t).pend && b.dueAtTl0 t then b.deliverFp t else b.takeTrap t r (b.strand t).pc

end Sys2Proof.Machine
end

