-- ==== Sys2Proof/Machine/Cipher.lean ====
section
/-!
DEFINITION. The ciphers, authenticators and hashes of the standards that the spec names: AES and its modes (R251, R390, R395),
ChaCha20-Poly1305, SHA-2, SHA-3 and HMAC (R390, R507). What a standard itself computes is taken from it (PRESUMED, log entry 32).
-/

namespace Sys2Proof.Machine

def xorBytes (a b : List Byte) : List Byte := List.zipWith (· ^^^ ·) a b

/-- Big-endian value of bytes, and the low `n` bytes of a value, big-endian. -/
def beNat (bs : List Byte) : Nat := leNat bs.reverse
def beBytes (n v : Nat) : List Byte := (leBytes n v).reverse

/-- Bytes in blocks of `n`, the last one maybe short; `fuel` bounds their number. -/
def blocksOf (n : Nat) : Nat → List Byte → List (List Byte)
  | 0, _ => []
  | fuel + 1, bs => if bs.isEmpty then [] else bs.take n :: blocksOf n fuel (bs.drop n)

def chunks (n : Nat) (bs : List Byte) : List (List Byte) := blocksOf n (bs.length / n + 1) bs

/-- `bs` filled with zeros to a multiple of 16 bytes. -/
def pad16 (bs : List Byte) : List Byte := padTo ((bs.length + 15) / 16 * 16) bs

/-! ## AES (FIPS 197) -/

/-- Doubling in the field of AES, whose polynomial is 0x11B. -/
def gfDouble (x : Byte) : Byte := (x <<< 1) ^^^ (if x.msb then 0x1B else 0)

def gfMul (a b : Byte) : Byte :=
  ((List.range 8).foldl (fun p i => (if b.getLsbD i then p.1 ^^^ p.2 else p.1, gfDouble p.2)) ((0 : Byte), a)).1

/-- The inverse, as the power 254; 0 for 0. -/
def gfInv (x : Byte) : Byte :=
  ((List.range 7).foldl (fun p _ => let q := gfMul p.2 p.2; (gfMul p.1 q, q)) ((1 : Byte), x)).1

def sBox (x : Byte) : Byte :=
  let i := gfInv x
  i ^^^ i.rotateLeft 1 ^^^ i.rotateLeft 2 ^^^ i.rotateLeft 3 ^^^ i.rotateLeft 4 ^^^ 0x63

def invSBox (x : Byte) : Byte := gfInv (x.rotateLeft 1 ^^^ x.rotateLeft 3 ^^^ x.rotateLeft 6 ^^^ 0x05)

/-- The words of the key schedule: 44 for a key of 16 bytes, 60 for one of 32. -/
def aesWords (key : List Byte) : Array (List Byte) :=
  let nk := key.length / 4
  (List.range (3 * nk + 28)).foldl (fun ws j =>
    let i := j + nk
    let t := ws.getD (i - 1) []
    let t :=
      if i % nk = 0 then xorBytes ((t.drop 1 ++ t.take 1).map sBox) [(List.range (i / nk - 1)).foldl (fun r _ => gfDouble r) 1, 0, 0, 0]
      else if 6 < nk ∧ i % nk = 4 then t.map sBox
      else t
    ws.push (xorBytes (ws.getD (i - nk) []) t)) (chunks 4 key).toArray

def roundKey (ws : Array (List Byte)) (n : Nat) : List Byte := (List.range 4).flatMap fun i => ws.getD (4 * n + i) []

/-- Row `i % 4` of the state moves by `i % 4` columns; `by'` is 4 to encrypt and 12 to decrypt. -/
def shiftRows (by' : Nat) (s : List Byte) : List Byte := (List.range 16).map fun i => s.getD ((i + by' * (i % 4)) % 16) 0

def mixColumns (co s : List Byte) : List Byte :=
  (List.range 16).map fun i => (List.range 4).foldl (fun a j => a ^^^ gfMul (co.getD j 0) (s.getD (i / 4 * 4 + (i + j) % 4) 0)) 0

def aesEnc (key blk : List Byte) : List Byte :=
  let ws := aesWords key
  let nr := key.length / 4 + 6
  let s := (List.range (nr - 1)).foldl
    (fun s n => xorBytes (mixColumns [2, 3, 1, 1] (shiftRows 4 (s.map sBox))) (roundKey ws (n + 1))) (xorBytes blk (roundKey ws 0))
  xorBytes (shiftRows 4 (s.map sBox)) (roundKey ws nr)

def aesDec (key blk : List Byte) : List Byte :=
  let ws := aesWords key
  let nr := key.length / 4 + 6
  let s := (List.range (nr - 1)).foldl
    (fun s n => mixColumns [14, 11, 13, 9] (xorBytes ((shiftRows 12 s).map invSBox) (roundKey ws (nr - 1 - n)))) (xorBytes blk (roundKey ws nr))
  xorBytes ((shiftRows 12 s).map invSBox) (roundKey ws 0)

/-! ## Modes -/

/-- The next tweak of XTS: doubled, its bytes little-endian. -/
def xtsNext (t : List Byte) : List Byte :=
  let v := leNat t * 2
  leBytes 16 (if v < 2 ^ 128 then v else (v - 2 ^ 128) ^^^ 0x87)

/-- The blocks of an XTS data unit, ciphertext stealing at its end; `dec` takes the last two tweaks in the other order. -/
def xtsBlocks (f : List Byte → List Byte) (dec : Bool) : Nat → List Byte → List Byte → List Byte
  | 0, _, _ => []
  | fuel + 1, t, d =>
    let one (t x : List Byte) : List Byte := xorBytes (f (xorBytes x t)) t
    if d.length ≤ 16 then one t d
    else if d.length < 32 then
      let u := xtsNext t
      let x := one (if dec then u else t) (d.take 16)
      let r := d.drop 16
      one (if dec then t else u) (r ++ x.drop r.length) ++ x.take r.length
    else one t (d.take 16) ++ xtsBlocks f dec fuel (xtsNext t) (d.drop 16)

/-- AES-256-XTS under a key of 64 bytes (IEEE 1619). -/
def xts (dec : Bool) (key tweak d : List Byte) : List Byte :=
  let k := key.take 32
  xtsBlocks (if dec then aesDec k else aesEnc k) dec (d.length / 16 + 1) (aesEnc (key.drop 32) tweak) d

def cbcEnc (key iv d : List Byte) : List Byte :=
  ((chunks 16 d).foldl (fun p x => let c := aesEnc key (xorBytes x p.1); (c, p.2 ++ c)) (iv, ([] : List Byte))).2

def cbcDec (key iv d : List Byte) : List Byte :=
  ((chunks 16 d).foldl (fun p x => (x, p.2 ++ xorBytes (aesDec key x) p.1)) (iv, ([] : List Byte))).2

/-- A stream of blocks laid over data. -/
def streamXor (block : Nat → List Byte) (n : Nat) (d : List Byte) : List Byte :=
  ((chunks n d).zipIdx.map fun x => xorBytes x.1 (block x.2)).flatten

/-- Multiplication in the field of GCM, bit 0 first (SP 800-38D). -/
def ghashMul (x y : BitVec 128) : BitVec 128 :=
  ((List.range 128).foldl (fun p i =>
    (if x.getLsbD (127 - i) then p.1 ^^^ p.2 else p.1,
     if p.2.getLsbD 0 then (p.2 >>> 1) ^^^ (0xE1#128 <<< 120) else p.2 >>> 1)) (0#128, y)).1

def ghash (h : BitVec 128) (d : List Byte) : BitVec 128 :=
  (chunks 16 d).foldl (fun a x => ghashMul (a ^^^ BitVec.ofNat 128 (beNat x)) h) 0

/-- Counter part and tag of AES-GCM with an IV of 12 bytes. -/
def gcmStream (key iv d : List Byte) : List Byte := streamXor (fun i => aesEnc key (iv ++ beBytes 4 (i + 2))) 16 d

def gcmTag (key iv aad ct : List Byte) : List Byte :=
  let h := BitVec.ofNat 128 (beNat (aesEnc key (List.replicate 16 0)))
  let s := ghash h (pad16 aad ++ pad16 ct ++ beBytes 8 (aad.length * 8) ++ beBytes 8 (ct.length * 8))
  xorBytes (beBytes 16 s.toNat) (aesEnc key (iv ++ beBytes 4 1))

/-- Ciphertext and tag of `tl` bytes. -/
def gcmEnc (key iv aad : List Byte) (tl : Nat) (d : List Byte) : List Byte :=
  let c := gcmStream key iv d
  c ++ (gcmTag key iv aad c).take tl

/-- Plaintext, when the tag of `tl` bytes at the end matches. -/
def gcmDec (key iv aad : List Byte) (tl : Nat) (d : List Byte) : Option (List Byte) :=
  let c := d.take (d.length - tl)
  if d.drop (d.length - tl) = (gcmTag key iv aad c).take tl then some (gcmStream key iv c) else none

/-! ## ChaCha20-Poly1305 (RFC 8439) -/

def quarter (a b c d : Nat) (s : Array (BitVec 32)) : Array (BitVec 32) :=
  let step (s : Array (BitVec 32)) (x y z n : Nat) : Array (BitVec 32) :=
    let s := s.setIfInBounds x (s.getD x 0 + s.getD y 0)
    s.setIfInBounds z ((s.getD z 0 ^^^ s.getD x 0).rotateLeft n)
  step (step (step (step s a b d 16) c d b 12) a b d 8) c d b 7

def chachaBlock (key nonce : List Byte) (ctr : Nat) : List Byte :=
  let words (bs : List Byte) : List (BitVec 32) := (chunks 4 bs).map fun x => BitVec.ofNat 32 (leNat x)
  let s0 := ([0x61707865#32, 0x3320646E#32, 0x79622D32#32, 0x6B206574#32] ++ words key ++ [BitVec.ofNat 32 ctr] ++ words nonce).toArray
  let s := (List.range 10).foldl (fun s _ =>
    let s := (List.range 4).foldl (fun s i => quarter i (4 + i) (8 + i) (12 + i) s) s
    (List.range 4).foldl (fun s i => quarter i (4 + (i + 1) % 4) (8 + (i + 2) % 4) (12 + (i + 3) % 4) s) s) s0
  (List.range 16).flatMap fun i => leBytes 4 (s.getD i 0 + s0.getD i 0).toNat

def poly1305 (key d : List Byte) : List Byte :=
  let r := leNat (key.take 16) &&& 0x0FFFFFFC0FFFFFFC0FFFFFFC0FFFFFFF
  let a := (chunks 16 d).foldl (fun a x => (a + leNat (x ++ [1])) * r % (2 ^ 130 - 5)) 0
  leBytes 16 (a + leNat (key.drop 16))

def chachaStream (key nonce d : List Byte) : List Byte := streamXor (fun i => chachaBlock key nonce (i + 1)) 64 d

def chachaTag (key nonce aad ct : List Byte) : List Byte :=
  poly1305 ((chachaBlock key nonce 0).take 32) (pad16 aad ++ pad16 ct ++ leBytes 8 aad.length ++ leBytes 8 ct.length)

def chachaEnc (key nonce aad d : List Byte) : List Byte :=
  let c := chachaStream key nonce d
  c ++ chachaTag key nonce aad c

def chachaDec (key nonce aad d : List Byte) : Option (List Byte) :=
  let c := d.take (d.length - 16)
  if d.drop (d.length - 16) = chachaTag key nonce aad c then some (chachaStream key nonce c) else none

/-! ## SHA-2 (FIPS 180-4) -/

/-- The greatest number whose `k`-th power is at most `n`. -/
def rootOf (k n : Nat) : Nat := (List.range 80).reverse.foldl (fun r i => if (r + 2 ^ i) ^ k ≤ n then r + 2 ^ i else r) 0

/-- The primes below 410, of which there are 80. -/
def smallPrimes : List Nat := (List.range 410).filter fun n => 2 ≤ n && (List.range n).all fun d => d < 2 || n % d != 0

/-- The first `w` fraction bits of the `k`-th roots of primes. -/
def rootWords (w k : Nat) (ps : List Nat) : List (BitVec w) := ps.map fun p => BitVec.ofNat w (rootOf k (p * 2 ^ (k * w)))

/-- Amounts of the functions of a word size: both sums, then both schedule functions, whose last is a shift. -/
def sha2Rot (w : Nat) : List (Nat × Nat × Nat) :=
  if w = 32 then [(2, 13, 22), (6, 11, 25), (7, 18, 3), (17, 19, 10)] else [(28, 34, 39), (14, 18, 41), (1, 8, 7), (19, 61, 6)]

/-- One block into the eight words of the chain. -/
def sha2Block (w : Nat) (k : List (BitVec w)) (h : List (BitVec w)) (blk : List Byte) : List (BitVec w) :=
  let rot (n : Nat) : Nat × Nat × Nat := (sha2Rot w).getD n (0, 0, 0)
  let big (n : Nat) (x : BitVec w) : BitVec w := x.rotateRight (rot n).1 ^^^ x.rotateRight (rot n).2.1 ^^^ x.rotateRight (rot n).2.2
  let small (n : Nat) (x : BitVec w) : BitVec w := x.rotateRight (rot n).1 ^^^ x.rotateRight (rot n).2.1 ^^^ x >>> (rot n).2.2
  let m := ((chunks (w / 8) blk).map fun x => BitVec.ofNat w (beNat x)).toArray
  let ws := (List.range (k.length - 16)).foldl (fun (a : Array (BitVec w)) i =>
    a.push (small 3 (a.getD (i + 14) 0) + a.getD (i + 9) 0 + small 2 (a.getD (i + 1) 0) + a.getD i 0)) m
  let out := (k.zip ws.toList).foldl (fun (s : List (BitVec w)) x =>
    match s with
    | [a, b, c, d, e, f, g, h] =>
      let t := h + big 1 e + ((e &&& f) ^^^ (~~~e &&& g)) + x.1 + x.2
      [t + big 0 a + ((a &&& b) ^^^ (a &&& c) ^^^ (b &&& c)), a, b, c, d + t, e, f, g]
    | s => s) h
  List.zipWith (· + ·) h out

def sha2 (w : Nat) (init : List (BitVec w)) (bs : List Byte) : List Byte :=
  let n := 2 * w
  let len := w / 4
  let zeros := (n - (bs.length + 1 + len) % n) % n
  let k := rootWords w 3 (smallPrimes.take (if w = 32 then 64 else 80))
  ((chunks n (bs ++ [0x80] ++ List.replicate zeros 0 ++ beBytes len (bs.length * 8))).foldl (sha2Block w k) init).flatMap fun x =>
    beBytes (w / 8) x.toNat

def sha256 (bs : List Byte) : List Byte := sha2 32 (rootWords 32 2 (smallPrimes.take 8)) bs
def sha512Init : List (BitVec 64) := rootWords 64 2 (smallPrimes.take 8)
def sha512 (bs : List Byte) : List Byte := sha2 64 sha512Init bs
def sha384 (bs : List Byte) : List Byte := (sha2 64 (rootWords 64 2 ((smallPrimes.drop 8).take 8)) bs).take 48

/-- SHA-512/256: its initial words are a SHA-512 of its name from changed initial words. -/
def sha512t256 (bs : List Byte) : List Byte :=
  let name := "SHA-512/256".toUTF8.toList.map fun c => BitVec.ofNat 8 c.toNat
  let iv := sha2 64 (sha512Init.map (· ^^^ 0xA5A5A5A5A5A5A5A5#64)) name
  (sha2 64 ((chunks 8 iv).map fun x => BitVec.ofNat 64 (beNat x)) bs).take 32

/-! ## SHA-3 (FIPS 202) -/

/-- Amounts by which the lanes turn, with their places: (x, y) in the order of the walk. -/
def rhoWalk : List ((Nat × Nat) × Nat) :=
  ((List.range 24).foldl (fun p t => ((p.1.2, (2 * p.1.1 + 3 * p.1.2) % 5), p.2 ++ [(p.1, (t + 1) * (t + 2) / 2 % 64)]))
    (((1, 0) : Nat × Nat), ([] : List ((Nat × Nat) × Nat)))).2

/-- Bits of the round constants' register, from step `t`. -/
def rcBit (t : Nat) : Bool :=
  ((List.range t).foldl (fun (r : BitVec 8) _ => if r.msb then (r <<< 1) ^^^ 0x71 else r <<< 1) 1).getLsbD 0

def roundConst (n : Nat) : BitVec 64 :=
  (List.range 7).foldl (fun c j => if rcBit (7 * n + j) then c ^^^ (1#64 <<< (2 ^ j - 1)) else c) 0

def keccakRound (a : Array (BitVec 64)) (n : Nat) : Array (BitVec 64) :=
  let at' (a : Array (BitVec 64)) (x y : Nat) : BitVec 64 := a.getD (x % 5 + 5 * (y % 5)) 0
  let col (x : Nat) : BitVec 64 := (List.range 5).foldl (fun s y => s ^^^ at' a x y) 0
  let a := ((List.range 25).map fun i => a.getD i 0 ^^^ col (i + 4) ^^^ (col (i + 1)).rotateLeft 1).toArray
  let b := rhoWalk.foldl (fun b e => b.setIfInBounds (e.1.2 + 5 * ((2 * e.1.1 + 3 * e.1.2) % 5)) ((at' a e.1.1 e.1.2).rotateLeft e.2)) a
  let c := ((List.range 25).map fun i => at' b i (i / 5) ^^^ (~~~(at' b (i + 1) (i / 5)) &&& at' b (i + 2) (i / 5))).toArray
  c.setIfInBounds 0 (c.getD 0 0 ^^^ roundConst n)

/-- SHA3 with a digest of `n` bytes. -/
def sha3 (n : Nat) (bs : List Byte) : List Byte :=
  let rate := 200 - 2 * n
  let z := rate - bs.length % rate
  let padded := bs ++ (if z = 1 then [0x86] else [0x06] ++ List.replicate (z - 2) 0 ++ [0x80])
  let s := (chunks rate padded).foldl (fun (a : Array (BitVec 64)) blk =>
    let lanes := ((chunks 8 blk).map fun x => BitVec.ofNat 64 (leNat x)).toArray
    (List.range 24).foldl keccakRound (((List.range 25).map fun i => a.getD i 0 ^^^ lanes.getD i 0).toArray)) (List.replicate 25 0).toArray
  ((List.range 25).flatMap fun i => leBytes 8 (s.getD i 0).toNat).take n

/-! ## The hashes by their codes, and HMAC (R390) -/

def hashOf (alg : Nat) (bs : List Byte) : List Byte :=
  match alg with
  | 1 => sha256 bs
  | 2 => sha384 bs
  | 3 => sha512 bs
  | 4 => sha512t256 bs
  | 8 => sha3 32 bs
  | 9 => sha3 48 bs
  | _ => sha3 64 bs

/-- Input block of a hash in bytes. -/
def hashBlock (alg : Nat) : Nat := match alg with | 1 => 64 | 2 | 3 | 4 => 128 | 8 => 136 | 9 => 104 | _ => 72

/-- HMAC (FIPS 198-1). -/
def hmac (alg : Nat) (key bs : List Byte) : List Byte :=
  let n := hashBlock alg
  let k := padTo n (if n < key.length then hashOf alg key else key)
  hashOf alg (k.map (· ^^^ 0x5C) ++ hashOf alg (k.map (· ^^^ 0x36) ++ bs))

end Sys2Proof.Machine
end

