-- ==== Sys2Proof/Machine/Caches.lean ====
section
/-!
DEFINITION. The physical attribute map, homes and memory keys, and the coherent caches: what a line
holds where, fills, evictions, invalidations and write-backs (chapters 6 and 8, R431 to R438, R450).
-/

namespace Sys2Proof.Machine

/-! ## Physical attribute map (R246, R247, R450) -/

inductive PClass where | memory | far | scratchpad | device | absent
  deriving DecidableEq, Repr

def eastBase : Nat := 0x2400000000
def memoryEnd : Nat := 0x4800000000
def spadBase : Nat := 0x010000000000
def farBase : Nat := 0x100000000000
def gib : Nat := 0x40000000

/-- A formed FAR range holds the address (R250). -/
def FarRange.holds (r : FarRange) (pa : Nat) : Bool :=
  farBase + r.base * gib ≤ pa && pa < farBase + (r.base + r.size) * gib

def Body.farRange (b : Body) (pa : Nat) : Option FarRange := b.mem.ranges.find? (·.holds pa)

/-- The mirrored partition whose primary range holds the address (R450). A range that is still copied is SPANNED. -/
def Body.mirrored (b : Body) (pa : Nat) : Option Partition :=
  (b.io.parts.find? fun e =>
    e.2.place = 3 && e.2.mbase.toNat * gib ≤ pa && pa < (e.2.mbase.toNat + e.2.msize.toNat) * gib).map (·.2)

/-- Class of a physical address. A twin range is ABSENT (R450). -/
def Body.classOf (b : Body) (pa : Nat) : PClass :=
  if pa < memoryEnd then
    if eastBase ≤ pa ∧ (b.mirrored (pa - eastBase)).isSome then .absent else .memory
  else if spadBase ≤ pa ∧ pa < spadBase + 0x400000 then .scratchpad
  else if farBase ≤ pa ∧ (b.farRange pa).isSome then .far
  else if 0x000F000000000000 ≤ pa ∧ pa < 0x0010000000000000 then .device
  else .absent

def lineAddr (l : Line) : Nat := l.toNat * 128
def lineNo (pa : Nat) : Line := BitVec.ofNat 45 (pa / 128)
/-- The 256-byte granule of an address (R213). -/
def granuleOf (pa : Nat) : Nat := pa / 256

/-- Stack that holds a MEMORY line, and the stack of its group's parity (R248). -/
def homeStacks (pa : Nat) : StackId × StackId :=
  let h := if pa < eastBase then 0 else 1
  let a := pa - h * eastBase
  let l := a / 128
  let g := l / 3
  let j := l % 3
  let p := g % 4
  let s := if j < p then j else j + 1
  (⟨(4 * h + s) % 8, by omega⟩, ⟨(4 * h + p) % 8, by omega⟩)

/-- Row of the line's group in each stack (R248). -/
def homeRow (pa : Nat) : Nat := (pa - (if pa < eastBase then 0 else eastBase)) / 128 / 3

/-- Compute die whose controller homes a MEMORY line (R13, R248). -/
def homeDie (pa : Nat) : CDieId := ⟨(homeStacks pa).1.val / 2, by omega⟩

/-- Octet of a PORT byte (R283). -/
def octetOfPort (p : PortId) : OctetId := ⟨(p.toNat / 8) % 16 % 12, by omega⟩

/-- Location code that reports the home of a line (R438). -/
def Body.homeLoc (b : Body) (pa : Nat) : BitVec 16 :=
  if pa < memoryEnd then controllerLoc (homeStacks pa).1
  else match b.farRange pa with
    | some r => octetLoc (octetOfPort r.portA)
    | none => 0

/-- Half of the unit that serves a line: the controller's half, or the hub of the far-memory home agent (R248, R250). -/
def Body.homeHalf (b : Body) (pa : Nat) : HubId :=
  if pa < memoryEnd then (if pa < eastBase then 0 else 1)
  else match b.farRange pa with
    | some r => halfOfOctet (octetOfPort r.portA)
    | none => 0

/-- The twin serves the primary lines in East when East leads, or when a die of West is lost (R446, R447, R457, R464). -/
def Body.servedByTwin (b : Body) (pa : Nat) : Bool :=
  ((b.isSplit && (b.ctl.halves[(1 : HubId)]).half = .lead) ||
    (!b.isSplit && (b.ctl.lostHubs.contains 0 || b.ctl.lostDies.any fun d => Sys2Proof.Machine.halfOf d = 0))) && (b.mirrored pa).isSome

/-- The way from half `h` to the line's home is cut by SPLIT (R453). -/
def Body.cutOff (b : Body) (h : HubId) (pa : Nat) : Bool :=
  b.isSplit && !(b.homeHalf pa = h) && !(h = 1 && b.servedByTwin pa)

/-- A line that no strand of half `h` can reach once the half has its half-state (R453, R464). Before that, requests wait. -/
def Body.unreachable (b : Body) (h : HubId) (pa : Nat) : Bool := b.cutOff h pa && (b.ctl.halves[h]).half != .none

/-! ## Bridge (R15, R16) -/

/-- Some transfer for the line is in flight on a bundle. -/
def Body.lineOn (b : Body) (l : Line) (n : BundleId) : Bool :=
  let on (x : Option Crossing) : Bool := x.any (·.bundle = n)
  b.mem.reqs.any (fun r => r.line = l && on r.via) || b.mem.departing.any fun d => d.line = l && on d.via

/-- Bundle of a cross-half transfer: by address bit 7 for a line and N without one, while both are up; else the one that is (R15, R16).
After a readmission a line goes back to its bundle once none of its transfers is in flight on the other (R439).
An interrupt and a TSYNC acknowledgement cross within the command that sends them, and a transfer is acknowledged in the command that
performs it, so no reissued transfer is a duplicate (log entry 17). -/
def Body.bundleFor (b : Body) (l : Option Line) : Option BundleId :=
  let up (n : BundleId) : Bool := b.ctl.bundles[n]
  let n : BundleId := match l with | some l => ⟨l.toNat % 2, Nat.mod_lt _ (by decide)⟩ | none => 0
  let o : BundleId := if n = 0 then 1 else 0
  if up o && l.any fun l => b.lineOn l o then some o
  else if up n then some n else if up 0 then some 0 else if up 1 then some 1 else none

/-- The bridge transfer of a message from one half to another. -/
def Body.crossing (b : Body) (src dst : HubId) (l : Option Line) : Option Crossing × Body :=
  if src = dst then (none, b)
  else match b.bundleFor l with
    | none => (none, b)
    | some n => (some { bundle := n, seq := b.mem.bridgeSeq[src] }, b.modMem fun m => { m with bridgeSeq := m.bridgeSeq.set src (m.bridgeSeq[src] + 1) })

/-- A transfer in flight on a lost bundle is reissued on the other one, with its sequence number. What waits keeps its order, so it goes
before every younger transfer for its line (R16). -/
def Crossing.reissue (n : BundleId) (c : Crossing) : Crossing := if c.bundle = n then { c with bundle := if n = 0 then 1 else 0 } else c

def Body.reissueBridge (b : Body) (n : BundleId) : Body :=
  let op (o : InvalOp) : InvalOp := { o with via := o.via.map (Crossing.reissue n) }
  let b := b.modMem fun m => { m with
    reqs := m.reqs.map fun r => { r with via := r.via.map (Crossing.reissue n) }
    departing := m.departing.map fun d => { d with via := d.via.map (Crossing.reissue n) } }
  (b.mapCores fun _ k => { k with inval := k.inval.map op }).modIo fun i => { i with einval := i.einval.map fun l => l.map op }

/-! ## Memory, keys and lost lines -/

/-- Key under which the line's contents stand (R251); a line never written stands under slot 0's. -/
def MemSys.keyAt (m : MemSys) (l : Line) : Config.KeyVal :=
  (tGet m.keyOf l.toNat).getD ((tGet m.slots 0).getD [])

/-- The plaintext under key `k` of a line that was written under key `w`: AES-256-XTS of the data unit, tweak PA[51:7] (R251, R253). -/
def rekey (w k : Config.KeyVal) (l : Line) (d : LineData) : LineData :=
  let tweak := leBytes 16 l.toNat
  lineOf (xts true (padTo 64 k) tweak (xts false (padTo 64 w) tweak (lineBytes d)))

/-- A line of MEMORY or FAR as its home reads it under a key slot (R251, R253). -/
def MemSys.read (m : MemSys) (l : Line) (slot : Byte) : LineData :=
  let raw := lineOf (cellGets unwritten m.cells (lineAddr l) 128)
  let k := (tGet m.slots slot.toNat).getD []
  if m.keyAt l = k then raw else rekey (m.keyAt l) k l raw

/-- A line written under a key slot (R251). -/
def MemSys.write (m : MemSys) (l : Line) (slot : Byte) (d : LineData) : MemSys :=
  { m with
    cells := cellPuts unwritten m.cells (lineAddr l) (lineBytes d)
    keyOf := tPut m.keyOf l.toNat ((tGet m.slots slot.toNat).getD []) }

/-- Line of the twin of a primary line (R450). -/
def twinLine (l : Line) : Line := l + BitVec.ofNat 45 (eastBase / 128)

/-- The line that serves an access to `l`: its twin in East as LEAD, else itself (R457). -/
def Body.servingLine (b : Body) (l : Line) : Line := if b.servedByTwin (lineAddr l) then twinLine l else l

/-- A line in memory as its home reads it. -/
def Body.memRead (b : Body) (l : Line) (slot : Byte) : LineData := b.mem.read (b.servingLine l) slot

/-- The parity rows that a write of the line makes dirty (R433). -/
def MemSys.dirtyParity (m : MemSys) (l : Line) : MemSys :=
  let pa := lineAddr l
  if pa < memoryEnd then
    let e := ((homeStacks pa).2, homeRow pa)
    if m.parity.contains e then m else { m with parity := m.parity ++ [e] }
  else m

/-- The home writes a line to memory, and to the twin of a primary line (R450). -/
def Body.memWrite (b : Body) (l : Line) (slot : Byte) (d : LineData) : Body :=
  let w (b : Body) (l : Line) : Body := b.modMem fun m => (m.write l slot d).dirtyParity l
  match b.mirrored (lineAddr l) with
  | none => w b l
  | some _ =>
    if b.servedByTwin (lineAddr l) then w b (twinLine l)
    else if b.isSplit then w b l
    else w (w b l) (twinLine l)

/-- Can the line's data be rebuilt from its stack or pair at all (R431, R434, R436, R446)? -/
def Body.readable (b : Body) (l : Line) : Bool :=
  let pa := lineAddr (b.servingLine l)
  if pa < memoryEnd then
    let s := (homeStacks pa).1
    let h := s.val / 4
    let bad (m : StackId) : Bool :=
      (b.mem.hbm[m]).failed || b.ctl.lostDies.contains ⟨m.val / 2, by omega⟩ || b.ctl.lostHubs.contains (if m.val < 4 then 0 else 1)
    !bad s || (((List.finRange 8).filter fun (m : StackId) => m.val / 4 = h ∧ m ≠ s).all fun m => !bad m)
  else match b.farRange pa with
    | some r => r.fstate != 3 && !b.ctl.lostHubs.contains (b.homeHalf pa)
    | none => true

def Body.poisoned (b : Body) (l : Line) : Bool := b.mem.poison.contains (lineAddr l)

/-- Records the loss of a line and poisons it (R437). -/
def Body.loseLine (b : Body) (l : Line) (kind : Nat) : Body :=
  let pa := lineAddr l
  if b.poisoned l then b
  else
    let b := b.modMem fun m => { m with poison := m.poison ++ [pa] }
    b.report (b.homeLoc pa) 0x0301 (dataOf [(1, kind), (7, 0), (8, pa)])

/-! ## L2 -/

def l2Slot (l : Line) (way : Nat) : Nat := l.toNat % 4096 * 16 + way

/-- Slot and contents of a line in an L2, whether or not the level is enabled. -/
def Cluster.find (c : Cluster) (l : Line) : Option (Nat × L2Line) :=
  (List.range 16).findSome? fun w =>
    match tGet c.l2 (l2Slot l w) with
    | some e => if e.line = l then some (l2Slot l w, e) else none
    | none => none

/-- A line that the L2 holds with its data; a level that is disabled takes no part (R191). -/
def Body.l2Has (b : Body) (c : ClusterId) (l : Line) : Option (Nat × L2Line) :=
  let k := b.cluster c
  if k.l2e then (k.find l).filter fun e => e.2.st != .le else none

/-! ## Order of use and replacement (R166, R189) -/

/-- A way of a set has been used. -/
def useWay (u : UseOrder) (set way : Nat) : UseOrder := tPut u set (way :: ((tGet u set).getD []).filter (· != way))

/-- The least recently used of some ways of a set: one never used, else the one whose last use lies farthest back. -/
def leastRecent (u : UseOrder) (set : Nat) (ws : List Nat) : Option Nat :=
  let order := (tGet u set).getD []
  (ws.find? fun w => !order.contains w).or (order.reverse.find? ws.contains)

/-- The ways that pseudo-LRU may replace: any but the one used last, when there is another. The spec names no algorithm; which of them
it is, is a free choice (log entry 22). -/
def plruWays (u : UseOrder) (set : Nat) (ws : List Nat) : List Nat :=
  match (tGet u set).bind (·.head?) with
  | some w => let r := ws.filter (· != w); if r.isEmpty then ws else r
  | none => ws

/-- The way to replace: the least recently used one on a mask overflow, else one that pseudo-LRU gives. -/
def Body.replaceWay (b : Body) (u : UseOrder) (set : Nat) (ws : List Nat) (overflow : Bool) : Option Nat × Body :=
  if overflow then (leastRecent u set ws, b) else b.pick (plruWays u set ws)

def Body.useL2 (b : Body) (c : ClusterId) (slot : Nat) : Body :=
  b.modCluster c fun k => { k with l2Use := useWay k.l2Use (slot / 16) (slot % 16) }
def Body.useL3 (b : Body) (d : CDieId) (slot : Nat) : Body :=
  b.modDie d fun x => { x with l3Use := useWay x.l3Use (slot / 16) (slot % 16) }
def Body.useL1 (b : Body) (c : CoreId) (fetch : Bool) (slot : Nat) : Body :=
  b.modCore c fun k =>
    if fetch then { k with l1iUse := useWay k.l1iUse (slot / 4) (slot % 4) } else { k with l1dUse := useWay k.l1dUse (slot / 4) (slot % 4) }

/-- A slot in which the line may be written in the L2 (R171, R195). -/
def L2Line.writable (e : L2Line) : Bool := e.st = .e || e.st = .m

def Body.setL2 (b : Body) (c : ClusterId) (slot : Nat) (e : L2Line) : Body :=
  b.modCluster c fun k => { k with l2 := tPut k.l2 slot e }

/-- Slot of a line in an L1 (R166): set PA[13:7] times 4 plus way. -/
def l1Find (t : Table L1Line) (l : Line) : Option (Nat × L1Line) :=
  (List.range 4).findSome? fun w =>
    match tGet t (l.toNat % 128 * 4 + w) with
    | some e => if e.line = l then some (l.toNat % 128 * 4 + w, e) else none
    | none => none

def l1Del (t : Table L1Line) (l : Line) : Table L1Line := t.filter fun e => e.2.line != l

/-- Removes a line from the enabled L1s of a cluster's cores (R167); a disabled one keeps it (R191). -/
def Body.dropL1 (b : Body) (c : ClusterId) (l : Line) : Body :=
  { b with cores := Vector.ofFn fun k =>
           let x := b.cores[k]
           if clusterOf k = c ∧ (b.cluster c).l2e then
           { x with l1i := if x.l1ie then l1Del x.l1i l else x.l1i, l1d := if x.l1de then l1Del x.l1d l else x.l1d }
           else x }

/-- Removes a line from the L1s of a cluster's cores, enabled or not (R193). -/
def Body.purgeL1 (b : Body) (c : ClusterId) (l : Line) : Body :=
  { b with cores := Vector.ofFn fun k =>
           if clusterOf k = c then { b.cores[k] with l1i := l1Del (b.cores[k]).l1i l, l1d := l1Del (b.cores[k]).l1d l }
           else b.cores[k] }

/-- Ends the reservations of a cluster's strands on the granule of a line that leaves its L2 (R215). -/
def Body.endLineResv (b : Body) (c : ClusterId) (l : Line) : Body :=
  let g := granuleOf (lineAddr l)
  if b.classOf (lineAddr l) = .scratchpad then b
  else b.mapStrands fun t s => if clusterOfStrand t = c ∧ s.resv = some g then s.endResv else s

/-- Ends every strand's reservation on the granule of an address, for a store by any strand or engine (R215). -/
def Body.endResvAt (b : Body) (pa : Nat) : Body :=
  b.mapStrands fun _ s => if s.resv = some (granuleOf pa) then s.endResv else s

/-- The directory entry of a line without a cluster. -/
def dirWithout (e : Option DirEntry) (c : ClusterId) : Option DirEntry :=
  match e with
  | some (.shared v) => let v := v.filter (· != c); if v.isEmpty then none else some (.shared v)
  | some (.exclusive o) => if o = c then none else some (.exclusive o)
  | none => none

def Body.setDir (b : Body) (l : Line) (e : Option DirEntry) : Body :=
  b.modMem fun m => { m with dir := match e with | some e => tPut m.dir l.toNat e | none => tDel m.dir l.toNat }

def Body.dirAt (b : Body) (l : Line) : Option DirEntry := tGet b.mem.dir l.toNat

def Body.dirDrop (b : Body) (c : ClusterId) (l : Line) : Body := b.setDir l (dirWithout (b.dirAt l) c)

/-- A line leaves an L2: its L1 copies, the reservations on it and its directory entry follow (R167, R175, R215). A
lock is kept in LE when `keepLock` says so (R187). -/
def Body.l2Remove (b : Body) (c : ClusterId) (slot : Nat) (e : L2Line) (keepLock : Bool) : Body :=
  let b := b.modCluster c fun k =>
    { k with l2 := if keepLock && e.locked then tPut k.l2 slot { e with st := .le, data := 0 } else tDel k.l2 slot }
  ((b.dropL1 c e.line).endLineResv c e.line).dirDrop c e.line

/-- Sends a modified line on its way to its home (R175, R176). -/
def Body.sendBack (b : Body) (d : Departing) : Body :=
  let (x, b) := b.crossing d.holder (b.homeHalf (lineAddr d.line)) (some d.line)
  b.modMem fun m => { m with departing := m.departing ++ [{ d with via := x }] }

/-- The departing write-back of a modified L2 line; `way` is its slot when a fill of `fill` has displaced it. -/
def L2Line.back (e : L2Line) (c : ClusterId) (l3mask : BitVec 16) (way : Option Nat) (fill : Line) : Departing :=
  { holder := halfOfCluster c, line := e.line, data := e.data, slot := e.slot, nol3 := e.nol3, l3mask := l3mask,
    fromL2 := way.map fun k => (c, k), fromL3 := none, fill := fill, resent := 0 }

def Body.isDeparting (b : Body) (l : Line) : Bool := b.mem.departing.any (·.line = l)

/-- A slot whose victim's write-back has not been accepted (R175, R177). -/
def Body.wayBusy2 (b : Body) (c : ClusterId) (slot : Nat) : Bool := b.mem.departing.any (·.fromL2 = some (c, slot))
def Body.wayBusy3 (b : Body) (d : CDieId) (slot : Nat) : Bool := b.mem.departing.any (·.fromL3 = some (d, slot))

/-- The fill of a line in a cache waits for the write-back of the victim that it has displaced (R175, R177). -/
def Body.fillWaits2 (b : Body) (c : ClusterId) (l : Line) : Bool :=
  b.mem.departing.any fun d => d.fill = l && d.fromL2.any (·.1 = c)
def Body.fillWaits3 (b : Body) (h : CDieId) (l : Line) : Bool :=
  b.mem.departing.any fun d => d.fill = l && d.fromL3.any (·.1 = h)

/-! ## L3 -/

def l3Slice (l : Line) : Nat :=
  let n := l.toNat
  (n % 8) ^^^ (n / 8 % 8) ^^^ (n / 64 % 8)

/-- Slot of a line in its home L3: slice, then set PA[21:10], then way (R166, R168). -/
def l3Slot (l : Line) (way : Nat) : Nat := l3Slice l * 65536 + l.toNat / 8 % 4096 * 16 + way

def Die.find (d : Die) (l : Line) : Option (Nat × L3Line) :=
  (List.range 16).findSome? fun w =>
    match tGet d.l3 (l3Slot l w) with
    | some e => if e.line = l then some (l3Slot l w, e) else none
    | none => none

/-- Does the line have a home L3, of an enabled level (R168, R191, R250)? -/
def Body.l3Home (b : Body) (l : Line) : Option CDieId :=
  let pa := lineAddr (b.servingLine l)
  if pa < memoryEnd ∧ (b.die (homeDie pa)).l3e then some (homeDie pa) else none

def Body.l3Has (b : Body) (l : Line) : Option (CDieId × Nat × L3Line) :=
  match b.l3Home l with
  | some d => ((b.die d).find l).map fun e => (d, e)
  | none => none

/-- Ways a fill may take: open in the mask first; when none is open, any way at all, and the fill counts as an overflow (R189). -/
def openWays (mask : BitVec 16) (usable : Nat → Bool) : List Nat × Bool :=
  let ws := (List.range 16).filter fun w => mask.getLsbD w && usable w
  if ws.isEmpty then ((List.range 16).filter usable, true) else (ws, false)

/-- Counts a mask overflow of a partition (R189, R530). -/
def Body.countOverflow (b : Body) (p : Byte) : Body :=
  b.modIo fun i => { i with parts := tMod i.parts p.toNat fun q => { q with maskOvf := sat32 q.maskOvf } }

/-- Places a line in an L3; `false` while a dirty victim of the fill has not been accepted (R177). -/
def Body.l3Fill (b : Body) (d : CDieId) (l : Line) (data : LineData) (dirty : Bool) (slot : Byte) (mask : BitVec 16)
    (part : Byte) : Body × Bool :=
  let put (b : Body) (k : Nat) (x : L3Line) : Body × Bool := ((b.modDie d fun y => { y with l3 := tPut y.l3 k x }).useL3 d k, true)
  let new : L3Line := { line := l, dirty := dirty, slot := slot, data := data }
  match (b.die d).find l with
  | some (k, e) => put b k { e with data := data, dirty := e.dirty || dirty, slot := slot }
  | none =>
    if b.fillWaits3 d l then (b, false)
    else
      let (ws, ovf) := openWays mask fun w => !b.wayBusy3 d (l3Slot l w)
      let b := if ovf then b.countOverflow part else b
      match ws.filter fun w => (tGet (b.die d).l3 (l3Slot l w)).isNone with
      | w :: _ => put b (l3Slot l w) new
      | [] =>
        match b.replaceWay (b.die d).l3Use (l3Slot l 0 / 16) ws ovf with
        | (none, b) => (b, false)
        | (some w, b) =>
          let k := l3Slot l w
          match tGet (b.die d).l3 k with
          | some e =>
            if e.dirty then
              let b := b.modDie d fun x => { x with l3 := tDel x.l3 k }
              (b.sendBack { holder := halfOf d, line := e.line, data := e.data, slot := e.slot, nol3 := false, l3mask := mask, fromL2 := none,
                            fromL3 := some (d, k), fill := l, resent := 0 }, false)
            else put b k new
          | none => put b k new

/-- The home accepts data for a line: the L3 when it holds the line or may be filled, else memory. `false`: it waits
for a victim (R175, R177, R228). -/
def Body.homeAccept (b : Body) (l : Line) (d : LineData) (slot : Byte) (nol3 : Bool) (l3mask : BitVec 16)
    (part : Byte) (fill : Bool) : Body × Bool :=
  if (b.mirrored (lineAddr l)).isSome then
    -- The twin must hold every accepted write, so a primary line is written through (R450).
    let b := match b.l3Has l with
      | some (h, k, e) => b.modDie h fun x => { x with l3 := tPut x.l3 k { e with data := d, slot := slot } }
      | none => b
    (b.memWrite l slot d, true)
  else match b.l3Has l with
  | some (h, k, e) =>
    ((b.modDie h fun x => { x with l3 := tPut x.l3 k { e with data := d, dirty := true, slot := slot } }).useL3 h k, true)
  | none =>
    match b.l3Home l with
    | some h => if fill && !nol3 then b.l3Fill h l d true slot l3mask part else (b.memWrite l slot d, true)
    | none => (b.memWrite l slot d, true)

/-- The home of a departing line accepts it, and its way is free (R175 to R177, R435). -/
def Body.acceptBack (b : Body) (d : Departing) : Body :=
  let drop (b : Body) : Body := b.modMem fun m => { m with departing := m.departing.filter (· != d) }
  match d.fromL3 with
  | some _ => (drop b).memWrite d.line d.slot d.data
  | none =>
    match b.homeAccept d.line d.data d.slot d.nol3 d.l3mask 0 true with
    | (b', true) => drop b'
    | (b', false) => b'

/-- Waits until the home has accepted a departing line (R176): the L3 victim that it displaces is accepted first. For an access that is
one command, its wait included (log entry 25). -/
def Body.awaitBack (b : Body) (l : Line) : Body :=
  if !b.isDeparting l then b
  else
    let round (b : Body) : Body := (b.mem.departing.filter fun d => d.line = l || d.fill = l).foldl (fun b d => b.acceptBack d) b
    round (round (round b))

/-! ## What a line holds beyond an L2 -/

/-- Contents that the home gives for a line: the L3, else memory (R169). A request that meets a departing line has waited (R176). -/
def Body.homeData (b : Body) (l : Line) (slot : Byte) : LineData :=
  match b.l3Has l with
  | some (_, _, e) => e.data
  | none => b.memRead l slot

/-- Cluster that holds the line EXCLUSIVE, with its slot (R169). -/
def Body.owner (b : Body) (l : Line) : Option (ClusterId × Nat × L2Line) :=
  match b.dirAt l with
  | some (.exclusive o) => (b.l2Has o l).map fun e => (o, e)
  | _ => none

/-- A coherent value of a line as a reader other than the L2s sees it, a departing write-back awaited (R169, R176, R226). -/
def Body.coherent (b : Body) (l : Line) (slot : Byte) : LineData :=
  match b.owner l with
  | some (_, _, e) => e.data
  | none => (b.awaitBack l).homeData l slot

/-- The value that cluster `c` sees: its own L2's copy, or the coherent one (R226). -/
def Body.coherentAt (b : Body) (c : ClusterId) (l : Line) (slot : Byte) : LineData :=
  match b.l2Has c l with
  | some (_, e) => e.data
  | none => b.coherent l slot

/-! ## Requests at the home (R169) -/

/-- A hold of R217 on the line in a cluster's L2. -/
def Body.heldBy (b : Body) (c : ClusterId) (l : Line) : Bool :=
  (strandsOfCluster c).any fun t =>
    (b.strand t).hold && (b.strand t).resv == some (granuleOf (lineAddr l))

/-- Clusters whose L2 the directory lists. -/
def Body.holders (b : Body) (l : Line) : List ClusterId :=
  match b.dirAt l with
  | some (.shared v) => v
  | some (.exclusive o) => [o]
  | none => []

/-- The owner's copy becomes clean and shared; its data goes home (R169, R187). -/
def Body.downgrade (b : Body) (l : Line) : Body :=
  match b.owner l with
  | none => b
  | some (o, k, e) =>
    let b := b.setL2 o k { e with st := .s }
    let b := b.setDir l (some (.shared [o]))
    if e.st = .m then (b.homeAccept l e.data e.slot true 0xFFFF 0 false).1 else b

/-- Every copy but that of `keep` is invalidated; a modified copy's data goes home first (R169, R187). -/
def Body.invalidateOthers (b : Body) (l : Line) (keep : Option ClusterId) : Body :=
  ((b.holders l).filter fun c => some c != keep).foldl (fun b c =>
    match b.l2Has c l with
    | some (k, e) =>
      let b := if e.st = .m then (b.homeAccept l e.data e.slot true 0xFFFF 0 false).1 else b
      b.l2Remove c k e true
    | none => b.dirDrop c l) b

/-- Chooses the way of a fill: the slot in LE of the line, an empty open way, or one to replace; with what stands there, and whether the mask
left no way open (R187, R189). `lock` confines it to unlocked lockable ways of the mask (R185). -/
def Body.l2Victim (b : Body) (c : ClusterId) (l : Line) (mask : BitVec 16) (lock : Bool) : Option (Nat × Option L2Line) × Bool × Body :=
  let k := b.cluster c
  match k.find l with
  | some (slot, e) => (some (slot, some e), false, b)
  | none =>
    let spad := k.ways.toNat
    let at' (w : Nat) := tGet k.l2 (l2Slot l w)
    let usable (w : Nat) : Bool := w < 16 - spad && !b.wayBusy2 c (l2Slot l w) &&
      (match at' w with | some e => !e.locked && !(b.heldBy c e.line) | none => true)
    let (ws, ovf) :=
      if lock then ((List.range 4).filter fun w => mask.getLsbD w && usable w, false) else openWays mask usable
    match ws.filter fun w => (at' w).isNone with
    | w :: _ => (some (l2Slot l w, none), ovf, b)
    | [] =>
      match b.replaceWay k.l2Use (l.toNat % 4096) ws ovf with
      | (some w, b) => (some (l2Slot l w, at' w), ovf, b)
      | (none, b) => (none, ovf, b)

/-- Makes room for a line: the slot it may take, none while a modified victim's write-back is under way (R175). The overflow of a fill
is counted once, when it chooses its way (R189). -/
def Body.l2Room (b : Body) (r : Req) : Option Nat × Body :=
  if b.fillWaits2 r.cluster r.line then (none, b)
  else match b.l2Victim r.cluster r.line r.l2mask r.lock with
  | (none, _, b) => (none, b)
  | (some (k, v), ovf, b) =>
    let counted (b : Body) : Body := if ovf && !r.counted then b.countOverflow r.part else b
    match v with
    | none => (some k, counted b)
    | some e =>
      if e.line = r.line then (some k, b)
      else
        let b' := b.l2Remove r.cluster k e false
        if e.st = .m then
          (none, ((counted b').sendBack (e.back r.cluster r.l3mask (some k) r.line)).modMem fun m =>
            { m with reqs := m.reqs.map fun x => if x = r then { x with counted := true } else x })
        else (some k, counted b')

/-- Posts a request for a line, unless the same one is outstanding (R169). -/
def Body.postReq (b : Body) (r : Req) : Body :=
  if b.mem.reqs.any fun x => x.cluster = r.cluster && x.line = r.line && x.write = r.write then b
  else
    let (x, b) := b.crossing (halfOfCluster r.cluster) (b.homeHalf (lineAddr r.line)) (some r.line)
    b.modMem fun m => { m with reqs := m.reqs ++ [{ r with via := x }] }

def Body.dropReq (b : Body) (r : Req) : Body :=
  b.modMem fun m => { m with reqs := m.reqs.filter fun x => !(x.cluster = r.cluster && x.line = r.line && x.write = r.write) }

/-- Data of a read or write request at the home, with the fill of the home L3 when memory serves it
(R169, R189, R228). None while an L3 victim's write-back is under way. -/
def Body.serve (b : Body) (r : Req) : Option LineData × Body :=
  match b.l3Has r.line with
  | some (h, k, e) => (some e.data, b.useL3 h k)
  | none =>
    let d := b.memRead r.line r.slot
    match b.l3Home r.line with
    | some h =>
      if r.nol3 then (some d, b)
      else match b.l3Fill h r.line d false r.slot r.l3mask r.part with
        | (b, true) => (some d, b)
        | (b, false) => (none, b)
    | none => (some d, b)

/-- Installs a line in an L2 (R169, R185, R187). A primary line of a mirror is installed like any other, and no store makes it M (R451). -/
def Body.l2Install (b : Body) (r : Req) (k : Nat) (st : L2State) (d : LineData) : Body :=
  let locked := r.lock || match tGet (b.cluster r.cluster).l2 k with
    | some e => e.locked && e.line = r.line
    | none => false
  (b.setL2 r.cluster k { line := r.line, st := st, locked := locked, slot := r.slot, nol3 := r.nol3, data := d }).useL2 r.cluster k

/-- Is another cluster's hold in the way of an exclusive request (R217)? -/
def Body.deferred (b : Body) (r : Req) : Bool :=
  (b.holders r.line).any fun c => c != r.cluster && b.heldBy c r.line

/-- The home handles a read request (R169). It waits for a departing line, for room in the L2 and in the L3. -/
def Body.handleRead (b : Body) (r : Req) : Body :=
  if b.isDeparting r.line || b.poisoned r.line || b.cutOff (halfOfCluster r.cluster) (lineAddr r.line) then b
  else if !(b.cluster r.cluster).l2e then b.dropReq r
  else if !b.readable r.line && (b.owner r.line).isNone && (b.l3Has r.line).isNone then b.loseLine r.line
    (if lineAddr r.line < memoryEnd then 1 else 2)
  else match b.l2Has r.cluster r.line with
  | some _ => b.dropReq r
  | none =>
    match b.l2Room r with
    | (none, b) => b
    | (some k, b) =>
      match b.dirAt r.line with
      | some (.exclusive o) =>
        if o = r.cluster then
          match b.serve r with
          | (some d, b) => (b.l2Install r k .e d).dropReq r
          | (none, b) => b
        else
          let d := b.coherent r.line r.slot
          let b := (b.downgrade r.line).setDir r.line (some (.shared [o, r.cluster]))
          (b.l2Install r k .s d).dropReq r
      | some (.shared v) =>
        match b.serve r with
        | (some d, b) =>
          let b := b.setDir r.line (some (.shared (v.filter (· != r.cluster) ++ [r.cluster])))
          (b.l2Install r k .s d).dropReq r
        | (none, b) => b
      | none =>
        match b.serve r with
        | (some d, b) => ((b.setDir r.line (some (.exclusive r.cluster))).l2Install r k .e d).dropReq r
        | (none, b) => b

/-- The home handles a write request (R169). A copy that the L2 still holds in S is kept and upgraded (R171, R192). -/
def Body.handleWrite (b : Body) (r : Req) : Body :=
  if b.isDeparting r.line || b.poisoned r.line || b.deferred r || b.cutOff (halfOfCluster r.cluster) (lineAddr r.line) then b
  else if !(b.cluster r.cluster).l2e then b.dropReq r
  else if !b.readable r.line && (b.owner r.line).isNone && (b.l3Has r.line).isNone then b.loseLine r.line
    (if lineAddr r.line < memoryEnd then 1 else 2)
  else match b.l2Has r.cluster r.line with
  | some (k, e) =>
    let b := (b.invalidateOthers r.line (some r.cluster)).setDir r.line (some (.exclusive r.cluster))
    (b.setL2 r.cluster k { e with st := if e.st = .m then .m else .e }).dropReq r
  | none =>
    match b.l2Room r with
    | (none, b) => b
    | (some k, b) =>
      let b := b.invalidateOthers r.line none
      match b.serve r with
      | (some d, b) => ((b.setDir r.line (some (.exclusive r.cluster))).l2Install r k .e d).dropReq r
      | (none, b) => b

/-- An engine's read of a line (R169): a departing line is waited for, and the owner, if any, keeps a clean copy. -/
def Body.dmaLine (b : Body) (l : Line) (slot : Byte) : LineData × Body :=
  let b := b.awaitBack l
  (b.coherent l slot, b.downgrade l)

/-- A hold of R217 defers an invalidation of the line. -/
def Body.lineHeld (b : Body) (l : Line) : Bool := (b.holders l).any fun c => b.heldBy c l

/-- A write of bytes within one line at its home, by an engine or by a strand whose L2 is disabled
(R169, R176, R195, R437): a departing line is waited for, every L2 copy is invalidated, the home L3 loses the line, memory is written. A
write of the whole line clears poison when `clear` says so. -/
def Body.homeStore (b : Body) (pa : Nat) (bs : List Byte) (slot : Byte) (clear : Bool) : Body :=
  let l := lineNo pa
  let b := b.awaitBack l
  let d := b.coherent l slot
  let b := b.invalidateOthers l none
  let b := match b.l3Has l with
    | some (h, k, _) => b.modDie h fun x => { x with l3 := tDel x.l3 k }
    | none => b
  let b := b.setDir l none
  let b := b.memWrite l slot (lineSet d (pa % 128) bs)
  let b := if clear && bs.length = 128 then b.modMem fun m => { m with poison := m.poison.filter (· != lineAddr l) } else b
  b.endResvAt pa

/-! ## Scratchpad (R178 to R180) -/

def spadOffset (pa : Nat) : Nat := pa - spadBase
/-- First offset beyond the scratchpad's present size. -/
def Cluster.spadLimit (c : Cluster) : Nat := c.ways.toNat * 0x80000

def Cluster.spadRead (c : Cluster) (off n : Nat) : List Byte :=
  (List.range n).map fun i => if off + i < c.spadLimit then cellGet zeroByte c.spad (off + i) else 0

/-- The cluster whose scratchpad a strand reaches (R179, R183). -/
def Body.spadHome (b : Body) (t : StrandId) : ClusterId := ((b.strand t).spHome).getD (clusterOfStrand t)

/-- Number of a scratchpad address's line. -/
def spadLine (pa : Nat) : Nat := spadOffset pa / 128

/-- Records the loss of a scratchpad line, which has no directory entry: the cluster itself keeps it poisoned (R179, R437; log entry
17). -/
def Body.loseSpad (b : Body) (c : ClusterId) (n : Nat) : Body :=
  if (b.cluster c).spadLost.contains n then b
  else (b.modCluster c fun k => { k with spadLost := k.spadLost ++ [n] }).report (clusterLoc c 0x18) 0x0301
    (dataOf [(1, 3), (7, 0), (8, spadBase + n * 128)])

/-- A store to scratchpad; bytes beyond the limit are discarded and the store is counted (R179). -/
def Body.spadWrite (b : Body) (c : ClusterId) (off : Nat) (bs : List Byte) : Body :=
  let lim := (b.cluster c).spadLimit
  let keep := bs.take (lim - off)
  let b := b.modCluster c fun k => { k with spad := cellPuts zeroByte k.spad off keep }
  if keep.length < bs.length then b.count 0x02 (clusterLoc c 0x18).toNat Tilth.event else b

end Sys2Proof.Machine
end

