-- ==== Sys2Proof/Machine/Translate.lean ====
section
/-!
DEFINITION. Address translation: regimes, walks, permissions, faults, TLBs and the walk cache (chapter 8).
-/

namespace Sys2Proof.Machine

/-! ## Results -/

/-- Answer of an operation that may meet a trap; the state carries what the caches learned either way. -/
inductive TRes (α : Type) where
  | ok (b : Body) (v : α)
  | stop (b : Body) (r : TrapReq)

/-- Why a walk ends: the trap, and a line whose loss it detects. -/
structure WStop where
  req : TrapReq
  lost : Option Line := none
  deriving DecidableEq, Repr

/-- What an access needs (R227), and its kind code. -/
structure Need where
  kind : Nat
  rd : Bool
  wr : Bool
  deriving DecidableEq, Repr

def needLoad : Need := ⟨1, true, false⟩
def needStore : Need := ⟨2, false, true⟩
def needLdr : Need := ⟨3, true, false⟩
def needStc : Need := ⟨3, false, true⟩
def needCas : Need := ⟨3, true, true⟩
def needPush : Need := ⟨4, false, true⟩
def needPop : Need := ⟨4, true, false⟩
def needFetch : Need := ⟨5, true, false⟩
def needIrd : Need := ⟨6, true, false⟩
def needIwr : Need := ⟨7, false, true⟩

def Need.ispace (n : Need) : Bool := 5 ≤ n.kind

/-! ## Table entries (R224, R225) -/

/-- The low frame bits that a leaf of a level must have zero. -/
def lowFrame (e : W) (level : Nat) : Bool :=
  if level = 1 then e.extractLsb' 12 9 != 0 else if level = 2 then e.extractLsb' 12 18 != 0 else false

def pteV (e : W) : Bool := e.getLsbD 0
def pteRd (e : W) : Bool := e.getLsbD 1
def pteWr (e : W) : Bool := e.getLsbD 2
def pteUs (e : W) : Bool := e.getLsbD 3
def pteG (e : W) : Bool := e.getLsbD 4
def pteA (e : W) : Bool := e.getLsbD 5
def pteD (e : W) : Bool := e.getLsbD 6
def pteNol3 (e : W) : Bool := e.getLsbD 7
def pteSkey (e : W) : Bool := e.getLsbD 8
def pteFrame (e : W) : Nat := (e.extractLsb' 12 40).toNat * 4096

/-- Is the entry a leaf at its level? -/
def pteLeaf (e : W) (level : Nat) : Bool := level = 0 || e.getLsbD 10

/-- Reason that ends the walk at an entry, if any (R225, R228). -/
def pteReason (e : W) (level : Nat) : Option Nat :=
  if !pteV e then some 0
  else if e.getLsbD 11 || e.getLsbD 63 then some 6
  else if 3 ≤ level then (if e.getLsbD 10 then some 7 else none)
  else if pteLeaf e level then
    if (pteWr e && !pteRd e) || lowFrame e level || e.getLsbD 9 then some 6 else none
  else none

/-- Physical or guest-physical address under a leaf. -/
def leafAddr (e : W) (level : Nat) (va : Nat) : Nat := pteFrame e + va % 2 ^ (12 + 9 * level)

/-! ## Reading table entries -/

/-- MACHINE_CHECK of a strand's access to a line that cannot be delivered, if any, and the line it loses
(R437, R438, R464). `walk` is an access for a table entry (R234). -/
def Body.lineCheck (b : Body) (t : StrandId) (pa : Nat) (walk : Bool) : Option WStop :=
  let l := lineNo pa
  let home := b.homeLoc pa
  let ad := if walk then pa else lineAddr l
  if b.unreachable (halfOfStrand t) pa then some { req := trapMachine home 6 ad }
  else if b.poisoned l then some { req := trapMachine home (if walk then 5 else 4) ad }
  else if !b.readable l ∧ (b.l2Has (clusterOfStrand t) l).isNone ∧ (b.owner l).isNone ∧ (b.l3Has l).isNone ∧
      !b.isDeparting l then
    some { req := trapMachine home (if walk then 5 else if pa < memoryEnd then 1 else 2) ad, lost := some l }
  else none

/-- MACHINE_CHECK of a strand's data access to a line that cannot be delivered, scratchpad included (R437, R438). -/
def Body.dataCheck (b : Body) (t : StrandId) (cls : PClass) (pa : Nat) : Option WStop :=
  if cls = .scratchpad then
    let h := b.spadHome t
    if (b.cluster h).spadLost.contains (spadLine pa) then some { req := trapMachine (clusterLoc h 0x18) 4 (lineAddr (lineNo pa)) }
    else none
  else b.lineCheck t pa false

/-- Reads one table entry coherently (R226). The rule says which cache serves the read and not that a miss fills one: the walker's read
changes no cache and no directory entry (log entry 23). -/
def Body.readEntry (b : Body) (t : StrandId) (pa : Nat) (slot : Byte) : Except WStop W :=
  match b.lineCheck t pa true with
  | some w => .error w
  | none => .ok (BitVec.ofNat 64 (leNat (lineGet (b.coherentAt (clusterOfStrand t) (lineNo pa) slot) (pa % 128) 8)))

def Body.tableClass (b : Body) (pa : Nat) : Bool := b.classOf pa = .memory || b.classOf pa = .far

/-! ## Walks (R223, R232) -/

/-- What a walk is for. -/
structure WalkCtx where
  t : StrandId
  part : Byte
  /-- Supervisor regime. -/
  sup : Bool
  s2on : Bool
  /-- Privilege of the check is U. -/
  user : Bool
  need : Need
  va : Nat
  asid : BitVec 16
  root : W
  s2root : W
  /-- An access of an engine: no core's walk cache serves it, and it reaches no scratchpad (R246, R360). -/
  eng : Bool
  /-- The walk that decides a fault, or a write through D = 0: it reads the leaves (R235, R236). -/
  fresh : Bool

def trapStage2 (va : Nat) (gpa : Nat) (kind reason level : Nat) : TrapReq :=
  { cause := 0x15, rule := .toS, info0 := if kind = 8 then 0 else BitVec.ofNat 64 va, info1 := BitVec.ofNat 64 gpa,
    info2 := BitVec.ofNat 64 (kind + reason * 256 + level * 65536) }

/-- DATA_PAGE_FAULT or INSTRUCTION_PAGE_FAULT (R231). -/
def WalkCtx.pageFault (c : WalkCtx) (reason : Nat) (kind : Nat) : TrapReq :=
  { cause := if c.need.ispace then 0x03 else 0x04, rule := .upK, info0 := BitVec.ofNat 64 c.va,
    info1 := BitVec.ofNat 64 (kind + reason * 256) }

/-- A translation of a stage, with the leaf, its level, and the walk-cache entries it used. -/
structure Walked where
  addr : Nat
  leaf : W
  level : Nat
  used : List WalkEntry
  /-- Address of the leaf entry, as the table's owner wrote it. -/
  leafAt : Nat

/-- The value used for an entry: what memory holds, or a cached value of it (R236, R245). -/
def chooseEntry (ctr idx : Nat) (cached : Option W) (now : Except WStop W) : Except WStop W :=
  match cached with
  | none => now
  | some v =>
    match now with
    | .ok w => if v = w then .ok w else if Config.freeWalk ctr idx then .ok v else .ok w
    | .error e => if Config.freeWalk ctr idx then .ok v else .error e

/-- The walk-cache entry that serves a level of a walk. -/
def findWalk (l : List WalkEntry) (stage2 : Bool) (c : WalkCtx) (level pre : Nat) : Option W :=
  if c.eng then none
  else (l.find? fun e => e.stage2 = stage2 && e.part = c.part && e.level = level && e.pre = pre &&
    (stage2 || (e.sup = c.sup && e.ispace = c.need.ispace && e.asid = c.asid))).map (·.value)

/-- The stage-2 walk below a table of level `level` (R223, R225). `kind` and `gpa` go into its faults. A leaf that may be refused is read
again when the walk is `fresh` (R235, R236). -/
def Body.walk2 (b : Body) (c : WalkCtx) (kind gpa idx : Nat) : Nat → Nat → List WalkEntry → Except WStop Walked
  | level, base, used =>
    let at' := base + gpa / 2 ^ (12 + 9 * level) % 512 * 8
    let pre := gpa / 2 ^ (12 + 9 * level)
    let now : Except WStop W :=
      if !b.tableClass at' then .error { req := trapStage2 c.va gpa kind 8 level } else b.readEntry c.t at' 0
    let cached := (findWalk (b.core (coreOf c.t)).walk true c level pre).filter fun v =>
      !(c.fresh && pteLeaf v level && !(kind = 8 && pteRd v))
    match chooseEntry b.freeCtr (idx * 8 + level) cached now with
    | .error e => .error e
    | .ok e =>
      match pteReason e level with
      | some r => .error { req := trapStage2 c.va gpa kind r level }
      | none =>
        let used := used ++ [{ stage2 := true, part := c.part, sup := false, ispace := false, asid := 0, level := level,
                               pre := pre, value := e }]
        match level with
        | 0 => .ok { addr := leafAddr e 0 gpa, leaf := e, level := 0, used := used, leafAt := at' }
        | n + 1 =>
          if pteLeaf e (n + 1) && (n + 1 ≤ 2) then
            .ok { addr := leafAddr e (n + 1) gpa, leaf := e, level := n + 1, used := used, leafAt := at' }
          else Body.walk2 b c kind gpa idx n (pteFrame e) used

/-- Stage 2 of one guest-physical address, with the permissions and A and D of its leaf (R227, R232, R235). -/
def Body.stage2 (b : Body) (c : WalkCtx) (need : Need) (gpa idx : Nat) : Except WStop Walked :=
  match b.walk2 c need.kind gpa idx 4 (pteFrame c.s2root) [] with
  | .error e => .error e
  | .ok w =>
    let stop (r : Nat) : Except WStop Walked := .error { req := trapStage2 c.va gpa need.kind r w.level }
    if need.rd && !pteRd w.leaf then stop 1
    else if need.wr && !pteWr w.leaf then stop 2
    else if !pteA w.leaf then stop 10
    else .ok w

def needTable : Need := ⟨8, true, false⟩

/-- Reads a stage-1 entry at a table address, through stage 2 when it is on (R226, R232). -/
def Body.entry1 (b : Body) (c : WalkCtx) (gpa level idx : Nat) : Except WStop (W × List WalkEntry) :=
  let tr : Except WStop (Nat × Byte × List WalkEntry) :=
    if c.s2on then
      match b.stage2 c needTable gpa idx with
      | .ok w => .ok (w.addr, if pteSkey w.leaf then 0 else c.part, w.used)
      | .error e => .error e
    else .ok (gpa, c.part, [])
  match tr with
  | .error e => .error e
  | .ok (pa, slot, used) =>
    if !b.tableClass pa then
      .error { req := { cause := 0x07, rule := .upK, info0 := BitVec.ofNat 64 c.va, info1 := BitVec.ofNat 64 level,
                        info2 := BitVec.ofNat 64 gpa } }
    else if (tGet b.mem.slots slot.toNat).isNone then
      .error { req := if c.s2on then trapStage2 c.va gpa 8 9 0xF else c.pageFault 9 8 }
    else match b.readEntry c.t pa slot with
      | .ok e => .ok (e, used)
      | .error e => .error e

/-- The stage-1 walk below a table of level `level` (R223, R225, R232). -/
def Body.walk1 (b : Body) (c : WalkCtx) : Nat → Nat → List WalkEntry → Except WStop Walked
  | level, base, used =>
    let at' := base + c.va / 2 ^ (12 + 9 * level) % 512 * 8
    let pre := c.va % 2 ^ 57 / 2 ^ (12 + 9 * level)
    let now := b.entry1 c at' level (level + 1)
    let cached := findWalk (b.core (coreOf c.t)).walk false c level pre
    let used2 := match now with | .ok (_, u) => u | .error _ => []
    match chooseEntry b.freeCtr (56 + level) cached (now.map (·.1)) with
    | .error e => .error e
    | .ok e =>
      match pteReason e level with
      | some r => .error { req := c.pageFault r c.need.kind }
      | none =>
        match level with
        | 0 => .ok { addr := leafAddr e 0 c.va, leaf := e, level := 0, used := used ++ used2, leafAt := at' }
        | n + 1 =>
          if pteLeaf e (n + 1) && (n + 1 ≤ 2) then
            .ok { addr := leafAddr e (n + 1) c.va, leaf := e, level := n + 1, used := used ++ used2, leafAt := at' }
          else
            Body.walk1 b c n (pteFrame e) (used ++ used2 ++ [{ stage2 := false, part := c.part, sup := c.sup,
                                                               ispace := c.need.ispace, asid := c.asid, level := n + 1, pre := pre, value := e }])

/-- The stage-1 leaf's checks but D (R232, items 3 and 4). -/
def WalkCtx.leaf1 (c : WalkCtx) (w : Walked) : Option TrapReq :=
  let trap (cause : Byte) : TrapReq :=
    { cause := cause, rule := .upK, info0 := BitVec.ofNat 64 c.va, info1 := BitVec.ofNat 64 c.need.kind,
      info2 := BitVec.ofNat 64 w.leafAt }
  if (c.user && !pteUs w.leaf) || (!c.user && c.need.kind = 5 && pteUs w.leaf) then some (c.pageFault 3 c.need.kind)
  else if c.need.rd && !pteRd w.leaf then some (c.pageFault 1 c.need.kind)
  else if c.need.wr && !pteWr w.leaf then some (c.pageFault 2 c.need.kind)
  else if !pteA w.leaf then some (trap 0x05)
  else none

/-- A completed walk of both stages: the entry to cache, and the trap that only D raises (R235, R238). -/
structure Xlat where
  pa : Nat
  /-- Guest-physical address of the access. -/
  gpa : Nat
  skey : Bool
  nol3 : Bool
  level : Nat
  rd : Bool
  wr : Bool
  us : Bool
  glob : Bool
  d1 : Bool
  d2 : Bool
  /-- DIRTY_TRAP or STAGE2_FAULT reason 11, when the access writes and a D bit is 0. -/
  dirty : Option TrapReq
  used : List WalkEntry

/-- Translation of an address by walking (R221, R222, R232). -/
def Body.walkAll (b : Body) (c : WalkCtx) : Except WStop Xlat :=
  let on1 := c.root.getLsbD 0
  let s1 : Except WStop Walked :=
    if on1 then b.walk1 c (if c.need.ispace then 3 else 4) (pteFrame c.root) []
    else .ok { addr := c.va, leaf := 0, level := 2, used := [], leafAt := 0 }
  match s1 with
  | .error e => .error e
  | .ok w1 =>
    match (if on1 then c.leaf1 w1 else none) with
    | some r => .error { req := r }
    | none =>
      let dirty1 : Option TrapReq :=
        if on1 && c.need.wr && !pteD w1.leaf then
          some { cause := 0x06, rule := .upK, info0 := BitVec.ofNat 64 c.va, info1 := BitVec.ofNat 64 c.need.kind,
                 info2 := BitVec.ofNat 64 w1.leafAt }
        else none
      if c.s2on then
        match b.stage2 c c.need w1.addr 6 with
        | .error e => .error (match dirty1 with | some r => { req := r } | none => e)
        | .ok w2 =>
          let dirty2 : Option TrapReq :=
            if c.need.wr && !pteD w2.leaf then some (trapStage2 c.va w1.addr c.need.kind 11 w2.level) else none
          .ok { pa := w2.addr, gpa := w1.addr, skey := pteSkey w2.leaf, nol3 := pteNol3 w2.leaf || (on1 && pteNol3 w1.leaf),
                level := if on1 then min w1.level w2.level else w2.level,
                rd := pteRd w2.leaf && (!on1 || pteRd w1.leaf), wr := pteWr w2.leaf && (!on1 || pteWr w1.leaf),
                us := pteUs w1.leaf, glob := pteG w1.leaf, d1 := !on1 || pteD w1.leaf, d2 := pteD w2.leaf,
                dirty := dirty1.or dirty2, used := w1.used ++ w2.used }
      else
        .ok { pa := w1.addr, gpa := w1.addr, skey := c.sup && (!on1 || pteSkey w1.leaf), nol3 := on1 && pteNol3 w1.leaf,
              level := w1.level, rd := pteRd w1.leaf, wr := pteWr w1.leaf, us := pteUs w1.leaf, glob := pteG w1.leaf,
              d1 := !on1 || pteD w1.leaf, d2 := true, dirty := dirty1, used := w1.used }

/-! ## TLBs (R235, R236, R238) -/

def WalkCtx.tag (c : WalkCtx) (x : Xlat) : TlbTag :=
  { part := c.part, sup := c.sup, ispace := c.need.ispace, asid := if x.glob then none else some c.asid,
    level := ⟨min x.level 2, by omega⟩, vpn := c.va % 2 ^ 57 / 2 ^ (12 + 9 * min x.level 2) }

def WalkCtx.entry (c : WalkCtx) (x : Xlat) : TlbEntry :=
  { tag := c.tag x, ppn := x.pa / 2 ^ (12 + 9 * min x.level 2), rd := x.rd, wr := x.wr, us := x.us, skey := x.skey,
    nol3 := x.nol3, d1 := x.d1, d2 := x.d2 }

/-- Does a cached translation serve the address (R238)? -/
def TlbEntry.hits (e : TlbEntry) (c : WalkCtx) : Bool :=
  e.tag.part = c.part && e.tag.sup = c.sup && e.tag.ispace = c.need.ispace &&
  (match e.tag.asid with | some a => a = c.asid | none => true) &&
  e.tag.vpn = c.va % 2 ^ 57 / 2 ^ (12 + 9 * e.tag.level.val)

/-- Does it permit the access without another look at the leaf (R235, R236)? -/
def TlbEntry.permits (e : TlbEntry) (c : WalkCtx) : Bool :=
  (if c.user then e.us else !(c.need.kind = 5 && e.us)) && (!c.need.rd || e.rd) &&
  (!c.need.wr || (e.wr && e.d1 && e.d2))

/-- Adds an entry to a structure of a given size, replacing one of equal tag, else a free one when it is full. -/
def tlbInsert (size ctr : Nat) (l : List TlbEntry) (e : TlbEntry) : List TlbEntry :=
  let l := l.filter fun x => x.tag != e.tag
  let l := if l.length < size then l else l.eraseIdx (Config.freeNat ctr % size)
  e :: l

/-- Set of the second-level TLB that a translation belongs to; the spec names no index function (R238). -/
def TlbTag.set (g : TlbTag) : Nat :=
  Config.stlbSet [g.part.toNat, g.sup.toNat, g.ispace.toNat, match g.asid with | some a => a.toNat + 1 | none => 0, g.level.val, g.vpn] % 512

/-- Adds an entry to the second-level TLB: 512 sets of 8 ways (R238). -/
def stlbInsert (ctr : Nat) (l : List TlbEntry) (e : TlbEntry) : List TlbEntry :=
  let l := l.filter fun x => x.tag != e.tag
  let same := l.filter fun x => x.tag.set = e.tag.set
  if same.length < 8 then e :: l
  else match same[Config.freeNat ctr % 8]? with
    | some v => e :: l.filter (· != v)
    | none => e :: l

def walkInsert (ctr : Nat) (l : List WalkEntry) (e : WalkEntry) : List WalkEntry :=
  let l := l.filter fun x => !({ x with value := e.value } == e)
  let l := if l.length < 256 then l else l.eraseIdx (Config.freeNat ctr % 256)
  e :: l

/-- Caches a translation in the first- and second-level TLBs (R238). -/
def Core.cache (k : Core) (ctr : Nat) (e : TlbEntry) : Core :=
  let k := if e.tag.ispace then { k with itlb := tlbInsert 32 ctr k.itlb e } else { k with dtlb := tlbInsert 64 ctr k.dtlb e }
  { k with stlb := stlbInsert ctr k.stlb e }

/-- Forgets a translation (R236). -/
def Core.uncache (k : Core) (tag : TlbTag) : Core :=
  let f (l : List TlbEntry) := l.filter fun x => x.tag != tag
  { k with dtlb := f k.dtlb, itlb := f k.itlb, stlb := f k.stlb }

def Core.lookup (k : Core) (c : WalkCtx) : Option TlbEntry :=
  ((if c.need.ispace then k.itlb else k.dtlb).find? (·.hits c)).or (k.stlb.find? (·.hits c))

/-- One piece of an access within a 4 KiB page. -/
structure Piece where
  va : Nat
  pa : Nat
  len : Nat
  slot : Byte
  nol3 : Bool
  cls : PClass
  via : Option TlbTag
  deriving DecidableEq, Repr

def Strand.walkCtx (s : Strand) (t : StrandId) (need : Need) (prv : BitVec 2) (va : Nat) : WalkCtx :=
  let sup := prv = 2#2 || prv = 3#2
  { t := t, part := s.part, sup := sup, s2on := !sup && s.s2tbr.getLsbD 0, user := prv = 0#2, need := need, va := va,
    asid := s.asid, root := if need.ispace then s.itbr else s.dtbr, s2root := s.s2tbr, eng := false, fresh := false }

/-- The checks of the final physical address (R232, items 6 and 7; R246, R252). -/
def Body.finalCheck (b : Body) (c : WalkCtx) (pa : Nat) (slot : Byte) (gpa : Nat) : Option TrapReq :=
  let cls := b.classOf pa
  let ok := match cls with
    | .memory | .far => true
    | .scratchpad => !c.need.ispace && !c.eng
    | _ => false
  let fault (r : Nat) := if c.s2on then trapStage2 c.va gpa c.need.kind r 0xF else c.pageFault r c.need.kind
  if !ok then some (fault 8)
  else if cls != .scratchpad && (tGet b.mem.slots slot.toNat).isNone then some (fault 9)
  else none

/-- A walk with the checks of R232 to their end. A stop by D alone leaves the translation to cache (R238). -/
def Body.walkChecked (b : Body) (c : WalkCtx) : Except (WStop × Option Xlat) Xlat :=
  match b.walkAll c with
  | .error w => .error (w, none)
  | .ok x =>
    let final := b.finalCheck c x.pa (if x.skey then 0 else c.part) x.gpa
    match x.dirty, final with
    | some r, none => .error ({ req := r }, some x)
    | some r, some _ => .error ({ req := r }, none)
    | none, some r => .error ({ req := r }, none)
    | none, none => .ok x

/-- What looking an address up comes to. -/
structure Looked where
  b : Body
  /-- The trap, or the physical address with SKEY and NOL3. -/
  out : Except TrapReq (Nat × Bool × Bool)
  /-- Translation to cache, one to discard, and the walk-cache entries to keep. -/
  learn : Option TlbEntry
  drop : Option TlbTag
  used : List WalkEntry

/-- Resolves an address from a cached translation or by walking (R235, R236, R238, R245). A cached translation that refuses the access,
or that the final checks refuse, is discarded; and no fault is reported but from leaves that a walk has just read. -/
def Body.look (b : Body) (c : WalkCtx) (hit : Option TlbEntry) : Looked :=
  let on1 := c.root.getLsbD 0
  let addr (e : TlbEntry) : Nat := e.ppn * 2 ^ (12 + 9 * e.tag.level.val) + c.va % 2 ^ (12 + 9 * e.tag.level.val)
  let usable := hit.filter fun e =>
    e.permits c && (b.finalCheck c (addr e) (if e.skey then 0 else c.part) 0).isNone
  let chosen := usable.filter fun e =>
    (match b.walkAll c with | .ok x => decide (c.entry x = e) && x.dirty.isNone | .error _ => false) || Config.freeWalk b.freeCtr 0
  match chosen with
  | some e => { b := b.spend, out := .ok (addr e, e.skey, e.nol3), learn := some e, drop := none, used := [] }
  | none =>
    let refused := hit.isSome && usable.isNone
    let first := b.walkChecked { c with fresh := refused }
    let r := match first with
      | .ok _ => first
      | .error _ => if refused then first else b.spend.walkChecked { c with fresh := true }
    let drop := hit.map (·.tag)
    match r with
    | .error (w, x) =>
      let b := match w.lost with
        | some l => b.loseLine l (if lineAddr l < memoryEnd then 1 else 2)
        | none => b
      { b := b.spend, out := .error w.req, learn := if on1 then x.map c.entry else none, drop := drop, used := [] }
    | .ok x =>
      { b := b.spend, out := .ok (x.pa, x.skey, x.nol3), learn := if on1 then some (c.entry x) else none, drop := drop, used := x.used }

/-- Translates one piece of an access (R221, R222, R232, R235, R236, R245). -/
def Body.translate1 (b : Body) (t : StrandId) (need : Need) (prv : BitVec 2) (va len : Nat) : TRes Piece :=
  let c := (b.strand t).walkCtx t need prv va
  let on1 := c.root.getLsbD 0
  if !need.ispace && on1 && !(va / 2 ^ 56 % 256 = 0 || va / 2 ^ 56 % 256 = 255) then .stop b (c.pageFault 4 need.kind)
  else if !need.ispace && !on1 && !(va < 2 ^ 52) then .stop b (c.pageFault 5 need.kind)
  else
    let x := b.look c (if on1 then (b.core (coreOf t)).lookup c else none)
    let b := x.b.modCore (coreOf t) fun k =>
      let k := match x.drop with | some g => k.uncache g | none => k
      let k := match x.learn with | some e => k.cache b.freeCtr e | none => k
      { k with walk := x.used.foldl (walkInsert b.freeCtr) k.walk }
    match x.out with
    | .error r => .stop b r
    | .ok (pa, skey, nol3) =>
      .ok b { va := va, pa := pa, len := len, slot := if skey then 0 else c.part, nol3 := nol3, cls := b.classOf pa,
              via := x.learn.map (·.tag) }

/-- Translates an access of `n` bytes, page by page, the lower page first (R108). Instruction addresses wrap at 48 bits, data addresses at 64. -/
def Body.translate (b : Body) (t : StrandId) (need : Need) (prv : BitVec 2) (va n : Nat) : TRes (List Piece) :=
  let top := if need.ispace then 2 ^ 48 else 2 ^ 64
  let n1 := min n (4096 - va % 4096)
  match b.translate1 t need prv va n1 with
  | .stop b r => .stop b r
  | .ok b p =>
    if n ≤ n1 then .ok b [p]
    else match b.translate1 t need prv ((va + n1) % top) (n - n1) with
      | .stop b r => .stop b r
      | .ok b q => .ok b [p, q]

/-- Privilege at which a data-space load or store is checked (R59, R221). -/
def Strand.dataPrv (s : Strand) : BitVec 2 :=
  if s.tl = 1 ∧ s.winTrap then s.trap1.info3.extractLsb' 2 2 else s.prv

/-! ## Invalidation (R240 to R243) -/

def InvalOp.hitsTag (o : InvalOp) (g : TlbTag) : Bool :=
  (match o.part with | some p => p = g.part | none => true) &&
  (match o.sup with | some r => r = g.sup | none => true) &&
  (match o.ispace with | some i => i = g.ispace | none => true) &&
  (match g.asid with
    | none => o.globals
    | some a => match o.asid with | some x => x = a | none => true) &&
  (match o.va with | some v => v.toNat % 2 ^ 57 / 2 ^ (12 + 9 * g.level.val) = g.vpn | none => true)

def InvalOp.hitsWalk (o : InvalOp) (e : WalkEntry) : Bool :=
  (match o.part with | some p => p = e.part | none => true) &&
  (if e.stage2 then o.stage2
   else
    (match o.sup with | some r => r = e.sup | none => true) &&
    (match o.ispace with | some i => i = e.ispace | none => true) &&
    (match o.asid with | some x => x = e.asid | none => true) &&
    (match o.va with | some v => v.toNat % 2 ^ 57 / 2 ^ (12 + 9 * e.level) = e.pre | none => true))

/-- Removes from a core what a TLBI or WCI selects (R241). -/
def Core.inval1 (k : Core) (o : InvalOp) : Core :=
  if o.wci then { k with walk := k.walk.filter fun e => !o.hitsWalk e }
  else
    let f (l : List TlbEntry) := l.filter fun x => !o.hitsTag x.tag
    { k with dtlb := f k.dtlb, itlb := f k.itlb, stlb := f k.stlb }

end Sys2Proof.Machine
end

