-- ==== Sys2Proof/Machine/Insn.lean ====
section
/-!
DEFINITION. How an instruction command runs: its occasion, the events due at its boundary, its fetch, its
outcome; and the loads and stores of a strand through L1, store buffer and L2 (chapters 2, 3, 6, 7).
-/

namespace Sys2Proof.Machine

/-- Outcome of an instruction's own effect. -/
inductive Res where
  /-- Completed; the next pc, or none for the following address. -/
  | ok (b : Body) (pc : Option (BitVec 48))
  /-- A trap whose CS.TPC is this instruction, which has had no effect but what `b` shows. -/
  | trap (b : Body) (r : TrapReq)
  /-- Completed, with a trap whose CS.TPC is the next instruction (R71). -/
  | next (b : Body) (r : TrapReq)
  /-- It waits: it has not executed and the strand stays at it. -/
  | hold (b : Body)

/-- Outcome of a data access. -/
inductive LRes (α : Type) where
  | ok (b : Body) (v : α)
  | hold (b : Body)
  | trap (b : Body) (r : TrapReq)

def LRes.then {α : Type} (x : LRes α) (f : Body → α → Res) : Res :=
  match x with
  | .ok b v => f b v
  | .hold b => .hold b
  | .trap b r => .trap b r

/-! ## Pieces of an access -/

/-- The part of a piece that lies in one line. -/
structure Seg where
  pa : Nat
  len : Nat
  slot : Byte
  nol3 : Bool
  cls : PClass
  via : Option TlbTag
  deriving DecidableEq, Repr

/-- Cuts a piece at line boundaries; `fuel` bounds their number. -/
def cutLines (p : Piece) : Nat → Nat → Nat → List Seg
  | 0, _, _ => []
  | fuel + 1, pa, len =>
    if len = 0 then []
    else
      let n := min len (128 - pa % 128)
      { pa := pa, len := n, slot := p.slot, nol3 := p.nol3, cls := p.cls, via := p.via } :: cutLines p fuel (pa + n) (len - n)

def segsOf (ps : List Piece) : List Seg := ps.flatMap fun p => cutLines p (p.len / 128 + 2) p.pa p.len

/-- The request of a strand's cluster for a line (R169, R189). -/
def Body.reqFor (b : Body) (t : StrandId) (l : Line) (slot : Byte) (nol3 write : Bool) : Req :=
  let s := b.strand t
  { cluster := clusterOfStrand t, line := l, write := write, l2mask := s.waymaskL2, l3mask := s.waymaskL3, slot := slot,
    nol3 := nol3, lock := false, part := s.part }

/-- Store-buffer bytes of a strand laid over bytes read from `pa` on; the youngest store wins (R196, R197). -/
def forward (sb : List StoreEntry) (pa : Nat) (bs : List Byte) : List Byte :=
  (List.range bs.length).map fun i =>
    let a := pa + i
    match sb.reverse.find? fun e => e.pa ≤ a && a < e.pa + e.bytes.length with
    | some e => e.bytes.getD (a - e.pa) 0
    | none => bs.getD i 0

/-- Is the L1D, or the L1I, of the strand's core enabled (R190)? -/
def Body.l1On (b : Body) (t : StrandId) (fetch : Bool) : Bool :=
  (b.cluster (clusterOfStrand t)).l2e &&
    (if fetch then (b.core (coreOf t)).l1ie else (b.core (coreOf t)).l1de)

/-- The strand parks on a line, which its cluster requests when its L2 does not hold it (R173). -/
def Body.park (b : Body) (t : StrandId) (l : Line) (fetch : Bool) (slot : Byte) (nol3 : Bool) : Body :=
  let b := b.modStrand t fun s => { s with act := .parked l fetch slot nol3 }
  match b.l2Has (clusterOfStrand t) l with
  | some _ => b
  | none => b.postReq (b.reqFor t l slot nol3 false)

def Body.lose (b : Body) (w : WStop) : Body :=
  match w.lost with
  | some l => b.loseLine l (if lineAddr l < memoryEnd then 1 else 2)
  | none => b

/-- Bytes of one segment through the L1, or past a disabled level (R173, R179, R191). -/
def Body.readSeg (b : Body) (t : StrandId) (g : Seg) (fetch : Bool) : LRes (List Byte) :=
  let l := lineNo g.pa
  match b.dataCheck t g.cls g.pa with
  | some w => .trap (b.lose w) w.req
  | none =>
    if g.cls = .scratchpad then .ok b ((b.cluster (b.spadHome t)).spadRead (spadOffset g.pa) g.len)
    else
    let k := b.core (coreOf t)
    if b.cutOff (halfOfStrand t) g.pa && !(b.cluster (clusterOfStrand t)).l2e then .hold b
    else if b.l1On t fetch then
      match l1Find (if fetch then k.l1i else k.l1d) l with
      | some (k, e) => .ok (b.useL1 (coreOf t) fetch k) (lineGet e.data (g.pa % 128) g.len)
      | none => .hold (b.park t l fetch g.slot g.nol3)
    else if (b.cluster (clusterOfStrand t)).l2e then
      match b.l2Has (clusterOfStrand t) l with
      | some (k, e) => .ok (b.useL2 (clusterOfStrand t) k) (lineGet e.data (g.pa % 128) g.len)
      | none => .hold (b.park t l fetch g.slot g.nol3)
    else
      let r := b.dmaLine l g.slot
      .ok r.2 (lineGet r.1 (g.pa % 128) g.len)

/-- Bytes of all segments in order; the strand's own buffered stores are seen (R196). -/
def Body.readSegs (b : Body) (t : StrandId) : List Seg → LRes (List Byte)
  | [] => .ok b []
  | g :: r =>
    match b.readSeg t g false with
    | .ok b bs =>
      match Body.readSegs b t r with
      | .ok b' rest => .ok b' (forward (b.strand t).sb g.pa bs ++ rest)
      | .hold b' => .hold b'
      | .trap b' q => .trap b' q
    | .hold b => .hold b
    | .trap b q => .trap b q

/-- The store-buffer entries of a store, one a line. -/
def storeEntries : List Seg → List Byte → List StoreEntry
  | [], _ => []
  | g :: r, bs => { pa := g.pa, bytes := bs.take g.len, slot := g.slot, nol3 := g.nol3, via := g.via } ::
      storeEntries r (bs.drop g.len)

/-- Puts a store into the store buffer; a full buffer stalls the strand (R197). -/
def Body.bufferStore (b : Body) (t : StrandId) (gs : List Seg) (bs : List Byte) : Option Body :=
  let s := b.strand t
  if s.sb.length + gs.length ≤ 16 then some (b.setStrand t { s with sb := s.sb ++ storeEntries gs bs }) else none

/-- The access of a store to a line of the other half during SPLIT (R464). -/
def Body.storeCheck (b : Body) (t : StrandId) (gs : List Seg) : Option TrapReq :=
  gs.findSome? fun g =>
    if g.cls != .scratchpad && b.unreachable (halfOfStrand t) g.pa then
      some (trapMachine (b.homeLoc g.pa) 6 (lineAddr (lineNo g.pa)))
    else none

/-- Translates and reads `n` bytes of data space (R95, R107, R108). -/
def Body.loadVa (b : Body) (t : StrandId) (need : Need) (prv : BitVec 2) (va n : Nat) : LRes (List Byte) :=
  match b.translate t need prv va n with
  | .stop b r => .trap b r
  | .ok b ps => b.readSegs t (segsOf ps)

/-- Translates and checks a store of `n` bytes; the segments it will write. -/
def Body.storeVa (b : Body) (t : StrandId) (need : Need) (prv : BitVec 2) (va n : Nat) : LRes (List Seg) :=
  match b.translate t need prv va n with
  | .stop b r => .trap b r
  | .ok b ps =>
    let gs := segsOf ps
    match b.storeCheck t gs with
    | some r => .trap b r
    | none => .ok b gs

/-- A plain store (R111, R197). -/
def Body.plainStore (b : Body) (t : StrandId) (need : Need) (prv : BitVec 2) (va : Nat) (bs : List Byte) :
    LRes Unit :=
  match b.storeVa t need prv va bs.length with
  | .trap b r => .trap b r
  | .hold b => .hold b
  | .ok b gs =>
    match b.bufferStore t gs bs with
    | some b => .ok b ()
    | none => .hold b

/-! ## Performing a store (R167, R171, R195, R450, R553) -/

/-- Result of an attempt to perform bytes within one line. -/
inductive Performed where
  | yes (b : Body)
  /-- The line is requested for write and the store waits. -/
  | wait (b : Body)
  /-- The line cannot be had: the MACHINE_CHECK it leads to. -/
  | lost (b : Body) (w : WStop)

/-- The L1 copies of a line that a store has changed: the storing core's L1D is updated, the others of the cluster lose theirs (R167, R170). -/
def Body.storeL1 (b : Body) (t : StrandId) (l : Line) (d : LineData) : Body :=
  let c := clusterOfStrand t
  { b with cores := Vector.ofFn fun k =>
           if clusterOf k = c ∧ (b.cores[k]).l1de then
           if k = coreOf t then
           { b.cores[k] with l1d := (b.cores[k]).l1d.map fun e => if e.2.line = l then (e.1, { e.2 with data := d }) else e }
           else { b.cores[k] with l1d := l1Del (b.cores[k]).l1d l }
           else b.cores[k] }

/-- Performs bytes within one line for a strand (R195). A cluster without L2 writes at the home, once no hold defers that (R217). -/
def Body.perform (b : Body) (t : StrandId) (g : Seg) (bs : List Byte) : Performed :=
  let l := lineNo g.pa
  let c := clusterOfStrand t
  match b.dataCheck t g.cls g.pa with
  | some w => .lost (b.lose w) w
  | none =>
  if g.cls = .scratchpad then
    let h := b.spadHome t
    let b := b.spadWrite h (spadOffset g.pa) bs
    .yes (b.mapStrands fun u s =>
      if s.resv = some (granuleOf g.pa) ∧ (s.spHome.getD (clusterOfStrand u)) = h then s.endResv else s)
  else
    if b.cutOff (halfOfStrand t) g.pa && !(b.cluster c).l2e then .wait b
    else if !(b.cluster c).l2e then if b.lineHeld l then .wait b else .yes (b.homeStore g.pa bs g.slot false)
    else match b.l2Has c l with
    | some (k, e) =>
      if e.writable then
        let d := lineSet e.data (g.pa % 128) bs
        let b := if (b.mirrored g.pa).isSome then
            (b.setL2 c k { e with data := d, st := .e }).homeAccept l d g.slot g.nol3 0xFFFF 0 false |>.1
          else b.setL2 c k { e with data := d, st := .m }
        .yes (((b.useL2 c k).storeL1 t l d).endResvAt g.pa)
      else .wait (b.postReq (b.reqFor t l g.slot g.nol3 true))
    | none => .wait (b.postReq (b.reqFor t l g.slot g.nol3 true))

/-- The oldest store of the buffer leaves it when it can be performed (R197); a store at a lost line is
discarded and reported at the next boundary (R553). -/
def Body.drainOne (b : Body) (t : StrandId) : Body :=
  match (b.strand t).sb with
  | [] => b
  | e :: rest =>
    let g : Seg := { pa := e.pa, len := e.bytes.length, slot := e.slot, nol3 := e.nol3, cls := b.classOf e.pa, via := e.via }
    let pop (b : Body) : Body := b.modStrand t fun s => { s with sb := rest }
    match b.perform t g e.bytes with
    | .yes b => pop b
    | .wait b => b
    | .lost b w =>
      let loc := w.req.info0
      let kind := if w.req.info1 = 6 then 6 else 7
      let pa := lineAddr (lineNo e.pa)
      let b := (pop b).report (loc.setWidth 16) 0x0301 (dataOf [(1, kind), (7, 0), (8, pa)])
      b.modStrand t fun s => { s with mcheck := s.mcheck.or (some (loc, kind, BitVec.ofNat 64 pa)) }

/-! ## Running an instruction -/

/-- Is the strand running and ready for an instruction? -/
def Strand.ready (s : Strand) : Bool := s.run = .running && s.act = .ready && s.micro.isNone

/-- The fetch of the instruction's bytes: translation as kind 5, and the lines that cannot be delivered
(R91, R98, R232, R437). Stale bytes are the command's own (R99). -/
def Body.fetchCheck (b : Body) (t : StrandId) (len : Nat) : TRes Unit :=
  let s := b.strand t
  match b.translate t needFetch s.prv s.pc.toNat len with
  | .stop b r => .stop b r
  | .ok b ps =>
    match (segsOf ps).findSome? fun g => b.lineCheck t g.pa false with
    | some w => .stop (b.lose w) w.req
    | none => .ok b ()

/-- The instruction bytes in the information of ILLEGAL_INSTRUCTION and PRIVILEGED_INSTRUCTION (R71). -/
def fillBytes (r : TrapReq) (bytes : W) : TrapReq :=
  if r.cause = 0x01 ∨ r.cause = 0x02 then { r with info0 := bytes } else r

/-- The strand has completed an instruction: the next pc, and the count of R163. -/
def Strand.retire (s : Strand) (pc : BitVec 48) (wasPending : Bool) : Strand :=
  { s with pc := pc, oldSlip := false, fpCount := if wasPending ∧ s.tl = 0 then s.fpCount + 1 else s.fpCount }

/-- What the outcome of an instruction of length `len` at the boundary state `b0` does to the strand. -/
def Body.settle (b0 : Body) (t : StrandId) (len : Nat) (bytes : W) (x : Res) : Body :=
  let s0 := b0.strand t
  let seq := s0.pc + BitVec.ofNat 48 len
  match x with
  | .ok b pc => b.modStrand t fun s => s.retire (pc.getD seq) s0.pend
  | .trap b r => b0.trapOrFp b t (fillBytes r bytes) s0.pc false
  | .next b r => b0.trapOrFp (b.modStrand t fun s => s.retire seq s0.pend) t r seq true
  | .hold b => b

/-- The event that is due at the strand's boundary before its instruction executes, interrupts included (R68, items 1 to 7). -/
def Body.dueFirst (b : Body) (t : StrandId) (forced : Bool) : Option Body := (b.boundary t forced).or (b.takeInterrupt t)

/-- Runs an instruction of a strand. A strand that does not run, or waits, has no occasion for it (log entry 4). An
event due at the boundary is taken in its place (R68); then its fetch is checked (R91); then it executes. -/
def Body.runInsn (b : Body) (t : StrandId) (i : Instr) (x : Body → Res) (forced : Bool := false) : Body :=
  if !(b.strand t).ready then b
  else match b.dueFirst t forced with
  | some b => b
  | none =>
    match b.fetchCheck t (lenOf i) with
    | .stop b r => b.trapOrFp b t r (b.strand t).pc false
    | .ok b () => b.settle t (lenOf i) (insnBytes i) (x b)

/-- An instruction as a command. -/
def insn (t : StrandId) (i : Instr) (x : Body → Res) (forced : Bool := false) (s : State) : Out :=
  onBody (fun b => b.runInsn t i x forced) s

/-- Raises PRIVILEGED_INSTRUCTION below privilege `p` (R72, item 3). -/
def needPrv (b : Body) (t : StrandId) (p : Nat) (x : Res) : Res :=
  if (b.strand t).prv.toNat < p then .trap b trapPrivileged else x

def illegal (b : Body) : Res := .trap b trapIllegal

/-- An interior commit of a ROM routine: the strand stays at its instruction, and makes a pending slip switch (R266, R267, R273). -/
def Body.interiorCommit (b : Body) (t : StrandId) : Res := .hold (b.modStrand t fun s => { s with oldSlip := false })

/-- Completion with one register written. -/
def doneReg (b : Body) (t : StrandId) (rd : Reg) (v : W) : Res := .ok (b.modStrand t fun s => s.setReg rd v) none

end Sys2Proof.Machine
end

