-- ==== Sys2Proof/Machine/Events.lean ====
section
/-!
DEFINITION. The delivery of interrupts, and the events of a strand's boundary that are commands of their own
(R66 to R69, R115, R163, R357, R554).
-/

namespace Sys2Proof.Machine

/-- Takes the first event due at the strand's boundary, if any (R68). -/
def Body.takeDue (b : Body) (t : StrandId) : Body :=
  if !(b.strand t).interruptible then b
  else match b.boundary t false with
  | some b => b
  | none => (b.takeInterrupt t).getD b

def execInterruptTaken (t : StrandId) (s : State) : Out := onBody (fun b => b.takeDue t) s

/-- The same choice, when a fast event is among those due (R57, R66). -/
def execFastInterrupt (t : StrandId) (s : State) : Out :=
  onBody (fun b => if (b.strand t).takes false true && !(b.sources t .fast).isEmpty then b.takeDue t else b) s

/-- CS.TOD reaches CS.TCMP of the target, which asserts the source; when enabled, it is taken (R67). -/
def execTimer (t : StrandId) (tgt : TimerTarget) (s : State) : Out :=
  onBody (fun b =>
    let cmp := match tgt with | .k => (b.strand t).tcmpK | .s => (b.strand t).tcmpS
    (b.reach (halfOfStrand t) cmp.toNat).takeDue t) s

/-- FP_DEFERRED at a boundary of the module's choice (R163). -/
def execFpDeferred (t : StrandId) (s : State) : Out :=
  onBody (fun b =>
    let u := b.strand t
    if u.interruptible && u.tl = 0 && u.pend then b.deliverFp t else b) s

/-- Delivery of the held event at the first boundary at TL 0 (R554); FP_DEFERRED and MACHINE_CHECK come first (R68). -/
def execHeldEvent (t : StrandId) (s : State) : Out :=
  onBody (fun b =>
    let u := b.strand t
    if u.interruptible && u.tl = 0 && u.held.isSome then (b.boundary t true).getD b else b) s

def execCompletionEventDelay (sl : SliceId) (s : State) : Out :=
  onBody (fun b =>
    let x := b.slice sl
    match x.delayEnd with
    | some e => if x.st != .free && x.arm then b.reach (b.servingHub sl x.part) e else b
    | none => b) s

/-! ## WAIT (R115) -/

/-- Does anything complete a WAIT: a pending bit, whatever the privilege shows of it, or a machine check? -/
def Body.wakes (b : Body) (t : StrandId) : Bool := b.ipend t != 0 || (b.strand t).mcheck.isSome

def waitRes (b : Body) (t : StrandId) : Res :=
  if (b.strand t).tl ≠ 0 then illegal b
  else needPrv b t 1 <|
    if b.wakes t then .ok b none else .hold (b.modStrand t fun s => { s with act := .waiting })

def execWait (t : StrandId) (s : State) : Out := insn t (.wait t) (fun b => waitRes b t) true s

/-- Completes an instruction that waited: the strand goes on at the following address. -/
def Body.complete (b : Body) (t : StrandId) (len : Nat) : Body :=
  b.modStrand t fun s => { s with act := .ready }.retire (s.pc + BitVec.ofNat 48 len) s.pend

def execWaitWake (t : StrandId) (s : State) : Out :=
  onBody (fun b =>
    let u := b.strand t
    if u.run = .running && u.act = .waiting && b.wakes t then b.complete t 6 else b) s

end Sys2Proof.Machine
end

