-- ==== Sys2Proof/Machine/Tickets.lean ====
section
/-! DEFINITION. Mode codes, the Flelet reply header, and tickets (R468, R496, R500 to R502). -/

namespace Sys2Proof.Machine

/-- Mode code (R468). -/
def modeCode : Mode → Nat
  | .standby => 0
  | .proving => 1
  | .fallow => 2
  | .operating => 3
  | .exposed => 4
  | .split => 5

/-- Half-state code (R468). -/
def halfCode : HalfSt → Nat
  | .none => 0
  | .lead => 1
  | .fenced => 2

/-- In OPERATING, EXPOSED and SPLIT, strands, engines and ports run (R46). -/
def Body.serving (b : Body) : Bool :=
  match b.ctl.mode with
  | .operating | .exposed | .split => true
  | _ => false

/-- The half-state that island `h` reports. -/
def Body.halfOf (b : Body) (h : HubId) : HalfSt := if b.isSplit then (b.ctl.halves[h]).half else .none

/-- Status codes (R498). -/
def stDone : Byte := 0x00
def stStarted : Byte := 0x01
def stPartial : Byte := 0x02
def stUnknownOpcode : Byte := 0x10
def stBadLength : Byte := 0x11
def stBadParameter : Byte := 0x12
def stNotInThisMode : Byte := 0x13
def stBusy : Byte := 0x14
def stNotReady : Byte := 0x15
def stTicketUnknown : Byte := 0x16
def stNotAuthorised : Byte := 0x20
def stSignatureBad : Byte := 0x21
def stHardwareFault : Byte := 0x30

/-- The 32-byte header of a reply (R496). -/
def replyHeader (b : Body) (island : HubId) (opcode : BitVec 16) (status detail : Byte) (sequence session : BitVec 32)
    (plen ticket : Nat) : List Byte :=
  pack [(2, 0x464C), (1, 1), (1, 1), (2, opcode.toNat), (1, status.toNat), (1, detail.toNat), (4, sequence.toNat),
        (4, session.toNat), (4, plen), (4, ticket), (1, modeCode b.ctl.mode), (1, halfCode (b.halfOf island)),
        (1, island.val), (5, 0)]

/-- A reply's header with another status and length: the result of a ticket from its STARTED reply (R502). -/
def resultOf (hdr : List Byte) (status detail : Byte) (params : List Byte) : List Byte :=
  hdr.take 6 ++ [status, detail] ++ slice hdr 8 8 ++ leBytes 4 params.length ++ slice hdr 20 12 ++ params

/-- A ticket that island `h` holds (R501). -/
def Ticket.heldBy (t : Ticket) (h : HubId) : Bool := t.holder.getD h = h

/-- A ticket leaves island `h`: in SPLIT, one that both islands hold stays with the other (R501). -/
def ticketLeaves (split : Bool) (h : HubId) (t : Ticket) (ts : List Ticket) : List Ticket :=
  if split && t.holder.isNone then ts.map fun x => if x.num = t.num then { x with holder := some (otherHub h) } else x
  else ts.filter (·.num != t.num)

/-- The tickets that are left when one is issued, oldest first (R501); none when there is no room. -/
def makeRoom (split : Bool) (h : HubId) : Nat → List Ticket → Option (List Ticket)
  | 0, _ => none
  | fuel + 1, ts =>
    if (ts.filter (·.heldBy h)).length < 64 then some ts
    else match ts.find? (·.heldBy h) with
      | some t => if t.result.isSome then makeRoom split h fuel (ticketLeaves split h t ts) else none
      | none => some ts

/-- Number of the ticket that island `h` issues next. -/
def Body.nextTicket (b : Body) (h : HubId) : Nat := h.val * 2147483648 + ((b.ctl.islands[h]).tickets + 1) % 2147483648

/-- Issues a ticket (R501). None when the long command receives BUSY. -/
def Body.issueTicket (b : Body) (h : HubId) (role : Role) (opcode : BitVec 16) (hdr : List Byte) : Option Body :=
  match makeRoom b.isSplit h (b.ctl.tickets.length + 1) b.ctl.tickets with
  | none => none
  | some ts =>
    let t : Ticket :=
      { num := BitVec.ofNat 32 (b.nextTicket h), role := role, opcode := opcode, hdr := hdr, result := none, read := false,
        holder := if b.isSplit then some h else none }
    some (b.modCtl fun c => { c with
      tickets := ts ++ [t]
      islands := c.islands.set h { c.islands[h] with tickets := (c.islands[h]).tickets + 1 } })

/-- A running ticket finishes with a result (R502). A finished or unknown ticket is left alone. -/
def Body.finishTicket (b : Body) (num : BitVec 32) (status detail : Byte) (params : List Byte) : Body :=
  b.modCtl fun c => { c with
    tickets := c.tickets.map fun t =>
      if t.num = num ∧ t.result.isNone then { t with result := some (resultOf t.hdr status detail params) } else t }

/-- A running ticket ends with NOT_IN_THIS_MODE, naming the present mode (R500). -/
def Body.ticketWrongMode (b : Body) (num : BitVec 32) : Body :=
  b.modCtl fun c => { c with
    tickets := c.tickets.map fun t =>
      if t.num = num ∧ t.result.isNone then
        let r := resultOf t.hdr stNotInThisMode 0 []
        { t with result := some (r.take 24 ++ [BitVec.ofNat 8 (modeCode c.mode), 0] ++ r.drop 26) }
      else t }

/-- HARDWARE_FAULT with the location code of the failing unit (R497). -/
def Body.ticketFault (b : Body) (num : BitVec 32) (loc : BitVec 16) : Body :=
  b.finishTicket num stHardwareFault 0 (leBytes 2 loc.toNat)

end Sys2Proof.Machine
end

