-- ==== Sys2Proof/Machine/Rings.lean ====
section
/-!
DEFINITION. What every engine shares: the journal's copies, the translation of an owner's addresses, reads and tagged
writes of memory, and the completion ring (chapters 11 and 12).
-/

namespace Sys2Proof.Machine

/-! ## Channel engines (R326, R342) -/

def chanIx (h : HubId) (n : Fin 16) : Fin 32 := ⟨h.val * 16 + n.val, by omega⟩
def Body.chan (b : Body) (h : HubId) (n : Fin 16) : ChanEng := b.io.chans[chanIx h n]
def Body.chanUp (b : Body) (h : HubId) (n : Fin 16) : Bool :=
  (b.chan h n).service = .inService && !b.ctl.lostHubs.contains h

/-- ENGINE of a journal entry (R317). -/
def engineByte (e : HubId × Fin 16) : Byte := BitVec.ofNat 8 (e.1.val * 128 + e.2.val)
def engineOf (x : Byte) : HubId × Fin 16 := (if x.getLsbD 7 then 1 else 0, ⟨x.toNat % 16, by omega⟩)

/-- The engine that reads a slice's submission ring (R326, R342). -/
def Body.ringEngine (b : Body) (s : SliceId) : Option (HubId × Fin 16) :=
  let h := b.servingHub s (b.slice s).part
  let n : Fin 16 := ⟨s.val % 16, by omega⟩
  if b.chanUp h n then some (h, n)
  else match (b.chan h n).takeover with
    | some e => if b.chanUp e.1 e.2 then some e else none
    | none => none

/-! ## The journal (R316 to R320, R461) -/

/-- Is a hub's copy of the journal in service (R445, R447)? -/
def Body.journalUp (b : Body) (h : HubId) : Bool := !b.ctl.lostHubs.contains h && !b.ctl.hubCopies.contains (h, .journal)

/-- The hub that handles an entry: the one that serves its slice (R343, R447, R459, R461). -/
def Body.entryHub (b : Body) (e : JEntry) : HubId :=
  b.servingHub ⟨e.slice.toNat, by have := e.slice.isLt; omega⟩ e.part

/-- The live entry of an outstanding transaction. In SPLIT it is the copy of the half that handles it (R461). -/
def Body.jGet (b : Body) (ix : Nat) : Option JEntry :=
  ([0, 1] : List HubId).findSome? fun h =>
    match tGet b.io.journal[h] ix with
    | some e => if e.st != 0 && b.journalUp h && (!b.isSplit || b.entryHub e = h) then some e else none
    | none => none

/-- Writes an entry to both halves, or, in SPLIT, to the half that handles it (R316, R461). -/
def Body.jPut (b : Body) (ix : Nat) (e : JEntry) : Body :=
  b.modIo fun i => { i with journal := Vector.ofFn fun h =>
                            if b.journalUp h && (!b.isSplit || b.entryHub e = h) then tPut i.journal[h] ix e else i.journal[h] }

def Body.jMod (b : Body) (ix : Nat) (f : JEntry → JEntry) : Body :=
  match b.jGet ix with
  | some e => b.jPut ix (f e)
  | none => b

/-- An entry as its half holds it, whatever its state (R317). -/
def Body.jRaw (b : Body) (ix : Nat) : Option JEntry :=
  ([0, 1] : List HubId).findSome? fun h => if b.journalUp h then tGet b.io.journal[h] ix else none

/-- Indices and entries of the outstanding transactions (R319). -/
def Body.outstanding (b : Body) : List (Nat × JEntry) :=
  let ixs := ((b.io.journal[(0 : HubId)]).map (·.1)) ++
    ((b.io.journal[(1 : HubId)]).map (·.1)).filter fun k => (tGet b.io.journal[(0 : HubId)] k).isNone
  ixs.filterMap fun ix => (b.jGet ix).map fun e => (ix, e)

/-- A durable checkpoint (R321). -/
def JEntry.checkpoint (e : JEntry) : JEntry := { e with ckseq := e.ckseq + 1 }

def JEntry.orphan (e : JEntry) : Bool := e.jflags.getLsbD 1

/-- Key of a subchannel: its slice and image (R281). -/
def subchKey (sl image : Nat) : Nat := sl * 4096 + image

def JEntry.subchKey (e : JEntry) : Nat := Machine.subchKey e.slice.toNat e.subch.toNat

def Body.subch (b : Body) (key : Nat) : Option Subch := tGet b.io.subchs key
def Body.modSubch (b : Body) (key : Nat) (f : Subch → Subch) : Body := b.modIo fun i => { i with subchs := tMod i.subchs key f }

def Body.running (b : Body) (ix : Nat) : Option Running := b.io.running.find? (·.ix = ix)
def Body.modRunning (b : Body) (ix : Nat) (f : Running → Running) : Body :=
  b.modIo fun i => { i with running := i.running.map fun r => if r.ix = ix then f r else r }

def Body.senseHeld (b : Body) (key : Nat) : Bool := match b.subch key with | some c => c.sense.isSome | none => false

/-- A transaction retires: its entry is free and its subchannel IDLE (R286, R319, R323). -/
def Body.retire (b : Body) (ix : Nat) : Body :=
  match b.jGet ix with
  | none => b
  | some e =>
    let b := (b.jPut ix { e with st := 0 }.checkpoint).modSubch e.subchKey fun c => { c with busy := false }
    b.modIo fun i => { i with
      running := i.running.filter (·.ix != ix)
      cmds := i.cmds.map fun c => if c.who = .txn ix then { c with live := false } else c }

/-- Places the final record of an orphan in the queue of the hub that serves its slice, when it has room (R334, R335). -/
def Body.toOrphan (b : Body) (ix : Nat) : Body :=
  match b.jGet ix with
  | none => b
  | some e =>
    let h := b.entryHub e
    let q := b.io.orphans[h]
    if q.length < 4096 ∧ !q.any (·.ix = ix) then
      let o : Orphan :=
        { ix := ix, final := e.final.set 31 ((e.final.getD 31 0) &&& 0x7F), slice := e.slice.setWidth 16, gen := e.gen,
          part := e.part, asid := e.asid, tod := BitVec.ofNat 64 (((b.running ix).map (·.resetTod)).getD 0) }
      b.modIo fun i => { i with orphans := i.orphans.set h (q ++ [o]) }
    else b

/-! ## The key table (R392, R462) -/

/-- The copy of the key table that hub `h` uses: its own in SPLIT, else one that is in service. -/
def Body.keyTable (b : Body) (h : HubId) : Table KeyEntry :=
  if !b.isSplit && (b.ctl.lostHubs.contains h || b.ctl.hubCopies.contains (h, .keyTable)) then b.io.keys[otherHub h]
  else b.io.keys[h]

/-- Changes an entry, in both copies, or, in SPLIT, in that of hub `h`. -/
def Body.putKey (b : Body) (h : HubId) (ix : Nat) (e : KeyEntry) : Body :=
  b.modIo fun i => { i with keys := Vector.ofFn fun k => if !b.isSplit || k = h then tPut i.keys[k] ix e else i.keys[k] }

/-- Key entries that a partition holds (R392, R400). -/
def Body.keysHeld (b : Body) (h : HubId) (p : Byte) : Nat := ((b.keyTable h).filter fun e => e.2.live && e.2.part = p).length

/-- The live entry that a handle names. -/
def Body.keyOf (b : Body) (h : HubId) (handle : BitVec 32) : Option KeyEntry :=
  match tGet (b.keyTable h) (handle.toNat % 65536) with
  | some e => if e.live && e.seq.toNat = handle.toNat / 65536 && handle.toNat % 65536 != 0 then some e else none
  | none => none

/-- Length of the key material of a type (R393, R395); none where the standard's encoding decides. -/
def keyLen (ktype : Byte) : Option Nat :=
  match ktype.toNat with
  | 1 => some 16
  | 2 | 5 => some 32
  | 3 => some 64
  | 12 => some 32
  | 13 => some 48
  | 14 | 20 | 21 | 22 => some 32
  | 16 | 17 | 18 => some 64
  | _ => none

/-- Is a length of key material right for its type? -/
def keyLenOk (ktype : Byte) (n : Nat) : Bool :=
  match keyLen ktype with
  | some k => n = k
  | none => if ktype = 4 then 16 ≤ n && n ≤ 128 else 1 ≤ n && n ≤ 2048

/-- Usage bits that a type may carry, none for no type (R393). -/
def keyUsages (ktype : Byte) : Option Byte :=
  match ktype.toNat with
  | 1 | 2 | 5 => some 0x13
  | 3 => some 0x33
  | 4 | 12 | 13 | 14 | 20 | 21 | 22 => some 0x1C
  | 8 | 9 | 10 => some 0x1F
  | 16 | 17 | 18 => some 0x13
  | _ => none

def keyKindOk (ktype usage : Byte) : Bool :=
  match keyUsages ktype with
  | some m => usage &&& ~~~m = 0
  | none => false

/-- A new entry under a free index, with its handle (R392, R462): 1 when the quota, 2 when the table has no room. -/
def Body.newKey (b : Body) (h : HubId) (ktype usage part : Byte) (asid : BitVec 16) (material : Config.KeyVal) :
    Except Byte (BitVec 32) × Body :=
  let t := b.keyTable h
  let free (k : Nat) : Bool := k != 0 && k < 65536 && (!b.isSplit || k % 2 = h.val) &&
    (match tGet t k with | some e => !e.live | none => true)
  if (b.part part).kquota.toNat ≤ b.keysHeld h part then (.error 1, b)
  else
    let k0 := Config.freeNat b.freeCtr % 65536
    match (if free k0 then some k0 else (List.range 65536).find? free) with
    | none => (.error 2, b)
    | some k =>
      let seq := match tGet t k with
        | some e => e.seq + 1
        | none => (Config.freeW b.freeCtr).setWidth 16
      let e : KeyEntry := { seq := seq, live := true, ktype := ktype, usage := usage, part := part, asid := asid, material := material }
      (.ok (BitVec.ofNat 32 (seq.toNat * 65536 + k)), (b.putKey h k e).spend)

/-! ## Engine translation (R360, R361) -/

/-- Whose memory an engine reaches, and from which half. -/
structure Owner where
  slice : SliceId
  part : Byte
  asid : BitVec 16
  root : W
  gen : BitVec 16
  half : HubId
  /-- The channel engine that makes the accesses (R326). -/
  eng : Option (HubId × Fin 16) := none
  deriving DecidableEq, Repr

/-- Why an engine access fails: a reason of R230 or R350, or a lost line at a physical address (R437). -/
inductive EngErr where
  | fault (reason : Byte)
  | lost (pa : Nat)
  deriving DecidableEq, Repr

/-- REASON of a ring fault (R350). -/
def EngErr.reason : EngErr → Byte
  | .fault r => r
  | .lost _ => 0xF7

abbrev Eng (α : Type) := Body × Except EngErr α

def Body.ownerOf (b : Body) (s : SliceId) (gen : BitVec 16) (half : HubId) : Owner :=
  let x := b.slice s
  { slice := s, part := x.part, asid := x.asid, root := x.s1root, gen := gen, half := half }

/-- Whose memory a transaction reaches (R334, R360). -/
def Body.txOwner (b : Body) (j : JEntry) (r : Running) : Owner :=
  { slice := ⟨j.slice.toNat, by have := j.slice.isLt; omega⟩, part := j.part, asid := j.asid, root := r.root, gen := j.gen,
    half := if b.isSplit then b.entryHub j else (engineOf j.engine).1, eng := some (engineOf j.engine) }

/-- Reason of a walk's fault as an engine records it (R350). -/
def engReason (r : TrapReq) : Byte :=
  if r.cause = 0x05 then 0xF4
  else if r.cause = 0x06 then 0xF5
  else if r.cause = 0x07 then 0xF6
  else if r.cause = 0x15 then r.info2.extractLsb' 8 8
  else r.info1.extractLsb' 8 8

/-- A walk's fault as an engine access meets it; a table entry in a lost line is a lost line (R379, R437). -/
def engErr (r : TrapReq) : EngErr := if r.cause = 0x31 then .lost r.info2.toNat else .fault (engReason r)

/-- The walk of an engine access: at U with US required, or at S in the supervisor regime for partition 0 (R360). -/
def Body.engCtx (b : Body) (o : Owner) (need : Need) (va : Nat) : WalkCtx :=
  let s2 := (b.part o.part).s2root
  { t := if o.half = 0 then 0 else 288, part := o.part, sup := o.part = 0, s2on := o.part != 0 && s2.getLsbD 0,
    user := o.part != 0, need := need, va := va, asid := o.asid, root := o.root, s2root := s2, eng := true, fresh := false }

/-- Caches a translation with its slice (R361). -/
def Body.engCache (b : Body) (s : SliceId) (e : TlbEntry) : Body :=
  b.modIo fun i => { i with etlb := tPut i.etlb s.val (e :: ((tGet i.etlb s.val).getD []).filter (·.tag != e.tag)) }

/-- Discards one of a slice's engine translations (R236). -/
def Body.engUncache (b : Body) (s : SliceId) (g : TlbTag) : Body :=
  b.modIo fun i => { i with etlb := tMod i.etlb s.val fun l => l.filter (·.tag != g) }

/-- Forgets a slice's engine translations (R361). -/
def Body.engForget (b : Body) (s : SliceId) : Body := b.modIo fun i => { i with etlb := tDel i.etlb s.val }

/-- Translates one piece of an engine access within a 4 KiB page (R360, R361). -/
def Body.engXlat (b : Body) (o : Owner) (need : Need) (va len : Nat) : Eng Piece :=
  let c := b.engCtx o need va
  let on1 := c.root.getLsbD 0
  if on1 && !(va / 2 ^ 56 % 256 = 0 || va / 2 ^ 56 % 256 = 255) then (b, .error (.fault 4))
  else if !on1 && !(va < 2 ^ 52) then (b, .error (.fault 5))
  else
    let cached := on1 && decide (o.gen = (b.slice o.slice).gen)
    let x := b.look c (if cached then ((tGet b.io.etlb o.slice.val).getD []).find? (·.hits c) else none)
    let b := match x.drop with | some g => x.b.engUncache o.slice g | none => x.b
    let b := match x.learn with | some e => if cached then b.engCache o.slice e else b | none => b
    match x.out with
    | .error r => (b, .error (engErr r))
    | .ok (pa, skey, nol3) =>
      (b, .ok { va := va, pa := pa, len := len, slot := if skey then 0 else o.part, nol3 := nol3, cls := b.classOf pa,
                via := x.learn.map (·.tag) })

/-- Translates an engine access of `n` bytes page by page, in ascending order; `fuel` bounds the pages. -/
def Body.engPieces (b : Body) (o : Owner) (need : Need) : Nat → Nat → Nat → Eng (List Piece)
  | 0, _, _ => (b, .ok [])
  | fuel + 1, va, n =>
    if n = 0 then (b, .ok [])
    else
      let n1 := min n (4096 - va % 4096)
      match b.engXlat o need (va % 2 ^ 64) n1 with
      | (b, .error e) => (b, .error e)
      | (b, .ok p) =>
        match Body.engPieces b o need fuel (va + n1) (n - n1) with
        | (b, .error e) => (b, .error e)
        | (b, .ok ps) => (b, .ok (p :: ps))

def Body.engMap (b : Body) (o : Owner) (need : Need) (va n : Nat) : Eng (List Piece) :=
  b.engPieces o need (n / 4096 + 2) va n

/-- Why an engine of a half cannot have a line (R437, R464); a line found lost is poisoned. -/
def Body.engLine (b : Body) (half : HubId) (l : Line) : Option (Nat × Body) :=
  if b.cutOff half (lineAddr l) || b.poisoned l then some (lineAddr l, b)
  else if !b.readable l ∧ (b.owner l).isNone ∧ (b.l3Has l).isNone ∧ !b.isDeparting l then
    some (lineAddr l, b.loseLine l (if lineAddr l < memoryEnd then 1 else 2))
  else none

/-- Reads segments in order (R169, R200). -/
def Body.engSegs (b : Body) (half : HubId) : List Seg → Eng (List Byte)
  | [] => (b, .ok [])
  | g :: r =>
    match b.engLine half (lineNo g.pa) with
    | some (pa, b) => (b, .error (.lost pa))
    | none =>
      let x := b.dmaLine (lineNo g.pa) g.slot
      match Body.engSegs x.2 half r with
      | (b, .error e) => (b, .error e)
      | (b, .ok bs) => (b, .ok (lineGet x.1 (g.pa % 128) g.len ++ bs))

/-- Reads `n` bytes of the owner's data space. -/
def Body.engRead (b : Body) (o : Owner) (va n : Nat) : Eng (List Byte) :=
  match b.engMap o needLoad va n with
  | (b, .error e) => (b, .error e)
  | (b, .ok ps) => b.engSegs o.half (segsOf ps)

/-- The tagged writes that carry bytes to segments (R347). -/
def tagWrites (o : Owner) (now : Nat) (done : Option (BitVec 32 × HeldRec)) : List Seg → List Byte → List TagWrite
  | [], _ => []
  | g :: r, bs =>
    if bs.isEmpty then []
    else { slice := o.slice, gen := o.gen, pa := g.pa, bytes := bs.take g.len, slot := g.slot, issued := now, eng := o.eng, done := done } ::
      tagWrites o now done r (bs.drop g.len)

/-- Issues the writes of bytes to translated pieces. -/
def Body.engEmit (b : Body) (o : Owner) (ps : List Piece) (bs : List Byte) : Eng Unit :=
  let gs := segsOf ps
  match gs.find? fun g => b.cutOff o.half g.pa with
  | some g => (b, .error (.lost (lineAddr (lineNo g.pa))))
  | none => (b.modIo fun i => { i with writes := i.writes ++ tagWrites o (b.tod o.half) none gs bs }, .ok ())

/-- Writes bytes to the owner's data space. -/
def Body.engWrite (b : Body) (o : Owner) (va : Nat) (bs : List Byte) : Eng Unit :=
  match b.engMap o needStore va bs.length with
  | (b, .error e) => (b, .error e)
  | (b, .ok ps) => b.engEmit o ps bs

/-! ## Rings (R350 to R356) -/

/-- Records a reason with FAULT; a later event changes nothing while FAULT is 1 (R350). -/
def Ring.fail (r : Ring) (reason : Byte) (index : BitVec 32) : Ring :=
  if r.fault then r else { r with fault := true, reason := reason, index := index }

/-- An access to an entry fails: the ring stops (R356). -/
def Ring.stop (r : Ring) (reason : Byte) (index : BitVec 32) : Ring := { r.fail reason index with stopped := true }

/-- FAULT is cleared, and a stopped ring goes on (R350, R356). -/
def Ring.clear (r : Ring) : Ring := { r with fault := false, stopped := false }

def Ring.size (r : Ring) : Nat := 2 ^ r.log2n.toNat

/-- Address of the entry of a counter (R352). -/
def Ring.entryAt (r : Ring) (i : BitVec 32) (bytes : Nat) : Nat :=
  (r.base.toNat + i.toNat % r.size * bytes) % 2 ^ 64

/-- Phase bit of the entry of counter `i` (R354). -/
def Ring.phase (r : Ring) (i : BitVec 32) : Bool := i.toNat / r.size % 2 = 0

/-- A record with its phase bit (R354). -/
def withPhase (bs : List Byte) (p : Bool) : List Byte :=
  bs.set 31 ((bs.getD 31 0 &&& 0x7F) ||| (if p then 0x80 else 0))

/-- FLAGS.SENSE of a refusal or notice as it stands when the record is written (R302). -/
def Body.senseNow (b : Body) (s : SliceId) (src : RecSrc) (bs : List Byte) : List Byte :=
  let now := bs.set 31 ((bs.getD 31 0 &&& 0xFE) ||| (if b.senseHeld (subchKey s.val (field bs 24 2)) then 1 else 0))
  match src with
  | .notice | .accepted _ | .progress _ => now
  | _ => bs

/-- The channel engine that writes a record (R289, R301, R326). -/
def Body.recEngine (b : Body) (s : SliceId) (src : RecSrc) : Option (HubId × Fin 16) :=
  match src with
  | .final ix | .progress ix => (b.jGet ix).map fun j => engineOf j.engine
  | .notice | .accepted _ => b.ringEngine s
  | _ => none

/-- The void entry (R354). -/
def voidEntry : List Byte := List.replicate 31 0 ++ [0x40]

/-- CQTAIL: the lowest counter reserved and not yet written, or the next one to reserve (R351). -/
def Slice.tailNow (x : Slice) : BitVec 32 := x.reserved.head?.getD x.cqNext

/-- Counts that a written record adds to (R399, R400). -/
def Slice.countRecord (x : Slice) (bs : List Byte) : Slice :=
  let st := bs.getD 25 0
  let x := { x with jobs := x.jobs + 1, bytesIn := x.bytesIn + BitVec.ofNat 64 (field bs 8 4) }
  if x.kind = 2 then
    { x with bytesOut := x.bytesOut + BitVec.ofNat 64 (field bs 12 4), reruns := sat32 x.reruns (bs.getD 28 0).toNat }
  else { x with reruns := if st = 0x23 then sat32 x.reruns else x.reruns, auth := if st = 0x22 then sat32 x.auth else x.auth }

/-- A completion entry has been written (R351, R357, R399). -/
def Slice.written (x : Slice) (i : BitVec 32) (r : HeldRec) (bs : List Byte) (now : Nat) : Slice :=
  if x.reserved.contains i then
    let x := { x with reserved := x.reserved.erase i, stamps := x.stamps.filter (fun (e : BitVec 32 × Nat) => e.1 != i) ++ [(i, now)] }
    let x := { x with cq := { x.cq with tail := x.tailNow } }
    if r.src = .job then x.countRecord bs else x
  else x

/-- A tagged write reaches its home (R347): it is performed, or dropped for a stale generation and counted. A
completion entry that is performed moves CQTAIL, a final record retires its transaction, and an ACCEPTED notice sets JFLAGS[0] (R317,
R323, R334). -/
def Body.landWrite (b : Body) (w : TagWrite) : Body :=
  let x := b.slice w.slice
  if x.gen = w.gen then
    let b := b.homeStore w.pa w.bytes w.slot true
    match w.done with
    | none => b
    | some (i, r) =>
      let b := b.setSlice w.slice (x.written i r w.bytes (b.tod (b.servingHub w.slice x.part)))
      match r.src with
      | .final ix => b.retire ix
      | .accepted ix => b.jMod ix fun j => { j with jflags := j.jflags ||| 1 }
      | _ => b
  else
    let b := b.setSlice w.slice { x with dropped := sat32 x.dropped }
    match w.done with
    | some (_, { src := .final ix, .. }) => b.toOrphan ix
    | _ => b

/-- Tries to give the first waiting record its entry: none when it cannot be placed now. The write is then in
flight, or, with `now`, performed at once. A record of a past generation is dropped and counted (R347, R354, R356). -/
def Body.placeRecord (b : Body) (s : SliceId) (now : Bool) : Option Body :=
  let x := b.slice s
  match x.waiting with
  | [] => none
  | r :: rest =>
    if (match r.gen with | some g => g != x.gen | none => false) then
      let b := b.setSlice s { x with waiting := rest, dropped := sat32 x.dropped }
      some (match r.src with | .final ix => b.toOrphan ix | _ => b)
    else if x.cq.stopped || !x.cq.en then none
    else
      let i := r.ctr.getD x.cqNext
      if r.ctr.isNone && !((i - x.cq.head).toNat < x.cq.size) then none
      else
        let o := { b.ownerOf s x.gen (b.servingHub s x.part) with eng := b.recEngine s r.src }
        let bs := withPhase (b.senseNow s r.src r.bytes) (x.cq.phase i)
        match b.engMap o needStore (x.cq.entryAt i 32) 32 with
        | (b, .error e) => some (b.modSlice s fun x => { x with cq := x.cq.stop e.reason i })
        | (b, .ok ps) =>
          match (segsOf ps).find? fun g => b.cutOff o.half g.pa with
          | some _ => some (b.modSlice s fun x => { x with cq := x.cq.stop 0xF7 i })
          | none =>
            let b := b.setSlice s { x with
              waiting := rest
              cqNext := if r.ctr.isNone then x.cqNext + 1 else x.cqNext
              reserved := if r.ctr.isNone then x.reserved ++ [i] else x.reserved }
            let b := match r.src with
              | .final ix => b.jMod ix fun e => { e with ringix := i, final := bs }.checkpoint
              | _ => b
            let ws := tagWrites o (b.tod o.half) (some (i, r)) (segsOf ps) bs
            some (ws.foldl (fun b w =>
              if now && !b.lineHeld (lineNo w.pa) then b.landWrite w else b.modIo fun io => { io with writes := io.writes ++ [w] }) b)

/-- Places waiting records in order while they can be placed; `fuel` bounds their number. -/
def Body.placeRecords (b : Body) (s : SliceId) (now : Bool) : Nat → Body
  | 0 => b
  | n + 1 => match b.placeRecord s now with
    | none => b
    | some b => Body.placeRecords b s now n

/-- Gives a slice a record to write: behind those that wait, and at once when the ring allows (R307, R354). -/
def Body.postRecord (b : Body) (s : SliceId) (r : HeldRec) : Body :=
  let b := b.modSlice s fun x => { x with waiting := x.waiting ++ [r] }
  b.placeRecords s false (b.slice s).waiting.length

/-- Reads the submission entry at SQHEAD; a failure stops the ring (R353, R356). -/
def Body.readEntryAtHead (b : Body) (s : SliceId) (bytes : Nat) : Option (List Byte) × Body :=
  let x := b.slice s
  if !x.sq.en || x.sq.stopped || x.sq.head = x.sq.tail then (none, b)
  else
    match b.engRead (b.ownerOf s x.gen (b.servingHub s x.part)) (x.sq.entryAt x.sq.head bytes) bytes with
    | (b, .error e) => (none, b.modSlice s fun x => { x with sq := x.sq.stop e.reason x.sq.head })
    | (b, .ok d) => (some d, b.modSlice s fun x => { x with sq := { x.sq with head := x.sq.head + 1 } })

/-! ## Occupancy (R360) -/

/-- Records of a source class that wait or are in flight for a slice. -/
def Body.pendingRecs (b : Body) (s : SliceId) (p : RecSrc → Bool) : Nat :=
  ((b.slice s).waiting.filter fun r => p r.src).length +
  (b.io.writes.filter fun w => w.slice = s && w.gen = (b.slice s).gen &&
    (match w.done with | some (_, r) => p r.src | none => false)).length

def Body.occ (b : Body) (s : SliceId) : Nat :=
  let x := b.slice s
  match x.kind.toNat with
  | 1 => (b.outstanding.filter fun e => e.2.slice.toNat = s.val && e.2.st.toNat ≤ 4 && !e.2.orphan).length
  | 4 => (x.qps.foldl (fun (n : Nat) (e : Nat × Qp) => n + e.2.sent.length + e.2.recvs.length) 0) + b.pendingRecs s (· = .netq)
  | _ => (b.io.jobs.filter fun j => j.slice = s && j.chan.isNone).length + b.pendingRecs s (· = .job)

/-- No entry is unread, unconsumed, reserved or held, and no work is outstanding (R352). -/
def Body.quiescent (b : Body) (s : SliceId) : Bool :=
  let x := b.slice s
  x.sq.head = x.sq.tail && x.cq.head = x.cq.tail && b.occ s = 0 && x.reserved.isEmpty && x.waiting.isEmpty

end Sys2Proof.Machine
end

