-- ==== Sys2Proof/Machine/IoSpace.lean ====
section
/-!
DEFINITION. I/O space: IOLD, IOST, IODB and SETIOB, the arrival of posted stores at a slice directory, and the registers of
a slice (R101 to R106, R204 to R211, R348 to R355, R370, R373, R399, R400).
-/

namespace Sys2Proof.Machine

/-! ## Slice registers -/

def ringCfg (r : Ring) : Nat := r.log2n.toNat + if r.en then 256 else 0
def ringStat (r : Ring) : W :=
  BitVec.ofNat 64 (r.index.toNat * 2 ^ 32 + r.reason.toNat * 256 + if r.fault then 1 else 0)

/-- RKEY of a region that has been enabled (R373). -/
def mrKey (s : SliceId) (m : Nat) (r : Mr) : Nat := if r.used then s.val * 2 ^ 19 + m * 2 ^ 13 + r.seq.toNat else 0

/-- Word `n` of BUSYMAP (R348). -/
def Body.busymap (b : Body) (s : SliceId) (n : Nat) : W :=
  BitVec.ofNat 64 ((List.range 64).foldl (fun a i =>
    a + match b.subch (subchKey s.val (64 * n + i)) with
      | some c => if c.busy then 2 ^ i else 0
      | none => 0) 0)

def bit (c : Bool) (n : Nat) : Nat := if c then 2 ^ n else 0

/-- A queue-pair register (R370). -/
def qpRead (s : SliceId) (q : Nat) (x : Qp) (reg : Nat) : W :=
  BitVec.ofNat 64 <| match reg with
    | 0x00 => x.rqpn.toNat * 2 ^ 24 + x.addrix.toNat * 256 + bit x.en 2 + x.typ.toNat
    | 0x08 => (0x400000 + s.val * 256 + q) % 2 ^ 24 * 2 ^ 32 + x.err.toNat * 256 + x.st.toNat
    | 0x10 => x.sqbase.toNat
    | 0x18 => x.sqhead.toNat * 2 ^ 32 + x.sqlog.toNat
    | 0x20 => x.rqbase.toNat
    | 0x28 => x.rqhead.toNat * 2 ^ 32 + x.rqlog.toNat
    | 0x30 => x.rpsn.toNat * 2 ^ 32 + x.spsn.toNat
    | _ => 0


/-- The kind-specific block (R348, R370, R373, R399, R400); `off` counts from 0x01_0000. -/
def Body.kindRead (b : Body) (s : SliceId) (off : Nat) : W :=
  let x := b.slice s
  match x.kind.toNat with
  | 1 => if off < 0x200 then b.busymap s (off / 8) else 0
  | 2 => match off with
    | 0x00 => x.jobs
    | 0x08 => x.bytesIn
    | 0x10 => x.bytesOut
    | 0x18 => x.reruns.setWidth 64
    | _ => 0
  | 3 => match off with
    | 0x00 => x.jobs
    | 0x08 => x.bytesIn
    | 0x10 => BitVec.ofNat 64 (b.keysHeld (b.servingHub s x.part) x.part * 2 ^ 32 + (b.part x.part).kquota.toNat)
    | 0x18 => BitVec.ofNat 64 (x.reruns.toNat * 2 ^ 32 + x.auth.toNat)
    | _ => 0
  | 4 =>
    if off < 0x4000 then qpRead s (off / 0x40) ((tGet x.qps (off / 0x40)).getD {}) (off % 0x40)
    else if 0x8000 ≤ off ∧ off < 0x8800 then
      let m := (off - 0x8000) / 0x20
      let r := (tGet x.mrs m).getD {}
      match off % 0x20 with
      | 0x00 => r.base
      | 0x08 => r.len.setWidth 64
      | 0x10 => BitVec.ofNat 64 (bit r.rwrite 2 + bit r.rread 1 + bit r.en 0)
      | _ => BitVec.ofNat 64 (mrKey s m r)
    else 0
  | _ => 0

/-- The 64-bit register at a window offset that is a multiple of 8 (R348 to R351). -/
def Body.sliceRead (b : Body) (s : SliceId) (off : Nat) : W :=
  let x := b.slice s
  match off with
  | 0x1000 => x.sq.base
  | 0x1008 => BitVec.ofNat 64 (ringCfg x.sq)
  | 0x1010 => x.sq.head.setWidth 64
  | 0x1018 => x.sq.tail.setWidth 64
  | 0x1020 => ringStat x.sq
  | 0x2000 => x.cq.base
  | 0x2008 => BitVec.ofNat 64 (x.delay.toNat * 2 ^ 24 + x.thresh.toNat * 2 ^ 16 + bit x.arm 9 + ringCfg x.cq)
  | 0x2010 => x.cq.head.setWidth 64
  | 0x2018 => BitVec.ofNat 64 (bit (x.cq.phase x.cq.tail) 32 + x.cq.tail.toNat)
  | 0x2020 => ringStat x.cq
  | 0x3000 =>
    BitVec.ofNat 64 (x.gen.toNat * 2 ^ 32 + (match x.st with | .draining _ => 2 | _ => 1) * 2 ^ 20 + x.kind.toNat * 2 ^ 16 +
      s.val)
  | 0x3008 => BitVec.ofNat 64 (min (b.occ s) 0xFFFFFFFF * 2 ^ 32 + x.limit.toNat * 2 ^ 16 + x.weight.toNat)
  | 0x3010 => BitVec.ofNat 64 (x.dropped.toNat * 2 ^ 32 + x.qfull.toNat)
  | _ => if 0x10000 ≤ off ∧ off < 0x20000 then b.kindRead s (off - 0x10000) else 0

/-- What a write of EN and LOG2N does to a ring, and whether its counters restart (R350, R352). `quiet` says that the
slice is quiescent; `enOk` is false where EN ignores writes (NETQ). -/
def Ring.config (r : Ring) (v : W) (quiet enOk : Bool) : Ring × Bool :=
  let en := v.getLsbD 8
  let lg : BitVec 5 := v.extractLsb' 0 5
  if !enOk then ({ r with log2n := lg }, false)
  else if !r.en then
    if !en then ({ r with log2n := lg }, false)
    else if 4 ≤ lg.toNat ∧ lg.toNat ≤ 16 then ({ r with log2n := lg, en := true, head := 0, tail := 0 }, true)
    else ({ r with log2n := lg }.fail 0xF2 0, false)
  else if en then (r, false)
  else if quiet then ({ r with en := false }, false)
  else (r.fail 0xF2 0, false)

def Ring.writeBase (r : Ring) (v : W) : Ring := if r.en then r else { r with base := v &&& ~~~0xFFF#64 }

/-- A NETQ completion entry (R372). -/
def netqBytes (wr : List Byte) (q : Nat) (st : Byte) (len imm : Nat) (src : BitVec 24) : List Byte :=
  slice wr 32 8 ++ pack [(4, len), (4, imm), (2, q), (1, (wr.getD 0 0).toNat), (1, st.toNat), (4, src.toNat), (8, 0)]

/-- Completes work requests of a queue pair with a status, and no bytes. -/
def Body.netqEnd (b : Body) (s : SliceId) (q : Nat) (gen : Option (BitVec 16)) (st : Byte) (wrs : List (List Byte)) : Body :=
  wrs.foldl (fun b wr => b.postRecord s { src := .netq, gen := gen, bytes := netqBytes wr q st 0 0 0 }) b

/-- The work requests that a queue pair has announced and its engine has not fetched, read from its rings (R365). -/
def Body.unfetched (b : Body) (o : Owner) (base head tail : Nat) (log : Nat) : Nat → Body × List (List Byte)
  | 0 => (b, [])
  | n + 1 =>
    if head % 2 ^ 32 = tail % 2 ^ 32 then (b, [])
    else match b.engRead o (base + head % 2 ^ log * 64) 64 with
      | (b, .error _) => (b, [])
      | (b, .ok wr) =>
        let r := Body.unfetched b o base (head + 1) tail log n
        (r.1, wr :: r.2)

/-- Work requests that a queue pair holds. -/
def Qp.work (p : Qp) : List (List Byte) := p.sent.map (·.1) ++ p.recvs

/-- The entry of a network address table that a slice may send through (R369, R512). -/
def Body.grantedAddr (b : Body) (s : SliceId) (ix : Nat) : Option NetAddr :=
  (tGet b.io.netaddrs ((b.slice s).part.toNat * 4096 + ix)).filter fun a => a.slice.toNat = s.val && !a.lost

def Body.setQp (b : Body) (s : SliceId) (q : Nat) (x : Qp) : Body := b.modSlice s fun z => { z with qps := tPut z.qps q x }
def Body.qp (b : Body) (s : SliceId) (q : Nat) : Qp := (tGet (b.slice s).qps q).getD {}

/-- What a queue pair of a DRAINING slice has announced completes with RESETTING, or, when the slice becomes FREE, with nothing (R346,
R365, R368). -/
def Body.refuseWr (b : Body) (s : SliceId) (q : Nat) : Body :=
  let x := b.slice s
  let p := b.qp s q
  let o := b.ownerOf s x.gen (b.servingHub s x.part)
  match x.st with
  | .draining toFree =>
    let (b, sq) := b.unfetched o p.sqbase.toNat p.sqhead.toNat p.sqtail.toNat p.sqlog.toNat 4096
    let (b, rq) := b.unfetched o p.rqbase.toNat p.rqhead.toNat p.rqtail.toNat p.rqlog.toNat 4096
    let b := b.setQp s q { p with sqhead := p.sqtail, rqhead := p.rqtail }
    if toFree then b else b.netqEnd s q (some x.gen) 1 (sq ++ rq)
  | _ => b

/-- A write of QPCFG (R370). The status that a refused configuration leaves in ERR is not stated and is free. -/
def Body.writeQpcfg (b : Body) (s : SliceId) (q : Nat) (v : W) : Body :=
  let x := b.qp s q
  let en := v.getLsbD 2
  let y := { x with rqpn := v.extractLsb' 24 24, addrix := v.extractLsb' 8 12, typ := v.extractLsb' 0 2, en := en }
  if !x.en && en then
    let okLog (l : BitVec 5) : Bool := 4 ≤ l.toNat && l.toNat ≤ 12
    let y := { y with sqhead := 0, rqhead := 0, sqtail := 0, rqtail := 0, retries := 0, slowed := 0, sqstop := false, rqstop := false }
    if (y.typ = 1 || y.typ = 2) && (b.grantedAddr s y.addrix.toNat).isSome && okLog y.sqlog && okLog y.rqlog then
      b.setQp s q { y with st := 1, err := 0 }
    else (b.setQp s q { y with st := 2, err := Config.freeByte b.freeCtr 0 }).spend
  else if x.en && !en then
    (b.setQp s q { y with st := 0, err := 0, sent := [], recvs := [] }).netqEnd s q (some (b.slice s).gen) 6 x.work
  else b.setQp s q y

/-- A write of another queue-pair register (R370). -/
def Body.writeQp (b : Body) (s : SliceId) (q reg : Nat) (v : W) : Body :=
  let x := b.qp s q
  match reg with
  | 0x00 => b.writeQpcfg s q v
  | 0x10 => if x.en then b else b.setQp s q { x with sqbase := v &&& ~~~0xFFF#64 }
  | 0x18 => if x.en then b else b.setQp s q { x with sqlog := v.extractLsb' 0 5 }
  | 0x20 => if x.en then b else b.setQp s q { x with rqbase := v &&& ~~~0xFFF#64 }
  | 0x28 => if x.en then b else b.setQp s q { x with rqlog := v.extractLsb' 0 5 }
  | 0x30 => if x.en then b else b.setQp s q { x with spsn := v.extractLsb' 0 24, rpsn := v.extractLsb' 32 24 }
  | _ => b

/-- A write of a memory region register (R373). -/
def Body.writeMr (b : Body) (s : SliceId) (m reg : Nat) (v : W) : Body :=
  let r := (tGet (b.slice s).mrs m).getD {}
  let put (r : Mr) : Body := b.modSlice s fun z => { z with mrs := tPut z.mrs m r }
  match reg with
  | 0x00 => if r.en then b else put { r with base := v }
  | 0x08 => if r.en then b else put { r with len := v.extractLsb' 0 40 }
  | 0x10 =>
    let en := v.getLsbD 0
    let up := !r.en && en
    put { r with rwrite := v.getLsbD 2, rread := v.getLsbD 1, en := en, seq := if up then r.seq + 1 else r.seq,
                 used := r.used || up }
  | _ => b

/-- A write of CQHEAD (R355). -/
def Slice.writeHead (x : Slice) (v : BitVec 32) : Slice :=
  if (x.cq.tail - x.cq.head).toNat < (v - x.cq.head).toNat then { x with cq := x.cq.fail 0xF3 v }
  else
    let n := (v - x.cq.head).toNat
    { x with cq := { x.cq with head := v }, stamps := x.stamps.filter fun e => n ≤ (e.1 - x.cq.head).toNat }

/-- A store reaches a register: `v` is the register's whole new value, `low` says that the low half was written
(R348 to R351). -/
def Body.sliceWrite (b : Body) (s : SliceId) (off : Nat) (v : W) (low : Bool) : Body :=
  let x := b.slice s
  match off with
  | 0x1000 => b.setSlice s { x with sq := x.sq.writeBase v }
  | 0x1008 => b.setSlice s { x with sq := (x.sq.config v (b.quiescent s) (x.kind != 4)).1 }
  | 0x1020 =>
    if low && v.getLsbD 0 then
      b.setSlice s { x with sq := x.sq.clear, qps := x.qps.map fun e => (e.1, { e.2 with sqstop := false, rqstop := false }) }
    else b
  | 0x2000 => b.setSlice s { x with cq := x.cq.writeBase v }
  | 0x2008 =>
    let r := x.cq.config v (b.quiescent s) true
    let x := { x with cq := r.1, delay := v.extractLsb' 24 10, thresh := v.extractLsb' 16 8, arm := v.getLsbD 9 }
    b.setSlice s (if r.2 then { x with cqNext := 0, reserved := [], stamps := [] } else x)
  | 0x2010 => b.setSlice s (x.writeHead (v.setWidth 32))
  | 0x2020 => if low && v.getLsbD 0 then b.setSlice s { x with cq := x.cq.clear } else b
  | _ =>
    if x.kind = 4 ∧ 0x10000 ≤ off then
      let o := off - 0x10000
      if o < 0x4000 then b.writeQp s (o / 0x40) (o % 0x40) v
      else if 0x8000 ≤ o ∧ o < 0x8800 then b.writeMr s ((o - 0x8000) / 0x20) (o % 0x20) v
      else b
    else b

/-- A doorbell value at its slice (R349). -/
def Body.ringDoorbell (b : Body) (s : SliceId) (v : W) : Body :=
  let x := b.slice s
  let sel := (v.extractLsb' 32 16).toNat
  let tail : BitVec 32 := v.setWidth 32
  let reject (r : Byte) : Body := b.setSlice s { x with sq := x.sq.fail r tail }
  let inRange (head cur : BitVec 32) (size : Nat) : Bool :=
    (tail - head).toNat ≤ size && (cur - head).toNat ≤ (tail - head).toNat
  if sel = 0 then
    if !x.sq.en then reject 0xF1
    else if inRange x.sq.head x.sq.tail x.sq.size then b.setSlice s { x with sq := { x.sq with tail := tail } }
    else reject 0xF0
  else if x.kind = 4 ∧ sel ≤ 512 then
    let q := (sel - 1) / 2
    let p := b.qp s q
    if !p.en then reject 0xF1
    else if sel % 2 = 1 then
      if inRange p.sqhead p.sqtail (2 ^ p.sqlog.toNat) then (b.setQp s q { p with sqtail := tail }).refuseWr s q else reject 0xF0
    else if inRange p.rqhead p.rqtail (2 ^ p.rqlog.toNat) then (b.setQp s q { p with rqtail := tail }).refuseWr s q
    else reject 0xF0
  else reject 0xF1

/-! ## The window and the tag (R101 to R104) -/

inductive IoKind where | load | store | doorbell
  deriving DecidableEq, Repr

/-- The common window map (R101, R348). -/
def windowOk (k : IoKind) (size off : Nat) : Bool :=
  off % size = 0 &&
  match k with
  | .doorbell => off = 0
  | .store => (0x1000 ≤ off && off < 0x1028) || (0x2000 ≤ off && off < 0x2028) || (0x10000 ≤ off && off < 0x20000)
  | .load =>
    (0x1000 ≤ off && off < 0x1028) || (0x2000 ≤ off && off < 0x2028) || (0x3000 ≤ off && off < 0x3018) ||
      (0x10000 ≤ off && off < 0x20000)

def widthSize : Width → Nat
  | .d => 8
  | .w => 4

def Slice.owns (x : Slice) (part : Byte) (asid : BitVec 16) : Bool := x.st != .free && x.part = part && x.asid = asid

/-- The slice that a bank register names. -/
def Strand.iobSlice (s : Strand) (iob : BitVec 2) : SliceId :=
  ⟨(vget s.iob iob.toNat 0).toNat, (vget s.iob iob.toNat 0).isLt⟩

/-- The checks of R101; the access goes on with the slice. -/
def ioCheck (b : Body) (t : StrandId) (k : IoKind) (size : Nat) (iob : BitVec 2) (addr : BitVec 24)
    (f : SliceId → Res) : Res :=
  let u := b.strand t
  let s := u.iobSlice iob
  if !windowOk k size addr.toNat then .trap b (trapWindowIo iob.toNat s.val addr.toNat)
  else if !(b.slice s).owns u.part u.asid then .trap b (trapOwner iob.toNat s.val addr.toNat)
  else f s

/-- Both bundles are down and the slice is served in the other half (R208). -/
def Body.ioCut (b : Body) (t : StrandId) (s : SliceId) (part : Byte) : Bool :=
  b.servingHub s part != halfOfStrand t && !b.ctl.bundles[(0 : BundleId)] && !b.ctl.bundles[(1 : BundleId)]

/-- Fills the failure record, or counts a further failure (R209). -/
def Strand.ioFail (s : Strand) (r : FailRecord) : Strand :=
  if s.fail.isNone then { s with fail := some r }
  else { s with further := if s.further = 0xFFFF then s.further else s.further + 1 }

def Posted.failure (p : Posted) (kind : Byte) : FailRecord :=
  { slice := BitVec.ofNat 13 p.slice.val, off := p.off, part := p.part, asid := p.asid, loadCause := 0, kind := kind }

/-- The I/O completion timeout of a partition in nanoseconds (R207). -/
def Body.ioTimeout (b : Body) (p : Byte) : Nat := (b.part p).iotmo.toNat * 1000000

/-- Posts a store with its tag, or fails it at once where no route to its hub is left (R204, R208). -/
def Body.postTagged (b : Body) (t : StrandId) (wd : Width) (l : IoBell) : Body :=
  let p : Posted :=
    { strand := t, slice := l.slice, off := l.off, wd := wd, data := l.data, part := l.part, asid := l.asid, gen := l.gen,
      expiry := b.tod (halfOfStrand t) + b.ioTimeout l.part }
  if b.ioCut t l.slice l.part then b.modStrand t fun u => u.ioFail (p.failure 3)
  else b.modIo fun i => { i with posted := i.posted ++ [p] }

/-- The store with the tag of the moment (R101). -/
def Body.tagStore (b : Body) (t : StrandId) (s : SliceId) (addr : BitVec 24) (v : W) : IoBell :=
  { slice := s, off := addr, data := v, part := (b.strand t).part, asid := (b.strand t).asid, gen := (b.slice s).gen }

def Body.postStore (b : Body) (t : StrandId) (s : SliceId) (addr : BitVec 24) (wd : Width) (v : W) : Body :=
  b.postTagged t wd (b.tagStore t s addr v)

/-- All ones in the width of a load (R104). -/
def ioOnes : Width → W
  | .d => BitVec.allOnes 64
  | .w => 0xFFFFFFFF

def IoLoad.failure (l : IoLoad) (cause : BitVec 4) : FailRecord :=
  { slice := BitVec.ofNat 13 l.slice.val, off := l.off, part := l.part, asid := l.asid, loadCause := cause, kind := 4 }

/-! ## Instructions -/

def ioldRes (b : Body) (t : StrandId) (wd : Width) (rd : Reg) (iob : BitVec 2) (addr : BitVec 24) : Res :=
  ioCheck b t .load (widthSize wd) iob addr fun s =>
    let u := b.strand t
    let l : IoLoad :=
      { wd := wd, rd := rd, slice := s, off := addr, part := u.part, asid := u.asid, gen := (b.slice s).gen,
        expiry := b.tod (halfOfStrand t) + b.ioTimeout u.part }
    if b.ioCut t s u.part then
      .ok (b.modStrand t fun u => (u.ioFail (l.failure 3)).setReg rd (ioOnes wd)) none
    else .hold (b.modStrand t fun u => { u with act := .iold l })

def iostRes (b : Body) (t : StrandId) (wd : Width) (rd : Reg) (iob : BitVec 2) (addr : BitVec 24) : Res :=
  ioCheck b t .store (widthSize wd) iob addr fun s => .ok (b.postStore t s addr wd ((b.strand t).reg rd)) none

/-- A doorbell past R101 is posted once every older data-space store is visible (R105). -/
def Body.postBell (b : Body) (t : StrandId) (l : IoBell) : Res :=
  if (b.strand t).sb.isEmpty then .ok (b.postTagged t .d l) none else .hold (b.modStrand t fun u => { u with act := .iodb l })

/-- IODB: it keeps the slice and the tag with which it passes R101 (R106). -/
def iodbRes (b : Body) (t : StrandId) (rd : Reg) (iob : BitVec 2) (addr : BitVec 24) : Res :=
  ioCheck b t .doorbell 8 iob addr fun s => b.postBell t (b.tagStore t s addr ((b.strand t).reg rd))

/-- The doorbell that a strand waits to post. -/
def Strand.waitsBell (s : Strand) : Option IoBell :=
  if s.run = .running then match s.act with | .iodb l => some l | _ => none else none

/-- SETIOB (R106, R117): a sum above 8,191 is illegal before the privilege is looked at (R72). -/
def setiobRes (b : Body) (t : StrandId) (rd : Reg) (iob : BitVec 2) (addr : BitVec 24) : Res :=
  let v := ((b.strand t).reg rd).toNat + addr.toNat
  if 8191 < v then illegal b
  else needPrv b t 1 <| .ok (b.modStrand t fun u => { u with iob := vset u.iob iob.toNat (BitVec.ofNat 13 v) }) none

def execIold (t : StrandId) (wd : Width) (rd : Reg) (iob : BitVec 2) (addr : BitVec 24) (s : State) : Out :=
  insn t (.iold t wd rd iob addr) (fun b => ioldRes b t wd rd iob addr) false s
def execIost (t : StrandId) (wd : Width) (rd : Reg) (iob : BitVec 2) (addr : BitVec 24) (s : State) : Out :=
  insn t (.iost t wd rd iob addr) (fun b => iostRes b t wd rd iob addr) false s
/-- One that waits goes on with the doorbell that it has been checked with. -/
def execIodb (t : StrandId) (rd : Reg) (iob : BitVec 2) (addr : BitVec 24) (s : State) : Out :=
  match (s.body.strand t).waitsBell with
  | some l => onBody (fun b =>
    (b.modStrand t fun u => { u with act := .ready }).settle t 6 (insnBytes (.iodb t rd iob addr))
      ((b.modStrand t fun u => { u with act := .ready }).postBell t l)) s
  | none =>
  insn t (.iodb t rd iob addr) (fun b => iodbRes b t rd iob addr) false s
def execSetiob (t : StrandId) (rd : Reg) (iob : BitVec 2) (addr : BitVec 24) (s : State) : Out :=
  insn t (.setiob t rd iob addr) (fun b => setiobRes b t rd iob addr) false s

/-! ## Replies and arrivals -/

/-- The load that a strand waits for. -/
def Strand.waitsLoad (s : Strand) : Option IoLoad :=
  if s.run = .running then match s.act with | .iold l => some l | _ => none else none

/-- An IOLD completes with a value. -/
def Body.loadDone (b : Body) (t : StrandId) (l : IoLoad) (v : W) : Body :=
  (b.modStrand t fun u => u.setReg l.rd v).complete t 6

/-- An IOLD fails (R104). -/
def Body.loadFail (b : Body) (t : StrandId) (l : IoLoad) (cause : BitVec 4) : Body :=
  (b.modStrand t fun u => u.ioFail (l.failure cause)).loadDone t l (ioOnes l.wd)

/-- The half or whole of a register that a load reads (R348). -/
def ioPart (wd : Width) (off : Nat) (v : W) : W :=
  match wd with
  | .d => v
  | .w => (v >>> (8 * (off % 8))) &&& 0xFFFFFFFF

/-- The reply arrives within the timeout, after the strand's older stores to the slice (R104, R205). -/
def execIoldReply (t : StrandId) (s : State) : Out :=
  onBody (fun b =>
    match (b.strand t).waitsLoad with
    | none => b
    | some l =>
      if b.io.posted.any (fun p => p.strand = t && p.slice = l.slice) || l.expiry < b.tod (halfOfStrand t) then b
      else
        let x := b.slice l.slice
        if x.owns l.part l.asid && x.gen = l.gen then
          b.loadDone t l (ioPart l.wd l.off.toNat (b.sliceRead l.slice (l.off.toNat / 8 * 8)))
        else b.loadFail t l 2) s

def execIoldTimeout (t : StrandId) (s : State) : Out :=
  onBody (fun b =>
    match (b.strand t).waitsLoad with
    | none => b
    | some l => (b.reach (halfOfStrand t) l.expiry).loadFail t l 1) s

/-- The oldest posted store of a strand to a slice (R205). -/
def Body.oldestPosted (b : Body) (t : StrandId) (s : SliceId) : Option Posted :=
  b.io.posted.find? fun p => p.strand = t && p.slice = s

/-- A posted store leaves the queue. -/
def Body.dropPosted (b : Body) (p : Posted) : Body := b.modIo fun i => { i with posted := i.posted.erase p }

/-- The register value that a store gives, with the old value in the half it does not write; W1C bits of the old value do
not stand in it (R348). -/
def storeValue (wd : Width) (off : Nat) (old data : W) : W :=
  match wd with
  | .d => data
  | .w =>
    if off % 8 = 0 then (old &&& 0xFFFFFFFF00000000) ||| (data &&& 0xFFFFFFFF)
    else (old &&& 0xFFFFFFFF) ||| (data <<< 32)

/-- A posted store reaches the slice directory (R103, R204, R208). `want` says which targets the command concerns. -/
def Body.storeArrives (b : Body) (t : StrandId) (s : SliceId) (want : Nat → Bool) : Body :=
  match b.oldestPosted t s with
  | none => b
  | some p =>
    let off := p.off.toNat
    if !want off then b
    else
      let b := b.dropPosted p
      let x := b.slice s
      if p.expiry < b.tod (halfOfStrand t) then b.modStrand t fun u => u.ioFail (p.failure 1)
      else if !(x.owns p.part p.asid && x.gen = p.gen) then b.modStrand t fun u => u.ioFail (p.failure 2)
      else if off = 0 then b.ringDoorbell s p.data
      else
        let reg := off / 8 * 8
        b.sliceWrite s reg (storeValue p.wd off (b.sliceRead s reg) p.data) (p.wd = .d || off % 8 = 0)

/-- Is the offset that of a register of queue pairs with a given offset in the pair's block? -/
def qpOff (reg : Nat) (off : Nat) : Bool := 0x10000 ≤ off && off < 0x14000 && off % 0x40 / 8 * 8 = reg
def mrOff (reg : Nat) (off : Nat) : Bool := 0x18000 ≤ off && off < 0x18800 && off % 0x20 / 8 * 8 = reg
def regOff (reg : Nat) (off : Nat) : Bool := off / 8 * 8 = reg

def execIoStoreArrival (t : StrandId) (sl : SliceId) (s : State) : Out :=
  onBody (fun b => b.storeArrives t sl (· != 0)) s
def execDoorbell (t : StrandId) (sl : SliceId) (s : State) : Out :=
  onBody (fun b => b.storeArrives t sl (· = 0)) s
def execWriteSqcfg (t : StrandId) (sl : SliceId) (s : State) : Out :=
  onBody (fun b => b.storeArrives t sl (regOff 0x1008)) s
def execWriteCqcfg (t : StrandId) (sl : SliceId) (s : State) : Out :=
  onBody (fun b => b.storeArrives t sl (regOff 0x2008)) s
def execWriteCqhead (t : StrandId) (sl : SliceId) (s : State) : Out :=
  onBody (fun b => b.storeArrives t sl (regOff 0x2010)) s
def execClearFault (t : StrandId) (sl : SliceId) (s : State) : Out :=
  onBody (fun b => b.storeArrives t sl fun o => regOff 0x1020 o || regOff 0x2020 o) s
def execWriteQpcfg (t : StrandId) (sl : SliceId) (s : State) : Out :=
  onBody (fun b => b.storeArrives t sl fun o => (b.slice sl).kind = 4 && qpOff 0 o) s
def execWriteMrctl (t : StrandId) (sl : SliceId) (s : State) : Out :=
  onBody (fun b => b.storeArrives t sl fun o => (b.slice sl).kind = 4 && mrOff 0x10 o) s

/-- Posted stores whose timeout expires fail, the oldest in program order first (R208, R209). -/
def execIoStoreTimeout (t : StrandId) (sl : SliceId) (s : State) : Out :=
  onBody (fun b =>
    match b.oldestPosted t sl with
    | none => b
    | some p =>
      let b := b.reach (halfOfStrand t) p.expiry
      (b.io.posted.filter fun q => q.strand = t && q.expiry ≤ p.expiry).foldl
        (fun b q => (b.dropPosted q).modStrand t fun u => u.ioFail (q.failure 1)) b) s

end Sys2Proof.Machine
end

