-- ==== Sys2Proof/Machine/Inflate.lean ====
section
/-!
DEFINITION. Decompression of DEFLATE, zlib and gzip streams (RFC 1951, 1950 and 1952, which R381 names), with the error
details of R388 and R389, and the running checks of R378.
-/

namespace Sys2Proof.Machine

/-! ## Checks -/

/-- Adler-32 of bytes, going on from a value (RFC 1950). -/
def adlerFrom (a : Nat × Nat) (bs : List Byte) : Nat × Nat :=
  bs.foldl (fun p x => let s := (p.1 + x.toNat) % 65521; (s, (p.2 + s) % 65521)) a

def adler32 (bs : List Byte) : BitVec 32 := let p := adlerFrom (1, 0) bs; BitVec.ofNat 32 (p.2 * 65536 + p.1)

/-- One byte into CRC-32's register (RFC 1952). -/
def crcByte (c : BitVec 32) (x : Byte) : BitVec 32 :=
  (List.range 8).foldl (fun c _ => if c.getLsbD 0 then (c >>> 1) ^^^ 0xEDB88320#32 else c >>> 1) (c ^^^ x.setWidth 32)

def crc32 (bs : List Byte) : BitVec 32 := ~~~(bs.foldl crcByte (BitVec.allOnes 32))

/-- The check of a stream's framing (R378): Adler-32 for zlib, CRC-32 for gzip and raw. -/
def streamCheck (framing : Nat) (bs : List Byte) : BitVec 32 := if framing = 1 then adler32 bs else crc32 bs

/-! ## Bits -/

/-- How a decoder stops. -/
inductive InfStop where
  /-- The source ended before the stream. -/
  | more
  /-- The output has reached its limit. -/
  | full
  /-- DATA_ERROR with a detail of R389. -/
  | bad (detail : Byte)
  deriving DecidableEq, Repr

/-- Decoder position in bits, output so far, and the output's limit, if any. -/
structure InfSt where
  pos : Nat
  out : Array Byte
  limit : Option Nat := none

/-- May the output grow to `n` bytes? -/
def InfSt.fits (s : InfSt) (n : Nat) : Bool := match s.limit with | some l => n ≤ l | none => true

abbrev InfM (α : Type) := Except InfStop α

/-- `n` bits from bit position `pos`, the first one lowest. -/
def getBits (d : Array Byte) (pos : Nat) : Nat → InfM Nat
  | 0 => .ok 0
  | n + 1 =>
    if h : pos / 8 < d.size then
      match getBits d (pos + 1) n with
      | .ok v => .ok ((if (d[pos / 8]).getLsbD (pos % 8) then 1 else 0) + 2 * v)
      | .error e => .error e
    else .error .more

/-! ## Canonical prefix codes -/

/-- Counts of code lengths 0 to 15, and symbols in code order. -/
structure PrefixCode where
  count : Array Nat
  syms : Array Nat
  deriving Repr

def mkCode (lens : List Nat) : PrefixCode :=
  { count := ((List.range 16).map fun l => (lens.filter (· = l)).length).toArray
    syms := ((List.range 15).flatMap fun l =>
      (List.range lens.length).filter fun s => lens.getD s 0 = l + 1).toArray }

/-- Codes left unused after all lengths: 0 complete, above 0 incomplete; none when oversubscribed. -/
def PrefixCode.left (c : PrefixCode) : Option Nat :=
  (List.range 15).foldl (fun a l => a.bind fun n =>
    let m := n * 2
    let k := c.count.getD (l + 1) 0
    if m < k then none else some (m - k)) (some 1)

/-- Reads one symbol; `len` lengths remain to be tried. A code that the set does not hold is invalid. -/
def PrefixCode.readFrom (c : PrefixCode) (d : Array Byte) (pos code first index : Nat) : Nat → InfM (Nat × Nat)
  | 0 => .error (.bad 4)
  | len + 1 =>
    match getBits d pos 1 with
    | .error e => .error e
    | .ok x =>
      let code := code + x
      let k := c.count.getD (15 - len) 0
      if code < first + k then .ok (c.syms.getD (index + (code - first)) 0, pos + 1)
      else PrefixCode.readFrom c d (pos + 1) (code * 2) ((first + k) * 2) (index + k) len

def PrefixCode.read (c : PrefixCode) (d : Array Byte) (pos : Nat) : InfM (Nat × Nat) := c.readFrom d pos 0 0 0 15

/-! ## Blocks -/

def lenBase : List Nat :=
  [3, 4, 5, 6, 7, 8, 9, 10, 11, 13, 15, 17, 19, 23, 27, 31, 35, 43, 51, 59, 67, 83, 99, 115, 131, 163, 195, 227, 258]
def lenExtra : List Nat := [0, 0, 0, 0, 0, 0, 0, 0, 1, 1, 1, 1, 2, 2, 2, 2, 3, 3, 3, 3, 4, 4, 4, 4, 5, 5, 5, 5, 0]
def distBase : List Nat :=
  [1, 2, 3, 4, 5, 7, 9, 13, 17, 25, 33, 49, 65, 97, 129, 193, 257, 385, 513, 769, 1025, 1537, 2049, 3073, 4097, 6145, 8193,
   12289, 16385, 24577]
def distExtra : List Nat :=
  [0, 0, 0, 0, 1, 1, 2, 2, 3, 3, 4, 4, 5, 5, 6, 6, 7, 7, 8, 8, 9, 9, 10, 10, 11, 11, 12, 12, 13, 13]

/-- Copies `n` bytes from `dist` back. -/
def copyBack (out : Array Byte) (dist : Nat) : Nat → Array Byte
  | 0 => out
  | n + 1 => copyBack (out.push (out.getD (out.size - dist) 0)) dist n

/-- A stop with the output that stands before it. -/
abbrev InfRun := Except (InfStop × InfSt) InfSt

/-- Literals and matches up to the end-of-block symbol; `fuel` bounds the symbols. -/
def infCodes (d : Array Byte) (lit dist : PrefixCode) : Nat → InfSt → InfRun
  | 0, s => .error (.more, s)
  | fuel + 1, s =>
    match lit.read d s.pos with
    | .error e => .error (e, s)
    | .ok (sym, pos) =>
      if sym < 256 then
        if !s.fits (s.out.size + 1) then .error (.full, s)
        else infCodes d lit dist fuel { s with pos := pos, out := s.out.push (BitVec.ofNat 8 sym) }
      else if sym = 256 then .ok { s with pos := pos }
      else if 29 ≤ sym - 257 then .error (.bad 4, s)
      else match getBits d pos (lenExtra.getD (sym - 257) 0) with
        | .error e => .error (e, s)
        | .ok le =>
          let pos := pos + lenExtra.getD (sym - 257) 0
          match dist.read d pos with
          | .error e => .error (e, s)
          | .ok (ds, pos) =>
            if 30 ≤ ds then .error (.bad 4, s)
            else match getBits d pos (distExtra.getD ds 0) with
              | .error e => .error (e, s)
              | .ok de =>
                let dd := distBase.getD ds 0 + de
                let n := lenBase.getD (sym - 257) 0 + le
                if s.out.size < dd then .error (.bad 5, s)
                else if !s.fits (s.out.size + n) then .error (.full, s)
                else infCodes d lit dist fuel { s with pos := pos + distExtra.getD ds 0, out := copyBack s.out dd n }

/-- The code lengths of a dynamic block; `fuel` bounds the symbols. -/
def readLens (d : Array Byte) (c : PrefixCode) (n : Nat) : Nat → Nat → List Nat → InfM (List Nat × Nat)
  | 0, _, _ => .error (.bad 3)
  | fuel + 1, pos, ls =>
    if n ≤ ls.length then (if ls.length = n then .ok (ls, pos) else .error (.bad 3))
    else match c.read d pos with
      | .error (.bad _) => .error (.bad 3)
      | .error e => .error e
      | .ok (sym, pos) =>
        let rep (v bits base : Nat) : InfM (List Nat × Nat) :=
          match getBits d pos bits with
          | .error e => .error e
          | .ok k => readLens d c n fuel (pos + bits) (ls ++ List.replicate (base + k) v)
        if sym < 16 then readLens d c n fuel pos (ls ++ [sym])
        else if sym = 16 then (match ls.getLast? with | some v => rep v 2 3 | none => .error (.bad 3))
        else if sym = 17 then rep 0 3 3
        else rep 0 7 11

def clOrder : List Nat := [16, 17, 18, 0, 8, 7, 9, 6, 10, 5, 11, 4, 12, 3, 13, 2, 14, 1, 15]

/-- `n` fields of 3 bits. -/
def bits3 (d : Array Byte) (pos : Nat) : Nat → InfM (List Nat)
  | 0 => .ok []
  | n + 1 =>
    match getBits d pos 3, bits3 d (pos + 3) n with
    | .ok v, .ok r => .ok (v :: r)
    | .error e, _ => .error e
    | _, .error e => .error e

/-- Is a literal or distance code usable: complete, or with a single code of one bit? -/
def PrefixCode.usable (c : PrefixCode) : Bool :=
  match c.left with
  | none => false
  | some 0 => true
  | some _ => (c.syms.size ≤ 1 && c.count.getD 1 0 = c.syms.size)

def infDynamic (d : Array Byte) (s : InfSt) : InfRun :=
  let head : InfM (PrefixCode × PrefixCode × Nat) :=
    match getBits d s.pos 5, getBits d (s.pos + 5) 5, getBits d (s.pos + 10) 4 with
    | .ok hl, .ok hd, .ok hc =>
      if 286 < hl + 257 ∨ 30 < hd + 1 then .error (.bad 3)
      else match bits3 d (s.pos + 14) (hc + 4) with
        | .error e => .error e
        | .ok cl =>
          let lens := (List.range 19).map fun i =>
            match clOrder.idxOf? i with
            | some k => cl.getD k 0
            | none => 0
          let c := mkCode lens
          if c.left != some 0 then .error (.bad 3)
          else match readLens d c (hl + 257 + hd + 1) (hl + hd + 300) (s.pos + 14 + 3 * (hc + 4)) [] with
            | .error e => .error e
            | .ok (ls, pos) =>
              let lit := mkCode (ls.take (hl + 257))
              let dist := mkCode (ls.drop (hl + 257))
              if ls.getD 256 0 = 0 || !lit.usable || !dist.usable then .error (.bad 3) else .ok (lit, dist, pos)
    | .error e, _, _ => .error e
    | _, .error e, _ => .error e
    | _, _, .error e => .error e
  match head with
  | .error e => .error (e, s)
  | .ok (lit, dist, pos) => infCodes d lit dist (8 * d.size + 1) { s with pos := pos }

def fixedLit : PrefixCode :=
  mkCode (List.replicate 144 8 ++ List.replicate 112 9 ++ List.replicate 24 7 ++ List.replicate 8 8)
/-- All 32 codes of five bits; 30 and 31 stand for no distance (R389). -/
def fixedDist : PrefixCode := mkCode (List.replicate 32 5)

def infStored (d : Array Byte) (s : InfSt) : InfRun :=
  let p := (s.pos + 7) / 8 * 8
  match getBits d p 16, getBits d (p + 16) 16 with
  | .ok n, .ok m =>
    if n + m != 65535 then .error (.bad 2, s)
    else
      let at' := p / 8 + 4
      let room := match s.limit with | some l => l - s.out.size | none => n
      let bs := d.toList.drop at' |>.take (min n room)
      let s' : InfSt := { s with pos := (at' + bs.length) * 8, out := s.out ++ bs.toArray }
      if bs.length < min n room then .error (.more, s') else if room < n then .error (.full, s') else .ok s'
  | .error e, _ => .error (e, s)
  | _, .error e => .error (e, s)

/-- One block of the given type, from behind its three leading bits. -/
def infBlock (d : Array Byte) (typ : Nat) (s : InfSt) : InfRun :=
  match typ with
  | 0 => infStored d s
  | 1 => infCodes d fixedLit fixedDist (8 * d.size + 1) s
  | 2 => infDynamic d s
  | _ => .error (.bad 1, s)

/-- Blocks up to the final one; `fuel` bounds their number. -/
def infBlocks (d : Array Byte) : Nat → InfSt → InfRun
  | 0, s => .error (.more, s)
  | fuel + 1, s =>
    match getBits d s.pos 1, getBits d (s.pos + 1) 2 with
    | .ok fin, .ok typ =>
      match infBlock d typ { s with pos := s.pos + 3 } with
      | .error (.bad 1, _) => .error (.bad 1, s)
      | .error e => .error e
      | .ok s => if fin = 1 then .ok s else infBlocks d fuel s
    | .error e, _ => .error (e, s)
    | _, .error e => .error (e, s)

/-! ## Framings (R388) -/

/-- What decompression of a stream, as far as it is supplied, gives. `used` counts source bytes taken. -/
inductive InfOut where
  | ended (used : Nat) (out : List Byte)
  | more (out : List Byte)
  | dataError (detail : Byte) (used : Nat) (out : List Byte)
  | checksum (detail : Byte) (used : Nat) (out : List Byte)
  deriving DecidableEq, Repr

/-- A gzip header: its length, and whether its own CRC fails; none when it is invalid, `more` when it is cut. -/
def gzipHeader (d : List Byte) : InfM (Nat × Bool) :=
  let skipZ (k : Nat) : InfM Nat :=
    match (d.drop k).findIdx? (· = 0) with
    | some i => .ok (k + i + 1)
    | none => .error .more
  if (d.length ≥ 1 ∧ d.getD 0 0 ≠ 0x1F) ∨ (d.length ≥ 2 ∧ d.getD 1 0 ≠ 0x8B) ∨ (d.length ≥ 3 ∧ d.getD 2 0 ≠ 8) ∨
      (d.length ≥ 4 ∧ 32 ≤ (d.getD 3 0).toNat) then .error (.bad 6)
  else if d.length < 10 then .error .more
  else
    let flg := d.getD 3 0
    let k1 : InfM Nat :=
      if flg.getLsbD 2 then (if d.length < 12 then .error .more else
        let k := 12 + field d 10 2
        if d.length < k then .error .more else .ok k) else .ok 10
    match k1.bind fun k => if flg.getLsbD 3 then skipZ k else .ok k with
    | .error e => .error e
    | .ok k =>
      match (if flg.getLsbD 4 then skipZ k else .ok k) with
      | .error e => .error e
      | .ok k =>
        if flg.getLsbD 1 then
          if d.length < k + 2 then .error .more
          else .ok (k + 2, field d k 2 != (crc32 (d.take k)).toNat % 65536)
        else .ok (k, false)

/-- A zlib header (R388). -/
def zlibHeader (d : List Byte) : InfM Nat :=
  if d.length < 2 then .error .more
  else
    let cmf := (d.getD 0 0).toNat
    let flg := (d.getD 1 0).toNat
    if (cmf * 256 + flg) % 31 != 0 || cmf % 16 != 8 || 7 < cmf / 16 || flg / 32 % 2 = 1 then .error (.bad 6) else .ok 2

/-- The trailer after the blocks (R382, R388): its length, or the failing check. -/
def checkTrailer (framing : Nat) (d : List Byte) (at' : Nat) (out : List Byte) : InfOut :=
  match framing with
  | 0 => .ended at' out
  | 1 =>
    if d.length < at' + 4 then .more out
    else if leNat (slice d at' 4).reverse != (adler32 out).toNat then .checksum 1 (at' + 4) out
    else .ended (at' + 4) out
  | _ =>
    if d.length < at' + 8 then .more out
    else if field d at' 4 != (crc32 out).toNat then .checksum 2 (at' + 8) out
    else if field d (at' + 4) 4 != out.length % 2 ^ 32 then .checksum 3 (at' + 8) out
    else .ended (at' + 8) out

/-- The header of a stream: its length, and whether its own check fails. -/
def streamHead (framing : Nat) (d : List Byte) : InfM (Nat × Bool) :=
  match framing with
  | 0 => .ok (0, false)
  | 1 => (zlibHeader d).map fun k => (k, false)
  | _ => gzipHeader d

/-- Decompresses a stream as far as `d` supplies it. -/
def inflate (framing : Nat) (d : List Byte) : InfOut :=
  match streamHead framing d with
  | .error .more | .error .full => .more []
  | .error (.bad k) => .dataError k (min d.length 2) []
  | .ok (k, true) => .checksum 4 k []
  | .ok (k, false) =>
    match infBlocks d.toArray (8 * d.length + 1) { pos := 8 * k, out := #[] } with
    | .error (.more, s) | .error (.full, s) => .more s.out.toList
    | .error (.bad e, s) => .dataError e (min d.length ((s.pos + 7) / 8)) s.out.toList
    | .ok s => checkTrailer framing d ((s.pos + 7) / 8) s.out.toList

/-- The source bytes that the first `n` bytes of a stream's output wholly represent (R386): those before the symbol, or the stored
byte, that no longer fits. -/
def inflateUsed (framing : Nat) (d : List Byte) (n : Nat) : Nat :=
  match streamHead framing d with
  | .ok (k, false) =>
    match infBlocks d.toArray (8 * d.length + 1) { pos := 8 * k, out := #[], limit := some n } with
    | .ok s | .error (_, s) => min d.length (s.pos / 8)
  | _ => 0

/-! ## Compression (R381 to R383)

Which matches, blocks and codes an engine chooses is not stated: its bits are a free choice among those that its own
decompressor turns back into the input, in blocks of the kind that PARAM asks for. Where the choice is none of these, the input stands as
literals in such blocks. -/

/-- Bits of a number, the lowest first. -/
def lowBits (n v : Nat) : List Bool := (List.range n).map fun i => v.testBit i

/-- Bits of a prefix code, the highest first. -/
def codeBits (n v : Nat) : List Bool := (lowBits n v).reverse

/-- Bytes of a bit string; the last one is filled with zeros. -/
def bytesOfBits : Nat → List Bool → List Byte
  | 0, _ => []
  | fuel + 1, bs =>
    if bs.isEmpty then [] else BitVec.ofNat 8 ((bs.take 8).zipIdx.foldl (fun n x => if x.1 then n + 2 ^ x.2 else n) 0) :: bytesOfBits fuel (bs.drop 8)

def packBits (bs : List Bool) : List Byte := bytesOfBits (bs.length / 8 + 1) bs

/-- A block as a scan finds it: whether it is the last, its type, and the bytes that it covers. -/
structure BlockSeen where
  fin : Bool
  typ : Nat
  size : Nat

/-- Scans blocks up to bit `n`, from the output `s` holds; none when they do not end there. -/
def scanBlocks (d : Array Byte) (n : Nat) : Nat → InfSt → Option (List BlockSeen × InfSt)
  | 0, _ => none
  | fuel + 1, s =>
    if s.pos = n then some ([], s)
    else match getBits d s.pos 1, getBits d (s.pos + 1) 2 with
      | .ok fin, .ok typ =>
        match infBlock d typ { s with pos := s.pos + 3 } with
        | .ok s' => (scanBlocks d n fuel s').map fun r => ({ fin := fin = 1, typ := typ, size := s'.out.size - s.out.size } :: r.1, r.2)
        | .error _ => none
      | _, _ => none

/-- May the bits stand behind `ahead` bits as what a job adds to its stream, whose history is `hist` (R382, R383)? -/
def deflateOk (param : BitVec 16) (hist src : List Byte) (fin : Bool) (ahead : Nat) (bs : List Bool) : Bool :=
  let d := (packBits (List.replicate ahead false ++ bs)).toArray
  match scanBlocks d (ahead + bs.length) (bs.length + 1) { pos := ahead, out := (hist.drop (hist.length - 32768)).toArray } with
  | none => false
  | some (l, s) =>
    decide (s.out.toList.drop (min hist.length 32768) = src) && (l.dropLast.all fun x => !x.fin) &&
    (match l.getLast? with | some x => x.fin = fin | none => !fin && src.isEmpty) &&
    l.all fun x =>
      if param.toNat / 8 % 4 = 2 then x.typ = 0 else if param.getLsbD 2 then x.typ = 1 else x.typ = 2 && x.size ≤ 0x100000

/-- The input in plain blocks: stored ones of at most 65,535 bytes, or one block of literals for each 1 MiB, under the fixed codes or under
a dynamic code of 255 symbols of 8 bits and two of 9. -/
def plainBlock (param : BitVec 16) (src : List Byte) (fin : Bool) (ahead : Nat) : List Bool :=
  let lead (typ : Nat) : List Bool := fin :: lowBits 2 typ
  if param.toNat / 8 % 4 = 2 then
    lead 0 ++ List.replicate ((8 - (ahead + 3) % 8) % 8) false ++ lowBits 16 src.length ++ lowBits 16 (65535 - src.length) ++
      src.flatMap fun x => lowBits 8 x.toNat
  else if param.getLsbD 2 then
    lead 1 ++ (src.flatMap fun x => if x.toNat < 144 then codeBits 8 (0x30 + x.toNat) else codeBits 9 (0x190 + (x.toNat - 144))) ++ codeBits 7 0
  else
    let lens := (List.replicate 255 (codeBits 1 0) ++ [codeBits 2 3, codeBits 2 3, codeBits 2 2]).flatten
    lead 2 ++ lowBits 5 0 ++ lowBits 5 0 ++ lowBits 4 3 ++ ([0, 0, 0, 2, 1, 0, 2].flatMap (lowBits 3)) ++ lens ++
      (src.flatMap fun x => if x.toNat < 255 then codeBits 8 x.toNat else codeBits 9 510) ++ codeBits 9 511

/-- The input in plain blocks, the last one marked when the stream ends; `fuel` bounds their number. -/
def plainBits (param : BitVec 16) (fin : Bool) : Nat → List Byte → Nat → List Bool
  | 0, _, _ => []
  | fuel + 1, src, ahead =>
    let n := if param.toNat / 8 % 4 = 2 then 65535 else 0x100000
    if src.length ≤ n then (if src.isEmpty && !fin then [] else plainBlock param src fin ahead)
    else
      let bs := plainBlock param (src.take n) false ahead
      bs ++ plainBits param fin fuel (src.drop n) (ahead + bs.length)

/-- What a job adds to its stream, in bits: an empty final input is one empty fixed block (R382). -/
def deflateBits (param : BitVec 16) (prev : List (List Byte)) (src : List Byte) (fin : Bool) (ahead : Nat) : List Bool :=
  if src.isEmpty && fin then [true, true, false] ++ codeBits 7 0
  else
    let bs := Config.deflateBody param prev src fin
    if deflateOk param prev.flatten src fin ahead bs then bs else plainBits param fin (src.length / 65535 + 1) src ahead

/-- The bits of a stream whose jobs had these inputs; the last one ends it when `fin` says so. -/
def deflateStream (param : BitVec 16) (fin : Bool) : List (List Byte) → List (List Byte) → List Bool → List Bool
  | _, [], bs => bs
  | done, x :: r, bs =>
    deflateStream param fin (done ++ [x]) r (bs ++ deflateBits param done x (fin && r.isEmpty) (bs.length % 8))

/-! ## Whole streams (R382) -/

/-- Header of a stream (R382). -/
def streamHeader (par : Nat) : List Byte :=
  match par % 4 with
  | 1 => [0x78, match par / 8 % 4 with | 0 => 0x9C | 1 => 0x5E | _ => 0x01]
  | 2 => [0x1F, 0x8B, 8, 0, 0, 0, 0, 0, 0, 0xFF]
  | _ => []

/-- Trailer of a stream of uncompressed data (R382). -/
def streamTrailer (par : Nat) (all : List Byte) : List Byte :=
  match par % 4 with
  | 1 => (leBytes 4 (adler32 all).toNat).reverse
  | 2 => leBytes 4 (crc32 all).toNat ++ leBytes 4 all.length
  | _ => []

/-- The bytes of a stream after jobs of these inputs; bits that fill no byte stay in the state record until the stream ends. -/
def streamBytes (param : BitVec 16) (inputs : List (List Byte)) (fin : Bool) : List Byte :=
  let bs := deflateStream param fin [] inputs []
  (if inputs.isEmpty then [] else streamHeader param.toNat) ++
    if fin then packBits bs ++ streamTrailer param.toNat inputs.flatten else packBits (bs.take (bs.length / 8 * 8))

/-- What a compression job adds to its stream. -/
def compressed (param : BitVec 16) (prev : List (List Byte)) (src : List Byte) (fin : Bool) : List Byte :=
  (streamBytes param (prev ++ [src]) fin).drop (streamBytes param prev false).length

end Sys2Proof.Machine
end

