-- ==== Sys2Proof/Machine/Units.lean ====
section
/-!
DEFINITION. The module's units as the control hierarchy sees them: their location codes and domains, the rows that make the
module EXPOSED, changes of mode, and the service of engines (R10, R40, R43, R429, R430, R445, R484).
-/

namespace Sys2Proof.Machine

/-! ## Engines -/

def poolIx : PoolKind → Nat
  | .comp => 0
  | .bulk => 1
  | .pk => 2

/-- A hub has two public-key engines and four of each other kind (R375). -/
def engExists (e : EngineRef) : Bool := e.pool != .pk || e.n.val < 2

def engIx (e : EngineRef) : Nat := e.hub.val * 12 + poolIx e.pool * 4 + e.n.val
def engLoc (e : EngineRef) : BitVec 16 := hubLoc e.hub (0x10 + poolIx e.pool * 4 + e.n.val)
def chanLoc (h : HubId) (n : Fin 16) : BitVec 16 := hubLoc h n.val

/-- Power domain of a job engine (R43). -/
def engDomain (e : EngineRef) : Nat :=
  match e.pool with
  | .comp => 200 + e.hub.val * 4 + e.n.val
  | .bulk => 208 + e.hub.val * 4 + e.n.val
  | .pk => 208 + e.hub.val * 4 + e.n.val % 2 * 2

def chanDomain (h : HubId) (n : Fin 16) : Nat := 192 + h.val * 4 + n.val / 4

/-- Engines of a pool of a hub. -/
def enginesOf (h : HubId) (p : PoolKind) : List EngineRef :=
  ((List.finRange 4).map fun n => { pool := p, hub := h, n := n : EngineRef }).filter engExists

def Body.eng (b : Body) (e : EngineRef) : JobEng := vget b.io.engines (engIx e) {}
def Body.modEng (b : Body) (e : EngineRef) (f : JobEng → JobEng) : Body :=
  b.modIo fun i => { i with engines := vset i.engines (engIx e) (f (vget i.engines (engIx e) {})) }
def Body.modChan (b : Body) (h : HubId) (n : Fin 16) (f : ChanEng → ChanEng) : Body :=
  b.modIo fun i => { i with chans := i.chans.set (chanIx h n) (f (i.chans[chanIx h n])) }

def Body.domainOn (b : Body) (d : Nat) : Bool := (vget b.ctl.domains d {}).on

/-- Is a job engine in service: in the loop at most as an idle unit, its domain on and its hub present (R343, R429, R486)? -/
def Body.engUp (b : Body) (e : EngineRef) : Bool :=
  engExists e && (b.eng e).service = .inService && b.domainOn (engDomain e) && !b.ctl.lostHubs.contains e.hub

/-! ## Domains (R43, R485) -/

def Body.domain (b : Body) (d : Nat) : Domain := vget b.ctl.domains d {}
def Body.modDomain (b : Body) (d : Nat) (f : Domain → Domain) : Body :=
  b.modCtl fun c => { c with domains := vset c.domains d (f (vget c.domains d {})) }

/-- The half in which a domain lies (R43). -/
def domainHalf (d : Nat) : HubId :=
  if d < 144 then (if d < 72 then 0 else 1)
  else if d < 180 then (if d < 162 then 0 else 1)
  else if d < 184 then (if d < 182 then 0 else 1)
  else if d < 192 then (if d < 188 then 0 else 1)
  else if d < 216 then (if (d - 192) / 4 % 2 = 0 then 0 else 1)
  else if d < 228 then (if d < 222 then 0 else 1)
  else if d = 231 then 1 else 0

/-- Switches a domain; it takes the stored setpoint when it is switched on (R34, R39, R485). -/
def Body.switch (b : Body) (d : Nat) (on : Bool) : Body :=
  b.modDomain d fun x =>
    if x.on = on then x else { x with on := on, changed := true, moveFrom := x.rail.toNat, moveAt := b.tod (domainHalf d) }

/-- CS.TOD at which the last move of a rail ends: it moves 5 mV in 1 µs, the most that R33 allows (log entry 18). -/
def Domain.moveEnd (x : Domain) : Nat :=
  x.moveAt + 200 * (max x.moveFrom x.rail.toNat - min x.moveFrom x.rail.toNat)

/-- Where a rail stands, in mV (R33). -/
def Domain.railAt (x : Domain) (now : Nat) : Nat :=
  let n := (now - x.moveAt) / 200
  if x.moveFrom ≤ x.rail.toNat then min x.rail.toNat (x.moveFrom + n) else max x.rail.toNat (x.moveFrom - n)

/-- A setpoint takes effect: the rail moves to it from where it stands, or it is stored while the domain is off (R33, R34, R39). -/
def Body.setRail (b : Body) (d : Nat) (mv : BitVec 16) : Body :=
  let now := b.tod (domainHalf d)
  b.modDomain d fun x =>
    if x.rail = mv then x
    else if x.on then { x with rail := mv, changed := true, moveFrom := x.railAt now, moveAt := now }
    else { x with rail := mv }


/-- The domain of a unit that is out of service until the next PROVING stays off (R485). -/
def Body.switchOut (b : Body) (d : Nat) : Body := (b.switch d false).modDomain d fun x => { x with out := true }

def Body.outChan (b : Body) (h : HubId) (n : Fin 16) : Body :=
  let b := b.modChan h n fun g => { g with service := .outUntilProving }
  let g := n.val / 4
  if ((List.finRange 16).filter fun (k : Fin 16) => k.val / 4 = g).all fun k => (b.chan h k).service = .outUntilProving then
    b.switchOut (chanDomain h n)
  else b

def Body.outEng (b : Body) (e : EngineRef) : Body :=
  let b := b.modEng e fun g => { g with service := .outUntilProving }
  let mates := (enginesOf e.hub .comp ++ enginesOf e.hub .bulk ++ enginesOf e.hub .pk).filter fun x => engDomain x = engDomain e
  if mates.all fun x => (b.eng x).service = .outUntilProving then b.switchOut (engDomain e) else b

/-! ## EXPOSED (R445, R484) -/

def halfOfCore (c : CoreId) : HubId := halfOfCluster (clusterOf c)

/-- Spares of a half (R476, R484). -/
def Body.spares (b : Body) (h : HubId) : List CoreId :=
  allCores.filter fun c => halfOfCore c = h && (b.ctl.cores[c]).role = .spare

/-- The rows of R445 that hold, in its order. -/
def Body.exposedRows (b : Body) : List Bool :=
  let c := b.ctl
  [ (b.spares 0).isEmpty || (b.spares 1).isEmpty,
    (List.finRange 8).any (fun m : StackId => (b.mem.hbm[m]).failed) || !c.lostDies.isEmpty,
    b.mem.ranges.any (·.fstate != 0),
    !c.bundles[(0 : BundleId)] || !c.bundles[(1 : BundleId)],
    !(c.feeds[(0 : FeedId)]).admitted || !(c.feeds[(1 : FeedId)]).admitted,
    ([0, 1] : List HubId).any (fun h => (c.islands[h]).failed || (c.islands[h]).portFailed) || !c.islandLink,
    !c.hubCopies.isEmpty || !c.lostHubs.isEmpty,
    !c.failedLinks.isEmpty ]

/-- EXPOSED bits of the module's tilth record (R530). -/
def bitsOf : List Bool → Nat
  | [] => 0
  | x :: r => (if x then 1 else 0) + 2 * bitsOf r

/-- The module changes its mode: recorded and counted (R471, R521, R530). The test port closes on leaving PROVING or FALLOW (R546). -/
def Body.setMode (b : Body) (m : Mode) (reason : Byte := 0) (loc : BitVec 16 := 0xFFFF) : Body :=
  let old := b.ctl.mode
  if old = m then b
  else
    let b := b.modCtl fun c => { c with mode := m, port := if old = .proving ∨ old = .fallow then {} else c.port }
    let at' : List HubId := if m = .split then [0, 1] else [b.ctl.steering]
    let b := at'.foldl (fun b h => b.report (islandLoc h) 0x0101
      (dataOf [(1, modeCode old), (1, modeCode m), (1, halfCode (b.halfOf h)), (1, reason.toNat), (2, loc.toNat)])) b
    b.count 0 0 Tilth.event

/-- Moves between OPERATING and EXPOSED as the rows of R445 require (R484). -/
def Body.settleMode (b : Body) : Body :=
  match b.ctl.mode with
  | .operating | .exposed => b.setMode (if b.exposedRows.any id then .exposed else .operating)
  | _ => b

/-! ## Leaving and returning to service (R384, R429, R430) -/

def dayNs : Nat := 86400000000000

/-- Where an engine goes that is marked suspect or check-stopped: out until PROVING when it had returned to service
within 24 h (R430). -/
def leaveService (mark : Service) (returned : Option Nat) (now : Nat) : Service :=
  match returned with
  | some r => if now - r ≤ dayNs then .outUntilProving else mark
  | none => mark

end Sys2Proof.Machine
end

