-- ==== Sys2Proof/Machine/Jobs.lean ====
section
/-!
DEFINITION. Compression and cryptographic jobs: descriptors, chains, state records, what each operation does, records,
attempts and re-runs, and the arbitration of a pool (chapter 13; R343, R362, R365, R378 to R385).
-/

namespace Sys2Proof.Machine

/-! ## Descriptors (R376) -/

def dOp (d : List Byte) : Byte := d.getD 0 0
def dFlag (d : List Byte) (i : Nat) : Bool := (d.getD 1 0).getLsbD i
def dParam (d : List Byte) : BitVec 16 := BitVec.ofNat 16 (field d 2 2)
def dSlen (d : List Byte) : Nat := field d 4 4
def dSrc (d : List Byte) : Nat := field d 8 8
def dDst (d : List Byte) : Nat := field d 16 8
def dDlen (d : List Byte) : Nat := field d 24 4
def dKey (d : List Byte) : BitVec 32 := BitVec.ofNat 32 (field d 28 4)
def dAux (d : List Byte) : Nat := field d 32 8

def mib : Nat := 0x100000

/-- A job's result without bytes. -/
def failed (st : Byte) (detail : Byte := 0) : JobResult := { status := st, detail := detail, consumed := 0, produced := 0, check := 0 }

def isCompOp (op : Byte) : Bool := 1 ≤ op.toNat && op.toNat ≤ 3
def isCryptoOp (op : Byte) : Bool :=
  let n := op.toNat
  (0x10 ≤ n && n ≤ 0x19) || (0x30 ≤ n && n ≤ 0x35) || (0x40 ≤ n && n ≤ 0x55)

/-- A code that a slice accepts and that R397 gives no operation (R376). -/
def unlistedOp (op : Byte) : Bool :=
  let n := op.toNat
  (0x44 ≤ n && n ≤ 0x47) || n = 0x4A || n = 0x4B || n = 0x4E || n = 0x4F || n = 0x52 || n = 0x53

/-- Fields of a COMPRESS descriptor (R376, R379 to R381). -/
def checkComp (d : List Byte) : Option JobResult :=
  let bad (k : Byte) := some (failed 0x15 k)
  let op := (dOp d).toNat
  let par := (dParam d).toNat
  if !isCompOp (dOp d) then bad 1
  else if 16 ≤ (d.getD 1 0).toNat ∨ dKey d ≠ 0 ∨ field d 48 8 ≠ 0 ∨ field d 56 8 ≠ 0 ∨ (op ≠ 3 ∧ par / 32 % 8 ≠ 0) ∨
      (op = 3 ∧ (dSrc d ≠ 0 ∨ dSlen d ≠ 0 ∨ dFlag d 2 ∨ dFlag d 3)) then bad 2
  else if (op ≠ 3 ∧ (if dFlag d 0 then dSlen d = 0 ∨ 4096 < dSlen d
        else if op = 1 then 16 * mib < dSlen d else 64 * mib < dSlen d)) ∨
      (if dFlag d 1 then dDlen d = 0 ∨ 4096 < dDlen d else op = 2 ∧ 64 * mib < dDlen d) then bad 3
  else if dAux d % 128 ≠ 0 ∨ (dAux d = 0 ∧ (op = 3 ∨ !dFlag d 2 ∨ dFlag d 3)) then bad 5
  else if op ≠ 3 ∧ (par % 4 = 3 ∨ (op = 1 ∧ par / 8 % 4 = 3)) then bad 6
  else none

/-- Length of a hash or MAC (R390); none for no algorithm. -/
def hashLen (alg : Nat) : Option Nat :=
  match alg with
  | 1 | 4 | 8 => some 32
  | 2 | 9 => some 48
  | 3 | 10 => some 64
  | _ => none

/-- Length of the authentication tag that an operation adds, 0 for none (R390). -/
def tagLen (d : List Byte) : Nat :=
  match (dOp d).toNat with
  | 0x10 | 0x11 => (dParam d).toNat % 32
  | 0x16 | 0x17 => 16
  | _ => 0

/-- Fields of a CRYPTO descriptor that need no memory and no key (R376, R379, R390, R394, R397). -/
def checkCrypto (d : List Byte) : Option JobResult :=
  let bad (k : Byte) := some (failed 0x15 k)
  let op := (dOp d).toNat
  let par := (dParam d).toNat
  let len := dSlen d
  let flat := !dFlag d 0
  let aead := op = 0x10 || op = 0x11 || op = 0x16 || op = 0x17
  let hash := op = 0x18 || op = 0x19
  let pubOp := op = 0x41 || op = 0x43 || op = 0x49 || op = 0x4D || op = 0x50 || op = 0x55
  if !isCryptoOp (dOp d) then bad 1
  else if 32 ≤ (d.getD 1 0).toNat ∨ field d 60 4 ≠ 0 ∨ (!aead ∧ (field d 48 8 ≠ 0 ∨ field d 56 4 ≠ 0)) ∨
      (op = 0x18 ∧ dKey d ≠ 0) ∨ (dFlag d 4 ∧ (!pubOp ∨ dKey d ≠ 0)) then bad 2
  else if (!flat ∧ (len = 0 ∨ 4096 < len)) ∨ (dFlag d 1 ∧ (dDlen d = 0 ∨ 4096 < dDlen d)) ∨ mib < field d 56 4 ∨
      (flat ∧ (64 * mib < len ∨
        ((op = 0x12 ∨ op = 0x13) ∧ (len < 16 ∨ 16 * mib < len)) ∨
        ((op = 0x14 ∨ op = 0x15) ∧ len % 16 ≠ 0) ∨
        ((op = 0x4C ∨ op = 0x4D ∨ op = 0x54 ∨ op = 0x55) ∧ mib < len))) ∨
      ((op = 0x30) ∧ (if par % 256 = 4 then len < 16 ∨ 128 < len else len ≠ 0)) ∨
      (op = 0x31 ∧ flat ∧ (keyUsages (BitVec.ofNat 8 par)).isSome ∧ !keyLenOk (BitVec.ofNat 8 par) len) then bad 3
  else if (0x10 ≤ op ∧ op ≤ 0x17 ∧ dAux d = 0) ∨ (dFlag d 4 ∧ dAux d = 0) ∨
      (hash ∧ (dAux d % 128 ≠ 0 ∨ (dAux d = 0 ∧ (!dFlag d 2 ∨ dFlag d 3)))) then bad 5
  else if ((op = 0x10 ∨ op = 0x11) ∧ (par < 12 ∨ 16 < par)) ∨ (0x12 ≤ op ∧ op ≤ 0x17 ∧ par ≠ 0) ∨
      (hash ∧ (hashLen par).isNone) ∨
      (op = 0x30 ∧ (par % 256 = 8 ∨ par % 256 = 9 ∨ par % 256 = 10)) ∨
      ((op = 0x30 ∨ op = 0x31) ∧ !keyKindOk (BitVec.ofNat 8 par) (BitVec.ofNat 8 (par / 256))) ∨
      (op = 0x51 ∧ !keyKindOk 2 (BitVec.ofNat 8 (par / 256))) ∨
      ((op = 0x40 ∨ op = 0x41) ∧ (!(par % 256 = 1 ∨ par % 256 = 2) ∨ (hashLen (par / 256)).isNone)) ∨
      ((op = 0x42 ∨ op = 0x43) ∧ par % 256 ≠ 3) ∨
      ((op = 0x48 ∨ op = 0x49) ∧ (hashLen (par / 256)).isNone) then bad 6
  else none

def checkDesc (kind : Byte) (d : List Byte) : Option JobResult := if kind = 2 then checkComp d else checkCrypto d

/-- Pool of an operation (R375, R394, R397). -/
def poolOf (d : List Byte) : PoolKind :=
  let op := (dOp d).toNat
  if isCompOp (dOp d) then .comp
  else if 0x40 ≤ op then .pk
  else if op = 0x30 ∧ 8 ≤ (dParam d).toNat % 256 then .pk
  else .bulk

/-! ## Steps that can fail -/

/-- A step of a job: the machine, and a value or the result that ends the job. -/
abbrev Step (α : Type) := Body × Except JobResult α

def jbind {α β : Type} (x : Step α) (f : Body → α → Step β) : Step β :=
  match x with
  | (b, .ok v) => f b v
  | (b, .error e) => (b, .error e)

/-- A status whose counts are not stated (R379): the bytes consumed and produced are free within what the job may touch. -/
def Body.unspecified (b : Body) (st detail : Byte) (slen dlen : Nat) : Step Empty :=
  (b.spend, .error { status := st, detail := detail, consumed := BitVec.ofNat 32 (Config.freeNat b.freeCtr % (slen + 1)),
                     produced := BitVec.ofNat 32 (Config.freeNat (b.freeCtr + 1) % (dlen + 1)), check := 0 })

/-- An access of a job: PROTECTION with its reason, or ENGINE_ERROR at a lost line (R379, R437). -/
def jobAcc {α : Type} (x : Eng α) (slen dlen : Nat) : Step α :=
  match x with
  | (b, .ok v) => (b, .ok v)
  | (b, .error e) =>
    let r := match e with
      | .fault k => b.unspecified 0x03 k slen dlen
      | .lost _ => b.unspecified 0x16 0 slen dlen
    (r.1, .error (match r.2 with | .error z => z | .ok v => nomatch v))

/-! ## Chains (R377) -/

/-- Pieces of a source or destination: address and length. -/
abbrev Area := List (Nat × Nat)

def areaLen (a : Area) : Nat := a.foldl (fun n p => n + p.2) 0

/-- The area that an address and a length name, directly or by a chain. -/
def Body.area (b : Body) (o : Owner) (chain : Bool) (addr n : Nat) : Step Area :=
  if !chain then (b, .ok (if n = 0 then [] else [(addr, n)]))
  else if addr % 16 ≠ 0 then (b, .error (failed 0x15 4))
  else
    jbind (jobAcc (b.engRead o addr (16 * n)) 0 0) fun b bs =>
      let es := (List.range n).map fun i => (field bs (16 * i) 8, field bs (16 * i + 8) 4, field bs (16 * i + 12) 4)
      if es.any fun e => e.2.1 = 0 || e.2.2 != 0 then (b, .error (failed 0x15 4))
      else (b, .ok (es.map fun e => (e.1, e.2.1)))

/-- Reads an area. -/
def Body.areaRead (b : Body) (o : Owner) : Area → Eng (List Byte)
  | [] => (b, .ok [])
  | (a, n) :: r =>
    match b.engRead o a n with
    | (b, .error e) => (b, .error e)
    | (b, .ok bs) =>
      match Body.areaRead b o r with
      | (b, .error e) => (b, .error e)
      | (b, .ok rest) => (b, .ok (bs ++ rest))

/-- Writes bytes from the start of an area on. -/
def Body.areaWrite (b : Body) (o : Owner) : Area → List Byte → Eng Unit
  | [], _ => (b, .ok ())
  | (a, n) :: r, bs =>
    if bs.isEmpty then (b, .ok ())
    else match b.engWrite o a (bs.take n) with
      | (b, .error e) => (b, .error e)
      | (b, .ok ()) => Body.areaWrite b o r (bs.drop n)

/-- The area from an offset on. -/
def areaDrop : Area → Nat → Area
  | [], _ => []
  | (a, n) :: r, k => if n ≤ k then areaDrop r (k - n) else (a + k, n - k) :: r

/-- An attempt or a job that fails leaves any value in bytes that it was allowed to write (R379, R385): a free number of
free bytes from the start of the destination. -/
def Body.scribble (b : Body) (o : Owner) (a : Area) : Body :=
  let n := Config.freeNat b.freeCtr % (areaLen a + 1)
  (b.areaWrite o a (freeBytes b.freeCtr n)).1.spend

/-! ## State records (R387) -/

def recordLen (op : Byte) : Nat := if op.toNat < 0x18 then 0x9000 else 512

/-- Reads a state record and finds what it carries: STATE_INVALID when no such record was sealed for this slice and generation. -/
def Body.openRecord (b : Body) (o : Owner) (d : List Byte) : Step (SealedRec × List Byte) :=
  jbind (jobAcc (b.engRead o (dAux d) (recordLen (dOp d))) 0 0) fun b bs =>
    match b.io.sealedRecs.reverse.find? fun r => r.slice = o.slice && r.gen = o.gen && r.bytes = bs with
    | some r => (b, .ok (r, bs))
    | none => (b, .error (failed 0x14 1))

/-- Writes a state record. WORK and SEAL are not architected: free bytes. -/
def Body.sealRecord (b : Body) (o : Owner) (addr : Nat) (jobOp : Byte) (r : SealedRec) (sdone src slen sfl : Nat)
    (run : BitVec 32) : Eng Unit :=
  let head := pack [(2, 0x5352), (1, jobOp.toNat), (1, r.param.toNat % 256), (4, sdone), (8, src), (4, slen), (1, sfl),
                    (3, 0), (4, run.toNat), (4, 0)]
  let bs := head ++ freeBytes b.freeCtr (recordLen r.op - 32)
  let b := (b.modIo fun i => { i with sealedRecs := i.sealedRecs ++ [{ r with slice := o.slice, gen := o.gen, bytes := bs }] }).spend
  b.engWrite o addr bs

/-! ## Compression and decompression (R381 to R389) -/

/-- What a compression job works on: the stream so far, the bytes of its source consumed before, those it now reads, and where they lie. -/
structure StreamJob where
  op : Byte
  param : BitVec 16
  fin : Bool
  prev : List (List Byte)
  part : List Byte
  written : Nat
  src : List Byte
  /-- SRC, SLEN, SCHAIN, SDONE of the recorded source. -/
  srcAt : Nat
  slen : Nat
  schain : Bool
  sdone : Nat

/-- Outcome of a stream job: the new output, the source bytes consumed, and whether the job, or its stream, is over. -/
inductive StreamEnd where
  | exhausted
  | goesOn
  | over (check : BitVec 32)
  | error (status detail : Byte)

/-- Runs a compression or decompression job against a destination of `cap` bytes: output, consumed, end. -/
def StreamJob.run (s : StreamJob) (cap : Nat) : List Byte × Nat × StreamEnd :=
  let input := s.part ++ s.src
  let fr := s.param.toNat % 4
  if s.op = 1 then
    let out := (compressed s.param s.prev input s.fin).drop s.written
    if cap < out.length then
      let before := streamBytes s.param s.prev false
      let made := match inflate fr (before ++ (compressed s.param s.prev input s.fin).take (s.written + cap)) with
        | .ended _ o | .more o | .dataError _ _ o | .checksum _ _ o => o.length
      (out.take cap, min input.length (made - s.prev.flatten.length) - s.part.length, .exhausted)
    else (out, s.src.length, if s.fin then .over (streamCheck fr (s.prev.flatten ++ input)) else .goesOn)
  else
    let r := inflate fr input
    let whole := match r with | .ended _ o | .more o | .dataError _ _ o | .checksum _ _ o => o
    let out := whole.drop s.written
    if cap < out.length then (out.take cap, inflateUsed fr input (s.written + cap) - s.part.length, .exhausted)
    else match r with
      | .ended u o => (out, u - s.part.length, .over (streamCheck fr o))
      | .more _ => (out, s.src.length, if s.fin then .error 0x12 7 else .goesOn)
      | .dataError k u _ => (out, u - s.part.length, .error 0x12 k)
      | .checksum k u _ => (out, u - s.part.length, .error 0x13 k)

/-- The uncompressed data of a stream that its state record's running check covers. -/
def StreamJob.covered (s : StreamJob) (n : Nat) : List Byte :=
  let input := s.part ++ s.src.take n
  if s.op = 1 then s.prev.flatten ++ input
  else match inflate (s.param.toNat % 4) input with
    | .ended _ o | .more o | .dataError _ _ o | .checksum _ _ o => o

/-- Finishes a stream job: output, state record, result. -/
def Body.finishStream (b : Body) (o : Owner) (d : List Byte) (s : StreamJob) (dst : Area) : Step JobResult :=
  let x := s.run (areaLen dst)
  let out := x.1
  let used := x.2.1
  let dlen := areaLen dst
  jbind (jobAcc (b.areaWrite o dst out) s.src.length dlen) fun b _ =>
    let res (st det : Byte) (chk : BitVec 32) : JobResult :=
      { status := st, detail := det, consumed := BitVec.ofNat 32 used, produced := BitVec.ofNat 32 out.length, check := chk }
    let ended := match x.2.2 with | .goesOn => true | _ => false
    let save : Step Unit :=
      match x.2.2 with
      | .exhausted | .goesOn =>
        if dAux d = 0 then (b, .ok ())
        else
          let r : SealedRec :=
            { slice := o.slice, gen := o.gen, bytes := [], op := s.op, param := s.param, fin := s.fin,
              prev := if s.op = 1 && ended then s.prev ++ [s.part ++ s.src] else s.prev,
              part := if s.op = 1 && ended then [] else s.part ++ s.src.take used,
              written := if s.op = 1 && ended then 0 else s.written + out.length }
          let sfl := bit s.schain 0 + bit (used = s.src.length) 1 + bit s.fin 2
          let run := if s.op = 1 && s.param.toNat % 4 = 1 || s.op = 2 && s.param.toNat % 4 = 1 then adler32 (s.covered used) else crc32 (s.covered used)
          jobAcc (b.sealRecord o (dAux d) (dOp d) r (s.sdone + used) s.srcAt s.slen sfl run) s.src.length dlen
      | _ => (b, .ok ())
    jbind save fun b _ =>
      (b, .ok (match x.2.2 with
        | .exhausted => res 0x10 0 0
        | .goesOn => res 0x00 1 0
        | .over c => res 0x00 0 c
        | .error st det => res st det 0))
where
  bit (c : Bool) (n : Nat) : Nat := if c then 2 ^ n else 0

/-- COMPRESS and DECOMPRESS (R381, R388). -/
def Body.runStream (b : Body) (o : Owner) (d : List Byte) (src dst : Area) : Step JobResult :=
  let start : Step (List (List Byte) × List Byte × Nat) :=
    if !dFlag d 3 then (b, .ok ([], [], 0))
    else jbind (b.openRecord o d) fun b r =>
      if r.1.op != dOp d || r.1.param.toNat % 256 != (dParam d).toNat % 256 then (b, .error (failed 0x14 2))
      else (b, .ok (r.1.prev, r.1.part, r.1.written))
  jbind start fun b st =>
    jbind (jobAcc (b.areaRead o src) (areaLen src) (areaLen dst)) fun b bs =>
      b.finishStream o d
        { op := dOp d, param := dParam d, fin := dFlag d 2, prev := st.1, part := st.2.1, written := st.2.2, src := bs,
          srcAt := dSrc d, slen := dSlen d, schain := dFlag d 0, sdone := 0 } dst

/-- CONTINUE (R381, R386, R387): the remaining source of the record, as the job that wrote it described it. -/
def Body.runContinue (b : Body) (o : Owner) (d : List Byte) (dst : Area) : Step JobResult :=
  jbind (b.openRecord o d) fun b r =>
    if !isCompOp r.1.op then (b, .error (failed 0x14 2))
    else
      let bs := r.2
      let chain := (bs.getD 20 0).getLsbD 0
      let sdone := field bs 4 4
      jbind (b.area o chain (field bs 8 8) (field bs 16 4)) fun b src =>
        let rest := areaDrop src sdone
        jbind (jobAcc (b.areaRead o rest) (areaLen rest) (areaLen dst)) fun b s =>
          b.finishStream o d
            { op := r.1.op, param := r.1.param, fin := r.1.fin, prev := r.1.prev, part := r.1.part, written := r.1.written,
              src := s, srcAt := field bs 8 8, slen := field bs 16 4, schain := chain, sdone := sdone } dst

/-! ## Cryptography (R390 to R397) -/

/-- The key of a job: its owner, its type and the usage bit that the operation needs (R379, R392, R393). -/
def Body.jobKey (b : Body) (o : Owner) (handle : BitVec 32) (kinds : List Nat) (usage : Option Nat) : Step KeyEntry :=
  match b.keyOf o.half handle with
  | none => (b, .error (failed 0x20 1))
  | some e =>
    if !(e.part = o.part && e.asid = o.asid) then (b, .error (failed 0x20 2))
    else if !kinds.isEmpty && !kinds.contains e.ktype.toNat then (b, .error (failed 0x20 3))
    else match usage with
      | some u => if e.usage.getLsbD u then (b, .ok e) else (b, .error (failed 0x21 (BitVec.ofNat 8 u)))
      | none => (b, .ok e)

def okRes (consumed produced : Nat) : JobResult :=
  { status := 0, detail := 0, consumed := BitVec.ofNat 32 consumed, produced := BitVec.ofNat 32 produced, check := 0 }

/-- Writes a job's output: DESCRIPTOR_INVALID when the destination is too small (R386). -/
def Body.putOut (b : Body) (o : Owner) (dst : Area) (src : Nat) (out : List Byte) : Step JobResult :=
  if areaLen dst < out.length then (b, .error (failed 0x15 3))
  else jbind (jobAcc (b.areaWrite o dst out) src (areaLen dst)) fun b _ => (b, .ok (okRes src out.length))

/-- Key types of a bulk operation (R390). -/
def bulkKinds (op : Nat) : List Nat :=
  match op with
  | 0x10 | 0x11 | 0x14 | 0x15 => [1, 2]
  | 0x12 | 0x13 => [3]
  | 0x16 | 0x17 => [5]
  | _ => [4]

/-- Output of a cipher operation; none when the tag does not match (R390, R391). -/
def cipher (op : Nat) (key iv aad : List Byte) (tl : Nat) (msg : List Byte) : Option (List Byte) :=
  match op with
  | 0x10 => some (gcmEnc key iv aad tl msg)
  | 0x11 => gcmDec key iv aad tl msg
  | 0x12 => some (xts false key iv msg)
  | 0x13 => some (xts true key iv msg)
  | 0x14 => some (cbcEnc key iv msg)
  | 0x15 => some (cbcDec key iv msg)
  | 0x16 => some (chachaEnc key iv aad msg)
  | _ => chachaDec key iv aad msg

/-- Cipher operations (R390, R391). -/
def Body.runCipher (b : Body) (o : Owner) (d : List Byte) (src dst : Area) : Step JobResult :=
  let op := (dOp d).toNat
  let dec := op % 2 = 1
  let n := areaLen src
  let tl := tagLen d
  let outLen := if tl = 0 then n else if dec then n - tl else n + tl
  let ivLen := if op = 0x10 ∨ op = 0x11 ∨ op = 0x16 ∨ op = 0x17 then 12 else 16
  if (dec ∧ n < tl) ∨ 64 * mib < n ∨ ((op = 0x12 ∨ op = 0x13) ∧ (n < 16 ∨ 16 * mib < n)) ∨
      ((op = 0x14 ∨ op = 0x15) ∧ n % 16 ≠ 0) ∨ areaLen dst < outLen then
    (b, .error (failed 0x15 3))
  else
    jbind (b.jobKey o (dKey d) (bulkKinds op) (some (if dec then 1 else 0))) fun b key =>
      jbind (jobAcc (b.engRead o (dAux d) ivLen) n (areaLen dst)) fun b iv =>
        jbind (jobAcc (b.engRead o (field d 48 8) (field d 56 4)) n (areaLen dst)) fun b aad =>
          jbind (jobAcc (b.areaRead o src) n (areaLen dst)) fun b msg =>
            match cipher op key.material iv aad tl msg with
            | none =>
              -- Zero where written: how much had been written is not stated (R391).
              let k := Config.freeNat b.freeCtr % (outLen + 1)
              let b := b.spend
              jbind (jobAcc (b.areaWrite o dst (List.replicate k 0)) n (areaLen dst)) fun b _ =>
                (b, .ok { failed 0x22 with consumed := BitVec.ofNat 32 n })
            | some out => b.putOut o dst n out

/-- HASH and HMAC (R390), resumed and saved through a state record. -/
def Body.runHash (b : Body) (o : Owner) (d : List Byte) (src dst : Area) : Step JobResult :=
  let op := dOp d
  let n := areaLen src
  let len := (hashLen (dParam d).toNat).getD 0
  let key : Step Config.KeyVal :=
    if op = 0x18 then (b, .ok []) else jbind (b.jobKey o (dKey d) [4] (some 2)) fun b e => (b, .ok e.material)
  if (dFlag d 2 ∧ areaLen dst < len) ∨ 64 * mib < n then (b, .error (failed 0x15 3))
  else
    jbind key fun b km =>
      let start : Step (List Byte) :=
        if !dFlag d 3 then (b, .ok [])
        else jbind (b.openRecord o d) fun b r =>
          if r.1.op != op || r.1.param != dParam d then (b, .error (failed 0x14 2)) else (b, .ok r.1.part)
      jbind start fun b before =>
        jbind (jobAcc (b.areaRead o src) n (areaLen dst)) fun b msg =>
          if dFlag d 2 then
            b.putOut o dst n (if op = 0x18 then hashOf (dParam d).toNat (before ++ msg) else hmac (dParam d).toNat km (before ++ msg))
          else
            let r : SealedRec :=
              { slice := o.slice, gen := o.gen, bytes := [], op := op, param := dParam d, prev := [], part := before ++ msg,
                written := 0, fin := false }
            jbind (jobAcc (b.sealRecord o (dAux d) op r n (dSrc d) (dSlen d) (2 + if dFlag d 0 then 1 else 0) 0) n 0) fun b _ =>
              (b, .ok (okRes n 0))

/-- Creates a key entry and returns its handle at DST (R379, R394). -/
def Body.giveKey (b : Body) (o : Owner) (dst : Area) (src : Nat) (ktype usage : Byte) (material : List Byte) : Step JobResult :=
  if areaLen dst < 4 then (b, .error (failed 0x15 3))
  else match b.newKey o.half ktype usage o.part o.asid material with
    | (.error k, b) => (b, .error (failed 0x24 k))
    | (.ok h, b) => b.putOut o dst src (leBytes 4 h.toNat)

/-- Length of the key material that the module generates: HMAC's from SLEN, an asymmetric key's of its standard. -/
def Body.freshKey (b : Body) (ktype : Byte) (slen : Nat) : List Byte × Body :=
  (freeBytes b.freeCtr ((keyLen ktype).getD slen), b.spend)

/-- KEY_WRAP (R394, R395): a blob under the module wrapping key. -/
def Body.runWrap (b : Body) (o : Owner) (d : List Byte) (dst : Area) : Step JobResult :=
  jbind (b.jobKey o (dKey d) [] (some 4)) fun b e =>
    let k := e.material.length
    let nonce := freeBytes b.freeCtr 12
    let head := pack [(2, 0x4B42), (1, e.ktype.toNat), (1, e.usage.toNat), (2, k), (2, 0), (8, (b.part o.part).domain.toNat)] ++
      nonce ++ [0, 0, 0, 0]
    let ct := gcmEnc (padTo 32 Config.wrapKey) nonce head 16 e.material
    b.spend.putOut o dst 0 (head ++ ct)

/-- KEY_UNWRAP (R394, R395). -/
def Body.runUnwrap (b : Body) (o : Owner) (src dst : Area) : Step JobResult :=
  let n := areaLen src
  if areaLen dst < 4 then (b, .error (failed 0x15 3))
  else jbind (jobAcc (b.areaRead o src) n (areaLen dst)) fun b bs =>
    let k := field bs 4 2
    let head := bs.take 32
    match gcmDec (padTo 32 Config.wrapKey) ((bs.drop 16).take 12) head 16 ((bs.drop 32).take (k + 16)) with
    | none => (b, .error (failed 0x20 3))
    | some m =>
      if n < 48 + k ∨ field bs 0 2 ≠ 0x4B42 ∨ BitVec.ofNat 64 (field bs 8 8) ≠ (b.part o.part).domain then
        (b, .error (failed 0x20 3))
      else b.giveKey o dst n (bs.getD 2 0) (bs.getD 3 0) (padTo k m)

/-- KEY_DESTROY (R396); the caller has seen that no other job runs with the key. -/
def Body.runDestroy (b : Body) (o : Owner) (d : List Byte) : Step JobResult :=
  jbind (b.jobKey o (dKey d) [] none) fun b e =>
    (b.putKey o.half ((dKey d).toNat % 65536) { e with live := false, material := [] }, .ok (okRes 0 0))

/-- Encoded length of a signature, ciphertext or modulus of a key type (R397, FIPS 186-5, 203 and 204, RFC 8017 and 8032). -/
def pkLen (ktype : Nat) : Nat :=
  match ktype with
  | 8 => 256
  | 9 => 384
  | 10 => 512
  | 12 | 14 => 64
  | 13 => 96
  | 16 => 768
  | 17 => 1088
  | 18 => 1568
  | 20 => 2420
  | 21 => 3309
  | 22 => 4627
  | _ => 0

/-- Key types and usage bit of a public-key operation (R393, R397). -/
def pkNeeds (op : Nat) : List Nat × Nat :=
  match op with
  | 0x40 => ([8, 9, 10], 2)
  | 0x41 => ([8, 9, 10], 3)
  | 0x42 => ([8, 9, 10], 1)
  | 0x43 => ([8, 9, 10], 0)
  | 0x48 => ([12, 13], 2)
  | 0x49 => ([12, 13], 3)
  | 0x4C => ([14], 2)
  | 0x4D => ([14], 3)
  | 0x50 => ([16, 17, 18], 0)
  | 0x51 => ([16, 17, 18], 1)
  | 0x54 => ([20, 21, 22], 2)
  | _ => ([20, 21, 22], 3)

/-- A free one of some key types. -/
def freeType (k : Nat) (ts : List Nat) : Nat := ts.getD (Config.freeNat k % max ts.length 1) 0

/-- The key operand of a public-key operation: the entry's type and material, or a public key at AUX, whose type and length its
encoding gives and the spec does not (both are free; log entry 8). -/
def Body.pkOperand (b : Body) (o : Owner) (d : List Byte) : Step (Nat × List Byte) :=
  let needs := pkNeeds (dOp d).toNat
  if dFlag d 4 then
    let n := Config.freeNat b.freeCtr % 4096 + 1
    let ktype := freeType (b.freeCtr + 1) needs.1
    jbind (jobAcc (b.spend.spend.engRead o (dAux d) n) 0 0) fun b bs => (b, .ok (ktype, bs))
  else jbind (b.jobKey o (dKey d) needs.1 (some needs.2)) fun b e => (b, .ok (e.ktype.toNat, e.material))

/-- Public-key operations (R397). A destination of RSA_DECRYPT shorter than the modulus is too small, since the length of the message is not
known before the work (R386; log entry 8). -/
def Body.runPk (b : Body) (o : Owner) (d : List Byte) (src dst : Area) : Step JobResult :=
  let op := (dOp d).toNat
  let n := areaLen src
  let digest := (hashLen ((dParam d).toNat / 256)).getD 0
  if ((op = 0x40 ∨ op = 0x48) ∧ n ≠ digest) ∨ ((op = 0x4C ∨ op = 0x54) ∧ mib < n) then (b, .error (failed 0x15 3))
  else jbind (b.pkOperand o d) fun b key =>
    let len := pkLen key.1
    let out := Config.publicKey (dOp d) (dParam d) key.2 (freeBytes b.freeCtr 64)
    if (op = 0x42 ∧ (n ≠ len ∨ areaLen dst < len)) ∨ (op = 0x51 ∧ areaLen dst < 4) then (b, .error (failed 0x15 3))
    else if (op = 0x40 ∨ op = 0x43 ∨ op = 0x48 ∨ op = 0x4C ∨ op = 0x50 ∨ op = 0x54) ∧ areaLen dst < len then
      (b, .error (failed 0x15 3))
    else jbind (jobAcc (b.areaRead o src) n (areaLen dst)) fun b msg =>
      match op with
      | 0x41 | 0x49 | 0x4D | 0x55 =>
        (b, if (out msg).isSome then .ok (okRes n 0) else .error { failed 0x23 with consumed := BitVec.ofNat 32 n })
      | 0x51 => b.spend.giveKey o dst n 2 (BitVec.ofNat 8 ((dParam d).toNat / 256)) (padTo 32 ((out msg).getD []))
      | 0x42 =>
        match out msg with
        | some m => b.spend.putOut o dst n m
        -- The status of a ciphertext that does not open is not stated: free.
        | none => (b.spend, .error { failed (Config.freeByte b.freeCtr 0) with consumed := BitVec.ofNat 32 n })
      | _ => b.spend.putOut o dst n (padTo len ((out msg).getD []))

/-- What an operation does (R381, R390, R394, R397). -/
def Body.runOp (b : Body) (o : Owner) (d : List Byte) : Step JobResult :=
  let op := (dOp d).toNat
  jbind (if op = 3 then (b, .ok []) else b.area o (dFlag d 0) (dSrc d) (dSlen d)) fun b src =>
    jbind (b.area o (dFlag d 1) (dDst d) (dDlen d)) fun b dst =>
      match op with
      | 1 => if 16 * mib < areaLen src then (b, .error (failed 0x15 3)) else b.runStream o d src dst
      | 2 => if 64 * mib < areaLen src ∨ 64 * mib < areaLen dst then (b, .error (failed 0x15 3)) else b.runStream o d src dst
      | 3 => b.runContinue o d dst
      | 0x18 | 0x19 => b.runHash o d src dst
      | 0x30 =>
        let k := b.freshKey (BitVec.ofNat 8 (dParam d).toNat) (dSlen d)
        k.2.giveKey o dst 0 (BitVec.ofNat 8 (dParam d).toNat) (BitVec.ofNat 8 ((dParam d).toNat / 256)) k.1
      | 0x31 =>
        if areaLen dst < 4 then (b, .error (failed 0x15 3))
        else jbind (jobAcc (b.areaRead o src) (areaLen src) (areaLen dst)) fun b m =>
          let kt := BitVec.ofNat 8 (dParam d).toNat
          if !keyLenOk kt m.length then (b, .error (failed 0x15 3))
          else b.giveKey o dst m.length kt (BitVec.ofNat 8 ((dParam d).toNat / 256)) m
      | 0x32 => b.runWrap o d dst
      | 0x33 => b.runUnwrap o src dst
      | 0x34 => b.runDestroy o d
      | 0x35 =>
        jbind (b.jobKey o (dKey d) [8, 9, 10, 12, 13, 14, 16, 17, 18, 20, 21, 22] none) fun b e =>
          b.putOut o dst 0 (Config.publicOf e.ktype e.material)
      | _ => if 0x40 ≤ op then b.runPk o d src dst else b.runCipher o d src dst

/-! ## Jobs (R378, R380, R384, R385) -/

def engByte : Option EngineRef → Nat
  | none => 0xFF
  | some e => e.hub.val * 128 + (if e.pool = .pk then 16 else 0) + e.n.val

/-- The 32-byte record of a job (R378). -/
def Job.record (j : Job) (r : JobResult) : List Byte :=
  (j.desc.drop 40).take 8 ++ pack [(4, r.consumed.toNat), (4, r.produced.toNat), (4, r.check.toNat), (4, j.sqix.toNat),
    (1, (dOp j.desc).toNat), (1, r.status.toNat), (1, r.detail.toNat), (1, engByte j.last), (1, j.rerun), (3, 0)]

def Body.setJob (b : Body) (j j' : Job) : Body := b.modIo fun i => { i with jobs := i.jobs.map fun x => if x = j then j' else x }

/-- The job ends and gives its record. A job of an earlier generation gives RESETTING, or nothing once its slice is
being unbound (R365, R368). -/
def Body.endJob (b : Body) (j : Job) (r : JobResult) : Body :=
  let x := b.slice j.slice
  let b := b.modIo fun i => { i with jobs := i.jobs.erase j }
  if j.gen = x.gen then b.postRecord j.slice { src := .job, gen := some j.gen, bytes := j.record r }
  else match x.st with
    | .draining false | .bound =>
      b.postRecord j.slice { src := .job, gen := none, bytes := j.record { r with status := 0x01, detail := 0, check := 0 } }
    | _ => b

/-- How an engine access of a program ends it (R304, R437). -/
def EngErr.check (e : EngErr) (reason : Byte) : CceErr :=
  match e with
  | .fault _ => .check 0x21 reason
  | .lost pa => .lost pa

/-- A compression of a WRITE group is over: the job leaves its slice, and its program goes on, or ends with a check (R311). -/
def Body.packed (b : Body) (j : Job) (ix : Nat) (x : Except CceErr (List Byte × Nat)) : Body :=
  (b.modIo fun i => { i with jobs := i.jobs.erase j }).modRunning ix fun r =>
    match x with
    | .error e => { r with stop := some e }
    | .ok d => { r with group := r.group.map fun g => { g with staged := some d.1, packing := false, xlen := d.2 } }

/-- The outcome of a job is decided. A WRITE group whose compression slice is reset, or whose compression ends with VERIFY_MISMATCH, meets
COMPRESS_CHECK 1 or 3 (R401). -/
def Body.conclude (b : Body) (j : Job) (r : JobResult) : Body :=
  match j.chan with
  | some ix => b.packed j ix (.error (.check 0x22 (if r.status = 0x01 then 1 else 3)))
  | none => b.setJob j { j with st := .done r }

/-- The padded length of a WRITE group's data: whole blocks on a block device (R311). -/
def Body.padLen (b : Body) (j : JEntry) (n : Nat) : Nat :=
  match b.subch j.subchKey with
  | some c => let u := if c.kind = 1 then max c.blksz.toNat 1 else 1; (n + u - 1) / u * u
  | none => n

/-- A compression engine compresses a WRITE group of a channel program into staging memory (R311, R401). -/
def Body.compressGroup (b : Body) (j : Job) (h : HubId) (ix : Nat) : Body :=
  if j.gen ≠ (b.slice j.slice).gen then b.conclude j (failed 0x01)
  else match b.jGet ix, (b.running ix).bind fun r => r.group.map fun g => (r, g) with
    | some e, some (r, g) =>
      match b.areaRead { b.txOwner e r with half := h, eng := none } g.area with
      | (b, .error x) => b.packed j ix (.error (x.check 3))
      | (b, .ok src) =>
        let out := compressed (dParam j.desc) [] src true
        b.packed j ix (if b.padLen e g.count < out.length then .error (.check 0x22 4)
          else .ok (padTo (b.padLen e out.length) out, out.length))
    | _, _ => b.packed j ix (.error (.check 0x22 1))

def Body.poolAt (b : Body) (h : HubId) (p : PoolKind) : PoolClock := vget b.io.pools (h.val * 3 + poolIx p) {}
def Body.setPool (b : Body) (h : HubId) (p : PoolKind) (c : PoolClock) : Body :=
  b.modIo fun i => { i with pools := vset i.pools (h.val * 3 + poolIx p) c }

def PoolClock.at (c : PoolClock) (s : SliceId) : Rat := (tGet c.f s.val).getD 0

/-- Bits of a slice's ENGMASK for a pool; a value of 0 admits every engine of the pool (R344). -/
def Slice.admits (x : Slice) (e : EngineRef) : Bool :=
  let m := match e.pool with
    | .comp | .bulk => x.engmask &&& 0x0F
    | .pk => (x.engmask >>> 4) &&& 0x03
  m = 0 || m.getLsbD e.n.val

/-- The engines on which a slice's jobs of a pool may run now (R343, R375): those in service that ENGMASK admits on the
serving hub; when none is, those of the same number on the other hub, never in SPLIT. -/
def Body.jobEngines (b : Body) (s : SliceId) (p : PoolKind) : List EngineRef :=
  let x := b.slice s
  let h := b.servingHub s x.part
  let near := (enginesOf h p).filter fun e => x.admits e && b.engUp e
  if !near.isEmpty then near
  else if b.isSplit then []
  else (enginesOf (otherHub h) p).filter fun e => x.admits e && b.engUp e

def Body.runningOn (b : Body) (e : EngineRef) : Option Job := b.io.jobs.find? fun j => j.st = .running e

/-- Cost units of a public-key job (R397). -/
def pkCost (op : Nat) (ktype : Nat) (len : Nat) : Nat :=
  match op with
  | 0x40 | 0x42 => if ktype = 8 then 50 else if ktype = 9 then 150 else 350
  | 0x41 | 0x43 => if ktype = 8 then 2 else if ktype = 9 then 4 else 6
  | 0x48 => if ktype = 12 then 5 else 10
  | 0x49 => if ktype = 12 then 12 else 25
  | 0x4C => 4 + (len + 65535) / 65536
  | 0x4D => 8 + (len + 65535) / 65536
  | 0x54 => 120
  | 0x50 | 0x51 => 2
  | _ => 5

/-- Cost of a job of a given input length (R362). A public key at AUX is of a free type, and where the rule of R397 counts 64 KiB of a
message, a part counts as a whole (log entry 8). -/
def Body.jobCost (b : Body) (h : HubId) (d : List Byte) (len : Nat) : Nat :=
  match poolOf d with
  | .pk =>
    let op := (dOp d).toNat
    let ktype := if dFlag d 4 then freeType b.freeCtr (pkNeeds op).1 else ((b.keyOf h (dKey d)).map fun e => e.ktype.toNat).getD 8
    pkCost op ktype len
  | _ => (len + 4095) / 4096 * 4096

/-- The part of a job's cost that its input makes (R362, R397). -/
def inputCost (d : List Byte) (cost : Nat) : Nat :=
  match poolOf d with
  | .pk => match (dOp d).toNat with
    | 0x4C => cost - 4
    | 0x4D => cost - 8
    | _ => 0
  | _ => cost

/-- Input length of a job, as far as its chain or state record shows it before it runs. -/
def Body.inputLen (b : Body) (o : Owner) (d : List Byte) : Nat :=
  if dOp d = 3 then
    match (b.openRecord o d).2 with
    | .ok r => field r.2 16 4 - field r.2 4 4
    | .error _ => 0
  else match (b.area o (dFlag d 0) (dSrc d) (dSlen d)).2 with
    | .ok a => areaLen a
    | .error _ => 0

/-- A slice that has no ready or running job in a pool gets one: its virtual time is not behind the pool's (R362). -/
def Body.joinPool (b : Body) (h : HubId) (p : PoolKind) (s : SliceId) : Body :=
  if b.io.jobs.any fun k => k.slice = s && poolOf k.desc = p then b
  else let c := b.poolAt h p; b.setPool h p { c with f := tPut c.f s.val (max (c.at s) c.v) }

/-- Charges a slice for a descriptor that is refused: the cost of a job of no input (R380). -/
def Body.charge (b : Body) (h : HubId) (s : SliceId) (d : List Byte) : Body :=
  let p := poolOf d
  let w : Rat := (max (b.slice s).weight.toNat 1 : Nat)
  let b := b.joinPool h p s
  let c := b.poolAt h p
  b.setPool h p { c with f := tPut c.f s.val (c.at s + (b.jobCost h d 0 : Nat) / w) }

/-- Reads one descriptor of a slice's ring and decides it up to its fields (R353, R365, R380). A code without an operation has no stated
outcome: its record's STATUS and DETAIL are free (log entry 8). -/
def Body.readJob (b : Body) (s : SliceId) : Option Body :=
  let x := b.slice s
  let busy := b.occ s
  match b.readEntryAtHead s 64 with
  | (none, _) => none
  | (some d, b) =>
    let h := b.servingHub s x.part
    let j : Job :=
      { slice := s, gen := x.gen, sqix := x.sq.head, desc := d, cost := 0, st := .ready, used := [], rerun := 0, last := none }
    let refuse (b : Body) (r : JobResult) : Body :=
      (b.charge h s d).postRecord s { src := .job, gen := some x.gen, bytes := j.record r }
    some <|
      match x.st with
      | .draining true => b
      | .draining false => refuse b (failed 0x01)
      | _ =>
        if x.limit.toNat ≤ busy then refuse (b.modSlice s fun x => { x with qfull := sat32 x.qfull }) (failed 0x02)
        else match checkDesc x.kind d with
          | some r => refuse b r
          | none =>
            if unlistedOp (dOp d) then refuse b.spend (failed (Config.freeByte b.freeCtr 0) (Config.freeByte b.freeCtr 1))
            else
              let b := b.joinPool h (poolOf d) s
              b.modIo fun i => { i with jobs := i.jobs ++ [{ j with cost := b.jobCost h d (b.inputLen (b.ownerOf s x.gen h) d) }] }

/-- Reads what a ring announces; `fuel` bounds the entries. -/
def Body.readJobs (b : Body) (s : SliceId) : Nat → Body
  | 0 => b
  | n + 1 => match b.readJob s with
    | none => b
    | some b => Body.readJobs b s n

def sliceIds (b : Body) : List SliceId :=
  b.io.slices.filterMap fun e => if h : e.1 < 8192 then some ⟨e.1, h⟩ else none

/-- Head job of a slice in a pool. -/
def Body.headJob (b : Body) (s : SliceId) (p : PoolKind) : Option Job :=
  b.io.jobs.find? fun j => j.slice = s && j.st = .ready && poolOf j.desc = p

/-- Starts a job on an engine, which leaves the proving loop (R362, R429). `rerun` counts the starts after the first (R385). -/
def Body.startJob (b : Body) (j : Job) (e : EngineRef) (rerun : Nat) : Body :=
  let now := b.tod e.hub
  (b.setJob j { j with st := .running e, used := j.used ++ [e], last := some e, rerun := rerun }).modEng e fun g =>
    { g with proving := false, lastJob := now }

/-- The slice that the round serves next: least virtual time, lowest number on a tie (R362). -/
def leastKey (key : SliceId → Rat) : List SliceId → Option SliceId
  | [] => none
  | s :: r => match leastKey key r with
    | none => some s
    | some t => if key t < key s ∨ (key t = key s ∧ t < s) then some t else some s

/-- Slices whose ready jobs stand in rings join their pool when they become ready (R362). -/
def PoolClock.join (c : PoolClock) (ready : List SliceId) : PoolClock :=
  { c with
    f := ready.foldl (fun f s => if c.joined.contains s.val then f else tPut f s.val (max (c.at s) c.v)) c.f
    joined := ready.map (·.val) }

/-- The slice that a pool serves next, of those that are ready with head jobs of the given costs (R362). -/
def Body.poolNext (b : Body) (c : PoolClock) (cost : SliceId → Nat) (ready : List SliceId) : Option SliceId :=
  leastKey (fun s => c.at s + (cost s : Nat) / ((max (b.slice s).weight.toNat 1 : Nat) : Rat)) ready

/-- The pool after a job of a slice has been started; `left` are the slices that still have a ready job (R362). -/
def Body.poolServe (b : Body) (c : PoolClock) (s : SliceId) (cost : Nat) (left : List SliceId) : PoolClock :=
  let f := tPut c.f s.val (c.at s + (cost : Nat) / ((max (b.slice s).weight.toNat 1 : Nat) : Rat))
  let v := match left.map fun s => ((tGet f s.val).getD 0 : Rat) with | [] => c.v | x :: r => r.foldl min x
  { c with v := v, f := f, joined := left.map (·.val) }

/-- One start of an arbitration round (R362); none when the round is over. The slices of the pool are those that its hub serves, and those
of the other hub whose jobs may run here (R343); entry to SPLIT holds those of a spanning partition (R453). -/
def Body.arbitrate1 (b : Body) (h : HubId) (p : PoolKind) : Option Body :=
  let mine (s : SliceId) : Bool := !b.workHeld s (b.slice s).part &&
    (b.servingHub s (b.slice s).part = h || (b.jobEngines s p).any (·.hub = h))
  let ready := (sliceIds b).filter fun s => (b.headJob s p).isSome && mine s
  let able (e : EngineRef) : List SliceId := ready.filter fun s => (b.jobEngines s p).contains e
  let free := (enginesOf h p).filter fun e => b.engUp e && (b.runningOn e).isNone && !(able e).isEmpty
  match b.pick free with
  | (none, _) => none
  | (some e, b) =>
    let c := b.poolAt h p
    let cost (s : SliceId) : Nat := ((b.headJob s p).map (·.cost)).getD 0
    match b.poolNext c cost (able e) with
    | none => none
    | some s =>
      match b.headJob s p with
      | none => none
      | some j =>
        let b := b.startJob j e j.rerun
        some (b.setPool h p (b.poolServe c s j.cost ((sliceIds b).filter fun s => (b.headJob s p).isSome && mine s)))

def Body.arbitrateAll (b : Body) (h : HubId) (p : PoolKind) : Nat → Body
  | 0 => b
  | n + 1 => match b.arbitrate1 h p with
    | none => b
    | some b => Body.arbitrateAll b h p n

/-- An arbitration round of a pool, after its engines' rings have been read (R353, R362). -/
def execArbitrationRound (h : HubId) (p : PoolKind) (s : State) : Out :=
  onBody (fun b =>
    if !b.serving then b
    else
      let kind : Byte := if p = .comp then 2 else 3
      let b := (sliceIds b).foldl (fun b s =>
        let x := b.slice s
        if x.kind = kind ∧ x.st ≠ .free ∧ b.servingHub s x.part = h then b.readJobs s (2 ^ 16 + 1) else b) b
      b.arbitrateAll h p 4) s

/-- The refund of a job that failed a check of R380: it is charged as a job of no input. -/
def Body.refund (b : Body) (j : Job) (r : JobResult) : Body :=
  if r.status.toNat = 0x14 ∨ r.status.toNat = 0x15 ∨ r.status.toNat = 0x20 ∨ r.status.toNat = 0x21 then
    let p := poolOf j.desc
    let h := (j.last.map (·.hub)).getD (b.servingHub j.slice (b.slice j.slice).part)
    let c := b.poolAt h p
    let w : Rat := (max (b.slice j.slice).weight.toNat 1 : Nat)
    let less : Rat := (inputCost j.desc j.cost : Nat) / w
    b.setPool h p { c with f := tPut c.f j.slice.val (c.at j.slice - less) }
  else b

/-- Does another running job use the key that a KEY_DESTROY names (R396)? -/
def Body.keyInUse (b : Body) (j : Job) : Bool :=
  b.io.jobs.any fun k => k != j && dKey k.desc = dKey j.desc && match k.st with | .running _ | .rerun => true | _ => false

/-- A ring's job does its work on an engine. The statuses whose row leaves the destination unspecified leave free bytes in it (R379). -/
def Body.runJob (b : Body) (e : EngineRef) (j : Job) : Body :=
  let o := { b.ownerOf j.slice j.gen e.hub with gen := j.gen }
  let r := b.runOp o j.desc
  let res := match r.2 with | .ok x | .error x => x
  let b := r.1.refund j res
  let b := if res.status = 0x03 ∨ res.status = 0x16 then
      match (b.area o (dFlag j.desc 1) (dDst j.desc) (dDlen j.desc)).2 with
      | .ok a => b.scribble o a
      | .error _ => b
    else b
  let now := b.tod e.hub
  (b.modEng e fun g => { g with lastJob := now }).setJob j { j with st := .done res }

/-- The job that an engine runs does its work, when it is one of the given operations. A KEY_DESTROY waits for the
jobs that use its key. -/
def Body.doJob (b : Body) (e : EngineRef) (ops : List Nat) : Body :=
  match b.runningOn e with
  | none => b
  | some j =>
    let op := (dOp j.desc).toNat
    if !b.serving || !ops.contains op || (op = 0x34 && b.keyInUse j) then b
    else
      match j.chan with
      | some ix => (b.compressGroup j e.hub ix).modEng e fun g => { g with lastJob := b.tod e.hub }
      | none => b.runJob e j

def execCompress (e : EngineRef) (s : State) : Out := onBody (fun b => b.doJob e [0x01]) s
def execDecompress (e : EngineRef) (s : State) : Out := onBody (fun b => b.doJob e [0x02]) s
def execContinueJob (e : EngineRef) (s : State) : Out := onBody (fun b => b.doJob e [0x03]) s
def execAesGcmEncrypt (e : EngineRef) (s : State) : Out := onBody (fun b => b.doJob e [0x10]) s
def execAesGcmDecrypt (e : EngineRef) (s : State) : Out := onBody (fun b => b.doJob e [0x11]) s
def execAesXtsEncrypt (e : EngineRef) (s : State) : Out := onBody (fun b => b.doJob e [0x12]) s
def execAesXtsDecrypt (e : EngineRef) (s : State) : Out := onBody (fun b => b.doJob e [0x13]) s
def execAesCbcEncrypt (e : EngineRef) (s : State) : Out := onBody (fun b => b.doJob e [0x14]) s
def execAesCbcDecrypt (e : EngineRef) (s : State) : Out := onBody (fun b => b.doJob e [0x15]) s
def execChachaEncrypt (e : EngineRef) (s : State) : Out := onBody (fun b => b.doJob e [0x16]) s
def execChachaDecrypt (e : EngineRef) (s : State) : Out := onBody (fun b => b.doJob e [0x17]) s
def execHash (e : EngineRef) (s : State) : Out := onBody (fun b => b.doJob e [0x18]) s
def execHmac (e : EngineRef) (s : State) : Out := onBody (fun b => b.doJob e [0x19]) s
def execKeyGenerate (e : EngineRef) (s : State) : Out := onBody (fun b => b.doJob e [0x30]) s
def execKeyImportClear (e : EngineRef) (s : State) : Out := onBody (fun b => b.doJob e [0x31]) s
def execKeyWrap (e : EngineRef) (s : State) : Out := onBody (fun b => b.doJob e [0x32]) s
def execKeyUnwrap (e : EngineRef) (s : State) : Out := onBody (fun b => b.doJob e [0x33]) s
def execKeyDestroy (e : EngineRef) (s : State) : Out := onBody (fun b => b.doJob e [0x34]) s
def execKeyPublic (e : EngineRef) (s : State) : Out := onBody (fun b => b.doJob e [0x35]) s
def execRsaSign (e : EngineRef) (s : State) : Out := onBody (fun b => b.doJob e [0x40]) s
def execRsaVerify (e : EngineRef) (s : State) : Out := onBody (fun b => b.doJob e [0x41]) s
def execRsaDecrypt (e : EngineRef) (s : State) : Out := onBody (fun b => b.doJob e [0x42]) s
def execRsaEncrypt (e : EngineRef) (s : State) : Out := onBody (fun b => b.doJob e [0x43]) s
def execEcdsaSign (e : EngineRef) (s : State) : Out := onBody (fun b => b.doJob e [0x48]) s
def execEcdsaVerify (e : EngineRef) (s : State) : Out := onBody (fun b => b.doJob e [0x49]) s
def execEd25519Sign (e : EngineRef) (s : State) : Out := onBody (fun b => b.doJob e [0x4C]) s
def execEd25519Verify (e : EngineRef) (s : State) : Out := onBody (fun b => b.doJob e [0x4D]) s
def execMlkemEncaps (e : EngineRef) (s : State) : Out := onBody (fun b => b.doJob e [0x50]) s
def execMlkemDecaps (e : EngineRef) (s : State) : Out := onBody (fun b => b.doJob e [0x51]) s
def execMldsaSign (e : EngineRef) (s : State) : Out := onBody (fun b => b.doJob e [0x54]) s
def execMldsaVerify (e : EngineRef) (s : State) : Out := onBody (fun b => b.doJob e [0x55]) s

/-- The oldest finished job of a slice writes its record (R378). -/
def execJobComplete (sl : SliceId) (s : State) : Out :=
  onBody (fun b =>
    if !b.serving then b
    else match b.io.jobs.find? fun j => j.slice = sl && match j.st with | .done _ => true | _ => false with
      | some j => match j.st with | .done r => b.endJob j r | _ => b
      | none => b) s

/-- What ends a job whose attempts are used up (R384). -/
def lastFailure (d : List Byte) : JobResult := if isCompOp (dOp d) then failed 0x11 else failed 0x16

/-- An engine leaves service (R384, R429, R430): recorded, and counted when it ran a job. -/
def Body.dropEngine (b : Body) (e : EngineRef) (mark : Service) (code : BitVec 16) (data : BitVec 128) : Body :=
  let g := b.eng e
  let now := b.tod e.hub
  let to' := leaveService mark g.returnedAt now
  let b := b.modEng e fun g => { g with service := to', rounds := 0, proving := to' != .outUntilProving }
  let b := b.report (engLoc e) code data
  let b := b.count 0x06 (engLoc e).toNat fun r => { r with lastTod := b.ctl.tod[e.hub] }
  if to' = .outUntilProving then (b.report (engLoc e) 0x0404).outEng e else b

/-- An attempt ends (R383 to R385): the engine is marked suspect or check-stopped; the job waits for another engine, or
ends at its third failure, or is reset with its slice. -/
def execAttemptEnd (e : EngineRef) (k : AttemptEndKind) (s : State) : Out :=
  onBody (fun b =>
    match b.runningOn e with
    | none => b
    | some j =>
      if !b.serving then b
      else
        let b := match k with
          | .mismatch => b.dropEngine e .suspect 0x0402 (dataOf [(2, j.slice.val)])
          | .checkstop =>
            (b.dropEngine e .checkStopped 0x0401 (dataOf [(4, 1)])).freezeSilt 1 (if b.isSplit then [e.hub] else [0, 1])
        let b := b.count 0x06 (engLoc e).toNat Tilth.event
        let o := { b.ownerOf j.slice j.gen e.hub with gen := j.gen }
        let b := match (b.area o (dFlag j.desc 1) (dDst j.desc) (dDlen j.desc)).2 with
          | .ok a => b.scribble o a
          | .error _ => b
        if j.gen ≠ (b.slice j.slice).gen then b.conclude j (failed 0x01)
        else if 3 ≤ j.used.length then b.conclude j (lastFailure j.desc)
        else b.setJob j { j with st := .rerun }) s

/-- A job starts again on an engine in service that it has not used (R384): one that ENGMASK admits on the serving hub,
else one of the other hub; with none left in the module, it ends. -/
def execRerunStart (sl : SliceId) (s : State) : Out :=
  onBody (fun b =>
    match b.io.jobs.find? fun j => j.slice = sl && j.st = .rerun with
    | none => b
    | some j =>
      if !b.serving then b
      else if j.gen ≠ (b.slice sl).gen then b.conclude j (failed 0x01)
      else
        let x := b.slice sl
        let h := b.servingHub sl x.part
        let fit (k : HubId) : List EngineRef :=
          (enginesOf k (poolOf j.desc)).filter fun e => x.admits e && b.engUp e && !j.used.contains e
        let near := fit h
        let far := if b.isSplit then [] else fit (otherHub h)
        let idle := (if near.isEmpty then far else near).filter fun e => (b.runningOn e).isNone
        if near.isEmpty && far.isEmpty then b.conclude j (lastFailure j.desc)
        else match b.pick idle with
          | (none, b) => b
          | (some e, b) =>
            let b := b.startJob j e (j.rerun + 1)
            b.count 0x06 (engLoc e).toNat fun r => { r with spec0 := sat32 r.spec0 }) s

end Sys2Proof.Machine
end

