-- ==== Sys2Proof/Machine/Slices.lean ====
section
/-!
DEFINITION. The life of a slice: binding, reset and unbind with work in flight, the end of a drain, and the engine writes
that are in flight (R344 to R347, R365 to R368).
-/

namespace Sys2Proof.Machine

/-- The generation after `g` (R347). -/
def nextGen (g : BitVec 16) : BitVec 16 := if g = 0xFFFF then 1 else g + 1

/-- BIND_SLICE on a FREE slice: its registers take their reset values and its generation advances (R344, R346). -/
def Body.bindSlice (b : Body) (s : SliceId) (r : List Byte) : Body :=
  let x := b.slice s
  let y : Slice :=
    { st := .bound, kind := r.getD 2 0, part := r.getD 3 0, asid := BitVec.ofNat 16 (field r 4 2),
      weight := BitVec.ofNat 16 (field r 6 2), s1root := BitVec.ofNat 64 (field r 8 8), limit := BitVec.ofNat 16 (field r 16 2),
      target := field r 18 2, rkind := r.getD 20 0, engmask := r.getD 21 0, gen := nextGen x.gen,
      lastAdv := some (b.tod (b.servingHub s (r.getD 3 0))) }
  (b.engForget s).setSlice s y

/-- The RESETTING record that takes the place of a job's record or of a NETQ completion (R365, R367). -/
def resettingBytes (src : RecSrc) (bs : List Byte) : List Byte :=
  match src with
  | .netq => slice bs 0 8 ++ List.replicate 8 0 ++ slice bs 16 3 ++ [1] ++ List.replicate 12 0
  | _ => slice bs 0 8 ++ List.replicate 12 0 ++ slice bs 20 5 ++ [1, 0] ++ slice bs 27 4 ++ [0]

def isWorkSrc : RecSrc → Bool
  | .job | .netq => true
  | _ => false

/-- Records of the slice that are in flight with the counters reserved for them, in counter order. -/
def Body.inFlight (b : Body) (s : SliceId) : List (BitVec 32 × HeldRec) :=
  (b.slice s).reserved.filterMap fun i =>
    b.io.writes.findSome? fun w =>
      if w.slice = s then match w.done with | some (j, r) => if j = i then some (i, { r with bytes := w.bytes }) else none | none => none
      else none

/-- Gives the records that RESET_SLICE finds unwritten another outcome (R365, R367): RESETTING records take the place of those
of jobs and work requests; those of transactions become orphans. -/
def Body.resetRecords (b : Body) (s : SliceId) : Body :=
  let x := b.slice s
  let again : List HeldRec := ((b.inFlight s).filter fun e => isWorkSrc e.2.src).map fun e =>
    { src := e.2.src, gen := some x.gen, ctr := some e.1, bytes := resettingBytes e.2.src e.2.bytes }
  let bound := again.filterMap (·.ctr)
  let kept := x.waiting.filterMap fun r =>
    match r.src with
    | .final _ | .progress _ => none
    | .job | .netq =>
      if r.ctr.any bound.contains then none
      else some { r with gen := some x.gen, bytes := if r.gen = some x.gen then r.bytes else resettingBytes r.src r.bytes }
    | .accepted _ => none
    | .notice => some { r with gen := some x.gen }
    | .void => some r
  b.setSlice s { x with waiting := again ++ kept }

/-- Drops every record that waits, when UNBIND_SLICE is accepted (R368). -/
def Body.dropRecords (b : Body) (s : SliceId) : Body := b.modSlice s fun x => { x with waiting := [], reserved := [] }

/-- The slice's transactions become orphans; those whose record waits leave for the orphan queue (R334). -/
def Body.orphanAll (b : Body) (s : SliceId) : Body :=
  let mine := b.outstanding.filter fun e => e.2.slice.toNat = s.val
  let held : List Nat := (b.slice s).waiting.filterMap fun r => match r.src with | .final ix => some ix | _ => none
  let b := (mine.filter fun e => !e.2.orphan).foldl (fun b e =>
    (b.jMod e.1 fun j => { j with jflags := j.jflags ||| 2 }).modRunning e.1 fun r => { r with resetTod := (b.slice s).resetTod }) b
  held.foldl (fun b ix => b.toOrphan ix) b

/-- The queued jobs of a slice, and those whose attempt has failed (R385), end: with RESETTING records, or with none (R365, R368). -/
def Body.resetJobs (b : Body) (s : SliceId) (records : Bool) : Body :=
  let queued := b.io.jobs.filter fun j => j.slice = s && match j.st with | .ready | .rerun | .done _ => true | _ => false
  queued.foldl (fun b j =>
    if j.chan.isSome then b.conclude j (failed 0x01)
    else
    let b := b.modIo fun i => { i with jobs := i.jobs.erase j }
    if records then
      b.postRecord s { src := .job, gen := some (b.slice s).gen, bytes := j.record (failed 0x01) }
    else b) b

/-- Every queue pair enters ERROR and every region is disabled; the work requests complete with RESETTING, or with nothing (R365, R368,
R373). -/
def Body.resetQps (b : Body) (s : SliceId) (records : Bool) : Body :=
  let x := b.slice s
  let b := b.setSlice s { x with
    mrs := x.mrs.map fun e => (e.1, { e.2 with en := false })
    qps := (List.range 256).map fun q => (q, { b.qp s q with st := 2, err := 1, sent := [], recvs := [] }) }
  x.qps.foldl (fun b e =>
    let b := if records then b.netqEnd s e.1 (some x.gen) 1 e.2.work else b
    b.refuseWr s e.1) b

/-- RESET_SLICE or UNBIND_SLICE is accepted (R346, R347, R365, R366, R368). -/
def Body.startDrain (b : Body) (s : SliceId) (toFree : Bool) (ticket : Option (BitVec 32)) : Body :=
  let x := b.slice s
  let now := b.tod (b.servingHub s x.part)
  let b := b.setSlice s { x with
    gen := nextGen x.gen
    st := .draining toFree
    lastAdv := some now
    resetTod := now
    drainTickets := x.drainTickets ++ ticket.toList
    rkind := if toFree then 0 else x.rkind
    arm := if toFree then false else x.arm }
  let b := b.engForget s
  let b := if x.kind = 1 then b.orphanAll s else b
  let b := if toFree then b.dropRecords s else b.resetRecords s
  let b := if x.kind = 2 ∨ x.kind = 3 then b.resetJobs s (!toFree) else b
  let b := if x.kind = 4 then b.resetQps s (!toFree) else b
  if toFree then b else b.placeRecords s false (b.slice s).waiting.length

/-- Reads the entries left in a draining CHANNEL ring; each gets a RESETTING refusal (R288, R365). `refuse` gives the record of
a Start Record. -/
def Body.refuseStarts (b : Body) (s : SliceId) (refuse : Body → List Byte → List Byte) : Nat → Body
  | 0 => b
  | n + 1 => match b.readEntryAtHead s 32 with
    | (none, b) => b
    | (some d, b) =>
      let b := b.postRecord s { src := .notice, gen := some (b.slice s).gen, bytes := refuse b d }
      Body.refuseStarts b s refuse n

/-- The drain ends (R366 to R368): every reserved counter without a record receives a void entry, and the slice is BOUND, or
FREE with nothing left. -/
def Body.endDrain (b : Body) (s : SliceId) (refuse : Body → List Byte → List Byte) : Body :=
  let x := b.slice s
  match x.st with
  | .draining toFree =>
    if b.io.jobs.any fun j => j.slice = s then b
    else
      let tickets := x.drainTickets
      let done (b : Body) : Body := tickets.foldl (fun b t => b.finishTicket t stDone 0 []) b
      if toFree then
        done ((b.engForget s).setSlice s { gen := x.gen, lastAdv := x.lastAdv })
      else
        let b := if x.kind = 1 then b.refuseStarts s refuse (2 ^ 16 + 1)
          else if x.kind = 2 ∨ x.kind = 3 then b.readJobs s (2 ^ 16 + 1) else b
        let x := b.slice s
        let bound := x.waiting.filterMap (·.ctr)
        let flying := (b.io.writes.filter fun w => w.slice = s && w.gen = x.gen).filterMap fun w => w.done.map (·.1)
        let bare := x.reserved.filter fun i => !bound.contains i && !flying.contains i
        let voids : List HeldRec := bare.map fun i => { src := .void, gen := some x.gen, ctr := some i, bytes := voidEntry }
        let b := b.setSlice s { x with
          st := .bound
          waiting := voids ++ x.waiting
          drainTickets := []
          sq := { x.sq with head := x.sq.tail } }
        done (b.placeRecords s true (b.slice s).waiting.length)
  | _ => b

/-- The oldest engine write in flight reaches its home (R347), once no hold defers the line's invalidation (R217). -/
def execDmaWrite (s : State) : Out :=
  onBody (fun b =>
    match b.io.writes with
    | [] => b
    | w :: r => if b.lineHeld (lineNo w.pa) then b else (b.modIo fun i => { i with writes := r }).landWrite w) s

/-- The oldest engine write has been in flight for 100 ms and is dropped as a stale one is (R347). -/
def execStaleWriteExpiry (s : State) : Out :=
  onBody (fun b =>
    match b.io.writes with
    | [] => b
    | w :: r =>
      let b := b.reach (b.servingHub w.slice (b.slice w.slice).part) (w.issued + 100000000)
      let b := b.modIo fun i => { i with writes := r }
      let b := b.modSlice w.slice fun x => { x with dropped := sat32 x.dropped }
      match w.done with
      | some (i, h) =>
        if (b.slice w.slice).gen = w.gen then
          -- The counter keeps its record: the entry is written again with identical bytes (R323, R354).
          b.modSlice w.slice fun x => { x with waiting := { h with ctr := some i } :: x.waiting }
        else match h.src with
          | .final ix => b.toOrphan ix
          | _ => b
      | none => b) s

/-- A record that waits for space, or for a fault to be cleared, is written (R307, R356). -/
def execHeldRecordWrite (sl : SliceId) (s : State) : Out :=
  onBody (fun b => if b.serving then (b.placeRecord sl false).getD b else b) s

end Sys2Proof.Machine
end

