-- ==== Sys2Proof/Machine/Starts.lean ====
section
/-!
DEFINITION. Channel starts: paths, the engines that serve a program, completion records, and the checks of a Start Record (R281 to R290,
R298 to R303, R312 to R317).
-/

namespace Sys2Proof.Machine

/-! ## Paths (R283 to R285, R312, R460) -/

def portLoc (p : PortId) : BitVec 16 := octetLoc (octetOfPort p) (1 + p.toNat % 8)
def portHalf (p : PortId) : HubId := halfOfOctet (octetOfPort p)

/-- An octet is in an operating mode: its MODE is 1 to 4 and its domain is on (R407). -/
def Body.octetOn (b : Body) (o : OctetId) : Bool := (b.io.octets[o]).mode != 0 && b.domainOn (216 + o.val)

def Body.port (b : Body) (p : PortId) : Port := (tGet b.io.ports p.toNat).getD {}
def Body.portUp (b : Body) (p : PortId) : Bool := (b.port p).st = .up

/-- A target that paths on ports of both hubs name (R460). -/
def Body.sharedTarget (b : Body) (target : BitVec 16) : Bool :=
  ([0, 1] : List HubId).all fun h => b.io.subchs.any fun c => c.2.paths.any fun p => p.target = target && portHalf p.port = h

/-- Does half `h` hold a path in SPLIT (R285, R460)? Outside SPLIT every half holds every path. -/
def Body.holdsPath (b : Body) (h : HubId) (p : Path) : Bool :=
  !b.isSplit || (portHalf p.port = h && ((b.ctl.halves[h]).half = .lead || !b.sharedTarget p.target))

def Body.usable (b : Body) (h : HubId) (p : Path) : Bool := p.st = 1 && b.octetOn (octetOfPort p.port) && b.holdsPath h p

/-- May commands go to the path's device now: never to a shared target until LEAD may use it (R460)? -/
def Body.mayIssue (b : Body) (h : HubId) (p : Path) : Bool :=
  !b.isSplit || !b.sharedTarget p.target || (b.ctl.halves[h]).sharedOk

/-- Device operations outstanding on a path. -/
def Body.pathLoad (b : Body) (p : Path) : Nat :=
  (b.io.cmds.filter fun c => c.live && !c.answered && c.port = p.port && c.target = p.target.toNat).length

/-- First index with the least load. -/
def leastIx (load : Nat → Nat) : List Nat → Option Nat
  | [] => none
  | i :: r => match leastIx load r with
    | none => some i
    | some j => if load j < load i then some j else some i

/-- The path that a transaction takes (R312): the pinned one; for a tape the previous one while it is usable; else the usable
one with the fewest operations outstanding. `failed` names, by bit, the paths that have failed during the transaction (R331). -/
def Body.choosePath (b : Body) (h : HubId) (c : Subch) (pin : Option Nat) (failed : BitVec 16 := 0) : Option Nat :=
  let ok (i : Nat) : Bool := match c.paths[i]? with | some p => b.usable h p && !failed.getLsbD i | none => false
  let best := leastIx (fun i => ((c.paths[i]?).map b.pathLoad).getD 0) ((List.range c.paths.length).filter ok)
  match pin with
  | some i => if ok i then some i else none
  | none => match c.lastPath with
    | some i => if c.kind = 2 ∧ ok i then some i else best
    | none => best

/-! ## Channel engines (R312, R326, R342) -/

/-- An engine has work: it leaves the proving loop, and has been idle no longer than from now on (R429). -/
def Body.touchChan (b : Body) (e : HubId × Fin 16) : Body :=
  let now := b.tod e.1
  b.modChan e.1 e.2 fun g => { g with proving := false, lastJob := now }

/-- The engine that runs what a device command belongs to. -/
def Body.cmdEngine (b : Body) (c : DevCmd) : Option (HubId × Fin 16) :=
  match c.who with
  | .txn ix => (b.jGet ix).map fun j => engineOf j.engine
  | .drain n => (tGet b.io.streams n).map (·.engine)

def Body.engineLoad (b : Body) (e : HubId × Fin 16) : Nat :=
  (b.io.cmds.filter fun c => c.live && !c.answered && b.cmdEngine c = some e).length

/-- In-service engines of a hub with the fewest outstanding device operations. -/
def Body.leastEngines (b : Body) (h : HubId) : List (HubId × Fin 16) :=
  let up := ((List.finRange 16).filter fun n => b.chanUp h n).map fun n => (h, n)
  up.filter fun e => up.all fun f => b.engineLoad e ≤ b.engineLoad f

/-- An engine of a hub for a transaction (R312); of the other hub when none is in service on this one, never in SPLIT (R326). -/
def Body.pickEngine (b : Body) (h : HubId) : Option (HubId × Fin 16) × Body :=
  let near := b.leastEngines h
  b.pick (if near.isEmpty && !b.isSplit then b.leastEngines (otherHub h) else near)

/-! ## Records (R298 to R300) -/

def chanRecord (txn tag : Nat) (resid xfer : BitVec 32) (image cceno : Nat) (sc ds path : Byte) (held : Bool) : List Byte :=
  pack [(8, txn), (8, tag), (4, resid.toNat), (4, xfer.toNat), (2, image), (2, cceno), (1, sc.toNat), (1, ds.toNat),
        (1, path.toNat), (1, bit held 0)]

/-- The refusal record of a Start Record (R289). -/
def Body.refusal (b : Body) (s : SliceId) (d : List Byte) (sc ds : Byte) : List Byte :=
  chanRecord 0 (field d 8 8) 0 0 (field d 16 2) 0 sc ds 0xFF (b.senseHeld (subchKey s.val (field d 16 2)))

/-- The sense block of R302. -/
def senseBlock (proto kind key : Byte) (code : BitVec 16) (path sfl : Byte) (info : BitVec 64) (raw : List Byte) : List Byte :=
  pack [(1, proto.toNat), (1, kind.toNat), (1, key.toNat), (1, 0), (2, code.toNat), (1, path.toNat), (1, sfl.toNat % 8),
        (8, info.toNat)] ++ padTo 48 raw

/-! ## Starts (R287 to R290, R303) -/

/-- Why a Start Record is invalid, in the order 3, 2, 5, 1, 6, 4 (R303). -/
def Body.startReason (b : Body) (s : SliceId) (d : List Byte) : Option Byte :=
  let fl := d.getD 19 0
  let image := field d 16 2
  let stream := field d 20 2
  let path := (d.getD 22 0).toNat
  if fl &&& 0xF8 ≠ 0 ∨ d.getD 23 0 ≠ 0 ∨ field d 28 4 ≠ 0 ∨ (!fl.getLsbD 2 ∧ stream ≠ 0) ∨ (!fl.getLsbD 1 ∧ path ≠ 0) then some 3
  else if 7 < (d.getD 18 0).toNat then some 2
  else if field d 0 8 % 16 ≠ 0 then some 5
  else match (if image < 4096 then b.subch (subchKey s.val image) else none) with
    | none => some 1
    | some c =>
      if fl.getLsbD 1 ∧ c.paths.length ≤ path then some 6
      else if fl.getLsbD 2 ∧ !(match tGet b.io.streams stream with
          | some t => t.slice = s && t.image.toNat = image
          | none => false) then some 4
      else none

/-- The journal half that a hub reads: its own, or the other one when its own is out of service (R316, R445). -/
def Body.journalOf (b : Body) (h : HubId) : Table JEntry := if b.journalUp h then b.io.journal[h] else b.io.journal[otherHub h]

/-- A free journal entry, of the hub's parity in SPLIT (R462): which one is a free choice. None when the journal is full. -/
def Body.freeEntry (b : Body) (h : HubId) : Option Nat :=
  let t := b.journalOf h
  let free (k : Nat) : Bool := (!b.isSplit || k % 2 = h.val) && (match tGet t k with | some e => e.st = 0 | none => true)
  if 262144 ≤ (t.filter fun e => e.2.st != 0).length then none
  else
    let k := Config.freeNat b.freeCtr % 262144
    if free k then some k else (List.range 262144).find? free

/-- COUNT of a hub advances; a reserve mark follows at each multiple of 2^32 (R314, R315). -/
def Body.takeTxn (b : Body) (h : HubId) : BitVec 64 × Body :=
  let n := b.io.txnCount[h]
  (BitVec.ofNat 64 (h.val * 2 ^ 63 + n % 2 ^ 63),
   b.modIo fun i => { i with
     txnCount := i.txnCount.set h (n + 1)
     txnMark := if (n + 1) % 2 ^ 32 = 0 then i.txnMark.set h (n + 1) else i.txnMark })

/-- The ACCEPTED notice of a transaction (R299, R325). -/
def Body.acceptedNotice (b : Body) (ix : Nat) (j : JEntry) : HeldRec :=
  { src := .accepted ix, gen := some j.gen,
    bytes := chanRecord j.txn.toNat j.tag.toNat 0 0 j.subch.toNat 0 0x10 0 j.path (b.senseHeld j.subchKey) }

/-- An accepted start (R288, R312, R314 to R317). A report of a stream waits for it when one is due (R340, R341). -/
def Body.acceptStart (b : Body) (s : SliceId) (e : HubId × Fin 16) (d : List Byte) (ix path : Nat) (c : Subch) : Body :=
  let x := b.slice s
  let image := field d 16 2
  let key := subchKey s.val image
  let (txn, b) := (b.spend).takeTxn e.1
  let p := c.paths[path]?
  let (eng, b) := b.pickEngine ((p.map fun p => portHalf p.port).getD e.1)
  let j : JEntry :=
    { txn := txn, tag := BitVec.ofNat 64 (field d 8 8), program := BitVec.ofNat 64 (field d 0 8), slice := BitVec.ofNat 13 s.val,
      gen := x.gen, subch := BitVec.ofNat 16 image, part := x.part, st := 1, asid := x.asid, prio := d.getD 18 0,
      sflags := d.getD 19 0, stream := BitVec.ofNat 16 (field d 20 2), path := BitVec.ofNat 8 path,
      engine := engineByte (eng.getD e), cslice := BitVec.ofNat 16 (field d 24 2), cdepth := d.getD 26 0, cmode := d.getD 27 0,
      ckcce := 0, recov := 0, ckaddr := BitVec.ofNat 64 (field d 0 8), ckpos := if c.kind = 2 then c.lon else 0, ckxfer := 0,
      ckdone := 0, ckresid := 0, dups := 0, issued := 0, jflags := 0, acctod := b.ctl.tod[e.1], ckseq := 0,
      ringix := 0xFFFFFFFF, final := List.replicate 32 0 }
  let r : Running :=
    { ix := ix, root := x.s1root, addr := j.program, ccno := 0, pos := none, group := none, resid := 0, xfer := 0,
      ending := c.reports.head?.map fun _ => (0, 1) }
  let b := ((b.jPut ix j).touchChan (engineOf j.engine)).modIo fun i => { i with running := i.running ++ [r] }
  let b := b.modSubch key fun c => { c with busy := true, lastPath := some path }
  if j.sflags.getLsbD 0 then b.postRecord s (b.acceptedNotice ix j) else b

/-- The refusal of a Start Record that a DRAINING slice still holds (R288, R365). -/
def Body.drainRefusal (b : Body) (s : SliceId) (d : List Byte) : List Byte :=
  match b.startReason s d with
  | some r => b.refusal s d 0x04 r
  | none => b.refusal s d 0x02 0

/-- Decides one Start Record (R288, R290). While its slice is being unbound it gets no record (R368). -/
def Body.decideStart (b : Body) (s : SliceId) (e : HubId × Fin 16) (d : List Byte) : Body :=
  let x := b.slice s
  let refuse (b : Body) (sc ds : Byte) : Body := b.postRecord s { src := .notice, gen := some x.gen, bytes := b.refusal s d sc ds }
  match b.startReason s d with
  | some r => refuse b 0x04 r
  | none =>
    match x.st, b.subch (subchKey s.val (field d 16 2)) with
    | .draining toFree, _ => if toFree then b else refuse b 0x02 0
    | _, none => b
    | _, some c =>
      if x.limit.toNat ≤ b.occ s then refuse (b.modSlice s fun x => { x with qfull := sat32 x.qfull }) 0x03 0
      else if c.busy then refuse b 0x01 0
      else
        let h := b.servingHub s x.part
        let pin : Option Nat := if (d.getD 19 0).getLsbD 1 then some (d.getD 22 0).toNat else none
        match b.choosePath h c pin with
        | none =>
          let elsewhere (p : Path) : Bool :=
            b.isSplit && !b.holdsPath h p && b.octetOn (octetOfPort p.port) &&
              (p.st = 1 || (p.st = 2 && portHalf p.port = h && b.sharedTarget p.target))
          let ps := match pin with | some i => (c.paths[i]?).toList | none => c.paths
          refuse b (if ps.any elsewhere then 0x06 else 0x05) 0
        | some path =>
          match b.freeEntry h with
          | none => refuse b 0x07 0
          | some ix => b.acceptStart s e d ix path c

/-- Has an engine a Start Record of a slice to read (R289, R342)? -/
def Body.startReady (b : Body) (e : HubId × Fin 16) (s : SliceId) : Bool :=
  let x := b.slice s
  x.kind = 1 && x.st != .free && !b.workHeld s x.part && b.ringEngine s = some e && x.sq.en && !x.sq.stopped && x.sq.head != x.sq.tail &&
    !x.waiting.any fun r => match r.src with | .notice | .accepted _ => true | _ => false

/-- The engine of a CHANNEL slice reads its next Start Record (R288, R289), when the slice is the one that its pool serves (R362). -/
def execStartRecord (sl : SliceId) (s : State) : Out :=
  onBody (fun b =>
    match b.ringEngine sl with
    | none => b
    | some e =>
      let ready (b : Body) : List SliceId := (sliceIds b).filter (b.startReady e)
      let cost (_ : SliceId) : Nat := 1
      let n := chanIx e.1 e.2
      let pool := (b.io.chanPools[n]).join (ready b)
      if !b.serving || b.poolNext pool cost (ready b) != some sl then b
      else
        match b.readEntryAtHead sl 32 with
        | (none, b) => b
        | (some d, b) =>
          let b := b.decideStart sl e d
          b.modIo fun i => { i with chanPools := i.chanPools.set n (b.poolServe pool sl 1 (ready b)) }) s

end Sys2Proof.Machine
end

