-- ==== Sys2Proof/Machine/Channel.lean ====
section
/-!
DEFINITION. Channel programs: how they end, the device commands they issue, path changes, CCEs, data-chain groups and streams
(R291 to R313, R319 to R322, R328 to R330, R336 to R340).
-/

namespace Sys2Proof.Machine

/-! ## Ending a program (R301, R319, R329, R340) -/

/-- Device commands in doubt for a transaction, oldest first (R321). -/
def Body.inDoubt (b : Body) (ix : Nat) : List DevCmd := b.io.cmds.filter fun c => c.who = .txn ix && c.live

/-- Those that no device has answered. -/
def Body.unanswered (b : Body) (ix : Nat) : List DevCmd := (b.inDoubt ix).filter fun c => !c.answered

def Body.hold (b : Body) (key : Nat) (sense : List Byte) : Body := b.modSubch key fun c => { c with sense := some sense }

/-- The sense block that the module itself makes (R302, R333, R340, R437). -/
def Body.ownSense (b : Body) (j : JEntry) (code : BitVec 16) (info : BitVec 64) (raw : List Byte) : List Byte :=
  let proto := match b.subch j.subchKey with
    | some c => ((c.paths[j.path.toNat]?).map (·.proto)).getD 0
    | none => 0
  senseBlock proto 3 0 code j.path 0 info raw

/-- FINAL is written, in both halves, and the transaction is in DEVICE_DONE (R319). A stream's report takes the place of OK (R340). -/
def Body.writeFinal (b : Body) (ix : Nat) (sc ds : Byte) : Body :=
  match b.jGet ix, b.running ix with
  | some j, some r =>
    let key := j.subchKey
    let (sc, ds, b) :=
      match (if sc = 0 then (b.subch key).bind (·.reports.head?) else none) with
      | some (rs, rd, sense) =>
        (rs, rd, b.modSubch key fun c => { c with sense := sense.or c.sense, reports := c.reports.drop 1 })
      | none => (sc, ds, b)
    let final := chanRecord j.txn.toNat j.tag.toNat r.resid j.ckxfer j.subch.toNat (r.ccno.toNat - 1) sc ds j.path (b.senseHeld key)
    let b := b.modIo fun i => { i with cmds := i.cmds.filter fun c => !(c.who = .txn ix && c.live) }
    (b.jPut ix { j with st := 4, ckresid := r.resid, issued := 0, final := final }.checkpoint).touchChan (engineOf j.engine)
  | _, _ => b

/-- The program ends, as soon as no command is outstanding or to be resolved (R301, R320, R322). -/
def Body.endProgram (b : Body) (ix : Nat) (sc ds : Byte) : Body :=
  let b := b.modRunning ix fun r => { r with ending := some (r.ending.getD (sc, ds)) }
  match b.running ix with
  | some r =>
    if (b.unanswered ix).isEmpty && r.redo.isEmpty then
      match r.ending with
      | some (sc, ds) => b.writeFinal ix sc ds
      | none => b
    else b
  | none => b

def Body.endErr (b : Body) (ix : Nat) (e : CceErr) : Body :=
  match e with
  | .check sc ds => b.endProgram ix sc ds
  | .lost pa =>
    match b.jGet ix with
    | some j => (b.hold j.subchKey (b.ownSense j 3 (BitVec.ofNat 64 pa) [])).endProgram ix 0x24 0x80
    | none => b

/-- What comes next for a transaction has to wait. -/
def Body.waits (b : Body) (ix : Nat) : Body := b.modRunning ix fun r => { r with idle := true }

/-! ## Engine accesses of a program (R304) -/

abbrev Cce (α : Type) := Body × Except CceErr α

/-- An engine access for a program: PROTECTION_CHECK with a reason when it is refused (R304). -/
def cceAcc {α : Type} (x : Eng α) (reason : Byte) : Cce α :=
  match x with
  | (b, .ok v) => (b, .ok v)
  | (b, .error e) => (b, .error (e.check reason))

def cbind {α β : Type} (x : Cce α) (f : Body → α → Cce β) : Cce β :=
  match x with
  | (b, .ok v) => f b v
  | (b, .error e) => (b, .error e)

def progCheck {α : Type} (b : Body) (reason : Byte) : Cce α := (b, .error (.check 0x20 reason))

/-- The first `n` bytes of an area. -/
def areaTake : Nat → Area → Area
  | _, [] => []
  | n, (a, len) :: r => if n = 0 then [] else if n ≤ len then [(a, n)] else (a, len) :: areaTake (n - len) r

/-! ## Groups (R294, R298) -/

/-- Bytes that the group's command moves at the device. -/
def Group.total (g : Group) : Nat := (g.staged.map (·.length)).getD g.count

/-- Bytes that the device has confirmed: CKDONE (R317). -/
def Group.done (g : Group) : Nat := g.got.foldl (fun n e => n + e.2) 0

/-- Those that stand before the first byte not confirmed: CKPOS follows them (R317). -/
def Group.front (g : Group) : Nat :=
  g.got.foldl (fun n _ => match g.got.find? fun e => e.1 = n && e.2 != 0 with | some e => n + e.2 | none => n) 0

/-- Confirmed bytes that count in XFER: padding does not (R311). -/
def Group.moved (g : Group) : Nat := g.got.foldl (fun n e => n + (min (e.1 + e.2) g.xlen - min e.1 g.xlen)) 0

/-- The XFER of a program with more bytes (R298). -/
def satXfer (x : BitVec 32) (n : Nat) : BitVec 32 := sat32 x n

/-- Bytes `off` to `off + n` of what a WRITE group sends (R304, R305). -/
def Body.gather (b : Body) (o : Owner) (g : Group) (off n : Nat) : Cce (List Byte) :=
  match g.staged with
  | some d => (b, .ok ((d.drop off).take n))
  | none => cceAcc (b.areaRead o (areaTake n (areaDrop g.area off))) 3

/-- Writes bytes that a device delivered to a group's area; a SKIP group has none (R293). -/
def Body.storeGroup (b : Body) (o : Owner) (g : Group) (off : Nat) (data : List Byte) : Cce Unit :=
  cceAcc (b.areaWrite o (areaDrop g.area off) data) 3

/-- The area of a READ that fails is left in an unspecified state (R305). -/
def Body.spoilRead (b : Body) (ix : Nat) : Body :=
  match b.jGet ix, b.running ix with
  | some j, some r =>
    match r.group with
    | some g => if g.cmd = 0x21 then ((b.spend).storeGroup (b.txOwner j r) g 0 (freeBytes b.freeCtr g.count)).1 else b
    | none => b
  | _, _ => b

/-! ## Device commands (R308 to R310, R321, R324) -/

/-- NVMe drives a path of PROTO 1 to 3 (R283). -/
def isNvme (proto : Byte) : Bool := proto.toNat ≤ 3

/-- The device command that a channel command, or the recovery of one, is mapped to (R308, R333). The service action of a long-form READ
POSITION, 6, is that of SSC-5 (PRESUMED, log entry 32). -/
def wireOf (proto cmd order : Byte) (pos : BitVec 64) (len blksz : Nat) (param : BitVec 64) (recov : Nat) : Wire :=
  let blocks : BitVec 32 := BitVec.ofNat 32 (len / max blksz 1)
  let bytes : BitVec 32 := BitVec.ofNat 32 len
  if recov = 1 then { code := 0x34, arg := 6 }
  else if recov = 2 then { code := 0x92, lba := if cmd = 0x50 then pos + param else pos }
  else if isNvme proto then
    if cmd = 0x21 then { code := 0x02, lba := pos, blocks := blocks - 1 }
    else if cmd = 0x22 then { code := 0x01, lba := pos, blocks := blocks - 1 }
    else { code := 0x00 }
  else if proto = 4 then
    if cmd = 0x21 then { code := 0x88, lba := pos, blocks := blocks }
    else if cmd = 0x22 then { code := 0x8A, lba := pos, blocks := blocks }
    else { code := 0x91 }
  else if cmd = 0x21 then { code := 0x08, blocks := bytes, fixed := false, sili := true }
  else if cmd = 0x22 then { code := 0x0A, blocks := bytes, fixed := false }
  else match order.toNat with
    | 0x10 => { code := 0x01 }
    | 0x11 => { code := 0x92, lba := param }
    | 0x12 => { code := 0x10, arg := 1 }
    | 0x13 => { code := 0x91, lba := param, arg := 0 }
    | _ => { code := 0x1B, arg := 0 }

/-- A command for path `path` of a subchannel, before it is sent. -/
def cmdOn (c : Subch) (path : Nat) (cmd order : Byte) (pos param : BitVec 64) (off len : Nat) (data : List Byte) (recov : Nat) : DevCmd :=
  let p := c.paths[path]?
  let proto := (p.map (·.proto)).getD 0
  { id := 0, cid := 0, who := .txn 0, txn := 0, ckseq := 0, queue := 0, port := (p.map (·.port)).getD 0, path := path, cmd := cmd,
    order := order, target := (p.map fun p => p.target.toNat).getD 0, pos := pos, off := off, len := len, param := param,
    wire := wireOf proto cmd order pos len c.blksz.toNat param recov, data := data, issuedAt := 0, abort := none, live := true,
    answered := false, stale := false, retried := false, recov := recov }

/-- Commands whose identifiers a new one must differ from: those of its NVMe queue pair, or of its FCP session (R324). -/
def Body.sameQueue (b : Body) (nvme : Bool) (c : DevCmd) : List DevCmd :=
  b.io.cmds.filter fun k => k.port = c.port && k.target = c.target && (!nvme || k.queue = c.queue)

/-- An identifier that none of them has: which one is free. -/
def Body.freshCid (b : Body) (used : List (BitVec 16)) : BitVec 16 :=
  let k : BitVec 16 := (Config.freeW b.freeCtr).setWidth 16
  if used.contains k then (((List.range 65536).map (BitVec.ofNat 16)).find? fun k => !used.contains k).getD k else k

/-- An engine gives a command to the port controller. An NVMe controller reached for the first time is initialised, with one I/O queue pair
per channel engine (R310). -/
def Body.send (b : Body) (e : HubId × Fin 16) (nvme : Bool) (c : DevCmd) : Body :=
  let c := { c with queue := engineByte e }
  let c := { c with id := b.io.nextCmd, cid := b.freshCid ((b.sameQueue nvme c).map (·.cid)), issuedAt := b.tod e.1, abort := none,
                    live := true, answered := false, stale := false, retried := false }
  (b.modIo fun i => { i with
    nextCmd := i.nextCmd + 1
    cmds := i.cmds ++ [c]
    controllers := if nvme && !i.controllers.contains (c.port, c.target) then i.controllers ++ [(c.port, c.target)]
      else i.controllers }).spend

def Subch.nvme (c : Subch) (path : Nat) : Bool := match c.paths[path]? with | some p => isNvme p.proto | none => false

/-- A device command of a transaction goes out: recorded as issued by a durable checkpoint first, which stands at the command's CCE
(R321). -/
def Body.issue (b : Body) (ix : Nat) (c : DevCmd) : Body :=
  match b.jGet ix, b.running ix with
  | some j, some r =>
    match b.subch j.subchKey with
    | none => b
    | some s =>
      let front := ((r.group.map (·.front)).getD 0) / max s.blksz.toNat 1
      let j := { j with
        st := 3
        issued := j.issued + 1
        ckcce := r.cccno.setWidth 16
        ckaddr := r.caddr
        ckpos := if s.kind = 1 then (r.pos.map fun p => p + BitVec.ofNat 64 front).getD j.ckpos else j.ckpos }.checkpoint
      (b.jPut ix j).send (engineOf j.engine) (s.nvme j.path.toNat) { c with who := .txn ix, txn := j.txn, ckseq := j.ckseq }
  | _, _ => b

/-- The largest piece of a group that one device command carries (R309); an NLB field holds 65,536 blocks at most (R308). -/
def Body.maxPiece (b : Body) (c : Subch) (path : Nat) : Nat :=
  if c.kind = 2 then 2 ^ 32
  else
    let bs := max c.blksz.toNat 1
    let p := c.paths[path]?
    let m := Config.maxTransfer ((p.map fun p => p.port.toNat * 65536 + p.target.toNat).getD b.freeCtr)
    min (max (m / bs * bs) bs) (65536 * bs)

/-! ## Priority (R313) -/

/-- Has a transaction a device command that it could issue now? -/
def Body.wantsIssue (b : Body) (j : JEntry) (r : Running) : Bool :=
  1 ≤ j.st.toNat && j.st.toNat ≤ 3 && !r.idle &&
    (r.lost || !r.redo.isEmpty || (r.ending.isNone && r.stop.isNone && match r.group with
      | none => true
      | some g => !g.packing && g.sent < g.total && (b.unanswered r.ix).length < 16))

def Body.portOf (b : Body) (j : JEntry) : Option PortId := ((b.subch j.subchKey).bind fun c => c.paths[j.path.toNat]?).map (·.port)

/-- Another transaction of the slice goes first at the same engine and port: one of a higher PRIO, or of the same PRIO and accepted
earlier, that waits to issue (R313); or its partition's work is held (R453). -/
def Body.yields (b : Body) (ix : Nat) : Bool :=
  match b.jGet ix with
  | none => false
  | some j =>
    let held (k : JEntry) : Bool := b.workHeld ⟨k.slice.toNat, by have := k.slice.isLt; omega⟩ k.part
    let older := (b.io.running.takeWhile fun r => r.ix != ix).map (·.ix)
    held j || b.io.running.any fun r => r.ix != ix && match b.jGet r.ix with
      | some k => !held k && k.slice = j.slice && k.engine = j.engine && b.portOf k = b.portOf j && b.wantsIssue k r &&
          (j.prio < k.prio || (j.prio = k.prio && older.contains r.ix))
      | none => false

/-! ## The device's format (R284) -/

inductive FormatSt where
  /-- It agrees with BLKSZ, or need not be read. -/
  | agrees
  | differs
  /-- The port is not UP: it cannot be read yet. -/
  | unread
  deriving DecidableEq, Repr

/-- Before the first READ or WRITE on a path of a block subchannel the engine reads the device's format. Where it does not agree with
BLKSZ the path is FAILED and counted (R284). -/
def Body.readFormat (b : Body) (key path : Nat) : FormatSt × Body :=
  match b.subch key with
  | none => (.agrees, b)
  | some c =>
    match c.paths[path]? with
    | none => (.agrees, b)
    | some p =>
      if c.kind ≠ 1 ∨ p.probed then (.agrees, b)
      else if !b.portUp p.port then (.unread, b)
      else
        let f := Config.deviceFormat b.freeCtr p.port p.target p.unit
        let ok := f.1 = c.blksz && f.2
        let b := (b.spend).modSubch key fun c => { c with
          paths := c.paths.set path { p with probed := ok, st := if ok then p.st else 2 } }
        if ok then (.agrees, b) else (.differs, b.count 0x07 (portLoc p.port).toNat fun t => { t with spec3 := sat32 t.spec3 })

/-! ## Commands in doubt (R322, R328, R329) -/

/-- Is a tape command positional, so that its position is recovered when it is in doubt (R322)? -/
def positional (c : DevCmd) (kind : Byte) : Bool := kind = 2 && (c.cmd != 0x50 || c.order = 0x12 || c.order = 0x13)

/-- Does a group's CONTROL order have a parameter in memory (R297)? -/
def Group.hasParam (g : Group) : Bool := g.cmd = 0x50 && !g.area.isEmpty

/-- Issues a command of the transaction again, on its present path. WRITE data and a parameter are read again (R305). -/
def Body.again (b : Body) (ix : Nat) (k : DevCmd) (recov : Nat) : Body :=
  match b.jGet ix, b.running ix with
  | some j, some r =>
    match r.group, b.subch j.subchKey with
    | some g, some c =>
      let o := b.txOwner j r
      let read : Cce (List Byte × BitVec 64) :=
        if recov = 1 then (b, .ok (k.data, k.param))
        else if k.cmd = 0x22 then cbind (b.gather o g k.off k.len) fun b d => (b, .ok (d, k.param))
        else if g.hasParam then
          cbind (cceAcc (b.areaRead o g.area) 4) fun b v => (b, .ok ([], BitVec.ofNat 64 (leNat v)))
        else (b, .ok ([], k.param))
      match read with
      | (b, .error e) => b.endErr ix e
      | (b, .ok (d, v)) => b.issue ix (cmdOn c j.path.toNat k.cmd k.order k.pos v k.off k.len d recov)
    | _, _ => b
  | _, _ => b

/-- Resolves the commands in doubt on the transaction's path, in order (R322); `fuel` bounds them. -/
def Body.redrive (b : Body) (ix : Nat) : Nat → Body
  | 0 => b
  | fuel + 1 =>
    match b.jGet ix, b.running ix with
    | some j, some r =>
      match r.redo, r.group, b.subch j.subchKey with
      | k :: rest, some g, some c =>
        if g.packing then b
        else if !((c.paths[j.path.toNat]?.map fun p => b.mayIssue (b.entryHub j) p).getD false) then b.waits ix
        else
          let b := b.modRunning ix fun r => { r with redo := rest }
          Body.redrive (b.again ix k (if positional k c.kind then 1 else 0)) ix fuel
      | _, _, _ => b
    | _, _ => b

def sat15 (n : Nat) : Nat := min (n + 1) 15

/-- RECOV with a failed path's bit, one more takeover or one more path change (R317). -/
def recovWord (w : BitVec 16) (failed : Option Nat) (takeover change : Bool) : BitVec 16 :=
  let n := w.toNat
  let t := n / 256 % 16
  let c := n / 4096
  BitVec.ofNat 16 ((n % 256 ||| (failed.map fun i => 2 ^ (i % 8)).getD 0) + (if takeover then sat15 t else t) * 256 +
    (if change then sat15 c else c) * 4096)

/-- The usable path that a transaction leaves its path for: one that has not failed during it, and on which the device's format agrees
as far as it can be read (R284, R312, R331). RECOV marks every path left. `fuel` bounds the paths. -/
def Body.newPath (b : Body) (ix : Nat) (needs : Bool) : Nat → Option Nat × Body
  | 0 => (none, b)
  | fuel + 1 =>
    match b.jGet ix with
    | none => (none, b)
    | some j =>
      match b.subch j.subchKey with
      | none => (none, b)
      | some c =>
        let pin : Option Nat := if j.sflags.getLsbD 1 then some j.path.toNat else none
        let recov := recovWord j.recov (some j.path.toNat) false false
        match b.choosePath (b.entryHub j) c pin recov with
        | none => (none, b.jPut ix { j with recov := recov })
        | some i =>
          let b := b.jPut ix { j with path := BitVec.ofNat 8 i, recov := recovWord j.recov (some j.path.toNat) false true }
          match (if needs then b.readFormat j.subchKey i else (.agrees, b)) with
          | (.differs, b) => Body.newPath b ix needs fuel
          | (_, b) => (some i, b)

/-- The commands that a transaction has with its device are no longer its own: they are to be resolved, and an earlier issue of a WRITE may
still be live (R322, R330). -/
def Body.leaveDevice (b : Body) (ix : Nat) : Body :=
  let doubt := b.unanswered ix
  let b := b.modIo fun i => { i with
    cmds := i.cmds.map fun k =>
      if k.who = .txn ix ∧ k.live ∧ !k.answered then { k with live := false, stale := k.cmd = 0x22 && k.recov = 0 } else k }
  (b.jMod ix fun j => { j with issued := BitVec.ofNat 8 (j.issued.toNat - doubt.length) }).modRunning ix fun r =>
    { r with redo := doubt ++ r.redo }

/-- Does a transaction's next device command read or write a block device? -/
def Running.moves (r : Running) : Bool :=
  r.redo.any (·.cmd != 0x50) || match r.group with | some g => g.cmd != 0x50 | none => false

/-- A transaction leaves its failed path: for another usable one, on which its commands in doubt are resolved, or with
PATH_LOST (R322, R328, R329). One that no engine has dispatched only chooses again. -/
def Body.changePath (b : Body) (ix : Nat) : Body :=
  match b.jGet ix, b.running ix with
  | some _, some r0 =>
    let doubt := !(b.unanswered ix).isEmpty || !r0.redo.isEmpty
    let (i, b) := (b.leaveDevice ix).newPath ix r0.moves 8
    match b.jGet ix with
    | none => b
    | some j =>
      match i with
      | none =>
        if j.st = 1 then b.jPut ix j.checkpoint
        else
          let tape : Bool := match b.subch j.subchKey with | some c => c.kind = 2 | none => false
          let b := (b.jPut ix { j with issued := 0 }.checkpoint).spoilRead ix
          let b := if tape && doubt then (b.modSubch j.subchKey fun c => { c with lon := Config.freeW b.freeCtr }).spend else b
          let b := b.modRunning ix fun r => { r with
            redo := []
            resid := match r.ending, r.group with
              | none, some g => if g.cmd = 0x50 then 0 else BitVec.ofNat 32 (g.count - min g.count g.done)
              | _, _ => r.resid }
          b.endProgram ix 0x26 0
      | some i =>
        let near := match (b.subch j.subchKey).bind (fun c => c.paths[i]?) with | some p => portHalf p.port | none => 0
        let at' := engineOf j.engine
        let (e, b) := if at'.1 = near ∧ b.chanUp near at'.2 then (some at', b) else b.pickEngine near
        let b := b.jMod ix fun j => { j with engine := (e.map engineByte).getD j.engine }.checkpoint
        let b := (b.modSubch j.subchKey fun c => { c with lastPath := some i }).modRunning ix fun r => { r with idle := false }
        if j.st = 1 ∨ r0.lost then b
        else if r0.moves && (b.readFormat j.subchKey i).1 = .unread then b.waits ix
        else
          let b := b.redrive ix 32
          match (b.running ix).bind (·.ending) with
          | some (sc, ds) => b.endProgram ix sc ds
          | none => b
  | _, _ => b

/-- READ and WRITE commands go on once the format of the transaction's path is known (R284). -/
def Body.onFormat (b : Body) (ix : Nat) (f : Body → Body) : Body :=
  match b.jGet ix with
  | none => b
  | some j =>
    match b.readFormat j.subchKey j.path.toNat with
    | (.agrees, b) => f b
    | (.differs, b) => b.changePath ix
    | (.unread, b) => b.waits ix

/-! ## CCEs (R291 to R297, R303, R304) -/

/-- The pieces that a scatter list names, up to `n` bytes (R295). -/
def Body.scatter (b : Body) (o : Owner) : Nat → Nat → Nat → Cce Area
  | 0, _, _ => (b, .ok [])
  | fuel + 1, addr, n =>
    if n = 0 then (b, .ok [])
    else if addr % 16 ≠ 0 then progCheck b 8
    else cbind (cceAcc (b.engRead o addr 16) 2) fun b e =>
      let len := field e 8 4
      if len = 0 ∨ field e 12 4 ≠ 0 then progCheck b 8
      else cbind (Body.scatter b o fuel ((addr + 16) % 2 ^ 64) (n - min len n)) fun b r =>
        (b, .ok ((field e 0 8, min len n) :: r))

/-- Data pieces that a CCE names. -/
def Body.cceArea (b : Body) (o : Owner) (flags : Byte) (addr count : Nat) : Cce Area :=
  if flags.getLsbD 5 then (b, .ok [])
  else if flags.getLsbD 4 then b.scatter o (count + 1) addr count
  else (b, .ok [(addr, count)])

/-- Translates and checks data pieces before any device command (R304). -/
def Body.mapArea (b : Body) (o : Owner) (need : Need) : Area → Cce Unit
  | [] => (b, .ok ())
  | (a, n) :: r => cbind (cceAcc (b.engMap o need a n) 3) fun b _ => Body.mapArea b o need r

/-- What a fetched CCE, or a data-chain group, asks for. -/
inductive Act where
  /-- `cmd`, flags of the last CCE, count and data pieces of a READ or WRITE group. -/
  | group (cmd flags : Byte) (count : Nat) (area : Area)
  | sense (flags : Byte) (count addr : Nat)
  | nop (flags : Byte)
  | control (flags order : Byte) (addr : Nat)
  deriving DecidableEq, Repr

/-- Flags that a command may carry (R293). -/
def flagsOf (cmd : Byte) (tapeStream : Bool) : Option Byte :=
  match cmd.toNat with
  | 0x21 => some 0x3F
  | 0x22 => some (if tapeStream then 0xDF else 0x5F)
  | 0x31 => some 0x17
  | 0x40 => some 0
  | 0x41 => some 0x03
  | 0x50 => some 0x03
  | _ => none

/-- Fields that a command fixes (R292, R297). -/
def fixedWrong (c : List Byte) : Bool :=
  let cmd := (c.getD 0 0).toNat
  let order := (c.getD 2 0).toNat
  let count := field c 4 4
  let addr := field c 8 8
  c.getD 3 0 != 0 || (cmd != 0x50 && order != 0) || (cmd = 0x40 && count != 0) || (cmd = 0x41 && (count != 0 || addr != 0)) ||
    (cmd = 0x50 && (match order with
      | 0x01 | 0x11 | 0x13 => count != 8
      | 0x02 | 0x10 | 0x12 | 0x14 => count != 0 || addr != 0
      | _ => false))

/-- An order that the device kind has (R297). -/
def orderOk (kind order : Byte) : Bool :=
  if kind = 1 then order = 1 || order = 2 else 0x10 ≤ order.toNat && order.toNat ≤ 0x14

/-- The state of a fetch: where the next CCE stands, its ordinal, whether a JUMP led there, and the group so far. -/
structure Fetch where
  addr : Nat
  ccno : Nat
  jumped : Bool
  /-- CMD and FLAGS of the group's first CCE, its count and pieces. -/
  grp : Option (Byte × Byte × Nat × Area)
  deriving DecidableEq, Repr

/-- Facts about the program that the checks use. -/
structure Prog where
  owner : Owner
  kind : Byte
  blksz : Nat
  /-- A LOCATE has set the block position. -/
  located : Bool
  /-- SFLAGS.STREAM on a tape drive, and the stream's buffer size. -/
  stream : Option Nat
  key : Nat
  deriving DecidableEq, Repr

/-- Is the COUNT of a READ or WRITE CCE out of range, alone or as the last of its group (R292, R294, R311, R337)? -/
def countBad (p : Prog) (cmd flags : Byte) (count total : Nat) : Bool :=
  count = 0 || (p.kind = 2 && 0xFFFFFF < total) || (flags.getLsbD 6 && 16 * mib < total) ||
    (cmd = 0x22 && flags.getLsbD 7 && (match p.stream with | some n => n < total | none => false)) ||
    (p.kind = 1 && !flags.getLsbD 3 && total % p.blksz != 0)

/-- Fetches and checks CCEs up to a command or a whole data-chain group (R301, R303). Answers the act and the address after it; the
ordinal reached is kept in the transaction's working state. -/
def Body.fetch (b : Body) (ix : Nat) (p : Prog) : Nat → Fetch → Cce (Act × Nat × Nat)
  | 0, _ => progCheck b 9
  | fuel + 1, f =>
    if 65535 ≤ f.ccno then progCheck b 9
    else cbind (cceAcc (b.engRead p.owner f.addr 16) 1) fun b c =>
      let b := b.modRunning ix fun r => { r with ccno := BitVec.ofNat 32 (f.ccno + 1) }
      let cmd := c.getD 0 0
      let fl := c.getD 1 0
      let count := field c 4 4
      let addr := field c 8 8
      let b := if cmd = 0x31 ∨ cmd = 0x41 ∨ cmd = 0x40 then b else b.modSubch p.key fun x => { x with sense := none }
      match flagsOf cmd (p.kind = 2 && p.stream.isSome) with
      | none => progCheck b 1
      | some mask =>
        if fixedWrong c then progCheck b 2
        else if fl &&& ~~~mask ≠ 0 then progCheck b 5
        else if cmd = 0x40 ∧ addr % 16 ≠ 0 then progCheck b 3
        else if cmd = 0x40 ∧ f.jumped then progCheck b 4
        else if cmd = 0x40 then Body.fetch b ix p fuel { f with addr := addr, ccno := f.ccno + 1, jumped := true }
        else
          let next := (f.addr + 16) % 2 ^ 64
          let sum := (match f.grp with | some g => g.2.2.1 | none => 0) + count
          let data := cmd = 0x21 || cmd = 0x22
          if (data && countBad p cmd fl count sum) || (cmd = 0x31 && (count = 0 || 64 < count)) then progCheck b 6
          else if cmd = 0x50 ∧ !orderOk p.kind (c.getD 2 0) then progCheck b 10
          else if data && p.kind = 1 && !p.located && f.grp.isNone then progCheck b 11
          else if (match f.grp with
              | some g => cmd != g.1 || (fl ^^^ g.2.1) &&& 0xE0 != 0
              | none => false) then progCheck b 7
          else if data then
            cbind (b.cceArea p.owner fl addr count) fun b area =>
              let first := match f.grp with | some g => g.2.1 | none => fl
              let all := (match f.grp with | some g => g.2.2.2 | none => []) ++ area
              if fl.getLsbD 3 then
                Body.fetch b ix p fuel
                  { addr := next, ccno := f.ccno + 1, jumped := false, grp := some (cmd, first, sum, all) }
              else (b, .ok (.group cmd fl sum all, next, f.ccno + 1))
          else if cmd = 0x31 then (b, .ok (.sense fl count addr, next, f.ccno + 1))
          else if cmd = 0x41 then (b, .ok (.nop fl, next, f.ccno + 1))
          else (b, .ok (.control fl (c.getD 2 0) addr, next, f.ccno + 1))

/-! ## Going on (R293, R296, R301) -/

/-- The PROGRESS notice of a command whose program goes on (R301). -/
def Body.progress (b : Body) (ix : Nat) (j : JEntry) (r : Running) : Body :=
  b.postRecord ⟨j.slice.toNat, by have := j.slice.isLt; omega⟩
    { src := .progress ix, gen := some j.gen,
      bytes := chanRecord j.txn.toNat j.tag.toNat r.resid j.ckxfer j.subch.toNat (r.ccno.toNat - 1) 0x11 0 j.path (b.senseHeld j.subchKey) }

/-- A command has ended, with device status `ds` and residual `resid`: the program goes on past it or ends (R301). A command with a device
action advances the checkpoint past it (R321); the others are performed again from the checkpoint (R322). -/
def Body.commandEnded (b : Body) (ix : Nat) (flags ds : Byte) (resid : BitVec 32) (device : Bool) : Body :=
  let b := b.modRunning ix fun r => { r with resid := resid }
  match b.jGet ix, b.running ix with
  | some j, some r =>
    let past := { j with ckcce := r.ccno.setWidth 16, ckaddr := r.addr, ckdone := 0, ckresid := resid }.checkpoint
    let b := if device then b.jPut ix past else b
    if ds ≠ 1 then b.endProgram ix 0x24 ds
    else if resid ≠ 0 ∧ !flags.getLsbD 2 then b.endProgram ix 0x23 1
    else if !flags.getLsbD 0 then b.endProgram ix 0x00 1
    else
      let b := b.modRunning ix fun r => { r with group := none, xfer := j.ckxfer }
      if flags.getLsbD 1 then b.progress ix j r else b
  | _, _ => b

/-- Issues the rest of a group, up to 16 commands outstanding (R309, R313, R321); `fuel` bounds them. -/
def Body.issueMore (b : Body) (ix : Nat) : Nat → Body
  | 0 => b
  | fuel + 1 =>
    match b.jGet ix, b.running ix with
    | some j, some r =>
      match r.group, b.subch j.subchKey with
      | some g, some c =>
        let p := c.paths[j.path.toNat]?
        if g.packing ∨ g.cmd = 0x50 ∨ g.total ≤ g.sent ∨ 16 ≤ (b.unanswered ix).length ∨ r.ending.isSome ∨ !r.redo.isEmpty ∨
            b.yields ix then b
        else if !((p.map fun p => b.mayIssue (b.entryHub j) p).getD false) then b.waits ix
        else
          let n := min (g.total - g.sent) (b.maxPiece c j.path.toNat)
          let pos := if c.kind = 2 then j.ckpos
            else r.pos.getD 0 + BitVec.ofNat 64 (g.sent / max c.blksz.toNat 1)
          let data : Cce (List Byte) := if g.cmd = 0x22 then b.gather (b.txOwner j r) g g.sent n else (b, .ok [])
          match data with
          | (b, .error e) => b.endErr ix e
          | (b, .ok d) =>
            let b := b.modRunning ix fun r => { r with group := some { g with sent := g.sent + n } }
            Body.issueMore (b.issue ix (cmdOn c j.path.toNat g.cmd 0 pos 0 g.sent n d 0)) ix fuel
      | _, _ => b
    | _, _ => b

/-! ## COMPRESS groups (R311, R401) -/

/-- Gives the compression of a WRITE group to a compression engine, as work of CSLICE (R311, R362). -/
def Body.postCompress (b : Body) (ix : Nat) (j : JEntry) (count : Nat) : Except CceErr Body :=
  let cs : SliceId := ⟨j.cslice.toNat % 8192, by omega⟩
  let x := b.slice cs
  let bad (k : Byte) : Except CceErr Body := .error (.check 0x22 k)
  if 8192 ≤ j.cslice.toNat ∨ x.kind ≠ 2 ∨ x.st ≠ .bound ∨ !(x.part = j.part && x.asid = j.asid) then bad 1
  else if j.cmode.toNat % 4 = 3 ∨ 8 ≤ j.cmode.toNat then bad 2
  else if (b.jobEngines cs .comp).isEmpty then bad 3
  else
    let param := j.cdepth.toNat * 256 + j.cmode.toNat
    let job : Job :=
      { slice := cs, gen := x.gen, sqix := 0, desc := pack [(1, 1), (1, 4), (2, param), (4, count)] ++ List.replicate 56 0,
        cost := (count + 4095) / 4096 * 4096, st := .ready, used := [], rerun := 0, last := none, chan := some ix }
    .ok ((b.joinPool (b.servingHub cs x.part) .comp cs).modIo fun i => { i with jobs := i.jobs ++ [job] })

/-! ## Streams (R336 to R340) -/

/-- The stream declared on a subchannel. -/
def Body.streamOf (b : Body) (key : Nat) : Option (Nat × Stream) :=
  b.io.streams.find? fun e => subchKey e.2.slice.val e.2.image.toNat = key

def Stream.fill (t : Stream) : Nat := t.blocks.foldl (fun n x => n + x.2.length) 0

def Body.modStream (b : Body) (n : Nat) (f : Stream → Stream) : Body := b.modIo fun i => { i with streams := tMod i.streams n f }

/-- Commands of a drain with the drive, oldest first (R337). -/
def Body.drainCmds (b : Body) (n : Nat) : List DevCmd := b.io.cmds.filter fun c => c.who = .drain n && c.live

/-- The drain issues what it can on the subchannel's path: first the READ POSITION of a recovery, else the next blocks in order, up to 64
outstanding (R333, R337); `fuel` bounds them. -/
def Body.drainMore (b : Body) (n : Nat) : Nat → Body
  | 0 => b
  | fuel + 1 =>
    match tGet b.io.streams n with
    | none => b
    | some t =>
      match b.subch (subchKey t.slice.val t.image.toNat) with
      | none => b
      | some c =>
        let i := c.lastPath.getD 0
        let h := b.servingHub t.slice (b.slice t.slice).part
        let out := (b.drainCmds n).length
        let ok := match c.paths[i]? with | some p => b.usable h p && b.mayIssue h p | none => false
        if !ok ∨ !b.chanUp t.engine.1 t.engine.2 ∨ 64 ≤ out ∨ (t.recov ∧ out ≠ 0) then b
        else match t.blocks[out]? with
          | none => b
          | some (lon, d) =>
            let k := cmdOn c i 0x22 0 lon 0 0 d.length d (if t.recov then 1 else 0)
            let b := b.send t.engine (c.nvme i) { k with who := .drain n }
            if t.recov then b else Body.drainMore b n fuel

/-- A block enters the stream buffer (R337): its place in the buffer is not stated. -/
def Body.streamCopy (b : Body) (n : Nat) (t : Stream) (key : Nat) (e : HubId × Fin 16) (data : List Byte) : Body :=
  let lon := ((b.subch key).map (·.lon)).getD 0
  let size := t.bufsize.toNat * mib
  let off := Config.freeNat b.freeCtr % (size - data.length + 1)
  let b := b.spend
  let segs := segsOf [{ va := 0, pa := t.bufbase.toNat + off, len := data.length, slot := 0, nol3 := false, cls := .memory, via := none }]
  let b := (segs.foldl (fun (x : Body × List Byte) g => (x.1.homeStore g.pa (x.2.take g.len) 0 true, x.2.drop g.len)) (b, data)).1
  let b := b.modStream n fun t => { t with
    blocks := t.blocks ++ [(lon, data)], active := true, engine := if t.blocks.isEmpty then e else t.engine }
  (b.modSubch key fun c => { c with lon := c.lon + 1 }).drainMore n 64

/-- A STREAM WRITE group ends once its copy is recorded in both halves; it waits while the buffer lacks room (R337). -/
def Body.streamGroup (b : Body) (ix : Nat) (j : JEntry) (r : Running) (g : Group) (n : Nat) (t : Stream) : Body :=
  if t.bufsize.toNat * mib < t.fill + g.total then b.waits ix
  else match b.gather (b.txOwner j r) g 0 g.total with
    | (b, .error e) => b.endErr ix e
    | (b, .ok d) =>
      let b := (b.streamCopy n t j.subchKey (engineOf j.engine) d).jMod ix fun j =>
        { j with ckxfer := satXfer j.ckxfer g.xlen, ckpos := j.ckpos + 1 }
      b.commandEnded ix g.flags 1 0 true

/-! ## CCE_FETCH (R301) -/

/-- What the transaction's group does next: it waits for its compression, enters a stream buffer, or issues device commands. -/
def Body.advance (b : Body) (ix : Nat) : Body :=
  match b.jGet ix, b.running ix with
  | some j, some r =>
    match r.group with
    | none => b
    | some g =>
      if g.packing then b.waits ix
      else match (if g.cmd = 0x22 && g.flags.getLsbD 7 then b.streamOf j.subchKey else none) with
        | some (n, t) => b.streamGroup ix j r g n t
        | none => if g.cmd = 0x50 then b else b.onFormat ix fun b => b.issueMore ix 16
  | _, _ => b

/-- Parts of the first `n` bytes that no command in doubt, of the given offsets and lengths, carries. -/
def gaps (n : Nat) (doubt : List (Nat × Nat)) : List (Nat × Nat) :=
  doubt.foldl (fun l d => l.flatMap fun e =>
    [(e.1, min (e.1 + e.2) d.1 - e.1), (max e.1 (d.1 + d.2), e.1 + e.2 - max e.1 (d.1 + d.2))].filter (·.2 != 0)) [(0, n)]

/-- The working state of a command that begins: its CCE is where the checkpoint of its issue stands (R321). -/
def Body.beginCmd (b : Body) (ix : Nat) (r : Running) (next : Nat) (g : Option Group) : Body :=
  b.modRunning ix fun x => { x with
    caddr := r.addr
    cccno := r.ccno
    addr := BitVec.ofNat 64 next
    group := g
    lost := false
    redo := if g.isNone then [] else x.redo }

/-- A check ends the program before its command begins; nothing of the command is issued again. -/
def Body.failCmd (b : Body) (ix : Nat) (e : CceErr) : Body :=
  (b.modRunning ix fun x => { x with lost := false, redo := [] }).endErr ix e

/-- Starts a READ or WRITE group (R294, R304, R311, R337). One that an engine has taken over goes on behind what the checkpoint records
as issued (R322). -/
def Body.startGroup (b : Body) (ix : Nat) (j : JEntry) (r : Running) (p : Prog) (cmd flags : Byte) (count : Nat)
    (area : Area) (next : Nat) : Body :=
  match b.mapArea p.owner (if cmd = 0x21 then needStore else needLoad) area with
  | (b, .error e) => b.failCmd ix e
  | (b, .ok _) =>
    let doubt := (b.inDoubt ix ++ r.redo).map fun k => (k.off, k.len)
    let sent := if r.lost then j.ckdone.toNat + doubt.foldl (fun n e => n + e.2) 0 else 0
    let g : Group :=
      { cmd := cmd, flags := flags, order := 0, area := area, count := count, sent := sent, got := if r.lost then gaps sent doubt else [],
        staged := none, packing := flags.getLsbD 6, xlen := count }
    let b := b.beginCmd ix r next (some g)
    if flags.getLsbD 6 then
      match b.postCompress ix j count with
      | .error e => b.failCmd ix e
      | .ok b => b.waits ix
    else if !r.redo.isEmpty then b.onFormat ix fun b => b.redrive ix 32
    else b.advance ix

/-- Performs one act of a program; `r` is its working state before the fetch. -/
def Body.performAct (b : Body) (ix : Nat) (j : JEntry) (r : Running) (c : Subch) (p : Prog) (a : Act) (next : Nat) : Body :=
  match a with
  | .nop fl => (b.beginCmd ix r next none).commandEnded ix fl 1 0 false
  | .sense fl count addr =>
    match cbind (b.cceArea p.owner (fl &&& 0x10) addr count) fun b area =>
        cbind (b.mapArea p.owner needStore area) fun b _ => (b, .ok area) with
    | (b, .error e) => b.failCmd ix e
    | (b, .ok area) =>
      let block := ((b.subch j.subchKey).bind (·.sense)).getD (List.replicate 64 0)
      match cceAcc (b.areaWrite p.owner area (block.take count)) 3 with
      | (b, .error e) => b.failCmd ix e
      | (b, .ok _) => (b.beginCmd ix r next none).commandEnded ix fl 1 0 false
  | .control fl order addr =>
    let area : Area := if order = 0x01 || order = 0x11 || order = 0x13 then [(addr, 8)] else []
    match cceAcc (b.areaRead p.owner area) 4 with
    | (b, .error e) => b.failCmd ix e
    | (b', .ok v) =>
      let v := BitVec.ofNat 64 (leNat v)
      if order = 0x01 then
        ((b'.beginCmd ix r next none).modRunning ix fun r => { r with pos := some v }).commandEnded ix fl 1 0 false
      else if !((c.paths[j.path.toNat]?.map fun q => b.mayIssue (b.entryHub j) q).getD false) then
        (b.modRunning ix fun x => { x with ccno := r.ccno }).waits ix
      else
        let g : Group :=
          { cmd := 0x50, flags := fl, order := order, area := area, count := areaLen area, sent := 0, got := [], staged := none,
            packing := false, xlen := 0 }
        let b := b'.beginCmd ix r next (some g)
        if !r.redo.isEmpty then b.redrive ix 32
        else if !(b.inDoubt ix).isEmpty then b
        else b.issue ix (cmdOn c j.path.toNat 0x50 order j.ckpos v 0 0 [] 0)
  | .group cmd fl count area => b.startGroup ix j r p cmd fl count area next

/-- Does an act wait at a drain barrier (R338)? -/
def waitsAtBarrier (a : Act) : Bool :=
  match a with
  | .group cmd fl _ _ => !(cmd = 0x22 && fl.getLsbD 7)
  | _ => true

/-- Fetches the next CCE of a transaction and performs it (R301), or waits at a drain barrier (R338). -/
def Body.fetchNext (b : Body) (ix : Nat) (j : JEntry) (r : Running) (c : Subch) : Body :=
  let st := b.streamOf j.subchKey
  let p : Prog :=
    { owner := b.txOwner j r, kind := c.kind, blksz := max c.blksz.toNat 1, located := r.pos.isSome,
      stream := if j.sflags.getLsbD 2 then st.map fun t => t.2.bufsize.toNat * mib else none, key := j.subchKey }
  match b.fetch ix p 65537 { addr := r.addr.toNat, ccno := r.ccno.toNat, jumped := false, grp := none } with
  | (b, .error e) => b.failCmd ix e
  | (b', .ok (a, next, _)) =>
    match st with
    | some (n, t) =>
      if waitsAtBarrier a && !t.blocks.isEmpty then (b.modStream n fun t => { t with barrier := true }).waits ix
      else
        let b' := if waitsAtBarrier a then b'.modStream n fun t => { t with barrier := false, active := false } else b'
        b'.performAct ix j r c p a next
    | none => b'.performAct ix j r c p a next

/-- What a transaction in DISPATCHED or IN_PROGRESS does next (R301): a check that its compression met, its program from the checkpoint after a
takeover, its commands in doubt, its end, its group, or its next CCE. -/
def Body.runProgram (b : Body) (ix : Nat) : Body :=
  let b := b.modRunning ix fun r => { r with idle := false }
  match b.jGet ix, b.running ix with
  | some j, some r =>
    match b.subch j.subchKey with
    | none => b
    | some c =>
      match r.stop with
      | some e => (b.modRunning ix fun r => { r with stop := none }).endErr ix e
      | none =>
        if r.lost then b.fetchNext ix j r c
        else if !r.redo.isEmpty then
          if r.redo.any (·.cmd != 0x50) then b.onFormat ix fun b => b.redrive ix 32 else b.redrive ix 32
        else match r.ending with
          | some (sc, ds) => b.endProgram ix sc ds
          | none => if r.group.isSome then b.advance ix else b.fetchNext ix j r c
  | _, _ => b

/-- An engine dispatches an accepted transaction. Its path is chosen again when it has failed since (R320). -/
def Body.dispatch (b : Body) (ix : Nat) : Body :=
  match b.jGet ix with
  | none => b
  | some j =>
    match b.subch j.subchKey with
    | none => b
    | some c =>
      let ok := match c.paths[j.path.toNat]? with
        | some p => p.st != 2 && b.octetOn (octetOfPort p.port) && b.holdsPath (b.entryHub j) p && !j.recov.getLsbD j.path.toNat
        | none => false
      if ok then b.jPut ix { j with st := 2 }.checkpoint
      else (b.jPut ix { j with st := 2 }).changePath ix

/-- The engine fetches the next CCE of a transaction, or goes on with its command (R301, R304, R320). It waits for those that go first
(R313). A report that a stream owes ends the program before its first CCE (R340, R341). -/
def execCceFetch (ix : Nat) (s : State) : Out :=
  onBody (fun b =>
    match b.jGet ix with
    | none => b
    | some j =>
      let e := engineOf j.engine
      if !b.serving || !b.chanUp e.1 e.2 || b.yields ix then b
      else if j.st = 1 then
        let b := b.dispatch ix
        if (b.jGet ix).map (·.st) = some 2 then b.runProgram ix else b
      else if j.st = 2 ∨ j.st = 3 then b.runProgram ix
      else b) s

end Sys2Proof.Machine
end

