-- ==== Sys2Proof/Machine/Flags.lean ====
section
/-!
DEFINITION. Integer results with their condition code (R120 to R126), and the conditions of branches (R113).
-/

namespace Sys2Proof.Machine

/-- CC from its bits N, Z, V, C. -/
def mkCC (n z v c : Bool) : BitVec 4 :=
  BitVec.ofNat 4 ((if n then 8 else 0) + (if z then 4 else 0) + (if v then 2 else 0) + (if c then 1 else 0))

def ccN (c : BitVec 4) : Bool := c.getLsbD 3
def ccZ (c : BitVec 4) : Bool := c.getLsbD 2
def ccV (c : BitVec 4) : Bool := c.getLsbD 1
def ccC (c : BitVec 4) : Bool := c.getLsbD 0

/-- A result of width `w` with the condition code that its row of R122 states. -/
structure Alu (w : Nat) where
  val : BitVec w
  cc : BitVec 4

def aluNZ {w : Nat} (r : BitVec w) (v c : Bool) : Alu w := ⟨r, mkCC r.msb (r == 0) v c⟩

/-- ra + rb + carry: C is the carry out, V signed overflow. -/
def aluAdd (cin : Bool) (w : Nat) (a b : BitVec w) : Alu w :=
  let c := if cin then 1 else 0
  let r := BitVec.ofNat w (a.toNat + b.toNat + c)
  aluNZ r (a.toInt + b.toInt + c != r.toInt) (2 ^ w ≤ a.toNat + b.toNat + c)

/-- ra − rb − borrow: C is 1 when no borrow occurs. -/
def aluSub (borrow : Bool) (w : Nat) (a b : BitVec w) : Alu w :=
  let c := if borrow then 1 else 0
  let r := BitVec.ofInt w (a.toInt - b.toInt - c)
  aluNZ r (a.toInt - b.toInt - c != r.toInt) (b.toNat + c ≤ a.toNat)

def aluLogic (f : (w : Nat) → BitVec w → BitVec w → BitVec w) (w : Nat) (a b : BitVec w) : Alu w :=
  aluNZ (f w a b) false false

/-- Low half of the product; V when the signed product does not fit. -/
def aluMul (w : Nat) (a b : BitVec w) : Alu w :=
  let r := BitVec.ofInt w (a.toInt * b.toInt)
  aluNZ r (a.toInt * b.toInt != r.toInt) false

def aluMulh (w : Nat) (a b : BitVec w) : Alu w :=
  aluNZ (BitVec.ofInt w (a.toInt * b.toInt / 2 ^ w)) false false

def aluMulhu (w : Nat) (a b : BitVec w) : Alu w :=
  aluNZ (BitVec.ofNat w (a.toNat * b.toNat / 2 ^ w)) false false

/-- 0 − ra: C when ra = 0, V for the most negative number (R125). -/
def aluNeg (w : Nat) (a _b : BitVec w) : Alu w := aluNZ (-a) (a == BitVec.intMin w) (a == 0)

def aluAbs (w : Nat) (a _b : BitVec w) : Alu w :=
  aluNZ (if a.msb then -a else a) (a == BitVec.intMin w) false

/-! Shifts by a whole count (R124). -/
def shl (n : Nat) (w : Nat) (a : BitVec w) : BitVec w := if w ≤ n then 0 else a <<< n
def shr (n : Nat) (w : Nat) (a : BitVec w) : BitVec w := if w ≤ n then 0 else a >>> n
def sar (n : Nat) (w : Nat) (a : BitVec w) : BitVec w := a.sshiftRight (min n w)
def rol (n : Nat) (w : Nat) (a : BitVec w) : BitVec w := a.rotateLeft (n % w)
def ror (n : Nat) (w : Nat) (a : BitVec w) : BitVec w := a.rotateRight (n % w)

def aluShift (f : Nat → (w : Nat) → BitVec w → BitVec w) (n : Nat) (w : Nat) (a _b : BitVec w) : Alu w :=
  aluNZ (f n w a) false false

/-- A condition of R113 on CC; none for 0x0F to 0x1F. -/
def condHolds (cond : BitVec 5) (cc : BitVec 4) : Option Bool :=
  let n := ccN cc; let z := ccZ cc; let v := ccV cc; let c := ccC cc
  match cond.toNat with
  | 0 => some true
  | 1 => some z
  | 2 => some !z
  | 3 => some c
  | 4 => some !c
  | 5 => some n
  | 6 => some !n
  | 7 => some v
  | 8 => some !v
  | 9 => some (c && !z)
  | 10 => some (!c || z)
  | 11 => some (n == v)
  | 12 => some (n != v)
  | 13 => some (!z && n == v)
  | 14 => some (z || n != v)
  | _ => none

end Sys2Proof.Machine
end

