-- ==== Sys2Proof/Machine/Operands.lean ====
section
/-!
DEFINITION. Operand forms: widths, effective addresses, the writing of an integer result (R95, R120, R126).
-/

namespace Sys2Proof.Machine

/-- Bytes of an access size (R111). -/
def sizeBytes : Size → Nat
  | .b => 1
  | .h => 2
  | .w => 4
  | .d => 8

/-- Bytes of a .D or .W access. -/
def widthBytes : Width → Nat
  | .d => 8
  | .w => 4

/-- Effective address modulo 2^64 (R95). -/
def Strand.ea (s : Strand) (m : MemForm) (size : Nat) : Nat :=
  match m with
  | .idx ra rb x => (s.reg ra + s.reg rb * BitVec.ofNat 64 (if x then size else 1)).toNat
  | .disp base d => (s.reg base + d.signExtend 64).toNat

/-- A result of an operation at the width of a form, as R120 extends it, with its CC. -/
def atWidth (wd : Width) (zext : Bool) (a b : W) (f : (w : Nat) → BitVec w → BitVec w → Alu w) : W × BitVec 4 :=
  match wd with
  | .d => let o := f 64 a b; (o.val, o.cc)
  | .w =>
    let o := f 32 (a.setWidth 32) (b.setWidth 32)
    (if zext then o.val.setWidth 64 else o.val.signExtend 64, o.cc)

/-- Writes a result, and CC when the form does (R121); raises INTEGER_OVERFLOW afterwards when the operation
detects it and IOE is set (R126). -/
def Body.writeInt (b : Body) (t : StrandId) (rd : Option Reg) (r : W × BitVec 4) (wcc trapV : Bool) : Res :=
  let s := b.strand t
  let s' := match rd with | some rd => s.setReg rd r.1 | none => s
  let s' := if wcc then s'.setCC r.2 else s'
  let b' := b.setStrand t s'
  if trapV && ccV r.2 && s.ioe then .next b' trapOverflow else .ok b' none

end Sys2Proof.Machine
end

