-- ==== Sys2Proof/Machine/Control.lean ====
section
/-! DEFINITION. Branches, calls and returns, RTT, system calls and fences (R52, R53, R63, R114, R115, R201, R211). -/

namespace Sys2Proof.Machine

/-- pc of a branch with a signed 24-bit offset from its own address (R97, R114). -/
def Strand.target (s : Strand) (off : BitVec 24) : BitVec 48 := s.pc + off.signExtend 48

def branchRes (b : Body) (t : StrandId) (off : BitVec 24) (taken : Bool) : Res :=
  .ok b (if taken then some ((b.strand t).target off) else none)

/-- A condition code 0x0F to 0x1F is illegal (R113). -/
def bCondRes (b : Body) (t : StrandId) (cond : BitVec 5) (off : BitVec 24) : Res :=
  match condHolds cond (b.strand t).cc with
  | some h => branchRes b t off h
  | none => illegal b

def execBCond (t : StrandId) (cond : BitVec 5) (off : BitVec 24) (s : State) : Out :=
  insn t (.bCond t cond off) (fun b => bCondRes b t cond off) false s
def execBz (t : StrandId) (ra : Reg) (off : BitVec 24) (s : State) : Out :=
  insn t (.bz t ra off) (fun b => branchRes b t off ((b.strand t).reg ra == 0)) false s
def execBnz (t : StrandId) (ra : Reg) (off : BitVec 24) (s : State) : Out :=
  insn t (.bnz t ra off) (fun b => branchRes b t off ((b.strand t).reg ra != 0)) false s
def execBltz (t : StrandId) (ra : Reg) (off : BitVec 24) (s : State) : Out :=
  insn t (.bltz t ra off) (fun b => branchRes b t off ((b.strand t).reg ra).msb) false s
def execBgez (t : StrandId) (ra : Reg) (off : BitVec 24) (s : State) : Out :=
  insn t (.bgez t ra off) (fun b => branchRes b t off (!((b.strand t).reg ra).msb)) false s
def execJr (t : StrandId) (ra : Reg) (s : State) : Out :=
  insn t (.jr t ra) (fun b => .ok b (some (((b.strand t).reg ra).setWidth 48))) false s

/-! ## CALL, RET, RTT -/

/-- CALL with a target read before the push (R52). -/
def callRes (b : Body) (t : StrandId) (len : Nat) (target : BitVec 48) : Res :=
  let s := b.strand t
  if s.tl ≠ 0 then illegal b
  else if s.resident = 14 then .trap b (trapWinOver s.wbase 0)
  else
    let sp := s.lsp - 8
    (b.plainStore t needPush s.prv sp.toNat (leBytes 8 (s.pc + BitVec.ofNat 48 len).toNat)).then fun b _ =>
      .ok (b.modStrand t fun s => { s with lsp := sp, wcur := s.wcur + 1 }) (some target)

def retRes (b : Body) (t : StrandId) : Res :=
  let s := b.strand t
  if s.tl ≠ 0 then illegal b
  else if s.resident = 0 then .trap b (trapWinUnder (s.wcur - 1) 0)
  else
    (b.loadVa t needPop s.prv s.lsp.toNat 8).then fun b bs =>
      .ok (b.modStrand t fun s => { s with lsp := s.lsp + 8, wcur := s.wcur - 1 }) (some (BitVec.ofNat 48 (leNat bs)))

/-- RTT (R63); it ends the reservation (R215). -/
def rttRes (b : Body) (t : StrandId) : Res :=
  needPrv b t 1 <|
    let s := b.strand t
    let c := s.copy s.curCopy
    if s.tl = 0 ∧ s.resident = 0 then .trap b (trapWinUnder (s.wcur - 1) 1)
    else
      let tl := s.tl
      let newtl := if tl = 0 then 0 else min (c.info3.extractLsb' 0 2).toNat (tl - 1)
      let newprv := min (c.info3.extractLsb' 2 2).toNat s.prv.toNat
      let st := (c.info3 &&& 0xF3F0) ||| BitVec.ofNat 64 (newprv * 4 + newtl)
      let s' := { s with
        status := st, wcur := if tl = 0 then s.wcur - 1 else s.wcur, winTrap := s.winTrap && newtl = 1 }
      .ok (b.setStrand t s'.endResv) (some c.pc)

def execCall (t : StrandId) (off : BitVec 24) (s : State) : Out :=
  insn t (.call t off) (fun b => callRes b t 6 ((b.strand t).target off)) false s
def execCallr (t : StrandId) (ra : Reg) (s : State) : Out :=
  insn t (.callr t ra) (fun b => callRes b t 3 (((b.strand t).reg ra).setWidth 48)) false s
def execRet (t : StrandId) (s : State) : Out := insn t (.ret t) (fun b => retRes b t) false s
def execRtt (t : StrandId) (s : State) : Out := insn t (.rtt t) (fun b => rttRes b t) true s

/-! ## System calls -/

def execSvc (t : StrandId) (imm : BitVec 24) (s : State) : Out :=
  insn t (.svc t imm) (fun b => .next b (trapSvc imm)) false s
def execBrk (t : StrandId) (imm : BitVec 24) (s : State) : Out :=
  insn t (.brk t imm) (fun b => .trap b (trapBrk imm)) false s
def execNop (t : StrandId) (s : State) : Out := insn t (.nop t) (fun b => .ok b none) false s

/-! ## Fences -/

/-- FENCE.M (R201). -/
def fenceMRes (b : Body) (t : StrandId) : Res :=
  if (b.strand t).sb.isEmpty then .ok b none else .hold (b.modStrand t fun s => { s with act := .fenceM })

def execFenceM (t : StrandId) (s : State) : Out := insn t (.fenceM t) (fun b => fenceMRes b t) false s

/-- A waiting FENCE.M: a discarded store is reported at it (R553); else it completes once the buffer is empty. -/
def execFenceMComplete (t : StrandId) (s : State) : Out :=
  onBody (fun b =>
    let u := b.strand t
    if !(u.run = .running && u.act = .fenceM) then b
    else if u.mcheck.isSome then (b.boundary t false).getD b
    else if u.sb.isEmpty then b.complete t 3
    else b) s

/-- DEFERRED_STORE_ERROR for a failure record (R210, R211). -/
def trapDeferred (r : FailRecord) (further : BitVec 16) : TrapReq :=
  { cause := 0x11, rule := .upK, info0 := r.slice.setWidth 64, info1 := r.off.setWidth 64,
    info2 := BitVec.ofNat 64 (r.part.toNat * 2 ^ 48 + r.asid.toNat * 2 ^ 32 + further.toNat * 2 ^ 16 +
      r.loadCause.toNat * 256 + r.kind.toNat) }

/-- FENCE.IO once no posted store of the strand is left (R211). -/
def fenceIoRes (b : Body) (t : StrandId) : Res :=
  if b.io.posted.any (·.strand = t) then .hold (b.modStrand t fun s => { s with act := .fenceIo })
  else
    let s := b.strand t
    match s.fail with
    | some r => .next (b.setStrand t { s with fail := none, further := 0 }) (trapDeferred r s.further)
    | none => .ok b none

def execFenceIo (t : StrandId) (s : State) : Out := insn t (.fenceIo t) (fun b => fenceIoRes b t) false s

def execFenceIoComplete (t : StrandId) (s : State) : Out :=
  onBody (fun b =>
    let u := b.strand t
    if !(u.run = .running && u.act = .fenceIo) || b.io.posted.any (·.strand = t) then b
    else
      let b := b.modStrand t fun s => { s with act := .ready }
      match b.boundary t false with
      | some b => b
      | none => b.settle t 3 0 (fenceIoRes b t)) s

end Sys2Proof.Machine
end

