-- ==== Sys2Proof/Machine/CsRegs.lean ====
section
/-! DEFINITION. The control-state registers and their access (R73 to R84, R178 to R191). -/

namespace Sys2Proof.Machine

/-- A CS register that R74 lists. -/
inductive CsReg where
  | status | fpstat | win | lsp | wsp
  | tvec (sel : Nat) | tcause (sel : Nat) | tpc (sel : Nat) | tinfo (n : Fin 4) (sel : Nat)
  | itbr | dtbr | s2tbr | asid | part | iob (n : Fin 4)
  | cachectl | spad | waymask | tod | tcmp (sel : Nat) | ipend | chktgt
  | bank (n : Fin 64)
  deriving DecidableEq, Repr

/-- The register of a number; none for a number that R74 does not list. Selectors 5 to 7, and 3 and 4 of CS.TVEC and CS.TCMP, are not listed (R73). -/
def csReg (num : BitVec 12) : Option CsReg :=
  let n := num.toNat
  let sel := n % 8
  if n = 0 then some .status
  else if n = 1 then some .fpstat
  else if n = 2 then some .win
  else if n = 3 then some .lsp
  else if n = 4 then some .wsp
  else if n / 8 = 2 then (if sel ≤ 2 then some (.tvec sel) else none)
  else if n / 8 = 3 then (if sel ≤ 4 then some (.tcause sel) else none)
  else if n / 8 = 4 then (if sel ≤ 4 then some (.tpc sel) else none)
  else if 5 ≤ n / 8 ∧ n / 8 ≤ 8 then (if sel ≤ 4 then some (.tinfo ⟨(n / 8 - 5) % 4, by omega⟩ sel) else none)
  else if n = 0x50 then some .itbr
  else if n = 0x51 then some .dtbr
  else if n = 0x52 then some .s2tbr
  else if n = 0x58 then some .asid
  else if n = 0x59 then some .part
  else if n / 4 = 0x18 then some (.iob ⟨n % 4, by omega⟩)
  else if n = 0x68 then some .cachectl
  else if n = 0x69 then some .spad
  else if n = 0x6A then some .waymask
  else if n = 0x70 then some .tod
  else if n / 8 = 15 then (if sel ≤ 2 then some (.tcmp sel) else none)
  else if n = 0x80 then some .ipend
  else if n = 0x88 then some .chktgt
  else if n / 64 = 16 then some (.bank ⟨n % 64, by omega⟩)
  else none

/-- Lowest privileges that read and write a register, before its selector and fields are looked at (R74). 3 is none. -/
def csPrv : CsReg → Nat × Nat
  | .status | .fpstat | .lsp | .wsp => (0, 0)
  | .win | .asid | .iob _ => (0, 1)
  | .tvec _ | .tcause _ | .tpc _ | .tinfo _ _ | .itbr | .dtbr | .tcmp _ | .bank _ => (1, 1)
  | .s2tbr | .cachectl | .spad | .waymask | .chktgt => (2, 2)
  | .part => (1, 2)
  | .tod => (0, 3)
  | .ipend => (1, 3)

/-- Does the number select the S copy (R73)? -/
def CsReg.selectsS : CsReg → Bool
  | .tvec 2 | .tcause 2 | .tpc 2 | .tinfo _ 2 | .tcmp 2 => true
  | _ => false

/-- The copy that a selector reaches (R73). -/
def Strand.selCopy (s : Strand) (sel : Nat) : Copy :=
  match sel with
  | 1 => .k
  | 2 => .s
  | 3 => .l1
  | 4 => .l2
  | _ => s.curCopy

/-- For CS.TVEC and CS.TCMP: does the selector reach the S copy (R73)? -/
def Strand.selS (s : Strand) (sel : Nat) : Bool := sel = 2 || (sel = 0 && s.prv = 2#2)

/-- CS.CACHECTL as the strand reads it (R183, R190). -/
def Body.cachectl (b : Body) (t : StrandId) : W :=
  let c := clusterOfStrand t
  let bit (x : Bool) (n : Nat) : Nat := if x then 2 ^ n else 0
  BitVec.ofNat 64 (bit (b.die (dieOf c)).l3e 3 + bit (b.cluster c).l2e 2 + bit (b.core (coreOf t)).l1de 1 +
    bit (b.core (coreOf t)).l1ie 0)

/-- Value that CSRD reads (R75 to R84). -/
def Body.csRead (b : Body) (t : StrandId) (r : CsReg) : W :=
  let s := b.strand t
  match r with
  | .status => s.status
  | .fpstat => s.fpstat
  | .win => BitVec.ofNat 64 (s.spsel.toNat * 4096 + s.wbase.toNat * 256 + s.resident * 16 + s.wcur.toNat)
  | .lsp => s.lsp
  | .wsp => s.wsp
  | .tvec sel => BitVec.ofNat 64 ((if s.selS sel then s.tvecS else s.tvecK).toNat * 65536)
  | .tcause sel => (s.copy (s.selCopy sel)).cause.setWidth 64
  | .tpc sel => (s.copy (s.selCopy sel)).pc.setWidth 64
  | .tinfo n sel =>
    let c := s.copy (s.selCopy sel)
    match n with
    | 0 => c.info0
    | 1 => c.info1
    | 2 => c.info2
    | 3 => c.info3
  | .itbr => s.itbr
  | .dtbr => s.dtbr
  | .s2tbr => s.s2tbr
  | .asid => s.asid.setWidth 64
  | .part => s.part.setWidth 64
  | .iob n => (s.iob[n]).setWidth 64
  | .cachectl => b.cachectl t
  | .spad => (b.cluster (b.spadHome t)).ways.setWidth 64
  | .waymask => BitVec.ofNat 64 (s.waymaskL3.toNat * 65536 + s.waymaskL2.toNat)
  | .tod => BitVec.ofNat 64 (b.tod (halfOfStrand t))
  | .tcmp sel => if s.selS sel then s.tcmpS else s.tcmpK
  | .ipend => if s.prv = 2#2 then b.ipend t else b.ipend t &&& 0xD
  | .chktgt => s.chktgt.setWidth 64
  | .bank n => s.bank[n]

/-! ## Effects of writes -/

/-- Writes one modified line of an L2 back to its home and leaves it clean (R191). -/
def Body.cleanL2 (b : Body) (c : ClusterId) : Body :=
  (b.cluster c).l2.foldl (fun b e =>
    if e.2.st = .m then ((b.homeAccept e.2.line e.2.data e.2.slot true 0xFFFF 0 false).1) else b) b

/-- Disables a cluster's L2: written back, kept clean with its locks, out of the directory (R191). -/
def Body.l2Off (b : Body) (c : ClusterId) : Body :=
  let b := b.cleanL2 c
  let b := b.modCluster c fun k =>
    { k with l2e := false, l2 := k.l2.map fun e => (e.1, if e.2.st = .le then e.2 else { e.2 with st := .s }) }
  b.modMem fun m => { m with dir := m.dir.filterMap fun e => (dirWithout (some e.2) c).map fun d => (e.1, d) }

/-- Disables a die's L3: written back to memory, kept clean (R191). -/
def Body.l3Off (b : Body) (d : CDieId) : Body :=
  let b := (b.die d).l3.foldl (fun b e => if e.2.dirty then b.memWrite e.2.line e.2.slot e.2.data else b) b
  b.modDie d fun x => { x with l3e := false, l3 := x.l3.map fun e => (e.1, { e.2 with dirty := false }) }

/-- A write of CS.CACHECTL (R190, R191). -/
def Body.writeCachectl (b : Body) (t : StrandId) (v : W) : Body :=
  let c := clusterOfStrand t
  let d := dieOf c
  let b := b.modCore (coreOf t) fun k => { k with l1ie := v.getLsbD 0, l1de := v.getLsbD 1 }
  let b := if v.getLsbD 2 then b.modCluster c fun k => { k with l2e := true }
    else if (b.cluster c).l2e then b.l2Off c else b
  if v.getLsbD 3 then b.modDie d fun x => { x with l3e := true }
  else if (b.die d).l3e then b.l3Off d else b

/-- Empties one way of a cluster's L2: modified lines go home, every line leaves the L2 and the L1s (R180). -/
def Body.emptyWay (b : Body) (c : ClusterId) (w : Nat) : Body :=
  ((b.cluster c).l2.filter fun e => e.1 % 16 = w).foldl (fun b e =>
    let b := if e.2.st = .m then (b.homeAccept e.2.line e.2.data e.2.slot true 0xFFFF 0 false).1 else b
    b.l2Remove c e.1 e.2 false) b

/-- A change of CS.SPAD.WAYS (R180); 9 to 15 leave it unchanged (R82). -/
def Body.writeSpad (b : Body) (t : StrandId) (v : W) : Body :=
  let c := b.spadHome t
  let new := (v.extractLsb' 0 4).toNat
  let old := (b.cluster c).ways.toNat
  if 8 < new then b
  else
    let taken := (List.range (new - old)).map fun i => 15 - old - i
    let b := taken.foldl (fun b w => b.emptyWay c w) b
    b.modCluster c fun k =>
      { k with ways := BitVec.ofNat 4 new, spad := k.spad.filter fun e => e.1 < min old new * 0x80000
               spadLost := k.spadLost.filter fun n => n < min old new * 0x1000 }

/-- What a CSWR does to its register, when nothing refuses it (R75 to R84). -/
def Body.csWrite (b : Body) (t : StrandId) (r : CsReg) (v : W) : Body :=
  let s := b.strand t
  let set (s : Strand) : Body := b.setStrand t s
  let setC (sel : Nat) (f : TrapCopy → TrapCopy) : Body :=
    set (s.setCopy (f (s.copy (s.selCopy sel))) (s.selCopy sel))
  match r with
  | .status => set { s with status := (s.status &&& ~~~0xF3F0#64) ||| (v &&& 0xF3F0) }
  | .fpstat =>
    let rm := (v.extractLsb' 0 3).toNat
    let keep : W := if rm ≤ 4 then 0x1000000 else 0x1000007
    let m : W := if rm ≤ 4 then 0x1F1F07 else 0x1F1F00
    set { s with fpstat := (s.fpstat &&& keep) ||| (v &&& m) }
  | .win =>
    let cur := v.extractLsb' 0 4
    let base := v.extractLsb' 8 4
    if cur - base = 15#4 then b else set { s with wcur := cur, wbase := base }
  | .lsp => set { s with lsp := v &&& ~~~7#64 }
  | .wsp => set { s with wsp := v &&& ~~~7#64 }
  | .tvec sel =>
    if s.selS sel then set { s with tvecS := v.extractLsb' 16 32 } else set { s with tvecK := v.extractLsb' 16 32 }
  | .tcause sel => setC sel fun c => { c with cause := v.setWidth 8 }
  | .tpc sel => setC sel fun c => { c with pc := v.setWidth 48 }
  | .tinfo n sel => setC sel fun c =>
    match n with
    | 0 => { c with info0 := v }
    | 1 => { c with info1 := v }
    | 2 => { c with info2 := v }
    | 3 => { c with info3 := v }
  | .itbr => set { s with itbr := v &&& 0xFFFFFFFFFF001 }
  | .dtbr => set { s.endResv with dtbr := v &&& 0xFFFFFFFFFF001 }
  | .s2tbr => set { s.endResv with s2tbr := v &&& 0xFFFFFFFFFF001 }
  | .asid => set { s.endResv with asid := v.setWidth 16 }
  | .part => set { s.endResv with part := v.setWidth 8 }
  | .iob n => set { s with iob := s.iob.set n (v.setWidth 13) }
  | .cachectl => (set s.endResv).writeCachectl t v
  | .spad => (set s.endResv).writeSpad t v
  | .waymask =>
    let l2 := v.extractLsb' 0 16
    let l3 := v.extractLsb' 16 16
    set { s with
          waymaskL2 := if l2 = 0 then s.waymaskL2 else l2
          waymaskL3 := if l3 = 0 then s.waymaskL3 else l3 }
  | .tod | .ipend => b
  | .tcmp sel => if s.selS sel then set { s with tcmpS := v } else set { s with tcmpK := v }
  | .chktgt =>
    let g := v.extractLsb' 0 10
    if 576 ≤ g.toNat ∧ g.toNat ≤ 1022 then b else set { s with chktgt := g }
  | .bank n => set { s with bank := s.bank.set n v }

/-- Would a CSWR at U change a field that is not writable at U (R73, R75)? -/
def Strand.userDenied (s : Strand) (r : CsReg) (v : W) : Bool :=
  s.prv = 0#2 && r = .status && (v ^^^ s.status) &&& 0x30 != 0

def csrdRes (b : Body) (t : StrandId) (rd : Reg) (num : BitVec 12) : Res :=
  match csReg num with
  | none => illegal b
  | some r => needPrv b t (if r.selectsS then 2 else (csPrv r).1) (doneReg b t rd (b.csRead t r))

def cswrRes (b : Body) (t : StrandId) (num : BitVec 12) (ra : Reg) : Res :=
  match csReg num with
  | none => illegal b
  | some r =>
    let v := (b.strand t).reg ra
    needPrv b t (if r.selectsS then 2 else (csPrv r).2) <|
      if (b.strand t).userDenied r v then .trap b trapPrivileged else .ok (b.csWrite t r v) none

/-- CSRD of CS.FPSTAT delivers a pending floating exception first (R163). -/
def execCsrd (t : StrandId) (rd : Reg) (num : BitVec 12) (s : State) : Out :=
  insn t (.csrd t rd num) (fun b => csrdRes b t rd num) (num = 1) s
def execCswr (t : StrandId) (num : BitVec 12) (ra : Reg) (s : State) : Out :=
  insn t (.cswr t num ra) (fun b => cswrRes b t num ra) (num = 1) s
/-- CSWR of CS.SPAD, 0x069 (R180). -/
def execWriteCsSpad (t : StrandId) (ra : Reg) (s : State) : Out :=
  insn t (.writeCsSpad t ra) (fun b => cswrRes b t 0x069 ra) false s
/-- CSWR of CS.CACHECTL, 0x068 (R191). -/
def execWriteCsCachectl (t : StrandId) (ra : Reg) (s : State) : Out :=
  insn t (.writeCsCachectl t ra) (fun b => cswrRes b t 0x068 ra) false s
/-- CSWR of a copy of CS.TCMP, 0x078 to 0x07F; selectors 3 to 7 are illegal (R67, R73). -/
def execWriteCsTcmp (t : StrandId) (sel : BitVec 3) (ra : Reg) (s : State) : Out :=
  insn t (.writeCsTcmp t sel ra) (fun b => cswrRes b t (0x078 + sel.setWidth 12) ra) false s
/-- CSWR of CS.WIN, 0x002 (R55, R77). -/
def execWriteCsWin (t : StrandId) (ra : Reg) (s : State) : Out :=
  insn t (.writeCsWin t ra) (fun b => cswrRes b t 0x002 ra) false s

end Sys2Proof.Machine
end

