-- ==== Sys2Proof/Machine/Decimal.lean ====
section
/-! DEFINITION. Packed-decimal instructions (R133 to R138). -/

namespace Sys2Proof.Machine

/-- The nibbles of an operand, high nibble first (R133). -/
def nibbles (bs : List Byte) : List Nat := bs.flatMap fun x => [x.toNat / 16, x.toNat % 16]

/-- First invalid nibble of an operand: its index, and whether it is the sign (R133, R135). -/
def badNibble (bs : List Byte) : Option (Nat × Bool) :=
  let ns := nibbles bs
  (List.range ns.length).findSome? fun i =>
    let v := ns.getD i 0
    let sign := i + 1 = ns.length
    if (sign && v < 10) || (!sign && 10 ≤ v) then some (i, sign) else none

/-- Value of a valid operand (R133). -/
def decValue (bs : List Byte) : Int :=
  let ns := nibbles bs
  let m : Nat := (ns.take (ns.length - 1)).foldl (fun a d => a * 10 + d) 0
  let sg := ns.getD (ns.length - 1) 0
  if sg = 11 ∨ sg = 13 then -(m : Int) else m

/-- Digits of `m`, `n` of them, least significant first. -/
def digitsOf : Nat → Nat → List Nat
  | 0, _ => []
  | n + 1, m => m % 10 :: digitsOf n (m / 10)

/-- Pairs nibbles, most significant first, into bytes. -/
def packNibbles : List Nat → List Byte
  | h :: l :: r => BitVec.ofNat 8 (h * 16 + l) :: packNibbles r
  | _ => []

/-- Stored bytes of a result of `len` bytes, and whether it overflows (R136, R137). -/
def decStore (len : Nat) (v : Int) : List Byte × Bool :=
  let n := 2 * len - 1
  let m := v.natAbs
  let sg := if v < 0 then 13 else 12
  (packNibbles ((digitsOf n m).reverse ++ [sg]), decide (10 ^ n ≤ m))

/-- DECIMAL_DATA for an operand with an invalid nibble. -/
def decCheck (addr : W) (bs : List Byte) (operand : Nat) : Option TrapReq :=
  (badNibble bs).map fun e => trapDecData (addr + BitVec.ofNat 64 (e.1 / 2)) e.2 operand

inductive DecOp where | add | sub | cmp | move
  deriving DecidableEq

/-- A packed-decimal instruction: all checks, both operands read in full, then the result (R134, R135, R138). Where lines of both operands
cannot be delivered (R437, R464), R232 does not say which one is reported: the model looks at the lines of operand 1 for a store, then
reads operand 1, then operand 2 (log entry 24). -/
def decRes (b : Body) (t : StrandId) (op : DecOp) (rd ra : Reg) (l1 l2 : BitVec 4) : Res :=
  let s := b.strand t
  let a1 := s.reg rd
  let a2 := s.reg ra
  let n1 := l1.toNat + 1
  let n2 := l2.toNat + 1
  let p := s.dataPrv
  match b.translate t needLoad p a2.toNat n2 with
  | .stop b r => .trap b r
  | .ok b ps2 =>
    match b.translate t (if op = .cmp then needLoad else needStore) p a1.toNat n1 with
    | .stop b r => .trap b r
    | .ok b ps1 =>
      match (if op = .cmp then none else b.storeCheck t (segsOf ps1)) with
      | some r => .trap b r
      | none =>
        (if op = .move then LRes.ok b [] else b.readSegs t (segsOf ps1)).then fun b o1 =>
        (b.readSegs t (segsOf ps2)).then fun b o2 =>
          match (if op = .move then none else decCheck a1 o1 1).or (decCheck a2 o2 2) with
          | some r => .trap b r
          | none =>
            let v1 := decValue o1
            let v2 := decValue o2
            match op with
            | .cmp =>
              .ok (b.modStrand t fun s => s.setCC (mkCC (decide (v1 < v2)) (decide (v1 = v2)) false (decide (v2 ≤ v1)))) none
            | _ =>
              let v := match op with | .add => v1 + v2 | .sub => v1 - v2 | _ => v2
              let (bs, ovf) := decStore n1 v
              match b.bufferStore t (segsOf ps1) bs with
              | none => .hold b
              | some b =>
                let z := v.natAbs % 10 ^ (2 * n1 - 1) = 0
                let b := b.modStrand t fun s => s.setCC (mkCC (decide (v < 0)) (decide z) ovf false)
                if ovf && s.doe then .next b (trapDecOverflow a1) else .ok b none

def execDadd (t : StrandId) (rd ra : Reg) (l1 l2 : BitVec 4) (s : State) : Out :=
  insn t (.dadd t rd ra l1 l2) (fun b => decRes b t .add rd ra l1 l2) false s
def execDsub (t : StrandId) (rd ra : Reg) (l1 l2 : BitVec 4) (s : State) : Out :=
  insn t (.dsub t rd ra l1 l2) (fun b => decRes b t .sub rd ra l1 l2) false s
def execDcmp (t : StrandId) (rd ra : Reg) (l1 l2 : BitVec 4) (s : State) : Out :=
  insn t (.dcmp t rd ra l1 l2) (fun b => decRes b t .cmp rd ra l1 l2) false s
def execDmove (t : StrandId) (rd ra : Reg) (l1 l2 : BitVec 4) (s : State) : Out :=
  insn t (.dmove t rd ra l1 l2) (fun b => decRes b t .move rd ra l1 l2) false s

end Sys2Proof.Machine
end

