-- ==== Sys2Proof/Machine/Maint.lean ====
section
/-!
DEFINITION. Cache and translation maintenance, and the acts of caches and homes that are commands of their own
(R99, R100, R116, R167 to R188, R193, R217, R240 to R243, R435).
-/

namespace Sys2Proof.Machine

/-- ILLEGAL_INSTRUCTION for scope 3 to 31, then PRIVILEGED_INSTRUCTION below the scope's privilege (R72, R116). -/
def scopeCheck (b : Body) (t : StrandId) (scope : Reg) (low : Nat) (x : Res) : Res :=
  if 3 ≤ scope.toNat then illegal b else needPrv b t (if scope = 2 then 2 else low) x

/-- Clusters that a scope 1 or 2 covers: every one, or those of the issuing half during SPLIT (R116). -/
def Body.covered (b : Body) (t : StrandId) : List ClusterId :=
  if b.isSplit then allClusters.filter fun c => halfOfCluster c = halfOfStrand t else allClusters

/-! ## Invalidation of lines -/

/-- Invalidates a physical line in an L2, enabled or not, and in its L1s; modified data goes home (R187, R193). -/
def Body.invalLine (b : Body) (c : ClusterId) (l : Line) : Body :=
  match (b.cluster c).find l with
  | some (k, e) =>
    let b := if e.st = .m then (b.homeAccept l e.data e.slot true 0xFFFF 0 false).1 else b
    (if e.st = .le then b else b.l2Remove c k e true).purgeL1 c l
  | none => b.purgeL1 c l

/-- Does a maintenance instruction of half `h` reach a die's L3? During SPLIT the issuing half's only (R116). -/
def Body.reachesL3 (b : Body) (h : HubId) (d : CDieId) : Bool := !b.isSplit || Sys2Proof.Machine.halfOf d = h

/-- Invalidates a line in its home L3, enabled or not, after a write-back (R193). -/
def Body.invalL3 (b : Body) (h : HubId) (l : Line) : Body :=
  let pa := lineAddr (b.servingLine l)
  if pa < memoryEnd && b.reachesL3 h (homeDie pa) then
    let d := homeDie pa
    match (b.die d).find l with
    | some (k, e) =>
      let b := if e.dirty then b.memWrite l e.slot e.data else b
      b.modDie d fun x => { x with l3 := tDel x.l3 k }
    | none => b
  else b

/-- Empties a cluster's L2 and L1s and releases its locks (R193). -/
def Body.invalAll (b : Body) (c : ClusterId) : Body :=
  let b := (b.cluster c).l2.foldl (fun b e =>
    let b := if e.2.st = .m then (b.homeAccept e.2.line e.2.data e.2.slot true 0xFFFF 0 false).1 else b
    b.l2Remove c e.1 e.2 false) b
  b.mapCores fun k x => if clusterOf k = c then { x with l1i := [], l1d := [] } else x

def Body.invalAllL3 (b : Body) (h : HubId) : Body :=
  ((List.finRange 4).filter (b.reachesL3 h)).foldl (fun b d =>
    let b := (b.die d).l3.foldl (fun b e => if e.2.dirty then b.memWrite e.2.line e.2.slot e.2.data else b) b
    b.modDie d fun x => { x with l3 := [] }) b

/-- What a maintenance instruction does at one covered cluster (R100, R193). -/
def Body.maintAt (b : Body) (k : MaintKind) (c : ClusterId) (l : Option Line) : Body :=
  match k, l with
  | .range, some l => b.invalLine c l
  | .iflush, some l => b.mapCores fun x y => if clusterOf x = c then { y with l1i := l1Del y.l1i l } else y
  | .all _, _ => b.invalAll c
  | _, none => b

/-- Commits one piece: ra advances and rb shrinks; the instruction completes when nothing is left (R100, R193). With ra and rb the same
register, or register 0, the spec does not say what is left: the model writes ra and then rb (log entry 25). -/
def Body.commitPiece (b : Body) (t : StrandId) (ra rb : Reg) (n : Nat) : Res :=
  let k := BitVec.ofNat 64 n
  let b := b.modStrand t fun s => (s.setReg ra (s.reg ra + k)).setReg rb (s.reg rb - k)
  if (b.strand t).reg rb = 0 then .ok b none else b.interiorCommit t

/-- One line of CINV.RANGE or IFLUSH.RANGE, or the whole of CINV.ALL: at once at scope 0, after every cluster's
acknowledgement at scopes 1 and 2. -/
def Body.maintRun (b : Body) (t : StrandId) (scope : Reg) (k : MaintKind) (l : Option Line) (ra rb : Reg) (n : Nat) : Res :=
  if scope = 0 then
    let b := match k, l with
      | .iflush, some l => b.modCore (coreOf t) fun y => { y with l1i := l1Del y.l1i l }
      | _, _ => b.maintAt k (clusterOfStrand t) l
    match k with
    | .range => (match l with | some l => b.invalL3 (halfOfStrand t) l | none => b).commitPiece t ra rb n
    | .iflush => b.commitPiece t ra rb n
    | .all _ => .ok b none
  else
    match k, l with
    | .all _, _ | _, some _ => .hold (b.modStrand t fun s => { s with act := .maint k (b.covered t) l ra rb n })
    | _, none => b.commitPiece t ra rb n

/-- CINV.RANGE: the line of ra, translated and checked as a load (R193). -/
def cinvRangeRes (b : Body) (t : StrandId) (scope ra rb : Reg) : Res :=
  scopeCheck b t scope 1 <|
    let s := b.strand t
    if s.reg rb = 0 then .ok b none
    else
      let va := (s.reg ra).toNat
      let n := min (s.reg rb).toNat (128 - va % 128)
      match b.translate t needLoad s.prv va 1 with
      | .stop b r => .trap b r
      | .ok b ps =>
        match ps with
        | p :: _ => b.maintRun t scope .range (if p.cls = .scratchpad then none else some (lineNo p.pa)) ra rb n
        | [] => .hold b

def cinvAllRes (b : Body) (t : StrandId) (scope : Reg) : Res :=
  scopeCheck b t scope 2 (b.maintRun t scope (.all (scope = 2)) none 0 0 0)

/-- IFLUSH.RANGE: waits as FENCE.M does; a line that does not translate is skipped (R100). -/
def iflushRes (b : Body) (t : StrandId) (scope ra rb : Reg) : Res :=
  scopeCheck b t scope (if scope = 0 then 0 else 1) <|
    let s := b.strand t
    if !s.sb.isEmpty then .hold b
    else if s.reg rb = 0 then .ok b none
    else
      let va := (s.reg ra).toNat % 2 ^ 48
      let n := min (s.reg rb).toNat (128 - va % 128)
      match b.translate t needIrd s.prv va 1 with
      | .stop b _ => b.commitPiece t ra rb n
      | .ok b ps => b.maintRun t scope .iflush (ps.head?.map fun p => lineNo p.pa) ra rb n

def execCinvRange (t : StrandId) (scope ra rb : Reg) (s : State) : Out :=
  insn t (.cinvRange t scope ra rb) (fun b => cinvRangeRes b t scope ra rb) false s
def execCinvAll (t : StrandId) (scope : Reg) (s : State) : Out :=
  insn t (.cinvAll t scope) (fun b => cinvAllRes b t scope) false s
def execIflushRange (t : StrandId) (scope ra rb : Reg) (s : State) : Out :=
  insn t (.iflushRange t scope ra rb) (fun b => iflushRes b t scope ra rb) false s

/-- A covered cluster acknowledges; the last one lets the instruction commit (R100, R193). `act` says that it does its part. -/
def Body.maintAcked (b : Body) (t : StrandId) (c : ClusterId) (act : Bool) : Body :=
  let u := b.strand t
  match u.run, u.act with
  | .running, .maint k left l ra rb n =>
    if !left.contains c then b
    else
      let b := if act then b.maintAt k c l else b
      let left := left.filter (· != c)
      if !left.isEmpty then b.modStrand t fun s => { s with act := .maint k left l ra rb n }
      else
        let b := b.modStrand t fun s => { s with act := .ready }
        match k with
        | .range => b.settle t 3 0 ((match l with | some l => b.invalL3 (halfOfStrand t) l | none => b).commitPiece t ra rb n)
        | .iflush => b.settle t 3 0 (b.commitPiece t ra rb n)
        | .all l3 => (if l3 then b.invalAllL3 (halfOfStrand t) else b).complete t 3
  | _, _ => b

def execCoveredClusterAck (t : StrandId) (c : ClusterId) (s : State) : Out := onBody (fun b => b.maintAcked t c true) s

/-! ## Locks (R184 to R186) -/

def Body.refuseLock (b : Body) (p : Byte) : Body :=
  b.modIo fun i => { i with parts := tMod i.parts p.toNat fun q => { q with refusedLocks := sat32 q.refusedLocks } }

/-- Locks a line in the L2 of the issuing core's cluster (R185). -/
def lockLine (b : Body) (t : StrandId) (p : Piece) : Res :=
  let s := b.strand t
  let c := clusterOfStrand t
  let l := lineNo p.pa
  let k := b.cluster c
  let refused (b : Body) : Res :=
    .ok ((b.modMem fun m =>
      { m with reqs := m.reqs.filter fun r => !(r.lock && r.cluster = c && r.line = l) }).refuseLock s.part) none
  if !k.l2e then refused b
  else match b.lineCheck t p.pa false with
  | some w => .trap (b.lose w) w.req
  | none =>
    let allowed (w : Nat) : Bool := w < 4 && s.waymaskL2.getLsbD w
    match k.find l with
    | some (slot, e) =>
      if e.locked then .ok b none
      else if allowed (slot % 16) then .ok (b.setL2 c slot { e with locked := true }) none
      else
        -- The line moves into an allowed lockable way; a modified line there leaves first, and a held one defers it (R175, R185, R217).
        let unlocked := (List.range 4).filter fun w => allowed w &&
          (match tGet k.l2 (l2Slot l w) with | some x => !x.locked | none => true)
        let ws := unlocked.filter fun w => !b.wayBusy2 c (l2Slot l w) &&
          (match tGet k.l2 (l2Slot l w) with | some x => !b.heldBy c x.line | none => true)
        let move (b : Body) (w : Nat) : Res :=
          .ok ((b.modCluster c fun k => { k with l2 := tPut (tDel k.l2 slot) (l2Slot l w) { e with locked := true } }).useL2 c (l2Slot l w)) none
        if unlocked.isEmpty then refused b
        else if b.fillWaits2 c l then .hold b
        else match ws.filter fun w => (tGet k.l2 (l2Slot l w)).isNone with
        | w :: _ => move b w
        | [] =>
          match b.replaceWay k.l2Use (l.toNat % 4096) ws false with
          | (none, b) => .hold b
          | (some w, b) =>
            match tGet k.l2 (l2Slot l w) with
            | some v =>
              let b' := b.l2Remove c (l2Slot l w) v false
              if v.st = .m then .hold (b'.sendBack (v.back c s.waymaskL3 (some (l2Slot l w)) l)) else move b' w
            | none => move b w
    | none =>
      let free := (List.range 4).any fun w => allowed w &&
        (match tGet k.l2 (l2Slot l w) with | some x => !x.locked | none => true)
      if !free then refused b
      else .hold (b.postReq { b.reqFor t l p.slot p.nol3 false with lock := true })

def clockRes (b : Body) (t : StrandId) (ra : Reg) : Res :=
  needPrv b t 1 <|
    match b.translate t needLoad (b.strand t).prv ((b.strand t).reg ra).toNat 1 with
    | .stop b r => .trap b r
    | .ok b ps =>
      match ps with
      | p :: _ => if p.cls = .scratchpad then .ok b none else lockLine b t p
      | [] => .hold b

/-- CUNLOCK (R186). With the L2 disabled the spec gives no outcome for the lock that it keeps: nothing changes (log entry 23). -/
def unlockLine (b : Body) (c : ClusterId) (l : Line) : Body :=
  if !(b.cluster c).l2e then b
  else match (b.cluster c).find l with
  | some (k, e) =>
    if !e.locked then b
    else if e.st = .le then b.modCluster c fun x => { x with l2 := tDel x.l2 k }
    else b.setL2 c k { e with locked := false }
  | none => b

def cunlockRes (b : Body) (t : StrandId) (ra : Reg) : Res :=
  needPrv b t 1 <|
    match b.translate t needLoad (b.strand t).prv ((b.strand t).reg ra).toNat 1 with
    | .stop b r => .trap b r
    | .ok b ps =>
      match ps with
      | p :: _ => .ok (if p.cls = .scratchpad then b else unlockLine b (clusterOfStrand t) (lineNo p.pa)) none
      | [] => .hold b

def execClock (t : StrandId) (ra : Reg) (s : State) : Out := insn t (.clock t ra) (fun b => clockRes b t ra) false s
def execCunlock (t : StrandId) (ra : Reg) (s : State) : Out := insn t (.cunlock t ra) (fun b => cunlockRes b t ra) false s

/-! ## TLBI and WCI (R240 to R243) -/

/-- Operands of a form with rb (R240). -/
structure TagOperand where
  part : Byte
  sup : Bool
  asid : BitVec 16
  all : Bool

def Strand.tagOperand (s : Strand) (rb : Reg) : TagOperand :=
  let v := s.reg rb
  if s.prv = 2#2 then
    { part := v.extractLsb' 16 8, sup := v.getLsbD 30, asid := v.extractLsb' 0 16, all := v.getLsbD 31 }
  else { part := s.part, sup := false, asid := v.extractLsb' 0 16, all := false }

/-- Is a store still buffered on the core that an acknowledgement waits for (R243, item 3)? For a TLBI one that went through a translation
that it removes; for a WCI, whose entries a store does not name, any. -/
def Body.owesStores (b : Body) (c : CoreId) (o : InvalOp) : Bool :=
  (strandsOfCore c).any fun t =>
    (b.strand t).sb.any fun e => o.wci || (match e.via with | some g => o.hitsTag g | none => false)

/-- Scope 0 removes from the issuing core at once, and the core owes its acknowledgement while such stores are buffered; scopes 1 and 2
post to every core and hub, or those of the issuing half during SPLIT (R242, R243, R361). -/
def Body.postInval (b : Body) (t : StrandId) (scope : Reg) (o : InvalOp) : Body :=
  if scope = 0 then
    let owes := b.owesStores (coreOf t) o
    b.modCore (coreOf t) fun k => let k := k.inval1 o; if owes then { k with inval := k.inval ++ [o] } else k
  else
    let here (h : HubId) : Bool := !b.isSplit || h = halfOfStrand t
    let (x, b) := if b.isSplit then (none, b) else b.crossing (halfOfStrand t) (otherHub (halfOfStrand t)) none
    let at' (h : HubId) : InvalOp := if h = halfOfStrand t then o else { o with via := x }
    let b := b.mapCores fun c k => if here (halfOfCluster (clusterOf c)) then { k with inval := k.inval ++ [at' (halfOfCluster (clusterOf c))] } else k
    b.modIo fun i => { i with einval := Vector.ofFn fun h => if here h then i.einval[h] ++ [at' h] else i.einval[h] }

def invalRes (b : Body) (t : StrandId) (scope : Reg) (f : Strand → InvalOp) : Res :=
  scopeCheck b t scope 1 (.ok (b.postInval t scope (f (b.strand t))) none)

def vaOp (t : StrandId) (wci : Bool) (ra rb : Reg) (x : Bool) (s : Strand) : InvalOp :=
  let o := s.tagOperand rb
  { src := t, wci := wci, part := some o.part, sup := some o.sup, ispace := some x,
    asid := if o.all then none else some o.asid, globals := true, va := some (s.reg ra), stage2 := false }

/-- With ALL, WCI.TAG takes every entry of the partition, of both regimes and of stage 2 (R241). -/
def tagOp (t : StrandId) (wci : Bool) (rb : Reg) (s : Strand) : InvalOp :=
  let o := s.tagOperand rb
  { src := t, wci := wci, part := some o.part, sup := if wci && o.all then none else some o.sup, ispace := none,
    asid := if o.all then none else some o.asid, globals := o.all, va := none, stage2 := wci && o.all }

def allOp (t : StrandId) (wci : Bool) (scope : Reg) (s : Strand) : InvalOp :=
  { src := t, wci := wci, part := if scope = 2 then none else some s.part, sup := none, ispace := none, asid := none,
    globals := true, va := none, stage2 := wci && s.prv = 2#2 }

def execTlbiVa (t : StrandId) (scope ra rb : Reg) (x : Bool) (s : State) : Out :=
  insn t (.tlbiVa t scope ra rb x) (fun b => invalRes b t scope (vaOp t false ra rb x)) false s
def execTlbiTag (t : StrandId) (scope rb : Reg) (s : State) : Out :=
  insn t (.tlbiTag t scope rb) (fun b => invalRes b t scope (tagOp t false rb)) false s
def execTlbiAll (t : StrandId) (scope : Reg) (s : State) : Out :=
  insn t (.tlbiAll t scope) (fun b => invalRes b t scope (allOp t false scope)) false s
def execWciVa (t : StrandId) (scope ra rb : Reg) (x : Bool) (s : State) : Out :=
  insn t (.wciVa t scope ra rb x) (fun b => invalRes b t scope (vaOp t true ra rb x)) false s
def execWciTag (t : StrandId) (scope rb : Reg) (s : State) : Out :=
  insn t (.wciTag t scope rb) (fun b => invalRes b t scope (tagOp t true rb)) false s
def execWciAll (t : StrandId) (scope : Reg) (s : State) : Out :=
  insn t (.wciAll t scope) (fun b => invalRes b t scope (allOp t true scope)) false s

/-- A core, or a hub's engines, removes what its oldest TLBI or WCI selects and acknowledges it (R243, R361). -/
def ackInval (a : AckAgent) (b : Body) : Body :=
  match a with
  | .core c =>
    match (b.core c).inval with
    | [] => b
    | o :: rest => if b.owesStores c o || (strandsOfCore c).any (fun t => (b.strand t).inSpan) then b else b.modCore c fun k => { k.inval1 o with inval := rest }
  | .engines h =>
    match b.io.einval[h] with
    | [] => b
    | o :: rest =>
      let busy := b.io.writes.any fun w =>
        match o.part with | some p => (b.slice w.slice).part = p | none => true
      if !o.wci && busy then b
      else b.modIo fun i =>
        { i with
          einval := i.einval.set h rest
          etlb := if o.wci then i.etlb else i.etlb.map fun e =>
            if h : e.1 < 8192 then
              (if b.servingHub ⟨e.1, h⟩ (b.slice ⟨e.1, h⟩).part = h' then (e.1, e.2.filter fun x => !o.hitsTag x.tag) else e)
            else e }
where h' : HubId := match a with | .engines h => h | .core _ => 0

def execTlbiAck (a : AckAgent) (s : State) : Out := onBody (ackInval a) s

/-- Does any core or hub still owe an acknowledgement to the strand (R243)? -/
def Body.owesAck (b : Body) (t : StrandId) : Bool :=
  (allCores.any fun c => (b.core c).inval.any (·.src = t)) || ([0, 1].any fun h : HubId => (b.io.einval[h]).any (·.src = t))

/-- TSYNC: K, and it waits until nothing is owed (R115, R243). -/
def tsyncRes (b : Body) (t : StrandId) : Res :=
  needPrv b t 1 <| if b.owesAck t then .hold (b.modStrand t fun s => { s with act := .tsync }) else .ok b none

def execTsync (t : StrandId) (s : State) : Out := insn t (.tsync t) (fun b => tsyncRes b t) false s
def execTsyncComplete (t : StrandId) (s : State) : Out :=
  onBody (fun b =>
    let u := b.strand t
    if u.run = .running && u.act = .tsync && !b.owesAck t then b.complete t 3 else b) s

/-! ## Caches and homes -/

/-- Installs a line in an L1 of a core: in an empty way of its set, else in the place of one that pseudo-LRU gives (R166). -/
def Body.l1Install (b : Body) (x : CoreId) (fetch : Bool) (l : Line) (d : LineData) : Body :=
  let k := b.core x
  let tbl := if fetch then k.l1i else k.l1d
  let set := l.toNat % 128
  let put (b : Body) (w : Nat) : Body :=
    let tbl := tPut tbl (set * 4 + w) { line := l, data := d }
    (b.modCore x fun k => if fetch then { k with l1i := tbl } else { k with l1d := tbl }).useL1 x fetch (set * 4 + w)
  match (List.range 4).filter fun w => (tGet tbl (set * 4 + w)).isNone with
  | w :: _ => put b w
  | [] =>
    let (w, b) := b.replaceWay (if fetch then k.l1iUse else k.l1dUse) set (List.range 4) false
    put b (w.getD 0)

/-- The missed line is in the cluster's L2: it is installed in the L1 and the strand resumes (R173). A line that cannot be
delivered lets the strand resume too, and the access raises its trap (R174, R437). -/
def execLineFill (t : StrandId) (s : State) : Out :=
  onBody (fun b =>
    let u := b.strand t
    match u.run, u.act with
    | .running, .parked l fetch slot nol3 =>
      let c := clusterOfStrand t
      let resume (b : Body) : Body := b.modStrand t fun s => { s with act := .ready }
      if (b.lineCheck t (lineAddr l) false).isSome || !(b.cluster c).l2e then resume b
      else match b.l2Has c l with
      | none => b.postReq (b.reqFor t l slot nol3 false)
      | some (slot, e) =>
        if !b.l1On t fetch then resume b
        else
          let k := b.core (coreOf t)
          match l1Find (if fetch then k.l1i else k.l1d) l with
          | some _ => resume b
          | none => resume ((b.useL2 c slot).l1Install (coreOf t) fetch l e.data)
    | _, _ => b) s

def execStorePerformed (t : StrandId) (s : State) : Out := onBody (fun b => b.drainOne t) s

def execWriteBackAccepted (l : Line) (s : State) : Out :=
  onBody (fun b => match b.mem.departing.find? (·.line = l) with | some d => b.acceptBack d | none => b) s

/-- Counts the resending; an L3 slice's record counts its own (R435, R530). -/
def execWriteBackResend (l : Line) (s : State) : Out :=
  onBody (fun b =>
    match b.mem.departing.find? (·.line = l) with
    | none => b
    | some d =>
      let b := b.modMem fun m =>
        { m with departing := m.departing.map fun x => if x = d then { x with resent := x.resent + 1 } else x }
      match d.fromL3 with
      | some (die, _) => b.count 0x03 (dieLoc die (l3Slice l)).toNat Tilth.event
      | none => b) s

def execReservationHoldExpiry (t : StrandId) (s : State) : Out :=
  onBody (fun b => b.modStrand t fun u => { u with hold := false }) s

def execDirectoryRead (c : ClusterId) (l : Line) (s : State) : Out :=
  onBody (fun b =>
    match b.mem.reqs.find? fun r => r.cluster = c && r.line = l && !r.write with
    | some r => b.handleRead r
    | none => b) s

def execDirectoryWriteRequest (c : ClusterId) (l : Line) (s : State) : Out :=
  onBody (fun b =>
    match b.mem.reqs.find? fun r => r.cluster = c && r.line = l && r.write with
    | some r => b.handleWrite r
    | none => b) s

/-- An engine's read: the line of a departing write-back waits (R169, R176). -/
def execDmaRead (l : Line) (slot : Byte) (s : State) : Out :=
  onBody (fun b => if b.isDeparting l then b else (b.dmaLine l slot).2) s

/-- An invalidation that another cluster's write request, or an engine's write, sends to an L2: the line leaves it, a locked
slot stays in LE, modified data departs for its home; a hold defers it (R187, R217). -/
def execCoherenceInvalidation (c : ClusterId) (l : Line) (s : State) : Out :=
  onBody (fun b =>
    let wanted := (b.mem.reqs.any fun r => r.write && r.line = l && r.cluster != c) ||
      b.io.writes.any fun w => lineNo w.pa = l
    if !wanted || b.heldBy c l then b
    else match b.l2Has c l with
    | none => b
    | some (k, e) =>
      let b := b.l2Remove c k e true
      if e.st = .m then b.sendBack (e.back c 0xFFFF none l) else b) s

/-! ## An unassigned instruction (R90, R91) -/

/-- The real fetch of the instruction at the pc: the bytes, or the trap or wait that the fetch leads to. -/
def Body.fetchBytes (b : Body) (t : StrandId) : LRes (List Byte) :=
  let s := b.strand t
  let rec readAll : Body → List Seg → LRes (List Byte)
    | b, [] => .ok b []
    | b, g :: r =>
      match b.readSeg t g true with
      | .ok b bs => match readAll b r with
        | .ok b rest => .ok b (bs ++ rest)
        | .hold b => .hold b
        | .trap b q => .trap b q
      | .hold b => .hold b
      | .trap b q => .trap b q
  let get (b : Body) (n : Nat) : LRes (List Byte) :=
    match b.translate t needFetch s.prv s.pc.toNat n with
    | .stop b r => .trap b r
    | .ok b ps => readAll b (segsOf ps)
  match get b 1 with
  | .ok b bs => get b (insnLen (leNat bs))
  | .hold b => .hold b
  | .trap b r => .trap b r

/-- ILLEGAL_INSTRUCTION when the bytes at the pc are no instruction, INSTRUCTION_PAGE_FAULT when they cannot be
fetched; nothing when they are an instruction, which is a command of its own. -/
def execUnassignedInstruction (t : StrandId) (s : State) : Out :=
  onBody (fun b =>
    if !(b.strand t).ready then b
    else match b.dueFirst t false with
    | some b => b
    | none =>
      match b.fetchBytes t with
      | .hold b => b
      | .trap b r => b.trapOrFp b t r (b.strand t).pc false
      | .ok b bs =>
        match decodeInsn t (leNat bs) with
        | some _ => b
        | none => b.settle t bs.length (BitVec.ofNat 64 (leNat bs)) (illegal b)) s

end Sys2Proof.Machine
end

