-- ==== Sys2Proof/Machine/Slip.lean ====
section
/-!
DEFINITION. The slips: banks, match registers and the fetch of a micro-word; and the micro-words of the channel-engine sequencers
(chapter 9, R254 to R256, R269 to R273, R279, R280).
-/

namespace Sys2Proof.Machine

/-! ## Match registers (R270) -/

def matchOn (m : BitVec 32) : Bool := m.getLsbD 31
def matchAddr (m : BitVec 32) : Nat := (m.extractLsb' 16 15).toNat
def matchSlot (m : BitVec 32) : Nat := (m.extractLsb' 0 10).toNat

/-- SLOT of the enabled register that a ROM address matches. -/
def redirect (ms : List (BitVec 32)) (a : Nat) : Option Nat := (ms.find? fun m => matchOn m && matchAddr m = a).map matchSlot

/-- Does the loader refuse a patch? Two enabled registers hold one address, or one is outside the limits of R270. -/
def patchRefused (ms : List (BitVec 32)) (rom slots : Nat) : Bool :=
  let on := ms.filter matchOn
  !(on.map matchAddr).Nodup || on.any fun m => rom ≤ matchAddr m || slots ≤ matchSlot m || (m.extractLsb' 10 6).toNat != 0

/-! ## Fetch of a micro-word (R254, R260, R270) -/

/-- First micro-address of the core slip, and of its customer area. -/
def slipBase : Nat := 0x6000
def customerBase : Nat := 0x6300
/-- First micro-address of the engine slip. -/
def engineSlipBase : Nat := 0x2000

/-- The word that a core sequencer fetches at a micro-address: a ROM word unless a match register redirects it. A slip word is never
redirected. None where nothing is loaded. -/
def SlipBank.fetch (k : SlipBank) (a : Nat) : Option (BitVec 160) :=
  if a < slipBase then
    match redirect k.matchRegs a with
    | some n => k.patch[n]?
    | none => some (Config.coreRom a)
  else if a < customerBase then k.patch[a - slipBase]?
  else k.code[a - customerBase]?

def EngineBank.fetch (k : EngineBank) (a : Nat) : Option (BitVec 128) :=
  if a < engineSlipBase then
    match redirect k.matchRegs a with
    | some n => k.words[n]?
    | none => some (Config.engineRom a)
  else k.words[a - engineSlipBase]?

/-- A loaded word with the check bits that the loader computes (R256, R279). -/
def withCoreEcc (w : BitVec 160) : BitVec 160 := w.extractLsb' 16 144 ++ Config.coreEcc (w.extractLsb' 16 144)
def withEngineEcc (w : BitVec 128) : BitVec 128 := w.extractLsb' 16 112 ++ Config.engineEcc (w.extractLsb' 16 112)

/-! ## Engine micro-words (R279) -/

/-- Where a word leads. -/
inductive EngineBr where
  | next
  | alt
  | dispatch
  | ret
  | halt
  | reserved
  deriving DecidableEq, Repr

structure EngineWord where
  commit : Bool
  br : EngineBr
  cond : BitVec 6
  next : Nat
  alt : Nat
  datapath : BitVec 74
  ecc : BitVec 16
  deriving DecidableEq, Repr

def engineBr (n : BitVec 3) : EngineBr :=
  match n.toNat with
  | 0 => .next
  | 1 => .alt
  | 2 => .dispatch
  | 3 => .ret
  | 4 => .halt
  | _ => .reserved

def engineWord (w : BitVec 128) : EngineWord :=
  { commit := w.getLsbD 127, br := engineBr (w.extractLsb' 124 3), cond := w.extractLsb' 118 6, next := (w.extractLsb' 104 14).toNat,
    alt := (w.extractLsb' 90 14).toNat, datapath := w.extractLsb' 16 74, ecc := w.extractLsb' 0 16 }

/-- The fixed ROM vector of a bank: base, event, fault, check. -/
def engineVector (bank : BitVec 2) : Nat := bank.toNat * 0x100

/-! ## The banks of an engine (R273, R280) -/

/-- A bank is entered at its vector; it returns to the one that it interrupts. -/
def ChanEng.enter (g : ChanEng) (bank : BitVec 2) : ChanEng :=
  { g with bank := bank, stack := g.bank :: g.stack, addr := vset g.addr bank.toNat (engineVector bank), halted := false }

/-- An event, or a fault of work at base or event level, enters its bank, or is queued: an event behind any other bank in use, a fault
behind the running fault handler. -/
def ChanEng.meet (g : ChanEng) (fault : Bool) : ChanEng :=
  if fault then (if g.bank.toNat ≤ 1 then g.enter 2 else { g with queue := g.queue ++ [true] })
  else if g.bank = 0 then g.enter 1
  else if (g.queue.filter (! ·)).length < 256 then { g with queue := g.queue ++ [false] }
  else g

/-- A fault of the routine that runs: at base or event level the fault bank is entered, at fault level the check bank. -/
def ChanEng.ownFault (g : ChanEng) : ChanEng := if g.bank.toNat ≤ 1 then g.enter 2 else g.enter 3

/-- An engine that is at a point where it changes banks makes an ordered switch (R273): no other bank than the base one is in use, and
that is at a commit. -/
def ChanEng.settleSlip (g : ChanEng) : ChanEng :=
  if g.bank = 0 && g.stack.isEmpty && g.atCommit then { g with slipOld := false } else g

/-- A bank returns, and what waits for a bank that is now free enters it. -/
def ChanEng.giveBack (g : ChanEng) : ChanEng :=
  match g.stack with
  | [] => g
  | k :: r =>
    let g := { g with bank := k, stack := r }.settleSlip
    if g.bank.toNat ≤ 1 ∧ g.queue.contains true then { g with queue := g.queue.erase true }.enter 2
    else if g.bank = 0 ∧ g.queue.contains false then { g with queue := g.queue.erase false }.enter 1
    else g

/-- The engine executes the micro-word at its bank's address (R279). `code` is the event code and `c` says whether COND holds. A reserved
BR, or an address with no word, is an internal error: none. -/
def ChanEng.runWord (g : ChanEng) (k : EngineBank) (code : BitVec 14) (c : BitVec 6 → Bool) : Option ChanEng :=
  match (k.fetch (vget g.addr g.bank.toNat 0)).map engineWord with
  | none => none
  | some w =>
    let g := if g.bank = 0 then { g with atCommit := w.commit } else g
    let goto (a : Nat) : ChanEng := { g with addr := vset g.addr g.bank.toNat a }.settleSlip
    match w.br with
    | .next => some (goto w.next)
    | .alt => some (goto (if c w.cond then w.alt else w.next))
    | .dispatch => some (goto ((w.next + code.toNat) % 2 ^ 14))
    | .ret => some g.giveBack
    | .halt => some { goto w.next with halted := true }
    | .reserved => none

end Sys2Proof.Machine
end

