-- ==== Sys2Proof/Machine/Recovery.lean ====
section
/-!
DEFINITION. What ends or moves a channel transaction: device completions, final records, path failures, timeouts, engine
faults and takeovers, and the drains of streams (R280, R296, R306, R321 to R341).
-/

namespace Sys2Proof.Machine

/-! ## Completions (R296, R300, R302, R306, R321, R324) -/

def Body.dropCmd (b : Body) (id : Nat) : Body := b.modIo fun i => { i with cmds := i.cmds.filter (·.id != id) }
def Body.modCmd (b : Body) (id : Nat) (f : DevCmd → DevCmd) : Body :=
  b.modIo fun i => { i with cmds := i.cmds.map fun k => if k.id = id then f k else k }

/-- No earlier issue of a re-driven WRITE can be live any more: JFLAGS[2] clears (R330). -/
def Body.settleStale (b : Body) (ix : Nat) : Body :=
  if b.io.cmds.any fun c => c.who = .txn ix && c.stale then b else b.jMod ix fun j => { j with jflags := j.jflags &&& 0xFB }

/-- The transaction of a command. -/
def DevCmd.ix (c : DevCmd) : Option Nat := match c.who with | .txn ix => some ix | .drain _ => none

/-- A suppressed completion counts in DUPS of its transaction's entry, be it retired, and in the tilth report of the entry's engine (R320,
R324); without an entry, in that of the port's hub. -/
def Body.countDup (b : Body) (c : DevCmd) : Body :=
  match c.ix.bind fun ix => ((b.jRaw ix).filter (·.txn = c.txn)).map fun j => (ix, j) with
  | some (ix, j) =>
    let j' := { j with dups := if j.dups = 0xFFFF then j.dups else j.dups + 1 }
    let e := engineOf j.engine
    (b.jPut ix j').count 0x05 (chanLoc e.1 e.2).toNat fun t => { t with spec0 := sat32 t.spec0 }
  | none => b.count 0x05 (chanLoc (portHalf c.port) 0).toNat fun t => { t with spec0 := sat32 t.spec0 }

/-- A completion that no command in doubt awaits: counted, and nothing else (R324). -/
def Body.suppress (b : Body) (c : DevCmd) : Body :=
  let b := b.dropCmd c.id
  (match c.ix with | some ix => b.settleStale ix | none => b).countDup c

/-- The device's sense is held with the subchannel (R302). -/
def Body.holdDevice (b : Body) (j : JEntry) (s : SenseInfo) : Body :=
  let proto := match b.subch j.subchKey with
    | some c => ((c.paths[j.path.toNat]?).map (·.proto)).getD 0
    | none => 0
  b.hold j.subchKey (senseBlock proto s.kind s.key s.code j.path s.sfl s.info s.raw)

/-- DSTAT of an answer (R300). Whether DONE stands beside UNIT_EXCEPTION is not stated and is free. -/
def Body.dstat (b : Body) (cls : DevClass) : Byte :=
  match cls with
  | .good | .busy => 0x01
  | .exception => if Config.freeBool b.freeCtr then 0x41 else 0x40
  | .attention | .error => 0x80

/-- A command has been confirmed: it is in doubt no more (R321). -/
def Body.confirm (b : Body) (ix id : Nat) : Body := (b.dropCmd id).jMod ix fun j => { j with issued := j.issued - 1 }

/-- The residual of a group that does not move all its bytes (R296). -/
def Group.rest (g : Group) : BitVec 32 := BitVec.ofNat 32 (g.count - min g.done g.count)

/-- A block READ or WRITE command ends (R294, R296, R309, R321). One that fails is in doubt until FINAL is written. -/
def Body.blockEnd (b : Body) (ix : Nat) (j : JEntry) (r : Running) (g : Group) (c : DevCmd) (x : DevResult) (ds : Byte) : Body :=
  let blksz := ((b.subch j.subchKey).map fun s => max s.blksz.toNat 1).getD 1
  if ds = 1 then
    let b := b.confirm ix c.id
    match (if g.cmd = 0x21 then b.storeGroup (b.txOwner j r) g c.off x.data else (b, .ok ())) with
    | (b, .error e) => b.endErr ix e
    | (b, .ok _) =>
      let g := { g with got := g.got ++ [(c.off, c.len)] }
      let again := b.io.cmds.any fun k => k.who = .txn ix && k.stale && k.off = c.off && g.cmd = 0x22
      let b := b.jMod ix fun j =>
        { j with ckdone := BitVec.ofNat 32 g.done, ckpos := r.pos.getD 0 + BitVec.ofNat 64 (g.front / blksz),
                 ckxfer := satXfer r.xfer g.moved, jflags := if again then j.jflags ||| 4 else j.jflags }.checkpoint
      let b := b.modRunning ix fun r => { r with group := some g, resid := if r.ending.map (·.1) = some 0x24 then g.rest else r.resid }
      match r.ending with
      | some (sc, ds) => b.endProgram ix sc ds
      | none =>
        if g.done = g.total then
          (b.modRunning ix fun r => { r with pos := r.pos.map fun p => p + BitVec.ofNat 64 (g.total / blksz) }).commandEnded ix g.flags 1 0
            true
        else b.issueMore ix 16
  else
    let b := if ds.getLsbD 7 then b.holdDevice j x.sense else b
    let b := (b.modCmd c.id fun k => { k with answered := true }).spoilRead ix
    (b.modRunning ix fun r => { r with resid := if r.ending.isNone then g.rest else r.resid }).endProgram ix 0x24 ds

/-- Logical object number after a tape command that succeeded (R297). -/
def tapeAfter (c : DevCmd) : BitVec 64 :=
  if c.cmd = 0x50 then
    match c.order.toNat with
    | 0x10 | 0x14 => 0
    | 0x11 => c.param
    | 0x12 => c.pos + 1
    | _ => c.pos + c.param
  else c.pos + 1

/-- A tape command, or a FLUSH, ends (R296, R300). -/
def Body.singleEnd (b : Body) (ix : Nat) (j : JEntry) (r : Running) (g : Group) (c : DevCmd) (x : DevResult) (ds : Byte) : Body :=
  let took := ds.getLsbD 0 || (ds.getLsbD 6 && !(c.cmd = 0x21))
  let moved := took || ds.getLsbD 6
  let got : Nat := if c.cmd = 0x21 then x.data.length else if took then c.len else 0
  let resid : BitVec 32 := if c.cmd = 0x50 then 0 else if c.cmd = 0x22 && took then 0 else BitVec.ofNat 32 (g.count - got) - BitVec.ofNat 32 (got - g.count)
  let b := b.confirm ix c.id
  let stored : Cce Unit :=
    if c.cmd = 0x21 then
      if ds = 1 then b.storeGroup (b.txOwner j r) g 0 (x.data.take g.count) else ((b.spoilRead ix), .ok ())
    else (b, .ok ())
  match stored with
  | (b, .error e) => b.endErr ix e
  | (b, .ok _) =>
    let again := b.io.cmds.any fun k => k.who = .txn ix && k.stale && c.cmd = 0x22
    let tape : Bool := match b.subch j.subchKey with | some s => s.kind = 2 | none => false
    let pos := if moved then tapeAfter c else Config.freeW b.freeCtr
    let add := if c.cmd = 0x21 then min got g.count else if c.cmd = 0x22 && took then g.xlen else 0
    let b := (b.spend).jMod ix fun j =>
      { j with ckpos := if tape && moved then pos else j.ckpos, ckxfer := satXfer j.ckxfer add,
               ckdone := BitVec.ofNat 32 add, jflags := if again then j.jflags ||| 4 else j.jflags }
    let b := if tape then b.modSubch j.subchKey fun s => { s with lon := pos } else b
    let b := if ds.getLsbD 7 then b.holdDevice j x.sense else b
    b.commandEnded ix g.flags ds resid true

/-- A command of the transaction's group ends with an answer other than a retry; one of no group is only confirmed. -/
def Body.finishCmd (b : Body) (ix : Nat) (j : JEntry) (c : DevCmd) (x : DevResult) : Body :=
  let ds := b.dstat x.cls
  match b.running ix, b.subch j.subchKey with
  | some r, some s =>
    match r.group with
    | some g => if s.kind = 1 ∧ c.cmd ≠ 0x50 then b.blockEnd ix j r g c x ds else b.singleEnd ix j r g c x ds
    | none =>
      let b := (b.confirm ix c.id).jMod ix JEntry.checkpoint
      match r.ending with
      | some (sc, ds) => b.endProgram ix sc ds
      | none => b
  | _, _ => b

/-! ## Tape position recovery (R333) -/

/-- Puts a command in the place of another, under a new identifier and CKSEQ. -/
def Body.reissue (b : Body) (ix : Nat) (c : DevCmd) (recov : Nat) : Body := (b.confirm ix c.id).again ix c recov

/-- The tape's position is lost: the program ends with what the module holds of it (R333). -/
def Body.positionLost (b : Body) (ix : Nat) (j : JEntry) (c : DevCmd) (p : BitVec 64) : Body :=
  let b := (b.confirm ix c.id).spoilRead ix
  let b := b.hold j.subchKey (b.ownSense j 1 c.pos (leBytes 8 p.toNat))
  let b := b.modSubch j.subchKey fun s => { s with lon := p }
  (b.modRunning ix fun r => { r with resid := (r.group.map fun g => if g.cmd = 0x50 then 0 else g.rest).getD 0 }).endProgram ix 0x24 0x80

/-- The answer to the READ POSITION, or to the LOCATE(16), of a positional command in doubt (R333). A SPACE_BLOCKS whose position cannot be
read is resolved by its LOCATE. -/
def Body.recoverTape (b : Body) (ix : Nat) (j : JEntry) (c : DevCmd) (x : DevResult) : Body :=
  let good : DevResult := { x with cls := .good, data := [] }
  let space := c.cmd = 0x50 && c.order = 0x13
  let p := x.pos
  let goal := c.pos + c.param
  match x.cls with
  | .busy => b
  | .good =>
    if c.recov = 2 then
      if c.cmd = 0x21 then b.reissue ix c 0 else b.finishCmd ix j c good
    else if space then
      if p = goal then b.finishCmd ix j c good else b.reissue ix c 2
    else if p = c.pos then b.reissue ix c 0
    else if p = c.pos + 1 then
      if c.cmd = 0x21 then b.reissue ix c 2 else b.finishCmd ix j c good
    else b.positionLost ix j c p
  | _ => if space && c.recov = 1 then b.reissue ix c 2 else b.positionLost ix j c p

/-! ## Drains (R337 to R341) -/

/-- What a program of the subchannel has to report, after what it owes already (R340, R341). -/
def Body.streamReport (b : Body) (key : Nat) (sc ds : Byte) (sense : Option (List Byte)) : Body :=
  b.modSubch key fun c => { c with reports := c.reports ++ [(sc, ds, sense)] }

/-- The stream's own sense block (R333, R340). -/
def streamSense (c : Subch) (code : BitVec 16) (info : BitVec 64) (raw : List Byte) : List Byte :=
  let i := c.lastPath.getD 0
  senseBlock ((c.paths[i]?.map (·.proto)).getD 0) 3 0 code (BitVec.ofNat 8 i) 0 info raw

/-- The drain has no block left: an underrun unless a barrier waits (R338, R340). -/
def Body.drainEmpty (b : Body) (n : Nat) (t : Stream) (key : Nat) (c : Subch) : Body :=
  if !t.active || t.barrier then b
  else
    let b := b.modStream n fun t => { t with active := false }
    let b := b.report (chanLoc t.engine.1 t.engine.2) 0x0506 (dataOf [(1, n), (7, 0), (8, c.lon.toNat)])
    b.streamReport key 0x27 0 (some (streamSense c 2 c.lon []))

/-- The drain stops: its blocks are discarded, what the drive still has of them is its own no more, and a program reports it (R341). -/
def Body.drainStop (b : Body) (n : Nat) (key : Nat) (lon : BitVec 64) (sc ds : Byte) (sense : Option (List Byte)) : Body :=
  let b := b.modStream n fun t => { t with blocks := [], active := false, recov := false }
  let b := b.modIo fun i => { i with cmds := i.cmds.map fun k => if k.who = .drain n then { k with live := false } else k }
  (b.modSubch key fun c => { c with lon := lon }).streamReport key sc ds sense

/-- The drive confirms the first `k` blocks: their space is free, and the drain goes on (R337). -/
def Body.drained (b : Body) (n : Nat) (t : Stream) (key : Nat) (c : Subch) (k : Nat) : Body :=
  let b := b.modStream n fun t => { t with recov := false, blocks := t.blocks.drop k }
  if t.blocks.length ≤ k then b.drainEmpty n t key c else b.drainMore n 64

/-- The drive answers the oldest command of a drain: the WRITE of its first block, or the READ POSITION of its recovery (R333, R337, R341). -/
def Body.drainAnswer (b : Body) (n : Nat) (t : Stream) (key : Nat) (c : Subch) (k : DevCmd) (r : DevResult) : Body :=
  let lost (b : Body) : Body := b.drainStop n key r.pos 0x24 0x80 (some (streamSense c 1 k.pos (leBytes 8 r.pos.toNat)))
  match r.cls with
  | .busy => b
  | .attention =>
    if !k.retried then
      (b.modCmd k.id fun k => { k with retried := true }).count 0x05 (chanLoc t.engine.1 t.engine.2).toNat fun t =>
        { t with spec1 := sat32 t.spec1 }
    else if k.recov = 1 then lost (b.dropCmd k.id)
    else fails (b.dropCmd k.id)
  | .good =>
    let b := b.dropCmd k.id
    if k.recov = 1 then
      let m := (r.pos - k.pos).toNat
      if m ≤ min t.blocks.length 64 then b.drained n t key c m else lost b
    else b.drained n t key c 1
  | _ => if k.recov = 1 then lost (b.dropCmd k.id) else fails (b.dropCmd k.id)
where
  fails (b : Body) : Body :=
    let i := c.lastPath.getD 0
    b.drainStop n key k.pos 0x24 0x80 (some (senseBlock ((c.paths[i]?.map (·.proto)).getD 0) r.sense.kind r.sense.key r.sense.code
      (BitVec.ofNat 8 i) r.sense.sfl k.pos r.sense.raw))

/-- The path on which a drain runs. -/
def Body.drainPathOf (b : Body) (n key : Nat) : Option Nat :=
  match b.drainCmds n with
  | k :: _ => some k.path
  | [] => (b.subch key).bind (·.lastPath)

/-- A drain's commands are with the drive no more: its blocks are recovered on the path that the subchannel has then (R333, R337). Late answers
to them are suppressed (R324). -/
def Body.drainDoubt (b : Body) (n : Nat) : Body :=
  let any := !(b.drainCmds n).isEmpty
  let b := b.modIo fun i => { i with cmds := i.cmds.map fun k => if k.who = .drain n then { k with live := false } else k }
  if any then b.modStream n fun t => { t with recov := true } else b

/-- The drain of a stream goes to the path that the subchannel uses, or to another usable one, none of `avoid` (R312, R328); it waits where
there is none. -/
def Body.drainPath (b : Body) (n : Nat) (avoid : BitVec 16) : Body :=
  match tGet b.io.streams n with
  | none => b
  | some t =>
    let key := subchKey t.slice.val t.image.toNat
    match b.subch key with
    | none => b
    | some c =>
      let b := b.drainDoubt n
      match b.choosePath (b.servingHub t.slice (b.slice t.slice).part) c none avoid with
      | none => b
      | some i =>
        let near := match c.paths[i]? with | some p => portHalf p.port | none => 0
        let (e, b) := if t.engine.1 = near ∧ b.chanUp near t.engine.2 then (some t.engine, b) else b.pickEngine near
        let b := b.modStream n fun t => { t with engine := e.getD t.engine }
        (b.modSubch key fun c => { c with lastPath := some i }).drainMore n 64

/-- The drive answers the oldest command of the drain; a drain that could not issue any tries again (R333, R337). -/
def execDrainBlockConfirmed (stream : Fin 64) (r : DevResult) (s : State) : Out :=
  onBody (fun b =>
    match tGet b.io.streams stream.val with
    | none => b
    | some t =>
      let key := subchKey t.slice.val t.image.toNat
      match b.subch key with
      | none => b
      | some c =>
        if !b.serving then b
        else match b.drainCmds stream.val with
          | [] => b.drainMore stream.val 64
          | k :: _ => if b.portUp k.port && k.abort.isNone then b.drainAnswer stream.val t key c k r else b) s

/-- The drain is empty, and the command that waits at the barrier starts (R338). -/
def execDrainBarrierRelease (stream : Fin 64) (s : State) : Out :=
  onBody (fun b =>
    match tGet b.io.streams stream.val with
    | none => b
    | some t =>
      if !b.serving || !t.barrier || !t.blocks.isEmpty then b
      else
        let key := subchKey t.slice.val t.image.toNat
        let b := b.modStream stream.val fun t => { t with barrier := false, active := false }
        match b.outstanding.find? fun e => e.2.subchKey = key && (e.2.st = 2 || e.2.st = 3) with
        | some e => b.runProgram e.1
        | none => b) s

/-! ## Path failure (R320, R328) -/

/-- Sets every ONLINE path that satisfies `p` FAILED and moves what runs on such a path, by descending PRIO (R313, R328). A transaction in
DEVICE_DONE waits for no earlier issue on such a path any more (R320). A drain in progress recovers its blocks by READ POSITION (R337).
`skip` is a transaction that its own timeout ends (R332). -/
def Body.failPaths (b : Body) (p : Nat → Path → Bool) (skip : Option Nat) : Body :=
  let b := b.modIo fun i => { i with
    subchs := i.subchs.map fun e =>
      (e.1, { e.2 with paths := e.2.paths.map fun q => if q.st = 1 ∧ p e.1 q then { q with st := 2, probed := false } else q }) }
  let on (key i : Nat) : Bool := match (b.subch key).bind (fun c => c.paths[i]?) with | some q => p key q | none => false
  let hit := b.outstanding.filter fun e => (e.2.st = 2 || e.2.st = 3) && on e.2.subchKey e.2.path.toNat && skip != some e.1
  let order := (List.range 8).reverse.flatMap fun k => hit.filter fun e => e.2.prio.toNat = k
  let done := b.outstanding.filter fun e => e.2.st = 4
  let drains := b.io.streams.filter fun e =>
    let key := subchKey e.2.slice.val e.2.image.toNat
    !e.2.blocks.isEmpty && match b.drainPathOf e.1 key with | some i => on key i | none => false
  let b := order.foldl (fun b e => b.changePath e.1) b
  let b := done.foldl (fun b e =>
    (b.modIo fun i => { i with
      cmds := i.cmds.map fun c => if c.who = .txn e.1 ∧ c.stale ∧ on e.2.subchKey c.path then { c with stale := false } else c }).settleStale e.1) b
  drains.foldl (fun b e => b.drainPath e.1 0) b

/-- A path failure that a port controller reports, for every path on the port or for those to one target (R328). -/
def Body.pathFailure (b : Body) (port : PortId) (target : Option Nat) : Body :=
  b.failPaths (fun _ q => q.port = port && (match target with | some t => q.target.toNat = t | none => true)) none

def execPathFailure (p : PortId) (target : Option Nat) (s : State) : Out :=
  onBody (fun b => if b.serving then b.pathFailure p target else b) s

/-- An engine has taken the command's transaction over and has not read its program again (R326). -/
def Body.isLost (b : Body) (c : DevCmd) : Bool := match c.ix.bind b.running with | some r => r.lost | none => false

/-- The completion of a command in doubt (R306, R321). -/
def Body.completes (b : Body) (ix : Nat) (j : JEntry) (sub : Subch) (c : DevCmd) (r : DevResult) : Body :=
  let scsi := match sub.paths[c.path]? with | some p => !isNvme p.proto | none => false
  match r.cls with
  | .busy => b
  | .attention =>
    if scsi && !c.retried then
      let e := engineOf j.engine
      (b.modCmd c.id fun k => { k with retried := true }).count 0x05 (chanLoc e.1 e.2).toNat fun t => { t with spec1 := sat32 t.spec1 }
    else if c.recov ≠ 0 then b.recoverTape ix j c r
    else b.finishCmd ix j c r
  | _ => if c.recov ≠ 0 then b.recoverTape ix j c r else b.finishCmd ix j c r

/-- A device answers a command (R306, R321, R324). A command whose port is not UP is still held there (R285), a block READ
delivers exactly its length (R296), and an engine that has taken the transaction over reads its program first (R326). The answer to a
command whose abort has been sent ends nothing: the abort decides (R332). -/
def execDeviceCompletion (id : Nat) (r : DevResult) (s : State) : Out :=
  onBody (fun b =>
    match b.io.cmds.find? (·.id = id) with
    | none => b
    | some c =>
      if !b.serving || c.answered then b
      else match c.who with
        | .drain n =>
          if !c.live then b.suppress c
          else match tGet b.io.streams n with
            | none => b
            | some t =>
              let key := subchKey t.slice.val t.image.toNat
              match b.subch key with
              | none => b
              | some sub =>
                if (b.drainCmds n).head? ≠ some c ∨ !b.portUp c.port ∨ c.abort.isSome then b else b.drainAnswer n t key sub c r
        | .txn ix =>
          match (if c.live then (b.jGet ix).filter (·.txn = c.txn) else none) with
          | none => b.suppress c
          | some j =>
            match b.subch j.subchKey with
            | none => b
            | some sub =>
              if !b.portUp c.port ∨ (sub.kind = 1 ∧ c.cmd = 0x21 ∧ r.cls = .good ∧ r.data.length ≠ c.len) then b
              else if c.abort.isSome then b.countDup c
              else if b.isLost c then b
              else b.completes ix j sub c r) s

/-! ## Posting (R307, R323, R330, R334) -/

/-- FINAL goes to the completion ring or, for an orphan, to the orphan queue, once R330 is satisfied. -/
def execFinalPost (ix : Nat) (s : State) : Out :=
  onBody (fun b =>
    match b.jGet ix with
    | none => b
    | some j =>
      if !b.serving then b
      else
        let sl : SliceId := ⟨j.slice.toNat, by have := j.slice.isLt; omega⟩
        let waits := j.jflags.getLsbD 2 && b.io.cmds.any fun c => c.who = .txn ix && c.stale
        if j.st = 4 ∧ !waits then
          let b := b.jPut ix { j with st := 5 }
          if j.orphan then b.toOrphan ix else b.postRecord sl { src := .final ix, gen := some j.gen, bytes := j.final }
        else if j.st = 5 then
          if j.orphan then b.toOrphan ix
          else if b.pendingRecs sl (· = .final ix) = 0 then b.postRecord sl { src := .final ix, gen := some j.gen, bytes := j.final }
          else b
        else b) s

/-! ## Ends of waits (R330 to R332) -/

/-- The session of a failed path with a target has ended: no command of it is live any more, and an NVMe controller is to be initialised
again (R310, R324, R330). -/
def execSessionEnd (p : PortId) (target : Nat) (s : State) : Out :=
  onBody (fun b =>
    let gone (c : DevCmd) : Bool := !c.live && c.port = p && c.target = target
    let ixs := (b.io.cmds.filter gone).filterMap (·.ix)
    let b := b.modIo fun i => { i with
      cmds := i.cmds.filter fun c => !gone c
      controllers := i.controllers.filter fun k => k != (p, target) }
    ixs.foldl (fun b ix => b.settleStale ix) b) s

/-- The subchannel and the owner's partition that a command belongs to. -/
def Body.cmdHome (b : Body) (c : DevCmd) : Option (Nat × Byte) :=
  match c.who with
  | .txn ix => ((b.jRaw ix).filter (·.txn = c.txn)).map fun j => (j.subchKey, j.part)
  | .drain n => (tGet b.io.streams n).map fun t => (subchKey t.slice.val t.image.toNat, (b.slice t.slice).part)

/-- The device timeout of a command, in nanoseconds (R332, R510). -/
def Body.deviceTimeout (b : Body) (c : DevCmd) : Nat :=
  match b.cmdHome c with
  | some (key, p) =>
    let q := b.part p
    let tape : Bool := match b.subch key with | some s => s.kind = 2 | none => false
    (if tape then q.tapetmo else q.blktmo).toNat * 1000000000
  | none => 0

/-- The device timeout of a command expires: it is aborted; of an earlier issue of a WRITE it ends the wait of R330 (R332). -/
def execDeviceTimeout (id : Nat) (s : State) : Out :=
  onBody (fun b =>
    match b.io.cmds.find? (·.id = id) with
    | none => b
    | some c =>
      match b.cmdHome c with
      | none => b
      | some _ =>
        let h := (engineOf c.queue).1
        let due := c.issuedAt + b.deviceTimeout c
        if !b.serving then b
        else if c.stale then
          let b := (b.reach h due).modCmd id fun k => { k with stale := false }
          match c.ix with | some ix => b.settleStale ix | none => b
        else if c.live && !c.answered && c.abort.isNone then
          let b := b.reach h due
          b.modCmd id fun k => { k with abort := some (b.tod h) }
        else b) s

/-- A transaction ends with DEVICE_TIMEOUT (R332). -/
def Body.timedOut (b : Body) (ix : Nat) : Body :=
  let b := b.spoilRead ix
  (b.modRunning ix fun r => { r with
    resid := if r.ending.isNone then BitVec.ofNat 32 ((r.group.map (·.count)).getD 0) else r.resid }).endProgram ix 0x25 0

/-- A drain whose WRITE times out stops: a program reports DEVICE_TIMEOUT (log entry 12). -/
def Body.drainTimedOut (b : Body) (n : Nat) (lon : BitVec 64) : Body :=
  match tGet b.io.streams n with
  | some t => b.drainStop n (subchKey t.slice.val t.image.toNat) lon 0x25 0 none
  | none => b

/-- A command whose abort is over leaves its transaction or its drain (R332). -/
def Body.aborted (b : Body) (c : DevCmd) : Body :=
  match c.who with
  | .txn ix => (b.jMod ix fun j => { j with issued := j.issued - 1 }).timedOut ix
  | .drain n => b.drainTimedOut n c.pos

def execAbortConfirmed (id : Nat) (s : State) : Out :=
  onBody (fun b =>
    match b.io.cmds.find? (·.id = id) with
    | none => b
    | some c =>
      if !b.serving || !c.live || c.abort.isNone || b.isLost c then b else (b.dropCmd id).aborted c) s

/-- 5 s after an abort that the device has not confirmed, the program ends and its path is FAILED (R332). -/
def execAbortWaitExpiry (id : Nat) (s : State) : Out :=
  onBody (fun b =>
    match b.io.cmds.find? (·.id = id) with
    | none => b
    | some c =>
      match c.abort with
      | some t =>
        if !b.serving || !c.live || b.isLost c then b
        else
          let b := b.reach (engineOf c.queue).1 (t + 5000000000)
          let b := b.modIo fun i => { i with cmds := i.cmds.map fun k => if k.who = c.who then { k with live := false } else k }
          let b := (match c.ix with
            | some ix => (b.jMod ix fun j => { j with issued := 1 }).modRunning ix fun r => { r with redo := [] }
            | none => b).aborted c
          b.failPaths (fun _ q => q.port = c.port && q.target.toNat = c.target) c.ix
      | none => b) s

/-- A probe of a FAILED path whose port is UP (R284, R331). -/
def execPathProbe (sl : SliceId) (image : BitVec 12) (path : Fin 8) (r : ProbeResult) (s : State) : Out :=
  onBody (fun b =>
    let key := subchKey sl.val image.toNat
    match b.subch key with
    | none => b
    | some c =>
      match c.paths[path.val]? with
      | none => b
      | some p =>
        if !b.serving || p.st != 2 || !b.portUp p.port || !r.ok || !b.holdsPath (b.servingHub sl (b.slice sl).part) p then b
        else if c.kind = 1 ∧ !(r.blksz = c.blksz && r.plainFormat) then
          b.count 0x07 (portLoc p.port).toNat fun t => { t with spec3 := sat32 t.spec3 }
        else
          let b := b.modSubch key fun c => { c with paths := c.paths.set path.val { p with st := 1, probed := true } }
          b.report (portLoc p.port) 0x0503 (dataOf [(2, sl.val), (2, image.toNat), (1, path.val)])) s

/-! ## Channel engine faults (R280, R326, R327) -/

/-- The working state that an engine builds from a checkpoint (R321, R326). The position and the XFER at the start of a command follow from
the checkpoint and the commands in doubt; that a program has located is kept (log entry 12). -/
def Running.fromCheckpoint (r : Running) (j : JEntry) (blksz : Nat) (doubt : List DevCmd) : Running :=
  let at' : BitVec 64 := match doubt with
    | k :: _ => k.pos - BitVec.ofNat 64 (k.off / max blksz 1)
    | [] => j.ckpos - BitVec.ofNat 64 (j.ckdone.toNat / max blksz 1)
  { r with addr := j.ckaddr, ccno := j.ckcce.setWidth 32, caddr := j.ckaddr, cccno := j.ckcce.setWidth 32, pos := r.pos.map fun _ => at',
           group := none, resid := j.ckresid, ending := if j.st = 1 then r.ending else none, stop := none, lost := true, idle := false }

/-- A transaction passes to another engine (R325 to R327): what only the old engine held is lost, and the checkpoint is not. Commands that the
port controller holds stay outstanding; with an engine of the other hub the path is changed too. -/
def Body.takeOver (b : Body) (ix : Nat) (e : HubId × Fin 16) (from' : HubId) : Body :=
  match b.jGet ix with
  | none => b
  | some j =>
    let sl : SliceId := ⟨j.slice.toNat, by have := j.slice.isLt; omega⟩
    let b := (b.jPut ix { j with engine := engineByte e, recov := recovWord j.recov none true false }.checkpoint).touchChan e
    let noticed := j.jflags.getLsbD 0 || b.pendingRecs sl (· = .accepted ix) != 0
    let b := if j.sflags.getLsbD 0 && !noticed then b.postRecord sl (b.acceptedNotice ix j) else b
    if 3 < j.st.toNat then b
    else
      let blksz := ((b.subch j.subchKey).map (·.blksz.toNat)).getD 1
      let doubt := b.inDoubt ix
      let gone := doubt.filter (·.answered)
      let b := b.modIo fun i => { i with
        cmds := i.cmds.filter fun k => !(k.who = .txn ix && k.live && k.answered)
        jobs := i.jobs.filter fun k => k.chan != some ix }
      let b := b.modRunning ix fun r => { r.fromCheckpoint j blksz (doubt ++ r.redo) with redo := gone ++ r.redo }
      let b := if j.st = 1 then b.modRunning ix fun r => { r with lost := false } else b
      if e.1 ≠ from' then b.changePath ix else b

/-- The drains that an engine ran pass to another (R326). Commands that the port controller holds stay outstanding; with an engine of the other
hub the path is changed, and the blocks are recovered (R327, R337). -/
def Body.spreadDrains (b : Body) (h : HubId) (n : Fin 16) : Body :=
  b.io.streams.foldl (fun b t =>
    if t.2.engine ≠ (h, n) then b
    else match b.pickEngine h with
      | (some e, b) =>
        let b := b.modStream t.1 fun t => { t with engine := e }
        if e.1 = h then b
        else b.drainPath t.1 (match b.drainPathOf t.1 (subchKey t.2.slice.val t.2.image.toNat) with | some i => 1#16 <<< i | none => 0)
      | (none, b) => b) b

/-- The engines of a hub's choice take over what an engine held: its transactions, its drains and the rings it read (R326). -/
def Body.spreadWork (b : Body) (h : HubId) (n : Fin 16) : Body :=
  let held := b.outstanding.filter fun e => e.2.engine = engineByte (h, n)
  let b := held.foldl (fun b x =>
    match b.pickEngine h with
    | (some e, b) => (b.takeOver x.1 e h).count 0x05 (chanLoc e.1 e.2).toNat Tilth.event
    | (none, b) => b) b
  let (e, b) := (b.spreadDrains h n).pickEngine h
  let b := b.modChan h n fun g => { g with takeover := e }
  b.modIo fun i => { i with chans := i.chans.map fun g => if g.takeover = some (h, n) then { g with takeover := e } else g }

/-- A channel engine is fenced: its DMA ends with the writes that it has made, which reach their homes, and it makes no more (R326). -/
def Body.fence (b : Body) (h : HubId) (n : Fin 16) : Body :=
  let ready (w : TagWrite) : Bool := w.eng = some (h, n) && !b.lineHeld (lineNo w.pa)
  let ws := b.io.writes.filter ready
  ws.foldl (fun b w => b.landWrite w) (b.modIo fun i => { i with writes := i.writes.filter fun w => !ready w })

/-- A channel engine leaves service (R280, R326, R429, R430). -/
def Body.dropChan (b : Body) (h : HubId) (n : Fin 16) (mark : Service) (code : BitVec 16) (data : BitVec 128) : Body :=
  let to' := leaveService mark (b.chan h n).returnedAt (b.tod h)
  let b := (b.fence h n).modChan h n fun g =>
    { g with service := to', bank := 0, stack := [], queue := [], addr := #v[0x0000, 0x0100, 0x0200, 0x0300], atCommit := true,
             halted := false, slipOld := false, rounds := 0, proving := to' != .outUntilProving }
  let b := b.report (chanLoc h n) code data
  let b := b.count 0x05 (chanLoc h n).toNat fun t => { t with lastTod := b.ctl.tod[h] }
  let b := if to' = .outUntilProving then (b.report (chanLoc h n) 0x0404).outChan h n else b
  b.spreadWork h n

/-- A channel engine check-stops (R280, R326, R522). -/
def Body.chanCheckstop (b : Body) (h : HubId) (n : Fin 16) : Body :=
  let held := (b.outstanding.filter fun e => e.2.engine = engineByte (h, n)).length
  let b := b.dropChan h n .checkStopped 0x0401 (dataOf [(4, held)])
  b.freezeSilt 1 (if b.isSplit then [h] else [0, 1])

/-- An internal error of an engine, or a fault at check level (R280). -/
def Body.chanInternal (b : Body) (h : HubId) (n : Fin 16) : Body :=
  if (b.chan h n).bank = 3 then b.chanCheckstop h n else b.modChan h n fun g => g.enter 3

/-- The bank of slip words from which an engine runs (R269, R273). -/
def Body.engineBankOf (b : Body) (g : ChanEng) : EngineBank := if b.ctl.engActive != g.slipOld then b.ctl.engSlip[1] else b.ctl.engSlip[0]

/-- What happens at a channel engine's sequencer (R279, R280). A halted engine executes no word. -/
def execEngineFault (h : HubId) (n : Fin 16) (k : EngineEvent) (s : State) : Out :=
  onBody (fun b =>
    if !b.serving || !b.chanUp h n then b
    else
      let g := b.chan h n
      match k with
      | .event => b.modChan h n fun g => { g with halted := false }.meet false
      | .bankReturn => b.modChan h n ChanEng.giveBack
      | .fault => if g.bank = 3 then b.chanCheckstop h n else b.modChan h n fun g => g.meet true
      | .ownFault => if g.bank = 3 then b.chanCheckstop h n else b.modChan h n ChanEng.ownFault
      | .internal => b.chanInternal h n
      | .word code =>
        if g.halted then b
        else match g.runWord (b.engineBankOf g) code fun c => Config.engineCond c b.freeCtr with
          | some g => (b.modChan h n fun _ => g).spend
          | none => b.chanInternal h n) s

end Sys2Proof.Machine
end

