-- ==== Sys2Proof/Machine/Netq.lean ====
section
/-!
DEFINITION. NETQ slices: work requests, completions, inbound RDMA, retries and congestion (R369 to R373, R413).
-/

namespace Sys2Proof.Machine

/-! ## Work requests (R371) -/

def wrOp (wr : List Byte) : Byte := wr.getD 0 0
def wrLen (wr : List Byte) : Nat := field wr 4 4
def wrAddr (wr : List Byte) : Nat := field wr 8 8

/-- The slice runs work requests: a BOUND NETQ slice while the module serves. -/
def Body.netqUp (b : Body) (s : SliceId) : Bool := b.serving && (b.slice s).kind = 4 && (b.slice s).st = .bound && !b.workHeld s (b.slice s).part

/-- A status moves an RC queue pair to ERROR, whose fetched work requests complete FLUSHED (R372, R413). -/
def Body.netqStatus (b : Body) (s : SliceId) (q : Nat) (st : Byte) : Body :=
  let p := b.qp s q
  if p.typ = 1 ∧ (st = 3 ∨ st = 4 ∨ st = 5 ∨ st = 7 ∨ st = 8) then
    (b.setQp s q { p with st := 2, err := st, sent := [], recvs := [] }).netqEnd s q (some (b.slice s).gen) 6 p.work
  else b

/-- A work request completes: its entry is given to the slice, and its status acts on the queue pair (R372). -/
def Body.netqComplete (b : Body) (s : SliceId) (q : Nat) (wr : List Byte) (st : Byte) (len imm : Nat) (src : BitVec 24) : Body :=
  (b.postRecord s { src := .netq, gen := some (b.slice s).gen, bytes := netqBytes wr q st len imm src }).netqStatus s q st

/-- A work request is read from the head of a queue; a failure stops that queue (R356). -/
def Body.fetchWr (b : Body) (s : SliceId) (q : Nat) (recv : Bool) : Option (List Byte) × Body :=
  let x := b.slice s
  let p := b.qp s q
  let head := if recv then p.rqhead else p.sqhead
  let tail := if recv then p.rqtail else p.sqtail
  let base := (if recv then p.rqbase else p.sqbase).toNat
  let log := (if recv then p.rqlog else p.sqlog).toNat
  if !b.netqUp s || p.st != 1 || head = tail || (if recv then p.rqstop else p.sqstop) then (none, b)
  else
    match b.engRead (b.ownerOf s x.gen (b.servingHub s x.part)) ((base + head.toNat % 2 ^ log * 64) % 2 ^ 64) 64 with
    | (b, .error e) =>
      (none, (b.setQp s q (if recv then { p with rqstop := true } else { p with sqstop := true })).modSlice s fun x =>
        { x with sq := x.sq.fail e.reason head })
    | (b, .ok wr) => (some wr, b)

/-- A fence holds a work request until the older reads of its queue pair have completed (R371). -/
def Qp.fenced (p : Qp) (wr : List Byte) : Bool := (wr.getD 1 0).getLsbD 0 && p.sent.any fun w => wrOp w.1 = 5

/-- The entry through which a queue pair sends and, for UD, that of the destination; none where one is not granted to the slice (R369,
R371). -/
def Body.sendEntry (b : Body) (s : SliceId) (p : Qp) (wr : List Byte) : Option (NetAddr × NetAddr) :=
  (b.grantedAddr s p.addrix.toNat).bind fun a =>
    if p.typ = 2 then (b.grantedAddr s (field wr 2 2)).map fun d => (a, d) else some (a, a)

/-- The message of a work request (R371). -/
def netMsg (p : Qp) (a d : NetAddr) (wr data : List Byte) : NetMsg :=
  { op := wrOp wr, port := a.port, ip := a.ip, rip := d.rip,
    dqpn := if p.typ = 2 then BitVec.ofNat 24 (field wr 40 4) else p.rqpn, raddr := BitVec.ofNat 64 (field wr 16 8),
    rkey := BitVec.ofNat 32 (field wr 24 4), imm := BitVec.ofNat 32 (field wr 28 4), len := wrLen wr, data := data }

/-- Is LEN above 2^31 or, for UD, above the MTU of the port (R371)? -/
def Body.lenBad (b : Body) (p : Qp) (port : PortId) (wr : List Byte) : Bool :=
  2 ^ 31 < wrLen wr || (p.typ = 2 && ((b.io.octets[octetOfPort port]).mtu).toNat < wrLen wr)

/-- Message bytes, rounded up to 256 (R362). -/
def wrCost (wr : List Byte) : Nat := (wrLen wr + 255) / 256 * 256

/-- The cost of the work request that a slice has ready for a port: that of queue pair `q` where it is given, else of the first that has one
(R342, R362). One that cannot be read yet costs nothing. -/
def Body.txReady (b : Body) (port : PortId) (s : SliceId) (q : Option Nat) : Option Nat :=
  let one (q : Nat) : Option Nat :=
    let p := b.qp s q
    if !b.netqUp s || p.st != 1 || p.sqhead = p.sqtail || p.sqstop || (b.grantedAddr s p.addrix.toNat).map (·.port) ≠ some port then none
    else match (b.fetchWr s q false).1 with
      | none => some 0
      | some wr => if 1 ≤ (wrOp wr).toNat ∧ (wrOp wr).toNat ≤ 5 ∧ !p.fenced wr then some (wrCost wr) else none
  match q with
  | some q => one q
  | none => (b.slice s).qps.findSome? fun e => one e.1

/-- Is the slice the one that the transmit pool of a port serves next, with queue pair `q` (R362)? Answers the pool when it is. -/
def Body.txTurn (b : Body) (port : PortId) (s : SliceId) (q : Nat) : Option PoolClock :=
  let mine (t : SliceId) : Option Nat := if t = s then some q else none
  let ready := (sliceIds b).filter fun t => (b.txReady port t (mine t)).isSome
  let pool := ((tGet b.io.txPools port.toNat).getD {}).join ready
  if b.poolNext pool (fun t => (b.txReady port t (mine t)).getD 0) ready = some s then some pool else none

/-- The pool of a port after a message has been started. -/
def Body.txServed (b : Body) (port : PortId) (pool : PoolClock) (s : SliceId) (cost : Nat) : Body :=
  let left := (sliceIds b).filter fun t => (b.txReady port t none).isSome
  b.modIo fun i => { i with txPools := tPut i.txPools port.toNat (b.poolServe pool s cost left) }

/-- A work request that may not be sent completes with a failing status; which one is not stated and is free (log entry 13). -/
def Body.refuseSend (b : Body) (s : SliceId) (q : Nat) (wr : List Byte) : Body :=
  let (st, b) := b.pick ([3, 4, 7, 8] : List Byte)
  b.netqComplete s q wr (st.getD 3) 0 0 0

/-- A fetched work request of the send queue becomes a message: through a granted entry, within the limits of LEN, with the local bytes
that it carries (R369, R371); a buffer that cannot be read ends it with PROTECTION. -/
def Body.sendWr (b : Body) (s : SliceId) (q : Nat) (wr : List Byte) : Body :=
  let x := b.slice s
  let p := b.qp s q
  match b.sendEntry s p wr with
  | none => b.refuseSend s q wr
  | some (a, d) =>
    if b.lenBad p a.port wr then b.refuseSend s q wr
    else
      let data : Eng (List Byte) := if wrOp wr = 5 then (b, .ok []) else b.engRead (b.ownerOf s x.gen (b.servingHub s x.part)) (wrAddr wr) (wrLen wr)
      match data with
      | (b, .error _) => b.netqComplete s q wr 3 0 0 0
      | (b, .ok v) => b.setQp s q { p with sent := p.sent ++ [(wr, netMsg p a d wr v)] }

/-- The engine fetches the next work request of a queue, when it has the given OP (R371): a full slice refuses it (R352, R372), a
fence holds it, and a send waits for its slice's turn at the port (R362). -/
def Body.startWr (b : Body) (s : SliceId) (q : Nat) (op : Byte) : Body :=
  let recv := op = 0x80
  match b.fetchWr s q recv with
  | (none, b') => if (b'.qp s q).sqstop ∨ (b'.qp s q).rqstop then b' else b
  | (some wr, b') =>
    let p := b'.qp s q
    if wrOp wr ≠ op ∨ (!recv ∧ p.fenced wr) then b
    else
      let x := b'.slice s
      let next (b : Body) : Body := b.setQp s q (if recv then { p with rqhead := p.rqhead + 1 } else { p with sqhead := p.sqhead + 1 })
      if x.limit.toNat ≤ b'.occ s then
        ((next b').modSlice s fun x => { x with qfull := sat32 x.qfull }).netqComplete s q wr 2 0 0 0
      else if recv then
        let b := next b'
        b.setQp s q { b.qp s q with recvs := p.recvs ++ [wr] }
      else match (b'.grantedAddr s p.addrix.toNat).map (·.port) with
        | none => (next b').refuseSend s q wr
        | some port =>
          match b'.txTurn port s q with
          | none => b
          | some pool => ((next b').sendWr s q wr).txServed port pool s (wrCost wr)

def execSend (sl : SliceId) (q : Byte) (s : State) : Out := onBody (fun b => b.startWr sl q.toNat 1) s
def execSendImm (sl : SliceId) (q : Byte) (s : State) : Out := onBody (fun b => b.startWr sl q.toNat 2) s
def execRdmaWrite (sl : SliceId) (q : Byte) (s : State) : Out := onBody (fun b => b.startWr sl q.toNat 3) s
def execRdmaWriteImm (sl : SliceId) (q : Byte) (s : State) : Out := onBody (fun b => b.startWr sl q.toNat 4) s
def execRdmaRead (sl : SliceId) (q : Byte) (s : State) : Out := onBody (fun b => b.startWr sl q.toNat 5) s
def execRecv (sl : SliceId) (q : Byte) (s : State) : Out := onBody (fun b => b.startWr sl q.toNat 0x80) s

/-! ## Completions (R372) -/

/-- Bytes of the network reach a work request's local buffer. -/
def Body.netqStore (b : Body) (s : SliceId) (wr data : List Byte) : Eng Unit :=
  let x := b.slice s
  if data.isEmpty then (b, .ok ()) else b.engWrite (b.ownerOf s x.gen (b.servingHub s x.part)) (wrAddr wr) data

/-- A message arrives for the oldest receive request (R371, R372). -/
def Body.received (b : Body) (s : SliceId) (q : Nat) (p : Qp) (wr : List Byte) (rest : List (List Byte)) (r : NetqResult) : Body :=
  let b := b.setQp s q { p with recvs := rest }
  let src : BitVec 24 := if p.typ = 2 then r.srcQp else 0
  if wrLen wr < r.data.length then b.netqComplete s q wr 7 0 0 src
  else match b.netqStore s wr r.data with
    | (b, .error _) => b.netqComplete s q wr 3 0 0 src
    | (b, .ok _) => b.netqComplete s q wr 0 r.data.length r.imm.toNat src

/-- The network answers the oldest send request (R372). The bytes that a failed request moved are not stated and are free. -/
def Body.answered (b : Body) (s : SliceId) (q : Nat) (p : Qp) (wr : List Byte) (rest : List (List Byte × NetMsg)) (r : NetqResult) :
    Body :=
  let b := b.setQp s q { p with sent := rest, retries := 0 }
  if r.status = 0 then
    match (if wrOp wr = 5 then b.netqStore s wr r.data else (b, .ok ())) with
    | (b, .error _) => b.netqComplete s q wr 3 0 0 0
    | (b, .ok _) => b.netqComplete s q wr 0 (wrLen wr) 0 0
  else (b.spend).netqComplete s q wr r.status (Config.freeNat b.freeCtr % (wrLen wr + 1)) 0 0

def execNetqCompletion (sl : SliceId) (q : Byte) (r : NetqResult) (s : State) : Out :=
  onBody (fun b =>
    let p := b.qp sl q.toNat
    if !b.netqUp sl || p.st != 1 then b
    else if r.recv then
      match p.recvs with
      | wr :: rest => b.received sl q.toNat p wr rest r
      | [] => b
    else match p.sent with
      | (wr, _) :: rest =>
        if r.status = 0 ∧ wrOp wr = 5 ∧ r.data.length ≠ wrLen wr then b
        else if r.status = 0 ∨ r.status = 4 ∨ r.status = 5 ∨ r.status = 8 then b.answered sl q.toNat p wr rest r
        else b
      | [] => b) s

/-- The retry timer of the oldest request expires: after seven retries it ends with RETRY_EXCEEDED (R413). -/
def execTransportRetryTimeout (sl : SliceId) (q : Byte) (s : State) : Out :=
  onBody (fun b =>
    let p := b.qp sl q.toNat
    if !b.netqUp sl || p.st != 1 || p.typ != 1 then b
    else match p.sent with
      | [] => b
      | (wr, _) :: rest =>
        if p.retries < 7 then b.setQp sl q.toNat { p with retries := p.retries + 1 }
        else (b.setQp sl q.toNat { p with sent := rest, retries := 0 }).netqComplete sl q.toNat wr 5 0 0 0) s

/-- A congestion notification lowers the sending rate of a queue pair; the rate itself is timing (R413). -/
def execCnpReceived (sl : SliceId) (q : Byte) (s : State) : Out :=
  onBody (fun b =>
    let p := b.qp sl q.toNat
    if b.netqUp sl && p.st = 1 then b.setQp sl q.toNat { p with slowed := p.slowed + 1 } else b) s

/-! ## Inbound RDMA (R373) -/

/-- The enabled region that an RKEY names, when it admits the access. -/
def Body.inboundOk (b : Body) (r : InboundRdma) : Bool :=
  let k := r.rkey.toNat
  let m := (tGet (b.slice r.slice).mrs (k / 8192 % 64)).getD {}
  k / 2 ^ 19 = r.slice.val && m.en && m.seq.toNat = k % 8192 && m.base.toNat ≤ r.addr.toNat &&
    r.addr.toNat + r.len ≤ m.base.toNat + m.len.toNat && (if r.write then m.rwrite else m.rread)

/-- An inbound operation is performed when its region and the translation accept it, and a read is answered with its bytes; any other receives
a remote-access NAK and writes nothing (R373). -/
def execInboundRdma (r : InboundRdma) (s : State) : Out :=
  onBody (fun b =>
    let answer (b : Body) (nak : Bool) (data : List Byte) : Body :=
      b.modIo fun i => { i with answer := some { slice := r.slice, nak := nak, data := data } }
    let x := b.slice r.slice
    if !b.serving || (r.write && r.data.length != r.len) || b.workHeld r.slice x.part then b
    else if !b.netqUp r.slice || !b.inboundOk r then answer b true []
    else
      let o := b.ownerOf r.slice x.gen (b.servingHub r.slice x.part)
      let did : Eng (List Byte) :=
        if r.write then
          match b.engWrite o r.addr.toNat r.data with
          | (b, .ok _) => (b, .ok [])
          | (b, .error e) => (b, .error e)
        else b.engRead o r.addr.toNat r.len
      match did with
      | (b, .ok v) => answer b false v
      | (b, .error _) => answer b true []) s

end Sys2Proof.Machine
end

