-- ==== Sys2Proof/Machine/Ports.lean ====
section
/-!
DEFINITION. Ports and far-memory members: training, loss, hold, received frames, and octet records (chapter 14, R436).
-/

namespace Sys2Proof.Machine

/-! ## Octet records (R403 to R405) -/

/-- Ports that a mode, rate and width create (R404). -/
def portCount (r : OctetRec) : Nat :=
  match r.mode.toNat with
  | 1 => match r.rate.toNat with
    | 1 => 1
    | 2 => 2
    | 3 => 4
    | _ => 8
  | 2 | 3 => if r.width = 0 then 1 else 2
  | 4 => 8
  | _ => 0

def portId (o : OctetId) (p : Nat) : PortId := BitVec.ofNat 8 (o.val * 8 + p)
def octetPorts (o : OctetId) (r : OctetRec) : List PortId := (List.range (portCount r)).map (portId o)

/-- Does a PORT byte name a port of the octet records in force (R283, R404)? -/
def Body.portExists (b : Body) (p : PortId) : Bool :=
  p.toNat < 96 && p.toNat % 8 < portCount (b.io.octets[octetOfPort p])

def Body.octetRec (b : Body) (p : PortId) : OctetRec := b.io.octets[octetOfPort p]

def Body.modPort (b : Body) (p : PortId) (f : Port → Port) : Body :=
  b.modIo fun i => { i with ports := tPut i.ports p.toNat (f ((tGet i.ports p.toNat).getD {})) }

/-- The half's time of a port. -/
def Body.portNow (b : Body) (p : PortId) : Nat := b.tod (portHalf p)

def Body.stampPort (b : Body) (p : PortId) : Body :=
  b.count 0x07 (portLoc p).toNat fun t => { t with lastTod := b.ctl.tod[portHalf p] }

/-- LINK_DOWN (R521). -/
def Body.linkDown (b : Body) (p : PortId) (cause : Byte) (hold : Bool) : Body :=
  let r := b.octetRec p
  (b.report (portLoc p) 0x0501 (dataOf [(1, r.mode.toNat), (1, r.rate.toNat), (1, cause.toNat), (1, bit hold 0)])).stampPort p

/-- A port is held idle, or its domain is switched off (R407). -/
def Body.stopPort (b : Body) (p : PortId) (off : Bool) : Body :=
  let s := (b.port p).st
  let b := if s = .up then b.linkDown p (if off then 6 else 5) false else b
  b.modPort p fun x => if s = .off && !off then x else { st := if off then .off else .idle, gen := 0, width := 0 }

/-- A port is released (R407). -/
def Body.releasePort (b : Body) (p : PortId) : Body :=
  let now := b.portNow p
  b.modPort p fun x => if x.st = .idle then { st := .training, since := now } else x

/-- Puts an octet record in force (R406): its ports are held idle, its domain follows MODE, and its ports are released when the
module serves. -/
def Body.applyOctet (b : Body) (o : OctetId) (r : OctetRec) : Body :=
  let b := (octetPorts o (b.io.octets[o])).foldl (fun b p => b.stopPort p false) b
  let b := b.modIo fun i => { i with octets := i.octets.set o r, ports := i.ports.filter fun e => e.1 / 8 != o.val }
  let on := r.mode != 0 && !(vget b.ctl.domains (216 + o.val) {}).out
  let b := b.switch (216 + o.val) on
  let b := (octetPorts o r).foldl (fun b p => b.modPort p fun _ => { st := if on then .idle else .off }) b
  if b.serving && on then (octetPorts o r).foldl (fun b p => b.releasePort p) b else b

/-! ## Far-memory members (R416, R436) -/

def farLoc (r : FarRange) : BitVec 16 := portLoc r.portA

def Body.modRange (b : Body) (base : Nat) (f : FarRange → FarRange) : Body :=
  b.modMem fun m => { m with ranges := m.ranges.map fun r => if r.base = base then f r else r }

def FarRange.port (r : FarRange) (m : Fin 2) : PortId := if m = 0 then r.portA else r.portB

/-- A member of a range is lost: the range runs on the other one; when that one is lost or holds no full copy, its lines are lost
(R436, R437, R445). -/
def Body.loseMember (b : Body) (r : FarRange) (m : Fin 2) : Body :=
  let next : Option FarRange :=
    if r.fstate = 0 then some { r with fstate := 1, lost := some m }
    else if r.fstate = 2 ∧ r.lost = some m then some { r with fstate := 1 }
    else if (r.fstate = 1 ∨ r.fstate = 2) ∧ r.lost ≠ some m then some { r with fstate := 3 }
    else none
  match next with
  | none => b
  | some r' =>
    let b := b.modRange r.base fun _ => r'
    let b := b.report (portLoc (r.port m)) 0x0303 (dataOf [(4, r.base)])
    (b.count 0x0A (farLoc r).toNat fun t => { t with events := sat32 t.events, lastTod := b.ctl.tod[portHalf r.portA] }).settleMode

/-- The port of a lost member is UP again: the copy to it starts (R436). -/
def Body.memberUp (b : Body) (p : PortId) : Body :=
  b.mem.ranges.foldl (fun b r =>
    match r.lost with
    | some m => if r.fstate = 1 ∧ r.port m = p then b.modRange r.base fun r => { r with fstate := 2 } else b
    | none => b) b

def execFarMemberLost (base : BitVec 32) (member : Fin 2) (s : State) : Out :=
  onBody (fun b =>
    match b.mem.ranges.find? (·.base = base.toNat) with
    | some r => if b.serving then b.loseMember r member else b
    | none => b) s

/-- The copy to a returned member ends (R436). -/
def execFarCopyDone (base : BitVec 32) (s : State) : Out :=
  onBody (fun b =>
    match b.mem.ranges.find? (·.base = base.toNat) with
    | some r =>
      if b.serving && r.fstate = 2 then
        let b := b.modRange r.base fun r => { r with fstate := 0, lost := none }
        (b.report (portLoc (r.port (r.lost.getD 0))) 0x0304 (dataOf [(4, r.base)])).settleMode
      else b
    | none => b) s

/-! ## Training and loss (R407 to R410) -/

def isPcie (r : OctetRec) : Bool := r.mode = 2 || r.mode = 3

def execReceiverDetected (p : PortId) (s : State) : Out :=
  onBody (fun b =>
    if b.portExists p && isPcie (b.octetRec p) && (b.port p).st = .training then
      let now := b.portNow p
      b.modPort p fun x => { x with receiver := true, met := true, since := now }
    else b) s

/-- Training succeeds (R407). GEN and WIDTH are those of PCIe and CXL (R409). -/
def execLinkUp (p : PortId) (gen width : Byte) (s : State) : Out :=
  onBody (fun b =>
    let r := b.octetRec p
    if !b.portExists p || (b.port p).st != .training then b
    else
      let g := if isPcie r then gen else 0
      let w := if isPcie r then width else 0
      let b := b.modPort p fun x => { x with st := .up, met := true, gen := g, width := w }
      let b := (b.report (portLoc p) 0x0502 (dataOf [(1, r.mode.toNat), (1, r.rate.toNat), (1, g.toNat), (1, w.toNat)])).stampPort p
      b.memberUp p) s

/-- Training bound of a mode, in nanoseconds (R409). -/
def trainingBound (r : OctetRec) : Nat :=
  match r.mode.toNat with
  | 1 => 500000000
  | 2 => 100000000
  | 3 => 200000000
  | _ => 2000000000

/-- The first training failure after a release is reported as a path failure and as LINK_DOWN with CAUSE 7 (R410). -/
def Body.firstFailure (b : Body) (p : PortId) : Body :=
  if (b.port p).reported then b
  else ((b.modPort p fun x => { x with reported := true }).linkDown p 7 false).pathFailure p none

/-- A port's training bound passes. A PCIe or CXL port that has no receiver has no bound: it meets only the report, when it has detected
none since its release (R409, R410). -/
def execTrainingTimeout (p : PortId) (s : State) : Out :=
  onBody (fun b =>
    let r := b.octetRec p
    let x := b.port p
    if !b.portExists p || x.st != .training then b
    else if isPcie r && !x.receiver then
      if x.reported || x.met then b else (b.reach (portHalf p) (x.since + 100000000)).firstFailure p
    else
      let b := b.reach (portHalf p) (x.since + trainingBound r)
      let b := b.count 0x07 (portLoc p).toNat fun t => { t with spec2 := sat32 t.spec2 }
      let now := b.portNow p
      (b.modPort p fun x => { x with since := now, receiver := false }).firstFailure p) s

/-- A link loss: TRAINING, or HOLD at the eighth within 60 s; a path failure, and the loss of a far-memory member (R407, R410, R436). -/
def execLinkLoss (p : PortId) (cause : Byte) (s : State) : Out :=
  onBody (fun b =>
    let x := b.port p
    if !b.portExists p || x.st != .up || !(1 ≤ cause.toNat && cause.toNat ≤ 4) then b
    else
      let now := b.portNow p
      let losses := (x.losses ++ [now]).filter fun t => now ≤ t + 60000000000
      let hold := 8 ≤ losses.length
      let b := b.modPort p fun x =>
        { x with st := if hold then .hold else .training, losses := losses, since := now, receiver := false, gen := 0, width := 0 }
      let b := (b.linkDown p cause hold).count 0x07 (portLoc p).toNat Tilth.event
      let b := b.pathFailure p none
      b.mem.ranges.foldl (fun b r =>
        if r.portA = p then b.loseMember r 0 else if r.portB = p then b.loseMember r 1 else b) b) s

def execHoldExpiry (p : PortId) (s : State) : Out :=
  onBody (fun b =>
    let x := b.port p
    if !b.portExists p || x.st != .hold then b
    else
      let b := b.reach (portHalf p) (x.since + 10000000000)
      let now := b.portNow p
      b.modPort p fun x => { x with st := .training, losses := [], since := now }) s

/-- A received frame, TLP or flit. One that meets a full FIFO is discarded whole and counted, on every kind of port (R41). On an Ethernet
port RoCEv2, TCP and neighbour traffic is handled by the units that own it, and every other frame is discarded and counted (R412). -/
def execFrameReceived (p : PortId) (f : FrameKind) (s : State) : Out :=
  onBody (fun b =>
    let discard := b.count 0x07 (portLoc p).toNat fun t => { t with spec1 := sat32 t.spec1 }
    if b.portExists p && (b.port p).st = .up then
      match f with
      | .roce | .tcp | .neighbour => b
      | .fifoFull => discard
      | .other => if (b.octetRec p).mode = 1 then discard else b
    else b) s

end Sys2Proof.Machine
end

