-- ==== Sys2Proof/Machine/Modes.lean ====
section
/-!
DEFINITION. Operating modes: supplies and islands, STANDBY and start attempts, PROVING with its coverage decision and the start
of the first strand, and FALLOW (chapter 17, R22, R45, R440 to R442, R448, R519, R525, R532, R533).
-/

namespace Sys2Proof.Machine

/-- CS.TOD of the steering island's half. -/
def Body.now (b : Body) : Nat := b.tod b.ctl.steering

def Body.anyFeed (b : Body) : Bool := (b.ctl.feeds[(0 : FeedId)]).present || (b.ctl.feeds[(1 : FeedId)]).present

/-- Are the steward planes powered (R23)? -/
def Body.stewardsUp (b : Body) : Bool :=
  ([0, 1] : List FeedId).any fun f => (b.ctl.feeds[f]).present && (b.ctl.feeds[f]).closed

def Body.modFeed (b : Body) (f : FeedId) (g : Feed → Feed) : Body :=
  b.modCtl fun c => { c with feeds := c.feeds.set f (g (c.feeds[f])) }
def Body.modIsland (b : Body) (h : HubId) (g : Island → Island) : Body :=
  b.modCtl fun c => { c with islands := c.islands.set h (g (c.islands[h])) }

/-! ## Rails (R33 to R35) -/

/-- Domains that meet a clocked island (R35). -/
def clockedDomain (d : Nat) : Bool := (184 ≤ d && d ≤ 191) || (216 ≤ d && d ≤ 229)

/-- A setpoint within the owner's limits and above the bound of a clocked island (R34, R35). -/
def clampRail (cfg : FlashCfg) (d mv : Nat) : BitVec 16 :=
  let v := max (vget cfg.floor d 650).toNat (min (vget cfg.ceil d 950).toNat mv)
  BitVec.ofNat 16 (if clockedDomain d then max 800 v else v)

/-- Every domain of a list takes its setpoint. -/
def Body.setRails (b : Body) (ds : List Nat) (mv : Nat → BitVec 16) : Body := ds.foldl (fun b d => b.setRail d (mv d)) b

/-- PROVING has ended: every domain takes 0.80 V clamped to its limits (R33). -/
def Body.leaveProving (b : Body) (cfg : FlashCfg) : Body := b.setRails (List.range 232) fun d => clampRail cfg d 800

/-- A change that may end PROVING. -/
def Body.leave (b : Body) (cfg : FlashCfg) (f : Body → Body) : Body :=
  let b' := f b
  if b.ctl.mode = .proving ∧ b'.ctl.mode ≠ .proving then b'.leaveProving cfg else b'

/-- A command that changes the body alone and may end PROVING. -/
def onProving (f : Body → Body) (s : State) : Out := onBody (fun b => b.leave s.cfg f) s

/-! ## The silt log's thaw (R525) -/

/-- The logs of some islands thaw: the post-freeze buffer joins the ring, SILT_THAWED is recorded, LOST is 0 again. -/
def Body.thawNow (b : Body) (cause : Byte) (hs : List HubId) : Body :=
  hs.foldl (fun b h =>
    let g := b.ctl.silt[h]
    if g.frozen.isNone then b
    else
      let g' := g.post.foldl Silt.pushRing { g with frozen := none, post := [], lost := 0, thaw := none }
      b.modCtl fun c => { c with silt := c.silt.set h g' }) b |> fun b' =>
  match hs.find? fun h => (b.ctl.silt[h]).frozen.isSome with
  | none => b'
  | some h =>
    let g := b.ctl.silt[h]
    b'.report (if b.isSplit then islandLoc h else b.moduleLoc) 0x0108
      (dataOf [(1, cause.toNat), (3, 0), (4, g.post.length), (4, g.lost.toNat)])

/-- Thaws, once a retained log that is being written is in flash (R525). -/
def Body.thawSilt (b : Body) (cause : Byte) (hs : List HubId) : Body :=
  let wait := hs.filter fun h => (b.ctl.silt[h]).writing.isSome && (b.ctl.silt[h]).frozen.isSome
  let b := wait.foldl (fun b h =>
    b.modCtl fun c => { c with silt := c.silt.set h { c.silt[h] with thaw := some cause } }) b
  if wait.isEmpty then b.thawNow cause hs else b

/-! ## Loss of the main feeds' side, and STANDBY (R448, R472, R473, R478, R500) -/

/-- Everything that the main feeds hold is lost, and every domain but the islands is off (R448, R472, R478). -/
def Body.cutPower (b : Body) : Body :=
  { strands := Vector.replicate 576 {}
    cores := Vector.replicate 144 {}
    clusters := Vector.replicate 36 {}
    dies := Vector.replicate 4 {}
    mem := {}
    io := { txnCount := b.io.txnCount, txnMark := b.io.txnMark }
    ctl := { b.ctl with
      domains := Vector.ofFn fun d => let x := b.ctl.domains[d]
                                      if d.val < 230 then { x with on := false, changed := x.changed || x.on } else x }
    freeCtr := b.freeCtr }

/-- Tickets that run. -/
def Body.runningTickets (b : Body) : List Ticket := b.ctl.tickets.filter (·.result.isNone)

/-- A switch that has been ordered completes (R273). -/
def Body.endSwitch (b : Body) : Body :=
  match b.ctl.switching with
  | none => b
  | some w =>
    let b := b.finishTicket w.ticket stDone 0 []
    let b := b.mapStrands fun _ s => { s with oldSlip := false }
    let b := b.modIo fun i => { i with chans := i.chans.map fun g => { g with slipOld := false } }
    b.modCtl fun c => { c with switching := none }

/-- The tickets that run when a mode is entered end with NOT_IN_THIS_MODE (R500). -/
def Body.endTickets (b : Body) : Body := b.runningTickets.foldl (fun b t => b.ticketWrongMode t.num) b

/-- Entry to STANDBY. `hold` is the off-hold (R473). -/
def Body.enterStandby (b : Body) (hold : Bool) : Body :=
  let b := b.setMode .standby
  let b := b.endSwitch.endTickets.cutPower
  let now := b.now
  b.modCtl fun c => { c with
    halves := Vector.replicate 2 {}
    rejoin := none
    reason := 0
    reasonLoc := 0
    step := 0
    startTickets := []
    feeds := c.feeds.map fun f => { f with closed := false, admitted := false, flagged := 0 }
    offHold := hold
    standbySince := now
    attempt := false
    attemptAt := none
    cores := Vector.replicate 144 {} }

/-- A feed is declared lost (R440, R442). `cause` and `flagged` are those of FEED_LOST. Loss of the last admitted feed is the loss of
both (R448); in PROVING it is left to the coverage decision (R476). -/
def Body.loseFeed (b : Body) (f : FeedId) (cause : Byte) (flagged : Nat) : Body :=
  if !(b.ctl.feeds[f]).admitted then b
  else
    let b := b.modFeed f fun x => { x with admitted := false }
    let b := b.report b.moduleLoc 0x0102 (dataOf [(1, f.val), (1, cause.toNat), (2, flagged)])
    let b := b.freezeSilt 2
    if ([0, 1] : List FeedId).any fun g => (b.ctl.feeds[g]).admitted then b.settleMode
    else if b.ctl.mode = .proving then b
    else b.enterStandby false

/-- Both main feeds are taken to be absent (R448, R488): recorded, the silt log freezes, and the module enters STANDBY. -/
def Body.loseBothFeeds (b : Body) : Body :=
  let flags := (b.ctl.feeds[(0 : FeedId)]).flagged + (b.ctl.feeds[(1 : FeedId)]).flagged
  let b := b.report b.moduleLoc 0x0102 (dataOf [(1, 2), (1, 3), (2, flags)])
  (b.freezeSilt 2).enterStandby false

/-! ## Islands and their supplies (R22, R45, R472, R519, R520, R532, R533, R548) -/

/-- Does an island have a source: its PoE-derived supply, or a main feed at the lands (R45)? -/
def Body.sourced (b : Body) (h : HubId) : Bool := (b.ctl.islands[h]).supply || b.anyFeed

def Body.islandUp (b : Body) (h : HubId) : Bool := (b.ctl.islands[h]).powered && !(b.ctl.islands[h]).failed

/-- Closes the connections of a port: their sessions and the stagings that they opened end (R491, R507). -/
def Body.closeConns (b : Body) (p : Nat → Conn → Bool) : Body :=
  let gone := (b.ctl.conns.filter fun e => p e.1 e.2).map (·.1)
  b.modCtl fun c => { c with
    conns := c.conns.filter fun e => !p e.1 e.2
    staging := c.staging.filter fun e => !gone.contains e.2.conn
    outbox := c.outbox ++ gone.map fun n => (n, []) }

/-- An island goes off: its log and its connections are gone. When it steered, the other one steers (R472). -/
def Body.islandOff (b : Body) (h : HubId) : Body :=
  let b := (b.closeConns fun _ c => c.port = h).modIsland h fun i => { i with powered := false }
  let b := b.switch (230 + h.val) false
  let b := b.modCtl fun c => { c with silt := c.silt.set h { count := (c.silt[h]).count } }
  if b.ctl.steering = h ∧ b.islandUp (otherHub h) then b.modCtl fun c => { c with steering := otherHub h } else b

/-- What the module loses when both islands are off: all that their memories held (R472, R473, R520). What GET_PACE returns until the
first complete window after the next dark start is not stated: the model keeps the records of before (log entry 18). -/
def Body.goDark (b : Body) : Body :=
  b.modCtl fun c => { c with
    tickets := []
    conns := []
    staging := []
    outbox := []
    genWait := []
    lastProve := 0
    offHold := false
    attempt := false
    attemptAt := none
    port := {} }

/-- An island comes on beside one that runs, and shadows it (R22, R519, R532). -/
def Body.joinIsland (b : Body) (h : HubId) : Body :=
  let o := otherHub h
  let b := (b.modIsland h fun i => { i with powered := true }).switch (230 + h.val) true
  b.modCtl fun c => { c with silt := c.silt.set h (c.silt[o]), tod := c.tod.set h (c.tod[o]) }

/-- The islands follow their supplies. With both off the module is dark until a DARK_START. -/
def Body.resupply (b : Body) : Body :=
  let b := ([0, 1] : List HubId).foldl (fun b h =>
    if (b.ctl.islands[h]).powered && !b.sourced h then b.islandOff h else b) b
  if !(b.ctl.islands[(0 : HubId)]).powered && !(b.ctl.islands[(1 : HubId)]).powered then b.goDark
  else ([0, 1] : List HubId).foldl (fun b h =>
    if !(b.ctl.islands[h]).powered && b.sourced h && b.islandUp (otherHub h) then b.joinIsland h else b) b

/-- An island supply appears or disappears (R45, R472, R542). -/
def execIslandSupplyChange (h : HubId) (present : Bool) (s : State) : Out :=
  onBody (fun b => (b.modIsland h fun i => { i with supply := present }).resupply) s

/-- A main feed is applied or removed. When none is left, what the main feeds hold is lost; an island that still runs finds the
stewards silent for 100 ms and enters STANDBY (R448, R488, R540). -/
def execFeedApplied (f : FeedId) (present : Bool) (s : State) : Out :=
  onProving (fun b =>
    let b := b.modFeed f fun x => { x with present := present }
    let b := if b.anyFeed || b.ctl.mode = .standby then b
      else if ([0, 1] : List HubId).any fun h => (b.ctl.islands[h]).supply then
        (b.reach b.ctl.steering (b.now + 100000000)).loseBothFeeds
      else b.enterStandby false
    b.resupply) s

/-- An island boots from dark and enters STANDBY (R472, R473, R519, R520, R533, R548). By how much its counts pass the marks in flash
is free (R501). With the other island running it comes on as its shadow. -/
def execDarkStart (h : HubId) (straps : BitVec 3) (s : State) : Out :=
  onBody (fun b =>
    if (b.ctl.islands[h]).powered || (b.ctl.islands[h]).failed || !b.sourced h then b
    else if b.islandUp (otherHub h) then b.joinIsland h
    else
      let tod := b.ctl.savedTod + 61000000000
      let skip := Config.freeNat b.freeCtr
      let b := (b.spend.modIsland h fun i => { i with powered := true }).switch (230 + h.val) true
      let b := b.modCtl fun c => { c with
        steering := h
        tod := Vector.replicate 2 tod
        lastSave := tod
        slot := straps
        offHold := false
        standbySince := tod.toNat
        attemptAt := none
        islands := c.islands.map fun i => { i with tickets := i.tickets + skip }
        silt := c.silt.map fun g => { count := g.count + skip } }
      b.report (islandLoc h) 0x0104 (dataOf [(8, tod.toNat), (8, b.ctl.savedTod.toNat)])) s

/-! ## FALLOW (R482, R483) -/

/-- Performs what a strand's store buffer holds: each store as soon as its home has handled the requests before it (R197, R426). -/
def Body.drainStrand (b : Body) (t : StrandId) : Nat → Body
  | 0 => b
  | n + 1 =>
    match (b.strand t).sb with
    | [] => b
    | e :: _ =>
      let b' := b.drainOne t
      let b'' := if (b'.strand t).sb.length < (b.strand t).sb.length then b'
        else
          let b' := b'.mem.departing.foldl (fun b d => b.acceptBack d) b'
          let mine := b'.mem.reqs.filter fun r => r.cluster = clusterOfStrand t && r.line = lineNo e.pa
          mine.foldl (fun b r => if r.write then b.handleWrite r else b.dropReq r) b'
      Body.drainStrand b'' t n

/-- Every strand of a list is frozen at its checkpoint, its agreed stores in the caches (R426, step 1). -/
def Body.freezeStrands (b : Body) (ts : List StrandId) : Body :=
  (ts.filter fun t => (b.strand t).run = .running).foldl (fun b t =>
    (b.drainStrand t 256).modStrand t fun s => { (if s.inSpan then s else s.abandon).endResv with run := .frozen }) b

/-- Every L2 and L3 writes back to memory, and the L2s go off (R482, step 5). -/
def Body.flushCaches (b : Body) : Body :=
  let b := b.mem.departing.foldl (fun b d => b.acceptBack d) b
  let b := allClusters.foldl (fun b c =>
    (b.cluster c).l2.foldl (fun b e =>
      if e.2.st = .m then (b.homeAccept e.2.line e.2.data e.2.slot true 0xFFFF 0 false).1 else b) b) b
  let b := (List.finRange 4).foldl (fun b (d : CDieId) =>
    let b := (b.die d).l3.foldl (fun b e => if e.2.dirty then b.memWrite e.2.line e.2.slot e.2.data else b) b
    b.modDie d fun x => { x with l3 := x.l3.map fun e => (e.1, { e.2 with dirty := false }) }) b
  let b := b.mem.departing.foldl (fun b d => b.acceptBack d) b
  { b with
    clusters := Vector.replicate 36 {}
    cores := Vector.replicate 144 {}
    mem := { b.mem with dir := [], reqs := [] } }

/-- Every port of the module. -/
def Body.allPorts (b : Body) : List PortId := (List.finRange 12).flatMap fun o => octetPorts o (b.io.octets[o])

/-- Entry to FALLOW (R482, R500). The location code is 0xFFFF for reasons 8 to 10. -/
def Body.enterFallow (b : Body) (reason : Byte) (loc : BitVec 16) : Body :=
  let b := (b.freezeSilt 4).freezeStrands allStrands
  let b := b.allPorts.foldl (fun b p => b.stopPort p false) b
  let b := b.flushCaches
  let b := { b with strands := Vector.replicate 576 {} }
  let b := ((List.range 180) ++ (List.range 24).map (· + 192)).foldl (fun (b : Body) d => b.switch d false) b
  let b := b.setMode .fallow reason loc
  let b := b.ctl.startTickets.foldl (fun (b : Body) t => b.ticketFault t loc) b
  let b := (b.runningTickets.filter (·.opcode = 0x0203)).foldl (fun b t => b.finishTicket t.num stDone 0 []) b
  let b := b.endSwitch.endTickets
  b.modCtl fun c => { c with reason := reason, reasonLoc := loc, step := 0, startTickets := [] }

/-! ## Start attempts (R473) -/

/-- The steering island closes both feed switches. They have been open for at least 1 s since STANDBY was entered. -/
def Body.startAttempt (b : Body) : Body :=
  if b.ctl.attempt then b
  else
    let b := b.reach b.ctl.steering (b.ctl.standbySince + 1000000000)
    let now := b.now
    b.modCtl fun c => { c with
      feeds := c.feeds.map fun f => { f with closed := true }
      attempt := true
      attemptAt := some now }

/-- A start attempt by AUTOSTART: 1 s after the entry to STANDBY, then every 10 s. -/
def execStartAttempt (s : State) : Out :=
  onBody (fun b =>
    if b.ctl.mode = .standby && b.islandUp b.ctl.steering && s.cfg.autostart && !b.ctl.offHold && !b.ctl.attempt then
      let b := match b.ctl.attemptAt with
        | some t => b.reach b.ctl.steering (t + 10000000000)
        | none => b
      b.startAttempt
    else b) s

/-- No die steward has reported within 3 s: the switches open again and the attempt has failed. -/
def execStartAttemptTimeout (s : State) : Out :=
  onBody (fun b =>
    if b.ctl.mode = .standby && b.ctl.attempt then
      let b := b.reach b.ctl.steering (b.ctl.attemptAt.getD 0 + 3000000000)
      let b := b.ctl.startTickets.foldl (fun b t => b.ticketFault t b.moduleLoc) b
      b.modCtl fun c => { c with
        feeds := c.feeds.map fun f => { f with closed := false }
        attempt := false
        startTickets := [] }
    else b) s

/-! ## PROVING (R474 to R481) -/

/-- Entry to PROVING, with the octet records that it works with (R22, R33, R406, R474, R478, R525). -/
def Body.enterProving (b : Body) (octets : Vector OctetRec 12) : Body :=
  let b := if b.ctl.mode = .standby then
      b.modCtl fun c => { c with steering := if b.islandUp 0 then 0 else 1 }
    else b
  let b := b.cutPower
  let now := b.now
  let b := b.modCtl fun c => { c with
    reason := 0
    reasonLoc := 0
    step := 1
    provingSince := now
    attempt := false
    feeds := c.feeds.map fun f => { f with closed := true, admitted := f.present, flagged := 0 }
    cores := Vector.replicate 144 {}
    lostClusters := []
    lostDies := []
    lostHubs := []
    hubCopies := []
    bundles := Vector.replicate 2 true
    failedLinks := []
    failedWires := []
    badCores := []
    badOctets := []
    farJudged := []
    farUp := []
    domains := Vector.ofFn fun d =>
      let x := c.domains[d]
      if d.val < 230 then
        { on := !(216 ≤ d.val && d.val ≤ 227 && (vget octets (d.val - 216) {}).mode = 0), rail := 800, changed := true,
          moveAt := b.tod (domainHalf d.val), out := false }
      else x }
  let b := (b.setRails [230, 231] fun _ => 800).modIo fun i => { i with octets := octets }
  (b.thawSilt 2 [0, 1]).setMode .proving

/-- A good core's place: the 64 lowest-numbered good cores of a half are assignable, the others are spares (R476). -/
def Body.assignCores (b : Body) : Body :=
  let good (h : HubId) : List CoreId := allCores.filter fun c => halfOfCore c = h && !b.ctl.badCores.contains c
  let first := (good 0).take 64 ++ (good 1).take 64
  let rest := (good 0).drop 64 ++ (good 1).drop 64
  b.modCtl fun c => { c with cores := Vector.ofFn fun k =>
                             { c.cores[k] with role := if first.contains k then .assignable else if rest.contains k then .spare else .out } }

/-- The first row of R476 that leads to FALLOW, with its reason and the unit that caused it. For MEMORY_COVERAGE the model names the
second failed stack of the half by its controller's code (R9, log entry 15). -/
def Body.fallowRow (b : Body) : Option (Byte × BitVec 16) :=
  let bad (h : HubId) : List CoreId := b.ctl.badCores.filter fun c => halfOfCore c = h
  let failed' (h : HubId) : List StackId := (List.finRange 8).filter fun (m : StackId) => m.val / 4 = h.val && (b.mem.hbm[m]).failed
  let noChan (h : HubId) : Bool := (List.finRange 16).all fun n => (b.chan h n).service = .outUntilProving
  let core := ([0, 1] : List HubId).findSome? fun h => (bad h)[8]?
  let mem := ([0, 1] : List HubId).findSome? fun h => (failed' h)[1]?
  match core with
  | some c => some (1, coreLoc c)
  | none =>
    match mem with
    | some m => some (2, controllerLoc m)
    | none =>
      match b.ctl.lostDies with
      | d :: _ => some (6, dieLoc d 0x1F)
      | [] =>
        match b.ctl.lostHubs with
        | h :: _ => some (5, hubLoc h 0xFF)
        | [] =>
          if noChan 0 then some (7, chanLoc 0 0)
          else if noChan 1 then some (7, chanLoc 1 0)
          else if !b.ctl.bundles[(0 : BundleId)] && !b.ctl.bundles[(1 : BundleId)] then some (3, hubLoc b.ctl.steering 0x34)
          else if !(b.ctl.feeds[(0 : FeedId)]).admitted && !(b.ctl.feeds[(1 : FeedId)]).admitted then some (4, b.moduleLoc)
          else none

/-- The coverage decision (R476, R477): FALLOW, or the assignment of the cores. -/
def Body.coverage (b : Body) : Body :=
  match b.fallowRow with
  | some (reason, loc) => b.enterFallow reason loc
  | none => b.assignCores

/-- A loss that PROVING meets after step 7 is decided at once (R477). -/
def Body.coverLate (b : Body) : Body := if b.ctl.mode = .proving ∧ 7 < b.ctl.step then b.coverage else b

/-- PROVING_FINDING (R521). -/
def Body.finding (b : Body) (loc : BitVec 16) (step : Nat) (test : BitVec 16) (fail : Bool := true) : Body :=
  b.report loc 0x0109 (dataOf [(1, step), (1, bit fail 0), (2, test.toNat)])

/-- A core that is not good. -/
def Body.badCore (b : Body) (c : CoreId) : Body :=
  let b := b.switchOut c.val
  if b.ctl.badCores.contains c then b else b.modCtl fun k => { k with badCores := k.badCores ++ [c] }

/-- The findings of a step (R474 to R476). The spec gives a finding of a stack, or of the controller that drives it, no location: the model
takes the controller's (R9, log entry 15). An engine that a hub does not have fails nothing (R11). -/
def Body.findings (b : Body) (f : Findings) (step : Nat) : Body :=
  let b := f.cores.foldl (fun b c => (b.badCore c).finding (coreLoc c) step f.test) b
  let b := f.clusters.foldl (fun b c =>
    ((coresOf c).foldl (fun b k => b.badCore k) (b.switchOut (144 + c.val))).finding (clusterLoc c 0x18) step f.test) b
  let b := f.hbm.foldl (fun b m =>
    (b.modMem fun x => { x with hbm := x.hbm.set m { x.hbm[m] with failed := true } }).finding (controllerLoc m) step f.test) b
  let b := f.dies.foldl (fun b d =>
    if h : d.val < 4 then (b.modCtl fun c => { c with lostDies := c.lostDies ++ [⟨d.val, h⟩] }).finding (dieLoc ⟨d.val, h⟩ 0x1F) step f.test
    else
      let u : HubId := if d.val = 4 then 0 else 1
      (b.modCtl fun c => { c with lostHubs := c.lostHubs ++ [u] }).finding (hubLoc u 0xFF) step f.test) b
  let b := f.chans.foldl (fun b x => (b.outChan x.1 x.2).finding (chanLoc x.1 x.2) step f.test) b
  let b := (f.engines.filter engExists).foldl (fun b e => (b.outEng e).finding (engLoc e) step f.test) b
  let b := f.bundles.foldl (fun b n =>
    (b.modCtl fun c => { c with bundles := c.bundles.set n false }).finding (hubLoc b.ctl.steering (0x34 + n.val)) step f.test) b
  let b := f.islands.foldl (fun b h =>
    let b := b.modIsland h fun i => { i with failed := true }
    let b := if b.ctl.steering = h ∧ b.islandUp (otherHub h) then b.modCtl fun c => { c with steering := otherHub h } else b
    b.finding (islandLoc h) step f.test) b
  let b := f.mgmtPorts.foldl (fun b h => (b.modIsland h fun i => { i with portFailed := true }).finding (hubLoc h 0x33) step f.test) b
  let b := f.octets.foldl (fun b o =>
    ((b.switchOut (216 + o.val)).modCtl fun c => { c with badOctets := c.badOctets ++ [o] }).finding (octetLoc o)
      (if step = 4 then 5 else step) f.test) b
  let b := f.links.foldl (fun b c =>
    (b.modCtl fun k => { k with failedLinks := k.failedLinks ++ [c] }).finding (clusterLoc c 0x1A) step f.test) b
  f.feeds.foldl (fun b x => (b.loseFeed x 2 (b.ctl.feeds[x]).flagged).finding b.moduleLoc step f.test) b

/-- Feed proving has run (R441, R505, R530). -/
def Body.fedProved (b : Body) : Body :=
  b.modCtl fun c => { c with feedProvings := sat32 c.feedProvings, lastProve := BitVec.ofNat 64 b.now }

/-- REASON of a far-memory pair, and its capacity in GiB when it may form a range (R416, R530). -/
def farReason (pairs : List FarPair) (ups : List (PortId × Nat)) (p : FarPair) : Byte × Nat :=
  let cap (q : PortId) : Option Nat := (ups.find? (·.1 = q)).map (·.2)
  let uses (q : PortId) : Nat := (pairs.filter fun x => x.portA = q || x.portB = q).length
  if octetOfPort p.portA = octetOfPort p.portB then (1, 0)
  else if portHalf p.portA ≠ portHalf p.portB then (2, 0)
  else if 1 < uses p.portA ∨ 1 < uses p.portB then (4, 0)
  else match cap p.portA, cap p.portB with
    | some x, some y => if min x y < gib then (3, 0) else (0, min x y / gib)
    | _, _ => (5, 0)

/-- Judges the pairs in order: the ranges together stay within 4 TiB (R416), and each within the far window and clear of the earlier ones,
so that the map covers every address once (R247). The spec gives the latter no REASON: they carry that of the 4 TiB limit (log entry 14). -/
def judgePairs (pairs : List FarPair) (ups : List (PortId × Nat)) : List FarPair → List (Nat × Nat) → List (FarPair × Byte × Nat)
  | [], _ => []
  | p :: r, formed =>
    match farReason pairs ups p with
    | (0, n) =>
      let lo := p.base.toNat
      let fits := (formed.map (·.2)).sum + n ≤ 4096 && lo + n ≤ 4096 && formed.all fun x => lo + n ≤ x.1 || x.1 + x.2 ≤ lo
      if fits then (p, 0, n) :: judgePairs pairs ups r (formed ++ [(lo, n)]) else (p, 6, 0) :: judgePairs pairs ups r formed
    | (x, _) => (p, x, 0) :: judgePairs pairs ups r formed

/-- The far-memory configuration: CXL ports trained and ranges formed (R247, R416). -/
def Body.formRanges (b : Body) (pairs : List FarPair) (ups : List (PortId × Nat)) : Body :=
  let named := ups.filter fun u => b.portExists u.1 && (b.octetRec u.1).mode = 3 && (b.port u.1).st = .idle &&
    pairs.any fun p => p.portA = u.1 || p.portB = u.1
  let js := judgePairs pairs named pairs []
  let b := named.foldl (fun b u => b.modPort u.1 fun x => { x with st := .up }) b
  let b := b.modMem fun m => { m with ranges := js.filterMap fun j =>
                                      if j.2.1 = 0 then
                                      some { base := j.1.base.toNat, size := j.2.2, portA := j.1.portA, portB := j.1.portB, fstate := 0, lost := none }
                                      else none }
  b.modCtl fun c => { c with farJudged := js.map (fun j => (j.1.base.toNat, j.2.1)), farUp := named }

/-- COUNT of each hub resumes at the next multiple of 2^32 above its reserve mark, which follows it (R315). -/
def Body.resumeCounts (b : Body) : Body :=
  let next (h : HubId) : Nat := (b.io.txnMark[h] / 2 ^ 32 + 1) * 2 ^ 32
  b.modIo fun i => { i with txnCount := #v[next 0, next 1], txnMark := #v[next 0, next 1] }

/-- Does an image slot pass the checks of R479? -/
def ImageSlot.ok (x : ImageSlot) (floor : BitVec 64) : Bool :=
  x.valid && 1 ≤ x.body.length && x.body.length ≤ 0x10000000 - 64 &&
  x.load.toNat % 0x200000 = 0 && 0x200000 ≤ x.load.toNat && x.load.toNat + x.body.length ≤ eastBase &&
  x.load.toNat ≤ x.entry.toNat && x.entry.toNat < x.load.toNat + x.body.length &&
  floor.toNat ≤ x.seq.toNat

/-- The slot that is loaded: the active one, else the other, when it passes (R479). -/
def FlashCfg.bootSlot (f : FlashCfg) : Option (Fin 2) :=
  let other : Fin 2 := if f.active = 0 then 1 else 0
  if (f.slots[f.active]).ok f.seqFloor then some f.active
  else if (f.slots[other]).ok f.seqFloor then some other
  else none

/-- FEEDS of the handoff block and of GET_MODE (R480, R504). -/
def Body.feedBits (b : Body) : Nat :=
  bit (b.ctl.feeds[(0 : FeedId)]).admitted 0 + bit (b.ctl.feeds[(1 : FeedId)]).admitted 1

/-- An 18-byte map of the cores that satisfy `p` (R480). -/
def coreMap (p : CoreId → Bool) : Nat := (allCores.filter p).foldl (fun n c => n + 2 ^ c.val) 0

/-- The handoff block (R480). -/
def Body.handoff (b : Body) (mode : Mode) (slot : Fin 2) (seq : BitVec 64) : List Byte :=
  pack [(2, 0x4844), (2, 64), (1, modeCode mode), (1, (b.spares 0).length), (1, (b.spares 1).length), (1, 0), (8, b.now),
        (18, coreMap fun c => (b.ctl.cores[c]).role = .assignable), (18, coreMap fun c => (b.ctl.cores[c]).role = .spare),
        (1, slot.val), (1, b.feedBits), (2, 0), (8, seq.toNat)]

/-- Writes bytes to MEMORY through key slot 0, with no cache holding them (R251, R479). -/
def Body.bootWrite (b : Body) (pa : Nat) (bs : List Byte) : Body :=
  b.modMem fun m => { m with cells := cellPuts unwritten m.cells pa bs }

/-- The first strand (R481). -/
def firstStrand (entry tvec : BitVec 64) (core : CoreId) : Strand :=
  { g := #v[0, 64, BitVec.ofNat 64 core.val, 0, 0, 0, 0]
    pc := entry.setWidth 48
    tvecS := tvec.extractLsb' 16 32
    run := .running }

/-- Step 10 ends: the image is loaded, the first strand starts, and the module enters OPERATING or EXPOSED (R33, R407, R479 to
R481, R485, R510, R531). -/
def startFirst (s : State) : State :=
  let b := s.body
  match s.cfg.bootSlot with
  | none => { s with body := (b.enterFallow 8 0xFFFF).leaveProving s.cfg }
  | some k =>
    let x := s.cfg.slots[k]
    let b := b.bootWrite x.load.toNat x.body
    let mode : Mode := if b.exposedRows.any id then .exposed else .operating
    let b := b.bootWrite 0 (b.handoff mode k x.seq)
    let b := b.modCtl fun c => { c with
      tilth := c.tilth.map fun e => (e.1, { lastTod := e.2.lastTod })
      feedProvings := 0
      step := 0 }
    let b := b.leaveProving s.cfg
    let now := b.now
    let b := b.modIo fun i => { i with
      parts := [(0, { kquota := 1024 })]
      chans := i.chans.map fun g => { g with lastJob := now }
      engines := i.engines.map fun g => { g with lastJob := now } }
    let b := match allCores.find? fun c => halfOfCore c = 0 && (b.ctl.cores[c]).role = .assignable with
      | some c => b.setStrand (strandOf c 0) (firstStrand x.entry x.tvec c)
      | none => b
    let b := b.setMode mode
    let b := b.allPorts.foldl (fun b p => b.releasePort p) b
    let b := b.ctl.startTickets.foldl (fun b t => b.finishTicket t stDone 0 []) b
    { s with
      cfg := { s.cfg with seqFloor := if s.cfg.seqFloor.toNat < x.seq.toNat then x.seq else s.cfg.seqFloor }
      body := b.modCtl fun c => { c with startTickets := [] } }

/-- Units whose proving-loop round step 6 runs (R474). -/
def Body.provedAll (b : Body) : Body :=
  let at' (b : Body) (kind : Nat) (loc : BitVec 16) (h : HubId) : Body :=
    b.count kind loc.toNat fun t => { t with lastTod := b.ctl.tod[h] }
  let b := (allCores.filter fun c => !b.ctl.badCores.contains c).foldl (fun b c => at' b 1 (coreLoc c) (halfOfCore c)) b
  ([0, 1] : List HubId).foldl (fun b h =>
    let b := (List.finRange 16).foldl (fun b n => at' b 5 (chanLoc h n) h) b
    (enginesOf h .comp ++ enginesOf h .bulk ++ enginesOf h .pk).foldl (fun b e => at' b 6 (engLoc e) h) b) b

/-- A step of PROVING ends and the next begins (R474). Step 5 runs during step 4 and ends with it. In step 3 every rail goes to its
floor; when in the step it moves, and that it is back at 0.80 V for step 4, are the model's choice (log entry 15). -/
def execProvingStepComplete (f : Findings) (s : State) : Out :=
  if s.body.ctl.mode ≠ .proving then .next s
  else
    let n := s.body.ctl.step
    let b := s.body.findings f n
    let to' (b : Body) (k : Nat) : Body := if b.ctl.mode = .proving then b.modCtl fun c => { c with step := k } else b
    let put (b : Body) : Out :=
      .next { s with body := if b.ctl.mode = .proving then b else b.leaveProving s.cfg }
    let all := List.range 230
    match n with
    | 2 => put ((to' b.fedProved 3).setRails all fun d => clampRail s.cfg d 0)
    | 3 => put ((to' b 4).setRails all fun _ => 800)
    | 4 =>
      let key := freeBytes b.freeCtr 64
      put (to' ((b.spend).modMem fun m => { m with slots := tPut m.slots 0 key }) 6)
    | 6 => put (to' b.provedAll 7)
    | 7 =>
      let b := b.finding b.moduleLoc 7 0 b.fallowRow.isSome
      put (to' b.coverage 8)
    | 8 =>
      let b := (List.finRange 12).foldl (fun b (o : OctetId) => b.applyOctet o (b.io.octets[o])) b
      let b := b.formRanges s.cfg.farPairs f.farUp
      put (to' b.coverage 9)
    | 9 => put (to' b.resumeCounts.coverage 10)
    | 10 =>
      let b := b.coverage
      if b.ctl.mode = .proving then .next (startFirst { s with body := b }) else put b
    | k => put (to' b (k + 1))

/-- PROVING has lasted 180 s (R474). -/
def execProvingTimeout (s : State) : Out :=
  onProving (fun b =>
    if b.ctl.mode = .proving then (b.reach b.ctl.steering (b.ctl.provingSince + 180000000000)).enterFallow 9 0xFFFF else b) s

/-- No die steward has been heard for 100 ms: the main feeds are taken to be absent (R488). -/
def execStewardSilence (s : State) : Out :=
  onProving (fun b =>
    if b.ctl.mode = .standby || !b.islandUp b.ctl.steering then b
    else (b.reach b.ctl.steering (b.now + 100000000)).loseBothFeeds) s

/-- The frame of a die steward during a start attempt: PROVING begins (R473). -/
def Body.dieReports (b : Body) (octets : Vector OctetRec 12) : Body :=
  if b.ctl.mode = .standby && b.ctl.attempt && b.stewardsUp then b.enterProving octets else b

end Sys2Proof.Machine
end

