-- ==== Sys2Proof/Machine/Split.lean ====
section
/-!
DEFINITION. SPLIT: entry, the tie-breaker lease, what each half keeps, and rejoin (chapter 16).
-/

namespace Sys2Proof.Machine

/-! ## Strands and partitions that stop (R438, R446, R458) -/

/-- A strand stops with a strand check of a kind of R438. With its state lost the record's PC is 0. In SPLIT the check reaches no
strand of the other half. -/
def Body.haltStrand (b : Body) (t : StrandId) (kind : Nat) (loc : BitVec 16) (gone : Bool) : Body :=
  let s := b.strand t
  if !(s.run = .running || s.run = .frozen) then b
  else
    let c : StrandCheck :=
      { cause := 0x31, pc := if gone then 0 else s.pc, info0 := loc.setWidth 64, info1 := BitVec.ofNat 64 kind, info2 := 0 }
    let far := if h : s.chktgt.toNat < 576 then b.isSplit && halfOfStrand ⟨s.chktgt.toNat, h⟩ != halfOfStrand t else false
    let b := if far then b else b.raiseCheck t
    b.modStrand t fun u => { (if gone then {} else u.abandon.endResv) with run := .stopped, act := .ready, check := some c, checkSrc := u.checkSrc }

/-- UNBIND_SLICE on each slice that satisfies `p` (R368, R446, R458). -/
def Body.unbindAll (b : Body) (p : SliceId → Slice → Bool) : Body :=
  b.io.slices.foldl (fun b e =>
    if h : e.1 < 8192 then
      let x := b.slice ⟨e.1, h⟩
      if x.st != .free && p ⟨e.1, h⟩ x then b.startDrain ⟨e.1, h⟩ true none else b
    else b) b

/-- Does a partition continue in half `h` (R457)? The supervisor runs in both. -/
def Body.continues (b : Body) (p : Byte) (h : HubId) : Bool :=
  p = 0 ||
  match (b.part p).place.toNat with
  | 1 => h = 0
  | 2 => h = 1
  | 3 => (b.ctl.halves[h]).half = .lead
  | _ => false

/-! ## Entry (R452, R453) -/

/-- What crosses the bridge when it is cut: posted stores fail, I/O loads fail, and what the other half's cores and engines still owe
counts as given. Whether they have removed the entries is free (R208, R242, R453). -/
def Body.cutBridge (b : Body) : Body :=
  let far (t : StrandId) (sl : SliceId) (p : Byte) : Bool := b.servingHub sl p != halfOfStrand t
  let gone := b.io.posted.filter fun p => far p.strand p.slice p.part
  let loads := allStrands.filterMap fun t =>
    match (b.strand t).waitsLoad with
    | some l => if far t l.slice l.part then some (t, l) else none
    | none => none
  let b := gone.foldl (fun b p => (b.dropPosted p).modStrand p.strand fun u => u.ioFail (p.failure 3)) b
  let b := loads.foldl (fun b x => b.loadFail x.1 x.2 3) b
  let b := allStrands.foldl (fun b t =>
    match (b.strand t).act with
    | .maint _ left _ _ _ _ =>
      (left.filter fun c => halfOfCluster c != halfOfStrand t).foldl (fun b c => b.maintAcked t c (Config.freeBool b.freeCtr)) b
    | _ => b) b
  let cross (h : HubId) (o : InvalOp) : Bool := halfOfStrand o.src != h
  let b := b.mapCores fun c k =>
    let mine := k.inval.filter (cross (halfOfCore c))
    let k := if Config.freeBool b.freeCtr then mine.foldl Core.inval1 k else k
    { k with inval := k.inval.filter fun o => !cross (halfOfCore c) o }
  (b.modIo fun i => { i with einval := Vector.ofFn fun h => (i.einval[h]).filter fun o => !cross h o }).spend

/-- Entry to SPLIT, steps 1 and 2 (R453, R500). -/
def Body.enterSplit (b : Body) : Body :=
  let b := b.cutBridge
  let b := b.setMode .split
  let copying := b.io.parts.filterMap fun e => e.2.copying
  let b := copying.foldl (fun b t => b.ticketWrongMode t) b
  let b := b.modIo fun i => { i with
    parts := i.parts.map fun e => (e.1, if e.2.copying.isSome then { e.2 with copying := none, place := 0, mbase := 0, msize := 0 } else e.2) }
  let tod := b.ctl.tod
  let b := b.modCtl fun c => { c with
    halves := Vector.ofFn fun (h : HubId) => ({ entered := (tod[h]).toNat } : HalfSplit)
    rejoin := none
    bundleTest := Vector.replicate 2 none
    bundleReady := Vector.replicate 2 false
    tickets := c.tickets.map fun t =>
      if t.result.isNone then { t with holder := some (if t.num.getLsbD 31 then 1 else 0) } else t }
  let b := b.freezeSilt 3
  b.freezeStrands (allStrands.filter fun t => b.spans (b.strand t).part)

/-! ## The lease (R454, R455) -/

/-- Is a half healthy: its compute dies, its hub die and its island in service (R454)? -/
def Body.healthy (b : Body) (h : HubId) : Bool :=
  !b.ctl.lostHubs.contains h && !(b.ctl.lostDies.any fun (d : CDieId) => Sys2Proof.Machine.halfOf d = h) && b.islandUp h

/-- The lease is granted exactly once: the grant that an island has taken (R455). -/
def Body.granted (b : Body) : Option HubId := ((b.ctl.halves[(0 : HubId)]).lease).or (b.ctl.halves[(1 : HubId)]).lease

/-- The half to which the lease is granted (R455). -/
def Body.grantee (b : Body) (preferred : HubId) : HubId :=
  b.granted.getD (if b.healthy preferred then preferred else otherHub preferred)

/-! ## What each half keeps (R457 to R464) -/

/-- Drops what half `h` holds of lines whose home lies in the other half, and what waits for those that no twin serves (R453, R464). -/
def Body.dropForeign (b : Body) (h : HubId) : Body :=
  let far (l : Line) : Bool := b.unreachable h (lineAddr l)
  let away (l : Line) : Bool := b.homeHalf (lineAddr l) != h
  let b := (allClusters.filter fun c => halfOfCluster c = h).foldl (fun b c =>
    ((b.cluster c).l2.filter fun e => away e.2.line).foldl (fun b e => b.l2Remove c e.1 e.2 false) b) b
  let b := b.mapCores fun c k =>
    if halfOfCore c = h then { k with l1i := k.l1i.filter fun e => !away e.2.line, l1d := k.l1d.filter fun e => !away e.2.line } else k
  let b := b.modMem fun m => { m with
    reqs := m.reqs.filter fun r => !(halfOfCluster r.cluster = h && far r.line)
    departing := m.departing.filter fun d => !(d.holder = h && far d.line) }
  b.mapStrands fun t s =>
    match s.act with
    | .parked l _ _ _ => if halfOfStrand t = h ∧ far l then { s with act := .ready } else s
    | _ => s

/-- Transactions of continuing partitions that ran on the other hub's engines pass to this hub; those on a shared target only once
LEAD may use it (R459 to R461). -/
def Body.adopt (b : Body) (h : HubId) : Body :=
  let mine := b.outstanding.filter fun e => b.entryHub e.2 = h && (engineOf e.2.engine).1 != h && b.continues e.2.part h
  mine.foldl (fun b e =>
    let ready := match (b.subch e.2.subchKey).bind fun c => c.paths[e.2.path.toNat]? with
      | some p => b.mayIssue h p
      | none => true
    if !ready then b
    else match b.pickEngine h with
      | (some g, b) => b.takeOver e.1 g (otherHub h)
      | (none, b) => b) b

/-- Queue pairs of a network address entry enter ERROR with ERR 5, and their outstanding requests complete FLUSHED (R372, R463). -/
def Body.failEntry (b : Body) (part : Byte) (ix : Nat) : Body :=
  b.io.slices.foldl (fun b e =>
    if h : e.1 < 8192 then
      let x := b.slice ⟨e.1, h⟩
      if x.kind = 4 ∧ x.part = part ∧ x.st ≠ .free then
        x.qps.foldl (fun b q => if q.2.en && q.2.st = 1 && q.2.addrix.toNat = ix then b.netqStatus ⟨e.1, h⟩ q.1 5 else b) b
      else b
    else b) b

/-- LEAD moves the network entries of its continuing partitions from FENCED's ports to their alternate ports (R463). -/
def Body.moveEntries (b : Body) (h : HubId) : Body :=
  b.io.netaddrs.foldl (fun b e =>
    let p : Byte := BitVec.ofNat 8 (e.1 / 4096)
    if portHalf e.2.port = h || !b.continues p h then b
    else
      let b := b.modIo fun i => { i with netaddrs := tMod i.netaddrs e.1 fun a =>
                                         match a.alt with
                                         | some q => { a with port := q }
                                         | none => { a with lost := true } }
      b.failEntry p (e.1 % 4096)) b

/-- FENCED gives up its shared targets: its Fibre Channel and PCIe ports that serve one are held idle, its paths to them fail (R460). -/
def Body.leaveShared (b : Body) (h : HubId) : Body :=
  let onShared (q : PortId) : Bool := b.io.subchs.any fun c => c.2.paths.any fun p => p.port = q && b.sharedTarget p.target
  let ports := b.allPorts.filter fun q => portHalf q = h && onShared q && ((b.octetRec q).mode = 2 || (b.octetRec q).mode = 4)
  let pred (p : Path) : Bool := portHalf p.port = h && b.sharedTarget p.target
  let b := ports.foldl (fun b q => b.stopPort q false) b
  b.failPaths (fun _ p => pred p) none

/-- Half `h` has its half-state: step 5 of R453. -/
def Body.applyHalf (b : Body) (h : HubId) : Body :=
  let st := (b.ctl.halves[h]).half
  let other := (b.ctl.halves[otherHub h]).half
  let mine := allStrands.filter fun t => halfOfStrand t = h && (b.strand t).run = .frozen
  let b := mine.foldl (fun b t => b.drainStrand t 256) b
  let b := mine.foldl (fun b t =>
    if b.continues (b.strand t).part h then b.modStrand t fun s => { s with run := .running }
    else b.haltStrand t 10 (strandLoc t) false) b
  -- MIRRORED_SPANNED partitions stop only when no half leads (R456).
  let b := b.unbindAll fun sl x =>
    b.spans x.part && !((b.part x.part).place = 3 && st = .fenced && other != .fenced) && !b.continues x.part h &&
      (b.servingHub sl x.part = h || ((b.part x.part).place = 3 && other = .fenced))
  let b := b.dropForeign h
  let b := if st = .fenced then b.leaveShared h else b
  let b := if st = .lead then b.moveEntries h else b
  b.adopt h

/-- An island takes its half-state (R455). `how` is 1 for a grant and 2 for silence. -/
def Body.takeHalf (b : Body) (h : HubId) (lead : Bool) (how : Nat) : Body :=
  let st : HalfSt := if lead then .lead else .fenced
  let b := b.modCtl fun c => { c with halves := c.halves.set h { c.halves[h] with half := st, lease := if how = 1 then some (if lead then h else otherHub h) else none } }
  (b.report (islandLoc h) 0x0601 (dataOf [(1, halfCode st), (1, how)])).applyHalf h

/-- An island without a half-state receives the grant, which goes to the preferred half when that is healthy (R455). The steering island
gives it; the other one has it over the island link. -/
def execLeaseGrant (island half : HubId) (s : State) : Out :=
  onBody (fun b =>
    if b.isSplit && (b.ctl.halves[island]).half = .none && b.islandUp island && half = b.grantee s.cfg.preferred &&
        (island = b.ctl.steering || b.ctl.islandLink) then
      b.takeHalf island (half = island) 1
    else b) s

/-- No frame has arrived on the island link within 5 ms of the entry (R455). A grant that one island has taken reaches the other while the
link carries frames. -/
def execLeaseTimeout (island : HubId) (s : State) : Out :=
  onBody (fun b =>
    if b.isSplit && (b.ctl.halves[island]).half = .none && b.islandUp island && (b.granted.isNone || !b.ctl.islandLink) then
      let b := b.reach island ((b.ctl.halves[island]).entered + 5000000)
      b.takeHalf island (decide (island = s.cfg.preferred) && b.healthy island) 2
    else b) s

/-- Renewal of the lease confirms the half-states (R455). -/
def execLeaseRenewal (s : State) : Out := .next s

/-- LEAD may issue commands to shared targets from 100 ms after the entry on (R460). -/
def execSharedTargetDelay (s : State) : Out :=
  onBody (fun b =>
    match ([0, 1] : List HubId).find? fun h => (b.ctl.halves[h]).half = .lead with
    | some h =>
      if b.isSplit then
        let b := b.reach h ((b.ctl.halves[h]).entered + 100000000)
        (b.modCtl fun c => { c with halves := c.halves.set h { c.halves[h] with sharedOk := true } }).adopt h
      else b
    | none => b) s

/-! ## Copies of mirrored partitions, and rejoin (R450, R466, R467, R526) -/

/-- Lines of a partition's primary range that are listed, or whose twin is. -/
def Body.mirrorLines (b : Body) (p : Partition) : List Line :=
  let lo := p.mbase.toNat * gib / 128
  let hi := (p.mbase.toNat + p.msize.toNat) * gib / 128
  let listed := (b.mem.cells.map fun c => c.1 / 128) ++ b.mem.keyOf.map (·.1)
  let prim := listed.filter fun n => lo ≤ n && n < hi
  let twin := (listed.filter fun n => eastBase / 128 + lo ≤ n && n < eastBase / 128 + hi).map (· - eastBase / 128)
  (prim ++ twin).dedup.map (BitVec.ofNat 45)

/-- A line's stored bytes and key are copied to another line. -/
def MemSys.copyLine (m : MemSys) (from' to' : Line) : MemSys :=
  { m with
    cells := cellPuts unwritten m.cells (lineAddr to') (cellGets unwritten m.cells (lineAddr from') 128)
    keyOf := tPut m.keyOf to'.toNat (m.keyAt from') }.dirtyParity to'

/-- Copies a partition's primary range to its twin, or back (R450, R467). -/
def Body.copyMirror (b : Body) (p : Partition) (back : Bool) : Body :=
  (b.mirrorLines p).foldl (fun b l =>
    b.modMem fun m => if back then m.copyLine (twinLine l) l else m.copyLine l (twinLine l)) b

/-- Primary lines held in state M leave it: the home takes their data (R450). -/
def Body.cleanMirror (b : Body) (p : Partition) : Body :=
  let prim (l : Line) : Bool := p.mbase.toNat * gib ≤ lineAddr l && lineAddr l < (p.mbase.toNat + p.msize.toNat) * gib
  let b := b.mem.departing.foldl (fun b d => if prim d.line then b.acceptBack d else b) b
  let b := allClusters.foldl (fun b c =>
    ((b.cluster c).l2.filter fun e => prim e.2.line && e.2.st = .m).foldl (fun b e =>
      (b.homeAccept e.2.line e.2.data e.2.slot true 0xFFFF 0 false).1.setL2 c e.1 { e.2 with st := .e }) b) b
  (List.finRange 4).foldl (fun b (d : CDieId) =>
    let b := ((b.die d).l3.filter fun e => prim e.2.line && e.2.dirty).foldl (fun b e => b.memWrite e.2.line e.2.slot e.2.data) b
    b.modDie d fun x => { x with l3 := x.l3.map fun e => (e.1, if prim e.2.line then { e.2 with dirty := false } else e.2) }) b

/-- West keeps no cached copy of a line of the primary range, which the copy from the twin has written (R467; log entry 17). -/
def Body.forgetMirror (b : Body) (p : Partition) : Body :=
  let prim (l : Line) : Bool := p.mbase.toNat * gib ≤ lineAddr l && lineAddr l < (p.mbase.toNat + p.msize.toNat) * gib
  let b := (allClusters.filter fun c => halfOfCluster c = 0).foldl (fun b c =>
    ((b.cluster c).l2.filter fun e => prim e.2.line).foldl (fun b e => b.l2Remove c e.1 e.2 true) b) b
  let b := (List.finRange 4).foldl (fun b (d : CDieId) => b.modDie d fun x => { x with l3 := x.l3.filter fun e => !prim e.2.line }) b
  b.modMem fun m => { m with departing := m.departing.filter fun d => !prim d.line }

/-- The copy of a primary range to its twin ends: the placement is in force and its ticket completes (R450). The lines of the twin
range leave the caches, since the range is ABSENT from now on. -/
def execMirrorCopyDone (part : Byte) (s : State) : Out :=
  onBody (fun b =>
    match (b.part part).copying with
    | none => b
    | some t =>
      if !b.serving || b.isSplit then b
      else
        let p := b.part part
        let b := (b.cleanMirror p).copyMirror p false
        let b := b.modIo fun i => { i with parts := tMod i.parts part.toNat fun q => { q with place := 3, copying := none } }
        b.finishTicket t stDone 0 []) s

/-- A down bundle has run error-free for 10 s in SPLIT: the halves are ready to rejoin (R466). -/
def execRejoinReady (n : BundleId) (s : State) : Out :=
  onBody (fun b =>
    match b.ctl.bundleTest[n] with
    | some t =>
      if b.isSplit then
        (b.reach b.ctl.steering (t + 10000000000)).modCtl fun c => { c with bundleReady := c.bundleReady.set n true }
      else b
    | none => b) s

/-- Merges the two logs in TOD order; each record keeps its SEQ, and the oldest beyond 65,536 are dropped (R526). -/
def mergeRings : List SiltRec → List SiltRec → List SiltRec
  | [], ys => ys
  | x :: xs, ys => insert' x (mergeRings xs ys)
where
  insert' (x : SiltRec) : List SiltRec → List SiltRec
    | [] => [x]
    | y :: ys => if x = y then y :: ys else if x.tod.toNat ≤ y.tod.toNat then x :: y :: ys else y :: insert' x ys

/-- The islands' logs join at rejoin. A log that is still frozen keeps its ring and merges what it has buffered (R467, R526). -/
def Body.mergeSilt (b : Body) : Body :=
  let all (h : HubId) : List SiltRec := (b.ctl.silt[h]).ring ++ (b.ctl.silt[h]).post
  let m := mergeRings (all 0) (all 1)
  let drop := m.length - 65536
  let top := max (b.ctl.silt[(0 : HubId)]).count (b.ctl.silt[(1 : HubId)]).count
  b.modCtl fun c => { c with silt := c.silt.map fun g =>
                             { g with ring := m.drop drop, overwritten := g.overwritten + drop, frozen := none, post := [], lost := 0, thaw := none, count := top } }

/-- A journal entry, slice or key of the merged state comes from the half in which its partition continues (R461, R462, R467). -/
def Body.mergeHalves (b : Body) (lead : HubId) : Body :=
  let pickJ (ix : Nat) : Option JEntry :=
    let e (h : HubId) : Option JEntry := tGet (b.io.journal[h]) ix
    let own (h : HubId) : Option JEntry := (e h).filter fun j => j.st != 0 && b.entryHub j = h && b.continues j.part h
    match own 0 with
    | some j => some j
    | none => match own 1 with
      | some j => some j
      | none => match e lead, e (otherHub lead) with
        | some j, some k => if j.st = 0 || k.st = 0 then some { j with st := 0 } else some j
        | some j, none => some j
        | none, k => k
  let ixs := (b.io.journal[(0 : HubId)].map (·.1) ++ b.io.journal[(1 : HubId)].map (·.1)).dedup
  let jn : Table JEntry := ixs.foldl (fun t ix => match pickJ ix with | some j => tPut t ix j | none => t) []
  let pickK (ix : Nat) : Option KeyEntry :=
    match tGet (b.io.keys[(0 : HubId)]) ix, tGet (b.io.keys[(1 : HubId)]) ix with
    | some x, some y => if x.seq = y.seq then some { x with live := x.live && y.live } else if ix % 2 = 0 then some x else some y
    | some x, none => some x
    | none, y => y
  let kxs := (b.io.keys[(0 : HubId)].map (·.1) ++ b.io.keys[(1 : HubId)].map (·.1)).dedup
  let kt : Table KeyEntry := kxs.foldl (fun t ix => match pickK ix with | some k => tPut t ix k | none => t) []
  b.modIo fun i => { i with journal := Vector.replicate 2 jn, keys := Vector.replicate 2 kt }

/-- Rejoin ends: the halves are one module again (R467). The two timebases agree, the later reading standing. -/
def execRejoinCopyDone (s : State) : Out :=
  onBody (fun b =>
    match b.ctl.rejoin with
    | none => b
    | some (ticket, lead) =>
      if !b.isSplit then b
      else
        let east := lead = 1 && (b.ctl.halves[(1 : HubId)]).half = .lead
        let tod := max (b.tod 0) (b.tod 1)
        let b := (b.reach 0 tod).reach 1 tod
        let b := b.mergeHalves lead
        let mirrored := b.io.parts.filter fun e => e.2.place = 3
        let b := mirrored.foldl (fun b e => let b := b.copyMirror e.2 east
                                            if east then b.forgetMirror e.2 else b) b
        let fenced := ([0, 1] : List HubId).filter fun h => (b.ctl.halves[h]).half = .fenced
        let b := b.modCtl fun c => { c with
          mode := .exposed
          halves := Vector.replicate 2 {}
          rejoin := none
          steering := lead
          tod := Vector.replicate 2 (BitVec.ofNat 64 tod)
          bundleReady := Vector.replicate 2 false
          tickets := c.tickets.map fun t => { t with holder := none } }
        let b := b.modIo fun i => { i with netaddrs := i.netaddrs.map fun e => (e.1, { e.2 with lost := false }) }
        let b := b.mergeSilt
        let ports := b.allPorts.filter fun q => fenced.contains (portHalf q) && (b.port q).st = .idle
        let b := ports.foldl (fun b q => b.releasePort q) b
        let b := b.finishTicket ticket stDone 0 []
        let now : Mode := if b.exposedRows.any id then .exposed else .operating
        (b.modCtl fun c => { c with mode := .split }).setMode now) s

end Sys2Proof.Machine
end

