-- ==== Sys2Proof/Machine/Faults.lean ====
section
/-!
DEFINITION. Faults and what covers them: retries and core substitution, the proving loop, scrub reads and stacks, bridge bundles,
feeds, islands and their links, and the loss of clusters and dies (chapter 15, R26, R28).
-/

namespace Sys2Proof.Machine

/-! ## Substitution (R424 to R428) -/

/-- The spare that takes a failing core's work: of its cluster, else its die, else its half; the lowest number (R425). -/
def Body.chooseSpare (b : Body) (c : CoreId) : Option CoreId :=
  let pool := b.spares (halfOfCore c)
  match pool.find? fun k => clusterOf k = clusterOf c with
  | some k => some k
  | none =>
    match pool.find? fun k => dieOf (clusterOf k) = dieOf (clusterOf c) with
    | some k => some k
    | none => pool.head?

def Body.modUnit (b : Body) (c : CoreId) (f : CoreUnit → CoreUnit) : Body :=
  b.modCtl fun k => { k with cores := k.cores.set c (f (k.cores[c])) }

/-- The last change of a unit's STATE (R529). -/
def Body.stampUnit (b : Body) (kind : Nat) (loc : BitVec 16) : Body :=
  b.count kind loc.toNat fun t => { t with lastTod := b.ctl.tod[halfOfLoc loc] }

/-- A moved strand (R427): its reservation has ended, and an access that waited for a line is made again. One that sits in a sealed span
goes on in the bank that it runs from (R119, R266). -/
def Strand.moved (s : Strand) (home : ClusterId) (resume : Bool) : Strand :=
  { s.endResv with
    run := if resume then .running else s.run
    act := match s.act with | .parked .. => .ready | a => a
    spHome := some (s.spHome.getD home)
    oldSlip := s.inSpan && s.oldSlip }

/-- Every name of a strand of core `c` becomes that of core `k` (R426, step 6). -/
def Body.renameStrands (b : Body) (c k : CoreId) : Body :=
  let num (n : Nat) : Nat := if n / 4 = c.val then k.val * 4 + n % 4 else n
  let name (t : StrandId) : StrandId := if coreOf t = c then strandOf k ⟨t.val % 4, Nat.mod_lt _ (by decide)⟩ else t
  let op (o : InvalOp) : InvalOp := { o with src := name o.src }
  let b := b.mapStrands fun _ s => { s with
    chktgt := if s.chktgt.toNat < 576 then BitVec.ofNat 10 (num s.chktgt.toNat) else s.chktgt
    checkSrc := s.checkSrc.map num }
  let b := b.mapCores fun _ x => { x with inval := x.inval.map op }
  b.modIo fun i => { i with
    slices := i.slices.map fun e => (e.1, { e.2 with target := num e.2.target })
    posted := i.posted.map fun p => { p with strand := name p.strand }
    parts := i.parts.map fun e => (e.1, { e.2 with wakeTarget := e.2.wakeTarget.map num })
    einval := i.einval.map fun l => l.map op }

/-- Steps 1 to 8 of R426: the four strands of `c` move to `k`. What `c` still owed an acknowledgement for is acknowledged (R243). -/
def Body.substitute (b : Body) (c k : CoreId) : Body :=
  let ran := (strandsOfCore c).filter fun t => (b.strand t).run = .running
  let b := b.freezeStrands (strandsOfCore c)
  let b := (List.finRange 4).foldl (fun (b : Body) (i : Fin 4) =>
    let t := strandOf c i
    (b.setStrand (strandOf k i) ((b.strand t).moved (clusterOf c) (ran.contains t))).setStrand t {}) b
  let old := b.core c
  let b := b.modCore k fun x => { l1ie := old.l1ie, l1de := old.l1de, inval := x.inval }
  let b := (b.modCore c fun _ => {}).renameStrands c k
  let home := ((b.ctl.cores[c]).spHome).getD (clusterOf c)
  let b := (b.modUnit c fun u => { u with role := .out }).modUnit k fun u => { u with role := .assignable, spHome := some home }
  let b := (b.switchOut c.val).report (coreLoc c) 0x0205 (dataOf [(2, (coreLoc k).toNat)])
  let b := (b.count 1 (coreLoc k).toNat fun t => { t with spec2 := sat32 t.spec2 }).stampUnit 1 (coreLoc k)
  b.stampUnit 1 (coreLoc c)

/-- A core is declared failing: 1 retries, 2 slip load, 3 self-test (R424, R428, R486). During PROVING the core is not good (R477). -/
def Body.coreFailing (b : Body) (c : CoreId) (cause : Nat) : Body :=
  let declare (b : Body) : Body :=
    (b.report (coreLoc c) 0x0204 (dataOf [(1, cause)])).count 1 (coreLoc c).toNat fun t => { t with spec0 := 1 }
  if b.ctl.mode = .proving then ((declare b).badCore c).coverLate
  else
    match (b.ctl.cores[c]).role with
    | .spare =>
      let b := ((declare b).modUnit c fun u => { u with role := .out }).switchOut c.val
      ((b.report (coreLoc c) 0x0207).stampUnit 1 (coreLoc c)).settleMode
    | .assignable =>
      let b := declare b
      match b.chooseSpare c with
      | some k => (b.substitute c k).settleMode
      | none =>
        let b := (b.freezeStrands (strandsOfCore c)).report (coreLoc c) 0x0206
        let b := (strandsOfCore c).foldl (fun b t => b.haltStrand t 8 (coreLoc c) false) b
        let b := (b.modUnit c fun u => { u with role := .failing }).modDomain c.val fun x => { x with out := true }
        b.stampUnit 1 (coreLoc c)
    | _ => b

/-- A parity error invalidates an entry of one of a core's arrays; which one is free, and it may be an array that holds no entry (R421). -/
def Core.dropOne (k : Core) (n m : Nat) : Core :=
  match n % 7 with
  | 0 => { k with l1i := k.l1i.eraseIdx m }
  | 1 => { k with l1d := k.l1d.eraseIdx m }
  | 2 => { k with dtlb := k.dtlb.eraseIdx m }
  | 3 => { k with itlb := k.itlb.eraseIdx m }
  | 4 => { k with stlb := k.stlb.eraseIdx m }
  | 5 => { k with walk := k.walk.eraseIdx m }
  | _ => k

/-- A strand abandons what it executes and executes it again at once (R266, R423): a customer routine in progress goes back to its last
commit, outside a sealed span. -/
def Strand.retryInsn (s : Strand) : Strand :=
  if s.micro.isSome && !s.inSpan then { s.abandon with act := .ready } else s

/-- A transient error of a strand (R421 to R424). The instruction is abandoned and executed again from the checkpoint. -/
def Body.strandError (b : Body) (t : StrandId) (array failedRetry : Bool) : Body :=
  let c := coreOf t
  let b := if array then
      (b.modCore c fun k => k.dropOne (Config.freeNat b.freeCtr) (Config.freeNat (b.freeCtr + 1))).spend.spend
    else b
  let b := (b.modStrand t Strand.retryInsn).count 1 (coreLoc c).toNat fun r =>
    { r with uncorr := sat32 r.uncorr, retry := sat32 r.retry, events := if failedRetry then sat32 r.events else r.events }
  if !failedRetry then b
  else
    let now := b.tod (halfOfCore c)
    let ts := ((b.ctl.cores[c]).retries ++ [now]).filter fun x => now ≤ x + 1000000000
    let b := b.modUnit c fun x => { x with retries := ts }
    if 2 ≤ ts.length then (b.modUnit c fun x => { x with retries := [] }).coreFailing c 1 else b

/-- An error in a line that an L2 holds (R421): corrected in place, or a clean line is discarded and fetched again, or the only copy is
lost (R437). -/
def Body.l2Error (b : Body) (c : ClusterId) (l : Line) (wide : Bool) : Body :=
  match (b.cluster c).find l with
  | none => b
  | some (slot, e) =>
    let put (f : Tilth → Tilth) : Body := b.count 2 (clusterLoc c 0x18).toNat f
    if e.st = .le then b
    else if !wide then put fun t => { t with corr := sat32 t.corr }
    else
      let b := put fun t => { t with uncorr := sat32 t.uncorr }
      (if e.st = .m then b.loseLine l 3 else b).l2Remove c slot e true

/-- The same in an L3. -/
def Body.l3Error (b : Body) (l : Line) (wide : Bool) : Body :=
  match b.l3Has l with
  | none => b
  | some (d, slot, e) =>
    let put (f : Tilth → Tilth) : Body := b.count 3 (dieLoc d (l3Slice l)).toNat f
    if !wide then put fun t => { t with corr := sat32 t.corr }
    else
      let b := put fun t => { t with uncorr := sat32 t.uncorr }
      (if e.dirty then b.loseLine l 3 else b).modDie d fun k => { k with l3 := tDel k.l3 slot }

/-- The same in a line of a scratchpad, which is always the only copy. -/
def Body.spadError (b : Body) (c : ClusterId) (n : Nat) (wide : Bool) : Body :=
  let put (f : Tilth → Tilth) : Body := b.count 2 (clusterLoc c 0x18).toNat f
  if (b.cluster c).spadLimit ≤ n * 128 then b
  else if !wide then put fun t => { t with corr := sat32 t.corr }
  else (put fun t => { t with uncorr := sat32 t.uncorr }).loseSpad c n

/-- The same in a line that its controller's write queue holds. The model's memory holds a line once it is accepted, so that line is
lost (log entry 17). -/
def Body.queueError (b : Body) (l : Line) (wide : Bool) : Body :=
  let put (f : Tilth → Tilth) : Body := b.count 4 (controllerLoc (homeStacks (lineAddr l)).1).toNat f
  if memoryEnd ≤ lineAddr l then b
  else if !wide then put fun t => { t with corr := sat32 t.corr }
  else (put fun t => { t with uncorr := sat32 t.uncorr }).loseLine l 3

/-- The cache that holds the only copy of a line: its error, and the location code of its slice. -/
def Body.onlyCopy (b : Body) (l : Line) : Option (Body × BitVec 16) :=
  match b.owner l, b.l3Has l with
  | some (c, _, e), _ => if e.st = .m then some (b.l2Error c l true, clusterLoc c 0x18) else none
  | none, some (d, _, e) => if e.dirty then some (b.l3Error l true, dieLoc d (l3Slice l)) else none
  | none, none => none

/-- A strand's own access meets an error of two sub-arrays in the only copy of its line: it takes MACHINE_CHECK with kind 3 (R437, R438).
The strand waits for that line, or is at an access to its scratchpad. -/
def Body.metError (b : Body) (t : StrandId) (l : Line) : Body :=
  let s := b.strand t
  let trap (b' : Body) (loc : BitVec 16) : Body := b.trapOrFp b' t (trapMachine loc 3 (lineAddr l)) s.pc false
  if s.run != .running then b
  else match s.act with
    | .ready =>
      let h := b.spadHome t
      let n := spadLine (lineAddr l)
      if s.micro.isNone && b.classOf (lineAddr l) = .scratchpad && n * 128 < (b.cluster h).spadLimit &&
          !(b.cluster h).spadLost.contains n then
        trap (b.spadError h n true) (clusterLoc h 0x18)
      else b
    | .parked x .. => if x = l then match b.onlyCopy l with
      | some (b', loc) => trap b' loc
      | none => b
      else b
    | _ => b

/-- A hub's copy that its code cannot correct goes out of service while the other hub's is in service, until it is rebuilt (R445; log
entry 17). -/
def Body.copyError (b : Body) (h : HubId) (c : HubCopy) : Body :=
  let gone (x : HubId) : Bool := b.ctl.lostHubs.contains x || b.ctl.hubCopies.contains (x, c)
  if b.isSplit || gone h || gone (otherHub h) then b
  else (b.modCtl fun k => { k with hubCopies := k.hubCopies ++ [(h, c)] }).settleMode

/-- A transient error (R255, R421 to R424). A correctable micro-word is corrected and counted, and needs no retry; before the retry of
another, the die steward rewrites a slip word from the island's copy, so the bank's words are what they were. A channel engine
whose retry fails has met an internal error (R280). -/
def execTransientError (at' : ErrSite) (u : ErrUnit) (failedRetry : Bool) (s : State) : Out :=
  onProving (fun b =>
    match at' with
    | .l2 c l wide => if b.serving then b.l2Error c l wide else b
    | .l3 l wide => if b.serving then b.l3Error l wide else b
    | .spad c n wide => if b.serving then b.spadError c n.val wide else b
    | .queue l wide => if b.serving then b.queueError l wide else b
    | .met t l => if b.serving then b.metError t l else b
    | .copy h c wide => if b.serving && wide then b.copyError h c else b
    | .strand t =>
      if !((b.serving && (b.strand t).run = .running) || b.ctl.mode = .proving) then b
      else if u = .microWord true then
        b.count 1 (coreLoc (coreOf t)).toNat fun r => { r with corr := sat32 r.corr, spec1 := sat32 r.spec1 }
      else b.strandError t (u = .array) failedRetry
    | .chan h n =>
      if !b.serving || !b.chanUp h n then b
      else if u = .microWord true then b.count 5 (chanLoc h n).toNat fun r => { r with corr := sat32 r.corr }
      else
        let b := b.count 5 (chanLoc h n).toNat fun r => { r with uncorr := sat32 r.uncorr, retry := sat32 r.retry }
        if failedRetry then b.chanInternal h n else b) s

/-! ## The proving loop (R429, R430) -/

/-- A round of a spare core ends. -/
def Body.spareRound (b : Body) (c : CoreId) (pass : Bool) (test : BitVec 16) : Body :=
  let loc := coreLoc c
  let b := (b.count 1 loc.toNat fun t => if pass then { t with passed := sat32 t.passed } else { t with failed := sat32 t.failed }).stampUnit 1 loc
  if pass then b.modUnit c fun u => { u with consec := 0 }
  else
    let n := (b.ctl.cores[c]).consec + 1
    let b := (b.modUnit c fun u => { u with consec := n }).report loc 0x0209 (dataOf [(1, 1), (1, n), (2, test.toNat)])
    if n < 2 then b
    else (((b.modUnit c fun u => { u with role := .out }).switchOut c.val).report loc 0x0207).settleMode

/-- Counts a round of an engine, and records one that fails. `kind` is 5 or 6, `inService` tells which UNITKIND it has. -/
def Body.engineRound (b : Body) (kind : Nat) (loc : BitVec 16) (inService pass : Bool) (test : BitVec 16) : Body :=
  let b := (b.count kind loc.toNat fun t => if pass then { t with passed := sat32 t.passed } else { t with failed := sat32 t.failed }).stampUnit kind loc
  if pass then b else b.report loc 0x0209 (dataOf [(1, if inService then 2 else 3), (1, 1), (2, test.toNat)])

/-- A round of the proving loop ends with a health report. -/
def execProvingRound (u : ProvedUnit) (pass : Bool) (test : BitVec 16) (s : State) : Out :=
  onBody (fun b =>
    if !b.serving then b
    else match u with
    | .core c => if (b.ctl.cores[c]).role = .spare then b.spareRound c pass test else b
    | .chan h n =>
      let g := b.chan h n
      if b.ctl.lostHubs.contains h || !g.proving then b
      else
        let now := b.tod h
        match g.service with
        | .outUntilProving => b
        | .inService =>
          let b := b.engineRound 5 (chanLoc h n) true pass test
          if pass then b else b.dropChan h n .suspect 0x0402 (dataOf [(2, 0xFFFF)])
        | _ =>
          let b := b.engineRound 5 (chanLoc h n) false pass test
          if !pass then ((b.report (chanLoc h n) 0x0404).outChan h n).modChan h n fun g => { g with proving := false }
          else if g.rounds + 1 < 30 then b.modChan h n fun g => { g with rounds := g.rounds + 1 }
          else
            (b.report (chanLoc h n) 0x0403 (dataOf [(4, 30)])).modChan h n fun g =>
              { g with service := .inService, rounds := 0, returnedAt := some now, lastJob := now, proving := false, takeover := none }
    | .eng e =>
      let g := b.eng e
      if b.ctl.lostHubs.contains e.hub || !engExists e || !b.domainOn (engDomain e) || !g.proving then b
      else
        let now := b.tod e.hub
        match g.service with
        | .outUntilProving => b
        | .inService =>
          let b := b.engineRound 6 (engLoc e) true pass test
          if pass then b else b.dropEngine e .suspect 0x0402 (dataOf [(2, 0xFFFF)])
        | _ =>
          let b := b.engineRound 6 (engLoc e) false pass test
          if !pass then ((b.report (engLoc e) 0x0404).outEng e).modEng e fun g => { g with proving := false }
          else if g.rounds + 1 < 30 then b.modEng e fun g => { g with rounds := g.rounds + 1 }
          else
            (b.report (engLoc e) 0x0403 (dataOf [(4, 30)])).modEng e fun g =>
              { g with service := .inService, rounds := 0, returnedAt := some now, lastJob := now, proving := false }) s

/-- An engine in service that has had no job for 1 s enters the loop. -/
def execEngineIdleTimeout (u : ProvedUnit) (s : State) : Out :=
  onBody (fun b =>
    if !b.serving then b
    else match u with
    | .core _ => b
    | .chan h n =>
      if !b.chanUp h n || b.outstanding.any (fun e => e.2.st.toNat < 4 && e.2.engine = engineByte (h, n)) then b
      else (b.reach h ((b.chan h n).lastJob + 1000000000)).modChan h n fun g => { g with proving := true }
    | .eng e =>
      if !b.engUp e || (b.runningOn e).isSome then b
      else (b.reach e.hub ((b.eng e).lastJob + 1000000000)).modEng e fun g => { g with proving := true }) s

/-! ## Memory (R431 to R434, R437) -/

/-- Location code of a stack (R9). -/
def stackLoc (m : StackId) : BitVec 16 := locCode (m.val / 2) 15 0 0 (10 + m.val % 2)

/-- A stack is declared failed: 1 retraining, 2 uncorrectable lines (R434). -/
def Body.failStack (b : Body) (m : StackId) (cause : Nat) : Body :=
  if (b.mem.hbm[m]).failed then b
  else
    let b := b.modMem fun x => { x with hbm := x.hbm.set m { x.hbm[m] with failed := true } }
    let b := (b.report (stackLoc m) 0x0302 (dataOf [(1, cause)])).stampUnit 4 (controllerLoc m)
    if b.ctl.mode = .proving then b.coverLate else b.settleMode

/-- The daily read of a line (R431). A line that is uncorrectable at step 2 counts against its stack (R434). -/
def execScrubRead (l : Line) (o : ReadOutcome) (s : State) : Out :=
  onBody (fun b =>
    let pa := lineAddr l
    let m := (homeStacks pa).1
    let h : HubId := if pa < eastBase then 0 else 1
    if !b.serving || memoryEnd ≤ pa || b.ctl.lostDies.contains (homeDie pa) || b.ctl.lostHubs.contains h then b
    else
      let put (b : Body) (f : Tilth → Tilth) : Body := b.count 4 (controllerLoc m).toNat f
      let late (b : Body) : Body :=
        let now := b.tod h
        let ts := ((b.mem.hbm[m]).uncorr ++ [now]).filter fun x => now ≤ x + 1000000000
        let b := b.modMem fun x => { x with hbm := x.hbm.set m { x.hbm[m] with uncorr := ts } }
        if 16 ≤ ts.length then b.failStack m 2 else b
      match o with
      | .clean => b
      | .onDie | .ecc => put b fun t => { t with corr := sat32 t.corr, spec0 := sat32 t.spec0 }
      | .reconstruct => late (put b fun t => { t with uncorr := sat32 t.uncorr, events := sat32 t.events, spec0 := sat32 t.spec0 })
      | .lost =>
        let b := late (put b fun t => { t with uncorr := sat32 t.uncorr })
        if (b.owner l).isSome || (b.l3Has l).isSome then b else b.loseLine l 1) s

/-- A dirty parity line goes back to its stack (R433). -/
def execParityWriteback (m : StackId) (row : Nat) (s : State) : Out :=
  onBody (fun b => b.modMem fun x => { x with parity := x.parity.filter (· != (m, row)) }) s

def execStackFailed (m : StackId) (cause : Byte) (s : State) : Out :=
  onProving (fun b => if b.ctl.mode = .standby || !(cause = 1 || cause = 2) then b else b.failStack m cause.toNat) s

/-! ## Bridge bundles (R16, R439, R452) -/

def bundleLoc (h : HubId) (n : BundleId) : BitVec 16 := hubLoc h (0x34 + n.val)

/-- A bundle is lost: what it carried is reissued on the other one (R16). When it is the second, the halves have lost each other (R439,
R452, R477). In SPLIT the test traffic of a bundle that is down fails. -/
def execBundleLost (n : BundleId) (s : State) : Out :=
  onProving (fun b =>
    if b.ctl.mode = .standby then b
    else if !b.ctl.bundles[n] then
      b.modCtl fun c => { c with bundleTest := c.bundleTest.set n none, bundleReady := c.bundleReady.set n false }
    else
      let b := b.modCtl fun c => { c with bundles := c.bundles.set n false, bundleTest := c.bundleTest.set n none }
      let b := b.report (bundleLoc b.ctl.steering n) 0x0504 (dataOf [(1, n.val)])
      let b := ([0, 1] : List HubId).foldl (fun (b : Body) h =>
        (b.count 8 (bundleLoc h n).toNat Tilth.event).stampUnit 8 (bundleLoc h n)) b
      if b.ctl.mode = .proving then b.coverLate
      else if b.serving && !(b.ctl.bundles[(0 : BundleId)] || b.ctl.bundles[(1 : BundleId)]) && b.ctl.lostHubs.isEmpty then b.enterSplit
      else (b.reissueBridge n).settleMode) s

/-- The lost bundle is retrained; when that succeeds, it runs test traffic (R439, R466). -/
def execBundleRetrain (n : BundleId) (ok : Bool) (s : State) : Out :=
  onBody (fun b =>
    if b.ctl.mode = .standby || b.ctl.bundles[n] || !b.ctl.lostHubs.isEmpty then b
    else
      let now := b.now
      b.modCtl fun c => { c with bundleTest := c.bundleTest.set n
                                                 (if ok then some ((c.bundleTest[n]).getD now) else none) }) s

/-- 10 s of error-free test traffic have passed (R439). In SPLIT the bundle is readmitted by rejoin alone. -/
def execBundleReadmitted (n : BundleId) (s : State) : Out :=
  onBody (fun b =>
    match b.ctl.bundleTest[n] with
    | none => b
    | some t =>
      if b.isSplit || b.ctl.mode = .standby || b.ctl.bundles[n] then b
      else
        let b := b.reach b.ctl.steering (t + 10000000000)
        let b := b.modCtl fun c => { c with bundles := c.bundles.set n true, bundleTest := c.bundleTest.set n none }
        let b := b.report (bundleLoc b.ctl.steering n) 0x0505 (dataOf [(1, n.val)])
        (([0, 1] : List HubId).foldl (fun (b : Body) h => b.stampUnit 8 (bundleLoc h n)) b).settleMode) s

/-! ## Feeds (R440 to R442) -/

def Body.admitted (b : Body) (f : FeedId) : Bool := (b.ctl.feeds[f]).admitted

/-- Both admitted feeds are lost at once: one event. PROVING leaves the outcome to its coverage decision (R448, R476, R477, R521). -/
def Body.loseFeeds (b : Body) (cause : Byte) : Body :=
  let flags := (b.ctl.feeds[(0 : FeedId)]).flagged + (b.ctl.feeds[(1 : FeedId)]).flagged
  let b := (b.modFeed 0 fun x => { x with admitted := false }).modFeed 1 fun x => { x with admitted := false }
  let b := (b.report b.moduleLoc 0x0102 (dataOf [(1, 2), (1, cause.toNat), (2, flags)])).freezeSilt 2
  if b.ctl.mode = .proving then b.coverLate else b.enterStandby false

/-- The admitted feeds that fail are lost. -/
def Body.failFeeds (b : Body) (a c : Bool) (cause : Byte) : Body :=
  let x := a && b.admitted 0
  let y := c && b.admitted 1
  if x && y then b.loseFeeds cause
  else if x then (b.loseFeed 0 cause (b.ctl.feeds[(0 : FeedId)]).flagged).coverLate
  else if y then (b.loseFeed 1 cause (b.ctl.feeds[(1 : FeedId)]).flagged).coverLate
  else b

/-- A 1 ms window of the phase currents ends. A pair flags one phase at most (R440). -/
def execFeedCurrentWindow (flagA flagB : Fin 97) (s : State) : Out :=
  onProving (fun b =>
    if b.ctl.mode = .standby || 96 < flagA.val + flagB.val then b
    else
      let b := (b.modFeed 0 fun x => { x with flagged := flagA.val }).modFeed 1 fun x => { x with flagged := flagB.val }
      b.failFeeds (24 ≤ flagA.val) (24 ≤ flagB.val) 1) s

/-- Feed proving, 60 s after the one before (R441). -/
def execFeedProving (passA passB : Bool) (s : State) : Out :=
  onProving (fun b =>
    if b.ctl.mode = .standby || !b.stewardsUp || !b.admitted 0 || !b.admitted 1 then b
    else
      let b := (b.reach b.ctl.steering (b.ctl.lastProve.toNat + 60000000000)).fedProved
      b.failFeeds (!passA) (!passB) 2) s

/-- A lost feed whose phases have matched for 60 s is proved (R442). -/
def execFeedAdmitted (f : FeedId) (pass : Bool) (s : State) : Out :=
  onBody (fun b =>
    let x := b.ctl.feeds[f]
    if b.ctl.mode = .standby || !x.present || !x.closed || x.admitted then b
    else
      let b := b.fedProved
      if pass then
        ((b.modFeed f fun y => { y with admitted := true }).report b.moduleLoc 0x0103 (dataOf [(1, f.val)])).settleMode
      else (b.report b.moduleLoc 0x0102 (dataOf [(1, f.val), (1, 2), (2, x.flagged)])).freezeSilt 2) s

/-! ## Islands, management ports and the steward bus (R26, R28, R443, R444) -/

/-- A heartbeat, 1 ms after the one before (R443). -/
def execHeartbeat (s : State) : Out :=
  onBody (fun b =>
    if !b.islandUp b.ctl.steering then b
    else
      let b := b.reach b.ctl.steering (b.ctl.lastBeat + 1000000)
      let now := b.now
      b.modCtl fun c => { c with lastBeat := now }) s

/-- An island fails. When it steered and the other one is up, that one takes over (R443). -/
def Body.failIsland (b : Body) (h : HubId) : Body :=
  let o := otherHub h
  let over' := b.ctl.steering = h && b.islandUp o
  let b := (b.closeConns fun _ c => c.port = h).modIsland h fun i => { i with failed := true }
  let b := if over' then
      ((b.modCtl fun c => { c with steering := o }).count 9 (islandLoc o).toNat Tilth.event).stampUnit 9 (islandLoc h)
    else b.stampUnit 9 (islandLoc h)
  b.report (islandLoc h) 0x0105 (dataOf [(1, 0), (1, h.val), (1, bit over' 0)])

/-- The shadow island has had no heartbeat for 5 ms, and most die stewards have heard none (R443). -/
def execIslandTakeover (s : State) : Out :=
  onBody (fun b =>
    if b.isSplit || !b.stewardsUp || !b.islandUp (otherHub b.ctl.steering) then b
    else
      let b := b.reach (otherHub b.ctl.steering) (b.ctl.lastBeat + 5000000)
      (b.failIsland b.ctl.steering).settleMode) s

/-- A management port fails (R444). -/
def execMgmtPortFailed (h : HubId) (s : State) : Out :=
  onBody (fun b =>
    if !(b.ctl.islands[h]).powered || (b.ctl.islands[h]).portFailed then b
    else
      let b := (b.closeConns fun _ c => c.port = h).modIsland h fun i => { i with portFailed := true }
      let b := (b.report (hubLoc h 0x33) 0x0105 (dataOf [(1, 1), (1, h.val)])).stampUnit 9 (hubLoc h 0x33)
      b.settleMode) s

/-- Location code of a die's steward; dies are numbered C0 to C3, HW, HE (R9, R10). -/
def dieStewardLoc (d : Fin 6) : BitVec 16 :=
  if h : d.val < 4 then dieLoc ⟨d.val, h⟩ 0x0D else hubLoc (if d.val = 4 then 0 else 1) 0x36

/-- A link's frames have failed twice on both wire pairs (R26, R28). -/
def Body.failLink (b : Body) (l : StewardLink) : Body :=
  let rec' (b : Body) (loc : BitVec 16) (k : Nat) : Body := b.report loc 0x0106 (dataOf [(1, k), (1, 0), (2, loc.toNat)])
  match l with
  | .cluster c => (rec' (b.modCtl fun k => { k with failedLinks := k.failedLinks ++ [c] }) (clusterLoc c 0x1A) 1).settleMode
  | .nearDie d => rec' (b.modCtl fun k => { k with failedWires := k.failedWires ++ [l] }) (dieStewardLoc d) 2
  | .farDie d => rec' (b.modCtl fun k => { k with failedWires := k.failedWires ++ [l] }) (dieStewardLoc d) 3
  | .island =>
    let b := b.modCtl fun k => { k with islandLink := false }
    let at' : List HubId := if b.isSplit then [0, 1] else [b.ctl.steering]
    let b := at'.foldl (fun b h => rec' b (islandLoc h) 4) b
    let b := at'.foldl (fun b h =>
      b.report (islandLoc h) 0x0105 (dataOf [(1, 2), (1, bit (Config.freeBool b.freeCtr) 0)])) b
    b.spend.settleMode

/-- Can frames run on a link? -/
def Body.linkUp (b : Body) (l : StewardLink) : Bool :=
  match l with
  | .cluster c => b.stewardsUp && !b.ctl.failedLinks.contains c && !b.ctl.lostClusters.contains c
  | .nearDie _ | .farDie _ => b.stewardsUp && !b.ctl.failedWires.contains l
  | .island => b.ctl.islandLink && b.islandUp 0 && b.islandUp 1

/-- A steward-bus frame: the two copies are correct or not, and it may be the repeat (R26). A die steward's frame during a start attempt
opens PROVING (R473). -/
def execStewardFrame (l : StewardLink) (copyA copyB rep : Bool) (s : State) : Out :=
  onBody (fun b =>
    if !b.linkUp l then b
    else if copyA || copyB then
      match l with
      | .nearDie _ | .farDie _ => b.dieReports s.cfg.octets
      | _ => b
    else if rep then b.failLink l
    else b) s

/-- A repaired unit is proved by the steering island (R445). A repaired island shadows it. -/
def execManagementRepaired (u : MgmtUnit) (s : State) : Out :=
  onBody (fun b =>
    if !b.islandUp b.ctl.steering then b
    else match u with
    | .port h =>
      if (b.ctl.islands[h]).portFailed && !b.ctl.lostHubs.contains h then
        ((b.modIsland h fun i => { i with portFailed := false }).stampUnit 9 (hubLoc h 0x33)).settleMode
      else b
    | .islandLink => if b.ctl.islandLink then b else (b.modCtl fun c => { c with islandLink := true }).settleMode
    | .island h =>
      if (b.ctl.islands[h]).failed && !b.ctl.lostHubs.contains h && !b.isSplit then
        let b := (b.modIsland h fun i => { i with failed := false, powered := false }).stampUnit 9 (islandLoc h)
        (if b.sourced h then b.joinIsland h else b).settleMode
      else b) s

/-- A hub's copy has been rebuilt from the other hub (R445). -/
def execHubCopyRebuilt (h : HubId) (c : HubCopy) (s : State) : Out :=
  onBody (fun b =>
    if !b.ctl.hubCopies.contains (h, c) || b.ctl.lostHubs.contains h || b.isSplit then b
    else
      let o := otherHub h
      let b := match c with
        | .journal => b.modIo fun i => { i with journal := i.journal.set h (i.journal[o]) }
        | .keyTable => b.modIo fun i => { i with keys := i.keys.set h (i.keys[o]) }
        | .directory => b
      (b.modCtl fun k => { k with hubCopies := k.hubCopies.filter (· != (h, c)) }).settleMode) s

/-! ## Loss of clusters and dies (R28, R446, R447) -/

/-- What a cluster held is gone: modified lines are lost, its requests and the acknowledgements that it owed count as given. -/
def Body.loseCluster (b : Body) (c : ClusterId) : Body :=
  let b := (strandsOfCluster c).foldl (fun b t => b.haltStrand t 9 (clusterLoc c 0x1A) true) b
  let lines := (b.cluster c).l2
  let b := lines.foldl (fun (b : Body) e => if e.2.st = .m then b.loseLine e.2.line 3 else b) b
  let b := lines.foldl (fun (b : Body) e => b.l2Remove c e.1 e.2 false) b
  let b := (b.modCluster c fun _ => {}).modMem fun m => { m with reqs := m.reqs.filter (·.cluster != c) }
  let b := (coresOf c).foldl (fun (b : Body) k => (b.modCore k fun _ => {}).modUnit k fun u => { u with role := .out }) b
  allStrands.foldl (fun (b : Body) t =>
    match (b.strand t).act with
    | .maint _ left _ _ _ _ => if left.contains c then b.maintAcked t c true else b
    | _ => b) b

/-- 10 ms without a frame from a cluster whose link has failed (R28). -/
def execClusterLost (c : ClusterId) (s : State) : Out :=
  onProving (fun b =>
    if b.ctl.mode = .standby || !b.ctl.failedLinks.contains c || b.ctl.lostClusters.contains c then b
    else
      let b := (b.modCtl fun k => { k with lostClusters := k.lostClusters ++ [c] }).loseCluster c
      let b := (coresOf c).foldl (fun (b : Body) k => b.switchOut k.val) (b.switchOut (144 + c.val))
      let b := (coresOf c).foldl (fun (b : Body) k => (b.report (coreLoc k) 0x0206).stampUnit 1 (coreLoc k)) b
      if b.ctl.mode = .proving then ((coresOf c).foldl (fun (b : Body) k => b.badCore k) b).coverLate
      else b.settleMode) s

/-- The partitions that hold memory in a half that can serve none stop, but for mirrored ones, which continue in the other half
(R446). The supervisor goes on. -/
def Body.stopWithHalf (b : Body) (h : HubId) : Body :=
  let homed (p : Byte) : Bool := p != 0 &&
    match (b.part p).place.toNat with
    | 0 => true
    | 1 => h = 0
    | 2 => h = 1
    | _ => false
  let stops (t : StrandId) : Bool :=
    let p := (b.strand t).part
    homed p || (p != 0 && (b.part p).place = 3 && halfOfStrand t = h)
  let ts := (allStrands.filter fun t => (b.strand t).run = .running || (b.strand t).run = .frozen).filter stops
  let b := b.freezeStrands ts
  let b := ts.foldl (fun b t => b.haltStrand t 10 (strandLoc t) false) b
  b.unbindAll fun _ x => homed x.part

/-- What a compute die held is gone. -/
def Body.loseDie (b : Body) (d : CDieId) : Body :=
  let b := (clustersOfDie d).foldl (fun b c => b.loseCluster c) b
  let b := ((b.die d).l3.filter (·.2.dirty)).foldl (fun (b : Body) e => b.loseLine e.2.line 3) b
  b.modDie d fun x => { x with l3 := [] }

/-- A compute die is lost, or the link that joins it to its hub (R446). -/
def execDieLost (d : CDieId) (s : State) : Out :=
  onProving (fun b =>
    if b.ctl.mode = .standby || b.ctl.lostDies.contains d then b
    else
      let b := b.modCtl fun c => { c with lostDies := c.lostDies ++ [d] }
      if b.ctl.mode = .proving then b.coverLate
      else ((b.loseDie d).stopWithHalf (Sys2Proof.Machine.halfOf d)).settleMode) s

/-- The surviving hub carries on what the lost one served (R447). -/
def Body.inherit (b : Body) (h : HubId) : Body :=
  let b := b.modIo fun i => { i with
    ports := i.ports.map fun e => if portHalf (BitVec.ofNat 8 e.1) = h then (e.1, {}) else e
    jobs := i.jobs.map fun j => match j.st with
                               | .running e => if e.hub = h then { j with st := .rerun } else j
                               | _ => j }
  let b := b.failPaths (fun _ p => portHalf p.port = h) none
  (b.outstanding.filter fun e => (engineOf e.2.engine).1 = h && e.2.st.toNat < 4).foldl (fun (b : Body) e =>
    match b.pickEngine (otherHub h) with
    | (some g, b) => b.takeOver e.1 g h
    | (none, b) => b) b

/-- A hub die is lost: its half stops and the other one serves alone (R447). -/
def execHubLost (h : HubId) (s : State) : Out :=
  onProving (fun b =>
    if b.ctl.mode = .standby || b.ctl.lostHubs.contains h then b
    else
      let b := b.modCtl fun c => { c with lostHubs := c.lostHubs ++ [h], bundles := Vector.replicate 2 false }
      let b := if (b.ctl.islands[h]).failed then b else b.failIsland h
      if b.ctl.mode = .proving then b.coverLate
      else
        let b := ((List.finRange 4).filter fun (d : CDieId) => Sys2Proof.Machine.halfOf d = h).foldl (fun b d => b.loseDie d) b
        ((b.stopWithHalf h).inherit h).settleMode) s

end Sys2Proof.Machine
end

