-- ==== Sys2Proof/Machine/Micro.lean ====
section
/-!
DEFINITION. Customer micro-routines: the micro-word, the checks of the loader, dispatch, commits, sealed spans and the budget
(chapter 9, R118). What an operation code within a class computes is not stated by the spec and is free (log entry 6).
-/

namespace Sys2Proof.Machine

/-! ## Micro-words (R256 to R258) -/

/-- Fields of a core micro-word. -/
structure MicroWord where
  commit : Bool
  opens : Bool
  seq : Nat
  cond : Nat
  target : Nat
  cls : Nat
  uop : Byte
  dst : Nat
  srcA : Nat
  srcB : Nat
  srcC : Nat
  size : Nat
  imm : BitVec 32
  deriving DecidableEq, Repr

def microWord (w : BitVec 160) : MicroWord :=
  let f (lo n : Nat) : Nat := (w.extractLsb' lo n).toNat
  { commit := w.getLsbD 159, opens := w.getLsbD 158, seq := f 156 2, cond := f 151 5, target := f 136 15, cls := f 132 4,
    uop := w.extractLsb' 124 8, dst := f 118 6, srcA := f 112 6, srcB := f 106 6, srcC := f 100 6, size := f 97 3,
    imm := w.extractLsb' 64 32 }

/-- LOAD, STORE, PROBE.L or PROBE.S, 0 to 3. -/
def MicroWord.memOp (m : MicroWord) : Nat := (Config.memUop m.uop).toNat

/-! ## The loader's checks of an X image (R274, R275) -/

/-- An X image: WORDS, the decode entries and the micro-words. -/
structure XImage where
  words : Nat
  entries : List (BitVec 32)
  code : List (BitVec 160)
  deriving DecidableEq, Repr

def xImage (l : List Byte) : XImage :=
  let n := field l 2 2
  { words := n
    entries := (List.range 16).map fun i => BitVec.ofNat 32 (field l (8 + 4 * i) 4)
    code := (List.range n).map fun i => BitVec.ofNat 160 (field l (72 + 20 * i) 20) }

/-- Valid bit, privilege and entry address of a decode entry (R260). -/
def entryValid (e : BitVec 32) : Bool := e.getLsbD 15
def entryPrv (e : BitVec 32) : Nat := (e.extractLsb' 16 2).toNat
def entryAddr (e : BitVec 32) : Nat := (e.extractLsb' 0 15).toNat

/-- Indices of the words to which a word of the image goes; none outside it. -/
def XImage.succ (x : XImage) (i : Nat) : List (Option Nat) :=
  match (x.code[i]?).map microWord with
  | none => []
  | some m =>
    let at' (a : Nat) : Option Nat := if customerBase ≤ a ∧ a < customerBase + x.words then some (a - customerBase) else none
    match m.seq with
    | 0 => [at' (customerBase + i + 1)]
    | 1 => [at' m.target, at' (customerBase + i + 1)]
    | 2 => [at' m.target]
    | _ => []

/-- The words that can be reached from those of a list, without passing through one that `stop` holds for. -/
def XImage.reach (x : XImage) (stop : Nat → Bool) : Nat → List Nat → List Nat
  | 0, seen => seen
  | n + 1, seen =>
    let more := seen.flatMap fun i => if stop i then [] else (x.succ i).filterMap id
    XImage.reach x stop n (seen ++ more).dedup

def XImage.word (x : XImage) (i : Nat) : MicroWord := microWord (x.code.getD i 0)

/-- Index of the first element of `l` with a property. -/
def firstIx {α : Type} (l : List α) (p : α → Bool) : Option Nat := l.findIdx? p

/-- Most STOREs on a path of a sealed span that starts at word `i`; paths end at commits. -/
def XImage.stores (x : XImage) : Nat → Nat → Nat
  | 0, _ => 0
  | n + 1, i =>
    let m := x.word i
    let here := if m.cls = 2 ∧ m.memOp = 1 then 1 else 0
    if m.commit || m.seq = 3 then here
    else here + ((x.succ i).filterMap id).foldl (fun k j => max k (XImage.stores x n j)) 0

/-- Does the sealed span that word `i` opens break R264? -/
def XImage.badSpan (x : XImage) (i : Nat) : Bool :=
  let span := x.reach (fun j => (x.word j).commit) x.words [i]
  let wrong (j : Nat) : Bool :=
    let m := x.word j
    (m.cls = 2 && m.memOp != 1) || m.cls = 3 || (m.opens && j != i) || (m.seq = 3 && !m.commit)
  span.any wrong || 16 < x.stores (x.words + 1) i

/-- Causes that a customer routine may raise (R277). -/
def xCauses : List Nat := [0x01, 0x08, 0x09, 0x0A, 0x0B, 0x0C, 0x13]

/-- The first check that an X image fails, with the index of the first offending entry or word. -/
def xCheck (l : List Byte) : Option (Nat × Nat) :=
  let x := xImage l
  let ixs := List.range x.words
  let words (p : MicroWord → Bool) : Option Nat := firstIx x.code fun w => p (microWord w)
  let entries := (x.entries.filter entryValid).map fun e => entryAddr e - customerBase
  let live := x.reach (fun _ => false) x.words entries.dedup
  let ends (i : Nat) : Bool := (x.reach (fun _ => false) x.words [i]).any fun j => (x.word j).seq = 3
  let plain (i : Nat) : Bool := !(x.word i).commit
  let cyclic (i : Nat) : Bool :=
    plain i && ((x.reach (fun j => !plain j) x.words (((x.succ i).filterMap id).dedup)).contains i)
  if field l 0 2 ≠ 0x5843 ∨ x.words = 0 ∨ 256 < x.words ∨ l.length ≠ 72 + 20 * x.words ∨ field l 4 4 ≠ 0 then some (1, 0)
  else match firstIx x.entries (fun e => (e.extractLsb' 18 14).toNat != 0) with
  | some i => some (1, i)
  | none =>
  match firstIx x.entries (fun e =>
      entryValid e && (entryPrv e = 3 || entryAddr e < customerBase || customerBase + x.words ≤ entryAddr e)) with
  | some i => some (2, i)
  | none =>
  match words (fun m => 5 ≤ m.cls) with
  | some i => some (3, i)
  | none =>
  match words (fun m => 54 ≤ m.dst || 54 ≤ m.srcA || 54 ≤ m.srcB || 54 ≤ m.srcC) with
  | some i => some (4, i)
  | none =>
  match firstIx x.code (fun w => (w.extractLsb' 16 48).toNat != 0 || w.getLsbD 96 || 5 ≤ (microWord w).size) with
  | some i => some (5, i)
  | none =>
  match ixs.find? (fun i => (x.succ i).contains none) with
  | some i => some (6, i)
  | none =>
  match ixs.find? cyclic with
  | some i => some (7, i)
  | none =>
  match ixs.find? (fun i => live.contains i && !ends i) with
  | some i => some (8, i)
  | none =>
  match words (fun m => m.seq = 3 && !m.commit) with
  | some i => some (9, i)
  | none =>
  match ixs.find? (fun i => (x.word i).opens && x.badSpan i) with
  | some i => some (10, i)
  | none =>
  match words (fun m => m.cls = 3 && !xCauses.contains (m.imm.toNat % 256)) with
  | some i => some (11, i)
  | none => none

/-! ## Running a routine (R258 to R265, R277, R278) -/

def Strand.snapshot (s : Strand) : RegSnap :=
  { g := s.g, k := s.k, q := s.q, f := s.f, bank := s.bank, status := s.status, fpstat := s.fpstat }

/-- The instruction that runs: its register fields, its immediate and its address. The rb field lies in bits [22:18], as in the S
format; LI holds part of fn there. -/
structure XInsn where
  rd : Reg
  ra : Reg
  rb : Reg
  imm : BitVec 24
  pc : BitVec 48
  deriving DecidableEq, Repr

/-- Value of a micro-register. -/
def microGet (s : Strand) (m : MicroRun) (x : XInsn) (n : Nat) : W :=
  if n < 32 then s.reg (BitVec.ofNat 5 n)
  else if n < 48 then vget m.temps (n - 32) 0
  else match n with
    | 48 => x.imm.signExtend 64
    | 49 => s.reg x.rd
    | 50 => s.reg x.ra
    | 51 => s.reg x.rb
    | 52 => x.pc.setWidth 64
    | 53 => m.cc.setWidth 64
    | _ => 0

/-- Writes a micro-register; 48 and 52 are read only. -/
def microSet (s : Strand) (m : MicroRun) (x : XInsn) (n : Nat) (v : W) : Strand × MicroRun :=
  if n < 32 then (s.setReg (BitVec.ofNat 5 n) v, m)
  else if n < 48 then (s, { m with temps := vset m.temps (n - 32) v })
  else match n with
    | 49 => (s.setReg x.rd v, m)
    | 50 => (s.setReg x.ra v, m)
    | 51 => (s.setReg x.rb v, m)
    | 53 => (s, { m with cc := v.setWidth 4, wroteCc := true })
    | _ => (s, m)

/-- A micro-condition (R256); that of a reserved code is free. -/
def microCond (c : Nat) (m : MicroRun) (k : Nat) : Bool :=
  match condHolds (BitVec.ofNat 5 c) m.cc with
  | some x => x
  | none =>
    let t0 := vget m.temps 0 0
    match c with
    | 0x10 => t0 = 0
    | 0x11 => t0 != 0
    | 0x12 => t0.getLsbD 63
    | 0x13 => !t0.getLsbD 63
    | _ => Config.freeBool k

/-- Address that follows a word. -/
def microNext (w : MicroWord) (m : MicroRun) (k : Nat) : Nat :=
  match w.seq with
  | 1 => if microCond w.cond m k then w.target else m.pos + 1
  | 2 => w.target
  | _ => m.pos + 1

/-- What a probe pins: the page in which a translated piece lies (R258). -/
def pinOf (wr : Bool) (p : Piece) : Pin :=
  let n := match p.via with | some g => 2 ^ (12 + 9 * g.level.val) | none => 4096
  { first := p.va / n * n, last := p.va / n * n + n - 1, pa := p.pa - p.va % n, slot := p.slot, nol3 := p.nol3, via := p.via, wr := wr }

/-- The pieces of an access that pinned translations cover; none when they do not cover it all. -/
def pinned (b : Body) (pins : List Pin) (wr : Bool) : Nat → Nat → Nat → Option (List Piece)
  | 0, _, _ => none
  | fuel + 1, va, n =>
    if n = 0 then some []
    else match pins.find? fun p => p.first ≤ va && va ≤ p.last && (p.wr || !wr) with
      | none => none
      | some p =>
        let k := min n (p.last + 1 - va)
        let pa := p.pa + (va - p.first)
        (pinned b pins wr fuel (va + k) (n - k)).map fun r =>
          { va := va, pa := pa, len := k, slot := p.slot, nol3 := p.nol3, cls := b.classOf pa, via := p.via } :: r

/-- Outcome of a micro-word's operation. -/
inductive UopRes where
  | ok (b : Body) (m : MicroRun)
  | hold (b : Body)
  | trap (b : Body) (r : TrapReq)

/-- The trap that a customer routine raises; the information of ILLEGAL_INSTRUCTION is that of R71 (R277). -/
def microTrap (cause : Nat) (i0 i1 i2 : W) : TrapReq :=
  if cause = 1 then trapIllegal else { cause := BitVec.ofNat 8 cause, rule := .upK, info0 := i0, info1 := i1, info2 := i2 }

/-- Enters a store of a sealed span: room for it was there when the span began (R264). A line that cannot be had is met when the store
leaves the buffer (R553). -/
def Body.spanStore (b : Body) (t : StrandId) (gs : List Seg) (bs : List Byte) : Body :=
  b.modStrand t fun s => { s with sb := s.sb ++ storeEntries gs bs }

/-- Performs the operation of a word (R257). -/
def Body.microOp (b : Body) (t : StrandId) (x : XInsn) (w : MicroWord) (m : MicroRun) : UopRes :=
  let s := b.strand t
  let a := microGet s m x w.srcA
  let c := microGet s m x w.srcB
  let d := microGet s m x w.srcC
  let cls : Byte := BitVec.ofNat 8 w.cls
  let put (b : Body) (v : W) : UopRes :=
    let r := microSet (b.strand t) m x w.dst v
    let m' := match Config.uopCc cls w.uop [a, c, d] w.imm m.cc with
      | some k => { r.2 with cc := k, wroteCc := true }
      | none => r.2
    .ok (b.setStrand t r.1) m'
  match w.cls with
  | 0 | 1 => put b (Config.uop cls w.uop [a, c, d] w.imm m.cc)
  | 2 =>
    let va := (Config.uop cls w.uop [a, c, d] w.imm m.cc).toNat
    let n := 2 ^ w.size
    let held (wr : Bool) : Option (List Piece) := pinned b m.pins wr 3 va n
    match w.memOp with
    | 0 =>
      match (match held false with | some ps => b.readSegs t (segsOf ps) | none => b.loadVa t needLoad s.dataPrv va n) with
      | .ok b bs => put b (Config.uop 0x12 w.uop [BitVec.ofNat 64 (leNat bs), BitVec.ofNat 64 (leNat (bs.drop 8)), d] w.imm m.cc)
      | .hold b => .hold b
      | .trap b r => .trap b r
    | 1 =>
      let bytes := padTo n (Config.unstated 1 (leBytes 8 a.toNat ++ leBytes 8 c.toNat ++ leBytes 8 d.toNat ++ [w.uop]))
      if m.inSpan then
        match (m.pins.filter (·.wr)).find? fun p => p.first ≤ va && va + n ≤ p.last + 1 with
        | none => .ok b { m with bad := some (m.bad.getD (BitVec.ofNat 64 va)) }
        | some p => .ok (b.spanStore t (segsOf ((pinned b [p] true 3 va n).getD [])) bytes) m
      else match held true with
        | some ps =>
          match b.storeCheck t (segsOf ps) with
          | some r => .trap b r
          | none => match b.bufferStore t (segsOf ps) bytes with
            | some b => .ok b m
            | none => .hold b
        | none =>
          match b.plainStore t needStore s.dataPrv va bytes with
          | .ok b _ => .ok b m
          | .hold b => .hold b
          | .trap b r => .trap b r
    | k =>
      match b.translate t (if k = 2 then needLoad else needStore) s.dataPrv va n with
      | .stop b r => .trap b r
      | .ok b ps => .ok b { m with pins := m.pins ++ ps.map (pinOf (k != 2)) }
  | 3 => .trap b (microTrap (w.imm.toNat % 256) a c d)
  | 4 =>
    let src := [w.srcA, w.srcB, w.srcC].map (BitVec.ofNat 6)
    let r := Config.uopFp w.uop s.f.toList src w.imm (s.fpstat.extractLsb' 0 3) (BitVec.ofNat 6 w.dst)
    .ok (b.setStrand t { s.setFreg r.1 r.2.1 with fpstat := s.fpstat ||| (r.2.2.setWidth 64 <<< 8) }) m
  | _ => .trap b trapIllegal

/-- The temporaries hold nothing that can be relied on (R263). -/
def freeTemps (k : Nat) : Vector W 16 := Vector.ofFn fun i => Config.freeW (k + i.val)

/-- The strand stops at the commit of a span that broke R265. What its strand-check record holds beside the PC is not stated and is free. -/
def Body.sealStop (b : Body) (t : StrandId) (pc : BitVec 48) (addr : W) : Body :=
  let b := b.report (strandLoc t) 0x0202 (dataOf [(2, 0), (6, pc.toNat), (8, addr.toNat)])
  let k := b.freeCtr
  (b.stopStrand t { cause := Config.freeByte k 0, pc := pc, info0 := Config.freeW (k + 1), info1 := Config.freeW (k + 2),
                    info2 := Config.freeW (k + 3) }).spend.spend.spend.spend

/-- Free store-buffer entries for which the span that opens at micro-address `a` waits: one for each of its STOREs (R264). -/
def SlipBank.spanStores (k : SlipBank) (a : Nat) : Nat :=
  let x : XImage := { words := k.code.length, entries := k.entries, code := k.code }
  x.stores (x.words + 1) (a - customerBase)

/-- Runs a routine from its next word on; `fuel` bounds the words. A routine that ends by a trap with which its instruction completes
(R71) writes to CS.STATUS.CC the micro-CC of its last interior commit, when it had written it by then: the spec says only what a
final commit does (log entry 6). -/
def Body.microRun (b : Body) (t : StrandId) (x : XInsn) (bank : SlipBank) (bytes : W) : Nat → MicroRun → Res
  | 0, m => .hold (b.modStrand t fun s => { s with micro := some m })
  | fuel + 1, m =>
    let stay (b : Body) (m : MicroRun) : Res := .hold (b.modStrand t fun s => { s with micro := some m })
    let back (b : Body) (m : MicroRun) : Body := b.modStrand t fun s => { s with micro := some m }.abandon
    if 65536 ≤ m.words ∧ !m.inSpan then
      .hold ((back b m).modStrand t fun s => { s with act := .xBudget bytes })
    else
      match bank.fetch m.pos with
      | none => .trap (back b m) trapIllegal
      | some raw =>
        let w := microWord raw
        if w.opens && !m.inSpan && 16 < (b.strand t).sb.length + bank.spanStores m.pos then stay b m
        else
          let m1 := { m with inSpan := m.inSpan || w.opens }
          match b.microOp t x w m1 with
          | .hold b' => stay b' m1
          | .trap b' r =>
            let b' := back b' m
            if r.cause = 0x0A ∨ r.cause = 0x0C then
              .next (b'.modStrand t fun s => match m.snapCc with | some k => s.setCC k | none => s) r
            else .trap b' r
          | .ok b' m' =>
            let k := b'.freeCtr
            let m' := { m' with words := m.words + 1, pos := microNext w m' k }
            let b' := if w.seq = 1 then b'.spend else b'
            if !w.commit then Body.microRun b' t x bank bytes fuel m'
            else
              match m'.bad with
              | some addr => .hold ((back b' m').sealStop t x.pc addr)
              | none =>
                let cc := if m'.wroteCc then some m'.cc else none
                if w.seq = 3 then
                  .ok (b'.modStrand t fun s => { (match cc with | some k => s.setCC k | none => s) with micro := none }) none
                else
                  let b' := { b' with freeCtr := k + 17 }
                  Body.microRun b' t x bank bytes fuel
                    { m' with snap := (b'.strand t).snapshot, snapCc := cc, temps := freeTemps (k + 1), inSpan := false }

/-- The bank from which a strand runs (R269, R273). -/
def Body.bankOf (b : Body) (t : StrandId) : SlipBank :=
  if b.ctl.coreActive != (b.strand t).oldSlip then b.ctl.slip[1] else b.ctl.slip[0]

/-- Dispatch of an X-instruction (R118, R261), or its next micro-words. -/
def xRes (b : Body) (t : StrandId) (fn : BitVec 4) (rd ra : Reg) (imm : BitVec 24) : Res :=
  let s := b.strand t
  let bank := b.bankOf t
  let e := bank.entries.getD fn.toNat 0
  let bytes := insnBytes (.xInstruction t fn rd ra imm)
  let x : XInsn := { rd := rd, ra := ra, rb := BitVec.ofNat 5 (16 + fn.toNat), imm := imm, pc := s.pc }
  match s.micro with
  | some m => b.microRun t x bank bytes 65600 m
  | none =>
    if !entryValid e then illegal b
    else needPrv b t (entryPrv e) <|
      let k := b.freeCtr
      let b := { b with freeCtr := k + 17 }
      b.microRun t x bank bytes 65600
        { pos := entryAddr e, temps := freeTemps k, cc := BitVec.ofNat 4 (Config.freeNat (k + 16)), wroteCc := false,
          snap := s.snapshot, snapCc := none, pins := [], inSpan := false, bad := none, words := 0 }

/-- X-instruction. One whose routine is in progress goes on with it; its fetch and its boundary lie behind it. -/
def execXInstruction (t : StrandId) (fn : BitVec 4) (rd ra : Reg) (imm : BitVec 24) (s : State) : Out :=
  let i : Instr := .xInstruction t fn rd ra imm
  if (s.body.strand t).run = .running && (s.body.strand t).act = .ready && (s.body.strand t).micro.isSome then
    onBody (fun b => b.settle t 6 (insnBytes i) (xRes b t fn rd ra imm)) s
  else insn t i (fun b => xRes b t fn rd ra imm) false s

/-- A routine that has reached its budget raises ILLEGAL_INSTRUCTION, and the module records X_BUDGET (R278). It has been abandoned, so
an event that is due at the boundary of its instruction comes first (R68). -/
def execXBudget (t : StrandId) (s : State) : Out :=
  onBody (fun b =>
    let u := b.strand t
    match u.run, u.act with
    | .running, .xBudget bytes =>
      let b0 := b.modStrand t fun s => { s with act := .ready }
      match b0.dueFirst t (u.tl = 0) with
      | some b => b
      | none =>
        (b0.report (strandLoc t) 0x0203 (dataOf [(1, bytes.toNat / 2 ^ 18 % 64), (1, 0), (6, u.pc.toNat)])).takeTrap t
          (fillBytes trapIllegal bytes) u.pc
    | _, _ => b) s

end Sys2Proof.Machine
end

