-- ==== Sys2Proof/Machine/Package.lean ====
section
/-!
DEFINITION. The silt log's own events, time of day, reference inputs, pace windows, stack temperature, the test port and the lamps (chapters 19
and 20, R37 to R39).
-/

namespace Sys2Proof.Machine

/-- The DATA bytes that an event code uses, one bit a byte (R521). -/
def siltBytes (code : BitVec 16) : Option Nat :=
  match code.toNat with
  | 0x0101 => some 0x3F
  | 0x0102 => some 0xF
  | 0x0103 => some 1
  | 0x0104 => some 0xFFFF
  | 0x0105 => some 7
  | 0x0106 => some 0xD
  | 0x0107 => some 1
  | 0x0108 => some 0xFF1
  | 0x0109 => some 0xF
  | 0x010A => some 1
  | 0x0201 => some 0xFFFD
  | 0x0202 => some 0xFFFC
  | 0x0203 => some 0xFD
  | 0x0204 => some 1
  | 0x0205 => some 3
  | 0x0206 => some 0
  | 0x0207 => some 0
  | 0x0208 => some 0xF1
  | 0x0209 => some 0xF
  | 0x0301 => some 0xFF01
  | 0x0302 => some 1
  | 0x0303 => some 0xF
  | 0x0304 => some 0xF
  | 0x0401 => some 0xF
  | 0x0402 => some 3
  | 0x0403 => some 0xF
  | 0x0404 => some 0
  | 0x0501 => some 0xF
  | 0x0502 => some 0xF
  | 0x0503 => some 0x1F
  | 0x0504 => some 1
  | 0x0505 => some 1
  | 0x0506 => some 0xFF01
  | 0x0601 => some 3
  | 0x0602 => some 0
  | _ => none

/-- DATA with the bytes that its code does not use at 0 (R518). -/
def maskData (m : Nat) (d : BitVec 128) : BitVec 128 :=
  BitVec.ofNat 128 (leNat ((List.range 16).map fun i => if m.testBit i then d.extractLsb' (8 * i) 8 else 0))

/-- A unit reports an event (R518 to R523). The report of a check-stop, or of the loss of a feed, freezes the log (R522). -/
def execSiltEvent (loc code : BitVec 16) (data : BitVec 128) (s : State) : Out :=
  onBody (fun b =>
    match siltBytes code with
    | none => b
    | some m =>
      if !locValid loc then b
      else
        let b := b.report loc code (maskData m data)
        let hs : List HubId := if b.isSplit then [halfOfLoc loc] else [0, 1]
        if code = 0x0401 then b.freezeSilt 1 hs else if code = 0x0102 then b.freezeSilt 2 hs else b) s

/-- A retained log is in flash (R524). A thaw that waits takes effect, except in FALLOW; in SPLIT the log of the SPLIT freeze thaws by
itself (R525). -/
def execRetainedLogWritten (s : State) : Out :=
  onBody (fun b =>
    let order : List HubId := [b.ctl.steering, otherHub b.ctl.steering]
    match order.find? fun h => (b.ctl.silt[h]).writing.isSome with
    | none => b
    | some h =>
      match (b.ctl.silt[h]).writing with
      | none => b
      | some (tod, trigger, recs) =>
        let hs : List HubId := if b.isSplit then [h] else [0, 1]
        let b := b.modCtl fun c => { c with
          retained := some { tod := tod, trigger := trigger, recs := recs } :: c.retained.take 15
          silt := hs.foldl (fun (v : Vector Silt 2) (k : HubId) => v.set k { v[k] with writing := none }) c.silt }
        if b.ctl.mode = .fallow then b
        else
          match (b.ctl.silt[h]).thaw with
          | some cause => b.thawNow cause hs
          | none => if b.isSplit && (b.ctl.silt[h]).frozen.any (fun f => f.1 = 3) && trigger = 3 then b.thawNow 3 [h] else b) s

/-- The steering island saves CS.TOD, 60 s after its write before (R532). -/
def execTodSave (s : State) : Out :=
  onBody (fun b =>
    if !b.islandUp b.ctl.steering then b
    else
      let b := b.reach b.ctl.steering (b.ctl.lastSave.toNat + 60000000000)
      b.modCtl fun c => { c with savedTod := c.tod[c.steering], lastSave := c.tod[c.steering] }) s

/-- A reference input is lost (R534, R545). -/
def execRefclkLost (h : HubId) (s : State) : Out :=
  onBody (fun b =>
    if !b.ctl.refclk[h] || !(b.ctl.islands[h]).powered then b
    else (b.modCtl fun c => { c with refclk := c.refclk.set h false }).report (islandLoc h) 0x010A (dataOf [(1, h.val)])) s

/-- A reference input has been back for 1 s (R545). When both were absent, what HBM holds is free. -/
def execRefclkReturn (h : HubId) (s : State) : Out :=
  onBody (fun b =>
    if b.ctl.refclk[h] then b
    else
      let both := !b.ctl.refclk[otherHub h]
      let b := b.modCtl fun c => { c with refclk := c.refclk.set h true }
      if both then
        (b.modMem fun m => { m with cells := m.cells.filterMap fun c =>
                                    if memoryEnd ≤ c.1 then some c
                                    else
                                      let v := Config.freeByte b.freeCtr c.1
                                      if v = 0 then none else some (c.1, v) }).spend
      else b) s

/-- A pace window of a domain ends: its record is that of the last complete window (R37, R39). What has happened to the domain since
its record before counts as in the window; a rail is moving until its move ends (R33). -/
def execPaceWindow (d : DomainId) (count : BitVec 32) (temp : BitVec 16) (s : State) : Out :=
  onBody (fun b =>
    let x := b.domain d.val
    let n := b.tod (domainHalf d.val) / 10000
    if n = 0 || !(b.ctl.islands[domainHalf d.val]).powered then b
    else
      let st : Byte := if x.changed || (x.on && (n - 1) * 10000 < x.moveEnd) then 1 else if x.on then 2 else 0
      let r : Pace := { count := if st = 2 then count else 0, rail := x.rail, temp := temp, st := st, window := BitVec.ofNat 16 (n - 1) }
      (b.modCtl fun c => { c with pace := vset c.pace d.val r }).modDomain d.val fun y =>
        { y with changed := false }) s

/-- A stack crosses 85 °C (R551). -/
def execHbmTempThreshold (m : StackId) (above : Bool) (s : State) : Out :=
  onBody (fun b => b.modMem fun x => { x with hbm := x.hbm.set m { x.hbm[m] with refresh2 := above } }) s

/-- Where TMS 1 leads: towards Exit and Update, on to the other column, and from there to reset (IEEE 1149.1; PRESUMED, log entry 32). -/
def Tap.onHigh : Tap → Tap
  | .reset | .selIr => .reset
  | .idle | .updDr | .updIr => .selDr
  | .selDr => .selIr
  | .capDr | .shDr => .ex1Dr
  | .pauDr => .ex2Dr
  | .ex1Dr | .ex2Dr => .updDr
  | .capIr | .shIr => .ex1Ir
  | .pauIr => .ex2Ir
  | .ex1Ir | .ex2Ir => .updIr

/-- Where TMS 0 leads: into a column, to its Shift and Pause states, and to Idle from Reset and Update (IEEE 1149.1; PRESUMED, log entry 32). -/
def Tap.onLow : Tap → Tap
  | .reset | .idle | .updDr | .updIr => .idle
  | .selDr => .capDr
  | .capDr | .shDr | .ex2Dr => .shDr
  | .ex1Dr | .pauDr => .pauDr
  | .selIr => .capIr
  | .capIr | .shIr | .ex2Ir => .shIr
  | .ex1Ir | .pauIr => .pauIr

/-- The TAP controller's next state at a rising edge of TCK. -/
def Tap.next (t : Tap) (tms : Bool) : Tap := if tms then t.onHigh else t.onLow

/-- Is the TAP controller in a state that shifts data to TDO (IEEE 1149.1)? -/
def Tap.shifting (t : Tap) : Bool := t = .shDr || t = .shIr

/-- What the module drives on TDO: none is high impedance, while the port is closed or not shifting (R546, R549). -/
def TestPort.tdoLand (p : TestPort) : Option Bool := if p.isOpen && p.tap.shifting then some p.tdo else none

/-- An edge on TCK (R546). While the test port is closed it is ignored, TRST_N included. TRST_N low resets the TAP controller at once.
TMS is taken at a rising edge; TDO changes at a falling edge. The manual does not lay out the registers that TDI shifts into, so
the bit that comes out is free (log entry 18). -/
def execTck (rising tms _tdi trstN : Bool) (s : State) : Out :=
  onBody (fun b =>
    let p := b.ctl.port
    if !p.isOpen then b
    else if !trstN then b.modCtl fun c => { c with port := { p with tap := .reset } }
    else if rising then b.modCtl fun c => { c with port := { p with tap := p.tap.next tms } }
    else if p.tap.shifting then
      (b.modCtl fun c => { c with port := { p with tdo := Config.freeBool b.freeCtr } }).spend
    else b) s

/-! ## Lamps (R547) -/

/-- A lamp pattern. -/
inductive Lamp where
  | off
  /-- 100 ms on every 4 s. -/
  | blink
  /-- 1 Hz, half on. -/
  | half
  | on
  deriving DecidableEq, Repr

/-- Patterns of LAMP_PWR and LAMP_SVC in a mode. -/
def Mode.lamps : Mode → Lamp × Lamp
  | .standby => (.blink, .off)
  | .proving => (.half, .off)
  | .operating => (.on, .off)
  | .exposed | .split => (.on, .half)
  | .fallow => (.on, .on)

/-- Is a pattern on, `t` nanoseconds after its period began? -/
def Lamp.lit (l : Lamp) (t : Nat) : Bool :=
  match l with
  | .off => false
  | .blink => t % 4000000000 < 100000000
  | .half => t % 1000000000 < 500000000
  | .on => true

/-- The patterns that an island drives on its outputs of the two lands. The steering island orders them and the shadow follows; in
SPLIT each orders its own, and both are those of the mode. An island that is off pulls neither. -/
def Body.lampsOf (b : Body) (h : HubId) : Lamp × Lamp :=
  if b.islandUp h then b.ctl.mode.lamps else (.off, .off)

/-- Is a lamp land low? Either island pulls it. `svc` chooses LAMP_SVC; `t` gives the time since each island's period began. -/
def Body.lampLow (b : Body) (svc : Bool) (t : HubId → Nat) : Bool :=
  ([0, 1] : List HubId).any fun h => (if svc then (b.lampsOf h).2 else (b.lampsOf h).1).lit (t h)

end Sys2Proof.Machine
end

