-- ==== Sys2Proof/Machine/Flelet.lean ====
section
/-!
DEFINITION. The Flelet protocol: connections and sessions, the mailbox, the checks of a request in their order, mode legality, tickets,
and the commands that wait (R489 to R502, R349).
-/

namespace Sys2Proof.Machine

/-! ## Legality (R499) -/

/-- The legality classes of R499, by letter. -/
inductive LClass where | a | b | c | d | e | f | g | h | i | j | k | l
  deriving DecidableEq, Repr

/-- Is a command of a class legal in a mode (R499)? -/
def LClass.legal (x : LClass) (m : Mode) : Bool :=
  match x with
  | .a => true
  | .b => m = .operating || m = .exposed || m = .split
  | .c => m = .operating || m = .exposed
  | .d => m = .operating
  | .e => m = .standby || m = .fallow || m = .operating || m = .exposed
  | .f => m = .split
  | .g => m = .proving || m = .fallow
  | .h => m = .fallow
  | .i => m = .standby
  | .j => m != .standby
  | .k => m = .proving || m = .operating || m = .exposed
  | .l => m != .split

/-! ## Commands and their outcome -/

/-- A request that has passed the checks of its header. -/
structure FReq where
  src : FSource
  role : Role
  /-- The island that performs it. -/
  island : HubId
  params : List Byte
  deriving DecidableEq, Repr

/-- What a command answers. -/
inductive Answer where
  /-- A reply; `rep` is the REPEAT flag of GET_RESULT. Afterwards the connections that `close` names are closed. -/
  | reply (s : State) (status detail : Byte) (params : List Byte) (rep : Bool) (close : Nat → Conn → Bool)
  /-- Accepted as a long command: its effect, given the ticket. -/
  | start (f : BitVec 32 → State → State)
  /-- Its effect and its reply wait (R349, R396). -/
  | wait

/-- A Flelet command: opcode, roles, parameter length, class and effect. -/
structure Cmd where
  op : BitVec 16
  roles : FlashCfg → Role → Bool
  lenOk : List Byte → Bool
  cls : List Byte → LClass
  run : FReq → State → Answer

def noClose (_ : Nat) (_ : Conn) : Bool := false

/-- DONE with parameters. -/
def done (s : State) (params : List Byte) : Answer := .reply s stDone 0 params false noClose
/-- DONE, or PARTIAL when more follows. -/
def doneOr (s : State) (more : Bool) (params : List Byte) : Answer :=
  .reply s (if more then stPartial else stDone) 0 params false noClose
/-- A status without parameters. -/
def only (s : State) (status : Byte) : Answer := .reply s status 0 [] false noClose
/-- The eight parameter bytes of BAD_PARAMETER and BAD_LENGTH (R497). -/
def badParams (offset index : Nat) : List Byte := leBytes 4 offset ++ leBytes 4 index
/-- BAD_PARAMETER naming the first offending parameter byte (R497). -/
def bad (s : State) (offset : Nat) : Answer := .reply s stBadParameter 0 (badParams offset 0) false noClose

/-- Offset that stands for the header (R497). -/
def hdrOffset : Nat := 0xFFFFFFFF

/-- Offset of the first parameter that fails its check. -/
def firstBad : List (Nat × Bool) → Option Nat
  | [] => none
  | (o, ok) :: r => if ok then firstBad r else some o

/-- Reserved bytes, which must be 0 (R503). -/
def zeros (p : List Byte) (lo n : Nat) : List (Nat × Bool) := (List.range n).map fun i => (lo + i, p.getD (lo + i) 0 = 0)

/-- Item 9 of R497, then the rest. -/
def checked (s : State) (checks : List (Nat × Bool)) (k : Answer) : Answer :=
  match firstBad checks with
  | some o => bad s o
  | none => k

def rolesOVS (_ : FlashCfg) (_ : Role) : Bool := true
def rolesOV (_ : FlashCfg) (r : Role) : Bool := r != .mailbox
def rolesO (_ : FlashCfg) (r : Role) : Bool := r = .owner
def rolesS (_ : FlashCfg) (r : Role) : Bool := r = .mailbox
def rolesOS (_ : FlashCfg) (r : Role) : Bool := r != .viewer

/-- A command's parameters are `n` bytes. -/
def lenIs (n : Nat) (p : List Byte) : Bool := p.length = n

def clsIs (x : LClass) (_ : List Byte) : LClass := x

/-! ## Where a request comes from (R489, R493, R494) -/

/-- A request that reaches an island: the island that performs it, and whether that is the shadow island alone (R493). None when no island
has it: the connection or the port is gone, or the island does not serve this mailbox. -/
def Body.receiver (b : Body) (src : FSource) : Option (HubId × Bool) :=
  match src with
  | .conn n =>
    match tGet b.ctl.conns n with
    | none => none
    | some c =>
      let here := b.islandUp c.port && !(b.ctl.islands[c.port]).portFailed
      if !here then none
      else if b.isSplit || c.port = b.ctl.steering then some (c.port, false)
      else if b.ctl.islandLink && b.islandUp b.ctl.steering then some (b.ctl.steering, false)
      else some (c.port, true)
  | .mailbox i _ => if b.serving && b.islandUp i && (b.isSplit || i = b.ctl.steering) then some (i, false) else none

/-- First byte of a mailbox slot (R494). -/
def Body.slotBase (b : Body) (i : HubId) (n : Fin 16) : Nat :=
  (if b.isSplit && i = 1 then eastBase else 0) + 0x100000 + n.val * 0x10000

/-- Bytes of MEMORY read through key slot 0; none when a line is lost (R437, R494). -/
def Body.readSup (b : Body) (pa n : Nat) : Option (List Byte) :=
  let lines := (List.range ((pa + n + 127) / 128 - pa / 128)).map fun i => BitVec.ofNat 45 (pa / 128 + i)
  if lines.any fun l => b.poisoned l || !b.readable l then none
  else some (((lines.flatMap fun l => lineBytes (b.coherent l 0)).drop (pa % 128)).take n)

/-- Writes bytes to MEMORY through key slot 0, line by line; `fuel` bounds the lines. -/
def Body.writeSup (b : Body) (slot : Byte) (pa : Nat) (bs : List Byte) : Nat → Body
  | 0 => b
  | fuel + 1 =>
    if bs.isEmpty then b
    else
      let n := min bs.length (128 - pa % 128)
      Body.writeSup (b.homeStore pa (bs.take n) slot true) slot (pa + n) (bs.drop n) fuel

/-- A reply is sent: on its connection, or into its mailbox slot with STATE written last (R495). -/
def Body.sendReply (b : Body) (src : FSource) (bs : List Byte) : Body :=
  match src with
  | .conn n => if (tGet b.ctl.conns n).isSome then b.modCtl fun c => { c with outbox := c.outbox ++ [(n, bs)] } else b
  | .mailbox i n =>
    if !b.serving then b
    else
      let base := b.slotBase i n
      (b.writeSup 0 (base + 32) bs (bs.length / 128 + 2)).writeSup 0 base (leBytes 8 2) 2

/-- Keeps the reply to a request of a session (R492). -/
def Body.keepReply (b : Body) (src : FSource) (seq : BitVec 32) (bs : List Byte) : Body :=
  match src with
  | .conn n => b.modCtl fun c => { c with conns := tMod c.conns n fun x => { x with replies := ((seq, bs) :: x.replies).take 16 } }
  | .mailbox _ _ => b

/-! ## Switches ordered and not complete (R273) -/

/-- An ordered slip switch completes once every sequencer has changed. -/
def Body.sweepSwitch (b : Body) : Body :=
  match b.ctl.switching with
  | none => b
  | some w =>
    let open' := if w.target = 4 then b.io.chans.toList.any (·.slipOld)
      else allStrands.any fun t => (b.strand t).oldSlip && ((b.strand t).run = .running || (b.strand t).run = .frozen)
    if open' then b else b.endSwitch

/-! ## The checks of a request (R491, R492, R496, R497) -/

/-- Is the role that a SESSION_OPEN asks for open to the client's certificate (R491)? -/
def roleOpen (anchored : Bool) (c : CertKind) (r : Role) : Bool :=
  match c with
  | .session => r = .viewer || (anchored && r = .owner)
  | .viewer => r = .viewer
  | .neither => !anchored && r = .viewer

/-- A number that no open session has: free, but never 0 (R491). -/
def Body.freshSession (b : Body) : BitVec 32 :=
  let used := b.ctl.conns.filterMap fun e => e.2.session.map fun x => x.1
  let k := BitVec.ofNat 32 (Config.freeNat b.freeCtr)
  if k != 0 && !used.contains k then k
  else (((List.range 16).map fun i => BitVec.ofNat 32 (i + 1)).find? fun k => !used.contains k).getD 1

/-- Item 1 of R497. -/
def badLength (p : Packet) : Bool := 65472 < p.plen.toNat || p.plen.toNat != p.params.length || p.reserved != 0

/-- Item 2 of R497; the header fields that a request leaves 0 count with it. -/
def badHeader (p : Packet) : Bool :=
  p.magic != 0x464C || p.version != 1 || p.flags != 0 || p.status != 0 || p.detail != 0 || p.ticket != 0 ||
    p.mode != 0 || p.half != 0 || p.island != 0

/-- A whole reply packet. `b0` is the state in which the request was checked. -/
def replyBytes (b0 : Body) (island : HubId) (op : BitVec 16) (p : Packet) (status detail : Byte) (params : List Byte)
    (rep : Bool) : List Byte :=
  let h := replyHeader b0 island op status detail p.sequence p.session params.length 0
  (if rep then h.set 3 3 else h) ++ params

/-- The commands that a shadow island answers by itself (R493). -/
def localOp (op : BitVec 16) : Bool := op = 0x0103 || op = 0x0206 || op = 0x0501 || op = 0x0401

/-- Items 5 to 10 of R497, the effect and the reply. The second part tells whether the command waits. -/
def performCmd (c : Option Cmd) (op : BitVec 16) (r : FReq) (shadow : Bool) (p : Packet) (s : State) : State × Bool :=
  let b0 := s.body
  let send (s : State) (bs : List Byte) : State :=
    { s with body := (s.body.keepReply r.src p.sequence bs).sendReply r.src bs }
  let plain (status detail : Byte) (params : List Byte) : State × Bool :=
    (send s (replyBytes b0 r.island op p status detail params false), false)
  if shadow && !localOp op then plain stHardwareFault 1 (leBytes 2 (islandLoc b0.ctl.steering).toNat)
  else match c with
  | none => plain stUnknownOpcode 0 []
  | some c =>
    if !c.roles s.cfg r.role then plain stNotAuthorised 0 []
    else if !c.lenOk r.params then plain stBadLength 0 (badParams hdrOffset 0)
    else if !(c.cls r.params).legal b0.ctl.mode then plain stNotInThisMode 0 []
    else match c.run r s with
    | .wait => (s, true)
    | .reply s' status detail params rep close =>
      let s' := send s' (replyBytes b0 r.island op p status detail params rep)
      ({ s' with body := s'.body.closeConns close }, false)
    | .start f =>
      let hdr := replyHeader b0 r.island op stStarted 0 p.sequence p.session 0 (b0.nextTicket r.island)
      match b0.issueTicket r.island r.role op hdr with
      | none => plain stBusy 0 []
      | some b => (send (f (BitVec.ofNat 32 (b0.nextTicket r.island)) { s with body := b }) hdr, false)

/-- Who asks: the role of the session, or the mailbox. -/
def Body.roleOf (b : Body) (src : FSource) : Option Role :=
  match src with
  | .conn n => (tGet b.ctl.conns n).bind fun c => c.session.map (·.2)
  | .mailbox _ _ => some .mailbox

/-- The first packet of a connection (R491). -/
def openFirst (op : BitVec 16) (n : Nat) (island : HubId) (p : Packet) (s : State) : State :=
  let b := s.body
  let out (status : Byte) (params : List Byte) (close : Bool) : State :=
    let b := b.sendReply (.conn n) (replyBytes b island op p status 0 params false)
    { s with body := if close then b.closeConns (fun m _ => m = n) else b }
  if op != 0x0101 || p.session != 0 then out stNotAuthorised [] true
  else if p.params.length != 1 then out stBadLength (badParams hdrOffset 0) false
  else
    let role := p.params.getD 0 0
    if !(role = 1 || role = 2) then out stBadParameter (badParams 0 0) false
    else
      let r : Role := if role = 1 then .owner else .viewer
      match tGet b.ctl.conns n with
      | none => s
      | some c =>
        if !roleOpen s.cfg.anchor.isSome c.cert r then out stNotAuthorised [] false
        else
          let k := b.freshSession
          let reply := replyBytes b island op p stDone 0 (leBytes 4 k.toNat) false
          let b := b.modCtl fun x => { x with
            conns := tPut x.conns n { c with session := some (k, r), maxSeq := p.sequence, replies := [(p.sequence, reply)],
                                             lastPacket := b.now } }
          { s with body := (b.sendReply (.conn n) reply).spend }

/-- Performs a command, or lets it wait behind one that waits. -/
def acceptCmd (c : Option Cmd) (op : BitVec 16) (r : FReq) (shadow : Bool) (p : Packet) (s : State) : State :=
  let queue (s : State) : State :=
    { s with body := s.body.modCtl fun x => { x with genWait := x.genWait ++ [{ src := r.src, opcode := op, packet := p }] } }
  if s.body.ctl.genWait.any (·.src = r.src) then queue s
  else match performCmd c op r shadow p s with
    | (s, true) => queue s
    | (s, false) => s

/-- The reply to a request of the session that waits is still to come (R492). -/
def Body.waitsFor (b : Body) (src : FSource) (seq : BitVec 32) : Bool :=
  b.ctl.genWait.any fun w => w.src = src && w.packet.sequence = seq

/-- The reply that the session of a request has kept (R492). -/
def Body.keptReply (b : Body) (src : FSource) (seq : BitVec 32) : Option (List Byte) :=
  match src with
  | .conn n => ((tGet b.ctl.conns n).bind fun x => x.replies.find? (·.1 = seq)).map (·.2)
  | .mailbox _ _ => none

/-- Items 1 to 4 of R497 for a request that has reached its island. -/
def checkHeader (c : Option Cmd) (op : BitVec 16) (src : FSource) (island : HubId) (shadow : Bool) (p : Packet) (s : State) : State :=
  let b := s.body
  let out (status detail : Byte) (params : List Byte) : State :=
    { s with body := b.sendReply src (replyBytes b island op p status detail params false) }
  if badLength p then
    let s := out stBadLength 0 (badParams hdrOffset 0)
    match src with
    | .conn n => { s with body := s.body.closeConns fun m _ => m = n }
    | .mailbox _ _ => s
  else if badHeader p then out stBadParameter 1 (badParams hdrOffset 0)
  else match src with
  | .mailbox _ _ =>
    if p.session != 0 then out stNotAuthorised 0 []
    else acceptCmd c op { src := src, role := .mailbox, island := island, params := p.params } shadow p s
  | .conn n =>
    match tGet b.ctl.conns n with
    | none => s
    | some x =>
      match x.session with
      | none => openFirst op n island p s
      | some (k, role) =>
        if p.session != k then out stNotAuthorised 0 []
        else match x.replies.find? (·.1 = p.sequence) with
        | some e => { s with body := b.sendReply src (e.2.set 3 3) }
        | none =>
          if b.waitsFor src p.sequence then
            { s with body := b.modCtl fun y => { y with genWait := y.genWait ++ [{ src := src, opcode := op, packet := p }] } }
          else if p.sequence.toNat ≤ x.maxSeq.toNat then out stBadParameter 2 (badParams hdrOffset 0)
          else
            let s := { s with body := b.modCtl fun y => { y with conns := tPut y.conns n { x with maxSeq := p.sequence } } }
            acceptCmd c op { src := src, role := role, island := island, params := p.params } shadow p s

/-- The connection has carried a packet (R491). -/
def Body.touchConn (b : Body) (src : FSource) : Body :=
  match src with
  | .conn n => b.modCtl fun c => { c with conns := tMod c.conns n fun x => { x with lastPacket := b.now } }
  | .mailbox _ _ => b

/-! ## Commands that wait (R349, R396, R492) -/

/-- Performs the commands that waited, in order; those that wait on stay, and so do those behind them. A request that came again while it
waited receives its reply again (R492). -/
def pumpList (cmdOf : BitVec 16 → Option Cmd) : List WaitCmd → List WaitCmd → State → State × List WaitCmd
  | [], kept, s => (s, kept)
  | w :: r, kept, s =>
    if kept.any (·.src = w.src) then pumpList cmdOf r (kept ++ [w]) s
    else match s.body.receiver w.src, s.body.roleOf w.src with
    | some (island, shadow), some role =>
      match s.body.keptReply w.src w.packet.sequence with
      | some bs => pumpList cmdOf r kept { s with body := s.body.sendReply w.src (bs.set 3 3) }
      | none =>
      match performCmd (cmdOf w.opcode) w.opcode { src := w.src, role := role, island := island, params := w.packet.params } shadow
          w.packet s with
      | (s, true) => pumpList cmdOf r (kept ++ [w]) s
      | (s, false) => pumpList cmdOf r kept s
    | _, _ => pumpList cmdOf r kept s

/-- Tries the commands that wait once more. -/
def pump (cmdOf : BitVec 16 → Option Cmd) (s : State) : State :=
  let (s', kept) := pumpList cmdOf s.body.ctl.genWait [] s
  { s' with body := s'.body.modCtl fun c => { c with genWait := kept } }

/-- A request arrives. What an earlier command still has to end is ended first. -/
def request (c : Option Cmd) (op : BitVec 16) (src : FSource) (p : Packet) (s : State) : State :=
  let s := { s with body := s.body.sweepSwitch }
  match s.body.receiver src with
  | none => s
  | some (island, shadow) => checkHeader c op src island shadow p { s with body := s.body.touchConn src }

end Sys2Proof.Machine
end

