-- ==== Sys2Proof/Machine/Reports.lean ====
section
/-!
DEFINITION. The records that Flelet replies carry: unit states, the tilth report, silt and pace records, the attribute map, journal
entries and strand images (R39, R247, R317, R335, R503, R513, R518, R529 to R531).
-/

namespace Sys2Proof.Machine

/-! ## Units and their state (R9, R10, R503) -/

/-- Location codes of the units as a whole, ascending: cores, cluster and die units, engines and ports of the hubs (R503). -/
def inventory : List (BitVec 16) :=
  let clusterUnits (c : ClusterId) : List (BitVec 16) :=
    let n := clusterLoc c 0x18
    -- Core 0 has unit 0; the cluster units share its core and strand bits.
    [coreLoc (coreIn c 0), n, n + 1, n + 2, coreLoc (coreIn c 1), coreLoc (coreIn c 2), coreLoc (coreIn c 3)]
  let dieUnits (d : CDieId) : List (BitVec 16) := ((List.range 14) ++ [0x1F]).map fun u => dieLoc d u
  let dies := (List.finRange 4).flatMap fun d => (clustersOfDie d).flatMap clusterUnits ++ dieUnits d
  let hub (h : HubId) : List (BitVec 16) :=
    ((List.range 0x1A) ++ (List.range 6).map (fun i => 0x20 + h.val * 6 + i) ++ (List.range 7).map (· + 0x30) ++ [0xFF]).map
      fun e => hubLoc h e
  dies ++ hub 0 ++ hub 1

/-- State code of a unit whose domain is `d`: out until PROVING, off, or in service (R503). -/
def Body.domainState (b : Body) (d : Nat) : Nat :=
  let x := b.domain d
  if x.out then 3 else if x.on then 1 else 5

/-- State code of an engine. -/
def Body.serviceState (b : Body) (x : Service) (d : Nat) : Nat :=
  match x with
  | .inService => b.domainState d
  | .suspect | .checkStopped => 4
  | .outUntilProving => 3

/-- A unit of the steward planes, or a die as a whole: out, unpowered or in service. -/
def Body.planeState (b : Body) (lost : Bool) : Nat := if lost then 3 else if b.stewardsUp then 1 else 5

/-- State code of the unit that a location code names (R503). -/
def Body.unitState (b : Body) (loc : BitVec 16) : Nat :=
  let n := loc.toNat
  let die := n / 8192
  let unit := n % 32
  if h : die < 4 then
    let d : CDieId := ⟨die, h⟩
    let cl := n / 512 % 16
    if cl < 9 then
      let c : ClusterId := ⟨(die * 9 + cl) % 36, by omega⟩
      let k : CoreId := coreIn c ⟨n / 128 % 4, by omega⟩
      if unit < 0x18 then (if b.domainState k.val = 1 && (b.ctl.cores[k]).role = .spare then 2 else b.domainState k.val)
      else if unit = 0x1A then b.planeState (b.ctl.lostClusters.contains c || b.ctl.lostDies.contains d)
      else b.domainState (144 + c.val)
    else if unit = 0x1F ∨ unit = 0x0D then b.planeState (b.ctl.lostDies.contains d)
    else if b.ctl.lostDies.contains d then 3
    else if 8 ≤ unit ∧ unit < 12 then
      if (b.mem.hbm[stackOf d ⟨unit % 2, by omega⟩]).failed then 3 else b.domainState (184 + die * 2 + unit % 2)
    else b.domainState (180 + die)
  else
    let h : HubId := if die = 4 then 0 else 1
    let e := n / 32 % 256
    if b.ctl.lostHubs.contains h ∧ e ≠ 0x32 ∧ e ≠ 0x33 then 3
    else if e < 16 then
      let k : Fin 16 := ⟨e % 16, by omega⟩
      b.serviceState (b.chan h k).service (chanDomain h k)
    else if e < 0x1A then
      let r : EngineRef := { pool := if e < 0x14 then .comp else if e < 0x18 then .bulk else .pk, hub := h, n := ⟨e % 4, by omega⟩ }
      b.serviceState (b.eng r).service (engDomain r)
    else if 0x20 ≤ e ∧ e < 0x2C then b.domainState (216 + (e - 0x20))
    else if e = 0x30 ∨ e = 0x31 then
      b.planeState (b.ctl.hubCopies.contains (h, if e = 0x30 then .journal else .directory))
    else if e = 0x32 then (if (b.ctl.islands[h]).failed then 3 else if (b.ctl.islands[h]).powered then 1 else 5)
    else if e = 0x33 then
      (if (b.ctl.islands[h]).failed || (b.ctl.islands[h]).portFailed then 3 else if (b.ctl.islands[h]).powered then 1 else 5)
    else if e = 0x34 ∨ e = 0x35 then
      let s := b.domainState (228 + (e - 0x34))
      if s = 1 && !b.ctl.bundles[(⟨(e - 0x34) % 2, by omega⟩ : BundleId)] then 4 else s
    else b.planeState false

/-! ## The tilth report (R529 to R531) -/

/-- Kind of the record of a unit (R530). -/
def tilthKind (loc : BitVec 16) : Option Nat :=
  let n := loc.toNat
  let die := n / 8192
  let unit := n % 32
  if die < 4 then
    if n / 512 % 16 < 9 then
      if unit = 0 && n / 32 % 4 = 0 then some 1 else if unit = 0x18 then some 2 else none
    else if unit < 8 then some 3
    else if unit < 10 then some 4
    else none
  else
    let e := n / 32 % 256
    if e < 16 then some 5
    else if e < 0x1A then some 6
    else if 0x20 ≤ e ∧ e < 0x2C ∧ 1 ≤ unit ∧ unit ≤ 8 then some 7
    else if e = 0x34 ∨ e = 0x35 then some 8
    else if e = 0x32 ∨ e = 0x33 then some 9
    else none

/-- FEEDS of GET_FEEDS (R505). -/
def Body.feedState (b : Body) : Nat :=
  b.feedBits + (if b.feedBits != 3 && b.ctl.mode != .standby then 4 else 0)

/-- SPEC of a unit's record (R530). Counts that no command of the model carries are free. -/
def Body.tilthSpec (b : Body) (kind : Nat) (loc : BitVec 16) (t : Tilth) : List Byte :=
  let n := loc.toNat
  let k := b.freeCtr
  match kind with
  | 1 =>
    let c : CoreId := coreIn ⟨(n / 8192 * 9 + n / 512 % 16) % 36, by omega⟩ ⟨n / 128 % 4, by omega⟩
    let home := match (b.ctl.cores[c]).spHome with | some x => (clusterLoc x 0x18).toNat | none => 0
    pack [(1, t.spec0.toNat), (1, 0), (2, home), (4, t.spec1.toNat), (4, t.spec2.toNat), (12, 0)]
  | 2 =>
    let x := b.cluster ⟨(n / 8192 * 9 + n / 512 % 16) % 36, by omega⟩
    pack [(1, x.ways.toNat), (1, (x.l2.filter fun e => e.2.locked).length), (22, 0)]
  | 4 =>
    let m : StackId := ⟨(n / 8192 * 2 + n % 2) % 8, by omega⟩
    pack [(1, bit (b.mem.hbm[m]).failed 0), (3, 0), (4, t.spec0.toNat)] ++ (List.range 4).map (fun i => Config.freeByte k (n * 4 + i)) ++
      List.replicate 12 0
  | 5 => pack [(4, t.spec0.toNat), (4, t.spec1.toNat), (16, 0)]
  | 6 => pack [(4, t.spec0.toNat), (20, 0)]
  | 7 =>
    let p : PortId := portId ⟨(n / 32 % 256 - 0x20) % 12, by omega⟩ (n % 32 - 1)
    let x := b.port p
    let funcs : Nat := if (b.octetRec p).mode = 2 then (Config.freeByte k (n * 4)).toNat else 0
    pack [(8, t.spec0.toNat), (4, t.spec1.toNat), (1, x.gen.toNat), (1, x.width.toNat), (1, funcs), (4, t.spec2.toNat),
          (4, t.spec3.toNat), (1, 0)]
  | _ => List.replicate 24 0

/-- A tilth report record (R529). -/
def tilthBytes (loc kind state events : Nat) (t : Tilth) (spec : List Byte) : List Byte :=
  pack [(2, loc), (1, kind), (1, state), (4, t.corr.toNat), (4, t.uncorr.toNat), (4, t.retry.toNat), (4, events),
        (4, t.passed.toNat), (4, t.failed.toNat), (4, 0), (8, t.lastTod.toNat)] ++ spec

/-- The record of a unit; none for a unit that has none (R517, R530). -/
def Body.unitRecord (b : Body) (loc : BitVec 16) : Option (List Byte) :=
  (tilthKind loc).map fun kind =>
    let t := b.tilth kind loc.toNat
    tilthBytes loc.toNat kind (b.unitState loc) t.events.toNat t (b.tilthSpec kind loc t)

/-- The record of the module. What STATE it has is not stated and is free. -/
def Body.moduleRecord (b : Body) : List Byte :=
  let t := b.tilth 0 0
  tilthBytes 0 0 (Config.freeByte b.freeCtr 0x20000).toNat t.events.toNat t
    (pack [(2, bitsOf b.exposedRows), (1, (b.spares 0).length), (1, (b.spares 1).length), (1, b.feedState), (3, 0),
           (4, b.ctl.feedProvings.toNat), (12, 0)])

/-- The record of a partition. Its STATE is free likewise. -/
def Body.partRecord (b : Body) (p : Nat) (x : Partition) : List Byte :=
  tilthBytes p 0x20 (Config.freeByte b.freeCtr (0x20001 + p)).toNat x.refusedLocks.toNat (b.tilth 0x20 p)
    (pack [(4, x.maskOvf.toNat), (20, 0)])

/-- The record of a far-memory pair (R530). COPY is free while a copy runs; STATE, and FSTATE with both members lost, are free. -/
def Body.farRecord (b : Body) (x : FarPair) : List Byte :=
  let base := x.base.toNat
  let loc := portLoc x.portA
  let k := b.freeCtr
  let f (i : Nat) : Nat := (Config.freeByte k (0x20200 + base * 4 + i)).toNat
  let r := b.mem.ranges.find? fun r => r.base = base
  let fstate := match r with
    | none => 0
    | some r => match r.fstate with | 0 => 1 | 1 => 2 | 2 => 3 | _ => f 0
  let reason := match b.ctl.farJudged.find? (·.1 = base) with | some e => e.2.toNat | none => f 1
  tilthBytes loc.toNat 0x0A (f 2) (b.tilth 0x0A loc.toNat).events.toNat (b.tilth 0x0A loc.toNat)
    (pack [(4, base), (1, fstate), (1, reason), (1, if fstate = 3 then f 3 % 101 else 0), (17, 0)])

/-- Puts a keyed record behind those whose key is not greater. -/
def insertKeyed {α : Type} (k : Nat) (x : α) : List (Nat × α) → List (Nat × α)
  | [] => [(k, x)]
  | (j, y) :: r => if k < j then (k, x) :: (j, y) :: r else (j, y) :: insertKeyed k x r

/-- The tilth report, in its order (R531). -/
def Body.tilthReport (b : Body) (pairs : List FarPair) : List (List Byte) :=
  let parts := b.io.parts.map fun e => b.partRecord e.1 e.2
  let whole := inventory.filter fun l => (tilthKind l).isSome
  let ports := b.allPorts.map portLoc
  let units := (whole ++ ports).foldl (fun t l => insertKeyed (l.toNat * 2) ((b.unitRecord l).getD []) t) []
  let all := pairs.foldl (fun t x => insertKeyed ((portLoc x.portA).toNat * 2 + 1) (b.farRecord x) t) units
  b.moduleRecord :: (parts ++ all.map (·.2))

/-! ## Silt and pace records -/

/-- A silt log record (R518). -/
def SiltRec.bytes (r : SiltRec) : List Byte :=
  pack [(8, r.tod.toNat), (2, r.loc.toNat), (2, r.code.toNat), (4, r.seq.toNat), (16, r.data.toNat)]

/-- Place of a SEQ in SEQ order (R519). -/
def seqKey (s : BitVec 32) : Nat := s.toNat % 2147483648 * 2 + s.toNat / 2147483648

/-- LOC of a domain's pace record (R40). -/
def domainLoc (d : Nat) : BitVec 16 :=
  if h : d < 144 then coreLoc ⟨d, h⟩
  else if h : d < 180 then clusterLoc ⟨d - 144, by omega⟩ 0x18
  else if d < 184 then dieLoc ⟨(d - 180) % 4, by omega⟩ 0x0C
  else if d < 192 then controllerLoc ⟨(d - 184) % 8, by omega⟩
  else if d < 200 then hubLoc (domainHalf d) ((d - 192) % 4 * 4)
  else if d < 208 then hubLoc (domainHalf d) (0x10 + (d - 200) % 4)
  else if d < 216 then hubLoc (domainHalf d) (0x14 + (d - 208) % 4)
  else if d < 228 then octetLoc ⟨(d - 216) % 12, by omega⟩
  else if d < 230 then hubLoc 0 (0x34 + (d - 228))
  else hubLoc (domainHalf d) 0x32

/-- A pace record (R39). -/
def Body.paceBytes (b : Body) (d : Nat) : List Byte :=
  let p := vget b.ctl.pace d {}
  pack [(2, (domainLoc d).toNat), (2, d), (4, p.count.toNat), (2, p.rail.toNat), (2, p.temp.toNat), (1, p.st.toNat), (1, 0),
        (2, p.window.toNat)]

/-! ## The physical attribute map (R247) -/

/-- Range of a record, class and half. -/
structure PamRec where
  lo : Nat
  hi : Nat
  cls : Nat
  half : Nat
  deriving DecidableEq, Repr

def PamRec.bytes (r : PamRec) : List Byte := pack [(8, r.lo), (4, (r.hi - r.lo) / 1048576), (1, r.cls), (1, r.half), (2, 0)]

/-- The FAR records in ascending order with the ABSENT spans before them, and the span up to DEVICE. -/
def farPam (lo : Nat) : List PamRec → List PamRec
  | [] => [{ lo := lo, hi := 0x000F000000000000, cls := 0, half := 0xFF }]
  | r :: rs => (if lo < r.lo then [{ lo := lo, hi := r.lo, cls := 0, half := 0xFF }] else []) ++ r :: farPam r.hi rs

/-- The records of READ_PAM. -/
def Body.pam (b : Body) : List PamRec :=
  let far : List PamRec := (b.mem.ranges.foldl (fun t r => insertKeyed r.base r t) []).map fun e =>
    { lo := farBase + e.2.base * gib, hi := farBase + (e.2.base + e.2.size) * gib, cls := 2,
      half := (halfOfOctet (octetOfPort e.2.portA)).val }
  [{ lo := 0, hi := eastBase, cls := 1, half := 0 }, { lo := eastBase, hi := memoryEnd, cls := 1, half := 1 },
   { lo := memoryEnd, hi := spadBase, cls := 0, half := 0xFF }, { lo := spadBase, hi := spadBase + 0x400000, cls := 3, half := 0xFF }] ++
  farPam (spadBase + 0x400000) far ++ [{ lo := 0x000F000000000000, hi := 0x0010000000000000, cls := 4, half := 0xFF }]

/-! ## Journal entries and orphans -/

/-- A journal entry (R317). -/
def JEntry.bytes (e : JEntry) : List Byte :=
  pack [(8, e.txn.toNat), (8, e.tag.toNat), (8, e.program.toNat), (2, e.slice.toNat), (2, e.gen.toNat), (2, e.subch.toNat),
        (1, e.part.toNat), (1, e.st.toNat), (2, e.asid.toNat), (1, e.prio.toNat), (1, e.sflags.toNat), (2, e.stream.toNat),
        (1, if e.st = 1 then 0xFF else e.path.toNat), (1, e.engine.toNat), (2, e.cslice.toNat), (1, e.cdepth.toNat), (1, e.cmode.toNat),
        (2, e.ckcce.toNat), (2, e.recov.toNat), (8, e.ckaddr.toNat), (8, e.ckpos.toNat), (4, e.ckxfer.toNat), (4, e.ckdone.toNat),
        (4, e.ckresid.toNat), (2, e.dups.toNat), (1, e.issued.toNat), (1, e.jflags.toNat), (8, e.acctod.toNat), (4, e.ckseq.toNat),
        (4, e.ringix.toNat)] ++ padTo 32 e.final

/-- An orphan record (R335). -/
def Orphan.bytes (o : Orphan) : List Byte :=
  padTo 32 o.final ++ pack [(2, o.slice.toNat), (2, o.gen.toNat), (1, o.part.toNat), (1, 0), (2, o.asid.toNat), (8, o.tod.toNat)]

/-! ## Strand images (R513) -/

/-- The numbers of the 44 CS registers of an image. -/
def imageRegs : List (BitVec 12) :=
  [0x000, 0x001, 0x002, 0x003, 0x004, 0x011, 0x012, 0x019, 0x01A, 0x01B, 0x01C, 0x021, 0x022, 0x023, 0x024,
   0x029, 0x02A, 0x02B, 0x02C, 0x031, 0x032, 0x033, 0x034, 0x039, 0x03A, 0x03B, 0x03C, 0x041, 0x042, 0x043, 0x044,
   0x050, 0x051, 0x052, 0x058, 0x059, 0x060, 0x061, 0x062, 0x063, 0x06A, 0x079, 0x07A, 0x088]

/-- Words of a register file, 8 bytes each. -/
def words64 (l : List W) : List Byte := l.flatMap fun v => leBytes 8 v.toNat

/-- The image of a strand. -/
def Body.image (b : Body) (t : StrandId) : List Byte :=
  let s := b.strand t
  let slot (n : Nat) : List Byte :=
    words64 ((List.range 8).map fun i => vget s.k (n * 8 + i) 0) ++ words64 ((List.range 8).map fun i => vget s.q (n * 8 + i) 0)
  let cs := imageRegs.flatMap fun n => leBytes 8 (match csReg n with | some r => (b.csRead t r).toNat | none => 0)
  let flags := bit s.fail.isSome 0 + bit s.pend 1 + bit s.check.isSome 2 + bit s.held.isSome 3
  let fail := match s.fail with
    | some r => pack [(8, r.slice.toNat), (8, r.off.toNat), (1, r.kind.toNat), (1, r.loadCause.toNat), (2, s.further.toNat),
                      (2, r.asid.toNat), (1, r.part.toNat), (1, 0)]
    | none => List.replicate 24 0
  let fp := if s.pend then leBytes 8 s.fpAddr.toNat ++ leBytes 8 s.fpKind.toNat else List.replicate 16 0
  let check := match s.check with
    | some c => pack [(8, c.cause.toNat), (8, c.pc.toNat), (8, c.info0.toNat), (8, c.info1.toNat), (8, c.info2.toNat)]
    | none => List.replicate 40 0
  let held := match s.held with
    | some r => pack [(8, r.cause.toNat), (8, r.info0.toNat), (8, r.info1.toNat), (8, r.info2.toNat)]
    | none => List.replicate 32 0
  words64 s.g.toList ++ leBytes 8 s.pc.toNat ++ (List.range 16).flatMap slot ++ (s.f.toList.flatMap fun v => leBytes 16 v.toNat) ++
    words64 s.bank.toList ++ cs ++ leBytes 8 flags ++ fail ++ padTo 16 fp ++ check ++ held ++ List.replicate 488 0

/-- Handler rule of a held event (R60, R71, R554). -/
def heldRule (cause : Byte) : HandlerRule := if cause = 0x12 then .next else .upK

/-- The strand that an image describes, running at TL 0 (R514). FLAGS[2] and the strand check are ignored. The image does not carry the
privilege of the instruction of a pending floating exception (R69): the model takes PRV of the image's CS.STATUS. What an image with a
reserved value in CS.WIN, FPSTAT.RM, WAYMASK or CHKTGT does is not stated: such a field starts at its reset value (log entry 30). -/
def imageStrand (img : List Byte) : Strand :=
  let w (off : Nat) : Nat := field img off 8
  let cs (i : Nat) : Nat := w (0xC40 + 8 * i)
  let ws (off n : Nat) : Vector W n := Vector.ofFn fun i => BitVec.ofNat 64 (w (off + 8 * i.val))
  let copy (i : Nat) : TrapCopy :=
    { cause := BitVec.ofNat 8 (cs (7 + i)), pc := BitVec.ofNat 48 (cs (11 + i)), info0 := BitVec.ofNat 64 (cs (15 + i)),
      info1 := BitVec.ofNat 64 (cs (19 + i)), info2 := BitVec.ofNat 64 (cs (23 + i)), info3 := BitVec.ofNat 64 (cs (27 + i)) }
  let root (i : Nat) : W := BitVec.ofNat 64 (cs i) &&& 0xFFFFFFFFFF001
  let flags := w 0xDA0
  let win : W := BitVec.ofNat 64 (cs 2)
  let whole := win.extractLsb' 0 4 - win.extractLsb' 8 4 != 15#4
  let status : W := BitVec.ofNat 64 (cs 0) &&& 0xF3FC
  let fpstat : W := BitVec.ofNat 64 (cs 1) &&& (if cs 1 % 8 ≤ 4 then 0x1F1F07 else 0x1F1F00)
  { g := ws 0 7
    pc := BitVec.ofNat 48 (w 0x38)
    k := Vector.ofFn fun i => BitVec.ofNat 64 (w (0x40 + i.val / 8 * 128 + i.val % 8 * 8))
    q := Vector.ofFn fun i => BitVec.ofNat 64 (w (0x80 + i.val / 8 * 128 + i.val % 8 * 8))
    f := Vector.ofFn fun i => BitVec.ofNat 128 (field img (0x840 + 16 * i.val) 16)
    bank := ws 0xA40 64
    status := status
    fpstat := if flags.testBit 1 then fpstat ||| 0x1000000 else fpstat
    wcur := if whole then win.extractLsb' 0 4 else 0
    wbase := if whole then win.extractLsb' 8 4 else 0
    spsel := win.extractLsb' 12 4
    lsp := BitVec.ofNat 64 (cs 3) &&& ~~~7#64
    wsp := BitVec.ofNat 64 (cs 4) &&& ~~~7#64
    tvecK := BitVec.ofNat 32 (cs 5 / 65536)
    tvecS := BitVec.ofNat 32 (cs 6 / 65536)
    trapK := copy 0
    trapS := copy 1
    trap1 := copy 2
    trap2 := copy 3
    itbr := root 31
    dtbr := root 32
    s2tbr := root 33
    asid := BitVec.ofNat 16 (cs 34)
    part := BitVec.ofNat 8 (cs 35)
    iob := Vector.ofFn fun i => BitVec.ofNat 13 (cs (36 + i.val))
    waymaskL2 := if cs 40 % 65536 = 0 then 0xFFFF else BitVec.ofNat 16 (cs 40)
    waymaskL3 := if cs 40 / 65536 % 65536 = 0 then 0xFFFF else BitVec.ofNat 16 (cs 40 / 65536)
    tcmpK := BitVec.ofNat 64 (cs 41)
    tcmpS := BitVec.ofNat 64 (cs 42)
    chktgt := if 576 ≤ cs 43 % 1024 ∧ cs 43 % 1024 ≤ 1022 then 0x3FF else BitVec.ofNat 10 (cs 43)
    run := .running
    fail := if flags.testBit 0 then
        some { slice := BitVec.ofNat 13 (w 0xDA8), off := BitVec.ofNat 24 (w 0xDB0), part := BitVec.ofNat 8 (field img 0xDBE 1),
               asid := BitVec.ofNat 16 (field img 0xDBC 2), loadCause := BitVec.ofNat 4 (field img 0xDB9 1),
               kind := BitVec.ofNat 8 (field img 0xDB8 1) }
      else none
    further := if flags.testBit 0 then BitVec.ofNat 16 (field img 0xDBA 2) else 0
    fpAddr := BitVec.ofNat 48 (w 0xDC0)
    fpKind := BitVec.ofNat 64 (w 0xDC8)
    fpPrv := status.extractLsb' 2 2
    held := if flags.testBit 3 then
        some { cause := BitVec.ofNat 8 (w 0xDF8), rule := heldRule (BitVec.ofNat 8 (w 0xDF8)), info0 := BitVec.ofNat 64 (w 0xE00),
               info1 := BitVec.ofNat 64 (w 0xE08), info2 := BitVec.ofNat 64 (w 0xE10) }
      else none }

end Sys2Proof.Machine
end

