-- ==== Sys2Proof/Machine/FleletAdmin.lean ====
section
/-!
DEFINITION. What the Flelet commands of identity, sessions, tickets, mode control, power, health and the silt log do (R490, R491,
R501 to R505, R527 to R531).
-/

namespace Sys2Proof.Machine

/-- Parameter field as a bit vector or a number: `n` bytes at `off`. -/
abbrev pf (p : List Byte) (off n : Nat) : Nat := field p off n

/-- In SPLIT, a command that names a unit of the other half is refused (R493). -/
def Body.otherHalf (b : Body) (i h : HubId) : Bool := b.isSplit && h != i

def withBody (s : State) (f : Body → Body) : State := { s with body := f s.body }
def withCfg (s : State) (f : FlashCfg → FlashCfg) : State := { s with cfg := f s.cfg }

/-! ## Identity, inventory, sessions and tickets (R503) -/

/-- A second SESSION_OPEN on a connection (log entry 10). The first one is `openFirst`. -/
def doSessionOpen (_ : FReq) (s : State) : Answer := bad s 0

def doSessionClose (r : FReq) (s : State) : Answer :=
  .reply s stDone 0 [] false fun n _ => r.src = .conn n

/-- ASCII "KX7144-A" (R503). -/
def partNo : List Byte := [0x4B, 0x58, 0x37, 0x31, 0x34, 0x34, 0x2D, 0x41]

def doGetIdentity (_ : FReq) (s : State) : Answer :=
  let c := s.body.ctl
  done s (padTo 16 partNo ++ padTo 16 Config.serial ++ [1, 1] ++ padTo 6 Config.dieRev ++ leBytes 4 Config.romId.toNat ++
    leBytes 4 c.patchId.toNat ++ leBytes 4 c.xId.toNat ++ List.replicate 12 0)

/-- CURSOR is a record number; what NEXT holds when no record follows is not stated and is free. -/
def doGetInventory (r : FReq) (s : State) : Answer :=
  let b := s.body
  let cur := pf r.params 0 4
  let out := (inventory.drop cur).take 16367
  let more := decide (cur + out.length < inventory.length)
  let next := if more then cur + out.length else Config.freeNat b.freeCtr
  doneOr (withBody s fun b => b.spend) more
    (leBytes 4 next ++ out.flatMap fun l => leBytes 2 l.toNat ++ [BitVec.ofNat 8 (b.unitState l), 0])

/-- Key and signature lengths of an algorithm (R490). -/
def algKey (alg : Byte) : Nat := if alg = 1 then 97 else 1952
def algSig (alg : Byte) : Nat := if alg = 1 then 96 else 3309
def algOk (alg : Byte) : Bool := alg = 1 || alg = 2

def doSetOwnerAnchor (r : FReq) (s : State) : Answer :=
  let p := r.params
  let alg := p.getD 0 0
  let klen := pf p 4 2
  let sig := pf p 6 2
  if p.length != 8 + 3 * klen + sig then .reply s stBadLength 0 (badParams hdrOffset 0) false noClose
  else checked s ([(0, algOk alg)] ++ zeros p 1 3 ++ [(4, decide (klen = algKey alg))]) <|
    let ok := match s.cfg.anchor with
      | none => s.body.ctl.mode = .standby && sig = 0
      | some a =>
        r.role = .owner && sig = algSig a.alg &&
          Config.verifies a.alg a.sign (p.take (8 + 3 * klen)) (p.drop (8 + 3 * klen))
    if !ok then only s stSignatureBad
    else
      let key (i : Nat) : List Byte := (p.drop (8 + i * klen)).take klen
      done (withCfg s fun c => { c with anchor := some { alg := alg, session := key 0, viewer := key 1, sign := key 2 } }) []

/-- SET_MGMT_NET: the port's sessions end (R503). -/
def doSetMgmtNet (r : FReq) (s : State) : Answer :=
  let p := r.params
  let h : HubId := if pf p 0 1 = 0 then 0 else 1
  checked s [(0, pf p 0 1 ≤ 1 && !s.body.otherHalf r.island h), (1, pf p 1 1 < 4), (2, pf p 2 1 ≤ 32), (3, pf p 3 1 ≤ 128)] <|
    .reply (withCfg s fun c => { c with mgmtNet := c.mgmtNet.set h p }) stDone 0 [] false fun _ c => c.port = h

/-- The ticket that a request may see (R501). -/
def Body.ticketFor (b : Body) (r : FReq) : Option Ticket :=
  b.ctl.tickets.find? fun t => t.num.toNat = pf r.params 0 4 && t.role = r.role && t.heldBy r.island

/-- Percentage done of a running command is not stated and is free (R502). -/
def doGetResult (r : FReq) (s : State) : Answer :=
  let b := s.body
  match b.ticketFor r with
  | none => only s stTicketUnknown
  | some t =>
    match t.result with
    | none =>
      if t.opcode = 0x0201 ∨ t.opcode = 0x0204 then .reply s stNotReady 0 (leBytes 4 b.ctl.step) false noClose
      else .reply (withBody s fun b => b.spend) stNotReady 0 (leBytes 4 (Config.freeNat b.freeCtr % 100)) false noClose
    | some res =>
      .reply (withBody s fun b => b.modCtl fun c => { c with
        tickets := c.tickets.map fun x => if x.num = t.num then { x with read := true } else x }) stDone 0 res t.read noClose

def doReleaseResult (r : FReq) (s : State) : Answer :=
  match s.body.ticketFor r with
  | none => only s stTicketUnknown
  | some t =>
    if t.result.isNone then only s stBusy
    else done (withBody s fun b => b.modCtl fun c => { c with tickets := ticketLeaves s.body.isSplit r.island t c.tickets }) []

/-! ## Mode control (R469, R504) -/

def doPowerOn (_ : FReq) (_ : State) : Answer :=
  .start fun t s => withBody s fun b =>
    (b.modCtl fun c => { c with offHold := false, startTickets := c.startTickets ++ [t] }).startAttempt

/-- CONFIRM is looked at in the modes in which strands run. -/
def doPowerOff (r : FReq) (s : State) : Answer :=
  if s.body.serving && r.params.getD 0 0 != 1 then bad s 0
  else done (withBody s fun b => b.leave s.cfg fun b => b.enterStandby true) []

def doEnterFallow (_ : FReq) (_ : State) : Answer := .start fun _ s =>
  withBody s fun b => b.leave s.cfg fun b => b.enterFallow 10 0xFFFF

def doProve (_ : FReq) (_ : State) : Answer :=
  .start fun t s => withBody s fun b =>
    (b.modCtl fun c => { c with startTickets := c.startTickets ++ [t] }).enterProving s.cfg.octets

def doSetAutostart (r : FReq) (s : State) : Answer :=
  checked s [(0, pf r.params 0 1 ≤ 1)] <| done (withCfg s fun c => { c with autostart := pf r.params 0 1 = 1 }) []

/-- LOC outside FALLOW is not stated and is free. -/
def doGetMode (r : FReq) (s : State) : Answer :=
  let b := s.body
  let c := b.ctl
  let fallow := decide (c.mode = .fallow)
  let loc := if fallow then c.reasonLoc.toNat else Config.freeNat b.freeCtr
  done (withBody s fun b => b.spend)
    (pack [(1, modeCode c.mode), (1, halfCode (b.halfOf r.island)), (1, if fallow then c.reason.toNat else 0),
           (1, if c.mode = .proving then c.step else 0), (2, loc), (1, b.feedBits), (1, 0)])

def doSetPreferredHalf (r : FReq) (s : State) : Answer :=
  checked s [(0, pf r.params 0 1 ≤ 1)] <| done (withCfg s fun c => { c with preferred := if pf r.params 0 1 = 0 then 0 else 1 }) []

/-- REJOIN, and step 1 of R467 (R466). -/
def doRejoin (r : FReq) (s : State) : Answer :=
  let c := s.body.ctl
  let mine := (c.halves[r.island]).half
  let other := (c.halves[otherHub r.island]).half
  if c.rejoin.isSome || !(c.bundleReady[(0 : BundleId)] || c.bundleReady[(1 : BundleId)]) then only s stBusy
  else if mine = .fenced && other = .lead then bad s hdrOffset
  else if mine != .lead && r.island != s.cfg.preferred then bad s hdrOffset
  else .start fun t s => withBody s fun b =>
    let up := ([0, 1] : List BundleId).filter fun n => b.ctl.bundleReady[n]
    let b := b.modCtl fun c => { c with
      rejoin := some (t, r.island)
      bundles := up.foldl (fun (v : Vector Bool 2) (n : BundleId) => v.set n true) c.bundles
      bundleTest := up.foldl (fun (v : Vector (Option Nat) 2) (n : BundleId) => v.set n none) c.bundleTest }
    let b := up.foldl (fun (b : Body) (n : BundleId) => b.report (bundleLoc r.island n) 0x0505 (dataOf [(1, n.val)])) b
    b.report (islandLoc r.island) 0x0602

/-- Does a partition exist (R510)? -/
def Body.partExists (b : Body) (p : Nat) : Bool := (tGet b.io.parts p).isSome

/-- SET_PLACEMENT. Leaving MIRRORED_SPANNED, or entering it, changes what the twin range is (R449, R450). -/
def doSetPlacement (r : FReq) (s : State) : Answer :=
  let p := r.params
  let part := pf p 0 1
  let place := pf p 1 1
  let mbase := pf p 4 2
  let msize := pf p 6 2
  let mir := decide (place = 3)
  let others := s.body.io.parts.filter fun e => e.1 != part && (e.2.place = 3 || e.2.copying.isSome)
  let overlaps := others.any fun e => mbase < e.2.mbase.toNat + e.2.msize.toNat && e.2.mbase.toNat < mbase + msize
  checked s ([(0, 1 ≤ part && s.body.partExists part), (1, place ≤ 3)] ++ zeros p 2 2 ++
      [(4, if mir then mbase ≤ 143 && !overlaps else mbase = 0), (6, if mir then 1 ≤ msize && mbase + msize ≤ 144 else msize = 0)] ++
      zeros p 8 8) <|
    if (s.body.part (BitVec.ofNat 8 part)).copying.isSome then only s stBusy
    else
      let put (x : Partition) (t : Option (BitVec 32)) : Partition :=
        { x with place := if mir then 0 else BitVec.ofNat 8 place, mbase := BitVec.ofNat 16 mbase, msize := BitVec.ofNat 16 msize,
                 copying := t }
      if mir then .start fun t s => withBody s fun b => b.modIo fun i => { i with parts := tMod i.parts part fun x => put x (some t) }
      else done (withBody s fun b => b.modIo fun i => { i with parts := tMod i.parts part fun x => put x none }) []

/-! ## Power and health (R34, R39, R486, R505) -/

def doGetFeeds (_ : FReq) (s : State) : Answer :=
  let c := s.body.ctl
  done s (pack [(1, s.body.feedState), (1, (c.feeds[(0 : FeedId)]).flagged), (1, (c.feeds[(1 : FeedId)]).flagged), (5, 0),
                (8, c.lastProve.toNat)])

/-- Every setpoint that lies outside new limits is clamped at once (R34). -/
def doSetRailLimits (r : FReq) (s : State) : Answer :=
  let p := r.params
  let first := pf p 0 2
  let last := pf p 2 2
  let lo := pf p 4 2
  let hi := pf p 6 2
  checked s [(0, first ≤ 231), (2, first ≤ last && last ≤ 231), (4, lo % 5 = 0 && 650 ≤ lo && lo ≤ 950),
      (6, hi % 5 = 0 && lo ≤ hi && hi ≤ 950)] <|
    let inside (d : Nat) : Bool := first ≤ d && d ≤ last
    let cfg : FlashCfg := { s.cfg with
      floor := Vector.ofFn fun d => if inside d.val then BitVec.ofNat 16 lo else s.cfg.floor[d]
      ceil := Vector.ofFn fun d => if inside d.val then BitVec.ofNat 16 hi else s.cfg.ceil[d] }
    let ds := (List.range 232).filter inside
    done { s with cfg := cfg, body := ds.foldl (fun (b : Body) d => b.setRail d (clampRail cfg d (b.domain d).rail.toNat)) s.body } []

/-- SET_RAIL replies the setpoint applied. -/
def doSetRail (r : FReq) (s : State) : Answer :=
  let d := pf r.params 0 2
  let mv := pf r.params 2 2
  checked s [(0, d ≤ 231 && !s.body.otherHalf r.island (domainHalf d)), (2, mv % 5 = 0)] <|
    let v := clampRail s.cfg d mv
    done (withBody s fun b => b.setRail d v) (leBytes 2 v.toNat)

/-- A domain that is switched off loses its state (R486). What a modified line of an L2 comes to is free. -/
def Body.clearDomain (b : Body) (d : Nat) : Body :=
  if h : d < 144 then
    let c : CoreId := ⟨d, h⟩
    let b := b.modCore c fun k => { inval := k.inval }
    (strandsOfCore c).foldl (fun b t => b.setStrand t { checkSrc := (b.strand t).checkSrc }) b
  else if h : d < 180 then
    let c : ClusterId := ⟨d - 144, by omega⟩
    let b := if Config.freeBool b.freeCtr then b.cleanL2 c else b
    ((b.cluster c).l2.foldl (fun b e => b.l2Remove c e.1 e.2 false) b.spend).modCluster c fun _ => {}
  else b

/-- Switches a domain for SET_DOMAIN or DIAG_DOMAIN. -/
def Body.setDomain (b : Body) (d : Nat) (on : Bool) : Body :=
  if on then b.switch d true else (b.clearDomain d).switch d false

/-- Why SET_DOMAIN cannot switch a domain (R486): none when it can, BUSY, or a parameter that is refused. -/
def Body.domainBusy (b : Body) (d : Nat) : Option Byte :=
  let idle (t : StrandId) : Bool := (b.strand t).run = .stopped || (b.strand t).run = .neverStarted
  if (b.domain d).out then some stBadParameter
  else if h : d < 144 then
    let c : CoreId := ⟨d, h⟩
    if (b.ctl.cores[c]).role != .assignable then some stBadParameter
    else if (strandsOfCore c).all idle then none else some stBusy
  else if h : d < 180 then
    let c : ClusterId := ⟨d - 144, by omega⟩
    if (coresOf c).all (fun k => (b.ctl.cores[k]).role = .assignable && !(b.domain k.val).on) && (b.cluster c).ways = 0 then none
    else some stBusy
  else if 200 ≤ d ∧ d < 216 then
    let all := ([0, 1] : List HubId).flatMap fun h => enginesOf h .comp ++ enginesOf h .bulk ++ enginesOf h .pk
    let busy (e : EngineRef) : Bool := b.io.jobs.any fun j => j.st = .running e
    if (all.filter fun e => engDomain e = d).any busy then some stBusy else none
  else some stBadParameter

/-- SET_DOMAIN. A core that is switched on runs a self-test; one that fails it is declared failing. -/
def doSetDomain (r : FReq) (s : State) : Answer :=
  let p := r.params
  let d := pf p 0 2
  let b := s.body
  let why := b.domainBusy d
  checked s ([(0, d ≤ 231 && !b.otherHalf r.island (domainHalf d) && why != some stBadParameter), (2, pf p 2 1 ≤ 1)] ++ zeros p 3 1) <|
    if why.isSome then only s stBusy
    else
      let on := decide (pf p 2 1 = 1)
      let b' := b.setDomain d on
      let b' := if h : d < 144 then
          if on && !(b.domain d).on then
            (if Config.selfTest b.freeCtr d then b'.spend else b'.spend.coreFailing ⟨d, h⟩ 3)
          else b'
        else b'
      done { s with body := b' } []

/-- FIRST and COUNT of a range of domains (R505). -/
def rangeChecks (p : List Byte) : List (Nat × Bool) :=
  [(0, decide (pf p 0 2 ≤ 231)), (2, 1 ≤ pf p 2 2 && pf p 0 2 + pf p 2 2 ≤ 232)]

def rangeOf (p : List Byte) : List Nat := (List.range (pf p 2 2)).map (· + pf p 0 2)

def doGetDomains (r : FReq) (s : State) : Answer :=
  let code (d : Nat) : Byte := let x := s.body.domain d; if x.out then 2 else if x.on then 1 else 0
  checked s (rangeChecks r.params ++
    [(0, !(rangeOf r.params).any fun d => s.body.otherHalf r.island (domainHalf d))]) <| done s ((rangeOf r.params).map code)

def doGetPace (r : FReq) (s : State) : Answer :=
  checked s (rangeChecks r.params ++
    [(0, !(rangeOf r.params).any fun d => s.body.otherHalf r.island (domainHalf d))]) <| done s ((rangeOf r.params).flatMap s.body.paceBytes)

def doGetTilth (r : FReq) (s : State) : Answer :=
  let recs := s.body.tilthReport s.cfg.farPairs
  let cur := pf r.params 0 4
  let out := (recs.drop cur).take 1022
  let more := decide (cur + out.length < recs.length)
  doneOr (withBody s fun b => b.spend) more
    (pack [(4, if more then cur + out.length else 0xFFFFFFFF), (2, out.length), (2, 0)] ++ out.flatten)

/-! ## The silt log (R522 to R528) -/

/-- The islands whose logs a command reaches: in SPLIT the one that performs it. -/
def Body.siltOf (b : Body) (i : HubId) : List HubId := if b.isSplit then [i] else [0, 1]

def doReadSilt (r : FReq) (s : State) : Answer :=
  let p := r.params
  let max' := pf p 2 2
  let cur := pf p 4 4
  checked s ([(0, decide (pf p 0 1 ≤ 1))] ++ zeros p 1 1 ++ [(2, 1 ≤ max' && max' ≤ 2045)]) <|
    let g := s.body.ctl.silt[r.island]
    let recs := if pf p 0 1 = 0 then g.ring else g.post
    let c : BitVec 32 := BitVec.ofNat 32 cur
    let above := cur != 0 && recs.all fun x => seqKey x.seq < seqKey c
    let start := if cur = 0 then 0 else match recs.findIdx? (fun x => x.seq = c) with
      | some i => i
      | none => if above then recs.length else 0
    let held := recs.any fun x => x.seq = c
    -- Overwritten records have the counts just below the first one held.
    let firstSeq := (recs.head?.map fun x => x.seq.toNat % 2147483648).getD 0
    let skipped := if pf p 0 1 = 0 && cur != 0 && !held && !above then
        min g.overwritten (firstSeq - cur % 2147483648)
      else 0
    let out := (recs.drop start).take max'
    let next := recs[start + out.length]?
    doneOr s next.isSome
      (pack [(4, (next.map fun x => x.seq.toNat).getD 0), (2, out.length), (1, bit g.frozen.isSome 0),
             (1, match g.frozen with | some f => f.1.toNat | none => 0), (8, match g.frozen with | some f => f.2.toNat | none => 0),
             (4, g.lost.toNat), (4, skipped), (8, 0)] ++ out.flatMap SiltRec.bytes)

def doFreezeSilt (r : FReq) (s : State) : Answer := done (withBody s fun b => b.freezeSilt 5 (b.siltOf r.island)) []

def doThawSilt (r : FReq) (s : State) : Answer :=
  if s.body.ctl.mode = .fallow then only s stBusy
  else done (withBody s fun b => b.thawSilt 1 (b.siltOf r.island)) []

/-- NEXT is a record number; with none left it is free. -/
def doReadRetained (r : FReq) (s : State) : Answer :=
  let p := r.params
  let log := (s.body.ctl.retained[pf p 0 1]?).join
  checked s ([(0, log.isSome)] ++ zeros p 1 3 ++ [(4, decide (pf p 4 4 ≤ 65535))]) <|
    match log with
    | none => bad s 0
    | some g =>
      let out := (g.recs.drop (pf p 4 4)).take 2045
      let more := decide (pf p 4 4 + out.length < g.recs.length)
      let next := if more then pf p 4 4 + out.length else Config.freeNat s.body.freeCtr
      doneOr (withBody s fun b => b.spend) more
        (pack [(8, g.tod.toNat), (1, g.trigger.toNat), (3, 0), (4, next), (2, out.length), (14, 0)] ++ out.flatMap SiltRec.bytes)

def doClearRetained (r : FReq) (s : State) : Answer :=
  let p := r.params
  let i := pf p 0 1
  checked s ([(0, i ≤ 15 || i = 0xFF)] ++ zeros p 1 3) <|
    if s.body.ctl.silt.toList.any fun g => g.writing.isSome then only s stBusy
    else done (withBody s fun b => b.modCtl fun c => { c with
      retained := if i = 0xFF then c.retained.map fun _ => none else c.retained.set i none }) []

end Sys2Proof.Machine
end

