-- ==== Sys2Proof/Machine/FleletImages.lean ====
section
/-! DEFINITION. Flelet's firmware commands: staging, commit, slots, and the switch of slip banks (R269 to R275, R506 to R508). -/

namespace Sys2Proof.Machine

/-- Class of a firmware command by its TARGET (R506). -/
def imageClass (p : List Byte) : LClass := if 3 ≤ pf p 0 1 ∧ pf p 0 1 ≤ 5 then .d else .e

/-- The connection that a request came on; the mailbox has none of these commands. -/
def FReq.connNo (r : FReq) : Nat := match r.src with | .conn n => n | .mailbox _ _ => 0

def beginLen (p : List Byte) : Bool := 40 ≤ p.length && p.length = 40 + pf p 2 2

/-- LENGTH of an image (R507). -/
def imageLenOk (target len : Nat) : Bool :=
  match target with
  | 1 | 2 => 65 ≤ len && len ≤ 0x10000000
  | 5 => 92 ≤ len && len ≤ 72 + 20 * 256 && (len - 72) % 20 = 0
  | _ => true

def slotOf (target : Nat) : Fin 2 := if target = 1 then 0 else 1

/-- Is a staging area held by another session (R507)? -/
def Body.stagedByOther (b : Body) (target n : Nat) : Bool :=
  match tGet b.ctl.staging target with | some x => x.conn != n | none => false

def Body.putStaging (b : Body) (target : Nat) (x : Staging) : Body := b.modCtl fun c => { c with staging := tPut c.staging target x }
def Body.dropStaging (b : Body) (target : Nat) : Body := b.modCtl fun c => { c with staging := tDel c.staging target }

def doImageBegin (r : FReq) (s : State) : Answer :=
  let p := r.params
  let t := pf p 0 1
  let slotT := decide (t = 1 ∨ t = 2)
  checked s [(0, 1 ≤ t && t ≤ 5 && !(slotT && slotOf t = s.cfg.active)), (1, algOk (p.getD 1 0)), (2, pf p 2 2 = algSig (p.getD 1 0)),
      (4, imageLenOk t (pf p 4 4))] <|
    if s.body.stagedByOther t r.connNo then only s stBusy
    else
      let s := if slotT then
          withCfg s fun c => { c with slots := c.slots.set (slotOf t) { c.slots[slotOf t] with valid := false } }
        else s
      done (withBody s fun b => b.putStaging t
        { conn := r.connNo, alg := p.getD 1 0, length := pf p 4 4, keyid := (p.drop 8).take 32, sig := p.drop 40, data := [],
          lastData := b.now }) []

/-- The bytes written so far, with a new piece over them. -/
def overlay (cells : List Host.Cell) (off : Nat) (bs : List Byte) : List Host.Cell :=
  cells.filter (fun c => c.1 < off) ++ (bs.zipIdx.map fun e => (off + e.2, e.1)) ++ cells.filter (fun c => off + bs.length ≤ c.1)

def doImageData (r : FReq) (s : State) : Answer :=
  let p := r.params
  let t := pf p 0 1
  match tGet s.body.ctl.staging t with
  | none => bad s 0
  | some x =>
    checked s (zeros p 1 3 ++ [(4, decide (pf p 4 4 + (p.length - 8) ≤ x.length))]) <|
      if x.conn != r.connNo then only s stBusy
      else done (withBody s fun b => b.putStaging t { x with data := overlay x.data (pf p 4 4) (p.drop 8), lastData := b.now }) []

/-- Item 2 of R508. The signature covers a digest of TARGET, three zero bytes, LENGTH and the image (R507). -/
def sigOk (anchor : Option Anchor) (t : Nat) (x : Staging) (img : List Byte) : Bool :=
  let msg := pack [(1, t), (3, 0), (4, x.length)] ++ img
  let ok (key : List Byte) : Bool := x.keyid = sha256 key && Config.verifies x.alg key msg x.sig
  if t = 3 ∨ t = 4 then ok (Config.patchKey x.alg)
  else match anchor with
    | some a => ok a.sign
    | none => false

/-- The supervisor image in a slot (R479). -/
def imageSlot (img : List Byte) : ImageSlot :=
  { valid := true, load := BitVec.ofNat 64 (field img 8 8), entry := BitVec.ofNat 64 (field img 16 8),
    tvec := BitVec.ofNat 64 (field img 24 8), seq := BitVec.ofNat 64 (field img 32 8), body := img.drop 64 }

/-- Item 3 of R508 for a supervisor image. -/
def slotImageOk (img : List Byte) (floor : BitVec 64) : Bool :=
  field img 0 2 = 0x5356 && field img 2 2 = 0 && field img 4 4 + 64 = img.length && field img 40 24 = 0 && (imageSlot img).ok floor

/-- The core whose sequencer cannot take a load (R272). -/
def Body.slipRefuser (b : Body) : Option CoreId :=
  allCores.find? fun c =>
    ((b.ctl.cores[c]).role = .assignable || (b.ctl.cores[c]).role = .spare) && !Config.slipTakes b.freeCtr c.val

/-- The channel engine whose sequencer cannot take a load (R272). -/
def Body.engineRefuser (b : Body) : Option (HubId × Fin 16) :=
  (([0, 1] : List HubId).flatMap fun h => (List.finRange 16).map fun n => (h, n)).find? fun e =>
    (b.chan e.1 e.2).service != .outUntilProving && !Config.slipTakes b.freeCtr (144 + (chanIx e.1 e.2).val)

/-- The steering island orders the switch of the core sequencers: a strand between two instructions, or in WAIT, changes at once (R273). -/
def Body.switchCores (b : Body) (bank : SlipBank) : Body :=
  let shadow : Fin 2 := if b.ctl.coreActive then 0 else 1
  let b := b.modCtl fun c => { c with slip := c.slip.set shadow bank, coreActive := !c.coreActive }
  b.mapStrands fun _ s =>
    let mid := s.micro.isSome || !(s.act = .ready || s.act = .waiting)
    { s with oldSlip := (s.run = .running || s.run = .frozen) && mid }

/-- The same of the channel-engine sequencers: an engine at a point where it changes banks does so at once (R273). -/
def Body.switchEngines (b : Body) (bank : EngineBank) : Body :=
  let shadow : Fin 2 := if b.ctl.engActive then 0 else 1
  let b := b.modCtl fun c => { c with engSlip := c.engSlip.set shadow bank, engActive := !c.engActive }
  b.modIo fun i => { i with chans := i.chans.map fun g => { g with slipOld := g.service = Service.inService : ChanEng }.settleSlip }

/-- What a bank becomes by a load: a patch keeps the customer area and the X decode entries, an X load keeps the patch area and the match
registers (R271). The loader computes the check bits of every word (R256). -/
def SlipBank.patched (k : SlipBank) (img : List Byte) : SlipBank :=
  { k with patch := (Config.corePatch img).1.map withCoreEcc, matchRegs := (Config.corePatch img).2 }
def SlipBank.extended (k : SlipBank) (x : XImage) : SlipBank := { k with entries := x.entries, code := x.code.map withCoreEcc }
def EngineBank.ofImage (img : List Byte) : EngineBank :=
  { words := (Config.enginePatch img).1.map withEngineEcc, matchRegs := (Config.enginePatch img).2 }

/-- Targets 3 to 5: the shadow banks are written and the switch is ordered (R271 to R273, R508). A core that cannot be written is failing;
of an engine the spec says only that the ticket reports it (log entry 26). -/
def Body.loadBanks (b : Body) (t : Nat) (img : List Byte) (ticket : BitVec 32) : Body :=
  let active : SlipBank := if b.ctl.coreActive then b.ctl.slip[1] else b.ctl.slip[0]
  let core := if t = 4 then none else b.slipRefuser
  let engine := if t = 4 then b.engineRefuser else none
  let ident := BitVec.ofNat 32 (Config.freeNat (b.freeCtr + 1))
  let b := b.spend.spend
  match core, engine with
  | some c, _ => (b.ticketFault ticket (coreLoc c)).coreFailing c 2
  | none, some e => b.ticketFault ticket (chanLoc e.1 e.2)
  | none, none =>
    let b := if t = 4 then (b.switchEngines (EngineBank.ofImage img)).modCtl fun c => { c with patchId := ident }
      else if t = 3 then (b.switchCores (active.patched img)).modCtl fun c => { c with patchId := ident }
      else (b.switchCores (active.extended (xImage img))).modCtl fun c => { c with xId := ident }
    let b := b.modCtl fun c => { c with switching := some { target := BitVec.ofNat 8 t, ticket := ticket } }
    (b.report b.moduleLoc 0x0208 (dataOf [(1, t), (3, 0), (4, ticket.toNat)])).sweepSwitch

/-- Does the loader refuse a patch image (R270)? -/
def patchBad (t : Nat) (img : List Byte) : Bool :=
  if t = 3 then patchRefused (Config.corePatch img).2 slipBase (customerBase - slipBase)
  else patchRefused (Config.enginePatch img).2 engineSlipBase 0x200

/-- The work of an IMAGE_COMMIT that has started (R508). -/
def commitImage (t : Nat) (x : Staging) (ticket : BitVec 32) (s : State) : State :=
  let img := x.data.map (·.2)
  let refuse (detail index : Nat) : State :=
    withBody s fun b => b.finishTicket ticket stBadParameter (BitVec.ofNat 8 detail) (badParams 0 index)
  if img.length != x.length then refuse 0 0
  else if !sigOk s.cfg.anchor t x img then withBody s fun b => b.finishTicket ticket stSignatureBad 0 []
  else if t = 1 ∨ t = 2 then
    if slotImageOk img s.cfg.seqFloor then
      withBody (withCfg s fun c => { c with slots := c.slots.set (slotOf t) (imageSlot img) }) fun b => b.finishTicket ticket stDone 0 []
    else refuse 0 0
  else if t = 5 then
    match xCheck img with
    | some (check, ix) => refuse check ix
    | none => withBody s fun b => b.loadBanks t img ticket
  else if patchBad t img then refuse 0 0
  else withBody s fun b => b.loadBanks t img ticket

def doImageCommit (r : FReq) (s : State) : Answer :=
  let p := r.params
  let t := pf p 0 1
  match tGet s.body.ctl.staging t with
  | none => bad s 0
  | some x =>
    checked s (zeros p 1 3) <|
      if x.conn != r.connNo || (3 ≤ t && s.body.ctl.switching.isSome) then only s stBusy
      else .start fun ticket s => commitImage t x ticket (withBody s fun b => b.dropStaging t)

def doImageAbort (r : FReq) (s : State) : Answer :=
  let p := r.params
  let t := pf p 0 1
  checked s ([(0, 1 ≤ t && t ≤ 5)] ++ zeros p 1 3) <|
    if s.body.stagedByOther t r.connNo then only s stBusy else done (withBody s fun b => b.dropStaging t) []

def doSetActiveSlot (r : FReq) (s : State) : Answer :=
  let k : Fin 2 := if pf r.params 0 1 = 0 then 0 else 1
  checked s [(0, pf r.params 0 1 ≤ 1 && (s.cfg.slots[k]).valid)] <| done (withCfg s fun c => { c with active := k }) []

def doGetFirmware (_ : FReq) (s : State) : Answer :=
  let c := s.cfg
  let seq (k : Fin 2) : Nat := if (c.slots[k]).valid then (c.slots[k]).seq.toNat else 0
  done s (pack [(8, seq 0), (8, seq 1), (8, c.seqFloor.toNat), (1, c.active.val), (3, 0), (4, s.body.ctl.patchId.toNat)])

/-- A staging area has had no IMAGE_DATA for 600 s (R507). -/
def execImageStagingTimeout (target : Byte) (s : State) : Out :=
  onBody (fun b =>
    match tGet b.ctl.staging target.toNat with
    | some x => (b.reach b.ctl.steering (x.lastData + 600000000000)).dropStaging target.toNat
    | none => b) s

end Sys2Proof.Machine
end

