-- ==== Sys2Proof/Machine/FleletSlices.lean ====
section
/-!
DEFINITION. Flelet's commands for slices, partitions, subchannels, targets, network addresses, streams and the journal (R281 to R283,
R302, R318, R331, R335, R336, R344 to R349, R459, R509 to R512).
-/

namespace Sys2Proof.Machine

/-! ## Slices -/

/-- The slice that a command names in its first two bytes. -/
def sliceOf (p : List Byte) : Option SliceId := if h : pf p 0 2 < 8192 then some ⟨pf p 0 2, h⟩ else none

/-- Does this half serve the slice (R459)? Outside SPLIT every island does. -/
def Body.servesHere (b : Body) (i : HubId) (s : SliceId) : Bool := !b.otherHalf i (b.servingHub s (b.slice s).part)

/-- A slice command waits until 20 µs have passed since its slice's last advance (R349). -/
def Body.tooSoon (b : Body) (s : SliceId) : Bool :=
  match (b.slice s).lastAdv with
  | some t => decide (b.tod (b.servingHub s (b.slice s).part) < t + 20000)
  | none => false

/-- A translation root's reserved bits are 0 (R80). -/
def rootOk (v : Nat) : Bool := v < 2 ^ 52 && v / 2 % 2048 = 0

/-- Is a strand number one that a command may name (R493)? -/
def Body.strandOk (b : Body) (i : HubId) (n : Nat) : Bool :=
  if h : n < 576 then !b.otherHalf i (halfOfStrand ⟨n, h⟩) else false

/-- Engine bits that a kind of slice has (R344). -/
def engMaskOk (kind mask : Nat) : Bool :=
  match kind with
  | 2 => mask < 16
  | 3 => mask < 64
  | _ => mask = 0

/-- Performs a command that advances a slice's generation, or lets it wait (R349). -/
def spaced (s : State) (p : List Byte) (k : SliceId → Answer) : Answer :=
  match sliceOf p with
  | none => bad s 0
  | some sl => if s.body.tooSoon sl then .wait else k sl

def doBindSlice (r : FReq) (s : State) : Answer :=
  let p := r.params
  let b := s.body
  spaced s p fun sl =>
    checked s ([(0, !b.otherHalf r.island (numberHub sl) && (b.slice sl).st != .bound), (2, 1 ≤ pf p 2 1 && pf p 2 1 ≤ 4),
        (6, 1 ≤ pf p 6 2), (8, rootOk (pf p 8 8)), (16, 1 ≤ pf p 16 2), (18, b.strandOk r.island (pf p 18 2)),
        (20, pf p 20 1 ≤ 3 && !(pf p 20 1 = 3 && pf p 3 1 != 0)), (21, engMaskOk (pf p 2 1) (pf p 21 1))] ++ zeros p 22 10) <|
      if (b.slice sl).st != .free then only s stBusy else done (withBody s fun b => b.bindSlice sl p) []

/-- UNBIND_SLICE, with `toFree`, and RESET_SLICE (R346). -/
def doDrain (toFree : Bool) (r : FReq) (s : State) : Answer :=
  let b := s.body
  spaced s r.params fun sl =>
    checked s ([(0, b.servesHere r.island sl && (b.slice sl).st != .free)] ++ zeros r.params 2 2) <|
      if (b.slice sl).st != .bound && !toFree then only s stBusy
      else .start fun t s => withBody s fun b => b.startDrain sl toFree (some t)

def doUnbindSlice (r : FReq) (s : State) : Answer := doDrain true r s
def doResetSlice (r : FReq) (s : State) : Answer := doDrain false r s

/-- A command on a slice that is not FREE. -/
def onSlice (r : FReq) (s : State) (checks : Slice → List (Nat × Bool)) (f : Slice → Slice) : Answer :=
  match sliceOf r.params with
  | none => bad s 0
  | some sl =>
    let x := s.body.slice sl
    checked s ((0, s.body.servesHere r.island sl && x.st != .free) :: checks x) <|
      done (withBody s fun b => b.setSlice sl (f x)) []

def doSetShare (r : FReq) (s : State) : Answer :=
  let p := r.params
  onSlice r s (fun _ => [(2, decide (1 ≤ pf p 2 2)), (4, decide (1 ≤ pf p 4 2))] ++ zeros p 6 2)
    fun x => { x with weight := BitVec.ofNat 16 (pf p 2 2), limit := BitVec.ofNat 16 (pf p 4 2) }

def doSetRoute (r : FReq) (s : State) : Answer :=
  let p := r.params
  onSlice r s (fun x => [(2, s.body.strandOk r.island (pf p 2 2)), (4, pf p 4 1 ≤ 3 && !(pf p 4 1 = 3 && x.part != 0))] ++ zeros p 5 3)
    fun x => { x with target := pf p 2 2, rkind := p.getD 4 0 }

/-! ## Partitions (R359, R510) -/

def doSetWake (r : FReq) (s : State) : Answer :=
  let p := r.params
  let part := pf p 0 1
  checked s [(0, s.body.partExists part && (!s.body.isSplit || s.body.continues (p.getD 0 0) r.island)), (1, pf p 1 1 ≤ 1),
      (2, s.body.strandOk r.island (pf p 2 2))] <|
    done (withBody s fun b => b.modIo fun i => { i with
      parts := tMod i.parts part fun x => { x with wakeMask := pf p 1 1 = 1, wakeTarget := some (pf p 2 2) } }) []

/-- A partition with the defaults of R510. -/
def newPartition (part : Nat) : Partition := { kquota := if part = 0 then 1024 else 256, domain := BitVec.ofNat 64 part }

/-- A field of SET_PARTITION: 0 leaves the value unchanged (R510). -/
def orKeep {n : Nat} (v : Nat) (old : BitVec n) : BitVec n := if v = 0 then old else BitVec.ofNat n v

def doSetPartition (r : FReq) (s : State) : Answer :=
  let p := r.params
  let part := pf p 0 1
  checked s (zeros p 1 1 ++ [(4, decide (pf p 4 2 ≤ 1000)), (6, decide (pf p 6 2 ≤ 3600)), (8, decide (pf p 8 2 ≤ 3600))] ++
      zeros p 10 6 ++ [(16, rootOk (pf p 16 8) && !(part = 0 && pf p 16 8 != 0))]) <|
    let x := (tGet s.body.io.parts part).getD (newPartition part)
    let y : Partition := { x with
      kquota := orKeep (pf p 2 2) x.kquota, iotmo := orKeep (pf p 4 2) x.iotmo, blktmo := orKeep (pf p 6 2) x.blktmo,
      tapetmo := orKeep (pf p 8 2) x.tapetmo, s2root := orKeep (pf p 16 8) x.s2root, domain := orKeep (pf p 24 8) x.domain }
    done (withBody s fun b => b.modIo fun i => { i with parts := tPut i.parts part y }) []

/-! ## Subchannels and paths (R281 to R283, R302, R331) -/

/-- A CHANNEL slice that this half serves. -/
def Body.channelSlice (b : Body) (i : HubId) (p : List Byte) : Bool :=
  match sliceOf p with
  | some sl => (b.slice sl).st != .free && (b.slice sl).kind = 1 && b.servesHere i sl
  | none => false

/-- The checks of the path descriptor at `o` (R283). -/
def Body.pathChecks (b : Body) (p : List Byte) (kind o : Nat) : List (Nat × Bool) :=
  let proto := pf p (o + 1) 1
  [(o, b.portExists (p.getD o 0)), (o + 1, if kind = 1 then 1 ≤ proto && proto ≤ 4 else proto = 5), (o + 4, pf p (o + 4) 1 ≤ 1)] ++
    zeros p (o + 5) 3 ++ [(o + 12, 4 ≤ proto || pf p (o + 12) 4 = 0)]

def pathOf (p : List Byte) (o : Nat) : Path :=
  { port := p.getD o 0, proto := p.getD (o + 1) 0, target := BitVec.ofNat 16 (pf p (o + 2) 2), st := p.getD (o + 4) 0,
    unit := BitVec.ofNat 64 (pf p (o + 8) 8) }

/-- A change of descriptor leaves the held sense block, and what a program has still to report, as they are (R302). -/
def doSetSubchannel (r : FReq) (s : State) : Answer :=
  let p := r.params
  let b := s.body
  let image := pf p 8 2
  let kind := pf p 10 1
  let n := pf p 11 1
  let blksz := pf p 12 4
  let key := subchKey (pf p 0 2) image
  let old := b.subch key
  checked s ([(0, b.channelSlice r.island p)] ++ zeros p 2 6 ++
      [(8, decide (image ≤ 4095) && (old.isSome || decide (b.io.subchs.length < 65536))), (10, kind = 1 || kind = 2), (11, 1 ≤ n && n ≤ 8),
       (12, if kind = 1 then blksz = 512 || blksz = 4096 else blksz = 0)] ++
      ((List.range n).flatMap fun i => b.pathChecks p kind (16 + 16 * i)) ++ zeros p (16 + 16 * n) (128 - 16 * n)) <|
    let paths := (List.range n).map fun i => pathOf p (16 + 16 * i)
    match old with
    | some c =>
      if c.busy then only s stBusy
      else done (withBody s fun b => b.modSubch key fun c =>
        { c with kind := BitVec.ofNat 8 kind, blksz := BitVec.ofNat 32 blksz, paths := paths, lastPath := none }) []
    | none =>
      done (withBody s fun b => b.modIo fun i => { i with
        subchs := tPut i.subchs key { kind := BitVec.ofNat 8 kind, blksz := BitVec.ofNat 32 blksz, paths := paths } }) []

/-- The subchannel that SLICE and IMAGE name; what is wrong when there is none. -/
def Body.namedSubch (b : Body) (i : HubId) (p : List Byte) : Except Nat (Nat × Subch) :=
  match sliceOf p with
  | none => .error 0
  | some sl =>
    if !b.servesHere i sl then .error 0
    else match b.subch (subchKey sl.val (pf p 2 2)) with
    | some c => if pf p 2 2 ≤ 4095 then .ok (subchKey sl.val (pf p 2 2), c) else .error 2
    | none => .error (if (b.slice sl).st = .free then 0 else 2)

def doRemoveSubchannel (r : FReq) (s : State) : Answer :=
  match s.body.namedSubch r.island r.params with
  | .error o => bad s o
  | .ok (key, c) =>
    if c.busy then only s stBusy
    else done (withBody s fun b => b.modIo fun i => { i with subchs := tDel i.subchs key }) []

/-- SET_PATH_STATE. ONLINE on a FAILED path takes effect only at the next successful probe (R331). -/
def doSetPathState (r : FReq) (s : State) : Answer :=
  let p := r.params
  match s.body.namedSubch r.island p with
  | .error o => bad s o
  | .ok (key, c) =>
    checked s [(4, decide (pf p 4 1 < c.paths.length)), (5, pf p 5 1 ≤ 1)] <|
      let st := p.getD 5 0
      let set' (x : Path) : Path :=
        if st = 1 && x.st = 2 then x else { x with st := st, probed := x.probed && !(st = 1 && x.st = 0) }
      done (withBody s fun b => b.modSubch key fun c => { c with paths := c.paths.modify (pf p 4 1) set' }) []

/-! ## Targets and network addresses (R511, R512) -/

def doSetTarget (r : FReq) (s : State) : Answer :=
  let p := r.params
  let ix := pf p 0 2
  let k := pf p 2 1
  let used := s.body.io.subchs.any fun e => e.2.paths.any fun x => x.target.toNat = ix
  checked s ([(0, 1 ≤ ix && ix ≤ 4095), (2, decide (k ≤ 4))] ++ zeros p 3 1 ++ (if k = 1 then zeros p 6 2 else zeros p 4 4) ++
      (if k = 2 ∨ k = 3 then [] else if k = 4 then zeros p 8 8 else zeros p 8 16) ++ (if k = 3 then [] else zeros p 24 2) ++ zeros p 26 6) <|
    if used then only s stBusy
    else done (withBody s fun b => b.modIo fun i => { i with
      targets := if k = 0 then tDel i.targets ix else tPut i.targets ix p }) []

/-- An Ethernet port of a hub (R283, R404). -/
def Body.etherPort (b : Body) (p : PortId) (h : HubId) : Bool :=
  b.portExists p && (b.octetRec p).mode = 1 && portHalf p = h

/-- Does an enabled queue pair use an entry (R509)? -/
def Body.netaddrUsed (b : Body) (part ix : Nat) : Bool :=
  match tGet b.io.netaddrs (part * 4096 + ix) with
  | none => false
  | some a =>
    match tGet b.io.slices a.slice.toNat with
    | some x => x.kind = 4 && x.part.toNat = part && x.qps.any fun q => q.2.en && q.2.addrix.toNat = ix
    | none => false

/-- SET_NETADDR. An entry that is removed has no other field to check. -/
def doSetNetaddr (r : FReq) (s : State) : Answer :=
  let p := r.params
  let b := s.body
  let part := pf p 0 1
  let fl := pf p 1 1
  let ix := pf p 2 2
  let valid := fl % 2 = 1
  let sl : SliceId := ⟨pf p 4 2 % 8192, Nat.mod_lt _ (by decide)⟩
  let h := b.servingHub sl (b.slice sl).part
  let alt := decide (fl / 2 % 2 = 1)
  let rest : List (Nat × Bool) :=
    [(4, pf p 4 2 < 8192 && (b.slice sl).st != .free && (b.slice sl).kind = 4 && !b.otherHalf r.island h),
     (6, b.etherPort (p.getD 6 0) h), (7, if alt then b.etherPort (p.getD 7 0) (otherHub h) else p.getD 7 0 = 0),
     (15, pf p 15 1 < 128)]
  checked s ([(0, b.partExists part), (1, fl < 4), (2, decide (ix ≤ 4095))] ++ if valid then rest else []) <|
    if b.netaddrUsed part ix then only s stBusy
    else
      let a : NetAddr :=
        { slice := BitVec.ofNat 16 (pf p 4 2), port := p.getD 6 0, alt := if alt then some (p.getD 7 0) else none,
          mac := (p.drop 8).take 6, vlan := BitVec.ofNat 16 (pf p 14 2), ip := (p.drop 16).take 16, rip := (p.drop 32).take 16 }
      let k := part * 4096 + ix
      done (withBody s fun b => b.modIo fun i => { i with
        netaddrs := if valid then tPut i.netaddrs k a else tDel i.netaddrs k }) []

/-! ## Streams (R336) -/

/-- The stream of a subchannel, if it has one. -/
def Body.hasStream (b : Body) (key : Nat) : Bool := b.io.streams.any fun e => subchKey e.2.slice.val e.2.image.toNat = key

def doDeclareStream (r : FReq) (s : State) : Answer :=
  let p := r.params
  let b := s.body
  let key := subchKey (pf p 2 2) (pf p 4 2)
  let tape := match b.subch key with | some c => c.kind = 2 && !c.busy && !b.hasStream key | none => false
  let rate := pf p 6 2
  let base := pf p 8 8
  let mib := pf p 16 4
  checked s ([(0, pf p 0 1 ≤ 63 && (tGet b.io.streams (pf p 0 1)).isNone)] ++ zeros p 1 1 ++
      [(2, b.channelSlice r.island (p.drop 2)), (4, decide (pf p 4 2 ≤ 4095) && tape), (6, 1 ≤ rate && rate ≤ 2000),
       (8, base % 0x200000 = 0 && (List.range ((mib + 1) / 2)).all fun k => b.classOf (base + k * 0x200000) = .memory),
       (16, mib % 2 = 0 && 2 ≤ mib && mib ≤ 256 && decide (rate * 8000 ≤ mib * 0x100000))] ++ zeros p 20 12) <|
    let x : Stream :=
      { slice := ⟨pf p 2 2 % 8192, Nat.mod_lt _ (by decide)⟩, image := BitVec.ofNat 12 (pf p 4 2), rate := BitVec.ofNat 16 rate,
        bufbase := BitVec.ofNat 64 base, bufsize := BitVec.ofNat 32 mib }
    done (withBody s fun b => b.modIo fun i => { i with streams := tPut i.streams (pf p 0 1) x }) []

def doRemoveStream (r : FReq) (s : State) : Answer :=
  let p := r.params
  match tGet s.body.io.streams (pf p 0 1) with
  | none => bad s 0
  | some x =>
    checked s (zeros p 1 3) <|
      let busy := match s.body.subch (subchKey x.slice.val x.image.toNat) with | some c => c.busy | none => false
      if busy || !x.blocks.isEmpty then only s stBusy
      else done (withBody s fun b => b.modIo fun i => { i with streams := tDel i.streams (pf p 0 1) }) []

/-! ## The journal and the orphan queues (R318, R335) -/

/-- CURSOR counts the entries that the key selects. What NEXT holds when no entry follows is not stated and is free. -/
def doReadJournal (r : FReq) (s : State) : Answer :=
  let p := r.params
  let b := s.body
  let key := pf p 4 8
  let cur := pf p 12 4
  let bySlice := pf p 0 1 = 1
  let sliceOk := if h : key < 8192 then b.servesHere r.island ⟨key, h⟩ else false
  checked s ([(0, decide (pf p 0 1 ≤ 1))] ++ zeros p 1 3 ++ [(4, !bySlice || sliceOk)] ++ zeros p 16 4) <|
    let hits := b.outstanding.filter fun e =>
      (if bySlice then e.2.slice.toNat = key else e.2.txn.toNat = key) && !b.otherHalf r.island (b.entryHub e.2)
    let out := (hits.drop cur).take 511
    let more := decide (cur + out.length < hits.length)
    let next := if more then cur + out.length else Config.freeNat b.freeCtr
    doneOr (withBody s fun b => b.spend) more (leBytes 4 next ++ leBytes 4 0 ++ out.flatMap fun e => e.2.bytes)

/-- Orphans that wait in POSTED for room in a hub's queue take it (R335). -/
def Body.refillOrphans (b : Body) (h : HubId) : Body :=
  let held (ix : Nat) (sl : SliceId) : Bool := (b.slice sl).waiting.any fun r => decide (r.src = .final ix)
  let flying (ix : Nat) : Bool := b.io.writes.any fun w => match w.done with | some (_, r) => decide (r.src = .final ix) | none => false
  let wait := b.outstanding.filter fun e =>
    e.2.st = 5 && e.2.orphan && b.entryHub e.2 = h &&
      !held e.1 ⟨e.2.slice.toNat, by have := e.2.slice.isLt; omega⟩ && !flying e.1
  wait.foldl (fun (b : Body) (e : Nat × JEntry) => b.toOrphan e.1) b

/-- READ_ORPHANS. Each record returned is delivered, and its transaction retires. -/
def doReadOrphans (r : FReq) (s : State) : Answer :=
  let p := r.params
  let h : HubId := if pf p 0 1 = 0 then 0 else 1
  checked s ([(0, pf p 0 1 ≤ 1 && !s.body.otherHalf r.island h), (1, decide (1 ≤ pf p 1 1))] ++ zeros p 2 2) <|
    let q := s.body.io.orphans[h]
    let out := q.take (pf p 1 1)
    let b := s.body.modIo fun i => { i with orphans := i.orphans.set h (q.drop (pf p 1 1)) }
    let b := out.foldl (fun (b : Body) (o : Orphan) => b.retire o.ix) b
    done { s with body := b.refillOrphans h } (leBytes 4 out.length ++ out.flatMap Orphan.bytes)

end Sys2Proof.Machine
end

