-- ==== Sys2Proof/Machine/FleletUnits.lean ====
section
/-!
DEFINITION. Flelet's commands for octets, far memory, lost lines, strands, keys and diagnostics (R247, R252, R392 to R396, R403 to R406,
R416, R437, R509, R513 to R517).
-/

namespace Sys2Proof.Machine

/-! ## Octets and far memory (R403 to R406, R416) -/

def octetOf (p : List Byte) : OctetRec :=
  { mode := p.getD 1 0, rate := p.getD 2 0, width := p.getD 3 0, fec := p.getD 4 0, lanes := p.getD 5 0, mtu := BitVec.ofNat 16 (pf p 6 2) }

/-- Rates of a mode (R404). -/
def rateOk (mode rate : Nat) : Bool :=
  match mode with
  | 0 => rate = 0
  | 1 => 1 ≤ rate && rate ≤ 7
  | 2 => 3 ≤ rate && rate ≤ 6
  | 3 => 1 ≤ rate && rate ≤ 2
  | 4 => 1 ≤ rate && rate ≤ 4
  | _ => false

/-- Highest FEC code of a mode and rate (R403). -/
def fecMax (mode rate : Nat) : Nat := if mode = 1 then (if rate = 6 then 2 else if rate = 7 then 1 else 0) else 0

/-- The checks of an octet record (R405). -/
def octetChecks (p : List Byte) : List (Nat × Bool) :=
  let mode := pf p 1 1
  let rate := pf p 2 1
  let mtu := pf p 6 2
  [(0, decide (pf p 0 1 ≤ 11)), (1, decide (mode ≤ 4)), (2, rateOk mode rate),
   (3, if mode = 2 ∨ mode = 3 then decide (pf p 3 1 ≤ 1) else decide (pf p 3 1 = 0)), (4, decide (pf p 4 1 ≤ fecMax mode rate)),
   (5, decide (pf p 5 1 ≤ if mode = 0 then 0 else 1)), (6, if mode = 1 then 1518 ≤ mtu && mtu ≤ 9216 else mtu = 0)]

/-- Nothing names a port of the octet (R406). -/
def Body.octetQuiet (b : Body) (o : OctetId) : Bool :=
  let mine (p : PortId) : Bool := octetOfPort p = o
  !(b.io.subchs.any fun e => e.2.paths.any fun x => mine x.port && x.st != 0) &&
  !(b.io.netaddrs.any fun e => mine e.2.port || (match e.2.alt with | some a => mine a | none => false)) &&
  !(b.mem.ranges.any fun r => mine r.portA || mine r.portB)

def doSetOctet (r : FReq) (s : State) : Answer :=
  let p := r.params
  let o : OctetId := ⟨pf p 0 1 % 12, Nat.mod_lt _ (by decide)⟩
  let x := octetOf p
  checked s (octetChecks p) <|
    let s' := withCfg s fun c => { c with octets := c.octets.set o x }
    if s.body.serving then
      if s.body.octetQuiet o then done (withBody s' fun b => b.applyOctet o x) [] else only s stBusy
    else done s' []

def farPairOf (p : List Byte) (i : Nat) : FarPair :=
  { portA := p.getD (8 * i) 0, portB := p.getD (8 * i + 1) 0, base := BitVec.ofNat 32 (pf p (8 * i + 4) 4) }

/-- A PORT byte of R283. -/
def portByteOk (x : Byte) : Bool := x.toNat < 96

/-- Two records overlap when they hold one BASE; sizes are known only at PROVING (log entry 10). -/
def doSetFarmem (r : FReq) (s : State) : Answer :=
  let p := r.params
  let n := p.length / 8
  let pairs := (List.range n).map (farPairOf p)
  let check (i : Nat) : List (Nat × Bool) :=
    [(8 * i, portByteOk (p.getD (8 * i) 0)), (8 * i + 1, portByteOk (p.getD (8 * i + 1) 0))] ++ zeros p (8 * i + 2) 2 ++
      [(8 * i + 4, decide (pf p (8 * i + 4) 4 < 4096) && !((pairs.take i).any fun x => x.base.toNat = pf p (8 * i + 4) 4))]
  checked s ((List.range n).flatMap check) <| done (withCfg s fun c => { c with farPairs := pairs }) []

/-! ## Attribute map and lost lines (R247, R437) -/

def doReadPam (_ : FReq) (s : State) : Answer := done s (s.body.pam.flatMap PamRec.bytes)

def doClearPoison (r : FReq) (s : State) : Answer :=
  let p := r.params
  let pa := pf p 0 8
  let b := s.body
  checked s ([(0, pa % 128 = 0 && decide (pa < 2 ^ 52) && b.poisoned (lineNo pa) && !b.cutOff r.island pa),
      (8, (tGet b.mem.slots (pf p 8 1)).isSome)] ++ zeros p 9 7) <|
    done (withBody s fun b => b.homeStore pa ((p.drop 16).take 128) (p.getD 8 0) true) []

/-! ## Strands (R64, R513, R514) -/

/-- The strand that a command names, when it may name it. -/
def Body.strandNamed (b : Body) (i : HubId) (p : List Byte) : Option StrandId :=
  if h : pf p 0 2 < 576 then (if b.strandOk i (pf p 0 2) then some ⟨pf p 0 2, h⟩ else none) else none

/-- A strand's strand-check source deasserts wherever it is raised (R358, R514). -/
def Body.dropCheck (b : Body) (t : StrandId) : Body := b.mapStrands fun _ u => { u with checkSrc := u.checkSrc.filter (· != t.val) }

def doReadStrand (r : FReq) (s : State) : Answer :=
  match s.body.strandNamed r.island r.params with
  | none => bad s 0
  | some t =>
    checked s (zeros r.params 2 2) <|
      let run := (s.body.strand t).run
      if run = .running || run = .frozen then only s stBusy else done s (s.body.image t)

/-- START_STRAND. OFFSET 0xC40 counts from the start of the image, as R514 states it. -/
def doStartStrand (r : FReq) (s : State) : Answer :=
  let p := r.params
  let b := s.body
  match b.strandNamed r.island p with
  | none => bad s 0
  | some t =>
    let u := b.strand t
    let c := coreOf t
    let startable := (u.run = .stopped || u.run = .neverStarted) && (b.ctl.cores[c]).role = .assignable && b.domainOn c.val
    checked s ((0, startable) :: zeros p 2 2) <|
      let img := p.drop 4
      if field img 0xC40 8 / 4 % 4 = 3 then bad s 0xC40
      else
        done (withBody s fun b =>
          (b.setStrand t { imageStrand img with spHome := (b.ctl.cores[c]).spHome, checkSrc := u.checkSrc }).dropCheck t) []

/-- RELEASE_STRAND leaves a stopped strand as never started. -/
def doReleaseStrand (r : FReq) (s : State) : Answer :=
  match s.body.strandNamed r.island r.params with
  | none => bad s 0
  | some t =>
    let u := s.body.strand t
    checked s ((0, u.run = .stopped || u.run = .neverStarted) :: zeros r.params 2 2) <|
      done (withBody s fun b => (b.setStrand t { checkSrc := u.checkSrc }).dropCheck t) []

/-! ## Keys (R252, R392 to R396, R515, R516) -/

def doGetTransportKey (_ : FReq) (s : State) : Answer := done s (padTo 1568 Config.transportKey)

def loadKeyLen (p : List Byte) : Bool := 1608 ≤ p.length && p.length = 1608 + pf p 6 2 + pf p 8 2

/-- LOAD_KEY, with its checks in the order of R516. A table without room is refused as a quota without room is (log entry 10). -/
def doLoadKey (r : FReq) (s : State) : Answer :=
  let p := r.params
  let klen := pf p 6 2
  let part := p.getD 0 0
  let signed := match s.cfg.anchor with
    | none => false
    | some a => p.getD 3 0 = a.alg && pf p 8 2 = algSig a.alg && Config.verifies a.alg a.sign (p.take (1608 + klen)) (p.drop (1608 + klen))
  if !signed then only s stSignatureBad
  else match Config.openTransport ((p.drop 24).take 1568) ((p.drop 12).take 12) (p.take 12) ((p.drop 1592).take (klen + 16)) with
  | none => bad s 24
  | some m =>
    let kinds := (keyUsages (p.getD 1 0)).isSome
    checked s ([(1, kinds), (2, keyKindOk (p.getD 1 0) (p.getD 2 0)), (6, keyLenOk (p.getD 1 0) klen)] ++ zeros p 10 2 ++
        [(0, s.body.partExists part.toNat)]) <|
      match s.body.newKey r.island (p.getD 1 0) (p.getD 2 0) part (BitVec.ofNat 16 (pf p 4 2)) (padTo klen m) with
      | (.error _, _) => bad s 0
      | (.ok h, b) => done { s with body := b } (leBytes 4 h.toNat)

/-- May a key load a memory-encryption slot (R515)? -/
def memKeyOk (slot : Nat) (k : KeyEntry) : Bool :=
  k.ktype = 3 && k.usage.getLsbD 5 && (k.part = 0 || k.part.toNat = slot)

def doLoadMemkey (r : FReq) (s : State) : Answer :=
  let p := r.params
  let b := s.body
  let slot := pf p 0 1
  let key := b.keyOf r.island (BitVec.ofNat 32 (pf p 4 4))
  let usable := match key with | some k => memKeyOk slot k | none => false
  checked s ([(0, decide (1 ≤ slot)), (1, decide (pf p 1 1 ≤ 1))] ++ zeros p 2 2 ++ [(4, pf p 1 1 = 0 || usable)]) <|
    let load (m : Config.KeyVal) (b : Body) : Body := b.modMem fun x => { x with slots := tPut x.slots slot m }
    match (if pf p 1 1 = 1 then key else none) with
    | some k => done (withBody s (load k.material)) []
    | none => done (withBody s fun b => (load (freeBytes b.freeCtr 64) b).spend) []

def doClearMemkey (r : FReq) (s : State) : Answer :=
  let p := r.params
  checked s ((0, decide (1 ≤ pf p 0 1)) :: zeros p 1 3) <|
    done (withBody s fun b => b.modMem fun x => { x with slots := tDel x.slots (pf p 0 1) }) []

def doSetKeyQuota (r : FReq) (s : State) : Answer :=
  let p := r.params
  checked s ((0, s.body.partExists (pf p 0 1)) :: zeros p 1 1 ++ [(2, decide (1 ≤ pf p 2 2))]) <|
    done (withBody s fun b => b.modIo fun i => { i with
      parts := tMod i.parts (pf p 0 1) fun x => { x with kquota := BitVec.ofNat 16 (pf p 2 2) } }) []

/-- Does a job that has started use a key (R396)? -/
def Body.handleUsed (b : Body) (handle : BitVec 32) : Bool :=
  b.io.jobs.any fun j => dKey j.desc = handle && (b.slice j.slice).kind = 3 && match j.st with | .running _ | .rerun => true | _ => false

def doReassignKey (r : FReq) (s : State) : Answer :=
  let p := r.params
  let h : BitVec 32 := BitVec.ofNat 32 (pf p 0 4)
  match s.body.keyOf r.island h with
  | none => bad s 0
  | some k =>
    checked s ((4, s.body.partExists (pf p 4 1)) :: zeros p 5 1) <|
      if s.body.handleUsed h then only s stBusy
      else done (withBody s fun b => b.putKey r.island (h.toNat % 65536) { k with part := p.getD 4 0, asid := BitVec.ofNat 16 (pf p 6 2) }) []

/-- DESTROY_KEY completes only after every job that started with the key has ended (R396). -/
def doDestroyKey (r : FReq) (s : State) : Answer :=
  let h : BitVec 32 := BitVec.ofNat 32 (pf r.params 0 4)
  match s.body.keyOf r.island h with
  | none => bad s 0
  | some k =>
    if s.body.handleUsed h then .wait
    else done (withBody s fun b => b.putKey r.island (h.toNat % 65536) { k with live := false, material := [] }) []

/-! ## Diagnostics (R483, R517) -/

def locOf (p : List Byte) : BitVec 16 := BitVec.ofNat 16 (pf p 0 2)

def doReadUnit (r : FReq) (s : State) : Answer :=
  let loc := locOf r.params
  match s.body.unitRecord loc with
  | none => bad s 0
  | some x =>
    if !locValid loc || s.body.otherHalf r.island (halfOfLoc loc) then bad s 0 else done (withBody s fun b => b.spend) x

/-- RUN_SELFTEST. Whether the unit passes, and its signature, are free. -/
def doRunSelftest (r : FReq) (s : State) : Answer :=
  let loc := locOf r.params
  checked s [(0, locValid loc)] <|
    .start fun t s => withBody s fun b =>
      let pass := Config.selfTest b.freeCtr loc.toNat
      b.spend.finishTicket t stDone 0 ((if pass then 1 else 0) :: padTo 16 (Config.testSignature loc.toNat))

def doDiagDomain (r : FReq) (s : State) : Answer :=
  let p := r.params
  checked s ([(0, decide (pf p 0 2 < 230)), (2, decide (pf p 2 1 ≤ 1))] ++ zeros p 3 1) <|
    done (withBody s fun b => b.setDomain (pf p 0 2) (pf p 2 1 = 1)) []

/-- READ_PHYS. The physical address of the first lost line, or 0, stands before the bytes (log entry 10). -/
def doReadPhys (r : FReq) (s : State) : Answer :=
  let p := r.params
  let b := s.body
  let pa := pf p 0 8
  let n := pf p 8 4
  let lines := (List.range ((n + 127) / 128)).map fun i => lineNo (pa + 128 * i)
  let inside := lines.all fun l => b.classOf (lineAddr l) = .memory || b.classOf (lineAddr l) = .far
  let small := 1 ≤ n && n ≤ 65408
  checked s ([(0, pa % 128 = 0 && decide (pa < 2 ^ 52) && (!small || inside)), (8, small)] ++ zeros p 13 3) <|
    let lost (l : Line) : Bool := b.poisoned l || !b.readable l
    let one (l : Line) : List Byte := if lost l then List.replicate 128 0 else lineBytes (b.coherent l (p.getD 12 0))
    done s (leBytes 8 (match lines.find? lost with | some l => lineAddr l | none => 0) ++ (lines.flatMap one).take n)

/-- READ_JOURNAL_RAW. An entry never used reads as zeros (R478). -/
def doReadJournalRaw (r : FReq) (s : State) : Answer :=
  let p := r.params
  let h : HubId := if pf p 0 1 = 0 then 0 else 1
  let ix := pf p 4 4
  let n := pf p 8 4
  checked s ([(0, decide (pf p 0 1 ≤ 1))] ++ zeros p 1 3 ++ [(4, decide (ix < 262144)), (8, 1 ≤ n && n ≤ 500)]) <|
    let one (i : Nat) : List Byte :=
      match tGet s.body.io.journal[h] (ix + i) with
      | some e => e.bytes
      | none => List.replicate 128 0
    done s ((List.range (min n (262144 - ix))).flatMap one)

/-- TEST_PORT. A closed port's TAP controller is in Test-Logic-Reset (R546). -/
def doTestPort (r : FReq) (s : State) : Answer :=
  let p := r.params
  checked s [(0, decide (pf p 0 1 ≤ 1))] <|
    done (withBody s fun b => b.modCtl fun c => { c with port := if pf p 0 1 = 1 then { c.port with isOpen := true } else {} }) []

end Sys2Proof.Machine
end

