-- ==== Sys2Proof/Machine/FleletExec.lean ====
section
/-!
DEFINITION. The table of Flelet commands with their opcodes, roles, lengths and classes, and the meaning of each; connections, sessions,
the mailbox, and the ends of a slice's waits and drains (R349, R366, R489 to R497, R503 to R509, R515, R517).
-/

namespace Sys2Proof.Machine

/-- SET_OWNER_ANCHOR is open to VIEWER while there is no anchor (R503). -/
def rolesAnchor (cfg : FlashCfg) (r : Role) : Bool := r = .owner || (r = .viewer && cfg.anchor.isNone)

/-- Up to 64 pair records (R509). -/
def farmemLen (p : List Byte) : Bool := p.length % 8 = 0 && p.length ≤ 512

/-! ## The commands (R503 to R506, R509, R515, R517) -/

def cmdSessionOpen : Cmd := { op := 0x0101, roles := rolesOV, lenOk := lenIs 1, cls := clsIs .a, run := doSessionOpen }
def cmdSessionClose : Cmd := { op := 0x0102, roles := rolesOV, lenOk := lenIs 0, cls := clsIs .a, run := doSessionClose }
def cmdGetIdentity : Cmd := { op := 0x0103, roles := rolesOVS, lenOk := lenIs 0, cls := clsIs .a, run := doGetIdentity }
def cmdGetInventory : Cmd := { op := 0x0104, roles := rolesOVS, lenOk := lenIs 4, cls := clsIs .a, run := doGetInventory }
def cmdSetOwnerAnchor : Cmd := { op := 0x0105, roles := rolesAnchor, lenOk := (fun p => decide (8 ≤ p.length)), cls := clsIs .a, run := doSetOwnerAnchor }
def cmdSetMgmtNet : Cmd := { op := 0x0106, roles := rolesO, lenOk := lenIs 44, cls := clsIs .a, run := doSetMgmtNet }
def cmdGetResult : Cmd := { op := 0x0110, roles := rolesOVS, lenOk := lenIs 4, cls := clsIs .a, run := doGetResult }
def cmdReleaseResult : Cmd := { op := 0x0111, roles := rolesOVS, lenOk := lenIs 4, cls := clsIs .a, run := doReleaseResult }
def cmdPowerOn : Cmd := { op := 0x0201, roles := rolesO, lenOk := lenIs 0, cls := clsIs .i, run := doPowerOn }
def cmdPowerOff : Cmd := { op := 0x0202, roles := rolesO, lenOk := lenIs 1, cls := clsIs .j, run := doPowerOff }
def cmdEnterFallow : Cmd := { op := 0x0203, roles := rolesO, lenOk := lenIs 0, cls := clsIs .k, run := doEnterFallow }
def cmdProve : Cmd := { op := 0x0204, roles := rolesO, lenOk := lenIs 0, cls := clsIs .h, run := doProve }
def cmdSetAutostart : Cmd := { op := 0x0205, roles := rolesO, lenOk := lenIs 1, cls := clsIs .a, run := doSetAutostart }
def cmdGetMode : Cmd := { op := 0x0206, roles := rolesOVS, lenOk := lenIs 0, cls := clsIs .a, run := doGetMode }
def cmdSetPreferredHalf : Cmd := { op := 0x0207, roles := rolesO, lenOk := lenIs 1, cls := clsIs .l, run := doSetPreferredHalf }
def cmdRejoin : Cmd := { op := 0x0208, roles := rolesS, lenOk := lenIs 0, cls := clsIs .f, run := doRejoin }
def cmdSetPlacement : Cmd := { op := 0x0209, roles := rolesS, lenOk := lenIs 16, cls := clsIs .c, run := doSetPlacement }
def cmdGetFeeds : Cmd := { op := 0x0301, roles := rolesOVS, lenOk := lenIs 0, cls := clsIs .a, run := doGetFeeds }
def cmdSetRailLimits : Cmd := { op := 0x0302, roles := rolesO, lenOk := lenIs 8, cls := clsIs .e, run := doSetRailLimits }
def cmdSetRail : Cmd := { op := 0x0303, roles := rolesS, lenOk := lenIs 4, cls := clsIs .b, run := doSetRail }
def cmdSetDomain : Cmd := { op := 0x0304, roles := rolesS, lenOk := lenIs 4, cls := clsIs .b, run := doSetDomain }
def cmdGetDomains : Cmd := { op := 0x0305, roles := rolesOVS, lenOk := lenIs 4, cls := clsIs .a, run := doGetDomains }
def cmdGetTilth : Cmd := { op := 0x0401, roles := rolesOVS, lenOk := lenIs 4, cls := clsIs .a, run := doGetTilth }
def cmdGetPace : Cmd := { op := 0x0402, roles := rolesOVS, lenOk := lenIs 4, cls := clsIs .a, run := doGetPace }
def cmdReadSilt : Cmd := { op := 0x0501, roles := rolesOVS, lenOk := lenIs 8, cls := clsIs .a, run := doReadSilt }
def cmdFreezeSilt : Cmd := { op := 0x0502, roles := rolesOS, lenOk := lenIs 0, cls := clsIs .a, run := doFreezeSilt }
def cmdThawSilt : Cmd := { op := 0x0503, roles := rolesO, lenOk := lenIs 0, cls := clsIs .a, run := doThawSilt }
def cmdReadRetained : Cmd := { op := 0x0504, roles := rolesOV, lenOk := lenIs 8, cls := clsIs .a, run := doReadRetained }
def cmdClearRetained : Cmd := { op := 0x0505, roles := rolesO, lenOk := lenIs 4, cls := clsIs .e, run := doClearRetained }
def cmdImageBegin : Cmd := { op := 0x0601, roles := rolesO, lenOk := beginLen, cls := imageClass, run := doImageBegin }
def cmdImageData : Cmd := { op := 0x0602, roles := rolesO, lenOk := (fun p => decide (8 ≤ p.length)), cls := imageClass, run := doImageData }
def cmdImageCommit : Cmd := { op := 0x0603, roles := rolesO, lenOk := lenIs 4, cls := imageClass, run := doImageCommit }
def cmdImageAbort : Cmd := { op := 0x0604, roles := rolesO, lenOk := lenIs 4, cls := clsIs .a, run := doImageAbort }
def cmdSetActiveSlot : Cmd := { op := 0x0605, roles := rolesO, lenOk := lenIs 1, cls := clsIs .e, run := doSetActiveSlot }
def cmdGetFirmware : Cmd := { op := 0x0606, roles := rolesOVS, lenOk := lenIs 0, cls := clsIs .a, run := doGetFirmware }
def cmdBindSlice : Cmd := { op := 0x0701, roles := rolesOS, lenOk := lenIs 32, cls := clsIs .b, run := doBindSlice }
def cmdUnbindSlice : Cmd := { op := 0x0702, roles := rolesOS, lenOk := lenIs 4, cls := clsIs .b, run := doUnbindSlice }
def cmdResetSlice : Cmd := { op := 0x0703, roles := rolesOS, lenOk := lenIs 4, cls := clsIs .b, run := doResetSlice }
def cmdSetShare : Cmd := { op := 0x0704, roles := rolesOS, lenOk := lenIs 8, cls := clsIs .b, run := doSetShare }
def cmdSetRoute : Cmd := { op := 0x0705, roles := rolesOS, lenOk := lenIs 8, cls := clsIs .b, run := doSetRoute }
def cmdSetWake : Cmd := { op := 0x0706, roles := rolesS, lenOk := lenIs 4, cls := clsIs .b, run := doSetWake }
def cmdSetPartition : Cmd := { op := 0x0707, roles := rolesS, lenOk := lenIs 32, cls := clsIs .b, run := doSetPartition }
def cmdSetSubchannel : Cmd := { op := 0x0708, roles := rolesOS, lenOk := lenIs 144, cls := clsIs .b, run := doSetSubchannel }
def cmdRemoveSubchannel : Cmd := { op := 0x0709, roles := rolesOS, lenOk := lenIs 4, cls := clsIs .b, run := doRemoveSubchannel }
def cmdSetPathState : Cmd := { op := 0x070A, roles := rolesOS, lenOk := lenIs 6, cls := clsIs .b, run := doSetPathState }
def cmdSetTarget : Cmd := { op := 0x070B, roles := rolesO, lenOk := lenIs 272, cls := clsIs .b, run := doSetTarget }
def cmdSetNetaddr : Cmd := { op := 0x070C, roles := rolesS, lenOk := lenIs 48, cls := clsIs .b, run := doSetNetaddr }
def cmdDeclareStream : Cmd := { op := 0x070D, roles := rolesS, lenOk := lenIs 32, cls := clsIs .b, run := doDeclareStream }
def cmdRemoveStream : Cmd := { op := 0x070E, roles := rolesS, lenOk := lenIs 4, cls := clsIs .b, run := doRemoveStream }
def cmdReadJournal : Cmd := { op := 0x070F, roles := rolesS, lenOk := lenIs 20, cls := clsIs .b, run := doReadJournal }
def cmdReadOrphans : Cmd := { op := 0x0710, roles := rolesS, lenOk := lenIs 4, cls := clsIs .b, run := doReadOrphans }
def cmdSetOctet : Cmd := { op := 0x0711, roles := rolesO, lenOk := lenIs 8, cls := clsIs .l, run := doSetOctet }
def cmdSetFarmem : Cmd := { op := 0x0712, roles := rolesO, lenOk := farmemLen, cls := clsIs .e, run := doSetFarmem }
def cmdReadPam : Cmd := { op := 0x0713, roles := rolesS, lenOk := lenIs 0, cls := clsIs .b, run := doReadPam }
def cmdClearPoison : Cmd := { op := 0x0714, roles := rolesS, lenOk := lenIs 144, cls := clsIs .b, run := doClearPoison }
def cmdReadStrand : Cmd := { op := 0x0720, roles := rolesS, lenOk := lenIs 4, cls := clsIs .b, run := doReadStrand }
def cmdStartStrand : Cmd := { op := 0x0721, roles := rolesS, lenOk := lenIs 4100, cls := clsIs .b, run := doStartStrand }
def cmdReleaseStrand : Cmd := { op := 0x0722, roles := rolesS, lenOk := lenIs 4, cls := clsIs .b, run := doReleaseStrand }
def cmdReadUnit : Cmd := { op := 0x0801, roles := rolesOVS, lenOk := lenIs 2, cls := clsIs .a, run := doReadUnit }
def cmdRunSelftest : Cmd := { op := 0x0802, roles := rolesO, lenOk := lenIs 2, cls := clsIs .h, run := doRunSelftest }
def cmdDiagDomain : Cmd := { op := 0x0803, roles := rolesO, lenOk := lenIs 4, cls := clsIs .h, run := doDiagDomain }
def cmdReadPhys : Cmd := { op := 0x0804, roles := rolesO, lenOk := lenIs 16, cls := clsIs .h, run := doReadPhys }
def cmdReadJournalRaw : Cmd := { op := 0x0805, roles := rolesO, lenOk := lenIs 12, cls := clsIs .h, run := doReadJournalRaw }
def cmdTestPort : Cmd := { op := 0x0806, roles := rolesO, lenOk := lenIs 1, cls := clsIs .g, run := doTestPort }
def cmdGetTransportKey : Cmd := { op := 0x0901, roles := rolesOVS, lenOk := lenIs 0, cls := clsIs .a, run := doGetTransportKey }
def cmdLoadKey : Cmd := { op := 0x0902, roles := rolesO, lenOk := loadKeyLen, cls := clsIs .b, run := doLoadKey }
def cmdLoadMemkey : Cmd := { op := 0x0903, roles := rolesS, lenOk := lenIs 8, cls := clsIs .b, run := doLoadMemkey }
def cmdClearMemkey : Cmd := { op := 0x0904, roles := rolesS, lenOk := lenIs 4, cls := clsIs .b, run := doClearMemkey }
def cmdSetKeyQuota : Cmd := { op := 0x0905, roles := rolesS, lenOk := lenIs 4, cls := clsIs .b, run := doSetKeyQuota }
def cmdReassignKey : Cmd := { op := 0x0906, roles := rolesS, lenOk := lenIs 8, cls := clsIs .b, run := doReassignKey }
def cmdDestroyKey : Cmd := { op := 0x0907, roles := rolesOS, lenOk := lenIs 4, cls := clsIs .b, run := doDestroyKey }

/-- Every command of the module. -/
def allCmds : List Cmd :=
  [cmdSessionOpen, cmdSessionClose, cmdGetIdentity, cmdGetInventory, cmdSetOwnerAnchor, cmdSetMgmtNet, cmdGetResult,
   cmdReleaseResult, cmdPowerOn, cmdPowerOff, cmdEnterFallow, cmdProve, cmdSetAutostart, cmdGetMode,
   cmdSetPreferredHalf, cmdRejoin, cmdSetPlacement, cmdGetFeeds, cmdSetRailLimits, cmdSetRail, cmdSetDomain,
   cmdGetDomains, cmdGetTilth, cmdGetPace, cmdReadSilt, cmdFreezeSilt, cmdThawSilt, cmdReadRetained,
   cmdClearRetained, cmdImageBegin, cmdImageData, cmdImageCommit, cmdImageAbort, cmdSetActiveSlot, cmdGetFirmware,
   cmdBindSlice, cmdUnbindSlice, cmdResetSlice, cmdSetShare, cmdSetRoute, cmdSetWake, cmdSetPartition,
   cmdSetSubchannel, cmdRemoveSubchannel, cmdSetPathState, cmdSetTarget, cmdSetNetaddr, cmdDeclareStream, cmdRemoveStream,
   cmdReadJournal, cmdReadOrphans, cmdSetOctet, cmdSetFarmem, cmdReadPam, cmdClearPoison, cmdReadStrand,
   cmdStartStrand, cmdReleaseStrand, cmdReadUnit, cmdRunSelftest, cmdDiagDomain, cmdReadPhys, cmdReadJournalRaw,
   cmdTestPort, cmdGetTransportKey, cmdLoadKey, cmdLoadMemkey, cmdClearMemkey, cmdSetKeyQuota, cmdReassignKey,
   cmdDestroyKey]

/-- The command of an opcode; none when it is not assigned. -/
def cmdOf (op : BitVec 16) : Option Cmd := allCmds.find? fun c => c.op = op

/-- A request for a command arrives, behind those that have waited long enough (R346, R349). -/
def flelet (c : Cmd) (src : FSource) (p : Packet) (s : State) : Out := .next (request (some c) c.op src p (pump cmdOf s))

def execSessionOpen (src : FSource) (p : Packet) (s : State) : Out := flelet cmdSessionOpen src p s
def execSessionClose (src : FSource) (p : Packet) (s : State) : Out := flelet cmdSessionClose src p s
def execGetIdentity (src : FSource) (p : Packet) (s : State) : Out := flelet cmdGetIdentity src p s
def execGetInventory (src : FSource) (p : Packet) (s : State) : Out := flelet cmdGetInventory src p s
def execSetOwnerAnchor (src : FSource) (p : Packet) (s : State) : Out := flelet cmdSetOwnerAnchor src p s
def execSetMgmtNet (src : FSource) (p : Packet) (s : State) : Out := flelet cmdSetMgmtNet src p s
def execGetResult (src : FSource) (p : Packet) (s : State) : Out := flelet cmdGetResult src p s
def execReleaseResult (src : FSource) (p : Packet) (s : State) : Out := flelet cmdReleaseResult src p s
def execPowerOn (src : FSource) (p : Packet) (s : State) : Out := flelet cmdPowerOn src p s
def execPowerOff (src : FSource) (p : Packet) (s : State) : Out := flelet cmdPowerOff src p s
def execEnterFallow (src : FSource) (p : Packet) (s : State) : Out := flelet cmdEnterFallow src p s
def execProve (src : FSource) (p : Packet) (s : State) : Out := flelet cmdProve src p s
def execSetAutostart (src : FSource) (p : Packet) (s : State) : Out := flelet cmdSetAutostart src p s
def execGetMode (src : FSource) (p : Packet) (s : State) : Out := flelet cmdGetMode src p s
def execSetPreferredHalf (src : FSource) (p : Packet) (s : State) : Out := flelet cmdSetPreferredHalf src p s
def execRejoin (src : FSource) (p : Packet) (s : State) : Out := flelet cmdRejoin src p s
def execSetPlacement (src : FSource) (p : Packet) (s : State) : Out := flelet cmdSetPlacement src p s
def execGetFeeds (src : FSource) (p : Packet) (s : State) : Out := flelet cmdGetFeeds src p s
def execSetRailLimits (src : FSource) (p : Packet) (s : State) : Out := flelet cmdSetRailLimits src p s
def execSetRail (src : FSource) (p : Packet) (s : State) : Out := flelet cmdSetRail src p s
def execSetDomain (src : FSource) (p : Packet) (s : State) : Out := flelet cmdSetDomain src p s
def execGetDomains (src : FSource) (p : Packet) (s : State) : Out := flelet cmdGetDomains src p s
def execGetTilth (src : FSource) (p : Packet) (s : State) : Out := flelet cmdGetTilth src p s
def execGetPace (src : FSource) (p : Packet) (s : State) : Out := flelet cmdGetPace src p s
def execReadSilt (src : FSource) (p : Packet) (s : State) : Out := flelet cmdReadSilt src p s
def execFreezeSilt (src : FSource) (p : Packet) (s : State) : Out := flelet cmdFreezeSilt src p s
def execThawSilt (src : FSource) (p : Packet) (s : State) : Out := flelet cmdThawSilt src p s
def execReadRetained (src : FSource) (p : Packet) (s : State) : Out := flelet cmdReadRetained src p s
def execClearRetained (src : FSource) (p : Packet) (s : State) : Out := flelet cmdClearRetained src p s
def execImageBegin (src : FSource) (p : Packet) (s : State) : Out := flelet cmdImageBegin src p s
def execImageData (src : FSource) (p : Packet) (s : State) : Out := flelet cmdImageData src p s
def execImageCommit (src : FSource) (p : Packet) (s : State) : Out := flelet cmdImageCommit src p s
def execImageAbort (src : FSource) (p : Packet) (s : State) : Out := flelet cmdImageAbort src p s
def execSetActiveSlot (src : FSource) (p : Packet) (s : State) : Out := flelet cmdSetActiveSlot src p s
def execGetFirmware (src : FSource) (p : Packet) (s : State) : Out := flelet cmdGetFirmware src p s
def execBindSlice (src : FSource) (p : Packet) (s : State) : Out := flelet cmdBindSlice src p s
def execUnbindSlice (src : FSource) (p : Packet) (s : State) : Out := flelet cmdUnbindSlice src p s
def execResetSlice (src : FSource) (p : Packet) (s : State) : Out := flelet cmdResetSlice src p s
def execSetShare (src : FSource) (p : Packet) (s : State) : Out := flelet cmdSetShare src p s
def execSetRoute (src : FSource) (p : Packet) (s : State) : Out := flelet cmdSetRoute src p s
def execSetWake (src : FSource) (p : Packet) (s : State) : Out := flelet cmdSetWake src p s
def execSetPartition (src : FSource) (p : Packet) (s : State) : Out := flelet cmdSetPartition src p s
def execSetSubchannel (src : FSource) (p : Packet) (s : State) : Out := flelet cmdSetSubchannel src p s
def execRemoveSubchannel (src : FSource) (p : Packet) (s : State) : Out := flelet cmdRemoveSubchannel src p s
def execSetPathState (src : FSource) (p : Packet) (s : State) : Out := flelet cmdSetPathState src p s
def execSetTarget (src : FSource) (p : Packet) (s : State) : Out := flelet cmdSetTarget src p s
def execSetNetaddr (src : FSource) (p : Packet) (s : State) : Out := flelet cmdSetNetaddr src p s
def execDeclareStream (src : FSource) (p : Packet) (s : State) : Out := flelet cmdDeclareStream src p s
def execRemoveStream (src : FSource) (p : Packet) (s : State) : Out := flelet cmdRemoveStream src p s
def execReadJournal (src : FSource) (p : Packet) (s : State) : Out := flelet cmdReadJournal src p s
def execReadOrphans (src : FSource) (p : Packet) (s : State) : Out := flelet cmdReadOrphans src p s
def execSetOctet (src : FSource) (p : Packet) (s : State) : Out := flelet cmdSetOctet src p s
def execSetFarmem (src : FSource) (p : Packet) (s : State) : Out := flelet cmdSetFarmem src p s
def execReadPam (src : FSource) (p : Packet) (s : State) : Out := flelet cmdReadPam src p s
def execClearPoison (src : FSource) (p : Packet) (s : State) : Out := flelet cmdClearPoison src p s
def execReadStrand (src : FSource) (p : Packet) (s : State) : Out := flelet cmdReadStrand src p s
def execStartStrand (src : FSource) (p : Packet) (s : State) : Out := flelet cmdStartStrand src p s
def execReleaseStrand (src : FSource) (p : Packet) (s : State) : Out := flelet cmdReleaseStrand src p s
def execReadUnit (src : FSource) (p : Packet) (s : State) : Out := flelet cmdReadUnit src p s
def execRunSelftest (src : FSource) (p : Packet) (s : State) : Out := flelet cmdRunSelftest src p s
def execDiagDomain (src : FSource) (p : Packet) (s : State) : Out := flelet cmdDiagDomain src p s
def execReadPhys (src : FSource) (p : Packet) (s : State) : Out := flelet cmdReadPhys src p s
def execReadJournalRaw (src : FSource) (p : Packet) (s : State) : Out := flelet cmdReadJournalRaw src p s
def execTestPort (src : FSource) (p : Packet) (s : State) : Out := flelet cmdTestPort src p s
def execGetTransportKey (src : FSource) (p : Packet) (s : State) : Out := flelet cmdGetTransportKey src p s
def execLoadKey (src : FSource) (p : Packet) (s : State) : Out := flelet cmdLoadKey src p s
def execLoadMemkey (src : FSource) (p : Packet) (s : State) : Out := flelet cmdLoadMemkey src p s
def execClearMemkey (src : FSource) (p : Packet) (s : State) : Out := flelet cmdClearMemkey src p s
def execSetKeyQuota (src : FSource) (p : Packet) (s : State) : Out := flelet cmdSetKeyQuota src p s
def execReassignKey (src : FSource) (p : Packet) (s : State) : Out := flelet cmdReassignKey src p s
def execDestroyKey (src : FSource) (p : Packet) (s : State) : Out := flelet cmdDestroyKey src p s

/-- A request whose opcode is not assigned (R497). -/
def execUnknownOpcode (src : FSource) (opcode : BitVec 16) (p : Packet) (s : State) : Out :=
  .next (if (cmdOf opcode).isSome then s else request none opcode src p (pump cmdOf s))

/-! ## Connections and sessions (R489, R491) -/

/-- Number of the next connection: one that nothing on record names. -/
def Body.nextConn (b : Body) : Nat :=
  let waits := b.ctl.genWait.filterMap fun w => match w.src with | .conn n => some n | .mailbox _ _ => none
  (b.ctl.conns.map (·.1) ++ b.ctl.outbox.map (·.1) ++ waits).foldl max 0 + 1

/-- A connection arrives at a management port. The fifth one of a port is reset, and a client without a certificate that the anchor
allows fails the handshake. -/
def execConnectionOpen (port : HubId) (cert : CertKind) (s : State) : Out :=
  let b := s.body
  let here := b.islandUp port && !(b.ctl.islands[port]).portFailed
  let full := 4 ≤ (b.ctl.conns.filter fun e => e.2.port = port).length
  if !here || full || (cert = .neither && s.cfg.anchor.isSome) then .next s
  else
    .next { s with body := b.modCtl fun c => { c with
      conns := tPut c.conns b.nextConn { port := port, cert := cert, session := none, maxSeq := 0, replies := [], lastPacket := b.now } } }

/-- A session has had no packet for 600 s. -/
def execSessionTimeout (conn : Nat) (s : State) : Out :=
  onBody (fun b =>
    match tGet b.ctl.conns conn with
    | some x =>
      if x.session.isSome then (b.reach b.ctl.steering (x.lastPacket + 600000000000)).closeConns fun n _ => n = conn else b
    | none => b) s

/-- The peer ends a connection: the module sends nothing more on it. -/
def execConnectionEnd (conn : Nat) (s : State) : Out :=
  onBody (fun b => (b.closeConns fun n _ => n = conn).modCtl fun c => { c with outbox := b.ctl.outbox }) s

/-! ## The mailbox (R494 to R496) -/

/-- A packet from its bytes. -/
def packetOf (h params : List Byte) : Packet :=
  { magic := BitVec.ofNat 16 (field h 0 2), version := h.getD 2 0, flags := h.getD 3 0, status := h.getD 6 0, detail := h.getD 7 0,
    sequence := BitVec.ofNat 32 (field h 8 4), session := BitVec.ofNat 32 (field h 12 4), plen := BitVec.ofNat 32 (field h 16 4),
    ticket := BitVec.ofNat 32 (field h 20 4), mode := h.getD 24 0, half := h.getD 25 0, island := h.getD 26 0,
    reserved := BitVec.ofNat 40 (field h 27 5), params := params }

/-- The request in a slot: opcode and packet. A slot whose lines are lost holds none. -/
def Body.mailRequest (b : Body) (i : HubId) (n : Fin 16) : Option (BitVec 16 × Packet) :=
  let base := b.slotBase i n
  if b.ctl.genWait.any fun w => w.src = .mailbox i n then none
  else match b.readSup base 8, b.readSup (base + 32) 32 with
  | some st, some h =>
    if leNat st != 1 then none
    else
      let plen := field h 16 4
      match b.readSup (base + 64) (if plen ≤ 65472 then plen else 0) with
      | some ps => some (BitVec.ofNat 16 (field h 4 2), packetOf h ps)
      | none => none
  | _, _ => none

/-- The requests of one reading, in ascending order of SEQUENCE. -/
def Body.mailRequests (b : Body) (i : HubId) : List (Fin 16 × BitVec 16 × Packet) :=
  let found := (List.finRange 16).filterMap fun n => (b.mailRequest i n).map fun r => (n, r.1, r.2)
  (found.foldl (fun l x => insertKeyed x.2.2.sequence.toNat x l) []).map (·.2)

/-- The island that serves a mailbox reads it and performs its requests. -/
def execMailboxPoll (island : HubId) (s : State) : Out :=
  let s := pump cmdOf s
  if (s.body.receiver (.mailbox island 0)).isNone then .next s
  else .next ((s.body.mailRequests island).foldl (fun s x => request (cmdOf x.2.1) x.2.1 (.mailbox island x.1) x.2.2 s) s)

/-! ## The ends of a slice's waits and drains (R349, R366) -/

/-- 20 µs have passed since a slice's last generation advance: the commands that wait for that are performed. -/
def execGenerationWaitExpiry (sl : SliceId) (s : State) : Out :=
  let b := s.body
  let x := b.slice sl
  match x.lastAdv with
  | some t =>
    if b.ctl.genWait.isEmpty then .next s
    else .next (pump cmdOf { s with body := b.reach (b.servingHub sl x.part) (t + 20000) })
  | none => .next s

/-- A drain ends. -/
def execSliceDrainComplete (sl : SliceId) (s : State) : Out :=
  onBody (fun b => if b.serving then b.endDrain sl fun b d => b.drainRefusal sl d else b) s

end Sys2Proof.Machine
end

