-- ==== Sys2Proof/Machine/LoadStore.lean ====
section
/-!
DEFINITION. Loads, stores, instruction-space accesses, block move, reservations and compare-and-swap
(R111, R112, R139, R140, R213 to R218).
-/

namespace Sys2Proof.Machine

def zext8 (bs : List Byte) : W := BitVec.ofNat 64 (leNat bs)
def sextBytes (bs : List Byte) : W := (BitVec.ofNat (8 * bs.length) (leNat bs)).signExtend 64

def loadRes (b : Body) (t : StrandId) (sz : Size) (m : MemForm) (rd : Reg) (sgn : Bool) : Res :=
  let s := b.strand t
  let n := sizeBytes sz
  (b.loadVa t needLoad s.dataPrv (s.ea m n) n).then fun b bs =>
    doneReg b t rd (if sgn then sextBytes bs else zext8 bs)

def storeRes (b : Body) (t : StrandId) (sz : Size) (m : MemForm) (rd : Reg) : Res :=
  let s := b.strand t
  let n := sizeBytes sz
  (b.plainStore t needStore s.dataPrv (s.ea m n) (leBytes n (s.reg rd).toNat)).then fun b _ => .ok b none

def execLd (t : StrandId) (sz : Size) (m : MemForm) (rd : Reg) (s : State) : Out :=
  insn t (.ld t sz m rd) (fun b => loadRes b t sz m rd false) false s
/-- There is no sign-extending load of 8 bytes (R111). -/
def execLds (t : StrandId) (sz : Size) (m : MemForm) (rd : Reg) (s : State) : Out :=
  insn t (.lds t sz m rd) (fun b => if sz = .d then illegal b else loadRes b t sz m rd true) false s
def execSt (t : StrandId) (sz : Size) (m : MemForm) (rd : Reg) (s : State) : Out :=
  insn t (.st t sz m rd) (fun b => storeRes b t sz m rd) false s

/-- Instruction-space address of IRD and IWR (R97). -/
def Strand.iea (s : Strand) (base : Reg) (d : BitVec 24) : Nat := s.ea (.disp base d) 8 % 2 ^ 48

def execIrd (t : StrandId) (base : Reg) (disp : BitVec 24) (rd : Reg) (s : State) : Out :=
  insn t (.ird t base disp rd) (fun b => needPrv b t 1 <|
    (b.loadVa t needIrd (b.strand t).prv ((b.strand t).iea base disp) 8).then fun b bs => doneReg b t rd (zext8 bs)) false s
def execIwr (t : StrandId) (base : Reg) (disp : BitVec 24) (rd : Reg) (s : State) : Out :=
  insn t (.iwr t base disp rd) (fun b => needPrv b t 1 <|
    (b.plainStore t needIwr (b.strand t).prv ((b.strand t).iea base disp)
      (leBytes 8 ((b.strand t).reg rd).toNat)).then fun b _ => .ok b none) false s

/-! ## Block move -/

/-- The first line of an access that cannot be read (R437, R464). -/
def Body.readCheck (b : Body) (t : StrandId) (gs : List Seg) : Option WStop :=
  gs.findSome? fun g => b.dataCheck t g.cls g.pa

/-- One chunk of a BMOVE, up to its commit; with more to move the strand stays at it (R139, R140). The source is checked wholly before
the destination. -/
def bmoveRes (b : Body) (t : StrandId) (rd ra rb : Reg) : Res :=
  let s := b.strand t
  if !(rd != 0 && ra != 0 && rb != 0 && rd != ra && rd != rb && ra != rb) then illegal b
  else if s.reg rb = 0 then .ok b none
  else
    let n := min (s.reg rb).toNat 256
    match b.translate t needLoad s.dataPrv (s.reg ra).toNat n with
    | .stop b r => .trap b r
    | .ok b ps =>
      match b.readCheck t (segsOf ps) with
      | some w => .trap (b.lose w) w.req
      | none =>
      (b.storeVa t needStore s.dataPrv (s.reg rd).toNat n).then fun b gs =>
        (b.readSegs t (segsOf ps)).then fun b bs =>
          match b.bufferStore t gs bs with
          | none => .hold b
          | some b =>
            let k := BitVec.ofNat 64 n
            let b := b.modStrand t fun s =>
              ((s.setReg rd (s.reg rd + k)).setReg ra (s.reg ra + k)).setReg rb (s.reg rb - k)
            if (b.strand t).reg rb = 0 then .ok b none else b.interiorCommit t

def execBmove (t : StrandId) (rd ra rb : Reg) (s : State) : Out :=
  insn t (.bmove t rd ra rb) (fun b => bmoveRes b t rd ra rb) false s

/-! ## Reservations -/

/-- The two lines of a granule (R213). -/
def granuleLines (g : Nat) : List Line := [BitVec.ofNat 45 (2 * g), BitVec.ofNat 45 (2 * g + 1)]

/-- Requests, for write, the lines of a granule that the cluster's L2 does not hold writable; none when it holds both (R213). -/
def Body.obtainGranule (b : Body) (t : StrandId) (g : Nat) (slot : Byte) (nol3 : Bool) : Option Body :=
  let missing := (granuleLines g).filter fun l =>
    match b.l2Has (clusterOfStrand t) l with
    | some (_, e) => !e.writable
    | none => true
  if missing.isEmpty then none
  else some (missing.foldl (fun b l => b.postReq (b.reqFor t l slot nol3 true)) b)

/-- LDR (R112, R213, R217). A new hold waits for the requests that an earlier hold deferred. -/
def ldrRes (b : Body) (t : StrandId) (wd : Width) (rd ra : Reg) : Res :=
  let s := b.strand t
  let n := widthBytes wd
  let va := s.reg ra
  if va.toNat % n ≠ 0 then .trap b (trapAlign va n)
  else match b.translate t needLdr s.dataPrv va.toNat n with
  | .stop b r => .trap b r
  | .ok b ps =>
    (b.readSegs t (segsOf ps)).then fun b bs =>
      match segsOf ps with
      | [] => .hold b
      | g :: _ =>
        let gr := granuleOf g.pa
        let done (b : Body) (hold : Bool) : Res :=
          doneReg (b.modStrand t fun s => { s with resv := some gr, hold := hold }) t rd (zext8 bs)
        if g.cls = .scratchpad || !(b.cluster (clusterOfStrand t)).l2e then done b false
        else match b.obtainGranule t gr g.slot g.nol3 with
          | some b => .hold b
          | none =>
            done b (!(b.mem.reqs.any fun r => r.write && r.cluster != clusterOfStrand t && (granuleLines gr).contains r.line))

/-- STC (R112, R214, R216, R218). A success waits for the store buffer to be empty. -/
def stcRes (b : Body) (t : StrandId) (wd : Width) (rd ra rb : Reg) : Res :=
  let s := b.strand t
  let n := widthBytes wd
  let va := s.reg ra
  if va.toNat % n ≠ 0 then .trap b (trapAlign va n)
  else (b.storeVa t needStc s.dataPrv va.toNat n).then fun b gs =>
    match gs with
    | [] => .hold b
    | g :: _ =>
      let finish (b : Body) (ok : Bool) : Res :=
        .ok (b.modStrand t fun s => ((s.endResv).setReg rd (if ok then 0 else 1)).setCC (mkCC false ok false false)) none
      let disabled := g.cls != .scratchpad && !(b.cluster (clusterOfStrand t)).l2e
      if (b.strand t).resv != some (granuleOf g.pa) || disabled then finish b false
      else if !(b.strand t).sb.isEmpty then .hold b
      else match b.perform t g (leBytes n (s.reg rb).toNat) with
        | .yes b => finish b true
        | .wait b => .hold b
        | .lost b w => .trap b w.req

/-- The present contents of a naturally aligned datum, with its line held for write (R218). A cluster without L2 makes its write request
at the home: other clusters' copies of the line, and their reservations on it, go (R169, R215), once no hold defers that (R217). -/
def Body.exclusiveRead (b : Body) (t : StrandId) (g : Seg) : LRes (List Byte) :=
  let l := lineNo g.pa
  let c := clusterOfStrand t
  match b.dataCheck t g.cls g.pa with
  | some w => .trap (b.lose w) w.req
  | none =>
    if g.cls = .scratchpad then .ok b ((b.cluster (b.spadHome t)).spadRead (spadOffset g.pa) g.len)
    else if !(b.cluster c).l2e then
      if b.lineHeld l then .hold b
      else
        let b := b.awaitBack l
        let d := b.coherent l g.slot
        let b := b.invalidateOthers l none
        .ok (b.mapStrands fun u s => if clusterOfStrand u ≠ c ∧ s.resv = some (granuleOf g.pa) then s.endResv else s)
          (lineGet d (g.pa % 128) g.len)
    else match b.l2Has c l with
      | some (k, e) =>
        if e.writable then .ok (b.useL2 c k) (lineGet e.data (g.pa % 128) g.len)
        else .hold (b.postReq (b.reqFor t l g.slot g.nol3 true))
      | none => .hold (b.postReq (b.reqFor t l g.slot g.nol3 true))

/-- CAS (R112, R218): one indivisible read and conditional write, with the store buffer empty. -/
def casRes (b : Body) (t : StrandId) (wd : Width) (rd ra rb : Reg) : Res :=
  let s := b.strand t
  let n := widthBytes wd
  let va := s.reg ra
  if va.toNat % n ≠ 0 then .trap b (trapAlign va n)
  else (b.storeVa t needCas s.dataPrv va.toNat n).then fun b gs =>
    match gs with
    | [] => .hold b
    | g :: _ =>
      if !(b.strand t).sb.isEmpty then .hold b
      else (b.exclusiveRead t g).then fun b old =>
        let same := old == leBytes n (s.reg rd).toNat
        let finish (b : Body) : Res :=
          .ok (b.modStrand t fun s => (s.setReg rd (zext8 old)).setCC (mkCC false same false false)) none
        if same then
          match b.perform t g (leBytes n (s.reg rb).toNat) with
          | .yes b => finish b
          | .wait b => .hold b
          | .lost b w => .trap b w.req
        else finish b

def execLdr (t : StrandId) (wd : Width) (rd ra : Reg) (s : State) : Out :=
  insn t (.ldr t wd rd ra) (fun b => ldrRes b t wd rd ra) false s
def execStc (t : StrandId) (wd : Width) (rd ra rb : Reg) (s : State) : Out :=
  insn t (.stc t wd rd ra rb) (fun b => stcRes b t wd rd ra rb) false s
def execCas (t : StrandId) (wd : Width) (rd ra rb : Reg) (s : State) : Out :=
  insn t (.cas t wd rd ra rb) (fun b => casRes b t wd rd ra rb) false s

end Sys2Proof.Machine
end

