-- ==== Sys2Proof/Machine/Float.lean ====
section
/-!
DEFINITION. Floating point: formats, rounding, the operations and the step sequences, flags and the
pending exception (chapter 5).
-/

namespace Sys2Proof.Machine

/-! ## Formats (R145, R146) -/

/-- Precision p of a format. -/
def fpP : FFmt → Nat
  | .s => 24
  | .d => 53
  | .q => 113
def fpEmax : FFmt → Int
  | .s => 127
  | .d => 1023
  | .q => 16383
def fpEmin (f : FFmt) : Int := 1 - fpEmax f
def fpWidth : FFmt → Nat
  | .s => 32
  | .d => 64
  | .q => 128
def fpBytes (f : FFmt) : Nat := fpWidth f / 8

/-- A decoded operand. `fin` is (−1)^neg × m × 2^e. -/
inductive FVal where
  | nan (bits : Nat) (quiet : Bool)
  | inf (neg : Bool)
  | fin (neg : Bool) (m : Nat) (e : Int)
  deriving DecidableEq, Repr

/-- Largest biased exponent, that of infinities and NaNs. -/
def fpExpMask (f : FFmt) : Nat := 2 ^ (fpWidth f - fpP f) - 1
def fpSignBit (f : FFmt) : Nat := 2 ^ (fpWidth f - 1)

def fpDecode (f : FFmt) (x : BitVec 128) : FVal :=
  let n := x.toNat % 2 ^ fpWidth f
  let neg := fpSignBit f ≤ n
  let p := fpP f
  let e := n / 2 ^ (p - 1) % (fpExpMask f + 1)
  let fr := n % 2 ^ (p - 1)
  if e = fpExpMask f then (if fr = 0 then .inf neg else .nan n (2 ^ (p - 2) ≤ fr))
  else if e = 0 then .fin neg fr (fpEmin f - (p - 1))
  else .fin neg (fr + 2 ^ (p - 1)) (e - fpEmax f - (p - 1))

def fpSigned (f : FFmt) (neg : Bool) (n : Nat) : BitVec 128 :=
  BitVec.ofNat 128 (n + if neg then fpSignBit f else 0)
def fpZero (f : FFmt) (neg : Bool) : BitVec 128 := fpSigned f neg 0
def fpInf (f : FFmt) (neg : Bool) : BitVec 128 := fpSigned f neg (fpExpMask f * 2 ^ (fpP f - 1))
def fpMax (f : FFmt) (neg : Bool) : BitVec 128 := fpSigned f neg (fpExpMask f * 2 ^ (fpP f - 1) - 1)
def fpDnan (f : FFmt) : BitVec 128 := fpSigned f false (fpExpMask f * 2 ^ (fpP f - 1) + 2 ^ (fpP f - 2))

/-! ## Flags and rounding (R150, R151) -/

def fNone : BitVec 5 := 0
def fNX : BitVec 5 := 1
def fUF : BitVec 5 := 2
def fOF : BitVec 5 := 4
def fDZ : BitVec 5 := 8
def fNV : BitVec 5 := 16

/-- A result encoding with the flags raised. -/
abbrev FRes := BitVec 128 × BitVec 5

/-- Does magnitude `quot`, with a remainder compared to half, round up under attribute `rm` (R76)?
`half` is −1, 0 or 1 as the remainder lies below, at or above half. -/
def roundsUp (rm : Nat) (neg odd : Bool) (inexact : Bool) (half : Int) : Bool :=
  match rm with
  | 0 => half > 0 || (half = 0 && odd)
  | 1 => half ≥ 0
  | 2 => false
  | 3 => inexact && !neg
  | _ => inexact && neg

/-- m × 2^e, with `sticky` for a positive part below its last place, cut to a multiple of 2^q: the rounded multiple and
whether it is inexact. -/
def roundAt (rm : Nat) (neg : Bool) (m : Nat) (e q : Int) (sticky : Bool) : Nat × Bool :=
  if q ≤ e then (m * 2 ^ (e - q).toNat, sticky)
  else
    let k := (q - e).toNat
    let quot := m / 2 ^ k
    let rem := m % 2 ^ k
    let inexact := rem != 0 || sticky
    let h := 2 ^ (k - 1)
    let half : Int := if !inexact then -1 else if rem < h then -1 else if rem = h && !sticky then 0 else 1
    (if inexact && roundsUp rm neg (quot % 2 = 1) inexact half then quot + 1 else quot, inexact)

/-- The exact value (−1)^neg × m × 2^e (plus a sticky part), m above 0, rounded to the format (R150, R151). -/
def fpRound (f : FFmt) (rm : Nat) (neg : Bool) (m : Nat) (e : Int) (sticky : Bool) : FRes :=
  let p : Int := fpP f
  let top : Int := e + Nat.log2 m + 1
  -- With an unbounded exponent range.
  let (m1, inx1) := roundAt rm neg m e (top - p) sticky
  let exp1 := top - p + Nat.log2 m1
  if fpEmax f < exp1 then
    let toInf := rm = 0 || rm = 1 || (rm = 3 && !neg) || (rm = 4 && neg)
    (if toInf then fpInf f neg else fpMax f neg, fOF ||| fNX)
  else if fpEmin f ≤ exp1 && fpEmin f ≤ top - 1 then
    -- Normal before and after rounding; a carry out of the significand is in exp1.
    let frac := if m1 = 2 ^ fpP f then 0 else m1 - 2 ^ (fpP f - 1)
    (fpSigned f neg (((exp1 + fpEmax f).toNat) * 2 ^ (fpP f - 1) + frac), if inx1 then fNX else fNone)
  else
    -- Subnormal place; the rounded multiple may be MinN itself.
    let (m2, inx2) := roundAt rm neg m e (fpEmin f - p + 1) sticky
    let tiny := exp1 < fpEmin f
    (fpSigned f neg m2, if inx2 then (if tiny then fUF ||| fNX else fNX) else fNone)

/-- A signed exact value; zero takes the sign given. -/
def fpRoundInt (f : FFmt) (rm : Nat) (zeroNeg : Bool) (v : Int) (e : Int) : FRes :=
  if v = 0 then (fpZero f zeroNeg, fNone) else fpRound f rm (v < 0) v.natAbs e false

/-! ## NaNs (R153) -/

def fpQuiet (f : FFmt) (bits : Nat) : BitVec 128 := BitVec.ofNat 128 (bits ||| 2 ^ (fpP f - 2))

/-- The NaN result of operands in order, if any is a NaN, with NV when one signals. -/
def fpNan (f : FFmt) (xs : List FVal) : Option FRes :=
  let sig := xs.any fun x => match x with | .nan _ q => !q | _ => false
  (xs.findSome? fun x => match x with | .nan n _ => some n | _ => none).map fun n => (fpQuiet f n, if sig then fNV else fNone)

def fpNegVal (x : FVal) : FVal :=
  match x with
  | .nan n q => .nan n q
  | .inf s => .inf !s
  | .fin s m e => .fin (!s) m e

def signedM (neg : Bool) (m : Nat) : Int := if neg then -(m : Int) else m

/-- Sum of two finite values: significand and exponent. -/
def fpSum (s1 : Bool) (m1 : Nat) (e1 : Int) (s2 : Bool) (m2 : Nat) (e2 : Int) : Int × Int :=
  let e := min e1 e2
  (signedM s1 (m1 * 2 ^ (e1 - e).toNat) + signedM s2 (m2 * 2 ^ (e2 - e).toNat), e)

/-! ## Operations (R154 to R158, R161) -/

def fpAddVal (f : FFmt) (rm : Nat) (a b : FVal) : FRes :=
  match fpNan f [a, b] with
  | some r => r
  | none =>
    match a, b with
    | .inf s, .inf t => if s = t then (fpInf f s, fNone) else (fpDnan f, fNV)
    | .inf s, _ => (fpInf f s, fNone)
    | _, .inf t => (fpInf f t, fNone)
    | .fin s1 m1 e1, .fin s2 m2 e2 =>
      let (v, e) := fpSum s1 m1 e1 s2 m2 e2
      let zs := if m1 = 0 ∧ m2 = 0 ∧ s1 = s2 then s1 else rm = 4
      fpRoundInt f rm zs v e
    | _, _ => (fpDnan f, fNV)

def fpMulVal (f : FFmt) (rm : Nat) (a b : FVal) : FRes :=
  match fpNan f [a, b] with
  | some r => r
  | none =>
    match a, b with
    | .inf s, .inf t => (fpInf f (s != t), fNone)
    | .inf s, .fin t m _ => if m = 0 then (fpDnan f, fNV) else (fpInf f (s != t), fNone)
    | .fin s m _, .inf t => if m = 0 then (fpDnan f, fNV) else (fpInf f (s != t), fNone)
    | .fin s m e, .fin t n g =>
      if m * n = 0 then (fpZero f (s != t), fNone) else fpRound f rm (s != t) (m * n) (e + g) false
    | _, _ => (fpDnan f, fNV)

/-- fa × fb + fc with one rounding. 0 × ∞ raises NV even beside a quiet NaN (R153). -/
def fpFmaVal (f : FFmt) (rm : Nat) (a b c : FVal) : FRes :=
  let zeroInf : Bool := match a, b with
    | .inf _, .fin _ m _ => m == 0
    | .fin _ m _, .inf _ => m == 0
    | _, _ => false
  match fpNan f [a, b, c] with
  | some (r, fl) => (r, if zeroInf then fl ||| fNV else fl)
  | none =>
    if zeroInf then (fpDnan f, fNV)
    else match a, b, c with
    | .fin s m e, .fin t n g, .fin u k h =>
      let ps := s != t
      let (v, x) := fpSum ps (m * n) (e + g) u k h
      let zs := if m * n = 0 ∧ k = 0 ∧ ps = u then ps else rm = 4
      fpRoundInt f rm zs v x
    | .fin _ _ _, .fin _ _ _, .inf u => (fpInf f u, fNone)
    | x, y, .inf u =>
      let ps := (match x with | .inf s => s | .fin s _ _ => s | _ => false) !=
        (match y with | .inf s => s | .fin s _ _ => s | _ => false)
      if ps = u then (fpInf f u, fNone) else (fpDnan f, fNV)
    | x, y, _ =>
      let ps := (match x with | .inf s => s | .fin s _ _ => s | _ => false) !=
        (match y with | .inf s => s | .fin s _ _ => s | _ => false)
      (fpInf f ps, fNone)

/-- Quotient with enough digits and a sticky remainder. -/
def fpDivVal (f : FFmt) (rm : Nat) (a b : FVal) : FRes :=
  match fpNan f [a, b] with
  | some r => r
  | none =>
    match a, b with
    | .inf _, .inf _ => (fpDnan f, fNV)
    | .inf s, .fin t _ _ => (fpInf f (s != t), fNone)
    | .fin s _ _, .inf t => (fpZero f (s != t), fNone)
    | .fin s m e, .fin t n g =>
      if n = 0 then (if m = 0 then (fpDnan f, fNV) else (fpInf f (s != t), fDZ))
      else if m = 0 then (fpZero f (s != t), fNone)
      else
        let k := fpP f + 4 + Nat.log2 n + 1
        let x := m * 2 ^ k
        fpRound f rm (s != t) (x / n) (e - g - k) (x % n != 0)
    | _, _ => (fpDnan f, fNV)

/-- Integer square root by bits, high to low. -/
def isqrt (n : Nat) : Nat → Nat → Nat
  | 0, r => r
  | k + 1, r => let c := r + 2 ^ k; isqrt n k (if c * c ≤ n then c else r)

def fpSqrtVal (f : FFmt) (rm : Nat) (a : FVal) : FRes :=
  match fpNan f [a] with
  | some r => r
  | none =>
    match a with
    | .inf s => if s then (fpDnan f, fNV) else (fpInf f false, fNone)
    | .fin s m e =>
      if m = 0 then (fpZero f s, fNone)
      else if s then (fpDnan f, fNV)
      else
        let k := 2 * fpP f + 4
        let k := if (e - k) % 2 = 0 then k else k + 1
        let n := m * 2 ^ k
        let r := isqrt n (Nat.log2 n / 2 + 1) 0
        fpRound f rm false r ((e - k) / 2) (r * r != n)
    | _ => (fpDnan f, fNV)

/-- Order of two values that are not NaNs: −0 equals +0. -/
def fpCompare (a b : FVal) : Ordering :=
  match a, b with
  | .inf s, .inf t => if s = t then .eq else if s then .lt else .gt
  | .inf s, _ => if s then .lt else .gt
  | _, .inf t => if t then .gt else .lt
  | .fin s m e, .fin t n g => compare (fpSum s m e (!t) n g).1 0
  | _, _ => .eq

def fpIsNan (x : FVal) : Bool := match x with | .nan _ _ => true | _ => false
def fpSignals (x : FVal) : Bool := match x with | .nan _ q => !q | _ => false
def fpNeg (x : FVal) : Bool := match x with | .inf s => s | .fin s _ _ => s | .nan _ _ => false

/-- FMIN and FMAX, and their number forms (R158). -/
def fpMinMax (f : FFmt) (number max : Bool) (xa xb : BitVec 128) : FRes :=
  let a := fpDecode f xa
  let b := fpDecode f xb
  let low (x : BitVec 128) : BitVec 128 := BitVec.ofNat 128 (x.toNat % 2 ^ fpWidth f)
  let fl := if fpSignals a || fpSignals b then fNV else fNone
  if number && fpIsNan a && !fpIsNan b then (low xb, fl)
  else if number && fpIsNan b && !fpIsNan a then (low xa, fl)
  else match fpNan f [a, b] with
  | some r => r
  | none =>
    let aFirst := match fpCompare a b with
      | .lt => true
      | .gt => false
      | .eq => fpNeg a
    (if aFirst != max then low xa else low xb, fl)

/-- CC and flags of FCMP (R157). -/
def fpCmpVal (sig : Bool) (a b : FVal) : BitVec 4 × BitVec 5 :=
  if fpIsNan a || fpIsNan b then
    (mkCC false false true false, if sig || fpSignals a || fpSignals b then fNV else fNone)
  else match fpCompare a b with
  | .lt => (mkCC true false false false, fNone)
  | .eq => (mkCC false true false true, fNone)
  | .gt => (mkCC false false false true, fNone)

/-- Conversion between formats (R153, R161). -/
def fpConvert (src dst : FFmt) (rm : Nat) (a : FVal) : FRes :=
  match a with
  | .nan n q =>
    let neg := fpSignBit src ≤ n
    let fr := n % 2 ^ (fpP src - 1)
    let fr' := if fpP dst ≤ fpP src then fr / 2 ^ (fpP src - fpP dst) else fr * 2 ^ (fpP dst - fpP src)
    (fpQuiet dst ((fpSigned dst neg (fpExpMask dst * 2 ^ (fpP dst - 1) + fr')).toNat), if q then fNone else fNV)
  | .inf s => (fpInf dst s, fNone)
  | .fin s m e => if m = 0 then (fpZero dst s, fNone) else fpRound dst rm s m e false

/-- A finite value rounded to an integer magnitude, and whether it is inexact. -/
def fpToNat (rm : Nat) (neg : Bool) (m : Nat) (e : Int) : Nat × Bool := roundAt rm neg m e 0 false

/-- FCVTIF (R161). -/
def fpToInt (unsigned : Bool) (rm : Nat) (a : FVal) : W × BitVec 5 :=
  let hi : W := if unsigned then BitVec.allOnes 64 else 0x7FFFFFFFFFFFFFFF
  let lo : W := if unsigned then 0 else 0x8000000000000000
  match a with
  | .nan _ _ => (0, fNV)
  | .inf s => (if s then lo else hi, fNV)
  | .fin s m e =>
    let (n, inx) := fpToNat rm s m e
    let v := signedM s n
    let max : Int := if unsigned then 2 ^ 64 - 1 else 2 ^ 63 - 1
    let min : Int := if unsigned then 0 else -(2 ^ 63)
    if max < v then (hi, fNV)
    else if v < min then (lo, fNV)
    else (BitVec.ofInt 64 v, if inx then fNX else fNone)

/-- FRINT (R149). -/
def fpRint (f : FFmt) (rm : Nat) (exact : Bool) (a : FVal) : FRes :=
  match fpNan f [a] with
  | some r => r
  | none =>
    match a with
    | .inf s => (fpInf f s, fNone)
    | .fin s m e =>
      let (n, inx) := fpToNat rm s m e
      let r := if n = 0 then fpZero f s else (fpRound f 0 s n 0 false).1
      (r, if inx && exact then fNX else fNone)
    | _ => (fpDnan f, fNV)

/-- FNEG, FABS and FCPYSGN act on the sign bit alone (R149). -/
def fpSetSign (f : FFmt) (neg : Bool) (x : BitVec 128) : BitVec 128 := fpSigned f neg (x.toNat % fpSignBit f)
def fpSign (f : FFmt) (x : BitVec 128) : Bool := fpSignBit f ≤ x.toNat % 2 ^ fpWidth f

/-! ## Running a floating instruction -/

/-- Rounding attribute in force (R149, R150). -/
def Strand.rm (s : Strand) (rnd : BitVec 3) : Nat :=
  if rnd = 7 then (s.fpstat.extractLsb' 0 3).toNat else rnd.toNat

/-- The kind word of R162. -/
def fpKindWord (i : Instr) (enabled flags : BitVec 5) : W :=
  let bits := (insnBytes i).toNat
  let fn := if lenOf i = 6 then bits / 2 ^ 18 % 64 else 0
  BitVec.ofNat 64 (enabled.toNat + flags.toNat * 256 + bits % 256 * 65536 + fn * 2 ^ 24)

/-- Sets flags, and the pending exception when one is enabled and none is pending (R152, R162). -/
def Strand.raise (s : Strand) (i : Instr) (flags : BitVec 5) : Strand :=
  let en := s.fpstat.extractLsb' 16 5
  let hit := flags &&& en
  let st := s.fpstat ||| (flags.setWidth 64 <<< 8)
  if hit != 0 && !s.pend then
    { s with
      fpstat := st ||| 0x1000000, fpAddr := s.pc, fpKind := fpKindWord i hit flags, fpPrv := s.prv, fpCount := 0 }
  else { s with fpstat := st }

/-- ILLEGAL_INSTRUCTION at trap levels 1 and 2 (R49). -/
def fpLevel (b : Body) (t : StrandId) (x : Res) : Res := if (b.strand t).tl = 0 then x else illegal b

/-- Writes a floating result and its flags. -/
def fpDone (b : Body) (t : StrandId) (i : Instr) (fd : Reg) (r : FRes) : Res :=
  .ok (b.modStrand t fun s => (s.setFreg fd r.1).raise i r.2) none

/-- A floating instruction with a result in an f register. -/
def fpInsn (t : StrandId) (i : Instr) (fd : Reg) (f : Strand → FRes) (s : State) : Out :=
  insn t i (fun b => fpLevel b t (fpDone b t i fd (f (b.strand t)))) false s

def fOp (s : Strand) (f : FFmt) (r : Reg) : FVal := fpDecode f (s.freg r)

def formRnd : FForm → BitVec 3
  | .short => 7
  | .long r => r

/-- A rounded operation with a RND field that must be 0 to 4 or 7 (R149). -/
def fpRounded (t : StrandId) (i : Instr) (rnd : BitVec 3) (fd : Reg) (f : Strand → Nat → FRes) (s : State) : Out :=
  insn t i (fun b =>
    if rndOk rnd then fpLevel b t (fpDone b t i fd (f (b.strand t) ((b.strand t).rm rnd))) else illegal b) false s

def execFadd (t : StrandId) (fmt : FFmt) (form : FForm) (fd fa fb : Reg) (s : State) : Out :=
  fpRounded t (.fadd t fmt form fd fa fb) (formRnd form) fd (fun u rm => fpAddVal fmt rm (fOp u fmt fa) (fOp u fmt fb)) s
def execFsub (t : StrandId) (fmt : FFmt) (form : FForm) (fd fa fb : Reg) (s : State) : Out :=
  fpRounded t (.fsub t fmt form fd fa fb) (formRnd form) fd
    (fun u rm => fpAddVal fmt rm (fOp u fmt fa) (fpNegVal (fOp u fmt fb))) s
def execFmul (t : StrandId) (fmt : FFmt) (form : FForm) (fd fa fb : Reg) (s : State) : Out :=
  fpRounded t (.fmul t fmt form fd fa fb) (formRnd form) fd (fun u rm => fpMulVal fmt rm (fOp u fmt fa) (fOp u fmt fb)) s

/-- The sign of a rounded result reversed; a NaN is left as it is (R149, R153). -/
def fpNegRes (f : FFmt) (r : FRes) : FRes :=
  match fpDecode f r.1 with
  | .nan _ _ => r
  | v => (fpSetSign f (!fpNeg v) r.1, r.2)

def execFmadd (t : StrandId) (fmt : FFmt) (rnd : BitVec 3) (fd fa fb fc : Reg) (s : State) : Out :=
  fpRounded t (.fmadd t fmt rnd fd fa fb fc) rnd fd
    (fun u rm => fpFmaVal fmt rm (fOp u fmt fa) (fOp u fmt fb) (fOp u fmt fc)) s
def execFmsub (t : StrandId) (fmt : FFmt) (rnd : BitVec 3) (fd fa fb fc : Reg) (s : State) : Out :=
  fpRounded t (.fmsub t fmt rnd fd fa fb fc) rnd fd
    (fun u rm => fpFmaVal fmt rm (fOp u fmt fa) (fOp u fmt fb) (fpNegVal (fOp u fmt fc))) s
def execFnmadd (t : StrandId) (fmt : FFmt) (rnd : BitVec 3) (fd fa fb fc : Reg) (s : State) : Out :=
  fpRounded t (.fnmadd t fmt rnd fd fa fb fc) rnd fd
    (fun u rm => fpNegRes fmt (fpFmaVal fmt rm (fOp u fmt fa) (fOp u fmt fb) (fOp u fmt fc))) s
def execFnmsub (t : StrandId) (fmt : FFmt) (rnd : BitVec 3) (fd fa fb fc : Reg) (s : State) : Out :=
  fpRounded t (.fnmsub t fmt rnd fd fa fb fc) rnd fd
    (fun u rm => fpNegRes fmt (fpFmaVal fmt rm (fOp u fmt fa) (fOp u fmt fb) (fpNegVal (fOp u fmt fc)))) s

def execFmin (t : StrandId) (fmt : FFmt) (fd fa fb : Reg) (s : State) : Out :=
  fpInsn t (.fmin t fmt fd fa fb) fd (fun u => fpMinMax fmt false false (u.freg fa) (u.freg fb)) s
def execFmax (t : StrandId) (fmt : FFmt) (fd fa fb : Reg) (s : State) : Out :=
  fpInsn t (.fmax t fmt fd fa fb) fd (fun u => fpMinMax fmt false true (u.freg fa) (u.freg fb)) s
def execFminnum (t : StrandId) (fmt : FFmt) (fd fa fb : Reg) (s : State) : Out :=
  fpInsn t (.fminnum t fmt fd fa fb) fd (fun u => fpMinMax fmt true false (u.freg fa) (u.freg fb)) s
def execFmaxnum (t : StrandId) (fmt : FFmt) (fd fa fb : Reg) (s : State) : Out :=
  fpInsn t (.fmaxnum t fmt fd fa fb) fd (fun u => fpMinMax fmt true true (u.freg fa) (u.freg fb)) s

def execFneg (t : StrandId) (fmt : FFmt) (fd fa : Reg) (s : State) : Out :=
  fpInsn t (.fneg t fmt fd fa) fd (fun u => (fpSetSign fmt (!fpSign fmt (u.freg fa)) (u.freg fa), fNone)) s
def execFabs (t : StrandId) (fmt : FFmt) (fd fa : Reg) (s : State) : Out :=
  fpInsn t (.fabs t fmt fd fa) fd (fun u => (fpSetSign fmt false (u.freg fa), fNone)) s
def execFcpysgn (t : StrandId) (fmt : FFmt) (fd fa fb : Reg) (s : State) : Out :=
  fpInsn t (.fcpysgn t fmt fd fa fb) fd (fun u => (fpSetSign fmt (fpSign fmt (u.freg fb)) (u.freg fa), fNone)) s

def convFmts : FConv → FFmt × FFmt
  | .sd => (.s, .d)
  | .sq => (.s, .q)
  | .ds => (.d, .s)
  | .dq => (.d, .q)
  | .qs => (.q, .s)
  | .qd => (.q, .d)

def execFcvt (t : StrandId) (c : FConv) (rnd : BitVec 3) (fd fa : Reg) (s : State) : Out :=
  fpRounded t (.fcvt t c rnd fd fa) rnd fd
    (fun u rm => fpConvert (convFmts c).1 (convFmts c).2 rm (fOp u (convFmts c).1 fa)) s
def execFcvtfi (t : StrandId) (fmt : FFmt) (u : Bool) (rnd : BitVec 3) (fd ra : Reg) (s : State) : Out :=
  fpRounded t (.fcvtfi t fmt u rnd fd ra) rnd fd
    (fun v rm => fpRoundInt fmt rm false (if u then ((v.reg ra).toNat : Int) else (v.reg ra).toInt) 0) s
def execFcvtif (t : StrandId) (fmt : FFmt) (u : Bool) (rnd : BitVec 3) (rd fa : Reg) (s : State) : Out :=
  insn t (.fcvtif t fmt u rnd rd fa) (fun b =>
    if rndOk rnd then fpLevel b t <|
      let v := b.strand t
      let r := fpToInt u (v.rm rnd) (fOp v fmt fa)
      .ok (b.setStrand t ((v.setReg rd r.1).raise (.fcvtif t fmt u rnd rd fa) r.2)) none
    else illegal b) false s
def execFrint (t : StrandId) (fmt : FFmt) (rnd : BitVec 3) (exact : Bool) (fd fa : Reg) (s : State) : Out :=
  fpRounded t (.frint t fmt rnd exact fd fa) rnd fd (fun u rm => fpRint fmt rm exact (fOp u fmt fa)) s

def execFcmp (t : StrandId) (fmt : FFmt) (sig : Bool) (fa fb : Reg) (s : State) : Out :=
  insn t (.fcmp t fmt sig fa fb) (fun b => fpLevel b t <|
    let v := b.strand t
    let r := fpCmpVal sig (fOp v fmt fa) (fOp v fmt fb)
    .ok (b.setStrand t ((v.setCC r.1).raise (.fcmp t fmt sig fa fb) r.2)) none) false s

def execFmov (t : StrandId) (fd fa : Reg) (s : State) : Out :=
  insn t (.fmov t fd fa) (fun b => fpLevel b t (.ok (b.modStrand t fun u => u.setFreg fd (u.freg fa)) none)) false s

/-- FMVG with rb of 2 to 31 is illegal (R148). -/
def fmvgRes (b : Body) (t : StrandId) (x : Bool) (rd ra hi : Reg) : Res :=
  let u := b.strand t
  if 1 < hi.toNat then illegal b
  else fpLevel b t <|
    if x then doneReg b t rd ((u.freg ra).extractLsb' (if hi = 0 then 0 else 64) 64)
    else
      let v : BitVec 128 :=
        if hi = 0 then (u.reg ra).setWidth 128
        else ((u.reg ra).setWidth 128 <<< 64) ||| ((u.freg rd).extractLsb' 0 64).setWidth 128
      .ok (b.setStrand t (u.setFreg rd v)) none

def execFmvg (t : StrandId) (x : Bool) (rd ra : Reg) (hi : Reg) (s : State) : Out :=
  insn t (.fmvg t x rd ra hi) (fun b => fmvgRes b t x rd ra hi) false s

/-- FPSYNC: a pending exception is delivered at it; else it completes (R163, R164). -/
def execFpsync (t : StrandId) (s : State) : Out :=
  insn t (.fpsync t) (fun b => fpLevel b t (.ok b none)) true s

/-- Cuts segments `n` bytes into an access. -/
def splitSegs : Nat → List Seg → List Seg
  | _, [] => []
  | 0, gs => gs
  | n + 1, g :: r =>
    if g.len ≤ n + 1 then g :: splitSegs (n + 1 - g.len) r
    else { g with len := n + 1 } :: { g with pa := g.pa + (n + 1), len := g.len - (n + 1) } :: r

def fldRes (b : Body) (t : StrandId) (fmt : FFmt) (fd base : Reg) (disp : BitVec 24) : Res :=
  fpLevel b t <|
    (b.loadVa t needLoad (b.strand t).dataPrv ((b.strand t).ea (.disp base disp) 0) (fpBytes fmt)).then fun b bs =>
      .ok (b.modStrand t fun s => s.setFreg fd (BitVec.ofNat 128 (leNat bs))) none

/-- FST; .Q makes two 8-byte stores (R149, R198). -/
def fstRes (b : Body) (t : StrandId) (fmt : FFmt) (fd base : Reg) (disp : BitVec 24) : Res :=
  fpLevel b t <|
    let s := b.strand t
    (b.storeVa t needStore s.dataPrv (s.ea (.disp base disp) 0) (fpBytes fmt)).then fun b gs =>
      match b.bufferStore t (if fmt = .q then splitSegs 8 gs else gs) (leBytes (fpBytes fmt) (s.freg fd).toNat) with
      | some b => .ok b none
      | none => .hold b

def execFld (t : StrandId) (fmt : FFmt) (fd base : Reg) (disp : BitVec 24) (s : State) : Out :=
  insn t (.fld t fmt fd base disp) (fun b => fldRes b t fmt fd base disp) false s
def execFst (t : StrandId) (fmt : FFmt) (fd base : Reg) (disp : BitVec 24) (s : State) : Out :=
  insn t (.fst t fmt fd base disp) (fun b => fstRes b t fmt fd base disp) false s

/-! ## Division and square root by steps (R159, R160) -/

/-- Tag [127:118] of step form: operation (1 division, 2 square root), format and count. -/
def stepTag (op : Nat) (f : FFmt) (n : Nat) : Nat := op * 256 + f.code * 64 + n

/-- Required step counts (R159). -/
def stepCount (sqrt : Bool) (f : FFmt) : Nat :=
  match sqrt, f with
  | false, .s => 7
  | false, .d => 14
  | false, .q => 29
  | true, .s => 13
  | true, .d => 28
  | true, .q => 58

/-- fd and fa holding working state under a tag. -/
def packStep (tag : Nat) (w : BitVec 246) : BitVec 128 × BitVec 128 :=
  let v := Config.stepPerm tag w
  (BitVec.ofNat 128 (tag * 2 ^ 118 + v.toNat / 2 ^ 128), v.setWidth 128)

def unpackStep (tag : Nat) (fd fa : BitVec 128) : BitVec 246 :=
  (Config.stepPerm tag).symm (BitVec.ofNat 246 (fd.toNat % 2 ^ 118 * 2 ^ 128 + fa.toNat))

/-- Mark of a divisor, of which only the bits of the format count (R146); 0 stands for it in a square root. -/
def stepMark (f : FFmt) (d : BitVec 128) : Nat :=
  (Config.divisorMark (BitVec.ofNat 128 (d.toNat % 2 ^ fpWidth f))).toNat

/-- Working state of a dividend or radicand and a divisor. -/
def stepState (f : FFmt) (x d : BitVec 128) : BitVec 246 := BitVec.ofNat 246 (stepMark f d * 2 ^ 128 + x.toNat)

def tagOf (fd : BitVec 128) : Nat := fd.toNat / 2 ^ 118
/-- Format and count of a tag whose operation is `op`, for a tag of that operation and format. -/
def tagCount (op : Nat) (f : FFmt) (fd : BitVec 128) : Option Nat :=
  let tag := tagOf fd
  if tag / 64 = op * 4 + f.code then some (tag % 64) else none

def fstart (op : Nat) (f : FFmt) (x d : BitVec 128) : BitVec 128 × BitVec 128 :=
  packStep (stepTag op f 0) (stepState f x d)

/-- A STEP: advances a form of its own operation and format below the required count. A divisor that has changed makes
the working state free (R160). -/
def fstep (op : Nat) (f : FFmt) (sqrt : Bool) (ctr : Nat) (fd fa d : BitVec 128) : BitVec 128 × BitVec 128 :=
  match tagCount op f fd with
  | some n =>
    if n < stepCount sqrt f then
      let w := unpackStep (tagOf fd) fd fa
      let w := if w.toNat / 2 ^ 128 = stepMark f d then w else Config.freeQ ctr
      packStep (stepTag op f (n + 1)) w
    else (fd, fa)
  | none => (fd, fa)

/-- The result of an END (R159). A tag that names its own operation and format with a count above the required one is not among the cases
that the spec lists: the model gives what a wrong tag gives, dNaN, zero in fa and NV (log entry 24). -/
def fend (op : Nat) (f : FFmt) (sqrt : Bool) (rm ctr : Nat) (fd fa d : BitVec 128) : FRes :=
  if tagCount op f fd = some (stepCount sqrt f) then
    let w := unpackStep (tagOf fd) fd fa
    let x : BitVec 128 := w.setWidth 128
    if w.toNat / 2 ^ 128 = stepMark f d then
      if sqrt then fpSqrtVal f rm (fpDecode f x) else fpDivVal f rm (fpDecode f x) (fpDecode f d)
    else (BitVec.ofNat 128 ((Config.freeQ ctr).toNat % 2 ^ fpWidth f), (Config.freeQ (ctr + 1)).setWidth 5)
  else (fpDnan f, fNV)

/-- A step instruction on distinct registers: its two results, with flags. -/
def stepInsn (t : StrandId) (i : Instr) (distinct : Bool) (fd fa : Reg)
    (f : Strand → Nat → (BitVec 128 × BitVec 128) × BitVec 5) (s : State) : Out :=
  insn t i (fun b =>
    if !distinct then illegal b
    else fpLevel b t <|
      let r := f (b.strand t) b.freeCtr
      .ok ({ b with freeCtr := b.freeCtr + 2 }.modStrand t fun u => ((u.setFreg fa r.1.2).setFreg fd r.1.1).raise i r.2) none)
    false s

def three (x y z : Reg) : Bool := x != y && x != z && y != z

def execFdstart (t : StrandId) (fmt : FFmt) (fd fa fb : Reg) (s : State) : Out :=
  stepInsn t (.fdstart t fmt fd fa fb) (three fd fa fb) fd fa
    (fun u _ => (fstart 1 fmt (u.freg fa) (u.freg fb), fNone)) s
def execFdstep (t : StrandId) (fmt : FFmt) (fd fa fb : Reg) (s : State) : Out :=
  stepInsn t (.fdstep t fmt fd fa fb) (three fd fa fb) fd fa
    (fun u c => (fstep 1 fmt false c (u.freg fd) (u.freg fa) (u.freg fb), fNone)) s
def execFdend (t : StrandId) (fmt : FFmt) (fd fa fb : Reg) (s : State) : Out :=
  stepInsn t (.fdend t fmt fd fa fb) (three fd fa fb) fd fa
    (fun u c => let r := fend 1 fmt false (u.rm 7) c (u.freg fd) (u.freg fa) (u.freg fb); ((r.1, 0), r.2)) s
def execFsqstart (t : StrandId) (fmt : FFmt) (fd fa : Reg) (s : State) : Out :=
  stepInsn t (.fsqstart t fmt fd fa) (fd != fa) fd fa (fun u _ => (fstart 2 fmt (u.freg fa) 0, fNone)) s
def execFsqstep (t : StrandId) (fmt : FFmt) (fd fa : Reg) (s : State) : Out :=
  stepInsn t (.fsqstep t fmt fd fa) (fd != fa) fd fa (fun u c => (fstep 2 fmt true c (u.freg fd) (u.freg fa) 0, fNone)) s
def execFsqend (t : StrandId) (fmt : FFmt) (fd fa : Reg) (s : State) : Out :=
  stepInsn t (.fsqend t fmt fd fa) (fd != fa) fd fa
    (fun u c => let r := fend 2 fmt true (u.rm 7) c (u.freg fd) (u.freg fa) 0; ((r.1, 0), r.2)) s

end Sys2Proof.Machine
end

