-- ==== Sys2Proof/Machine/Integer.lean ====
section
/-!
DEFINITION. Integer instructions: register and immediate forms, and division by steps (chapter 4).
-/

namespace Sys2Proof.Machine

/-- An S-format operation of R122 on two registers. -/
def intOp (b : Body) (t : StrandId) (wd : Width) (x : Bool) (rd ra rb : Reg) (trapV zext : Bool)
    (f : (w : Nat) → BitVec w → BitVec w → Alu w) : Res :=
  b.writeInt t (some rd) (atWidth wd zext ((b.strand t).reg ra) ((b.strand t).reg rb) f) x trapV

/-- A shift or rotate by a register: the count is the whole of rb (R124). -/
def shiftOp (b : Body) (t : StrandId) (wd : Width) (x : Bool) (rd ra rb : Reg)
    (f : Nat → (w : Nat) → BitVec w → BitVec w) : Res :=
  intOp b t wd x rd ra rb false false (aluShift f ((b.strand t).reg rb).toNat)

/-- A form with an immediate second operand (R123). -/
def immOp (b : Body) (t : StrandId) (wd : Width) (wcc : Bool) (rd : Option Reg) (ra : Reg) (imm : W) (trapV : Bool)
    (f : (w : Nat) → BitVec w → BitVec w → Alu w) : Res :=
  b.writeInt t rd (atWidth wd false ((b.strand t).reg ra) imm f) wcc trapV

def carry (b : Body) (t : StrandId) : Bool := ccC (b.strand t).cc

def execAdd (t : StrandId) (wd : Width) (x : Bool) (rd ra rb : Reg) (s : State) : Out :=
  insn t (.add t wd x rd ra rb) (fun b => intOp b t wd x rd ra rb true false (aluAdd false)) false s
def execSub (t : StrandId) (wd : Width) (x : Bool) (rd ra rb : Reg) (s : State) : Out :=
  insn t (.sub t wd x rd ra rb) (fun b => intOp b t wd x rd ra rb true false (aluSub false)) false s
def execAdc (t : StrandId) (wd : Width) (x : Bool) (rd ra rb : Reg) (s : State) : Out :=
  insn t (.adc t wd x rd ra rb) (fun b => intOp b t wd x rd ra rb true false (aluAdd (carry b t))) false s
def execSbc (t : StrandId) (wd : Width) (x : Bool) (rd ra rb : Reg) (s : State) : Out :=
  insn t (.sbc t wd x rd ra rb) (fun b => intOp b t wd x rd ra rb true false (aluSub (!carry b t))) false s
def execAnd (t : StrandId) (wd : Width) (x : Bool) (rd ra rb : Reg) (s : State) : Out :=
  insn t (.and t wd x rd ra rb) (fun b => intOp b t wd x rd ra rb false false (aluLogic fun _ a c => a &&& c)) false s
def execOr (t : StrandId) (wd : Width) (x : Bool) (rd ra rb : Reg) (s : State) : Out :=
  insn t (.or t wd x rd ra rb) (fun b => intOp b t wd x rd ra rb false false (aluLogic fun _ a c => a ||| c)) false s
def execXor (t : StrandId) (wd : Width) (x : Bool) (rd ra rb : Reg) (s : State) : Out :=
  insn t (.xor t wd x rd ra rb) (fun b => intOp b t wd x rd ra rb false false (aluLogic fun _ a c => a ^^^ c)) false s
def execAndn (t : StrandId) (wd : Width) (x : Bool) (rd ra rb : Reg) (s : State) : Out :=
  insn t (.andn t wd x rd ra rb) (fun b => intOp b t wd x rd ra rb false false (aluLogic fun _ a c => a &&& ~~~c)) false s
def execSll (t : StrandId) (wd : Width) (x : Bool) (rd ra rb : Reg) (s : State) : Out :=
  insn t (.sll t wd x rd ra rb) (fun b => shiftOp b t wd x rd ra rb shl) false s
def execSrl (t : StrandId) (wd : Width) (x : Bool) (rd ra rb : Reg) (s : State) : Out :=
  insn t (.srl t wd x rd ra rb) (fun b => shiftOp b t wd x rd ra rb shr) false s
def execSra (t : StrandId) (wd : Width) (x : Bool) (rd ra rb : Reg) (s : State) : Out :=
  insn t (.sra t wd x rd ra rb) (fun b => shiftOp b t wd x rd ra rb sar) false s
def execRol (t : StrandId) (wd : Width) (x : Bool) (rd ra rb : Reg) (s : State) : Out :=
  insn t (.rol t wd x rd ra rb) (fun b => shiftOp b t wd x rd ra rb rol) false s
def execRor (t : StrandId) (wd : Width) (x : Bool) (rd ra rb : Reg) (s : State) : Out :=
  insn t (.ror t wd x rd ra rb) (fun b => shiftOp b t wd x rd ra rb ror) false s
def execMul (t : StrandId) (wd : Width) (x : Bool) (rd ra rb : Reg) (s : State) : Out :=
  insn t (.mul t wd x rd ra rb) (fun b => intOp b t wd x rd ra rb true false aluMul) false s
def execMulh (t : StrandId) (wd : Width) (x : Bool) (rd ra rb : Reg) (s : State) : Out :=
  insn t (.mulh t wd x rd ra rb) (fun b => intOp b t wd x rd ra rb false false aluMulh) false s
/-- The .W result is zero-extended (R120). -/
def execMulhu (t : StrandId) (wd : Width) (x : Bool) (rd ra rb : Reg) (s : State) : Out :=
  insn t (.mulhu t wd x rd ra rb) (fun b => intOp b t wd x rd ra rb false true aluMulhu) false s
def execNeg (t : StrandId) (wd : Width) (rd ra : Reg) (s : State) : Out :=
  insn t (.neg t wd rd ra) (fun b => immOp b t wd true (some rd) ra 0 true aluNeg) false s
def execAbs (t : StrandId) (wd : Width) (rd ra : Reg) (s : State) : Out :=
  insn t (.abs t wd rd ra) (fun b => immOp b t wd true (some rd) ra 0 true aluAbs) false s
/-- Never raises INTEGER_OVERFLOW (R126). -/
def execCmp (t : StrandId) (wd : Width) (ra rb : Reg) (s : State) : Out :=
  insn t (.cmp t wd ra rb) (fun b => immOp b t wd true none ra ((b.strand t).reg rb) false (aluSub false)) false s

def execAddq (t : StrandId) (wd : Width) (rd ra : Reg) (imm : BitVec 6) (s : State) : Out :=
  insn t (.addq t wd rd ra imm) (fun b => immOp b t wd false (some rd) ra (imm.signExtend 64) true (aluAdd false)) false s
def execSllq (t : StrandId) (wd : Width) (rd ra : Reg) (imm : BitVec 6) (s : State) : Out :=
  insn t (.sllq t wd rd ra imm) (fun b => immOp b t wd false (some rd) ra 0 false (aluShift shl imm.toNat)) false s
def execSrlq (t : StrandId) (wd : Width) (rd ra : Reg) (imm : BitVec 6) (s : State) : Out :=
  insn t (.srlq t wd rd ra imm) (fun b => immOp b t wd false (some rd) ra 0 false (aluShift shr imm.toNat)) false s
def execSraq (t : StrandId) (wd : Width) (rd ra : Reg) (imm : BitVec 6) (s : State) : Out :=
  insn t (.sraq t wd rd ra imm) (fun b => immOp b t wd false (some rd) ra 0 false (aluShift sar imm.toNat)) false s
def execRorq (t : StrandId) (wd : Width) (rd ra : Reg) (imm : BitVec 6) (s : State) : Out :=
  insn t (.rorq t wd rd ra imm) (fun b => immOp b t wd false (some rd) ra 0 false (aluShift ror imm.toNat)) false s
def execCmpq (t : StrandId) (wd : Width) (ra : Reg) (imm : BitVec 6) (s : State) : Out :=
  insn t (.cmpq t wd ra imm) (fun b => immOp b t wd true none ra (imm.signExtend 64) false (aluSub false)) false s

def execAddi (t : StrandId) (wd : Width) (cc : Bool) (rd ra : Reg) (imm : BitVec 24) (s : State) : Out :=
  insn t (.addi t wd cc rd ra imm) (fun b => immOp b t wd cc (some rd) ra (imm.signExtend 64) true (aluAdd false)) false s
def execAndi (t : StrandId) (wd : Width) (cc : Bool) (rd ra : Reg) (imm : BitVec 24) (s : State) : Out :=
  insn t (.andi t wd cc rd ra imm)
    (fun b => immOp b t wd cc (some rd) ra (imm.setWidth 64) false (aluLogic fun _ a c => a &&& c)) false s
def execOri (t : StrandId) (wd : Width) (cc : Bool) (rd ra : Reg) (imm : BitVec 24) (s : State) : Out :=
  insn t (.ori t wd cc rd ra imm)
    (fun b => immOp b t wd cc (some rd) ra (imm.setWidth 64) false (aluLogic fun _ a c => a ||| c)) false s
def execXori (t : StrandId) (wd : Width) (cc : Bool) (rd ra : Reg) (imm : BitVec 24) (s : State) : Out :=
  insn t (.xori t wd cc rd ra imm)
    (fun b => immOp b t wd cc (some rd) ra (imm.setWidth 64) false (aluLogic fun _ a c => a ^^^ c)) false s
def execMuli (t : StrandId) (wd : Width) (cc : Bool) (rd ra : Reg) (imm : BitVec 24) (s : State) : Out :=
  insn t (.muli t wd cc rd ra imm) (fun b => immOp b t wd cc (some rd) ra (imm.signExtend 64) true aluMul) false s
def execMovi (t : StrandId) (wd : Width) (rd : Reg) (imm : BitVec 24) (s : State) : Out :=
  insn t (.movi t wd rd imm) (fun b => doneReg b t rd (imm.signExtend 64)) false s
def execShli24 (t : StrandId) (rd ra : Reg) (imm : BitVec 24) (s : State) : Out :=
  insn t (.shli24 t rd ra imm) (fun b => doneReg b t rd (((b.strand t).reg ra <<< 24) ||| imm.setWidth 64)) false s
def execCmpi (t : StrandId) (wd : Width) (ra : Reg) (imm : BitVec 24) (s : State) : Out :=
  insn t (.cmpi t wd ra imm) (fun b => immOp b t wd true none ra (imm.signExtend 64) false (aluSub false)) false s

/-! ## Division (R127 to R132) -/

/-- R127: register number 0, or two equal numbers, are illegal. -/
def divRegs (rd ra rb : Reg) : Bool := rd != 0 && ra != 0 && rb != 0 && rd != ra && rd != rb && ra != rb

/-- Registers and CC after DSTART at width `w` (R129). -/
def divStart (w : Nat) (x : Bool) (ra rb : W) : BitVec 4 × W × W :=
  let a := ra.toNat % 2 ^ w
  let d := rb.toNat % 2 ^ w
  let half := 2 ^ (w - 1)
  let sa := !x && half ≤ a
  let sb := !x && half ≤ d
  let v := !x && a = half && d = 2 ^ w - 1
  let ma := if sa then 2 ^ w - a else a
  let md := if sb then 2 ^ w - d else d
  (mkCC (sa != sb) (md = 0) v sa, BitVec.ofNat 64 (ma * 2 ^ (64 - w)), BitVec.ofNat 64 md)

/-- One radix-16 step: accumulator and shifter (R130). -/
def divStep (acc sh d : W) : W × W :=
  let t := acc.toNat * 16 + sh.toNat / 2 ^ 60
  let q := if d = 0 then 15 else min 15 (t / d.toNat)
  let r := if d = 0 then t else t - q * d.toNat
  (BitVec.ofNat 64 r, BitVec.ofNat 64 (sh.toNat * 16 % 2 ^ 64 + q))

/-- Quotient, remainder and CC of DEND at width `w` (R131). -/
def divEnd (w : Nat) (x : Bool) (cc : BitVec 4) (acc sh : W) : W × W × BitVec 4 :=
  let qm := sh.toNat % 2 ^ w
  let rm := acc.toNat % 2 ^ w
  let neg (n : Nat) := (2 ^ w - n) % 2 ^ w
  let r := if ccC cc then neg rm else rm
  let ext (n : Nat) : W := if x then BitVec.ofNat 64 n else (BitVec.ofNat w n).signExtend 64
  if ccZ cc then (ext (2 ^ w - 1), ext r, mkCC true true true false)
  else
    let q := if ccN cc then neg qm else qm
    (ext q, ext r, mkCC (2 ^ (w - 1) ≤ q) (q = 0) (ccV cc && !x) false)

def widthBits : Width → Nat
  | .d => 64
  | .w => 32

def dstartRes (b : Body) (t : StrandId) (wd : Width) (x : Bool) (rd ra rb : Reg) : Res :=
  let s := b.strand t
  if !divRegs rd ra rb then illegal b
  else
    let w := widthBits wd
    if (s.reg rb).toNat % 2 ^ w = 0 && s.dze then .trap b trapDivide
    else
      let (cc, a, d) := divStart w x (s.reg ra) (s.reg rb)
      .ok (b.setStrand t ((((s.setReg rd 0).setReg ra a).setReg rb d).setCC cc)) none

def dstepRes (b : Body) (t : StrandId) (rd ra rb : Reg) : Res :=
  let s := b.strand t
  if !divRegs rd ra rb then illegal b
  else
    let (r, q) := divStep (s.reg rd) (s.reg ra) (s.reg rb)
    .ok (b.setStrand t ((s.setReg ra q).setReg rd r)) none

def dendRes (b : Body) (t : StrandId) (wd : Width) (x : Bool) (rd ra rb : Reg) : Res :=
  let s := b.strand t
  if !divRegs rd ra rb then illegal b
  else
    let (q, r, cc) := divEnd (widthBits wd) x s.cc (s.reg rd) (s.reg ra)
    let b' := b.setStrand t (((s.setReg ra q).setReg rd r).setCC cc)
    if !ccZ s.cc && ccV cc && s.ioe then .next b' trapOverflow else .ok b' none

def execDstart (t : StrandId) (wd : Width) (x : Bool) (rd ra rb : Reg) (s : State) : Out :=
  insn t (.dstart t wd x rd ra rb) (fun b => dstartRes b t wd x rd ra rb) false s
def execDstep (t : StrandId) (rd ra rb : Reg) (s : State) : Out :=
  insn t (.dstep t rd ra rb) (fun b => dstepRes b t rd ra rb) false s
def execDend (t : StrandId) (wd : Width) (x : Bool) (rd ra rb : Reg) (s : State) : Out :=
  insn t (.dend t wd x rd ra rb) (fun b => dendRes b t wd x rd ra rb) false s

end Sys2Proof.Machine
end

