-- ==== Sys2Proof/Machine/Dispatch.lean ====
section
/-! DEFINITION. The effect of each command: one arm per row of the opcode table, each a call of its meaning. -/

namespace Sys2Proof.Machine

def exec (i : Instr) (s : State) : Host.Outcome State Fault Refusal :=
  match i with
  | .ld t sz m rd => Sys2Proof.Machine.execLd t sz m rd s
  | .lds t sz m rd => Sys2Proof.Machine.execLds t sz m rd s
  | .st t sz m rd => Sys2Proof.Machine.execSt t sz m rd s
  | .ird t base disp rd => Sys2Proof.Machine.execIrd t base disp rd s
  | .iwr t base disp rd => Sys2Proof.Machine.execIwr t base disp rd s
  | .bmove t rd ra rb => Sys2Proof.Machine.execBmove t rd ra rb s
  | .ldr t wd rd ra => Sys2Proof.Machine.execLdr t wd rd ra s
  | .stc t wd rd ra rb => Sys2Proof.Machine.execStc t wd rd ra rb s
  | .cas t wd rd ra rb => Sys2Proof.Machine.execCas t wd rd ra rb s
  | .bCond t cond off => Sys2Proof.Machine.execBCond t cond off s
  | .bz t ra off => Sys2Proof.Machine.execBz t ra off s
  | .bnz t ra off => Sys2Proof.Machine.execBnz t ra off s
  | .bltz t ra off => Sys2Proof.Machine.execBltz t ra off s
  | .bgez t ra off => Sys2Proof.Machine.execBgez t ra off s
  | .call t off => Sys2Proof.Machine.execCall t off s
  | .callr t ra => Sys2Proof.Machine.execCallr t ra s
  | .jr t ra => Sys2Proof.Machine.execJr t ra s
  | .ret t => Sys2Proof.Machine.execRet t s
  | .rtt t => Sys2Proof.Machine.execRtt t s
  | .csrd t rd num => Sys2Proof.Machine.execCsrd t rd num s
  | .cswr t num ra => Sys2Proof.Machine.execCswr t num ra s
  | .writeCsSpad t ra => Sys2Proof.Machine.execWriteCsSpad t ra s
  | .writeCsCachectl t ra => Sys2Proof.Machine.execWriteCsCachectl t ra s
  | .writeCsTcmp t sel ra => Sys2Proof.Machine.execWriteCsTcmp t sel ra s
  | .writeCsWin t ra => Sys2Proof.Machine.execWriteCsWin t ra s
  | .svc t imm => Sys2Proof.Machine.execSvc t imm s
  | .brk t imm => Sys2Proof.Machine.execBrk t imm s
  | .wait t => Sys2Proof.Machine.execWait t s
  | .waitWake t => Sys2Proof.Machine.execWaitWake t s
  | .fenceM t => Sys2Proof.Machine.execFenceM t s
  | .fenceMComplete t => Sys2Proof.Machine.execFenceMComplete t s
  | .fenceIo t => Sys2Proof.Machine.execFenceIo t s
  | .fenceIoComplete t => Sys2Proof.Machine.execFenceIoComplete t s
  | .tsync t => Sys2Proof.Machine.execTsync t s
  | .tsyncComplete t => Sys2Proof.Machine.execTsyncComplete t s
  | .nop t => Sys2Proof.Machine.execNop t s
  | .clock t ra => Sys2Proof.Machine.execClock t ra s
  | .cunlock t ra => Sys2Proof.Machine.execCunlock t ra s
  | .cinvRange t scope ra rb => Sys2Proof.Machine.execCinvRange t scope ra rb s
  | .cinvAll t scope => Sys2Proof.Machine.execCinvAll t scope s
  | .iflushRange t scope ra rb => Sys2Proof.Machine.execIflushRange t scope ra rb s
  | .tlbiVa t scope ra rb x => Sys2Proof.Machine.execTlbiVa t scope ra rb x s
  | .tlbiTag t scope rb => Sys2Proof.Machine.execTlbiTag t scope rb s
  | .tlbiAll t scope => Sys2Proof.Machine.execTlbiAll t scope s
  | .wciVa t scope ra rb x => Sys2Proof.Machine.execWciVa t scope ra rb x s
  | .wciTag t scope rb => Sys2Proof.Machine.execWciTag t scope rb s
  | .wciAll t scope => Sys2Proof.Machine.execWciAll t scope s
  | .tlbiAck a => Sys2Proof.Machine.execTlbiAck a s
  | .iold t wd rd iob addr => Sys2Proof.Machine.execIold t wd rd iob addr s
  | .ioldReply t => Sys2Proof.Machine.execIoldReply t s
  | .ioldTimeout t => Sys2Proof.Machine.execIoldTimeout t s
  | .iost t wd rd iob addr => Sys2Proof.Machine.execIost t wd rd iob addr s
  | .iodb t rd iob addr => Sys2Proof.Machine.execIodb t rd iob addr s
  | .setiob t rd iob addr => Sys2Proof.Machine.execSetiob t rd iob addr s
  | .xInstruction t fn rd ra imm => Sys2Proof.Machine.execXInstruction t fn rd ra imm s
  | .xBudget t => Sys2Proof.Machine.execXBudget t s
  | .add t wd x rd ra rb => Sys2Proof.Machine.execAdd t wd x rd ra rb s
  | .sub t wd x rd ra rb => Sys2Proof.Machine.execSub t wd x rd ra rb s
  | .adc t wd x rd ra rb => Sys2Proof.Machine.execAdc t wd x rd ra rb s
  | .sbc t wd x rd ra rb => Sys2Proof.Machine.execSbc t wd x rd ra rb s
  | .and t wd x rd ra rb => Sys2Proof.Machine.execAnd t wd x rd ra rb s
  | .or t wd x rd ra rb => Sys2Proof.Machine.execOr t wd x rd ra rb s
  | .xor t wd x rd ra rb => Sys2Proof.Machine.execXor t wd x rd ra rb s
  | .andn t wd x rd ra rb => Sys2Proof.Machine.execAndn t wd x rd ra rb s
  | .sll t wd x rd ra rb => Sys2Proof.Machine.execSll t wd x rd ra rb s
  | .srl t wd x rd ra rb => Sys2Proof.Machine.execSrl t wd x rd ra rb s
  | .sra t wd x rd ra rb => Sys2Proof.Machine.execSra t wd x rd ra rb s
  | .rol t wd x rd ra rb => Sys2Proof.Machine.execRol t wd x rd ra rb s
  | .ror t wd x rd ra rb => Sys2Proof.Machine.execRor t wd x rd ra rb s
  | .mul t wd x rd ra rb => Sys2Proof.Machine.execMul t wd x rd ra rb s
  | .mulh t wd x rd ra rb => Sys2Proof.Machine.execMulh t wd x rd ra rb s
  | .mulhu t wd x rd ra rb => Sys2Proof.Machine.execMulhu t wd x rd ra rb s
  | .neg t wd rd ra => Sys2Proof.Machine.execNeg t wd rd ra s
  | .abs t wd rd ra => Sys2Proof.Machine.execAbs t wd rd ra s
  | .cmp t wd ra rb => Sys2Proof.Machine.execCmp t wd ra rb s
  | .dstart t wd x rd ra rb => Sys2Proof.Machine.execDstart t wd x rd ra rb s
  | .dstep t rd ra rb => Sys2Proof.Machine.execDstep t rd ra rb s
  | .dend t wd x rd ra rb => Sys2Proof.Machine.execDend t wd x rd ra rb s
  | .addq t wd rd ra imm => Sys2Proof.Machine.execAddq t wd rd ra imm s
  | .sllq t wd rd ra imm => Sys2Proof.Machine.execSllq t wd rd ra imm s
  | .srlq t wd rd ra imm => Sys2Proof.Machine.execSrlq t wd rd ra imm s
  | .sraq t wd rd ra imm => Sys2Proof.Machine.execSraq t wd rd ra imm s
  | .rorq t wd rd ra imm => Sys2Proof.Machine.execRorq t wd rd ra imm s
  | .cmpq t wd ra imm => Sys2Proof.Machine.execCmpq t wd ra imm s
  | .addi t wd cc rd ra imm => Sys2Proof.Machine.execAddi t wd cc rd ra imm s
  | .andi t wd cc rd ra imm => Sys2Proof.Machine.execAndi t wd cc rd ra imm s
  | .ori t wd cc rd ra imm => Sys2Proof.Machine.execOri t wd cc rd ra imm s
  | .xori t wd cc rd ra imm => Sys2Proof.Machine.execXori t wd cc rd ra imm s
  | .muli t wd cc rd ra imm => Sys2Proof.Machine.execMuli t wd cc rd ra imm s
  | .movi t wd rd imm => Sys2Proof.Machine.execMovi t wd rd imm s
  | .shli24 t rd ra imm => Sys2Proof.Machine.execShli24 t rd ra imm s
  | .cmpi t wd ra imm => Sys2Proof.Machine.execCmpi t wd ra imm s
  | .dadd t rd ra l1 l2 => Sys2Proof.Machine.execDadd t rd ra l1 l2 s
  | .dsub t rd ra l1 l2 => Sys2Proof.Machine.execDsub t rd ra l1 l2 s
  | .dcmp t rd ra l1 l2 => Sys2Proof.Machine.execDcmp t rd ra l1 l2 s
  | .dmove t rd ra l1 l2 => Sys2Proof.Machine.execDmove t rd ra l1 l2 s
  | .fadd t fmt form fd fa fb => Sys2Proof.Machine.execFadd t fmt form fd fa fb s
  | .fsub t fmt form fd fa fb => Sys2Proof.Machine.execFsub t fmt form fd fa fb s
  | .fmul t fmt form fd fa fb => Sys2Proof.Machine.execFmul t fmt form fd fa fb s
  | .fpsync t => Sys2Proof.Machine.execFpsync t s
  | .fmov t fd fa => Sys2Proof.Machine.execFmov t fd fa s
  | .fmvg t x rd ra hi => Sys2Proof.Machine.execFmvg t x rd ra hi s
  | .fdstart t fmt fd fa fb => Sys2Proof.Machine.execFdstart t fmt fd fa fb s
  | .fdstep t fmt fd fa fb => Sys2Proof.Machine.execFdstep t fmt fd fa fb s
  | .fdend t fmt fd fa fb => Sys2Proof.Machine.execFdend t fmt fd fa fb s
  | .fsqstart t fmt fd fa => Sys2Proof.Machine.execFsqstart t fmt fd fa s
  | .fsqstep t fmt fd fa => Sys2Proof.Machine.execFsqstep t fmt fd fa s
  | .fsqend t fmt fd fa => Sys2Proof.Machine.execFsqend t fmt fd fa s
  | .fcmp t fmt sig fa fb => Sys2Proof.Machine.execFcmp t fmt sig fa fb s
  | .fld t fmt fd base disp => Sys2Proof.Machine.execFld t fmt fd base disp s
  | .fst t fmt fd base disp => Sys2Proof.Machine.execFst t fmt fd base disp s
  | .fmadd t fmt rnd fd fa fb fc => Sys2Proof.Machine.execFmadd t fmt rnd fd fa fb fc s
  | .fmsub t fmt rnd fd fa fb fc => Sys2Proof.Machine.execFmsub t fmt rnd fd fa fb fc s
  | .fnmadd t fmt rnd fd fa fb fc => Sys2Proof.Machine.execFnmadd t fmt rnd fd fa fb fc s
  | .fnmsub t fmt rnd fd fa fb fc => Sys2Proof.Machine.execFnmsub t fmt rnd fd fa fb fc s
  | .fmin t fmt fd fa fb => Sys2Proof.Machine.execFmin t fmt fd fa fb s
  | .fmax t fmt fd fa fb => Sys2Proof.Machine.execFmax t fmt fd fa fb s
  | .fminnum t fmt fd fa fb => Sys2Proof.Machine.execFminnum t fmt fd fa fb s
  | .fmaxnum t fmt fd fa fb => Sys2Proof.Machine.execFmaxnum t fmt fd fa fb s
  | .fneg t fmt fd fa => Sys2Proof.Machine.execFneg t fmt fd fa s
  | .fabs t fmt fd fa => Sys2Proof.Machine.execFabs t fmt fd fa s
  | .fcpysgn t fmt fd fa fb => Sys2Proof.Machine.execFcpysgn t fmt fd fa fb s
  | .fcvt t c rnd fd fa => Sys2Proof.Machine.execFcvt t c rnd fd fa s
  | .fcvtfi t fmt u rnd fd ra => Sys2Proof.Machine.execFcvtfi t fmt u rnd fd ra s
  | .fcvtif t fmt u rnd rd fa => Sys2Proof.Machine.execFcvtif t fmt u rnd rd fa s
  | .frint t fmt rnd exact fd fa => Sys2Proof.Machine.execFrint t fmt rnd exact fd fa s
  | .interruptTaken t => Sys2Proof.Machine.execInterruptTaken t s
  | .fastInterrupt t => Sys2Proof.Machine.execFastInterrupt t s
  | .timer t tgt => Sys2Proof.Machine.execTimer t tgt s
  | .fpDeferred t => Sys2Proof.Machine.execFpDeferred t s
  | .heldEvent t => Sys2Proof.Machine.execHeldEvent t s
  | .storePerformed t => Sys2Proof.Machine.execStorePerformed t s
  | .lineFill t => Sys2Proof.Machine.execLineFill t s
  | .writeBackAccepted l => Sys2Proof.Machine.execWriteBackAccepted l s
  | .writeBackResend l => Sys2Proof.Machine.execWriteBackResend l s
  | .reservationHoldExpiry t => Sys2Proof.Machine.execReservationHoldExpiry t s
  | .directoryRead c l => Sys2Proof.Machine.execDirectoryRead c l s
  | .directoryWriteRequest c l => Sys2Proof.Machine.execDirectoryWriteRequest c l s
  | .dmaRead l slot => Sys2Proof.Machine.execDmaRead l slot s
  | .dmaWrite => Sys2Proof.Machine.execDmaWrite s
  | .coherenceInvalidation c l => Sys2Proof.Machine.execCoherenceInvalidation c l s
  | .ioStoreArrival t sl => Sys2Proof.Machine.execIoStoreArrival t sl s
  | .ioStoreTimeout t sl => Sys2Proof.Machine.execIoStoreTimeout t sl s
  | .doorbell t sl => Sys2Proof.Machine.execDoorbell t sl s
  | .writeSqcfg t sl => Sys2Proof.Machine.execWriteSqcfg t sl s
  | .writeCqcfg t sl => Sys2Proof.Machine.execWriteCqcfg t sl s
  | .writeCqhead t sl => Sys2Proof.Machine.execWriteCqhead t sl s
  | .clearFault t sl => Sys2Proof.Machine.execClearFault t sl s
  | .writeQpcfg t sl => Sys2Proof.Machine.execWriteQpcfg t sl s
  | .writeMrctl t sl => Sys2Proof.Machine.execWriteMrctl t sl s
  | .startRecord sl => Sys2Proof.Machine.execStartRecord sl s
  | .heldRecordWrite sl => Sys2Proof.Machine.execHeldRecordWrite sl s
  | .cceFetch ix => Sys2Proof.Machine.execCceFetch ix s
  | .deviceCompletion id r => Sys2Proof.Machine.execDeviceCompletion id r s
  | .finalPost ix => Sys2Proof.Machine.execFinalPost ix s
  | .sessionEnd p target => Sys2Proof.Machine.execSessionEnd p target s
  | .pathFailure p target => Sys2Proof.Machine.execPathFailure p target s
  | .deviceTimeout id => Sys2Proof.Machine.execDeviceTimeout id s
  | .abortConfirmed id => Sys2Proof.Machine.execAbortConfirmed id s
  | .abortWaitExpiry id => Sys2Proof.Machine.execAbortWaitExpiry id s
  | .pathProbe sl image path r => Sys2Proof.Machine.execPathProbe sl image path r s
  | .engineFault h n k => Sys2Proof.Machine.execEngineFault h n k s
  | .drainBlockConfirmed stream r => Sys2Proof.Machine.execDrainBlockConfirmed stream r s
  | .drainBarrierRelease stream => Sys2Proof.Machine.execDrainBarrierRelease stream s
  | .generationWaitExpiry sl => Sys2Proof.Machine.execGenerationWaitExpiry sl s
  | .staleWriteExpiry => Sys2Proof.Machine.execStaleWriteExpiry s
  | .sliceDrainComplete sl => Sys2Proof.Machine.execSliceDrainComplete sl s
  | .completionEventDelay sl => Sys2Proof.Machine.execCompletionEventDelay sl s
  | .arbitrationRound h p => Sys2Proof.Machine.execArbitrationRound h p s
  | .compress e => Sys2Proof.Machine.execCompress e s
  | .decompress e => Sys2Proof.Machine.execDecompress e s
  | .continueJob e => Sys2Proof.Machine.execContinueJob e s
  | .aesGcmEncrypt e => Sys2Proof.Machine.execAesGcmEncrypt e s
  | .aesGcmDecrypt e => Sys2Proof.Machine.execAesGcmDecrypt e s
  | .aesXtsEncrypt e => Sys2Proof.Machine.execAesXtsEncrypt e s
  | .aesXtsDecrypt e => Sys2Proof.Machine.execAesXtsDecrypt e s
  | .aesCbcEncrypt e => Sys2Proof.Machine.execAesCbcEncrypt e s
  | .aesCbcDecrypt e => Sys2Proof.Machine.execAesCbcDecrypt e s
  | .chachaEncrypt e => Sys2Proof.Machine.execChachaEncrypt e s
  | .chachaDecrypt e => Sys2Proof.Machine.execChachaDecrypt e s
  | .hash e => Sys2Proof.Machine.execHash e s
  | .hmac e => Sys2Proof.Machine.execHmac e s
  | .keyGenerate e => Sys2Proof.Machine.execKeyGenerate e s
  | .keyImportClear e => Sys2Proof.Machine.execKeyImportClear e s
  | .keyWrap e => Sys2Proof.Machine.execKeyWrap e s
  | .keyUnwrap e => Sys2Proof.Machine.execKeyUnwrap e s
  | .keyDestroy e => Sys2Proof.Machine.execKeyDestroy e s
  | .keyPublic e => Sys2Proof.Machine.execKeyPublic e s
  | .rsaSign e => Sys2Proof.Machine.execRsaSign e s
  | .rsaVerify e => Sys2Proof.Machine.execRsaVerify e s
  | .rsaDecrypt e => Sys2Proof.Machine.execRsaDecrypt e s
  | .rsaEncrypt e => Sys2Proof.Machine.execRsaEncrypt e s
  | .ecdsaSign e => Sys2Proof.Machine.execEcdsaSign e s
  | .ecdsaVerify e => Sys2Proof.Machine.execEcdsaVerify e s
  | .ed25519Sign e => Sys2Proof.Machine.execEd25519Sign e s
  | .ed25519Verify e => Sys2Proof.Machine.execEd25519Verify e s
  | .mlkemEncaps e => Sys2Proof.Machine.execMlkemEncaps e s
  | .mlkemDecaps e => Sys2Proof.Machine.execMlkemDecaps e s
  | .mldsaSign e => Sys2Proof.Machine.execMldsaSign e s
  | .mldsaVerify e => Sys2Proof.Machine.execMldsaVerify e s
  | .jobComplete sl => Sys2Proof.Machine.execJobComplete sl s
  | .attemptEnd e k => Sys2Proof.Machine.execAttemptEnd e k s
  | .rerunStart sl => Sys2Proof.Machine.execRerunStart sl s
  | .send sl q => Sys2Proof.Machine.execSend sl q s
  | .sendImm sl q => Sys2Proof.Machine.execSendImm sl q s
  | .rdmaWrite sl q => Sys2Proof.Machine.execRdmaWrite sl q s
  | .rdmaWriteImm sl q => Sys2Proof.Machine.execRdmaWriteImm sl q s
  | .rdmaRead sl q => Sys2Proof.Machine.execRdmaRead sl q s
  | .recv sl q => Sys2Proof.Machine.execRecv sl q s
  | .inboundRdma r => Sys2Proof.Machine.execInboundRdma r s
  | .netqCompletion sl q r => Sys2Proof.Machine.execNetqCompletion sl q r s
  | .transportRetryTimeout sl q => Sys2Proof.Machine.execTransportRetryTimeout sl q s
  | .cnpReceived sl q => Sys2Proof.Machine.execCnpReceived sl q s
  | .frameReceived p f => Sys2Proof.Machine.execFrameReceived p f s
  | .linkUp p gen width => Sys2Proof.Machine.execLinkUp p gen width s
  | .trainingTimeout p => Sys2Proof.Machine.execTrainingTimeout p s
  | .linkLoss p cause => Sys2Proof.Machine.execLinkLoss p cause s
  | .holdExpiry p => Sys2Proof.Machine.execHoldExpiry p s
  | .transientError t u failedRetry => Sys2Proof.Machine.execTransientError t u failedRetry s
  | .provingRound u pass test => Sys2Proof.Machine.execProvingRound u pass test s
  | .engineIdleTimeout u => Sys2Proof.Machine.execEngineIdleTimeout u s
  | .scrubRead l o => Sys2Proof.Machine.execScrubRead l o s
  | .parityWriteback m row => Sys2Proof.Machine.execParityWriteback m row s
  | .stackFailed m cause => Sys2Proof.Machine.execStackFailed m cause s
  | .farMemberLost base member => Sys2Proof.Machine.execFarMemberLost base member s
  | .farCopyDone base => Sys2Proof.Machine.execFarCopyDone base s
  | .bundleLost b => Sys2Proof.Machine.execBundleLost b s
  | .bundleRetrain b ok => Sys2Proof.Machine.execBundleRetrain b ok s
  | .bundleReadmitted b => Sys2Proof.Machine.execBundleReadmitted b s
  | .feedCurrentWindow flagA flagB => Sys2Proof.Machine.execFeedCurrentWindow flagA flagB s
  | .feedProving passA passB => Sys2Proof.Machine.execFeedProving passA passB s
  | .feedAdmitted f pass => Sys2Proof.Machine.execFeedAdmitted f pass s
  | .feedApplied f present => Sys2Proof.Machine.execFeedApplied f present s
  | .heartbeat => Sys2Proof.Machine.execHeartbeat s
  | .islandTakeover => Sys2Proof.Machine.execIslandTakeover s
  | .mgmtPortFailed h => Sys2Proof.Machine.execMgmtPortFailed h s
  | .stewardFrame l copyA copyB rep => Sys2Proof.Machine.execStewardFrame l copyA copyB rep s
  | .clusterLost c => Sys2Proof.Machine.execClusterLost c s
  | .dieLost d => Sys2Proof.Machine.execDieLost d s
  | .hubLost h => Sys2Proof.Machine.execHubLost h s
  | .stewardSilence => Sys2Proof.Machine.execStewardSilence s
  | .leaseGrant island half => Sys2Proof.Machine.execLeaseGrant island half s
  | .leaseTimeout island => Sys2Proof.Machine.execLeaseTimeout island s
  | .leaseRenewal => Sys2Proof.Machine.execLeaseRenewal s
  | .sharedTargetDelay => Sys2Proof.Machine.execSharedTargetDelay s
  | .rejoinReady b => Sys2Proof.Machine.execRejoinReady b s
  | .mirrorCopyDone part => Sys2Proof.Machine.execMirrorCopyDone part s
  | .rejoinCopyDone => Sys2Proof.Machine.execRejoinCopyDone s
  | .startAttempt => Sys2Proof.Machine.execStartAttempt s
  | .startAttemptTimeout => Sys2Proof.Machine.execStartAttemptTimeout s
  | .provingStepComplete f => Sys2Proof.Machine.execProvingStepComplete f s
  | .provingTimeout => Sys2Proof.Machine.execProvingTimeout s
  | .connectionOpen port cert => Sys2Proof.Machine.execConnectionOpen port cert s
  | .sessionTimeout conn => Sys2Proof.Machine.execSessionTimeout conn s
  | .mailboxPoll island => Sys2Proof.Machine.execMailboxPoll island s
  | .imageStagingTimeout target => Sys2Proof.Machine.execImageStagingTimeout target s
  | .sessionOpen src p => Sys2Proof.Machine.execSessionOpen src p s
  | .sessionClose src p => Sys2Proof.Machine.execSessionClose src p s
  | .getIdentity src p => Sys2Proof.Machine.execGetIdentity src p s
  | .getInventory src p => Sys2Proof.Machine.execGetInventory src p s
  | .setOwnerAnchor src p => Sys2Proof.Machine.execSetOwnerAnchor src p s
  | .setMgmtNet src p => Sys2Proof.Machine.execSetMgmtNet src p s
  | .getResult src p => Sys2Proof.Machine.execGetResult src p s
  | .releaseResult src p => Sys2Proof.Machine.execReleaseResult src p s
  | .powerOn src p => Sys2Proof.Machine.execPowerOn src p s
  | .powerOff src p => Sys2Proof.Machine.execPowerOff src p s
  | .enterFallow src p => Sys2Proof.Machine.execEnterFallow src p s
  | .prove src p => Sys2Proof.Machine.execProve src p s
  | .setAutostart src p => Sys2Proof.Machine.execSetAutostart src p s
  | .getMode src p => Sys2Proof.Machine.execGetMode src p s
  | .setPreferredHalf src p => Sys2Proof.Machine.execSetPreferredHalf src p s
  | .rejoin src p => Sys2Proof.Machine.execRejoin src p s
  | .setPlacement src p => Sys2Proof.Machine.execSetPlacement src p s
  | .getFeeds src p => Sys2Proof.Machine.execGetFeeds src p s
  | .setRailLimits src p => Sys2Proof.Machine.execSetRailLimits src p s
  | .setRail src p => Sys2Proof.Machine.execSetRail src p s
  | .setDomain src p => Sys2Proof.Machine.execSetDomain src p s
  | .getDomains src p => Sys2Proof.Machine.execGetDomains src p s
  | .getTilth src p => Sys2Proof.Machine.execGetTilth src p s
  | .getPace src p => Sys2Proof.Machine.execGetPace src p s
  | .readSilt src p => Sys2Proof.Machine.execReadSilt src p s
  | .freezeSilt src p => Sys2Proof.Machine.execFreezeSilt src p s
  | .thawSilt src p => Sys2Proof.Machine.execThawSilt src p s
  | .readRetained src p => Sys2Proof.Machine.execReadRetained src p s
  | .clearRetained src p => Sys2Proof.Machine.execClearRetained src p s
  | .imageBegin src p => Sys2Proof.Machine.execImageBegin src p s
  | .imageData src p => Sys2Proof.Machine.execImageData src p s
  | .imageCommit src p => Sys2Proof.Machine.execImageCommit src p s
  | .imageAbort src p => Sys2Proof.Machine.execImageAbort src p s
  | .setActiveSlot src p => Sys2Proof.Machine.execSetActiveSlot src p s
  | .getFirmware src p => Sys2Proof.Machine.execGetFirmware src p s
  | .bindSlice src p => Sys2Proof.Machine.execBindSlice src p s
  | .unbindSlice src p => Sys2Proof.Machine.execUnbindSlice src p s
  | .resetSlice src p => Sys2Proof.Machine.execResetSlice src p s
  | .setShare src p => Sys2Proof.Machine.execSetShare src p s
  | .setRoute src p => Sys2Proof.Machine.execSetRoute src p s
  | .setWake src p => Sys2Proof.Machine.execSetWake src p s
  | .setPartition src p => Sys2Proof.Machine.execSetPartition src p s
  | .setSubchannel src p => Sys2Proof.Machine.execSetSubchannel src p s
  | .removeSubchannel src p => Sys2Proof.Machine.execRemoveSubchannel src p s
  | .setPathState src p => Sys2Proof.Machine.execSetPathState src p s
  | .setTarget src p => Sys2Proof.Machine.execSetTarget src p s
  | .setNetaddr src p => Sys2Proof.Machine.execSetNetaddr src p s
  | .declareStream src p => Sys2Proof.Machine.execDeclareStream src p s
  | .removeStream src p => Sys2Proof.Machine.execRemoveStream src p s
  | .readJournal src p => Sys2Proof.Machine.execReadJournal src p s
  | .readOrphans src p => Sys2Proof.Machine.execReadOrphans src p s
  | .setOctet src p => Sys2Proof.Machine.execSetOctet src p s
  | .setFarmem src p => Sys2Proof.Machine.execSetFarmem src p s
  | .readPam src p => Sys2Proof.Machine.execReadPam src p s
  | .clearPoison src p => Sys2Proof.Machine.execClearPoison src p s
  | .readStrand src p => Sys2Proof.Machine.execReadStrand src p s
  | .startStrand src p => Sys2Proof.Machine.execStartStrand src p s
  | .releaseStrand src p => Sys2Proof.Machine.execReleaseStrand src p s
  | .getTransportKey src p => Sys2Proof.Machine.execGetTransportKey src p s
  | .loadKey src p => Sys2Proof.Machine.execLoadKey src p s
  | .loadMemkey src p => Sys2Proof.Machine.execLoadMemkey src p s
  | .clearMemkey src p => Sys2Proof.Machine.execClearMemkey src p s
  | .setKeyQuota src p => Sys2Proof.Machine.execSetKeyQuota src p s
  | .reassignKey src p => Sys2Proof.Machine.execReassignKey src p s
  | .destroyKey src p => Sys2Proof.Machine.execDestroyKey src p s
  | .readUnit src p => Sys2Proof.Machine.execReadUnit src p s
  | .runSelftest src p => Sys2Proof.Machine.execRunSelftest src p s
  | .diagDomain src p => Sys2Proof.Machine.execDiagDomain src p s
  | .readPhys src p => Sys2Proof.Machine.execReadPhys src p s
  | .readJournalRaw src p => Sys2Proof.Machine.execReadJournalRaw src p s
  | .testPort src p => Sys2Proof.Machine.execTestPort src p s
  | .siltEvent loc code data => Sys2Proof.Machine.execSiltEvent loc code data s
  | .retainedLogWritten => Sys2Proof.Machine.execRetainedLogWritten s
  | .todSave => Sys2Proof.Machine.execTodSave s
  | .darkStart h straps => Sys2Proof.Machine.execDarkStart h straps s
  | .refclkLost h => Sys2Proof.Machine.execRefclkLost h s
  | .refclkReturn h => Sys2Proof.Machine.execRefclkReturn h s
  | .paceWindow d count temp => Sys2Proof.Machine.execPaceWindow d count temp s
  | .hbmTempThreshold m above => Sys2Proof.Machine.execHbmTempThreshold m above s
  | .unassignedInstruction t => Sys2Proof.Machine.execUnassignedInstruction t s
  | .unknownOpcode src opcode p => Sys2Proof.Machine.execUnknownOpcode src opcode p s
  | .connectionEnd conn => Sys2Proof.Machine.execConnectionEnd conn s
  | .receiverDetected p => Sys2Proof.Machine.execReceiverDetected p s
  | .islandSupplyChange h present => Sys2Proof.Machine.execIslandSupplyChange h present s
  | .tck rising tms tdi trstN => Sys2Proof.Machine.execTck rising tms tdi trstN s
  | .managementRepaired u => Sys2Proof.Machine.execManagementRepaired u s
  | .hubCopyRebuilt h c => Sys2Proof.Machine.execHubCopyRebuilt h c s
  | .coveredClusterAck t c => Sys2Proof.Machine.execCoveredClusterAck t c s

end Sys2Proof.Machine
end

