-- ==== Sys2Proof/Machine/Tick.lean ====
section
/-! DEFINITION. What an idle step does: the timebases count. -/

namespace Sys2Proof.Machine

/-- CS.TOD of a half, in nanoseconds (R532). -/
def Body.todOf (b : Body) (h : HubId) : Nat := (b.ctl.tod[h]).toNat

/-- One nanosecond passes on each half's timebase whose island is powered (R472, R532; log entry 3). -/
def Body.tick (b : Body) : Body :=
  let adv (h : HubId) : BitVec 64 :=
    if (b.ctl.islands[h]).powered then b.ctl.tod[h] + 1 else b.ctl.tod[h]
  { b with ctl := { b.ctl with tod := #v[adv 0, adv 1] } }

def tick (s : State) : State := { s with body := s.body.tick }

end Sys2Proof.Machine
end

