-- ==== Sys2Proof/Safety.lean ====
section
/-!
DEFINITION. The terms in which the statements speak: when an instruction runs, what completing it leaves,
integer results by the arithmetic of chapter 4, when a Flelet request is accepted, and the legal flash configurations.
-/

namespace Sys2Proof.Machine

/-! ## Running an instruction -/

/-- The strand is ready for instruction `i`, nothing else is due at its boundary (R68), and its bytes have been fetched
(R91), which leaves `b`. `forced` is for the three instructions that a pending floating exception may not pass (R163). -/
structure Runs (s : State) (t : StrandId) (i : Instr) (b : Body) (forced : Bool := false) : Prop where
  ready : (s.body.strand t).ready = true
  quiet : s.body.dueFirst t forced = none
  fetched : s.body.fetchCheck t (lenOf i) = .ok b ()

/-- The strand has completed an instruction at the boundary state `b` with the registers of `u`, and goes on at `pc`.
A pending floating exception has waited one instruction more (R163). -/
def finish (s : State) (b : Body) (t : StrandId) (u : Strand) (pc : BitVec 48) : State :=
  { s with body := b.setStrand t { u with
      pc := pc
      oldSlip := false
      fpCount := if (b.strand t).pend = true ∧ u.tl = 0 then u.fpCount + 1 else u.fpCount } }

/-- Address of the following instruction. -/
def Body.seqPc (b : Body) (t : StrandId) (len : Nat) : BitVec 48 := (b.strand t).pc + BitVec.ofNat 48 len

/-- The state with one strand replaced. -/
def State.withStrand (s : State) (b : Body) (t : StrandId) (u : Strand) : State := { s with body := b.setStrand t u }

/-- Two bodies that differ at most in cached translations, in the order in which caches saw their ways used (R166), and in the counter
of free choices. -/
structure SameButTlb (a b : Body) : Prop where
  strands : b.strands = a.strands
  clusters : ∀ c : ClusterId, ∃ o, b.cluster c = { a.cluster c with l2Use := o }
  dies : b.dies = a.dies
  mem : b.mem = a.mem
  io : b.io = a.io
  ctl : b.ctl = a.ctl
  l1 : ∀ c : CoreId, (b.core c).l1i = (a.core c).l1i ∧ (b.core c).l1d = (a.core c).l1d ∧ (b.core c).l1ie = (a.core c).l1ie ∧
    (b.core c).l1de = (a.core c).l1de ∧ (b.core c).inval = (a.core c).inval

/-! ## Integer results (R120 to R125) -/

/-- A result with the C and the V of its row of R122; N and Z follow from the result. -/
structure IntRule (w : Nat) where
  val : BitVec w
  c : Bool := false
  v : Bool := false

/-- Is an integer a signed number of `w` bits? -/
def fits (w : Nat) (z : Int) : Bool := decide (-(2 ^ (w - 1)) ≤ z) && decide (z < 2 ^ (w - 1))

def addRule (cin : Nat) (w : Nat) (a b : BitVec w) : IntRule w :=
  { val := a + b + BitVec.ofNat w cin, c := decide (2 ^ w ≤ a.toNat + b.toNat + cin), v := !fits w (a.toInt + b.toInt + cin) }
def subRule (bin : Nat) (w : Nat) (a b : BitVec w) : IntRule w :=
  { val := a - b - BitVec.ofNat w bin, c := decide (b.toNat + bin ≤ a.toNat), v := !fits w (a.toInt - b.toInt - bin) }
def plainRule (f : (w : Nat) → BitVec w → BitVec w → BitVec w) (w : Nat) (a b : BitVec w) : IntRule w := { val := f w a b }
def mulRule (w : Nat) (a b : BitVec w) : IntRule w := { val := a * b, v := !fits w (a.toInt * b.toInt) }
def mulhRule (w : Nat) (a b : BitVec w) : IntRule w :=
  { val := (a.signExtend (w + w) * b.signExtend (w + w)).extractLsb' w w }
def mulhuRule (w : Nat) (a b : BitVec w) : IntRule w :=
  { val := (a.setWidth (w + w) * b.setWidth (w + w)).extractLsb' w w }
def negRule (w : Nat) (a _b : BitVec w) : IntRule w := { val := 0 - a, c := decide (a = 0), v := !fits w (-a.toInt) }
def absRule (w : Nat) (a _b : BitVec w) : IntRule w := { val := BitVec.ofNat w a.toInt.natAbs, v := !fits w a.toInt.natAbs }
/-- A shift: by the width or more, all the bits leave (R124). -/
def sllRule (n : Nat) (w : Nat) (a _b : BitVec w) : IntRule w := { val := BitVec.ofNat w (a.toNat * 2 ^ n) }
def srlRule (n : Nat) (w : Nat) (a _b : BitVec w) : IntRule w := { val := BitVec.ofNat w (a.toNat / 2 ^ n) }
def sraRule (n : Nat) (w : Nat) (a _b : BitVec w) : IntRule w := { val := BitVec.ofInt w (a.toInt / 2 ^ n) }
def rolRule (n : Nat) (w : Nat) (a _b : BitVec w) : IntRule w :=
  { val := BitVec.ofFnLE fun i : Fin w => a.getLsbD ((i.val + (w - n % w)) % w) }
def rorRule (n : Nat) (w : Nat) (a _b : BitVec w) : IntRule w :=
  { val := BitVec.ofFnLE fun i : Fin w => a.getLsbD ((i.val + n) % w) }

/-- N, Z, V, C from bit 3 down (R75). -/
def IntRule.cc {w : Nat} (r : IntRule w) : BitVec 4 :=
  BitVec.ofBool r.val.msb ++ BitVec.ofBool (decide (r.val = 0)) ++ BitVec.ofBool r.v ++ BitVec.ofBool r.c

/-- A rule at the width of a form (R120): the value for rd, CC, and whether overflow is detected. -/
def atForm (wd : Width) (zext : Bool) (f : (w : Nat) → BitVec w → BitVec w → IntRule w) (a b : W) : W × BitVec 4 × Bool :=
  match wd with
  | .d => ((f 64 a b).val, (f 64 a b).cc, (f 64 a b).v)
  | .w =>
    let r := f 32 (a.extractLsb' 0 32) (b.extractLsb' 0 32)
    (if zext then r.val.setWidth 64 else r.val.signExtend 64, r.cc, r.v)

/-- The registers after an integer instruction (R121): rd, and CC where the form writes it. -/
def Strand.intWrite (u : Strand) (rd : Option Reg) (wcc : Bool) (r : W × BitVec 4 × Bool) : Strand :=
  let u := match rd with | some rd => u.setReg rd r.1 | none => u
  if wcc then u.setCC r.2.1 else u

/-- The instruction, `len` bytes long, completes with the integer result `r`, unless it detects overflow and IOE is 1. `traps` says
whether the instruction can raise INTEGER_OVERFLOW at all (R126). -/
def IntDone (s : State) (t : StrandId) (b : Body) (i : Instr) (len : Nat) (rd : Option Reg) (wcc traps : Bool)
    (r : W × BitVec 4 × Bool) : Prop :=
  Runs s t i b → ¬(traps = true ∧ r.2.2 = true ∧ (b.strand t).ioe = true) →
    exec i s = .next (finish s b t ((b.strand t).intWrite rd wcc r) (b.seqPc t len))

/-- Overflow with IOE 1: the results are written, then INTEGER_OVERFLOW is taken with CS.TPC at the next instruction (R126). -/
def IntOverflow (s : State) (t : StrandId) (b : Body) (i : Instr) (len : Nat) (rd : Option Reg) (wcc : Bool)
    (r : W × BitVec 4 × Bool) : Prop :=
  Runs s t i b → r.2.2 = true → (b.strand t).ioe = true → (b.strand t).pend = false →
    exec i s = .next { s with
      body := (finish s b t ((b.strand t).intWrite rd wcc r) (b.seqPc t len)).body.takeTrap t { cause := 0x0A, rule := .upK }
        (b.seqPc t len) true }

/-- The carry that ADC and SBC read. -/
def Strand.carryIn (u : Strand) : Nat := if u.status.getLsbD 12 then 1 else 0

/-- `n` division steps on accumulator and shifter. -/
def divSteps (d : W) : Nat → W × W → W × W
  | 0, x => x
  | n + 1, x => divSteps d n (divStep x.1 x.2 d)

/-! ## Floating values (R145, R146) -/

/-- The number that a finite operand stands for. -/
def FVal.num : FVal → ℚ
  | .fin neg m e => (if neg then -1 else 1) * (m : ℚ) * (2 : ℚ) ^ e
  | _ => 0

def FVal.isFin : FVal → Bool
  | .fin _ _ _ => true
  | _ => false

/-- The instruction, `len` bytes long, completes at TL 0 with a result and flags for an f register. -/
def FloatDone (s : State) (t : StrandId) (b : Body) (i : Instr) (len : Nat) (legal : Prop) (fd : Reg) (r : FRes) : Prop :=
  Runs s t i b → (b.strand t).tl = 0 → legal →
    exec i s = .next (finish s b t (((b.strand t).setFreg fd r.1).raise i r.2) (b.seqPc t len))

/-! ## Events -/

/-- Outside SPLIT, while the islands are linked: the log of island `h`, when it is up, not frozen and has room, has grown, and among what it
has gained is a record of the given event (R518 to R520). -/
def Recorded (b b' : Body) (h : HubId) (loc code : BitVec 16) (data : BitVec 128) : Prop :=
  b.isSplit = false → b.ctl.islandLink = true → (b.ctl.islands[h]).powered = true → (b.ctl.islands[h]).failed = false → (b.ctl.silt[h]).frozen = none →
  (b.ctl.silt[h]).ring.length < 65000 →
    ∃ more, (b'.ctl.silt[h]).ring = (b.ctl.silt[h]).ring ++ more ∧ ∃ r ∈ more, r.loc = loc ∧ r.code = code ∧ r.data = data

/-! ## Flelet requests (R489 to R499) -/

/-- The request's session: that of its connection, with a sequence number above those before; or the mailbox's (R491, R492, R494). -/
def InSession (s : State) (src : FSource) (role : Role) (p : Packet) : Prop :=
  match src with
  | .conn n => ∃ x, tGet s.body.ctl.conns n = some x ∧ x.session = some (p.session, role) ∧
      x.replies.find? (fun e => e.1 = p.sequence) = none ∧ x.maxSeq.toNat < p.sequence.toNat
  | .mailbox _ _ => p.session = 0 ∧ role = .mailbox

/-- A request for command `c` passes items 1 to 8 of R497 while no other command waits: it reaches the island that performs it, on a
connection with a session or in a mailbox slot, with a sequence number above those before. -/
structure Asked (s : State) (c : Cmd) (src : FSource) (role : Role) (island : HubId) (p : Packet) : Prop where
  calm : s.body.ctl.genWait = []
  settled : s.body.ctl.switching = none
  reaches : s.body.receiver src = some (island, false)
  length : badLength p = false
  header : badHeader p = false
  session : InSession s src role p
  allowed : c.roles s.cfg role = true
  size : c.lenOk p.params = true
  legal : (c.cls p.params).legal s.body.ctl.mode = true

/-- The state in which an accepted request is performed: its connection has carried a packet, and its sequence number (R491, R492). -/
def State.heard (s : State) (src : FSource) (p : Packet) : State :=
  let b := s.body.touchConn src
  match src with
  | .mailbox _ _ => { s with body := b }
  | .conn n =>
    match tGet b.ctl.conns n with
    | some x => { s with body := b.modCtl fun y => { y with conns := tPut y.conns n { x with maxSeq := p.sequence } } }
    | none => { s with body := b }

/-- The state after a reply: kept for repeats, and sent (R492, R495). -/
def State.answered (s : State) (src : FSource) (p : Packet) (bs : List Byte) : State :=
  { s with body := (s.body.keepReply src p.sequence bs).sendReply src bs }

/-- The request has the effect `f` and is answered with a status and parameters, which may depend on the state before. -/
def Answers (s : State) (i : Instr) (c : Cmd) (src : FSource) (island : HubId) (p : Packet) (status : Byte) (ps : List Byte)
    (f : State → State) : Prop :=
  exec i s = .next ((f (s.heard src p)).answered src p (replyBytes (s.heard src p).body island c.op p status 0 ps false))

/-- The request starts a long command: with a new ticket, whose number the STARTED reply holds, it has the effect `f` (R500 to R502). -/
def Starts (s : State) (i : Instr) (c : Cmd) (src : FSource) (role : Role) (island : HubId) (p : Packet)
    (f : BitVec 32 → State → State) : Prop :=
  let h := s.heard src p
  let t := h.body.nextTicket island
  let hdr := replyHeader h.body island c.op 1 0 p.sequence p.session 0 t
  ∀ b, h.body.issueTicket island role c.op hdr = some b → exec i s = .next ((f (BitVec.ofNat 32 t) { h with body := b }).answered src p hdr)

/-- Reserved bytes of a parameter field are 0. -/
abbrev zeroBytes (p : List Byte) (lo n : Nat) : Prop := ∀ i < n, p.getD (lo + i) 0 = 0

/-! ## Jobs (R378 to R397) -/

/-- The job's owner as its engine reaches memory. -/
def Body.jobOwner (b : Body) (e : EngineRef) (j : Job) : Owner := { b.ownerOf j.slice j.gen e.hub with gen := j.gen }

/-- The engine's job ends with the result `r`; its work has left the machine as `b'`, in which nothing but the job's state and the time of the
engine's last job still changes. -/
def JobEnds (s : State) (i : Instr) (e : EngineRef) (j : Job) (b' : Body) (r : JobResult) : Prop :=
  exec i s = .next { s with body := (b'.modEng e fun g => { g with lastJob := b'.tod e.hub }).setJob j { j with st := .done r } }

/-- The output fits the destination and can be written from the machine `x` on: the job writes it and ends well (R379, R386). -/
def JobWrites (s : State) (i : Instr) (e : EngineRef) (j : Job) (x : Body) (dst : Area) (used : Nat) (out : List Byte) : Prop :=
  out.length ≤ areaLen dst → ∀ y, x.areaWrite (s.body.jobOwner e j) dst out = (y, .ok ()) →
    JobEnds s i e j y { status := 0, detail := 0, consumed := BitVec.ofNat 32 used, produced := BitVec.ofNat 32 out.length, check := 0 }

/-- A key entry is created for the job, and the destination has room for its handle: the job returns it there (R394). -/
def JobGives (s : State) (i : Instr) (e : EngineRef) (j : Job) (x : Body) (dst : Area) (used : Nat) (ktype usage : Byte) (m : List Byte) : Prop :=
  ∀ h y, 4 ≤ areaLen dst → x.newKey e.hub ktype usage (s.body.slice j.slice).part (s.body.slice j.slice).asid m = (.ok h, y) →
    JobWrites s i e j y dst used (leBytes 4 h.toNat)

/-- The job may use the key `k` (R379, R392, R393): it is its owner's, of one of the types, and has the usage bit. -/
structure JobKey (s : State) (e : EngineRef) (j : Job) (x : Body) (kinds : List Nat) (use : Option Nat) (k : KeyEntry) : Prop where
  found : x.keyOf e.hub (dKey j.desc) = some k
  part : k.part = (s.body.slice j.slice).part
  asid : k.asid = (s.body.slice j.slice).asid
  kind : kinds = [] ∨ k.ktype.toNat ∈ kinds
  usage : ∀ u, use = some u → k.usage.getLsbD u = true

/-- What the job has of an earlier one of its stream (R387): nothing, or what a state record carries. -/
def Resumed (b : Body) (o : Owner) (d : List Byte) (b' : Body) (match' : SealedRec → Prop) (r : SealedRec) : Prop :=
  if dFlag d 3 = true then match' r ∧ ∃ raw, b.openRecord o d = (b', .ok (r, raw)) else b' = b ∧ r.prev = [] ∧ r.part = [] ∧ r.written = 0

/-- A stream job ends (R381 to R388): its output is written; with the stream or its part of it at an end, an error of the data, or a full
destination, it has the status, the counts and the check of R379, and it leaves the state record that AUX asks for. -/
def StreamEnds (s : State) (i : Instr) (e : EngineRef) (j : Job) (x : StreamJob) (b : Body) (dst : Area) : Prop :=
  let d := j.desc
  let o := s.body.jobOwner e j
  let out := (x.run (areaLen dst)).1
  let used := (x.run (areaLen dst)).2.1
  let how := (x.run (areaLen dst)).2.2
  let res (st k : Byte) (c : BitVec 32) : JobResult :=
    { status := st, detail := k, consumed := BitVec.ofNat 32 used, produced := BitVec.ofNat 32 out.length, check := c }
  let check : BitVec 32 := if x.param.toNat % 4 = 1 ∧ (x.op = 1 ∨ x.op = 2) then adler32 (x.covered used) else crc32 (x.covered used)
  let flags := (if x.schain then 1 else 0) + (if used = x.src.length then 2 else 0) + (if x.fin then 4 else 0)
  let rest (more : Bool) : SealedRec :=
    { slice := o.slice, gen := o.gen, bytes := [], op := x.op, param := x.param, fin := x.fin
      prev := if x.op = 1 ∧ more = true then x.prev ++ [x.part ++ x.src] else x.prev
      part := if x.op = 1 ∧ more = true then [] else x.part ++ x.src.take used
      written := if x.op = 1 ∧ more = true then 0 else x.written + out.length }
  let saved (b1 : Body) (more : Bool) (r : JobResult) : Prop :=
    (dAux d = 0 → JobEnds s i e j b1 r) ∧
    (dAux d ≠ 0 → ∀ b2, b1.sealRecord o (dAux d) (dOp d) (rest more) (x.sdone + used) x.srcAt x.slen flags check = (b2, .ok ()) → JobEnds s i e j b2 r)
  ∀ b1, b.areaWrite o dst out = (b1, .ok ()) →
    (∀ c, how = .over c → JobEnds s i e j b1 (res 0 0 c)) ∧
    (∀ st k, how = .error st k → (st = 0x12 ∨ st = 0x13) → JobEnds s i e j b1 (res st k 0)) ∧
    (how = .goesOn → saved b1 true (res 0 1 0)) ∧
    (how = .exhausted → saved b1 false (res 0x10 0 0))

/-! ## Legal configurations -/

/-- An octet record that SET_OCTET accepts (R403 to R405). -/
def OctetRec.legal (r : OctetRec) : Prop :=
  r.mode.toNat ≤ 4 ∧ rateOk r.mode.toNat r.rate.toNat = true ∧ (if r.mode = 2 ∨ r.mode = 3 then r.width.toNat ≤ 1 else r.width = 0) ∧
  r.fec.toNat ≤ fecMax r.mode.toNat r.rate.toNat ∧ (if r.mode = 0 then r.lanes = 0 else r.lanes.toNat ≤ 1) ∧
  (if r.mode = 1 then 1518 ≤ r.mtu.toNat ∧ r.mtu.toNat ≤ 9216 else r.mtu = 0)

/-- The configuration in flash is one that the commands' checks accept: the rails' limits (R34), the anchor's keys (R490), the octets
(R405), the far-memory pairs (R416, R509), and the supervisor images (R479). -/
structure FlashCfg.legal (c : FlashCfg) : Prop where
  rails : ∀ d : Fin 232, (c.floor[d]).toNat % 5 = 0 ∧ (c.ceil[d]).toNat % 5 = 0 ∧ 650 ≤ (c.floor[d]).toNat ∧
    (c.floor[d]).toNat ≤ (c.ceil[d]).toNat ∧ (c.ceil[d]).toNat ≤ 950
  anchor : ∀ a, c.anchor = some a → (a.alg = 1 ∨ a.alg = 2) ∧ a.session.length = algKey a.alg ∧ a.viewer.length = algKey a.alg ∧
    a.sign.length = algKey a.alg
  octets : ∀ o : OctetId, (c.octets[o]).legal
  pairs : c.farPairs.length ≤ 64 ∧ ∀ x ∈ c.farPairs, x.portA.toNat < 96 ∧ x.portB.toNat < 96 ∧ x.base.toNat < 4096
  bases : c.farPairs.Pairwise fun x y => x.base ≠ y.base
  images : ∀ k : Fin 2, (c.slots[k]).valid = true → (c.slots[k]).ok 0 = true

end Sys2Proof.Machine
end

