-- ==== Sys2Proof/Certificates/Slice0/Obligations.lean ====
section
/-!
DEFINITION. The statements about the model. Each says in its docstring which rules of the spec it formalises, or
that it is about a choice of the model.
-/

open Sys2Proof Sys2Proof.Machine

/-! ## The block as a whole -/

/-- A step of a machine whose queue is not empty is the command at the front, run on the machine with the queue's rest. -/
def Obligations.StepRunsFrontCommand : Prop :=
  ∀ (c : Instr) (rest : List Instr) (s : State), s.pending = c :: rest → step s = exec c { s with pending := rest }

/-- The model's choice of log entry 3: with no command waiting, one nanosecond passes on the timebase of each
half whose island is powered, and nothing else changes. -/
def Obligations.EmptyQueueStepCountsTime : Prop :=
  ∀ s : State, s.pending = [] →
    ∃ t : State, step s = .next t ∧ t.pending = [] ∧ t.cfg = s.cfg ∧
      (∀ h : HubId, t.body.ctl.tod[h] = if (s.body.ctl.islands[h]).powered then s.body.ctl.tod[h] + 1 else s.body.ctl.tod[h]) ∧
      t.body = { s.body with ctl := { s.body.ctl with tod := t.body.ctl.tod } }

/-- Every command answers a next state, and leaves the queue alone: no command of the table stops the machine. -/
def Obligations.EveryCommandCompletes : Prop :=
  ∀ (c : Instr) (s : State), ∃ t : State, exec c s = .next t ∧ t.pending = s.pending

/-! ## Integer instructions -/

/-- ADD, SUB, ADC, SBC, AND, OR, XOR, ANDN, MUL, MULH and MULHU: the value of rd and CC of R122, at the width of
R120, CC being written when x is 1 (R121); nothing else changes but the pc. -/
def Obligations.IntegerRegisterResults : Prop :=
  ∀ (s : State) (t : StrandId) (b : Body) (wd : Width) (x : Bool) (rd ra rb : Reg),
    let a := (b.strand t).reg ra
    let c := (b.strand t).reg rb
    let cin := (b.strand t).carryIn
    IntDone s t b (.add t wd x rd ra rb) 3 (some rd) x true (atForm wd false (addRule 0) a c) ∧
    IntDone s t b (.sub t wd x rd ra rb) 3 (some rd) x true (atForm wd false (subRule 0) a c) ∧
    IntDone s t b (.adc t wd x rd ra rb) 3 (some rd) x true (atForm wd false (addRule cin) a c) ∧
    IntDone s t b (.sbc t wd x rd ra rb) 3 (some rd) x true (atForm wd false (subRule (1 - cin)) a c) ∧
    IntDone s t b (.and t wd x rd ra rb) 3 (some rd) x false (atForm wd false (plainRule fun _ p q => p &&& q) a c) ∧
    IntDone s t b (.or t wd x rd ra rb) 3 (some rd) x false (atForm wd false (plainRule fun _ p q => p ||| q) a c) ∧
    IntDone s t b (.xor t wd x rd ra rb) 3 (some rd) x false (atForm wd false (plainRule fun _ p q => p ^^^ q) a c) ∧
    IntDone s t b (.andn t wd x rd ra rb) 3 (some rd) x false (atForm wd false (plainRule fun _ p q => p &&& ~~~q) a c) ∧
    IntDone s t b (.mul t wd x rd ra rb) 3 (some rd) x true (atForm wd false mulRule a c) ∧
    IntDone s t b (.mulh t wd x rd ra rb) 3 (some rd) x false (atForm wd false mulhRule a c) ∧
    IntDone s t b (.mulhu t wd x rd ra rb) 3 (some rd) x false (atForm wd true mulhuRule a c)

/-- Shifts and rotates take their count from the whole 64-bit rb, or from imm6 (R124): SLL, SRL, SRA, ROL, ROR, SLLQ, SRLQ,
SRAQ, RORQ. A count of the width or more shifts every bit out; a rotate uses the count modulo the width. -/
def Obligations.ShiftsAndRotates : Prop :=
  ∀ (s : State) (t : StrandId) (b : Body) (wd : Width) (x : Bool) (rd ra rb : Reg) (imm : BitVec 6),
    let a := (b.strand t).reg ra
    let n := ((b.strand t).reg rb).toNat
    let k := imm.toNat
    IntDone s t b (.sll t wd x rd ra rb) 3 (some rd) x false (atForm wd false (sllRule n) a 0) ∧
    IntDone s t b (.srl t wd x rd ra rb) 3 (some rd) x false (atForm wd false (srlRule n) a 0) ∧
    IntDone s t b (.sra t wd x rd ra rb) 3 (some rd) x false (atForm wd false (sraRule n) a 0) ∧
    IntDone s t b (.rol t wd x rd ra rb) 3 (some rd) x false (atForm wd false (rolRule n) a 0) ∧
    IntDone s t b (.ror t wd x rd ra rb) 3 (some rd) x false (atForm wd false (rorRule n) a 0) ∧
    IntDone s t b (.sllq t wd rd ra imm) 3 (some rd) false false (atForm wd false (sllRule k) a 0) ∧
    IntDone s t b (.srlq t wd rd ra imm) 3 (some rd) false false (atForm wd false (srlRule k) a 0) ∧
    IntDone s t b (.sraq t wd rd ra imm) 3 (some rd) false false (atForm wd false (sraRule k) a 0) ∧
    IntDone s t b (.rorq t wd rd ra imm) 3 (some rd) false false (atForm wd false (rorRule k) a 0)

/-- NEG, ABS, CMP and the immediate forms ADDQ, CMPQ, ADDI, ANDI, ORI, XORI, MULI, MOVI, SHLI24 and CMPI (R122, R123, R125): imm6 and imm24
are sign-extended, but zero-extended for the logical forms; the compares write CC alone. -/
def Obligations.UnaryAndImmediateResults : Prop :=
  ∀ (s : State) (t : StrandId) (b : Body) (wd : Width) (cc : Bool) (rd ra rb : Reg) (q : BitVec 6) (i : BitVec 24),
    let a := (b.strand t).reg ra
    let c := (b.strand t).reg rb
    IntDone s t b (.neg t wd rd ra) 3 (some rd) true true (atForm wd false negRule a 0) ∧
    IntDone s t b (.abs t wd rd ra) 3 (some rd) true true (atForm wd false absRule a 0) ∧
    IntDone s t b (.cmp t wd ra rb) 3 none true false (atForm wd false (subRule 0) a c) ∧
    IntDone s t b (.addq t wd rd ra q) 3 (some rd) false true (atForm wd false (addRule 0) a (q.signExtend 64)) ∧
    IntDone s t b (.cmpq t wd ra q) 3 none true false (atForm wd false (subRule 0) a (q.signExtend 64)) ∧
    IntDone s t b (.addi t wd cc rd ra i) 6 (some rd) cc true (atForm wd false (addRule 0) a (i.signExtend 64)) ∧
    IntDone s t b (.andi t wd cc rd ra i) 6 (some rd) cc false (atForm wd false (plainRule fun _ p q => p &&& q) a (i.setWidth 64)) ∧
    IntDone s t b (.ori t wd cc rd ra i) 6 (some rd) cc false (atForm wd false (plainRule fun _ p q => p ||| q) a (i.setWidth 64)) ∧
    IntDone s t b (.xori t wd cc rd ra i) 6 (some rd) cc false (atForm wd false (plainRule fun _ p q => p ^^^ q) a (i.setWidth 64)) ∧
    IntDone s t b (.muli t wd cc rd ra i) 6 (some rd) cc true (atForm wd false mulRule a (i.signExtend 64)) ∧
    IntDone s t b (.movi t wd rd i) 6 (some rd) false false (i.signExtend 64, 0, false) ∧
    IntDone s t b (.shli24 t rd ra i) 6 (some rd) false false (BitVec.ofNat 64 (a.toNat * 2 ^ 24) ||| i.setWidth 64, 0, false) ∧
    IntDone s t b (.cmpi t wd ra i) 6 none true false (atForm wd false (subRule 0) a (i.signExtend 64))

/-- Signed overflow with CS.STATUS.IOE at 1 raises INTEGER_OVERFLOW after rd, and CC where the form writes it, have been written; CS.TPC is
the next instruction (R126). The instructions are those that detect overflow. -/
def Obligations.OverflowTrapsAfterWriting : Prop :=
  ∀ (s : State) (t : StrandId) (b : Body) (wd : Width) (x : Bool) (rd ra rb : Reg) (q : BitVec 6) (i : BitVec 24),
    let a := (b.strand t).reg ra
    let c := (b.strand t).reg rb
    let cin := (b.strand t).carryIn
    IntOverflow s t b (.add t wd x rd ra rb) 3 (some rd) x (atForm wd false (addRule 0) a c) ∧
    IntOverflow s t b (.sub t wd x rd ra rb) 3 (some rd) x (atForm wd false (subRule 0) a c) ∧
    IntOverflow s t b (.adc t wd x rd ra rb) 3 (some rd) x (atForm wd false (addRule cin) a c) ∧
    IntOverflow s t b (.sbc t wd x rd ra rb) 3 (some rd) x (atForm wd false (subRule (1 - cin)) a c) ∧
    IntOverflow s t b (.mul t wd x rd ra rb) 3 (some rd) x (atForm wd false mulRule a c) ∧
    IntOverflow s t b (.neg t wd rd ra) 3 (some rd) true (atForm wd false negRule a 0) ∧
    IntOverflow s t b (.abs t wd rd ra) 3 (some rd) true (atForm wd false absRule a 0) ∧
    IntOverflow s t b (.addq t wd rd ra q) 3 (some rd) false (atForm wd false (addRule 0) a (q.signExtend 64)) ∧
    IntOverflow s t b (.addi t wd x rd ra i) 6 (some rd) x (atForm wd false (addRule 0) a (i.signExtend 64)) ∧
    IntOverflow s t b (.muli t wd x rd ra i) 6 (some rd) x (atForm wd false mulRule a (i.signExtend 64))

/-- DSTART, DSTEP and DEND on three registers that are distinct and not register 0 do what R129, R130 and R131 state; on others they raise
ILLEGAL_INSTRUCTION (R127), and DSTART with a zero divisor and DZE at 1 raises DIVIDE_CHECK with nothing changed. -/
def Obligations.DivisionInstructions : Prop :=
  ∀ (s : State) (t : StrandId) (b : Body) (wd : Width) (x : Bool) (rd ra rb : Reg),
    let u := b.strand t
    let w := match wd with | .d => 64 | .w => 32
    let low (v : W) : Nat := v.toNat % 2 ^ w
    let good := rd ≠ 0 ∧ ra ≠ 0 ∧ rb ≠ 0 ∧ rd ≠ ra ∧ rd ≠ rb ∧ ra ≠ rb
    let a := low (u.reg ra)
    let d := low (u.reg rb)
    let sa := x = false ∧ 2 ^ (w - 1) ≤ a
    let sd := x = false ∧ 2 ^ (w - 1) ≤ d
    let mag (neg : Prop) [Decidable neg] (v : Nat) : Nat := if neg then 2 ^ w - v else v
    let flag (p : Prop) [Decidable p] (k : Nat) : Nat := if p then k else 0
    (Runs s t (.dstart t wd x rd ra rb) b → good → ¬(d = 0 ∧ u.dze = true) →
      exec (.dstart t wd x rd ra rb) s = .next (finish s b t
        ((((u.setReg rd 0).setReg ra (BitVec.ofNat 64 (mag sa a * 2 ^ (64 - w)))).setReg rb (BitVec.ofNat 64 (mag sd d))).setCC
          (BitVec.ofNat 4 (flag (¬(sa ↔ sd)) 8 + flag (d = 0) 4 + flag (x = false ∧ a = 2 ^ (w - 1) ∧ d = 2 ^ w - 1) 2 + flag sa 1)))
        (b.seqPc t 3))) ∧
    (Runs s t (.dstart t wd x rd ra rb) b → good → d = 0 → u.dze = true → u.pend = false →
      exec (.dstart t wd x rd ra rb) s = .next { s with body := b.takeTrap t { cause := 0x09, rule := .upK } u.pc }) ∧
    (Runs s t (.dstep t rd ra rb) b → good →
      let v := (u.reg rd).toNat * 16 + (u.reg ra).toNat / 2 ^ 60
      let q := if u.reg rb = 0 then 15 else min 15 (v / (u.reg rb).toNat)
      exec (.dstep t rd ra rb) s = .next (finish s b t
        ((u.setReg ra (BitVec.ofNat 64 ((u.reg ra).toNat * 16 % 2 ^ 64 + q))).setReg rd
          (BitVec.ofNat 64 (v - q * (u.reg rb).toNat))) (b.seqPc t 3))) ∧
    (Runs s t (.dend t wd x rd ra rb) b → good →
      let zero := u.status.getLsbD 14 = true
      let neg (p : Bool) (v : Nat) : Nat := if p then (2 ^ w - v) % 2 ^ w else v
      let q := if zero then 2 ^ w - 1 else neg (u.status.getLsbD 15) (low (u.reg ra))
      let r := neg (u.status.getLsbD 12) (low (u.reg rd))
      let ovf := ¬zero ∧ u.status.getLsbD 13 = true ∧ x = false
      let ext (v : Nat) : W := if x then BitVec.ofNat 64 v else (BitVec.ofNat w v).signExtend 64
      let cc := if zero then 14 else BitVec.ofNat 4 (flag (2 ^ (w - 1) ≤ q) 8 + flag (q = 0) 4 + flag ovf 2)
      let u' := ((u.setReg ra (ext q)).setReg rd (ext r)).setCC cc
      (¬(ovf ∧ u.ioe = true) → exec (.dend t wd x rd ra rb) s = .next (finish s b t u' (b.seqPc t 3))) ∧
      (ovf → u.ioe = true → u.pend = false → exec (.dend t wd x rd ra rb) s = .next { s with
        body := (finish s b t u' (b.seqPc t 3)).body.takeTrap t { cause := 0x0A, rule := .upK } (b.seqPc t 3) true })) ∧
    (∀ i ∈ [Instr.dstart t wd x rd ra rb, .dstep t rd ra rb, .dend t wd x rd ra rb],
      Runs s t i b → ¬good → u.pend = false →
        exec i s = .next { s with body := b.takeTrap t { cause := 0x01, rule := .upK, info0 := insnBytes i } u.pc })

/-- A division sequence gives the quotient truncated toward zero and the remainder with the sign of the dividend, when 16 DSTEPs (.D) or 8
(.W) separate DSTART from DEND of the same width and signedness (R132): the three register functions composed. -/
def Obligations.DivisionSequenceIsExact : Prop :=
  ∀ (wd : Width) (x : Bool) (a d : W),
    let w := match wd with | .d => 64 | .w => 32
    let n := match wd with | .d => 16 | .w => 8
    let val (v : W) : Int := if x then ((v.setWidth w).toNat : Int) else (v.setWidth w).toInt
    let ext (z : Int) : W := if x then (BitVec.ofInt w z).setWidth 64 else (BitVec.ofInt w z).signExtend 64
    let p := divStart w x a d
    let e := divSteps p.2.2 n (0, p.2.1)
    let r := divEnd w x p.1 e.1 e.2
    d.setWidth w ≠ 0 → r.1 = ext ((val a).tdiv (val d)) ∧ r.2.1 = ext ((val a).tmod (val d))

/-! ## Traps, branches, calls and returns -/

/-- Taking a trap (R57, R60 to R62): which level it enters, what the copy of the trap registers saves, what CS.STATUS becomes, where the
pc goes, and how the windows move. A strand that the trap finds with 14 resident frames at TL 0 takes WINDOW_OVERFLOW in its place, and a
completed instruction's event is then held (R554). Only the strand changes. A trap at TL 2 stops the strand with a strand-check record that holds the cause, the PC and CS.TINFO0-2, and asserts the strand's
source on the strand that its CS.CHKTGT names (R57, R64, R65). -/
def Obligations.TrapEntry : Prop :=
  (∀ (b : Body) (t : StrandId) (r : TrapReq) (tpc : BitVec 48) (completed : Bool),
      let u := b.strand t
      let prv : BitVec 2 := match r.rule with
        | .upK => if u.prv = 2 then 2 else 1
        | .next => if u.prv = 0 then 1 else 2
        | .toS => 2
        | .target p => p
      let saved : TrapCopy := { cause := r.cause, pc := tpc, info0 := r.info0, info1 := r.info1, info2 := r.info2, info3 := u.status }
      let entered (v : Strand) (p : BitVec 2) (tl cause : Nat) : Body := b.setStrand t { v with
        status := (u.status &&& 0xF000) ||| BitVec.ofNat 64 (p.toNat * 4 + tl)
        pc := BitVec.ofNat 48 ((if p = 2 then u.tvecS else u.tvecK).toNat * 65536 + tl * 0x4000 + cause * 0x100)
        act := .ready
        oldSlip := false
        resv := none
        hold := false }
      let window := r.cause = 0x0E ∨ r.cause = 0x0F
      u.micro = none →
        (u.tl = 0 → ¬window → r.cause ≠ 0x20 → (u.wcur - u.wbase).toNat ≠ 14 →
          b.takeTrap t r tpc completed = entered
            { u with
              trapK := if prv = 2 then u.trapK else saved
              trapS := if prv = 2 then saved else u.trapS
              wcur := u.wcur + 1 } prv 0 r.cause.toNat) ∧
        (u.tl = 0 → ¬window → r.cause ≠ 0x20 → (u.wcur - u.wbase).toNat = 14 →
          let p : BitVec 2 := if u.prv = 2 then 2 else 1
          b.takeTrap t r tpc completed = entered
            { u with
              held := if completed then some r else u.held
              trap1 := { cause := 0x0E, pc := tpc, info0 := u.wbase.setWidth 64, info1 := 1, info2 := 0, info3 := u.status }
              winTrap := true
              spsel := u.wbase } p 1 0x0E) ∧
        (u.tl = 0 → (window ∨ r.cause = 0x20) →
          b.takeTrap t r tpc completed = entered
            { u with
              trap1 := saved
              winTrap := decide window
              spsel := if r.cause = 0x0E then u.wbase else if r.cause = 0x0F then u.wcur - 1 else u.spsel } prv 1 r.cause.toNat) ∧
        (u.tl = 1 → ¬window → b.takeTrap t r tpc completed = entered { u with trap2 := saved } prv 2 r.cause.toNat)) ∧
  (∀ (b : Body) (t v : StrandId) (r : TrapReq) (tpc : BitVec 48),
      (b.strand t).tl = 2 → (b.strand t).micro = none →
        let b' := b.takeTrap t r tpc
        b'.strand t = { b.strand t with
          run := .stopped, check := some { cause := r.cause, pc := tpc, info0 := r.info0, info1 := r.info1, info2 := r.info2 } } ∧
        (v ≠ t → v.val ≠ (b.strand t).chktgt.toNat → b'.strand v = b.strand v) ∧
        (v ≠ t → v.val = (b.strand t).chktgt.toNat → t.val ∈ (b'.strand v).checkSrc))

/-- SVC raises SUPERVISOR_CALL after itself and BRK raises BREAKPOINT at itself, CS.TINFO0 being the operand (R71, R115). Bytes that are no instruction raise ILLEGAL_INSTRUCTION with the bytes in CS.TINFO0 (R90, R91, R71). -/
def Obligations.SystemCallBreakpointAndUnassigned : Prop :=
  (∀ (s : State) (t : StrandId) (b : Body) (imm : BitVec 24), (b.strand t).pend = false →
      (Runs s t (.svc t imm) b →
        exec (.svc t imm) s = .next { s with
          body := (finish s b t (b.strand t) (b.seqPc t 6)).body.takeTrap t
            { cause := 0x12, rule := .next, info0 := imm.setWidth 64 } (b.seqPc t 6) true }) ∧
      (Runs s t (.brk t imm) b →
        exec (.brk t imm) s = .next { s with
          body := b.takeTrap t { cause := 0x13, rule := .upK, info0 := imm.setWidth 64 } (b.strand t).pc })) ∧
  (∀ (s : State) (t : StrandId) (b : Body) (bytes : List Byte),
      (s.body.strand t).ready = true → s.body.dueFirst t false = none → s.body.fetchBytes t = .ok b bytes →
        decodeInsn t (leNat bytes) = none → (b.strand t).pend = false →
          exec (.unassignedInstruction t) s = .next { s with
            body := b.takeTrap t { cause := 0x01, rule := .upK, info0 := BitVec.ofNat 64 (leNat bytes) } (b.strand t).pc })

/-- B.cond, BZ, BNZ, BLTZ, BGEZ, JR and NOP (R97, R113, R114, R115): the pc becomes the branch's own address plus the sign-extended
offset when the branch is taken, and nothing else changes. CALL and CALLR store the return address below CS.LSP, lower CS.LSP by 8, rotate the window forward and go to their target; RET loads
the return address at CS.LSP, raises CS.LSP by 8 and rotates back (R52, R53). With 14 resident frames a call, and with none a return, takes
its window trap instead, and at TL 1 or 2 all three are illegal. -/
def Obligations.BranchesCallsAndReturns : Prop :=
  (∀ (s : State) (t : StrandId) (b : Body) (ra : Reg) (off : BitVec 24),
      let u := b.strand t
      let n := u.status.getLsbD 15 = true
      let z := u.status.getLsbD 14 = true
      let v := u.status.getLsbD 13 = true
      let c := u.status.getLsbD 12 = true
      let goes (i : Instr) (taken : Prop) : Prop := Runs s t i b →
        (taken → exec i s = .next (finish s b t u (u.pc + off.signExtend 48))) ∧
        (¬taken → exec i s = .next (finish s b t u (b.seqPc t 6)))
      let conds : List Prop := [True, z, ¬z, c, ¬c, n, ¬n, v, ¬v, c ∧ ¬z, ¬c ∨ z, (n ↔ v), ¬(n ↔ v), ¬z ∧ (n ↔ v), z ∨ ¬(n ↔ v)]
      (∀ k : Fin 15, goes (.bCond t (BitVec.ofNat 5 k.val) off) (conds.getD k.val False)) ∧
      (∀ cond : BitVec 5, 15 ≤ cond.toNat → Runs s t (.bCond t cond off) b → u.pend = false →
        exec (.bCond t cond off) s = .next { s with
          body := b.takeTrap t { cause := 0x01, rule := .upK, info0 := insnBytes (.bCond t cond off) } u.pc }) ∧
      goes (.bz t ra off) (u.reg ra = 0) ∧
      goes (.bnz t ra off) (u.reg ra ≠ 0) ∧
      goes (.bltz t ra off) ((u.reg ra).toInt < 0) ∧
      goes (.bgez t ra off) (0 ≤ (u.reg ra).toInt) ∧
      (Runs s t (.jr t ra) b → exec (.jr t ra) s = .next (finish s b t u ((u.reg ra).extractLsb' 0 48))) ∧
      (Runs s t (.nop t) b → exec (.nop t) s = .next (finish s b t u (b.seqPc t 3)))) ∧
  (∀ (s : State) (t : StrandId) (b : Body) (off : BitVec 24) (ra : Reg), (b.strand t).pend = false →
      let u := b.strand t
      let calls (i : Instr) (len : Nat) (target : BitVec 48) : Prop := Runs s t i b →
        (∀ b' : Body, u.tl = 0 → u.resident ≠ 14 →
          b.plainStore t needPush u.prv (u.lsp - 8).toNat (leBytes 8 (b.seqPc t len).toNat) = .ok b' () →
            exec i s = .next (finish s b' t { b'.strand t with lsp := u.lsp - 8, wcur := (b'.strand t).wcur + 1 } target)) ∧
        (u.tl = 0 → u.resident = 14 → exec i s = .next { s with
          body := b.takeTrap t { cause := 0x0E, rule := .upK, info0 := u.wbase.setWidth 64, info1 := 0 } u.pc }) ∧
        (u.tl ≠ 0 → exec i s = .next { s with body := b.takeTrap t { cause := 0x01, rule := .upK, info0 := insnBytes i } u.pc })
      calls (.call t off) 6 (u.pc + off.signExtend 48) ∧
      calls (.callr t ra) 3 ((u.reg ra).extractLsb' 0 48) ∧
      (Runs s t (.ret t) b →
        (∀ (b' : Body) (bytes : List Byte), u.tl = 0 → u.resident ≠ 0 → b.loadVa t needPop u.prv u.lsp.toNat 8 = .ok b' bytes →
          exec (.ret t) s = .next (finish s b' t { b'.strand t with lsp := (b'.strand t).lsp + 8, wcur := (b'.strand t).wcur - 1 }
            (BitVec.ofNat 48 (leNat bytes)))) ∧
        (u.tl = 0 → u.resident = 0 → exec (.ret t) s = .next { s with
          body := b.takeTrap t { cause := 0x0F, rule := .upK, info0 := (u.wcur - 1).setWidth 64, info1 := 0 } u.pc }) ∧
        (u.tl ≠ 0 → exec (.ret t) s = .next { s with
          body := b.takeTrap t { cause := 0x01, rule := .upK, info0 := insnBytes (.ret t) } u.pc })))

/-- RTT (R63): CS.STATUS comes from the current copy of CS.TINFO3 with TL and PRV bounded by those of the strand, the pc from the same copy of
CS.TPC; at TL 0 the window rotates back. It is privileged at U, and at TL 0 with no resident frame it takes WINDOW_UNDERFLOW. -/
def Obligations.ReturnFromTrap : Prop :=
  ∀ (s : State) (t : StrandId) (b : Body),
    let u := b.strand t
    let c := if u.tl = 1 then u.trap1 else if u.tl = 2 then u.trap2 else if u.prv = 2 then u.trapS else u.trapK
    let tl := if u.tl = 0 then 0 else min (c.info3.extractLsb' 0 2).toNat (u.tl - 1)
    let prv := min (c.info3.extractLsb' 2 2).toNat u.prv.toNat
    Runs s t (.rtt t) b true →
      (u.prv ≠ 0 → ¬(u.tl = 0 ∧ u.wcur = u.wbase) →
        exec (.rtt t) s = .next (finish s b t
          { u with
            status := (c.info3 &&& 0xF3F0) ||| BitVec.ofNat 64 (prv * 4 + tl)
            wcur := if u.tl = 0 then u.wcur - 1 else u.wcur
            winTrap := u.winTrap && tl = 1
            resv := none
            hold := false } c.pc)) ∧
      (u.prv = 0 → u.pend = false → exec (.rtt t) s = .next { s with
        body := b.takeTrap t { cause := 0x02, rule := .next, info0 := insnBytes (.rtt t) } u.pc }) ∧
      (u.prv ≠ 0 → u.tl = 0 → u.wcur = u.wbase → u.pend = false → exec (.rtt t) s = .next { s with
        body := b.takeTrap t { cause := 0x0F, rule := .upK, info0 := (u.wcur - 1).setWidth 64, info1 := 1 } u.pc })

/-- WAIT completes at once when a bit of CS.IPEND is set or a machine check is due, and otherwise suspends the strand; WAIT_WAKE completes a
suspended WAIT (R115). At TL 1 or 2 WAIT is illegal, and at U privileged. FENCE.M completes once the store buffer is empty, FENCE.IO once no posted store of the strand is left, delivering a held failure record
as DEFERRED_STORE_ERROR after itself; each waits until then, and its completion command ends the wait (R201, R211). -/
def Obligations.WaitsAndFences : Prop :=
  (∀ (s : State) (t : StrandId) (b : Body),
      let u := b.strand t
      let woken (x : Body) : Prop := x.ipend t ≠ 0 ∨ (x.strand t).mcheck.isSome = true
      (Runs s t (.wait t) b true → u.tl = 0 → u.prv ≠ 0 →
        (woken b → exec (.wait t) s = .next (finish s b t u (b.seqPc t 6))) ∧
        (¬woken b → exec (.wait t) s = .next { s with body := b.setStrand t { u with act := .waiting } })) ∧
      (Runs s t (.wait t) b true → u.pend = false → u.tl ≠ 0 → exec (.wait t) s = .next { s with
        body := b.takeTrap t { cause := 0x01, rule := .upK, info0 := insnBytes (.wait t) } u.pc }) ∧
      (Runs s t (.wait t) b true → u.pend = false → u.tl = 0 → u.prv = 0 → exec (.wait t) s = .next { s with
        body := b.takeTrap t { cause := 0x02, rule := .next, info0 := insnBytes (.wait t) } u.pc }) ∧
      ((s.body.strand t).run = .running → (s.body.strand t).act = .waiting → woken s.body →
        exec (.waitWake t) s = .next (finish s s.body t { s.body.strand t with act := .ready } (s.body.seqPc t 6)))) ∧
  (∀ (s : State) (t : StrandId) (b : Body),
      let u := b.strand t
      let record (v : Strand) (f : FailRecord) : TrapReq :=
        { cause := 0x11
          rule := .upK
          info0 := f.slice.setWidth 64
          info1 := f.off.setWidth 64
          info2 := BitVec.ofNat 64 (f.part.toNat * 2 ^ 48 + f.asid.toNat * 2 ^ 32 + v.further.toNat * 2 ^ 16 + f.loadCause.toNat * 256 +
            f.kind.toNat) }
      let posted (x : Body) : Prop := ∃ p ∈ x.io.posted, p.strand = t
      (Runs s t (.fenceM t) b →
        (u.sb = [] → exec (.fenceM t) s = .next (finish s b t u (b.seqPc t 3))) ∧
        (u.sb ≠ [] → exec (.fenceM t) s = .next { s with body := b.setStrand t { u with act := .fenceM } })) ∧
      (Runs s t (.fenceIo t) b →
        (posted b → exec (.fenceIo t) s = .next { s with body := b.setStrand t { u with act := .fenceIo } }) ∧
        (¬posted b → u.fail = none → exec (.fenceIo t) s = .next (finish s b t u (b.seqPc t 3))) ∧
        (∀ f, ¬posted b → u.fail = some f → u.pend = false → exec (.fenceIo t) s = .next { s with
          body := (finish s b t { u with fail := none, further := 0 } (b.seqPc t 3)).body.takeTrap t (record u f) (b.seqPc t 3) true })) ∧
      (let v := s.body.strand t
       (v.run = .running → v.act = .fenceM → v.mcheck = none → v.sb = [] →
         exec (.fenceMComplete t) s = .next (finish s s.body t { v with act := .ready } (s.body.seqPc t 3))) ∧
       (v.run = .running → v.act = .fenceIo → ¬posted s.body → v.pend = false → v.mcheck = none → (v.held = none ∨ v.tl ≠ 0) →
         (v.fail = none → exec (.fenceIoComplete t) s = .next (finish s s.body t { v with act := .ready } (s.body.seqPc t 3))) ∧
         (∀ f, v.fail = some f → exec (.fenceIoComplete t) s = .next { s with
           body := (finish s s.body t { v with act := .ready, fail := none, further := 0 } (s.body.seqPc t 3)).body.takeTrap t
             (record v f) (s.body.seqPc t 3) true }))))

/-! ## Control-state registers and interrupts -/

/-- CSRD of the registers of R74 whose value is a field of the strand, at the privilege the register asks for (R74 to R84): the number, the lowest
privilege that reads it, its value. Access to control state is refused as R73 says: a number that R74 does not list is illegal; an access below the register's privilege, a write of
CS.TOD or CS.IPEND at any privilege, and a write at U that would change IE or FIE are privileged; nothing is changed. The numbers named stand for the
four kinds of case. -/
def Obligations.ControlStateReads : Prop :=
  (∀ (s : State) (t : StrandId) (b : Body) (rd : Reg) (num : BitVec 12) (prv : Nat) (v : W),
      let u := b.strand t
      let cur := if u.tl = 1 then u.trap1 else if u.tl = 2 then u.trap2 else if u.prv = 2 then u.trapS else u.trapK
      let copies (base : BitVec 12) (f : TrapCopy → W) : List (BitVec 12 × Nat × W) :=
        [(base, 1, f cur), (base + 1, 1, f u.trapK), (base + 2, 2, f u.trapS), (base + 3, 1, f u.trap1), (base + 4, 1, f u.trap2)]
      let table : List (BitVec 12 × Nat × W) :=
        [(0x000, 0, u.status), (0x001, 0, u.fpstat),
         (0x002, 0, BitVec.ofNat 64 (u.spsel.toNat * 4096 + u.wbase.toNat * 256 + (u.wcur - u.wbase).toNat * 16 + u.wcur.toNat)),
         (0x003, 0, u.lsp), (0x004, 0, u.wsp),
         (0x011, 1, u.tvecK.setWidth 64 <<< 16), (0x012, 2, u.tvecS.setWidth 64 <<< 16),
         (0x050, 1, u.itbr), (0x051, 1, u.dtbr), (0x052, 2, u.s2tbr), (0x058, 0, u.asid.setWidth 64), (0x059, 1, u.part.setWidth 64),
         (0x060, 0, (u.iob[0]).setWidth 64), (0x061, 0, (u.iob[1]).setWidth 64), (0x062, 0, (u.iob[2]).setWidth 64),
         (0x063, 0, (u.iob[3]).setWidth 64), (0x06A, 2, u.waymaskL3.setWidth 64 <<< 16 ||| u.waymaskL2.setWidth 64),
         (0x070, 0, b.ctl.tod[halfOfStrand t]), (0x079, 1, u.tcmpK), (0x07A, 2, u.tcmpS), (0x088, 2, u.chktgt.setWidth 64),
         (0x400, 1, u.bank[0]), (0x43F, 1, u.bank[63])]
      let trapTable : List (BitVec 12 × Nat × W) :=
        copies 0x018 (fun c => c.cause.setWidth 64) ++ copies 0x020 (fun c => c.pc.setWidth 64) ++ copies 0x028 (·.info0) ++
        copies 0x030 (·.info1) ++ copies 0x038 (·.info2) ++ copies 0x040 (·.info3)
      (num, prv, v) ∈ table ++ trapTable → Runs s t (.csrd t rd num) b (num = 1) → prv ≤ u.prv.toNat →
        exec (.csrd t rd num) s = .next (finish s b t (u.setReg rd v) (b.seqPc t 6))) ∧
  (∀ (s : State) (t : StrandId) (b : Body) (rd ra : Reg) (num : BitVec 12), (b.strand t).pend = false →
      let u := b.strand t
      let trap (i : Instr) (cause : Byte) (rule : HandlerRule) : Prop := Runs s t i b →
        exec i s = .next { s with body := b.takeTrap t { cause := cause, rule := rule, info0 := insnBytes i } u.pc }
      (num ∈ [0x005, 0x00F, 0x013, 0x014, 0x01D, 0x027, 0x048, 0x053, 0x06B, 0x071, 0x07B, 0x081, 0x0FF, 0x3FF, 0x440, 0xFFF] →
        trap (.csrd t rd num) 0x01 .upK ∧ trap (.cswr t num ra) 0x01 .upK) ∧
      (num ∈ [0x011, 0x018, 0x023, 0x028, 0x050, 0x059, 0x080, 0x400, 0x43F] → u.prv = 0 → trap (.csrd t rd num) 0x02 .next) ∧
      (num ∈ [0x002, 0x011, 0x018, 0x050, 0x058, 0x060, 0x400] → u.prv = 0 → trap (.cswr t num ra) 0x02 .next) ∧
      (num ∈ [0x012, 0x01A, 0x022, 0x052, 0x068, 0x069, 0x06A, 0x07A, 0x088] → u.prv.toNat < 2 →
        trap (.csrd t rd num) 0x02 .next ∧ trap (.cswr t num ra) 0x02 .next) ∧
      (num = 0x070 ∨ num = 0x080 → u.prv.toNat ≤ 2 → trap (.cswr t num ra) 0x02 .next) ∧
      (u.prv = 0 → (u.reg ra ^^^ u.status) &&& 0x30 ≠ 0 → trap (.cswr t 0x000 ra) 0x02 .next))

/-- CSWR of a register without behaviour of its own changes that register alone, in the fields that R75 to R84 make writable: number, lowest
privilege that writes it, and the strand that results. The four rows of CSWR with a behaviour of their own. WRITE_CS_WIN sets WCUR and WBASE unless the resident count would be 15;
WRITE_CS_TCMP sets the copy that its selector names; WRITE_CS_SPAD keeps WAYS for a count above 8 and otherwise sets it, both
ending in what CSRD then reads; WRITE_CS_CACHECTL sets the four enables (R55, R67, R77, R82, R180, R190, R191). -/
def Obligations.ControlStateWrites : Prop :=
  (∀ (s : State) (t : StrandId) (b : Body) (ra : Reg) (num : BitVec 12) (prv : Nat) (u' : Strand),
      let u := b.strand t
      let v := u.reg ra
      let low (n : Nat) : BitVec n := v.setWidth n
      let fp (rm : W) : W := (u.fpstat &&& 0x1000000) ||| rm ||| (v &&& 0x1F1F00)
      let noResv := u.endResv
      let copies (base : BitVec 12) (f : TrapCopy → TrapCopy) : List (BitVec 12 × Nat × Strand) :=
        [(base + 1, 1, { u with trapK := f u.trapK }), (base + 2, 2, { u with trapS := f u.trapS }),
         (base + 3, 1, { u with trap1 := f u.trap1 }), (base + 4, 1, { u with trap2 := f u.trap2 })]
      let table : List (BitVec 12 × Nat × Strand) :=
        [(0x000, 1, { u with status := (u.status &&& ~~~0xF3F0#64) ||| (v &&& 0xF3F0) }),
         (0x001, 0, { u with fpstat := fp (if (low 3).toNat ≤ 4 then v &&& 7 else u.fpstat &&& 7) }),
         (0x003, 0, { u with lsp := v &&& ~~~7#64 }), (0x004, 0, { u with wsp := v &&& ~~~7#64 }),
         (0x011, 1, { u with tvecK := v.extractLsb' 16 32 }), (0x012, 2, { u with tvecS := v.extractLsb' 16 32 }),
         (0x050, 1, { u with itbr := v &&& 0xFFFFFFFFFF001 }), (0x051, 1, { noResv with dtbr := v &&& 0xFFFFFFFFFF001 }),
         (0x052, 2, { noResv with s2tbr := v &&& 0xFFFFFFFFFF001 }), (0x058, 1, { noResv with asid := low 16 }),
         (0x059, 2, { noResv with part := low 8 }),
         (0x060, 1, { u with iob := u.iob.set 0 (low 13) }), (0x063, 1, { u with iob := u.iob.set 3 (low 13) }),
         (0x06A, 2, { u with
           waymaskL2 := if low 16 = 0 then u.waymaskL2 else low 16
           waymaskL3 := if v.extractLsb' 16 16 = 0 then u.waymaskL3 else v.extractLsb' 16 16 }),
         (0x088, 2, { u with chktgt := if 576 ≤ (low 10).toNat ∧ (low 10).toNat ≤ 1022 then u.chktgt else low 10 })] ++
        copies 0x018 (fun c => { c with cause := low 8 }) ++ copies 0x020 (fun c => { c with pc := low 48 }) ++
        copies 0x028 (fun c => { c with info0 := v }) ++ copies 0x040 (fun c => { c with info3 := v })
      (num, prv, u') ∈ table → Runs s t (.cswr t num ra) b (num = 1) → prv ≤ u.prv.toNat →
        exec (.cswr t num ra) s = .next (finish s b t u' (b.seqPc t 6))) ∧
  (∀ (s : State) (t : StrandId) (b : Body) (ra : Reg),
      let u := b.strand t
      let v := u.reg ra
      (Runs s t (.writeCsWin t ra) b → 1 ≤ u.prv.toNat →
        let cur := v.extractLsb' 0 4
        let base := v.extractLsb' 8 4
        exec (.writeCsWin t ra) s = .next (finish s b t
          (if cur - base = 15 then u else { u with wcur := cur, wbase := base }) (b.seqPc t 6))) ∧
      (∀ sel : BitVec 3, Runs s t (.writeCsTcmp t sel ra) b →
        (sel = 1 ∨ sel = 0 ∧ u.prv = 1 → 1 ≤ u.prv.toNat →
          exec (.writeCsTcmp t sel ra) s = .next (finish s b t { u with tcmpK := v } (b.seqPc t 6))) ∧
        (sel = 2 ∨ sel = 0 → u.prv = 2 →
          exec (.writeCsTcmp t sel ra) s = .next (finish s b t { u with tcmpS := v } (b.seqPc t 6)))) ∧
      (Runs s t (.writeCsSpad t ra) b → 2 ≤ u.prv.toNat →
        ∃ b' : Body, exec (.writeCsSpad t ra) s = .next (finish s b' t (b'.strand t) (b.seqPc t 6)) ∧
          b'.io = b.io ∧ b'.strand t = u.endResv ∧
          (b'.cluster (b'.spadHome t)).ways =
            if 8 < (v.extractLsb' 0 4).toNat then (b.cluster (b.spadHome t)).ways else v.extractLsb' 0 4) ∧
      (Runs s t (.writeCsCachectl t ra) b → 2 ≤ u.prv.toNat →
        ∃ b' : Body, exec (.writeCsCachectl t ra) s = .next (finish s b' t (b'.strand t) (b.seqPc t 6)) ∧
          b'.io = b.io ∧ b'.strand t = u.endResv ∧
          (b'.core (coreOf t)).l1ie = v.getLsbD 0 ∧ (b'.core (coreOf t)).l1de = v.getLsbD 1 ∧
          (b'.cluster (clusterOfStrand t)).l2e = v.getLsbD 2 ∧ (b'.die (dieOf (clusterOfStrand t))).l3e = v.getLsbD 3))

/-- An enabled source is taken at a boundary in the order of R68: S timer, supervisor events, fast events, K timer, external events; CS.TINFO0 is
the lowest asserted identifier, or the compare value (R57, R66, R68). INTERRUPT_TAKEN takes whichever is first, FAST_INTERRUPT a fast one. No interrupt is taken at TL 1 or 2: every source stays pending (R57, R66). -/
def Obligations.InterruptPriority : Prop :=
  (∀ (s : State) (t : StrandId) (n : Nat),
      let b := s.body
      let u := b.strand t
      let sOn := u.ie = true ∨ u.prv ≠ 2
      let kOn := u.ie = true ∧ u.prv ≠ 2
      let fOn := u.fie = true ∧ u.prv ≠ 2
      let sTimer := sOn ∧ u.tcmpS.toNat ≤ (b.ctl.tod[halfOfStrand t]).toNat
      let kTimer := kOn ∧ u.tcmpK.toNat ≤ (b.ctl.tod[halfOfStrand t]).toNat
      let sup := sOn ∧ b.sources t .sup ≠ []
      let fast := fOn ∧ b.sources t .fast ≠ []
      let lowest (k : IntrKind) : Prop := n ∈ b.sources t k ∧ ∀ m ∈ b.sources t k, n ≤ m
      let taken (i : Instr) (cause : Byte) (prv : BitVec 2) (info : W) : Prop :=
        exec i s = .next { s with body := b.takeTrap t { cause := cause, rule := .target prv, info0 := info } u.pc }
      u.interruptible = true → b.boundary t false = none → u.pend = false → u.tl = 0 →
        (sTimer → taken (.interruptTaken t) 0x22 2 u.tcmpS) ∧
        (¬sTimer → sOn → lowest .sup → taken (.interruptTaken t) 0x21 2 (BitVec.ofNat 64 n)) ∧
        (¬sTimer → ¬sup → fOn → lowest .fast →
          taken (.interruptTaken t) 0x20 1 (BitVec.ofNat 64 n) ∧ taken (.fastInterrupt t) 0x20 1 (BitVec.ofNat 64 n)) ∧
        (¬sTimer → ¬sup → ¬fast → kTimer → taken (.interruptTaken t) 0x22 1 u.tcmpK) ∧
        (¬sTimer → ¬sup → ¬fast → ¬kTimer → kOn → lowest .ext → taken (.interruptTaken t) 0x21 1 (BitVec.ofNat 64 n))) ∧
  (∀ (s : State) (t : StrandId), (s.body.strand t).tl ≠ 0 → s.body.boundary t false = none →
      exec (.interruptTaken t) s = .next s ∧ exec (.fastInterrupt t) s = .next s)

/-- TIMER: the timebases move forward together until CS.TOD stands at the compare value, and an enabled S timer is taken at S; an enabled K timer is
taken at K where nothing of higher priority is due (R67, R68). The common move of both timebases is the model's choice of log entry 5. FP_DEFERRED delivers the pending exception with the address and kind of the instruction that caused it and clears PEND, a customer routine in progress being abandoned (R69, R263); the held event follows it at
the first boundary at TL 0 (R68, R69, R163, R554). COMPLETION_EVENT_DELAY ends the DELAY of the oldest completion entry, which asserts the
slice's event (R357). -/
def Obligations.TimerAndHeldEvents : Prop :=
  (∀ (s : State) (t : StrandId) (tgt : TimerTarget),
      let h := halfOfStrand t
      let u := s.body.strand t
      let cmp := match tgt with | .k => u.tcmpK | .s => u.tcmpS
      let d := BitVec.ofNat 64 (cmp.toNat - (s.body.ctl.tod[h]).toNat)
      let b := { s.body with ctl := { s.body.ctl with
        tod := #v[s.body.ctl.tod[(0 : HubId)] + d, s.body.ctl.tod[(1 : HubId)] + d] } }
      cmp.toNat ≤ (b.ctl.tod[h]).toNat ∧
      (u.interruptible = true → b.boundary t false = none → u.pend = false → u.tl = 0 →
        (tgt = .s → (u.ie = true ∨ u.prv ≠ 2) → exec (.timer t tgt) s = .next { s with
          body := b.takeTrap t { cause := 0x22, rule := .target 2, info0 := u.tcmpS } u.pc }) ∧
        (tgt = .k → u.ie = true → u.prv ≠ 2 → (b.ctl.tod[h]).toNat < u.tcmpS.toNat → b.sources t .sup = [] → b.sources t .fast = [] →
          exec (.timer t tgt) s = .next { s with
            body := b.takeTrap t { cause := 0x22, rule := .target 1, info0 := u.tcmpK } u.pc }))) ∧
  (∀ (s : State) (t : StrandId),
      let b := s.body
      let u := b.strand t
      (u.interruptible = true → u.tl = 0 → u.pend = true → u.resident ≠ 14 →
        exec (.fpDeferred t) s = .next { s with
          body := (b.setStrand t { u.abandon with fpstat := u.abandon.fpstat &&& ~~~0x1000000#64 }).takeTrap t
            { cause := 0x0D
              rule := .target (if u.fpPrv = 2 then 2 else 1)
              info0 := u.fpAddr.setWidth 64
              info1 := u.fpKind } u.pc }) ∧
      (∀ r, u.interruptible = true → u.tl = 0 → u.pend = false → u.mcheck = none → u.held = some r →
        exec (.heldEvent t) s = .next { s with body := (b.setStrand t { u with held := none }).takeTrap t r u.pc true }) ∧
      (∀ (n : SliceId) (e : Nat), let x := b.slice n
        x.st ≠ .free → x.arm = true → x.cq.head ≠ x.cq.tail → x.delayEnd = some e → e < 2 ^ 64 →
          ∃ b', exec (.completionEventDelay n) s = .next { s with body := b' } ∧ b'.sliceEvent n = true ∧
            b' = { b with ctl := { b.ctl with tod := b'.ctl.tod } }))

/-! ## Loads, stores and atomics -/

/-- LD and LDS write rd with the bytes that the load obtains, zero-extended or sign-extended, and IRD with 8 bytes of instruction space read at K or S; the
effective address is that of R95 and R97. LDS.D is illegal, and IRD and IWR are privileged (R111, R120). What a load obtains leaves the machine as it was but for cached translations, the order of use of cache ways and, past a disabled L2, a
clean copy at the line's owner: a load that ends normally with the L2 of its cluster enabled changes no register, no memory and no
line of a cache (R166, R173, R238), and yields as many bytes as it asked for. -/
def Obligations.Loads : Prop :=
  (∀ (s : State) (t : StrandId) (b b' : Body) (sz : Size) (m : MemForm) (base rd : Reg) (disp : BitVec 24) (bytes : List Byte),
      let u := b.strand t
      let n := match sz with | .b => 1 | .h => 2 | .w => 4 | .d => 8
      let len := match m with | .idx _ _ _ => 3 | .disp _ _ => 6
      let ea : W := match m with
        | .idx ra rb x => u.reg ra + u.reg rb * (if x then BitVec.ofNat 64 n else 1)
        | .disp base d => u.reg base + d.signExtend 64
      (Runs s t (.ld t sz m rd) b → b.loadVa t needLoad u.dataPrv ea.toNat n = .ok b' bytes →
        exec (.ld t sz m rd) s = .next (finish s b' t ((b'.strand t).setReg rd (BitVec.ofNat 64 (leNat bytes))) (b.seqPc t len))) ∧
      (Runs s t (.lds t sz m rd) b → sz ≠ .d → b.loadVa t needLoad u.dataPrv ea.toNat n = .ok b' bytes →
        exec (.lds t sz m rd) s =
          .next (finish s b' t ((b'.strand t).setReg rd ((BitVec.ofNat (8 * n) (leNat bytes)).signExtend 64)) (b.seqPc t len))) ∧
      (Runs s t (.lds t .d m rd) b → u.pend = false → exec (.lds t .d m rd) s = .next { s with
        body := b.takeTrap t { cause := 0x01, rule := .upK, info0 := insnBytes (.lds t .d m rd) } u.pc }) ∧
      (Runs s t (.ird t base disp rd) b → 1 ≤ u.prv.toNat →
        b.loadVa t needIrd u.prv ((u.reg base + disp.signExtend 64).toNat % 2 ^ 48) 8 = .ok b' bytes →
          exec (.ird t base disp rd) s = .next (finish s b' t ((b'.strand t).setReg rd (BitVec.ofNat 64 (leNat bytes))) (b.seqPc t 6))) ∧
      (∀ i ∈ [Instr.ird t base disp rd, .iwr t base disp rd], Runs s t i b → u.prv = 0 → u.pend = false →
        exec i s = .next { s with body := b.takeTrap t { cause := 0x02, rule := .next, info0 := insnBytes i } u.pc })) ∧
  (∀ (b b' : Body) (t : StrandId) (need : Need) (prv : BitVec 2) (va n : Nat) (bytes : List Byte),
      (b.cluster (clusterOfStrand t)).l2e = true → 1 ≤ n → n ≤ 256 →
        b.loadVa t need prv va n = .ok b' bytes → SameButTlb b b' ∧ bytes.length = n)

/-- ST and IWR put the low bytes of rd into the store buffer, at the address that the translation of R95's effective address gives, and change no
register (R111, R197). -/
def Obligations.Stores : Prop :=
  ∀ (s : State) (t : StrandId) (b b' : Body) (sz : Size) (m : MemForm) (base rd : Reg) (disp : BitVec 24),
    let u := b.strand t
    let n := match sz with | .b => 1 | .h => 2 | .w => 4 | .d => 8
    let len := match m with | .idx _ _ _ => 3 | .disp _ _ => 6
    let ea : W := match m with
      | .idx ra rb x => u.reg ra + u.reg rb * (if x then BitVec.ofNat 64 n else 1)
      | .disp base d => u.reg base + d.signExtend 64
    (Runs s t (.st t sz m rd) b → b.plainStore t needStore u.dataPrv ea.toNat (leBytes n (u.reg rd).toNat) = .ok b' () →
      exec (.st t sz m rd) s = .next (finish s b' t (b'.strand t) (b.seqPc t len))) ∧
    (Runs s t (.iwr t base disp rd) b → 1 ≤ u.prv.toNat →
      b.plainStore t needIwr u.prv ((u.reg base + disp.signExtend 64).toNat % 2 ^ 48) (leBytes 8 (u.reg rd).toNat) = .ok b' () →
        exec (.iwr t base disp rd) s = .next (finish s b' t (b'.strand t) (b.seqPc t 6)))

/-- A store that ends normally appends to the strand's store buffer entries that hold its bytes in order at the physical addresses of the
translated segments, at most 16 in all, and changes nothing else but cached translations and the order of use of cache ways (R197). A strand sees its own buffered stores: bytes laid over by a buffer whose youngest entry covers them are that entry's, and bytes that no entry
covers are those read (R196). STORE_PERFORMED: the oldest buffered store whose line its cluster holds in E or M is written there. The line becomes modified and holds the bytes, the
other lines of that L2, the other L2s and memory keep what they hold, every reservation on the granule ends, and the store leaves
the buffer (R171, R195, R197, R215). -/
def Obligations.StoreBuffer : Prop :=
  (∀ (b b1 b' : Body) (t : StrandId) (need : Need) (prv : BitVec 2) (va : Nat) (bytes : List Byte) (gs : List Seg),
      b.storeVa t need prv va bytes.length = .ok b1 gs → b.plainStore t need prv va bytes = .ok b' () →
        SameButTlb b b1 ∧
        ∃ es : List StoreEntry, b' = b1.setStrand t { b1.strand t with sb := (b1.strand t).sb ++ es } ∧
          ((b1.strand t).sb ++ es).length ≤ 16 ∧ es.map (·.pa) = gs.map (·.pa) ∧
          (1 ≤ bytes.length → bytes.length ≤ 256 → es.flatMap (·.bytes) = bytes)) ∧
  (∀ (sb : List StoreEntry) (e : StoreEntry) (pa i : Nat) (bytes : List Byte), i < bytes.length →
      (e.pa ≤ pa + i → pa + i < e.pa + e.bytes.length → (forward (sb ++ [e]) pa bytes).getD i 0 = e.bytes.getD (pa + i - e.pa) 0) ∧
      ((∀ x ∈ sb, pa + i < x.pa ∨ x.pa + x.bytes.length ≤ pa + i) → (forward sb pa bytes).getD i 0 = bytes.getD i 0)) ∧
  (∀ (s : State) (t v : StrandId) (e : StoreEntry) (rest : List StoreEntry) (k : Nat) (l2 : L2Line) (c : ClusterId),
      let b := s.body
      let l := lineNo e.pa
      let here := clusterOfStrand t
      (b.strand t).sb = e :: rest → b.classOf e.pa ≠ .scratchpad → b.lineCheck t e.pa false = none →
      (b.cluster here).l2e = true → b.l2Has here l = some (k, l2) → (l2.st = .e ∨ l2.st = .m) → b.mirrored e.pa = none →
        ∃ b' : Body, exec (.storePerformed t) s = .next { s with body := b' } ∧
          (b'.strand t).sb = rest ∧
          tGet (b'.cluster here).l2 k = some { l2 with st := .m, data := lineSet l2.data (e.pa % 128) e.bytes } ∧
          (∀ j, j ≠ k → tGet (b'.cluster here).l2 j = tGet (b.cluster here).l2 j) ∧
          (c ≠ here → b'.cluster c = b.cluster c) ∧ b'.mem = b.mem ∧ b'.dies = b.dies ∧ b'.io = b.io ∧ b'.ctl = b.ctl ∧
          (v ≠ t → b'.strand v = if (b.strand v).resv = some (e.pa / 256) then (b.strand v).endResv else b.strand v) ∧
          b'.strand t = { (if (b.strand t).resv = some (e.pa / 256) then (b.strand t).endResv else b.strand t) with sb := rest })

/-- One chunk of BMOVE, whose source can be read (R140): up to 256 bytes are read, buffered as stores, and the three registers advance by the
chunk; with nothing left the instruction completes, and otherwise the strand stays at it, at an interior commit. A length of 0 moves nothing; equal or zero register numbers are illegal (R139). -/
def Obligations.BlockMove : Prop :=
  ∀ (s : State) (t : StrandId) (b b1 b2 b3 b4 : Body) (rd ra rb : Reg) (ps : List Piece) (gs : List Seg) (bytes : List Byte),
    let u := b.strand t
    let n := min (u.reg rb).toNat 256
    let k : W := BitVec.ofNat 64 n
    let good := rd ≠ 0 ∧ ra ≠ 0 ∧ rb ≠ 0 ∧ rd ≠ ra ∧ rd ≠ rb ∧ ra ≠ rb
    let v := b4.strand t
    let v' := ((v.setReg rd (v.reg rd + k)).setReg ra (v.reg ra + k)).setReg rb (v.reg rb - k)
    Runs s t (.bmove t rd ra rb) b →
      (good → u.reg rb = 0 → exec (.bmove t rd ra rb) s = .next (finish s b t u (b.seqPc t 3))) ∧
      (good → u.reg rb ≠ 0 → b.translate t needLoad u.dataPrv (u.reg ra).toNat n = .ok b1 ps →
        b1.readCheck t (segsOf ps) = none →
        b1.storeVa t needStore u.dataPrv (u.reg rd).toNat n = .ok b2 gs → b2.readSegs t (segsOf ps) = .ok b3 bytes →
        b3.bufferStore t gs bytes = some b4 →
          (v'.reg rb = 0 → exec (.bmove t rd ra rb) s = .next (finish s b4 t v' (b.seqPc t 3))) ∧
          (v'.reg rb ≠ 0 → exec (.bmove t rd ra rb) s = .next (s.withStrand b4 t { v' with oldSlip := false }))) ∧
      (¬good → u.pend = false → exec (.bmove t rd ra rb) s = .next { s with
        body := b.takeTrap t { cause := 0x01, rule := .upK, info0 := insnBytes (.bmove t rd ra rb) } u.pc })

/-- LDR loads its datum and reserves the granule that holds it, its cluster holding both lines for write (R112, R213, R217); STC without the
reservation stores nothing, with it and an empty buffer stores rb, and either way sets rd and CC and ends the reservation (R214); CAS compares and, on
equality, stores, indivisibly (R218). An address that is not naturally aligned takes ALIGNMENT instead (R112). -/
def Obligations.Atomics : Prop :=
  ∀ (s : State) (t : StrandId) (b b1 b2 b3 : Body) (wd : Width) (rd ra rb : Reg) (ps : List Piece) (g : Seg) (gs : List Seg)
    (bytes : List Byte),
    let u := b.strand t
    let n := match wd with | .d => 8 | .w => 4
    let va := (u.reg ra).toNat
    let c := clusterOfStrand t
    let seq := b.seqPc t 3
    let cc (z : Bool) : BitVec 4 := if z then 4 else 0
    (Runs s t (.ldr t wd rd ra) b → va % n = 0 → b.translate t needLdr u.dataPrv va n = .ok b1 ps → segsOf ps = g :: gs →
      b1.readSegs t (segsOf ps) = .ok b2 bytes → g.cls ≠ .scratchpad → (b2.cluster c).l2e = true →
      b2.obtainGranule t (g.pa / 256) g.slot g.nol3 = none →
        ∃ hold : Bool, exec (.ldr t wd rd ra) s = .next (finish s b2 t
            (({ b2.strand t with resv := some (g.pa / 256), hold := hold }).setReg rd (BitVec.ofNat 64 (leNat bytes))) seq) ∧
          ((∀ r ∈ b2.mem.reqs, r.write = true → r.cluster = c) → hold = true)) ∧
    (Runs s t (.stc t wd rd ra rb) b → va % n = 0 → b.storeVa t needStc u.dataPrv va n = .ok b1 (g :: gs) →
      ((b1.strand t).resv ≠ some (g.pa / 256) →
        exec (.stc t wd rd ra rb) s = .next (finish s b1 t ((((b1.strand t).endResv).setReg rd 1).setCC (cc false)) seq)) ∧
      ((b1.strand t).resv = some (g.pa / 256) → (b1.strand t).sb = [] → (b1.cluster c).l2e = true →
        b1.perform t g (leBytes n (u.reg rb).toNat) = .yes b2 →
          exec (.stc t wd rd ra rb) s = .next (finish s b2 t ((((b2.strand t).endResv).setReg rd 0).setCC (cc true)) seq))) ∧
    (Runs s t (.cas t wd rd ra rb) b → va % n = 0 → b.storeVa t needCas u.dataPrv va n = .ok b1 (g :: gs) → (b1.strand t).sb = [] →
      b1.exclusiveRead t g = .ok b2 bytes →
      (bytes ≠ leBytes n (u.reg rd).toNat → exec (.cas t wd rd ra rb) s =
        .next (finish s b2 t (((b2.strand t).setReg rd (BitVec.ofNat 64 (leNat bytes))).setCC (cc false)) seq)) ∧
      (bytes = leBytes n (u.reg rd).toNat → b2.perform t g (leBytes n (u.reg rb).toNat) = .yes b3 → exec (.cas t wd rd ra rb) s =
        .next (finish s b3 t (((b3.strand t).setReg rd (BitVec.ofNat 64 (leNat bytes))).setCC (cc true)) seq))) ∧
    (∀ i ∈ [Instr.ldr t wd rd ra, .stc t wd rd ra rb, .cas t wd rd ra rb], Runs s t i b → va % n ≠ 0 → u.pend = false →
      exec i s = .next { s with
        body := b.takeTrap t { cause := 0x08, rule := .upK, info0 := u.reg ra, info1 := BitVec.ofNat 64 n } u.pc })

/-! ## Caches and translation maintenance -/

/-- TLBI and WCI at a scope of 0 to 2 complete at once: at scope 0 the issuing core's entries that the operation selects are gone, the core owing an acknowledgement while a store of its strands through one of them is
buffered; at scopes 1 and 2 every core, and every hub for its engines, owes one, in issue order, the operation crossing the bridge to the other half (R16, R240 to R243). A scope above 2 is illegal, a scope of 2 below S and any
of them at U privileged (R116). A core acknowledges its oldest TLBI or WCI once no store of its strands through a selected translation is still buffered and no sealed span is open: no selected entry
is left in its TLBs, or in its walk cache. A hub's engines acknowledge likewise. TSYNC completes when nobody owes the strand an acknowledgement, and waits till
then; TSYNC_COMPLETE ends the wait (R243, R361). -/
def Obligations.TranslationInvalidation : Prop :=
  (∀ (s : State) (t : StrandId) (b : Body) (scope ra rb : Reg) (x : Bool) (c : CoreId) (h : HubId),
      let u := b.strand t
      let sup := u.prv = 2
      let v := u.reg rb
      let part : Byte := if sup then v.extractLsb' 16 8 else u.part
      let all := sup ∧ v.getLsbD 31 = true
      let regime := decide sup && v.getLsbD 30
      let asid : Option (BitVec 16) := if all then none else some (v.extractLsb' 0 16)
      let page (wci : Bool) : InvalOp :=
        { src := t, wci := wci, part := some part, sup := some regime, ispace := some x, asid := asid, globals := true, va := some (u.reg ra), stage2 := false }
      let tag (wci : Bool) : InvalOp :=
        { src := t, wci := wci, part := some part, sup := if wci = true ∧ all then none else some regime, ispace := none, asid := asid,
          globals := decide all, va := none, stage2 := wci && decide all }
      let every (wci : Bool) : InvalOp :=
        { src := t, wci := wci, part := if scope = 2 then none else some u.part, sup := none, ispace := none, asid := none, globals := true, va := none,
          stage2 := wci && decide sup }
      let ops : List (Instr × InvalOp) :=
        [(.tlbiVa t scope ra rb x, page false), (.tlbiTag t scope rb, tag false), (.tlbiAll t scope, every false),
         (.wciVa t scope ra rb x, page true), (.wciTag t scope rb, tag true), (.wciAll t scope, every true)]
      ∀ p ∈ ops, Runs s t p.1 b →
        (scope = 0 → 1 ≤ u.prv.toNat →
          exec p.1 s = .next (finish s (b.modCore (coreOf t) fun k =>
            { k.inval1 p.2 with inval := if b.owesStores (coreOf t) p.2 = true then k.inval ++ [p.2] else k.inval }) t u (b.seqPc t 3))) ∧
        (scope = 1 ∨ scope = 2 → (if scope = 2 then 2 else 1) ≤ u.prv.toNat → b.isSplit = false →
          ∃ b' : Body, exec p.1 s = .next (finish s b' t u (b.seqPc t 3)) ∧
            (∃ y, (b'.core c).inval = (b.core c).inval ++ [{ p.2 with via := y }] ∧ (halfOfCluster (clusterOf c) = halfOfStrand t → y = none)) ∧
            (∃ y, b'.io.einval[h] = b.io.einval[h] ++ [{ p.2 with via := y }] ∧ (h = halfOfStrand t → y = none)) ∧
            (b'.core c).dtlb = (b.core c).dtlb ∧ b'.strands = b.strands ∧ b'.clusters = b.clusters ∧
            b'.mem = { b.mem with bridgeSeq := b'.mem.bridgeSeq }) ∧
        (3 ≤ scope.toNat → u.pend = false → exec p.1 s = .next { s with
          body := b.takeTrap t { cause := 0x01, rule := .upK, info0 := insnBytes p.1 } u.pc }) ∧
        (scope.toNat ≤ 2 → u.prv.toNat < (if scope = 2 then 2 else 1) → u.pend = false → exec p.1 s = .next { s with
          body := b.takeTrap t { cause := 0x02, rule := .next, info0 := insnBytes p.1 } u.pc })) ∧
  (∀ (s : State) (t : StrandId) (b : Body) (c : CoreId) (h : HubId) (o : InvalOp) (rest : List InvalOp),
      let u := b.strand t
      ((s.body.core c).inval = o :: rest → s.body.owesStores c o = false → (∀ v : StrandId, coreOf v = c → (s.body.strand v).inSpan = false) →
        ∃ b' : Body, exec (.tlbiAck (.core c)) s = .next { s with body := b' } ∧ (b'.core c).inval = rest ∧
          (o.wci = false → ∀ e ∈ (b'.core c).dtlb ++ (b'.core c).itlb ++ (b'.core c).stlb, o.hitsTag e.tag = false) ∧
          (o.wci = true → ∀ e ∈ (b'.core c).walk, o.hitsWalk e = false) ∧
          (∀ e ∈ (s.body.core c).dtlb, o.hitsTag e.tag = false → e ∈ (b'.core c).dtlb) ∧ b'.strands = s.body.strands ∧ b'.mem = s.body.mem) ∧
      (s.body.io.einval[h] = o :: rest → s.body.io.writes = [] →
        ∃ b' : Body, exec (.tlbiAck (.engines h)) s = .next { s with body := b' } ∧ b'.io.einval[h] = rest ∧ b'.strands = s.body.strands ∧
          b'.mem = s.body.mem) ∧
      (Runs s t (.tsync t) b → 1 ≤ u.prv.toNat →
        (b.owesAck t = false → exec (.tsync t) s = .next (finish s b t u (b.seqPc t 3))) ∧
        (b.owesAck t = true → exec (.tsync t) s = .next (s.withStrand b t { u with act := .tsync }))) ∧
      ((s.body.strand t).run = .running → (s.body.strand t).act = .tsync → s.body.owesAck t = false →
        exec (.tsyncComplete t) s = .next (finish s s.body t { s.body.strand t with act := .ready } (s.body.seqPc t 3))))

/-- CLOCK of a line that the L2 holds in an allowed lockable way locks it, and of one that is locked, or of scratchpad, does nothing; CUNLOCK clears the lock, or frees a slot in
LE. Nothing but the L2's slot changes (R184 to R187). Cache maintenance at scope 0 acts at once and at scopes 1 and 2 waits for every covered cluster: CINV.RANGE leaves the line out of the cluster's L1s and its slot in
the L2 empty, or in LE where it was locked; CINV.ALL leaves the cluster's L2 and L1s empty; IFLUSH.RANGE takes the line out of the core's L1I, its store buffer being empty
(R100, R193). COVERED_CLUSTER_ACK does the same at one cluster and takes it off those awaited. -/
def Obligations.LineLocksAndMaintenance : Prop :=
  (∀ (s : State) (t : StrandId) (b b1 : Body) (ra : Reg) (p : Piece) (rest : List Piece) (k : Nat) (e : L2Line),
      let u := b.strand t
      let c := clusterOfStrand t
      let l := lineNo p.pa
      1 ≤ u.prv.toNat → b.translate t needLoad u.prv (u.reg ra).toNat 1 = .ok b1 (p :: rest) →
        (Runs s t (.clock t ra) b →
          (p.cls = .scratchpad → exec (.clock t ra) s = .next (finish s b1 t (b1.strand t) (b.seqPc t 3))) ∧
          (p.cls ≠ .scratchpad → (b1.cluster c).l2e = true → b1.lineCheck t p.pa false = none → (b1.cluster c).find l = some (k, e) →
            (e.locked = true → exec (.clock t ra) s = .next (finish s b1 t (b1.strand t) (b.seqPc t 3))) ∧
            (e.locked = false → k % 16 < 4 → (b1.strand t).waymaskL2.getLsbD (k % 16) = true →
              exec (.clock t ra) s = .next (finish s (b1.setL2 c k { e with locked := true }) t (b1.strand t) (b.seqPc t 3))))) ∧
        (Runs s t (.cunlock t ra) b → p.cls ≠ .scratchpad → (b1.cluster c).l2e = true → (b1.cluster c).find l = some (k, e) → e.locked = true →
          ∃ b' : Body, exec (.cunlock t ra) s = .next (finish s b' t (b1.strand t) (b.seqPc t 3)) ∧
            tGet (b'.cluster c).l2 k = (if e.st = .le then none else some { e with locked := false }) ∧
            (∀ j, j ≠ k → tGet (b'.cluster c).l2 j = tGet (b1.cluster c).l2 j) ∧ b'.strands = b1.strands ∧ b'.mem = b1.mem)) ∧
  (∀ (s : State) (t : StrandId) (b b1 : Body) (ra rb : Reg) (p : Piece) (rest : List Piece) (cl : ClusterId) (left : List ClusterId) (lo : Option Line)
      (k : MaintKind) (n : Nat),
      let u := b.strand t
      let c := clusterOfStrand t
      let l := lineNo p.pa
      let gone (x : Body) (y : ClusterId) : Prop := ∀ core, clusterOf core = y →
        (∀ e ∈ (x.core core).l1d, e.2.line ≠ l) ∧ (∀ e ∈ (x.core core).l1i, e.2.line ≠ l)
      (Runs s t (.cinvRange t 0 ra rb) b → 1 ≤ u.prv.toNat → ra ≠ rb → ra ≠ 0 → rb ≠ 0 → u.reg rb ≠ 0 → (u.reg rb).toNat ≤ 128 - (u.reg ra).toNat % 128 →
        b.translate t needLoad u.prv (u.reg ra).toNat 1 = .ok b1 (p :: rest) → p.cls ≠ .scratchpad →
          ∃ b' v, exec (.cinvRange t 0 ra rb) s = .next (finish s b' t v (b.seqPc t 3)) ∧ gone b' c ∧ v.reg rb = 0 ∧
            v.reg ra = u.reg ra + u.reg rb ∧ (∀ j e, (b1.cluster c).find l = some (j, e) → ∀ x, tGet (b'.cluster c).l2 j = some x → x.st = .le)) ∧
      (Runs s t (.cinvAll t 0) b → 2 ≤ u.prv.toNat →
        ∃ b' v, exec (.cinvAll t 0) s = .next (finish s b' t v (b.seqPc t 3)) ∧ (b'.cluster c).l2 = [] ∧
          (∀ core, clusterOf core = c → (b'.core core).l1d = [] ∧ (b'.core core).l1i = []) ∧ v.g = u.g ∧ v.k = u.k ∧ v.q = u.q ∧ v.status = u.status) ∧
      (Runs s t (.iflushRange t 0 ra rb) b → u.sb = [] → ra ≠ rb → ra ≠ 0 → rb ≠ 0 → u.reg rb ≠ 0 →
        (u.reg rb).toNat ≤ 128 - (u.reg ra).toNat % 128 → b.translate t needIrd u.prv ((u.reg ra).toNat % 2 ^ 48) 1 = .ok b1 (p :: rest) →
          ∃ b' v, exec (.iflushRange t 0 ra rb) s = .next (finish s b' t v (b.seqPc t 3)) ∧ (∀ e ∈ (b'.core (coreOf t)).l1i, e.2.line ≠ l) ∧
            (b'.core (coreOf t)).l1d = (b1.core (coreOf t)).l1d ∧ b'.clusters = b1.clusters ∧ b'.mem = b1.mem ∧ v.reg rb = 0) ∧
      ((s.body.strand t).run = .running → (s.body.strand t).act = .maint k left lo ra rb n → cl ∈ left → (∃ d ∈ left, d ≠ cl) →
        ∃ b', exec (.coveredClusterAck t cl) s = .next { s with body := b' } ∧
          (b'.strand t).act = .maint k (left.filter (· != cl)) lo ra rb n ∧ (b'.strand t).pc = (s.body.strand t).pc ∧
          (∀ l, lo = some l → k = .range → ∀ core, clusterOf core = cl →
            (∀ e ∈ (b'.core core).l1d, e.2.line ≠ l) ∧ (∀ e ∈ (b'.core core).l1i, e.2.line ≠ l))))

/-- The home's handling of a read request (R169): a line that no L2 holds is installed in E and its cluster becomes the owner; one that another cluster owns becomes
shared by the two, the owner keeping a clean copy; the request is done. The line's data is the coherent one. The home's handling of a write request by a cluster that holds the line (R169, R171, R192): it becomes the only holder, in E or M with the data it had. Without the line it is
installed in E, every other copy being gone from the directory. -/
def Obligations.DirectoryAccess : Prop :=
  (∀ (s : State) (r : Req) (k : Nat),
      let b := s.body
      let c := r.cluster
      let l := r.line
      let can := b.isDeparting l = false ∧ b.poisoned l = false ∧ b.cutOff (halfOfCluster c) (lineAddr l) = false ∧ (b.cluster c).l2e = true ∧
        b.readable l = true ∧ b.l2Has c l = none ∧ (b.l2Room r).1 = some k
      b.mem.reqs.find? (fun x => x.cluster = c && x.line = l && !x.write) = some r → can →
        (b.dirAt l = none → (b.l3Home l = none ∨ r.nol3 = true) → b.l3Has l = none →
          ∃ b' : Body, exec (.directoryRead c l) s = .next { s with body := b' } ∧ b'.dirAt l = some (.exclusive c) ∧ r ∉ b'.mem.reqs ∧
            ∃ e, tGet (b'.cluster c).l2 k = some e ∧ e.line = l ∧ e.st = .e ∧ e.data = b.memRead l r.slot ∧ b'.mem.cells = b.mem.cells) ∧
        (∀ o, o ≠ c → b.dirAt l = some (.exclusive o) →
          ∃ b' : Body, exec (.directoryRead c l) s = .next { s with body := b' } ∧ b'.dirAt l = some (.shared [o, c]) ∧ r ∉ b'.mem.reqs ∧
            ∃ e, tGet (b'.cluster c).l2 k = some e ∧ e.line = l ∧ e.st = .s ∧ e.data = (b.l2Room r).2.coherent l r.slot)) ∧
  (∀ (s : State) (r : Req) (k : Nat) (e : L2Line),
      let b := s.body
      let c := r.cluster
      let l := r.line
      b.mem.reqs.find? (fun x => x.cluster = c && x.line = l && x.write) = some r →
        b.isDeparting l = false → b.poisoned l = false → b.deferred r = false → b.cutOff (halfOfCluster c) (lineAddr l) = false →
        (b.cluster c).l2e = true → b.readable l = true →
        (b.l2Has c l = some (k, e) →
          ∃ b' : Body, exec (.directoryWriteRequest c l) s = .next { s with body := b' } ∧ b'.dirAt l = some (.exclusive c) ∧ r ∉ b'.mem.reqs ∧
            tGet (b'.cluster c).l2 k = some { e with st := if e.st = .m then .m else .e }) ∧
        (b.l2Has c l = none → (b.l2Room r).1 = some k → ((b.l2Room r).2.l3Home l = none ∨ r.nol3 = true) →
          ∃ b' e', exec (.directoryWriteRequest c l) s = .next { s with body := b' } ∧ b'.dirAt l = some (.exclusive c) ∧ r ∉ b'.mem.reqs ∧
            tGet (b'.cluster c).l2 k = some e' ∧ e'.line = l ∧ e'.st = .e))

/-- LINE_FILL installs in the L1 a line that the L2 holds and lets the parked strand go on (R173); RESERVATION_HOLD_EXPIRY ends a hold (R217); WRITE_BACK_ACCEPTED takes a departing
line into the home L3 that holds it, or into memory, where its bytes then read back, and WRITE_BACK_RESEND counts (R175, R176, R435); DMA_READ of an owned line leaves the owner a clean shared copy
(R169); COHERENCE_INVALIDATION takes the line out of an L2, a modified one departing for its home (R187). -/
def Obligations.CacheEvents : Prop :=
  ∀ (s : State) (t : StrandId) (c : ClusterId) (l : Line) (slot : Byte) (k : Nat) (e : L2Line) (d : Departing),
    let b := s.body
    (∀ sl nol3, (b.strand t).run = .running → (b.strand t).act = .parked l false sl nol3 → b.lineCheck t (lineAddr l) false = none →
      b.l2Has (clusterOfStrand t) l = some (k, e) → b.l1On t false = true →
        ∃ b' : Body, exec (.lineFill t) s = .next { s with body := b' } ∧ b'.strand t = { b.strand t with act := .ready } ∧
          ((∃ j x, l1Find (b'.core (coreOf t)).l1d l = some (j, x)) ∧ b'.mem = b.mem ∧
            ∀ y : ClusterId, ∃ o, b'.cluster y = { b.cluster y with l2Use := o })) ∧
    exec (.reservationHoldExpiry t) s = .next (s.withStrand b t { b.strand t with hold := false }) ∧
    (b.mem.departing.find? (·.line = l) = some d → d.fromL3.isSome = true ∨ b.l3Has l = none ∧ (b.l3Home l = none ∨ d.nol3 = true) → b.mirrored (lineAddr l) = none →
      ∃ b' : Body, exec (.writeBackAccepted l) s = .next { s with body := b' } ∧ d ∉ b'.mem.departing ∧
        b'.mem.cells = cellPuts unwritten b.mem.cells (lineAddr l) (leBytes 128 d.data.toNat) ∧ b'.clusters = b.clusters ∧ b'.strands = b.strands) ∧
    (∀ h i x, b.mem.departing.find? (·.line = l) = some d → d.fromL3 = none → b.mirrored (lineAddr l) = none → b.l3Has l = some (h, i, x) →
      ∃ b' : Body, exec (.writeBackAccepted l) s = .next { s with body := b' } ∧ d ∉ b'.mem.departing ∧ b'.mem.cells = b.mem.cells ∧
        tGet (b'.die h).l3 i = some { x with data := d.data, dirty := true, slot := d.slot } ∧ b'.clusters = b.clusters ∧ b'.strands = b.strands) ∧
    (b.mem.departing.find? (·.line = l) = some d →
      ∃ b' : Body, exec (.writeBackResend l) s = .next { s with body := b' } ∧ { d with resent := d.resent + 1 } ∈ b'.mem.departing ∧
        b'.mem.cells = b.mem.cells ∧ b'.clusters = b.clusters ∧ b'.strands = b.strands ∧ b'.cores = b.cores) ∧
    (b.isDeparting l = false → b.dirAt l = some (.exclusive c) → b.l2Has c l = some (k, e) →
      ∃ b' : Body, exec (.dmaRead l slot) s = .next { s with body := b' } ∧ b'.dirAt l = some (.shared [c]) ∧
        tGet (b'.cluster c).l2 k = some { e with st := .s } ∧ b'.strands = b.strands) ∧
    ((∃ w ∈ b.io.writes, lineNo w.pa = l) → b.heldBy c l = false → b.l2Has c l = some (k, e) → e.st = .m → e.locked = false →
      ∃ b' : Body, exec (.coherenceInvalidation c l) s = .next { s with body := b' } ∧ tGet (b'.cluster c).l2 k = none ∧
        ∃ x ∈ b'.mem.departing, x.line = e.line ∧ x.data = e.data)

/-! ## Packed decimal and floating point -/

/-- DADD, DSUB and DMOVE store their result over operand 1, and DCMP stores nothing; CC is N for a negative result, Z for a zero stored digit
string, V for overflow; a result that overflows with DOE at 1 raises DECIMAL_OVERFLOW afterwards. Operands are read whole before anything is stored, and
an invalid nibble takes DECIMAL_DATA with nothing changed but cached translations and the order of use of cache ways (R134 to R138). The stored form of a decimal result: its bytes are valid, carry the preferred sign, and read back as the number when it fits; a number too large
keeps its low digits and counts as overflow (R133, R136, R137). -/
def Obligations.PackedDecimal : Prop :=
  (∀ (s : State) (t : StrandId) (b b1 b2 b3 b4 b5 : Body) (rd ra : Reg) (l1 l2 : BitVec 4) (ps1 ps2 : List Piece) (o1 o2 : List Byte),
      let u := b.strand t
      let n1 := l1.toNat + 1
      let v1 := decValue o1
      let v2 := decValue o2
      let flag (p : Prop) [Decidable p] (k : Nat) : Nat := if p then k else 0
      let stored (i : Instr) (v : Int) : Prop :=
        let r := decStore n1 v
        let cc := BitVec.ofNat 4 (flag (v < 0) 8 + flag (v.natAbs % 10 ^ (2 * n1 - 1) = 0) 4 + flag (r.2 = true) 2)
        b4.bufferStore t (segsOf ps1) r.1 = some b5 →
          (¬(r.2 = true ∧ u.doe = true) → exec i s = .next (finish s b5 t ((b5.strand t).setCC cc) (b.seqPc t 6))) ∧
          (r.2 = true → u.doe = true → u.pend = false → exec i s = .next { s with
            body := (finish s b5 t ((b5.strand t).setCC cc) (b.seqPc t 6)).body.takeTrap t
              { cause := 0x0C, rule := .upK, info0 := u.reg rd } (b.seqPc t 6) true })
      b.translate t needLoad u.dataPrv (u.reg ra).toNat (l2.toNat + 1) = .ok b1 ps2 →
        (b1.translate t needStore u.dataPrv (u.reg rd).toNat n1 = .ok b2 ps1 → b2.storeCheck t (segsOf ps1) = none →
          b2.readSegs t (segsOf ps1) = .ok b3 o1 → b3.readSegs t (segsOf ps2) = .ok b4 o2 →
            (decCheck (u.reg rd) o1 1 = none → decCheck (u.reg ra) o2 2 = none →
              (Runs s t (.dadd t rd ra l1 l2) b → stored (.dadd t rd ra l1 l2) (v1 + v2)) ∧
              (Runs s t (.dsub t rd ra l1 l2) b → stored (.dsub t rd ra l1 l2) (v1 - v2))) ∧
            (∀ r, decCheck (u.reg rd) o1 1 = some r → u.pend = false → ∀ i ∈ [Instr.dadd t rd ra l1 l2, .dsub t rd ra l1 l2], Runs s t i b →
              exec i s = .next { s with body := b4.takeTrap t r u.pc })) ∧
        (b1.translate t needStore u.dataPrv (u.reg rd).toNat n1 = .ok b2 ps1 → b2.storeCheck t (segsOf ps1) = none →
          b2.readSegs t (segsOf ps2) = .ok b4 o2 → decCheck (u.reg ra) o2 2 = none →
            Runs s t (.dmove t rd ra l1 l2) b → stored (.dmove t rd ra l1 l2) v2) ∧
        (b1.translate t needLoad u.dataPrv (u.reg rd).toNat n1 = .ok b2 ps1 →
          b2.readSegs t (segsOf ps1) = .ok b3 o1 → b3.readSegs t (segsOf ps2) = .ok b4 o2 →
          decCheck (u.reg rd) o1 1 = none → decCheck (u.reg ra) o2 2 = none → Runs s t (.dcmp t rd ra l1 l2) b →
            exec (.dcmp t rd ra l1 l2) s = .next (finish s b4 t
              ((b4.strand t).setCC (BitVec.ofNat 4 (flag (v1 < v2) 8 + flag (v1 = v2) 4 + flag (v2 ≤ v1) 1))) (b.seqPc t 6)))) ∧
  (∀ (n : Nat) (v : Int), 1 ≤ n → n ≤ 16 →
      let r := decStore n v
      r.1.length = n ∧ badNibble r.1 = none ∧ (r.2 = true ↔ 10 ^ (2 * n - 1) ≤ v.natAbs) ∧
        (decValue r.1).natAbs = v.natAbs % 10 ^ (2 * n - 1) ∧ (v.natAbs < 10 ^ (2 * n - 1) → decValue r.1 = v) ∧
        (r.1.getLast?.map fun x => x.toNat % 16) = some (if v < 0 then 13 else 12))

/-- The floating instructions with a result in an f register, at TL 0: the operation of R148, R149, R158 and R161 on the operands' values, under the rounding
attribute of the instruction or of CS.FPSTAT, with its flags. A reserved RND is illegal, and so is every floating instruction at TL 1 or 2 (R49, R149). -/
def Obligations.FloatingResults : Prop :=
  ∀ (s : State) (t : StrandId) (b : Body) (f : FFmt) (form : FForm) (cv : FConv) (rnd : BitVec 3) (flag : Bool) (fd fa fb fc : Reg),
    let u := b.strand t
    let len := match form with | .short => 3 | .long _ => 6
    let formRm := match form with | .short => (u.fpstat.extractLsb' 0 3).toNat | .long r => u.rm r
    let ok (r : BitVec 3) : Prop := r.toNat ≤ 4 ∨ r = 7
    let formOk := match form with | .short => True | .long r => ok r
    let rm := u.rm rnd
    let v (r : Reg) : FVal := fpDecode f (u.freg r)
    let src := match cv with | .sd => FFmt.s | .sq => .s | .ds => .d | .dq => .d | .qs => .q | .qd => .q
    let dst := match cv with | .sd => FFmt.d | .sq => .q | .ds => .s | .dq => .q | .qs => .s | .qd => .d
    let sign (r : Reg) : Bool := decide (2 ^ (fpWidth f - 1) ≤ (u.freg r).toNat % 2 ^ fpWidth f)
    FloatDone s t b (.fadd t f form fd fa fb) len formOk fd (fpAddVal f formRm (v fa) (v fb)) ∧
    FloatDone s t b (.fsub t f form fd fa fb) len formOk fd (fpAddVal f formRm (v fa) (fpNegVal (v fb))) ∧
    FloatDone s t b (.fmul t f form fd fa fb) len formOk fd (fpMulVal f formRm (v fa) (v fb)) ∧
    FloatDone s t b (.fmadd t f rnd fd fa fb fc) 6 (ok rnd) fd (fpFmaVal f rm (v fa) (v fb) (v fc)) ∧
    FloatDone s t b (.fmsub t f rnd fd fa fb fc) 6 (ok rnd) fd (fpFmaVal f rm (v fa) (v fb) (fpNegVal (v fc))) ∧
    FloatDone s t b (.fnmadd t f rnd fd fa fb fc) 6 (ok rnd) fd (fpNegRes f (fpFmaVal f rm (v fa) (v fb) (v fc))) ∧
    FloatDone s t b (.fnmsub t f rnd fd fa fb fc) 6 (ok rnd) fd (fpNegRes f (fpFmaVal f rm (v fa) (v fb) (fpNegVal (v fc)))) ∧
    FloatDone s t b (.fmin t f fd fa fb) 6 True fd (fpMinMax f false false (u.freg fa) (u.freg fb)) ∧
    FloatDone s t b (.fmax t f fd fa fb) 6 True fd (fpMinMax f false true (u.freg fa) (u.freg fb)) ∧
    FloatDone s t b (.fminnum t f fd fa fb) 6 True fd (fpMinMax f true false (u.freg fa) (u.freg fb)) ∧
    FloatDone s t b (.fmaxnum t f fd fa fb) 6 True fd (fpMinMax f true true (u.freg fa) (u.freg fb)) ∧
    FloatDone s t b (.fneg t f fd fa) 6 True fd (fpSigned f (!sign fa) ((u.freg fa).toNat % 2 ^ (fpWidth f - 1)), 0) ∧
    FloatDone s t b (.fabs t f fd fa) 6 True fd (fpSigned f false ((u.freg fa).toNat % 2 ^ (fpWidth f - 1)), 0) ∧
    FloatDone s t b (.fcpysgn t f fd fa fb) 6 True fd (fpSigned f (sign fb) ((u.freg fa).toNat % 2 ^ (fpWidth f - 1)), 0) ∧
    FloatDone s t b (.fcvt t cv rnd fd fa) 6 (ok rnd) fd (fpConvert src dst rm (fpDecode src (u.freg fa))) ∧
    FloatDone s t b (.fcvtfi t f flag rnd fd fa) 6 (ok rnd) fd
      (fpRoundInt f rm false (if flag then ((u.reg fa).toNat : Int) else (u.reg fa).toInt) 0) ∧
    FloatDone s t b (.frint t f rnd flag fd fa) 6 (ok rnd) fd (fpRint f rm flag (v fa)) ∧
    (∀ i ∈ [Instr.fadd t f (.long rnd) fd fa fb, .fmadd t f rnd fd fa fb fc, .fcvt t cv rnd fd fa, .fcvtif t f flag rnd fd fa, .frint t f rnd flag fd fa],
      Runs s t i b → ¬ok rnd → u.pend = false → exec i s = .next { s with
        body := b.takeTrap t { cause := 0x01, rule := .upK, info0 := insnBytes i } u.pc }) ∧
    (∀ i ∈ [Instr.fadd t f .short fd fa fb, .fneg t f fd fa, .fmov t fd fa, .fcmp t f flag fa fb], Runs s t i b → u.tl ≠ 0 → u.pend = false →
      exec i s = .next { s with body := b.takeTrap t { cause := 0x01, rule := .upK, info0 := insnBytes i } u.pc })

/-- FCVTIF, FCMP, FMOV, FMVG, FLD, FST and FPSYNC: their general register, CC, f register or stored bytes (R148, R149, R157, R161, R164). -/
def Obligations.FloatingMovesAndCompares : Prop :=
  ∀ (s : State) (t : StrandId) (b b' : Body) (f : FFmt) (rnd : BitVec 3) (flag : Bool) (fd fa fb base : Reg) (disp : BitVec 24)
    (bytes : List Byte) (gs : List Seg),
    let u := b.strand t
    let v (r : Reg) : FVal := fpDecode f (u.freg r)
    let ea := (u.reg base + disp.signExtend 64).toNat
    u.tl = 0 →
    (Runs s t (.fcvtif t f flag rnd fd fa) b → (rnd.toNat ≤ 4 ∨ rnd = 7) →
      let r := fpToInt flag (u.rm rnd) (v fa)
      exec (.fcvtif t f flag rnd fd fa) s = .next (finish s b t ((u.setReg fd r.1).raise (.fcvtif t f flag rnd fd fa) r.2) (b.seqPc t 6))) ∧
    (Runs s t (.fcmp t f flag fa fb) b →
      let r := fpCmpVal flag (v fa) (v fb)
      exec (.fcmp t f flag fa fb) s = .next (finish s b t ((u.setCC r.1).raise (.fcmp t f flag fa fb) r.2) (b.seqPc t (lenOf (.fcmp t f flag fa fb))))) ∧
    (Runs s t (.fmov t fd fa) b → exec (.fmov t fd fa) s = .next (finish s b t (u.setFreg fd (u.freg fa)) (b.seqPc t 3))) ∧
    (Runs s t (.fmvg t true fd fa 0) b →
      exec (.fmvg t true fd fa 0) s = .next (finish s b t (u.setReg fd ((u.freg fa).extractLsb' 0 64)) (b.seqPc t 3))) ∧
    (Runs s t (.fmvg t true fd fa 1) b →
      exec (.fmvg t true fd fa 1) s = .next (finish s b t (u.setReg fd ((u.freg fa).extractLsb' 64 64)) (b.seqPc t 3))) ∧
    (Runs s t (.fmvg t false fd fa 0) b →
      exec (.fmvg t false fd fa 0) s = .next (finish s b t (u.setFreg fd ((u.reg fa).setWidth 128)) (b.seqPc t 3))) ∧
    (Runs s t (.fmvg t false fd fa 1) b →
      exec (.fmvg t false fd fa 1) s = .next (finish s b t (u.setFreg fd (u.reg fa ++ (u.freg fd).extractLsb' 0 64)) (b.seqPc t 3))) ∧
    (Runs s t (.fld t f fd base disp) b → b.loadVa t needLoad u.dataPrv ea (fpWidth f / 8) = .ok b' bytes →
      exec (.fld t f fd base disp) s = .next (finish s b' t ((b'.strand t).setFreg fd (BitVec.ofNat 128 (leNat bytes))) (b.seqPc t 6))) ∧
    (∀ b1, Runs s t (.fst t f fd base disp) b → b.storeVa t needStore u.dataPrv ea (fpWidth f / 8) = .ok b1 gs →
      b1.bufferStore t (if f = .q then splitSegs 8 gs else gs) (leBytes (fpWidth f / 8) (u.freg fd).toNat) = some b' →
        exec (.fst t f fd base disp) s = .next (finish s b' t (b'.strand t) (b.seqPc t 6))) ∧
    (Runs s t (.fpsync t) b true → exec (.fpsync t) s = .next (finish s b t u (b.seqPc t 3)))

/-- The flags of an operation accumulate in CS.FPSTAT; the first enabled one makes an exception pending, with the instruction's address, its kind word and
its privilege, and while one is pending no other is recorded (R152, R162). The step sequences of R159 on distinct registers at TL 0: START, the required number of STEPs (7, 14 or 29 for a division, 13, 28 or 58 for a
square root) and END leave the quotient or the root in fd, with the flags of the operation; a wrong number of STEPs ends in the default NaN with NV. Each
instruction completes, and registers that are not distinct make it illegal. -/
def Obligations.FloatingStepsAndPendingException : Prop :=
  (∀ (u : Strand) (i : Instr) (flags : BitVec 5),
      let u' := u.raise i flags
      let enabled := flags &&& u.fpstat.extractLsb' 16 5
      u'.fpstat.extractLsb' 8 5 = (u.fpstat.extractLsb' 8 5 ||| flags) ∧
      u'.fpstat.extractLsb' 0 8 = u.fpstat.extractLsb' 0 8 ∧ u'.fpstat.extractLsb' 16 8 = u.fpstat.extractLsb' 16 8 ∧
      (u'.pend = true ↔ u.pend = true ∨ enabled ≠ 0) ∧
      (u.pend = false → enabled ≠ 0 → u'.fpAddr = u.pc ∧ u'.fpPrv = u.prv ∧ u'.fpKind.extractLsb' 0 5 = enabled ∧ u'.fpKind.extractLsb' 8 5 = flags) ∧
      (u.pend = true ∨ enabled = 0 → u' = { u with fpstat := u'.fpstat }) ∧
      u' = { u with fpstat := u'.fpstat, fpAddr := u'.fpAddr, fpKind := u'.fpKind, fpPrv := u'.fpPrv, fpCount := u'.fpCount }) ∧
  (∀ (s : State) (t : StrandId) (b : Body) (f : FFmt) (rm ctr : Nat) (fd fa fb : Reg) (x d : BitVec 128),
      let u := b.strand t
      let steps (op : Nat) (sqrt : Bool) (d : BitVec 128) : Nat → BitVec 128 × BitVec 128 → BitVec 128 × BitVec 128 :=
        fun n p => (List.range n).foldl (fun p k => fstep op f sqrt k p.1 p.2 d) p
      let start (op : Nat) (d : BitVec 128) := fstart op f x d
      let nDiv := match f with | .s => 7 | .d => 14 | .q => 29
      let nSqrt := match f with | .s => 13 | .d => 28 | .q => 58
      let e1 := steps 1 false d nDiv (start 1 d)
      let e2 := steps 2 true 0 nSqrt (start 2 0)
      fend 1 f false rm ctr e1.1 e1.2 d = fpDivVal f rm (fpDecode f x) (fpDecode f d) ∧
      fend 2 f true rm ctr e2.1 e2.2 0 = fpSqrtVal f rm (fpDecode f x) ∧
      (∀ n, n < nDiv → fend 1 f false rm ctr (steps 1 false d n (start 1 d)).1 (steps 1 false d n (start 1 d)).2 d = (fpDnan f, 0x10)) ∧
      (∀ n, n < nSqrt → fend 2 f true rm ctr (steps 2 true 0 n (start 2 0)).1 (steps 2 true 0 n (start 2 0)).2 0 = (fpDnan f, 0x10)) ∧
      (let done (i : Instr) (distinct : Prop) (r : BitVec 128 × BitVec 128) (fl : BitVec 5) : Prop := Runs s t i b →
        (u.tl = 0 → distinct → exec i s =
          .next (finish s { b with freeCtr := b.freeCtr + 2 } t (((u.setFreg fa r.2).setFreg fd r.1).raise i fl) (b.seqPc t (lenOf i)))) ∧
        (¬distinct → u.pend = false → exec i s = .next { s with
          body := b.takeTrap t { cause := 0x01, rule := .upK, info0 := insnBytes i } u.pc })
       let d3 := fd ≠ fa ∧ fd ≠ fb ∧ fa ≠ fb
       let q1 := fend 1 f false (u.fpstat.extractLsb' 0 3).toNat b.freeCtr (u.freg fd) (u.freg fa) (u.freg fb)
       let q2 := fend 2 f true (u.fpstat.extractLsb' 0 3).toNat b.freeCtr (u.freg fd) (u.freg fa) 0
       done (.fdstart t f fd fa fb) d3 (fstart 1 f (u.freg fa) (u.freg fb)) 0 ∧
       done (.fdstep t f fd fa fb) d3 (fstep 1 f false b.freeCtr (u.freg fd) (u.freg fa) (u.freg fb)) 0 ∧
       done (.fdend t f fd fa fb) d3 (q1.1, 0) q1.2 ∧
       done (.fsqstart t f fd fa) (fd ≠ fa) (fstart 2 f (u.freg fa) 0) 0 ∧
       done (.fsqstep t f fd fa) (fd ≠ fa) (fstep 2 f true b.freeCtr (u.freg fd) (u.freg fa) 0) 0 ∧
       done (.fsqend t f fd fa) (fd ≠ fa) (q2.1, 0) q2.2))

/-- A result that the format represents is delivered exactly, without a flag, under every rounding attribute: sum, product, quotient and square
root of finite operands (R150, R151). -/
def Obligations.ExactFloatingResults : Prop :=
  ∀ (f : FFmt) (rm : Nat) (x y z : BitVec 128),
    let a := fpDecode f x
    let b := fpDecode f y
    let c := fpDecode f z
    rm ≤ 4 → a.isFin = true → b.isFin = true → c.isFin = true → z.toNat < 2 ^ fpWidth f → c.num ≠ 0 →
      (c.num = a.num + b.num → fpAddVal f rm a b = (z, 0)) ∧
      (c.num = a.num * b.num → fpMulVal f rm a b = (z, 0)) ∧
      (b.num ≠ 0 → c.num * b.num = a.num → fpDivVal f rm a b = (z, 0)) ∧
      (0 < c.num → a.num = c.num * c.num → fpSqrtVal f rm a = (z, 0))

/-! ## I/O space and slices -/

/-- IOLD, IOST and IODB check the window and then the tag of the slice that their bank register names, with WINDOW_IO and OWNER as the traps; an access that passes is posted, or, for
IOLD, waited for, with the strand's partition and ASID, the slice's generation and the expiry that the partition's timeout gives; an IODB that finds
stores buffered waits, and then posts the doorbell with the slice and the tag that it has been checked with. With both bundles down an IOLD of a
slice of the other half completes with all ones and load cause 3, and an IOST or IODB with a failure of kind 3 (R208). SETIOB at K or S writes the bank register with rd plus its
operand, is illegal above 8,191 and privileged at U (R101 to R106, R117, R207). -/
def Obligations.IoInstructions : Prop :=
  ∀ (s : State) (t : StrandId) (b : Body) (wd : Width) (rd : Reg) (iob : BitVec 2) (addr : BitVec 24),
    let u := b.strand t
    let sl := u.iobSlice iob
    let x := b.slice sl
    let n := match wd with | .d => 8 | .w => 4
    let a := addr.toNat
    let within (lo hi : Nat) : Prop := lo ≤ a ∧ a < hi
    let storeWin := within 0x1000 0x1028 ∨ within 0x2000 0x2028 ∨ within 0x10000 0x20000
    let loadWin := storeWin ∨ within 0x3000 0x3018
    let owned := x.st ≠ .free ∧ x.part = u.part ∧ x.asid = u.asid
    let expiry := (b.ctl.tod[halfOfStrand t]).toNat + (b.part u.part).iotmo.toNat * 1000000
    let store (y : Width) : Posted :=
      { strand := t, slice := sl, off := addr, wd := y, data := u.reg rd, part := u.part, asid := u.asid, gen := x.gen, expiry := expiry }
    let posted (y : Width) : Body := { b with io := { b.io with posted := b.io.posted ++ [store y] } }
    let bell : IoBell := { slice := sl, off := addr, data := u.reg rd, part := u.part, asid := u.asid, gen := x.gen }
    let failure (loadCause : BitVec 4) (kind : Byte) : FailRecord :=
      { slice := BitVec.ofNat 13 sl.val, off := addr, part := u.part, asid := u.asid, loadCause := loadCause, kind := kind }
    let load : IoLoad := { wd := wd, rd := rd, slice := sl, off := addr, part := u.part, asid := u.asid, gen := x.gen, expiry := expiry }
    let trap (cause : Byte) : TrapReq :=
      { cause := cause, rule := .upK, info0 := iob.setWidth 64, info1 := BitVec.ofNat 64 sl.val, info2 := addr.setWidth 64 }
    let refused (i : Instr) (cause : Byte) : Prop := Runs s t i b → u.pend = false →
      exec i s = .next { s with body := b.takeTrap t (trap cause) u.pc }
    (Runs s t (.iost t wd rd iob addr) b → a % n = 0 → storeWin → owned → b.ioCut t sl u.part = false →
      exec (.iost t wd rd iob addr) s = .next (finish s (posted wd) t u (b.seqPc t 6))) ∧
    (Runs s t (.iodb t rd iob addr) b → a = 0 → owned → b.ioCut t sl u.part = false →
      (u.sb = [] → exec (.iodb t rd iob addr) s = .next (finish s (posted .d) t u (b.seqPc t 6))) ∧
      (u.sb ≠ [] → exec (.iodb t rd iob addr) s = .next (s.withStrand b t { u with act := .iodb bell }))) ∧
    (∀ l : IoBell, let v := s.body.strand t
      v.run = .running → v.act = .iodb l → v.sb = [] → s.body.ioCut t l.slice l.part = false →
        let p : Posted :=
          { strand := t, slice := l.slice, off := l.off, wd := .d, data := l.data, part := l.part, asid := l.asid, gen := l.gen
            expiry := (s.body.ctl.tod[halfOfStrand t]).toNat + (s.body.part l.part).iotmo.toNat * 1000000 }
        exec (.iodb t rd iob addr) s = .next (finish s { s.body with io := { s.body.io with posted := s.body.io.posted ++ [p] } } t
          { v with act := .ready } (s.body.seqPc t 6))) ∧
    (b.ioCut t sl u.part = true → owned → u.fail = none →
      (Runs s t (.iold t wd rd iob addr) b → a % n = 0 → loadWin → exec (.iold t wd rd iob addr) s = .next
        (finish s b t (({ u with fail := some (failure 3 4) }).setReg rd (match wd with | .d => BitVec.allOnes 64 | .w => 0xFFFFFFFF)) (b.seqPc t 6))) ∧
      (Runs s t (.iost t wd rd iob addr) b → a % n = 0 → storeWin →
        exec (.iost t wd rd iob addr) s = .next (finish s b t { u with fail := some (failure 0 3) } (b.seqPc t 6))) ∧
      (Runs s t (.iodb t rd iob addr) b → a = 0 → u.sb = [] →
        exec (.iodb t rd iob addr) s = .next (finish s b t { u with fail := some (failure 0 3) } (b.seqPc t 6)))) ∧
    (Runs s t (.iold t wd rd iob addr) b → a % n = 0 → loadWin → owned → b.ioCut t sl u.part = false →
      exec (.iold t wd rd iob addr) s = .next (s.withStrand b t { u with act := .iold load })) ∧
    (¬storeWin ∨ a % n ≠ 0 → refused (.iost t wd rd iob addr) 0x14) ∧ (¬loadWin ∨ a % n ≠ 0 → refused (.iold t wd rd iob addr) 0x14) ∧
    (a ≠ 0 → refused (.iodb t rd iob addr) 0x14) ∧
    (a % n = 0 → storeWin → ¬owned → refused (.iost t wd rd iob addr) 0x10) ∧ (a % n = 0 → loadWin → ¬owned → refused (.iold t wd rd iob addr) 0x10) ∧
    (a = 0 → ¬owned → refused (.iodb t rd iob addr) 0x10) ∧
    (Runs s t (.setiob t rd iob addr) b →
      let v := (u.reg rd).toNat + addr.toNat
      (v ≤ 8191 → 1 ≤ u.prv.toNat → exec (.setiob t rd iob addr) s =
        .next (finish s b t { u with iob := u.iob.setIfInBounds iob.toNat (BitVec.ofNat 13 v) } (b.seqPc t 6))) ∧
      (v ≤ 8191 → u.prv = 0 → u.pend = false → exec (.setiob t rd iob addr) s = .next { s with
        body := b.takeTrap t { cause := 0x02, rule := .next, info0 := insnBytes (.setiob t rd iob addr) } u.pc }) ∧
      (8191 < v → u.pend = false → exec (.setiob t rd iob addr) s = .next { s with
        body := b.takeTrap t { cause := 0x01, rule := .upK, info0 := insnBytes (.setiob t rd iob addr) } u.pc }))

/-- IOLD_REPLY completes a waiting IOLD with the register's value, or its half, when the slice is still bound as the load's tag says, and with all ones and
load cause 2 in the failure record when it is not; IOLD_TIMEOUT completes it with all ones and load cause 1 (R104, R205, R209). IO_STORE_TIMEOUT: a posted store whose timeout ends leaves the queue and fills the strand's failure record with kind 1 (R208, R209). -/
def Obligations.IoRepliesAndTimeouts : Prop :=
  (∀ (s : State) (t : StrandId) (l : IoLoad),
      let b := s.body
      let u := b.strand t
      let x := b.slice l.slice
      let off := l.off.toNat
      let full := b.sliceRead l.slice (off / 8 * 8)
      let v : W := match l.wd with
        | .d => full
        | .w => if off % 8 < 4 then (full.extractLsb' 0 32).setWidth 64 else (full.extractLsb' 32 32).setWidth 64
      let ones : W := match l.wd with | .d => BitVec.allOnes 64 | .w => 0xFFFFFFFF
      let owned := x.st ≠ .free ∧ x.part = l.part ∧ x.asid = l.asid ∧ x.gen = l.gen
      let record (cause : BitVec 4) : FailRecord :=
        { slice := BitVec.ofNat 13 l.slice.val, off := l.off, part := l.part, asid := l.asid, loadCause := cause, kind := 4 }
      u.run = .running → u.act = .iold l → u.fail = none → (l.wd = .d → off % 8 = 0) → off % 4 = 0 →
        ((∀ p ∈ b.io.posted, ¬(p.strand = t ∧ p.slice = l.slice)) → (b.ctl.tod[halfOfStrand t]).toNat ≤ l.expiry →
          (owned → exec (.ioldReply t) s = .next (finish s b t { (u.setReg l.rd v) with act := .ready } (b.seqPc t 6))) ∧
          (¬owned → exec (.ioldReply t) s =
            .next (finish s b t { (({ u with fail := some (record 2) }).setReg l.rd ones) with act := .ready } (b.seqPc t 6)))) ∧
        (∃ b' : Body, b' = { b with ctl := { b.ctl with tod := b'.ctl.tod } } ∧
          exec (.ioldTimeout t) s =
            .next (finish s b' t { (({ u with fail := some (record 1) }).setReg l.rd ones) with act := .ready } (b.seqPc t 6)))) ∧
  (∀ (s : State) (t : StrandId) (sl : SliceId) (p : Posted),
      s.body.io.posted = [p] → p.strand = t → p.slice = sl → (s.body.strand t).fail = none →
        ∃ b' : Body, exec (.ioStoreTimeout t sl) s = .next { s with body := b' } ∧ b'.io.posted = [] ∧
          b'.strand t = { s.body.strand t with
            fail := some { slice := BitVec.ofNat 13 sl.val, off := p.off, part := p.part, asid := p.asid, loadCause := 0, kind := 1 } } ∧
          b'.io.slices = s.body.io.slices ∧ b'.mem = s.body.mem)

/-- A posted store that arrives in time at a slice still bound as its tag says changes the register it names; otherwise it changes nothing but the strand's failure record. Stated for the
eight commands of slice registers, on the strand's oldest posted store (R103, R204, R208, R209, R349 to R355, R370, R373). -/
def Obligations.SliceRegisterStores : Prop :=
  ∀ (s : State) (t : StrandId) (sl : SliceId) (p : Posted),
    let b := s.body
    let x := b.slice sl
    let v := p.data
    let off := p.off.toNat
    let lg : BitVec 5 := v.extractLsb' 0 5
    let becomes (i : Instr) (y : Slice) : Prop :=
      ∃ b' : Body, exec i s = .next { s with body := b' } ∧ b'.slice sl = y ∧ b'.io.posted = b.io.posted.erase p ∧ b'.strands = b.strands ∧
        b'.mem = b.mem ∧ (∀ n, n ≠ sl → b'.slice n = b.slice n)
    b.io.posted.find? (fun q => q.strand = t && q.slice = sl) = some p → (b.ctl.tod[halfOfStrand t]).toNat ≤ p.expiry → p.wd = .d →
      (x.st ≠ .free → x.part = p.part → x.asid = p.asid → x.gen = p.gen →
        (off = 0 → v.extractLsb' 32 16 = 0 → x.sq.en = true →
          let tail : BitVec 32 := v.setWidth 32
          ((tail - x.sq.head).toNat ≤ 2 ^ x.sq.log2n.toNat → (x.sq.tail - x.sq.head).toNat ≤ (tail - x.sq.head).toNat →
            becomes (.doorbell t sl) { x with sq := { x.sq with tail := tail } }) ∧
          (2 ^ x.sq.log2n.toNat < (tail - x.sq.head).toNat → x.sq.fault = false →
            becomes (.doorbell t sl) { x with sq := { x.sq with fault := true, reason := 0xF0, index := tail } })) ∧
        (off = 0x1000 → x.sq.en = false → becomes (.ioStoreArrival t sl) { x with sq := { x.sq with base := v &&& ~~~0xFFF#64 } }) ∧
        (off = 0x1008 → x.kind ≠ 4 → x.sq.en = false → v.getLsbD 8 = true → 4 ≤ lg.toNat → lg.toNat ≤ 16 →
          becomes (.writeSqcfg t sl) { x with sq := { x.sq with log2n := lg, en := true, head := 0, tail := 0 } }) ∧
        (off = 0x2008 → x.cq.en = false → v.getLsbD 8 = true → 4 ≤ lg.toNat → lg.toNat ≤ 16 →
          becomes (.writeCqcfg t sl)
            { x with
              cq := { x.cq with log2n := lg, en := true, head := 0, tail := 0 }
              delay := v.extractLsb' 24 10
              thresh := v.extractLsb' 16 8
              arm := v.getLsbD 9
              cqNext := 0
              reserved := []
              stamps := [] }) ∧
        (off = 0x2010 → (v.setWidth 32 - x.cq.head).toNat ≤ (x.cq.tail - x.cq.head).toNat →
          ∃ st, becomes (.writeCqhead t sl) { x with cq := { x.cq with head := v.setWidth 32 }, stamps := st }) ∧
        (off = 0x2010 → (x.cq.tail - x.cq.head).toNat < (v.setWidth 32 - x.cq.head).toNat → x.cq.fault = false →
          becomes (.writeCqhead t sl) { x with cq := { x.cq with fault := true, reason := 0xF3, index := v.setWidth 32 } }) ∧
        (off = 0x1020 → v.getLsbD 0 = true → becomes (.clearFault t sl)
          { x with
            sq := { x.sq with fault := false, stopped := false }
            qps := x.qps.map fun e => (e.1, { e.2 with sqstop := false, rqstop := false }) }) ∧
        (off = 0x2020 → v.getLsbD 0 = true → becomes (.clearFault t sl) { x with cq := { x.cq with fault := false, stopped := false } }) ∧
        (∀ q, q < 256 → off = 0x10000 + q * 0x40 → x.kind = 4 → (b.qp sl q).en = true → v.getLsbD 2 = true →
          let y : Qp := { (b.qp sl q) with rqpn := v.extractLsb' 24 24, addrix := v.extractLsb' 8 12, typ := v.extractLsb' 0 2 }
          becomes (.writeQpcfg t sl) { x with qps := tPut x.qps q y }) ∧
        (∀ m, m < 64 → off = 0x18010 + m * 0x20 → x.kind = 4 →
          let r := (tGet x.mrs m).getD {}
          let y : Mr := { r with
            rwrite := v.getLsbD 2
            rread := v.getLsbD 1
            en := v.getLsbD 0
            seq := if r.en = false ∧ v.getLsbD 0 = true then r.seq + 1 else r.seq
            used := r.used || (!r.en && v.getLsbD 0) }
          becomes (.writeMrctl t sl) { x with mrs := tPut x.mrs m y })) ∧
      (¬(x.st ≠ .free ∧ x.part = p.part ∧ x.asid = p.asid ∧ x.gen = p.gen) → (b.strand t).fail = none → off ≠ 0 →
        exec (.ioStoreArrival t sl) s = .next (s.withStrand { b with io := { b.io with posted := b.io.posted.erase p } } t
          { b.strand t with fail := some { slice := BitVec.ofNat 13 p.slice.val, off := p.off, part := p.part, asid := p.asid, loadCause := 0, kind := 2 } }))

/-- DMA_WRITE performs an engine's write at its home, once no hold defers it (R217), when the slice's generation is still that of the write: the bytes read back, bytes of other lines are as before, and no L2 is listed for the line;
with another generation it is dropped and counted, and STALE_WRITE_EXPIRY drops one that has been in flight for 100 ms (R169, R347). HELD_RECORD_WRITE gives the oldest waiting record the next completion counter when the ring is enabled, has not stopped and has room: its entry is written at the place of R352 with the phase bit of
R354. A record of a past generation is dropped and counted (R347, R354, R356). A generation never becomes 0, and an advance always changes it (R347). -/
def Obligations.EngineWritesAndRecords : Prop :=
  (∀ (s : State) (w : TagWrite) (rest : List TagWrite),
      let b := s.body
      let x := b.slice w.slice
      let l := lineNo w.pa
      b.io.writes = w :: rest → w.done = none →
        (x.gen = w.gen → b.lineHeld l = false → b.isDeparting l = false → b.mirrored (lineAddr l) = none → w.pa < 2 ^ 52 → w.pa % 128 + w.bytes.length ≤ 128 → Memory.wf unwritten b.mem.cells = true →
          ∃ b' : Body, exec .dmaWrite s = .next { s with body := b' } ∧ b'.io.writes = rest ∧ b'.dirAt l = none ∧
            (∀ i, i < w.bytes.length → cellGet unwritten b'.mem.cells (w.pa + i) = w.bytes.getD i 0) ∧
            (∀ a, a / 128 ≠ w.pa / 128 → cellGet unwritten b'.mem.cells a = cellGet unwritten b.mem.cells a) ∧
            b'.io.slices = b.io.slices) ∧
        (x.gen ≠ w.gen → b.lineHeld l = false →
          let slices := tPut b.io.slices w.slice.val { x with dropped := sat32 x.dropped }
          exec .dmaWrite s = .next { s with body := { b with io := { b.io with writes := rest, slices := slices } } }) ∧
        (∃ b' : Body, exec .staleWriteExpiry s = .next { s with body := b' } ∧ b'.io.writes = rest ∧ (b'.slice w.slice).dropped = sat32 x.dropped ∧
          b'.mem = b.mem ∧ b'.strands = b.strands)) ∧
  (∀ (s : State) (sl : SliceId) (r : HeldRec) (rest : List HeldRec) (b1 : Body) (ps : List Piece),
      let b := s.body
      let x := b.slice sl
      let i := x.cqNext
      let size := 2 ^ x.cq.log2n.toNat
      let o := b.ownerOf sl x.gen (b.servingHub sl x.part)
      b.serving = true → x.waiting = r :: rest →
        (r.src = .job → r.gen = some x.gen → r.ctr = none → x.cq.en = true → x.cq.stopped = false → (i - x.cq.head).toNat < size →
          b.engMap o needStore ((x.cq.base.toNat + i.toNat % size * 32) % 2 ^ 64) 32 = (b1, .ok ps) →
          (∀ g ∈ segsOf ps, b1.cutOff o.half g.pa = false) →
            ∃ b' : Body, exec (.heldRecordWrite sl) s = .next { s with body := b' } ∧
              (b'.slice sl).cqNext = i + 1 ∧ (b'.slice sl).reserved = x.reserved ++ [i] ∧ (b'.slice sl).waiting = rest ∧
              (b'.slice sl).cq = x.cq ∧
              b'.io.writes = b1.io.writes ++ tagWrites o (b1.tod o.half) (some (i, r)) (segsOf ps)
                (withPhase r.bytes (decide (i.toNat / size % 2 = 0)))) ∧
        (r.src = .job → (∃ g, r.gen = some g ∧ g ≠ x.gen) →
          ∃ b' : Body, exec (.heldRecordWrite sl) s = .next { s with body := b' } ∧ (b'.slice sl).waiting = rest ∧
            (b'.slice sl).dropped = sat32 x.dropped ∧ b'.io.writes = b.io.writes ∧ b'.mem = b.mem)) ∧
  (∀ g : BitVec 16, nextGen g ≠ 0 ∧ nextGen g ≠ g ∧ (g ≠ 0xFFFF → nextGen g = g + 1))

/-! ## Compression, cryptography and keys -/

/-- The job of a slice's ring that an engine runs does its work when its command is that of its operation: its outcome is decided, every other job and every strand stays as it is. A command of another operation
has no occasion and changes nothing (R375 to R397; the second clause is the model's choice of log entry 4). KEY_DESTROY waits for running jobs that use its key (R396). When its areas, its key and its state record can be had and its operands are those of the operation, the job does what the operation is: its output, its new key's handle or its verdict, with the counts of R379; a WRITE group of a channel program is compressed into its staging
memory (R311, R381 to R397). A job that names a key of another partition or another address space ends with KEY_DENIED, detail 2, and the key table keeps its contents: KEY_WRAP, KEY_DESTROY and
KEY_PUBLIC with direct areas (R395). With the owner's key, KEY_DESTROY leaves no live entry under the handle (R396). -/
def Obligations.JobsAreDecidedByTheirEngine : Prop :=
  (∀ (s : State) (e : EngineRef) (j : Job),
      let b := s.body
      let ops : List (Instr × Nat) :=
        [(.compress e, 0x01), (.decompress e, 0x02), (.continueJob e, 0x03), (.aesGcmEncrypt e, 0x10), (.aesGcmDecrypt e, 0x11), (.aesXtsEncrypt e, 0x12),
         (.aesXtsDecrypt e, 0x13), (.aesCbcEncrypt e, 0x14), (.aesCbcDecrypt e, 0x15), (.chachaEncrypt e, 0x16), (.chachaDecrypt e, 0x17), (.hash e, 0x18),
         (.hmac e, 0x19), (.keyGenerate e, 0x30), (.keyImportClear e, 0x31), (.keyWrap e, 0x32), (.keyUnwrap e, 0x33), (.keyDestroy e, 0x34), (.keyPublic e, 0x35),
         (.rsaSign e, 0x40), (.rsaVerify e, 0x41), (.rsaDecrypt e, 0x42), (.rsaEncrypt e, 0x43), (.ecdsaSign e, 0x48), (.ecdsaVerify e, 0x49),
         (.ed25519Sign e, 0x4C), (.ed25519Verify e, 0x4D), (.mlkemEncaps e, 0x50), (.mlkemDecaps e, 0x51), (.mldsaSign e, 0x54), (.mldsaVerify e, 0x55)]
      ∀ p ∈ ops, b.runningOn e = some j → j.chan = none → b.serving = true →
        ((dOp j.desc).toNat = p.2 → (p.2 = 0x34 → b.keyInUse j = false) →
          ∃ (b' : Body) (r : JobResult), exec p.1 s = .next { s with body := b' } ∧ b'.strands = b.strands ∧
            b'.io.jobs = b.io.jobs.map fun x => if x = j then { j with st := .done r } else x) ∧
        ((dOp j.desc).toNat ≠ p.2 → exec p.1 s = .next s)) ∧
  (∀ (s : State) (e : EngineRef) (j : Job) (b1 b2 : Body) (src dst : Area),
      let b := s.body
      let d := j.desc
      let o := b.jobOwner e j
      let op := (dOp d).toNat
      let par := (dParam d).toNat
      let n := areaLen src
      let room := areaLen dst
      let keyed (kinds : List Nat) (use : Option Nat) (k : KeyEntry) : Prop := JobKey s e j b2 kinds use k
      let writes (i : Instr) (x : Body) (used : Nat) (out : List Byte) : Prop := JobWrites s i e j x dst used out
      b.runningOn e = some j → j.chan = none → b.serving = true → op ≠ 3 →
      b.area o (dFlag d 0) (dSrc d) (dSlen d) = (b1, .ok src) → b1.area o (dFlag d 1) (dDst d) (dDlen d) = (b2, .ok dst) →
        (∀ p ∈ ([(.compress e, 0x01), (.decompress e, 0x02)] : List (Instr × Nat)), op = p.2 → (op = 1 → n ≤ 0x1000000) → (op = 2 → n ≤ 0x4000000 ∧ room ≤ 0x4000000) →
          ∀ r b3 b4 bs, Resumed b2 o d b3 (fun r => r.op = dOp d ∧ r.param.toNat % 256 = par % 256) r → b3.areaRead o src = (b4, .ok bs) →
            StreamEnds s p.1 e j { op := dOp d, param := dParam d, fin := dFlag d 2, prev := r.prev, part := r.part, written := r.written, src := bs, srcAt := dSrc d, slen := dSlen d, schain := dFlag d 0, sdone := 0 } b4 dst) ∧
        (∀ p ∈ ([(.aesGcmEncrypt e, 0x10), (.aesGcmDecrypt e, 0x11), (.aesXtsEncrypt e, 0x12), (.aesXtsDecrypt e, 0x13), (.aesCbcEncrypt e, 0x14), (.aesCbcDecrypt e, 0x15), (.chachaEncrypt e, 0x16), (.chachaDecrypt e, 0x17)] : List (Instr × Nat)), op = p.2 →
          let dec := op % 2 = 1
          let len := if dec then n - tagLen d else n + tagLen d
          (dec → tagLen d ≤ n) → n ≤ 0x4000000 → (op = 0x12 ∨ op = 0x13 → 16 ≤ n ∧ n ≤ 0x1000000) → (op = 0x14 ∨ op = 0x15 → n % 16 = 0) → len ≤ room →
          ∀ k b3 b4 b5 iv aad msg, keyed (bulkKinds op) (some (if dec then 1 else 0)) k →
            b2.engRead o (dAux d) (if 0x12 ≤ op ∧ op ≤ 0x15 then 16 else 12) = (b3, .ok iv) → b3.engRead o (field d 48 8) (field d 56 4) = (b4, .ok aad) → b4.areaRead o src = (b5, .ok msg) →
              (∀ out, cipher op k.material iv aad (tagLen d) msg = some out → writes p.1 b5 n out) ∧
              (cipher op k.material iv aad (tagLen d) msg = none → (∀ z ≤ len, ∃ y, b5.spend.areaWrite o dst (List.replicate z 0) = (y, .ok ())) →
                ∃ y, JobEnds s p.1 e j y { status := 0x22, detail := 0, consumed := BitVec.ofNat 32 n, produced := 0, check := 0 })) ∧
        (∀ p ∈ ([(.hash e, 0x18), (.hmac e, 0x19)] : List (Instr × Nat)), op = p.2 → n ≤ 0x4000000 → ∀ k r b3 b4 msg, (op = 0x19 → keyed [4] (some 2) k) →
          Resumed b2 o d b3 (fun r => r.op = dOp d ∧ r.param = dParam d) r → b3.areaRead o src = (b4, .ok msg) →
            let whole := r.part ++ msg
            (dFlag d 2 = true → (hashLen par).getD 0 ≤ room → writes p.1 b4 n (if op = 0x18 then hashOf par whole else hmac par k.material whole)) ∧
            (dFlag d 2 = false → ∀ b5, b4.sealRecord o (dAux d) (dOp d) { slice := o.slice, gen := o.gen, bytes := [], op := dOp d, param := dParam d, prev := [], part := whole, written := 0, fin := false } n (dSrc d) (dSlen d)
                (if dFlag d 0 = true then 3 else 2) 0 = (b5, .ok ()) →
              JobEnds s p.1 e j b5 { status := 0, detail := 0, consumed := BitVec.ofNat 32 n, produced := 0, check := 0 })) ∧
        (op = 0x30 → JobGives s (.keyGenerate e) e j b2.spend dst 0 (BitVec.ofNat 8 par) (BitVec.ofNat 8 (par / 256)) (freeBytes b2.freeCtr ((keyLen (BitVec.ofNat 8 par)).getD (dSlen d)))) ∧
        (op = 0x31 → ∀ b3 m, b2.areaRead o src = (b3, .ok m) → keyLenOk (BitVec.ofNat 8 par) m.length = true →
          JobGives s (.keyImportClear e) e j b3 dst m.length (BitVec.ofNat 8 par) (BitVec.ofNat 8 (par / 256)) m) ∧
        (op = 0x32 → ∀ k, keyed [] (some 4) k →
          let nonce := freeBytes b2.freeCtr 12
          let head := leBytes 2 0x4B42 ++ leBytes 1 k.ktype.toNat ++ leBytes 1 k.usage.toNat ++ leBytes 2 k.material.length ++ leBytes 2 0 ++ leBytes 8 (b2.part o.part).domain.toNat ++ nonce ++ leBytes 4 0
          writes (.keyWrap e) b2.spend 0 (head ++ gcmEnc (padTo 32 Config.wrapKey) nonce head 16 k.material)) ∧
        (op = 0x33 → ∀ b3 bs m, b2.areaRead o src = (b3, .ok bs) → 48 + field bs 4 2 ≤ n → field bs 0 2 = 0x4B42 → BitVec.ofNat 64 (field bs 8 8) = (b3.part o.part).domain →
          gcmDec (padTo 32 Config.wrapKey) ((bs.drop 16).take 12) (bs.take 32) 16 ((bs.drop 32).take (field bs 4 2 + 16)) = some m →
            JobGives s (.keyUnwrap e) e j b3 dst n (bs.getD 2 0) (bs.getD 3 0) (padTo (field bs 4 2) m)) ∧
        (op = 0x34 → b.keyInUse j = false → ∀ k, keyed [] none k →
          JobEnds s (.keyDestroy e) e j (b2.putKey e.hub ((dKey d).toNat % 65536) { k with live := false, material := [] }) { status := 0, detail := 0, consumed := 0, produced := 0, check := 0 }) ∧
        (op = 0x35 → ∀ k, keyed [8, 9, 10, 12, 13, 14, 16, 17, 18, 20, 21, 22] none k →
          let out := Config.publicOf k.ktype k.material
          writes (.keyPublic e) b2 0 out ∧
            (room < out.length → JobEnds s (.keyPublic e) e j b2 { status := 0x15, detail := 3, consumed := 0, produced := 0, check := 0 })) ∧
        (∀ b3 b4 kt km msg, b2.pkOperand o d = (b3, .ok (kt, km)) → b3.areaRead o src = (b4, .ok msg) →
          let out := Config.publicKey (dOp d) (dParam d) km (freeBytes b3.freeCtr 64) msg
          (∀ p ∈ ([(.rsaSign e, 0x40), (.rsaEncrypt e, 0x43), (.ecdsaSign e, 0x48), (.ed25519Sign e, 0x4C), (.mlkemEncaps e, 0x50), (.mldsaSign e, 0x54)] : List (Instr × Nat)), op = p.2 →
            (op = 0x40 ∨ op = 0x48 → n = (hashLen (par / 256)).getD 0) → (op = 0x4C ∨ op = 0x54 → n ≤ 0x100000) → pkLen kt ≤ room → writes p.1 b4.spend n (padTo (pkLen kt) (out.getD []))) ∧
          (∀ p ∈ ([(.rsaVerify e, 0x41), (.ecdsaVerify e, 0x49), (.ed25519Verify e, 0x4D), (.mldsaVerify e, 0x55)] : List (Instr × Nat)), op = p.2 →
            JobEnds s p.1 e j b4 { status := if out.isSome = true then 0 else 0x23, detail := 0, consumed := BitVec.ofNat 32 n, produced := 0, check := 0 }) ∧
          (op = 0x42 → n = pkLen kt → pkLen kt ≤ room → ∀ m, out = some m → writes (.rsaDecrypt e) b4.spend n m) ∧
          (op = 0x51 → JobGives s (.mlkemDecaps e) e j b4.spend dst n 2 (BitVec.ofNat 8 (par / 256)) (padTo 32 (out.getD []))))) ∧
  (∀ (s : State) (e : EngineRef) (j : Job) (b1 b2 b3 b4 : Body) (src dst : Area) (r : SealedRec) (raw bs : List Byte),
      let b := s.body
      let d := j.desc
      let o := b.jobOwner e j
      let done := field raw 4 4
      b.runningOn e = some j → j.chan = none → b.serving = true → (dOp d).toNat = 3 → b.area o (dFlag d 1) (dDst d) (dDlen d) = (b1, .ok dst) →
      b1.openRecord o d = (b2, .ok (r, raw)) → 1 ≤ r.op.toNat → r.op.toNat ≤ 3 → b2.area o ((raw.getD 20 0).getLsbD 0) (field raw 8 8) (field raw 16 4) = (b3, .ok src) →
      b3.areaRead o (areaDrop src done) = (b4, .ok bs) →
        StreamEnds s (.continueJob e) e j { op := r.op, param := r.param, fin := r.fin, prev := r.prev, part := r.part, written := r.written, src := bs, srcAt := field raw 8 8, slen := field raw 16 4, schain := (raw.getD 20 0).getLsbD 0, sdone := done } b4 dst) ∧
  (∀ (s : State) (e : EngineRef) (j : Job) (ix : Nat) (t : JEntry) (r : Running) (g : Group) (b1 : Body) (src : List Byte),
      let b := s.body
      let out := compressed (dParam j.desc) [] src true
      b.runningOn e = some j → j.chan = some ix → b.serving = true → dOp j.desc = 1 → j.gen = (b.slice j.slice).gen → b.jGet ix = some t → b.running ix = some r → r.group = some g →
      b.areaRead { b.txOwner t r with half := e.hub, eng := none } g.area = (b1, .ok src) → out.length ≤ b1.padLen t g.count →
        ∃ b' : Body, exec (.compress e) s = .next { s with body := b' } ∧ b'.io.jobs = b1.io.jobs.erase j ∧ b'.strands = b1.strands ∧ b'.mem = b1.mem ∧
          ((b'.running ix).bind fun y => y.group) = ((b1.running ix).bind fun y => y.group).map fun h => { h with staged := some (padTo (b1.padLen t out.length) out), packing := false, xlen := out.length }) ∧
  (∀ (s : State) (e : EngineRef) (j : Job) (k : KeyEntry),
      let b := s.body
      let x := b.slice j.slice
      let ops : List (Instr × Nat) := [(.keyWrap e, 0x32), (.keyDestroy e, 0x34), (.keyPublic e, 0x35)]
      b.runningOn e = some j → j.chan = none → b.serving = true → dFlag j.desc 0 = false → dFlag j.desc 1 = false → b.keyOf e.hub (dKey j.desc) = some k →
        b.keyInUse j = false →
          (¬(k.part = x.part ∧ k.asid = x.asid) → ∀ p ∈ ops, (dOp j.desc).toNat = p.2 →
            ∃ b' : Body, exec p.1 s = .next { s with body := b' } ∧ b'.io.keys = b.io.keys ∧ b'.io.writes = b.io.writes ∧
              { j with st := .done { status := 0x20, detail := 2, consumed := 0, produced := 0, check := 0 } } ∈ b'.io.jobs) ∧
          (k.part = x.part → k.asid = x.asid → (dOp j.desc).toNat = 0x34 →
            ∃ b' : Body, exec (.keyDestroy e) s = .next { s with body := b' } ∧ b'.keyOf e.hub (dKey j.desc) = none ∧
              { j with st := .done { status := 0, detail := 0, consumed := 0, produced := 0, check := 0 } } ∈ b'.io.jobs))

/-- JOB_COMPLETE takes the oldest finished job of a slice and gives its record of R378: USER of the descriptor, counts, check, ring index, operation, status, detail, engine and re-runs; here with a completion
ring that cannot take it yet, so that it waits (R356). -/
def Obligations.JobRecords : Prop :=
  ∀ (s : State) (sl : SliceId) (j : Job) (r : JobResult),
    let b := s.body
    let x := b.slice sl
    b.serving = true → b.io.jobs.find? (fun k => k.slice = sl && match k.st with | .done _ => true | _ => false) = some j → j.st = .done r →
      j.gen = x.gen → x.waiting = [] → (x.cq.stopped = true ∨ x.cq.en = false) →
        let bytes := (j.desc.drop 40).take 8 ++ leBytes 4 r.consumed.toNat ++ leBytes 4 r.produced.toNat ++ leBytes 4 r.check.toNat ++
          leBytes 4 j.sqix.toNat ++ leBytes 1 (j.desc.getD 0 0).toNat ++ leBytes 1 r.status.toNat ++ leBytes 1 r.detail.toNat ++
          leBytes 1 (engByte j.last) ++ leBytes 1 j.rerun ++ [0, 0, 0]
        ∃ b' : Body, exec (.jobComplete sl) s = .next { s with body := b' } ∧ b'.io.jobs = b.io.jobs.erase j ∧
          (b'.slice sl).waiting = [{ src := .job, gen := some j.gen, bytes := bytes }] ∧ b'.strands = b.strands ∧ b'.mem = b.mem

/-- An attempt that ends takes its engine out of service; the job, when it is a ring's, waits for an engine that it has not used, or, after its third attempt, ends with the failure status of its kind. RERUN_START gives it such an
engine, counting the re-run, or ends it when the module has none left (R383 to R385). ARBITRATION_ROUND: a job that alone is ready starts on an idle engine in service that its slice admits, and its slice's virtual time grows by cost over weight; with no ready job and nothing announced, nothing happens (R353, R362). -/
def Obligations.AttemptsRerunsAndRounds : Prop :=
  (∀ (s : State) (e : EngineRef) (k : AttemptEndKind) (sl : SliceId) (j : Job),
      let b := s.body
      let last : JobResult := { status := if 1 ≤ (dOp j.desc).toNat ∧ (dOp j.desc).toNat ≤ 3 then 0x11 else 0x16, detail := 0, consumed := 0, produced := 0, check := 0 }
      let becomes (i : Instr) (f : Job → Prop) : Prop :=
        ∃ (b' : Body) (j' : Job), exec i s = .next { s with body := b' } ∧ f j' ∧ b'.io.jobs = (b.io.jobs.map fun x => if x = j then j' else x) ∧ b'.strands = b.strands
      b.serving = true → j.gen = (b.slice j.slice).gen → j.chan = none →
        (b.runningOn e = some j →
          (j.used.length < 3 → becomes (.attemptEnd e k) fun j' => j' = { j with st := .rerun }) ∧
          (3 ≤ j.used.length → becomes (.attemptEnd e k) fun j' => j' = { j with st := .done last }) ∧
          (engExists e = true → ∃ b' : Body, exec (.attemptEnd e k) s = .next { s with body := b' } ∧ (b'.eng e).service ≠ .inService)) ∧
        (b.io.jobs.find? (fun x => x.slice = sl && x.st = .rerun) = some j →
          (∀ h, ∀ g ∈ enginesOf h (poolOf j.desc), g ∉ j.used → b.engUp g = false) → becomes (.rerunStart sl) fun j' => j' = { j with st := .done last }) ∧
        (b.io.jobs.find? (fun x => x.slice = sl && x.st = .rerun) = some j → j.slice = sl →
          (∃ g ∈ enginesOf (b.servingHub sl (b.slice sl).part) (poolOf j.desc), (b.slice sl).admits g = true ∧ b.engUp g = true ∧ g ∉ j.used ∧ b.runningOn g = none) →
            becomes (.rerunStart sl) fun j' => ∃ g, g ∉ j.used ∧ j' = { j with st := .running g, used := j.used ++ [g], last := some g, rerun := j.rerun + 1 })) ∧
  (∀ (s : State) (h : HubId) (p : PoolKind) (j : Job),
      let b := s.body
      let x := b.slice j.slice
      let near := (enginesOf h p).filter fun e => x.admits e && b.engUp e
      b.serving = true → (∀ sl, (b.slice sl).sq.head = (b.slice sl).sq.tail) →
        (b.io.jobs = [] → exec (.arbitrationRound h p) s = .next s) ∧
        (b.io.jobs = [j] → j.st = .ready → poolOf j.desc = p → (tGet b.io.slices j.slice.val).isSome = true → b.servingHub j.slice x.part = h → b.workHeld j.slice x.part = false → near ≠ [] →
          ∃ b' e, exec (.arbitrationRound h p) s = .next { s with body := b' } ∧ e ∈ near ∧
            b'.io.jobs = [{ j with st := .running e, used := j.used ++ [e], last := some e }] ∧
            (b'.poolAt h p).at j.slice = (b.poolAt h p).at j.slice + (j.cost : ℚ) / (max x.weight.toNat 1 : ℕ) ∧
            b'.strands = b.strands ∧ b'.mem = b.mem))

/-! ## Customer micro-routines -/

/-- An X-instruction whose decode entry is not valid raises ILLEGAL_INSTRUCTION, and one below the privilege of its entry PRIVILEGED_INSTRUCTION (R261). A routine of one operate word that commits and retires
writes its result, which the spec leaves open (log entry 6), to the micro-register of its DST, sets CC when the operation sets it, and completes (R256 to R263). A routine that has spent its budget, with nothing
else due at the boundary, raises ILLEGAL_INSTRUCTION with CS.TPC at the X-instruction, and X_BUDGET is recorded with the fn and the address (R278). A ROM address that an enabled
match register holds fetches that register's slip word, any other the ROM's word, and a slip address its own (R254, R270). -/
def Obligations.MicroRoutines : Prop :=
  ∀ (s : State) (t : StrandId) (b : Body) (fn : BitVec 4) (rd ra : Reg) (imm : BitVec 24) (raw : BitVec 160),
    let u := b.strand t
    let i : Instr := .xInstruction t fn rd ra imm
    let e := (b.bankOf t).entries.getD fn.toNat 0
    (Runs s t i b → u.micro = none →
      (e.getLsbD 15 = false → u.pend = false →
        exec i s = .next { s with body := b.takeTrap t { cause := 0x01, rule := .upK, info0 := insnBytes i } u.pc }) ∧
      (e.getLsbD 15 = true → u.prv.toNat < (e.extractLsb' 16 2).toNat → u.pend = false →
        exec i s = .next { s with body := b.takeTrap t { cause := 0x02, rule := .next, info0 := insnBytes i } u.pc }) ∧
      (e.getLsbD 15 = true → (e.extractLsb' 16 2).toNat ≤ u.prv.toNat →
        (b.bankOf t).fetch (e.extractLsb' 0 15).toNat = some raw →
          let m := microWord raw
          let k := b.freeCtr
          let run : MicroRun :=
            { pos := (e.extractLsb' 0 15).toNat, temps := freeTemps k, cc := BitVec.ofNat 4 (Config.freeNat (k + 16)), wroteCc := false,
              snap := u.snapshot, snapCc := none, pins := [], inSpan := false, bad := none, words := 0 }
          let x : XInsn := { rd := rd, ra := ra, rb := BitVec.ofNat 5 (16 + fn.toNat), imm := imm, pc := u.pc }
          let args := [microGet u run x m.srcA, microGet u run x m.srcB, microGet u run x m.srcC]
          let v := Config.uop (BitVec.ofNat 8 m.cls) m.uop args m.imm run.cc
          let cc := Config.uopCc (BitVec.ofNat 8 m.cls) m.uop args m.imm run.cc
          m.cls ≤ 1 → m.commit = true → m.seq = 3 → m.opens = false →
            ∀ d : Reg, (m.dst = d.toNat ∨ (m.dst = 49 ∧ d = rd)) →
              let w := u.setReg d v
              exec i s = .next (finish s { b with freeCtr := k + 17 } t (match cc with | some n => w.setCC n | none => w) (b.seqPc t 6)))) ∧
    (∀ (bytes : W), let v := s.body.strand t
      let b0 := s.body.setStrand t { v with act := .ready }
      v.run = .running → v.act = .xBudget bytes → b0.dueFirst t (v.tl = 0) = none →
        ∃ r : Body, exec (.xBudget t) s = .next { s with
            body := r.takeTrap t { cause := 0x01, rule := .upK, info0 := bytes } v.pc } ∧
          r = b0.report (strandLoc t) 0x0203 (dataOf [(1, bytes.toNat / 2 ^ 18 % 64), (1, 0), (6, v.pc.toNat)])) ∧
    (∀ (k : SlipBank) (a : Nat) (m : BitVec 32),
      (a < 0x6000 → (∀ r ∈ k.matchRegs, r.getLsbD 31 = true → (r.extractLsb' 16 15).toNat ≠ a) → k.fetch a = some (Config.coreRom a)) ∧
      (a < 0x6000 → k.matchRegs.find? (fun r => r.getLsbD 31 && (r.extractLsb' 16 15).toNat = a) = some m →
        k.fetch a = k.patch[(m.extractLsb' 0 10).toNat]?) ∧
      (0x6000 ≤ a → a < 0x6300 → k.fetch a = k.patch[a - 0x6000]?) ∧
      (0x6300 ≤ a → k.fetch a = k.code[a - 0x6300]?))

/-! ## Channel slices -/

/-- A Start Record of the slice that its engine's pool serves next (R362) is decided in the order invalid (04, with the reason of R303), full (03), busy (01), no path (05), journal full (07); a refusal is one record with TXN 0, the tag of the start and SC, and no transaction begins (R288 to R290, R298, R299).
An accepted start takes the next transaction number of its hub, has a journal entry in ACCEPTED that holds the fields of the record, makes its subchannel BUSY and, where SFLAGS bit 0 asks for it, posts a record with SC 10 (R288, R312, R314 to R317). While the slice is being unbound a record
gets no answer (R368). Stated outside SPLIT for the
refusals without a path, and for a completion ring that takes no record yet, so that the record waits (R356). -/
def Obligations.ChannelStarts : Prop :=
  ∀ (s : State) (sl : SliceId) (b : Body) (e : HubId × Fin 16) (d : List Byte),
    let x := b.slice sl
    let h := b.servingHub sl x.part
    let fl := d.getD 19 0
    let image := field d 16 2
    let key := subchKey sl.val image
    let pathNo := (d.getD 22 0).toNat
    let pin : Option Nat := if fl.getLsbD 1 then some pathNo else none
    let refused (sc ds : Byte) : Prop :=
      ∃ b' : Body, exec (.startRecord sl) s = .next { s with body := b' } ∧ b'.io.journal = b.io.journal ∧ b'.io.running = b.io.running ∧ b'.io.subchs = b.io.subchs ∧
        (b'.slice sl).waiting = [{ src := .notice, gen := some x.gen, bytes := chanRecord 0 (field d 8 8) 0 0 image 0 sc ds 0xFF (b.senseHeld key) }] ∧
        (b'.slice sl).qfull = if sc = 3 then sat32 x.qfull else x.qfull
    let wrong3 := fl &&& 0xF8 ≠ 0 ∨ d.getD 23 0 ≠ 0 ∨ field d 28 4 ≠ 0 ∨ (fl.getLsbD 2 = false ∧ field d 20 2 ≠ 0) ∨ (fl.getLsbD 1 = false ∧ pathNo ≠ 0)
    let wrong2 := 7 < (d.getD 18 0).toNat
    let wrong5 := field d 0 8 % 16 ≠ 0
    let wrong1 := 4096 ≤ image ∨ b.subch key = none
    let ready := (sliceIds s.body).filter (s.body.startReady e)
    s.body.serving = true → s.body.ringEngine sl = some e →
    s.body.poolNext ((s.body.io.chanPools[chanIx e.1 e.2]).join ready) (fun _ => 1) ready = some sl →
    s.body.readEntryAtHead sl 32 = (some d, b) → x.waiting = [] → (x.cq.stopped = true ∨ x.cq.en = false) →
      (wrong3 → refused 4 3) ∧
      (¬wrong3 → wrong2 → refused 4 2) ∧
      (¬wrong3 → ¬wrong2 → wrong5 → refused 4 5) ∧
      (¬wrong3 → ¬wrong2 → ¬wrong5 → wrong1 → refused 4 1) ∧
      (∀ c : Subch, ¬wrong3 → ¬wrong2 → ¬wrong5 → ¬wrong1 → b.subch key = some c →
        (fl.getLsbD 1 = true → c.paths.length ≤ pathNo → refused 4 6) ∧
        ((fl.getLsbD 1 = false ∨ pathNo < c.paths.length) → fl.getLsbD 2 = true → tGet b.io.streams (field d 20 2) = none → refused 4 4) ∧
        (b.startReason sl d = none →
          (x.st = .draining false → refused 2 0) ∧
          (x.st = .draining true → ∃ b' : Body, exec (.startRecord sl) s = .next { s with body := b' } ∧ (b'.slice sl).waiting = [] ∧ b'.io.journal = b.io.journal) ∧
          (x.st = .bound →
            (x.limit.toNat ≤ b.occ sl → refused 3 0) ∧
            (b.occ sl < x.limit.toNat →
              (c.busy = true → refused 1 0) ∧
              (c.busy = false →
                (b.choosePath h c pin = none → b.isSplit = false → refused 5 0) ∧
                (∀ path, b.choosePath h c pin = some path → b.freeEntry h = none → refused 7 0) ∧
                (∀ path ix, b.choosePath h c pin = some path → b.freeEntry h = some ix → b.journalUp h = true → (b.isSplit = true → tGet b.io.journal[otherHub h] ix = none) →
                  ∃ (b' : Body) (j : JEntry) (r : Running), exec (.startRecord sl) s = .next { s with body := b' } ∧ b'.jGet ix = some j ∧ b'.running ix ≠ none ∧ r ∈ b'.io.running ∧
                    j.st = 1 ∧ j.txn = BitVec.ofNat 64 (e.1.val * 2 ^ 63 + b.io.txnCount[e.1] % 2 ^ 63) ∧ b'.io.txnCount[e.1] = b.io.txnCount[e.1] + 1 ∧
                    j.tag = BitVec.ofNat 64 (field d 8 8) ∧ j.program = BitVec.ofNat 64 (field d 0 8) ∧ j.slice.toNat = sl.val ∧ j.subch.toNat = image ∧ j.gen = x.gen ∧ j.part = x.part ∧
                    j.prio = d.getD 18 0 ∧ j.sflags = fl ∧ j.path = BitVec.ofNat 8 path ∧ j.jflags = 0 ∧ j.ckaddr = j.program ∧ j.ckcce = 0 ∧ j.issued = 0 ∧
                    r.ix = ix ∧ r.addr = j.program ∧ r.ccno = 0 ∧ r.group = none ∧
                    b'.subch key = some { c with busy := true, lastPath := some path } ∧
                    (b'.slice sl).waiting = (if fl.getLsbD 0 then
                      [{ src := .accepted ix, gen := some x.gen, bytes := chanRecord j.txn.toNat (field d 8 8) 0 0 image 0 0x10 0 j.path c.sense.isSome }] else []) ∧
                    b'.strands = b.strands ∧ b'.mem = b.mem))))))

/-- A channel program goes on CCE by CCE (R291, R293, R301, R303, R304): a CCE without a command ends it with PROGRAM_CHECK reason 1; an order FLUSH of a block device is issued to its path as one device command, NVMe's Flush or SCSI's SYNCHRONIZE CACHE, after a checkpoint and the
transaction is IN_PROGRESS (R297, R308, R321); a NOP that does not chain ends it with OK; the FINAL record holds transaction number, tag, ordinal of the last CCE and status, and the state becomes DEVICE_DONE (R298, R319). A device's
answer to a command that nobody awaits is counted and nothing else happens (R324); GOOD to the FLUSH that the program ends with ends it with OK. FINAL_POST gives the final record to the slice's completion ring, or to the orphan queue (R307, R334). -/
def Obligations.ChannelPrograms : Prop :=
  ∀ (s : State) (ix : Nat) (b : Body) (j : JEntry) (r : Running) (c : Subch) (cce : List Byte),
    let final (k : Body) (sc ds : Byte) (cno : Nat) (resid : BitVec 32) (j' : JEntry) : Prop :=
      k.jGet ix = some j' ∧ j'.st = 4 ∧ j'.txn = j.txn ∧ j'.ckseq = j.ckseq + 1 ∧
        ∃ held, j'.final = chanRecord j.txn.toNat j.tag.toNat resid j'.ckxfer j.subch.toNat cno sc ds j.path held
    let b0 := s.body.modRunning ix fun x => { x with idle := false }
    (s.body.serving = true → s.body.chanUp (engineOf j.engine).1 (engineOf j.engine).2 = true → s.body.yields ix = false → b0.jGet ix = some j → s.body.jGet ix = some j →
      (j.st = 2 ∨ j.st = 3) → b0.subch j.subchKey = some c → b0.running ix = some r → r.ending = none → r.group = none → r.stop = none → r.lost = false → r.redo = [] →
      b0.streamOf j.subchKey = none → b0.engRead (b0.txOwner j r) r.addr.toNat 16 = (b, .ok cce) →
      r.ccno.toNat < 65535 → b.jGet ix = some j → b.running ix = some r → b.subch j.subchKey = some c → b.inDoubt ix = [] → c.reports = [] →
        (flagsOf (cce.getD 0 0) false = none → ∃ (b' : Body) (j' : JEntry), exec (.cceFetch ix) s = .next { s with body := b' } ∧
          final b' 0x20 1 r.ccno.toNat r.resid j' ∧ b'.strands = b.strands ∧ b'.mem = b.mem) ∧
        (cce = 0x41 :: List.replicate 15 0 → ∃ (b' : Body) (j' : JEntry), exec (.cceFetch ix) s = .next { s with body := b' } ∧
          final b' 0 1 r.ccno.toNat 0 j' ∧ b'.io.cmds = b.io.cmds ∧ b'.strands = b.strands ∧ b'.mem = b.mem) ∧
        (∀ p : Path, cce = 0x50 :: 0 :: 2 :: List.replicate 13 0 → c.kind = 1 → c.paths[j.path.toNat]? = some p → b.isSplit = false →
          ∃ (b' : Body) (j' : JEntry) (k : DevCmd), exec (.cceFetch ix) s = .next { s with body := b' } ∧ b'.jGet ix = some j' ∧ j'.st = 3 ∧ j'.issued = j.issued + 1 ∧ j'.ckseq = j.ckseq + 1 ∧
            b'.io.cmds = b.io.cmds ++ [k] ∧ k.id = b.io.nextCmd ∧ k.who = .txn ix ∧ k.wire.code = (if p.proto.toNat ≤ 3 then 0x00 else if p.proto = 4 then 0x91 else k.wire.code) ∧ k.port = p.port ∧ k.target = p.target.toNat ∧ k.cmd = 0x50 ∧ k.order = 2 ∧ k.live = true ∧ k.ckseq = j'.ckseq ∧
            b'.io.nextCmd = b.io.nextCmd + 1 ∧ b'.strands = b.strands ∧ b'.mem = b.mem)) ∧
    (∀ (id : Nat) (ans : DevResult) (k : DevCmd),
      (s.body.io.cmds.find? (fun q => q.id = id) = none → exec (.deviceCompletion id ans) s = .next s) ∧
      (s.body.io.cmds.find? (fun q => q.id = id) = some k → s.body.serving = true → k.who = .txn ix → k.answered = false → s.body.jGet ix = some j →
        (k.live = false → j.txn = k.txn → s.body.jRaw ix = some j → ∃ (b' : Body) (j' : JEntry), exec (.deviceCompletion id ans) s = .next { s with body := b' } ∧ b'.jGet ix = some j' ∧
          j'.dups = (if j.dups = 0xFFFF then j.dups else j.dups + 1) ∧ j'.st = j.st ∧ j'.final = j.final ∧ b'.io.running = s.body.io.running ∧ b'.io.slices = s.body.io.slices ∧
          b'.io.cmds = s.body.io.cmds.filter (fun q => q.id != id)) ∧
        (∀ g : Group, k.live = true → j.txn = k.txn → k.abort = none → s.body.subch j.subchKey = some c → c.kind = 1 → c.reports = [] → s.body.portUp k.port = true → k.recov = 0 →
          k.cmd = 0x50 → ans.cls = .good → s.body.running ix = some r → r.lost = false → r.redo = [] → r.ending = none → r.group = some g → g.flags = 0 →
          (∀ q ∈ s.body.inDoubt ix, q.id = id) →
            ∃ (b' : Body) (j' : JEntry), exec (.deviceCompletion id ans) s = .next { s with body := b' } ∧ b'.jGet ix = some j' ∧ j'.st = 4 ∧ j'.issued = 0 ∧
              (∃ held, j'.final = chanRecord j.txn.toNat j.tag.toNat 0 j'.ckxfer j.subch.toNat (r.ccno.toNat - 1) 0 1 j.path held) ∧
              b'.io.cmds = s.body.io.cmds.filter (fun q => q.id != id)))) ∧
    (s.body.serving = true → s.body.jGet ix = some j → j.st = 4 → j.jflags.getLsbD 2 = false →
      let sl : SliceId := ⟨j.slice.toNat, by have := j.slice.isLt; omega⟩
      let x := s.body.slice sl
      (j.jflags.getLsbD 1 = false → x.gen = j.gen → x.waiting = [] → (x.cq.stopped = true ∨ x.cq.en = false) →
        ∃ b' : Body, exec (.finalPost ix) s = .next { s with body := b' } ∧ b'.jGet ix = some { j with st := 5 } ∧
          (b'.slice sl).waiting = [{ src := .final ix, gen := some j.gen, bytes := j.final }]) ∧
      (j.jflags.getLsbD 1 = true → (∀ h : HubId, s.body.io.orphans[h] = []) →
        ∃ (b' : Body) (o : Orphan), exec (.finalPost ix) s = .next { s with body := b' } ∧ b'.jGet ix = some { j with st := 5 } ∧ b'.io.orphans[s.body.entryHub j] = [o] ∧
          o.ix = ix ∧ o.gen = j.gen ∧ b'.io.slices = s.body.io.slices))
/-- What ends or moves a transaction outside its program. SESSION_END: no command of the session is left (R324, R330). PATH_FAILURE: no path to the failed port and target stays ONLINE (R328). DEVICE_TIMEOUT: the command is being aborted from its timeout on (R332).
ABORT_CONFIRMED: a transaction whose last command it was ends with DEVICE_TIMEOUT, SC 25 (R332). ABORT_WAIT_EXPIRY: 5 s after the abort no command of the transaction is live and its path is not ONLINE (R332). PATH_PROBE: a FAILED path that answers with its format becomes
ONLINE, and PATH_RETURNED is recorded (R284, R331). -/
def Obligations.ChannelRecovery : Prop :=
  ∀ (s : State) (p : PortId) (ix : Nat) (j : JEntry) (k : DevCmd) (c : Subch),
    let b := s.body
    let gives (i : Instr) (f : Body → Prop) : Prop := ∃ b' : Body, exec i s = .next { s with body := b' } ∧ b'.strands = b.strands ∧ f b'
    let offline (b' : Body) (target : Option Nat) : Prop := ∀ key d, b'.subch key = some d → ∀ q ∈ d.paths, q.port = p → (∀ t, target = some t → q.target.toNat = t) → q.st ≠ 1
    (∀ target : Nat, gives (.sessionEnd p target) fun b' =>
        b'.io.cmds = b.io.cmds.filter (fun q => !(!q.live && q.port = p && q.target = target)) ∧ b'.io.slices = b.io.slices ∧ b'.mem = b.mem) ∧
    (b.serving = true → ∀ target : Option Nat, gives (.pathFailure p target) fun b' => offline b' target) ∧
    (b.serving = true → b.io.cmds.find? (fun q => q.id = k.id) = some k → k.who = .txn ix → b.jGet ix = some j → b.jRaw ix = some j → j.txn = k.txn →
      let h := (engineOf k.queue).1
      (k.live = true → k.stale = false → k.answered = false → k.abort = none → k.issuedAt + b.deviceTimeout k < 2 ^ 64 →
        gives (.deviceTimeout k.id) fun b' => b.tod h ≤ b'.tod h ∧ k.issuedAt + b.deviceTimeout k ≤ b'.tod h ∧ b'.io.journal = b.io.journal ∧
          b'.io.cmds = b.io.cmds.map fun q => if q.id = k.id then { q with abort := some (b'.tod h) } else q) ∧
      (∀ r : Running, k.live = true → k.abort ≠ none → b.running ix = some r → r.lost = false → r.redo = [] → r.ending = none → (∀ g, r.group = some g → g.cmd ≠ 0x21) →
        (∀ q ∈ b.inDoubt ix, q.id = k.id) →
        gives (.abortConfirmed k.id) fun b' => ∃ j', b'.jGet ix = some j' ∧ j'.st = 4 ∧ j'.issued = 0 ∧
          (∃ held, j'.final = chanRecord j.txn.toNat j.tag.toNat (BitVec.ofNat 32 ((r.group.map (·.count)).getD 0)) j.ckxfer j.subch.toNat (r.ccno.toNat - 1) 0x25 0 j.path held)) ∧
      (∀ t, k.live = true → k.abort = some t → b.isLost k = false → k.port = p → t + 5000000000 < 2 ^ 64 →
        gives (.abortWaitExpiry k.id) fun b' => t + 5000000000 ≤ b'.tod h ∧ (∀ q ∈ b'.io.cmds, q.who = .txn ix → q.live = false) ∧ offline b' (some k.target))) ∧
    (∀ (sl : SliceId) (image : BitVec 12) (n : Fin 8) (ans : ProbeResult) (q : Path),
      let key := subchKey sl.val image.toNat
      b.serving = true → b.subch key = some c → c.paths[n.val]? = some q → q.st = 2 → b.portUp q.port = true → b.holdsPath (b.servingHub sl (b.slice sl).part) q = true →
        (ans.ok = true → (c.kind = 1 → ans.blksz = c.blksz ∧ ans.plainFormat = true) →
          gives (.pathProbe sl image n ans) fun b' => b'.subch key = some { c with paths := c.paths.set n.val { q with st := 1, probed := true } } ∧
            b'.ctl.silt = (b.report (portLoc q.port) 0x0503 (dataOf [(2, sl.val), (2, image.toNat), (1, n.val)])).ctl.silt ∧ b'.mem = b.mem) ∧
        (ans.ok = false → exec (.pathProbe sl image n ans) s = .next s))

/-- Events at a channel engine (R280): a bank is entered at its vector (R279). In bank 0 an event enters bank 1, a fault in bank 0 or 1 enters bank 2, an internal error below bank 3 enters bank 3, a return goes back to the bank before; an event in another bank, and
a fault at bank 2, wait for a return; a fault of the fault handler itself enters bank 3; a fault or an internal error in bank 3 check-stops the engine, which leaves service (R326). An engine out of service has no events. A micro-word leads to NEXT, to ALT when its condition holds, to NEXT plus the event code, or halts the bank (R279); a
bank switch of the slip that is ordered is made at a commit of the base bank (R273). A stream of a tape drive: each block that the drive confirms leaves the buffer in order (R337); when the drain is empty and a command waits at its barrier, the barrier is released and the command goes on (R338); a release without that changes nothing. A drive that rejects a block ends the drain,
whose blocks are discarded (R341). -/
def Obligations.ChannelEngineBanksAndDrains : Prop :=
  (∀ (s : State) (h : HubId) (n : Fin 16),
      let b := s.body
      let g := b.chan h n
      let becomes (k : EngineEvent) (g' : ChanEng) : Prop :=
        ∃ b' : Body, exec (.engineFault h n k) s = .next { s with body := b' } ∧ b'.chan h n = g' ∧ b'.strands = b.strands ∧ b'.ctl = b.ctl ∧ b'.mem = b.mem
      let to' (x : BitVec 2) : ChanEng :=
        { g with bank := x, stack := g.bank :: g.stack, addr := g.addr.setIfInBounds x.toNat (x.toNat * 0x100), halted := false }
      (b.serving = true → b.chanUp h n = true →
        (g.bank = 0 → becomes .event (to' 1)) ∧
        (g.bank ≠ 0 → (g.queue.filter (! ·)).length < 256 → becomes .event { g with queue := g.queue ++ [false], halted := false }) ∧
        (g.bank ≠ 0 → 256 ≤ (g.queue.filter (! ·)).length → becomes .event { g with halted := false }) ∧
        (g.bank.toNat ≤ 1 → becomes .fault (to' 2) ∧ becomes .ownFault (to' 2)) ∧
        (g.bank = 2 → becomes .fault { g with queue := g.queue ++ [true] } ∧ becomes .ownFault (to' 3)) ∧
        (g.bank.toNat ≤ 2 → becomes .internal (to' 3)) ∧
        (∀ k rest, g.stack = k :: rest →
          let old := g.slipOld && !(decide (k = 0) && rest.isEmpty && g.atCommit)
          (g.queue = [] → becomes .bankReturn { g with bank := k, stack := rest, slipOld := old }) ∧
          (k.toNat ≤ 1 → g.queue = [true] → becomes .bankReturn
            { g with bank := 2, stack := k :: rest, slipOld := old, queue := [], addr := g.addr.setIfInBounds 2 0x200, halted := false })) ∧
        (∀ (code : BitVec 14) (w : BitVec 128), g.halted = false →
          (if b.ctl.engActive ≠ g.slipOld then b.ctl.engSlip[1] else b.ctl.engSlip[0]).fetch (g.addr.toList.getD g.bank.toNat 0) = some w →
          let br := (w.extractLsb' 124 3).toNat
          let next := (w.extractLsb' 104 14).toNat
          let atCommit := if g.bank = 0 then w.getLsbD 127 else g.atCommit
          let goes (a : Nat) : ChanEng :=
            { g with
              addr := g.addr.setIfInBounds g.bank.toNat a
              atCommit := atCommit
              slipOld := g.slipOld && !(decide (g.bank = 0) && g.stack.isEmpty && atCommit) }
          (br = 0 → becomes (.word code) (goes next)) ∧
          (br = 1 → becomes (.word code)
            (goes (if Config.engineCond (w.extractLsb' 118 6) b.freeCtr then (w.extractLsb' 90 14).toNat else next))) ∧
          (br = 2 → becomes (.word code) (goes ((next + code.toNat) % 2 ^ 14))) ∧
          (br = 4 → becomes (.word code) { goes next with halted := true })) ∧
        (g.bank = 3 → ∀ k, (k = .fault ∨ k = .ownFault ∨ k = .internal) →
          ∃ b' : Body, exec (.engineFault h n k) s = .next { s with body := b' } ∧ (b'.chan h n).service ≠ .inService ∧ b'.chanUp h n = false)) ∧
      (b.chanUp h n = false → ∀ k, exec (.engineFault h n k) s = .next s)) ∧
  (∀ (s : State) (n : Fin 64) (t : Stream) (c : Subch) (ans : DevResult) (x : BitVec 64 × List Byte) (rest : List (BitVec 64 × List Byte)),
      let b := s.body
      let key := subchKey t.slice.val t.image.toNat
      tGet b.io.streams n.val = some t → b.serving = true →
        ((t.barrier = false ∨ t.blocks ≠ []) → exec (.drainBarrierRelease n) s = .next s) ∧
        (t.barrier = true → t.blocks = [] →
          let b1 : Body := { b with io := { b.io with streams := tMod b.io.streams n.val fun x => { x with barrier := false, active := false } } }
          let due (e : Nat × JEntry) : Bool := e.2.subchKey = key && (e.2.st = 2 || e.2.st = 3)
          tGet b1.io.streams n.val = some { t with barrier := false, active := false } ∧
            (b1.outstanding.find? due = none → exec (.drainBarrierRelease n) s = .next { s with body := b1 }) ∧
            (∀ e, b1.outstanding.find? due = some e → exec (.drainBarrierRelease n) s = .next { s with body := b1.runProgram e.1 })) ∧
        (∀ (k : DevCmd) (more : List DevCmd), b.subch key = some c → t.blocks = x :: rest → b.drainCmds n.val = k :: more → k.recov = 0 → b.portUp k.port = true → k.abort = none →
          (ans.cls = .busy → exec (.drainBlockConfirmed n ans) s = .next s) ∧
          (ans.cls = .good → rest ≠ [] →
            ∃ b' : Body, exec (.drainBlockConfirmed n ans) s = .next { s with body := b' } ∧ tGet b'.io.streams n.val = some { t with blocks := rest, recov := false } ∧
              b'.io.subchs = b.io.subchs ∧ b'.mem = b.mem ∧ (k.id < b.io.nextCmd → ∀ q ∈ b'.io.cmds, q.id ≠ k.id)) ∧
          (ans.cls = .error →
            ∃ (b' : Body) (sense : List Byte), exec (.drainBlockConfirmed n ans) s = .next { s with body := b' } ∧
              tGet b'.io.streams n.val = some { t with blocks := [], active := false, recov := false } ∧
              b'.subch key = some { c with lon := k.pos, reports := c.reports ++ [(0x24, 0x80, some sense)] } ∧
              ∀ q ∈ b'.io.cmds, q.who = .drain n.val → q.live = false)))

/-! ## Network queue pairs -/

/-- The engine fetches the work request at the head of a queue of a queue pair when the command is that of its operation: the head moves on and the request waits for its completion, that of a send queue with the message
that goes out through the granted entries of the network address table, when its slice has its turn at the port (R362, R369, R371). A command of another operation, or an empty queue, changes nothing (the
first by log entry 4). A full slice completes the request with status 2 and counts QFULL (R352, R372). NETQ_COMPLETION gives the oldest request its record and a remote failure moves an RC queue pair to ERROR (R372, R413); the transport retries seven times and then ends the request with status 5 (R413); a congestion notification slows the queue pair (R413). INBOUND_RDMA writes the
bytes through the slice's translation, or answers with those it reads, when its region admits it, and is answered with a NAK otherwise (R373). -/
def Obligations.QueuePairs : Prop :=
  (∀ (s : State) (sl : SliceId) (q : Byte) (b : Body) (p : Qp) (wr : List Byte),
      let x := s.body.slice sl
      let ops : List (Instr × Byte) := [(.send sl q, 1), (.sendImm sl q, 2), (.rdmaWrite sl q, 3), (.rdmaWriteImm sl q, 4), (.rdmaRead sl q, 5), (.recv sl q, 0x80)]
      ∀ o ∈ ops,
        let recv := o.2 = 0x80
        let head := if recv then p.rqhead else p.sqhead
        let tail := if recv then p.rqtail else p.sqtail
        let base := (if recv then p.rqbase else p.sqbase).toNat
        let log := (if recv then p.rqlog else p.sqlog).toNat
        let owner := s.body.ownerOf sl x.gen (s.body.servingHub sl x.part)
        let p1 : Qp := if recv then { p with rqhead := p.rqhead + 1 } else { p with sqhead := p.sqhead + 1 }
        s.body.netqUp sl = true → s.body.qp sl q.toNat = p → p.st = 1 → (if recv then p.rqstop else p.sqstop) = false →
          (head = tail → exec o.1 s = .next s) ∧
          (head ≠ tail → s.body.engRead owner ((base + head.toNat % 2 ^ log * 64) % 2 ^ 64) 64 = (b, .ok wr) → b.slice sl = x →
            (wrOp wr ≠ o.2 → exec o.1 s = .next s) ∧
            (wrOp wr = o.2 → ((wr.getD 1 0).getLsbD 0 = false ∨ ∀ w ∈ p.sent, wrOp w.1 ≠ 5) →
              (b.occ sl < x.limit.toNat → recv = true → ∃ b' : Body, exec o.1 s = .next { s with body := b' } ∧ b'.qp sl q.toNat = { p1 with recvs := p.recvs ++ [wr] }) ∧
              (∀ (a d : NetAddr) (pool : PoolClock) (b2 : Body) (data : List Byte), b.occ sl < x.limit.toNat → recv = false →
                b.grantedAddr sl p.addrix.toNat = some a → (if p.typ = 2 then b.grantedAddr sl (field wr 2 2) else some a) = some d →
                b.txTurn a.port sl q.toNat = some pool → wrLen wr ≤ 2 ^ 31 → (p.typ = 2 → wrLen wr ≤ (b.io.octets[octetOfPort a.port]).mtu.toNat) →
                (if o.2 = 5 then b2 = b.setQp sl q.toNat p1 ∧ data = [] else
                  (b.setQp sl q.toNat p1).engRead (b.ownerOf sl x.gen (b.servingHub sl x.part)) (wrAddr wr) (wrLen wr) = (b2, .ok data)) →
                  let msg : NetMsg :=
                    { op := o.2, port := a.port, ip := a.ip, rip := d.rip, dqpn := if p.typ = 2 then BitVec.ofNat 24 (field wr 40 4) else p.rqpn
                      raddr := BitVec.ofNat 64 (field wr 16 8), rkey := BitVec.ofNat 32 (field wr 24 4), imm := BitVec.ofNat 32 (field wr 28 4), len := wrLen wr, data := data }
                  ∃ b' : Body, exec o.1 s = .next { s with body := b' } ∧ b'.qp sl q.toNat = { p1 with sent := p.sent ++ [(wr, msg)] }) ∧
              (x.limit.toNat ≤ b.occ sl → x.waiting = [] → (x.cq.stopped = true ∨ x.cq.en = false) →
                  ∃ b' : Body, exec o.1 s = .next { s with body := b' } ∧ b'.qp sl q.toNat = p1 ∧ (b'.slice sl).qfull = sat32 x.qfull ∧
                    (b'.slice sl).waiting = [{ src := .netq, gen := some x.gen, bytes := netqBytes wr q.toNat 2 0 0 0 }])))) ∧
  (∀ (s : State) (sl : SliceId) (q : Byte) (p : Qp) (wr : List Byte) (rest : List (List Byte × NetMsg)) (msg : NetMsg),
      let b := s.body
      let x := b.slice sl
      let gives (i : Instr) (f : Body → Prop) : Prop := ∃ b' : Body, exec i s = .next { s with body := b' } ∧ b'.strands = b.strands ∧ f b'
      let posted (b' : Body) (bytes : List Byte) : Prop := (b'.slice sl).waiting = [{ src := .netq, gen := some x.gen, bytes := bytes }]
      b.netqUp sl = true → b.qp sl q.toNat = p → p.st = 1 → x.waiting = [] → (x.cq.stopped = true ∨ x.cq.en = false) →
        gives (.cnpReceived sl q) (fun b' => b'.qp sl q.toNat = { p with slowed := p.slowed + 1 } ∧ b'.mem = b.mem) ∧
        (p.sent = [] → p.typ = 1 → exec (.transportRetryTimeout sl q) s = .next s) ∧
        (p.sent = (wr, msg) :: rest → p.typ = 1 → p.retries < 7 → gives (.transportRetryTimeout sl q) fun b' => b'.qp sl q.toNat = { p with retries := p.retries + 1 } ∧ b'.io.writes = b.io.writes) ∧
        (p.sent = [(wr, msg)] → p.recvs = [] → p.typ = 1 → 7 ≤ p.retries → gives (.transportRetryTimeout sl q) fun b' =>
          posted b' (netqBytes wr q.toNat 5 0 0 0) ∧ (b'.qp sl q.toNat).st = 2 ∧ (b'.qp sl q.toNat).err = 5 ∧ (b'.qp sl q.toNat).sent = []) ∧
        (∀ r : NetqResult, r.recv = false → r.status = 0 → wrOp wr ≠ 5 → p.sent = (wr, msg) :: rest → gives (.netqCompletion sl q r) fun b' =>
          posted b' (netqBytes wr q.toNat 0 (wrLen wr) 0 0) ∧ b'.qp sl q.toNat = { p with sent := rest, retries := 0 } ∧ b'.io.writes = b.io.writes) ∧
        (∀ (r : NetqResult) (more : List (List Byte)), r.recv = true → r.data = [] → p.recvs = wr :: more → gives (.netqCompletion sl q r) fun b' =>
          posted b' (netqBytes wr q.toNat 0 0 r.imm.toNat (if p.typ = 2 then r.srcQp else 0)) ∧ b'.qp sl q.toNat = { p with recvs := more }) ∧
        (∀ (r : InboundRdma) (b2 : Body) (data : List Byte), r.slice = sl → b.inboundOk r = true →
          let owner := b.ownerOf sl x.gen (b.servingHub sl x.part)
          let answer (y : Body) (nak : Bool) (bytes : List Byte) : Body :=
            { y with io := { y.io with answer := some { slice := sl, nak := nak, data := bytes } } }
          (r.write = true → r.data.length = r.len → b.engWrite owner r.addr.toNat r.data = (b2, .ok ()) →
            exec (.inboundRdma r) s = .next { s with body := answer b2 false [] }) ∧
          (r.write = false → b.engRead owner r.addr.toNat r.len = (b2, .ok data) → exec (.inboundRdma r) s = .next { s with body := answer b2 false data })) ∧
        (∀ r : InboundRdma, r.slice = sl → b.inboundOk r = false → (r.write = true → r.data.length = r.len) →
          exec (.inboundRdma r) s = .next { s with body := { b with io := { b.io with answer := some { slice := sl, nak := true, data := [] } } } }))

/-! ## Ports and far memory -/

/-- The states of a port (R407 to R410): a receiver is noted while a PCIe or CXL port trains; LINK_UP makes a training port UP with its generation and width, and records it; the training bound leaves it TRAINING, reported, its time begun anew; a loss makes it TRAINING, or HOLD at the eighth within
60 s, and fails its paths; the hold ends after 10 s in TRAINING with the losses forgotten. A port that has met no receiver since its release is reported once after 100 ms, and one that has met one is not. A frame that finds the FIFO full, on any kind of port, and on an Ethernet port one that no unit owns, is counted as discarded and changes nothing else (R41, R412). A mirrored range that loses a member runs on the other one, and one that loses both loses its lines: its FSTATE is 1, then 3 (R436). The end of the copy to a returned member makes it whole, FSTATE 0. Both are recorded, and the module is EXPOSED exactly while a row of R445 holds. -/
def Obligations.PortStatesAndFarMembers : Prop :=
  (∀ (s : State) (p : PortId),
      let b := s.body
      let x := b.port p
      let r := b.octetRec p
      let pcie := r.mode = 2 ∨ r.mode = 3
      let h := portHalf p
      let gives (i : Instr) (f : Body → Prop) : Prop := ∃ b' : Body, exec i s = .next { s with body := b' } ∧ b'.strands = b.strands ∧ f b'
      (b.portExists p = true →
        (pcie → x.st = .training → gives (.receiverDetected p) fun b' => b'.port p = { x with receiver := true, met := true, since := b.tod h } ∧ b'.ctl = b.ctl ∧ b'.mem = b.mem) ∧
        (¬pcie → exec (.receiverDetected p) s = .next s) ∧
        (∀ gen width, x.st = .training →
          let g := if pcie then gen else 0
          let w := if pcie then width else 0
          gives (.linkUp p gen width) fun b' => b'.port p = { x with st := .up, met := true, gen := g, width := w } ∧
            (∀ i, Recorded b b' i (portLoc p) 0x0502 (dataOf [(1, r.mode.toNat), (1, r.rate.toNat), (1, g.toNat), (1, w.toNat)]))) ∧
        (∀ gen width, x.st ≠ .training → exec (.linkUp p gen width) s = .next s) ∧
        (x.st = .training → (pcie → x.receiver = true) → x.since + trainingBound r < 2 ^ 64 →
          gives (.trainingTimeout p) fun b' => x.since + trainingBound r ≤ b'.tod h ∧ b'.port p = { x with since := b'.tod h, receiver := false, reported := true } ∧
            (x.reported = true → b'.io.subchs = b.io.subchs)) ∧
        (x.st = .training → pcie → x.receiver = false → x.reported = true ∨ x.met = true → exec (.trainingTimeout p) s = .next s) ∧
        (x.st = .training → pcie → x.receiver = false → x.reported = false → x.met = false → x.since + 100000000 < 2 ^ 64 →
          gives (.trainingTimeout p) fun b' => x.since + 100000000 ≤ b'.tod h ∧ b'.port p = { x with reported := true } ∧
            ∀ key d, b'.subch key = some d → ∀ q ∈ d.paths, q.port = p → q.st ≠ 1) ∧
        (∀ cause : Byte, x.st = .up → 1 ≤ cause.toNat → cause.toNat ≤ 4 →
          let losses := (x.losses ++ [b.tod h]).filter fun t => b.tod h ≤ t + 60000000000
          gives (.linkLoss p cause) fun b' =>
            b'.port p = { x with
              st := if 8 ≤ losses.length then .hold else .training
              losses := losses
              since := b.tod h
              receiver := false
              gen := 0
              width := 0 } ∧
            ∀ key d, b'.subch key = some d → ∀ q ∈ d.paths, q.port = p → q.st ≠ 1) ∧
        (x.st = .hold → x.since + 10000000000 < 2 ^ 64 → gives (.holdExpiry p) fun b' => x.since + 10000000000 ≤ b'.tod h ∧ b'.port p = { x with st := .training, losses := [], since := b'.tod h }) ∧
        (x.st = .up →
          (∀ f, f = .fifoFull ∨ f = .other ∧ r.mode = 1 → gives (.frameReceived p f) fun b' => (b'.tilth 0x07 (portLoc p).toNat).spec1 = sat32 (b.tilth 0x07 (portLoc p).toNat).spec1 ∧
            b'.io = b.io ∧ b'.mem = b.mem) ∧
          (∀ f, f = .roce ∨ f = .tcp ∨ f = .neighbour ∨ f = .other ∧ r.mode ≠ 1 → exec (.frameReceived p f) s = .next s))) ∧
      (b.portExists p = false → exec (.receiverDetected p) s = .next s ∧ exec (.trainingTimeout p) s = .next s ∧ exec (.holdExpiry p) s = .next s)) ∧
  (∀ (s : State) (base : BitVec 32) (m : Fin 2) (r : FarRange),
      let b := s.body
      let other (r' : FarRange) (b' : Body) : Prop := b'.mem.ranges = (b.mem.ranges.map fun q => if q.base = r.base then r' else q) ∧ b'.mem.cells = b.mem.cells ∧ b'.strands = b.strands ∧
        (b.ctl.mode ≠ .split → b'.ctl.mode = if b'.exposedRows.any id then .exposed else .operating)
      b.mem.ranges.find? (fun q => q.base = base.toNat) = some r → b.serving = true →
        (r.fstate = 0 → ∃ b' : Body, exec (.farMemberLost base m) s = .next { s with body := b' } ∧ other { r with fstate := 1, lost := some m } b' ∧
          ∀ i, Recorded b b' i (portLoc (r.port m)) 0x0303 (dataOf [(4, r.base)])) ∧
        (r.fstate = 1 ∨ r.fstate = 2 → r.lost ≠ some m → ∃ b' : Body, exec (.farMemberLost base m) s = .next { s with body := b' } ∧ other { r with fstate := 3 } b') ∧
        (r.fstate = 2 → r.lost = some m → ∃ b' : Body, exec (.farMemberLost base m) s = .next { s with body := b' } ∧ other { r with fstate := 1 } b') ∧
        (r.fstate = 3 → exec (.farMemberLost base m) s = .next s) ∧
        (r.fstate = 2 → (b.mem.ranges.filter fun q => q.base = r.base) = [r] → ∃ b' : Body, exec (.farCopyDone base) s = .next { s with body := b' } ∧ other { r with fstate := 0, lost := none } b' ∧
          ∀ i, Recorded b b' i (portLoc (r.port (r.lost.getD 0))) 0x0304 (dataOf [(4, r.base)])) ∧
        (r.fstate ≠ 2 → exec (.farCopyDone base) s = .next s))

/-! ## Faults -/

/-- Errors of a core, a cache, a hub copy and a channel engine (R255, R421 to R428): a micro-word that its check bits correct is counted and no more; an error that its retry puts right changes no strand, but that a customer routine outside a sealed span begins again at its last commit, and is counted; a retry that fails within a second of another declares the core failing. An L2 or L3 line is
corrected, or leaves the cache and is lost when it was the only copy; a scratchpad line is corrected, or lost and recorded with kind 3; a hub copy that cannot be corrected goes out of service and the module is EXPOSED; an engine whose retry fails enters its check bank. A failing core that is assignable gives its strands to the spare chosen by cluster, die and half: the spare's strands are those of the core,
with their reservations ended, the core is out of service with its domain off, and every name of its strands follows. A spare that fails leaves service. PROVING_ROUND counts the round of its unit: a spare that fails two in a row leaves service; an engine in service that fails becomes suspect or leaves until the next PROVING; one out of service that passes 30 in a row returns (R429, R430). ENGINE_IDLE_TIMEOUT puts an engine that has had no job for a second into the
loop. A scrub read that meets a correctable line counts it, and one that finds a clean line changes nothing (R431). STACK_FAILED fails the stack once and records it (R434). PARITY_WRITEBACK takes the line out of the parity cache (R433). -/
def Obligations.CoresUnitsAndStacks : Prop :=
  (∀ (s : State) (t : StrandId) (u : ErrUnit),
      let b := s.body
      let c := coreOf t
      let key := (coreLoc c).toNat
      let now := b.tod (halfOfCore c)
      let ts := ((b.ctl.cores[c]).retries ++ [now]).filter fun x => now ≤ x + 1000000000
      let erred (failed : Bool) (f : Body → Prop) : Prop := ∃ b' : Body, exec (.transientError (.strand t) u failed) s = .next { s with body := b' } ∧ f b'
      let still (b' : Body) : Prop := b'.strands = b.strands ∧ b'.mem = b.mem ∧ b'.io = b.io ∧ (u ≠ .array → b'.cores = b.cores)
      (∀ failed, u = .microWord true → b.serving = true → (b.strand t).run = .running → erred failed fun b' => still b' ∧ b'.ctl.cores = b.ctl.cores ∧
        b'.tilth 1 key = { b.tilth 1 key with corr := sat32 (b.tilth 1 key).corr, spec1 := sat32 (b.tilth 1 key).spec1 }) ∧
      (u ≠ .microWord true → b.serving = true → (b.strand t).run = .running →
        ((b.strand t).micro = none ∨ (b.strand t).inSpan = true → erred false fun b' => still b' ∧ b'.ctl.cores = b.ctl.cores ∧
          b'.tilth 1 key = { b.tilth 1 key with uncorr := sat32 (b.tilth 1 key).uncorr, retry := sat32 (b.tilth 1 key).retry }) ∧
        ((b.strand t).micro ≠ none → (b.strand t).inSpan = false → erred false fun b' => b'.strand t = { (b.strand t).abandon with act := .ready } ∧ b'.mem = b.mem ∧ b'.io = b.io) ∧
        (ts.length < 2 → (b.strand t).micro = none → erred true fun b' => still b' ∧ (b'.ctl.cores[c]).retries = ts ∧ (b'.ctl.cores[c]).role = (b.ctl.cores[c]).role) ∧
        (2 ≤ ts.length → (b.ctl.cores[c]).role = .spare → erred true fun b' => (b'.ctl.cores[c]).role = .out ∧ b'.domainOn c.val = false) ∧
        (∀ k : CoreId, 2 ≤ ts.length → (b.ctl.cores[c]).role = .assignable → b.chooseSpare c = some k → k ≠ c → (∀ i : Fin 4, (b.strand (strandOf c i)).micro = none) → erred true fun b' =>
          (b'.ctl.cores[c]).role = .out ∧ (b'.ctl.cores[k]).role = .assignable ∧ b'.domainOn c.val = false ∧
          (∀ i : Fin 4, let old := b.strand (strandOf c i)
            let new := b'.strand (strandOf k i)
            new.g = old.g ∧ new.k = old.k ∧ new.q = old.q ∧ new.f = old.f ∧ new.status = old.status ∧ new.pc = old.pc ∧ new.resv = none ∧ new.asid = old.asid ∧ new.tl = old.tl)))) ∧
  (∀ (s : State) (c : ClusterId) (h : HubId) (n : Fin 16) (k : HubCopy) (l : Line) (u : ErrUnit) (failed : Bool),
      let b := s.body
      let k2 := (clusterLoc c 0x18).toNat
      let k5 := (chanLoc h n).toNat
      let gives (e : ErrSite) (v : ErrUnit) (x : Bool) (f : Body → Prop) : Prop := ∃ b' : Body, exec (.transientError e v x) s = .next { s with body := b' } ∧ b'.mem.cells = b.mem.cells ∧ f b'
      b.serving = true →
        (∀ slot e, (b.cluster c).find l = some (slot, e) → e.st ≠ .le →
          gives (.l2 c l false) u failed (fun b' => b'.clusters = b.clusters ∧ b'.strands = b.strands ∧ b'.tilth 2 k2 = { b.tilth 2 k2 with corr := sat32 (b.tilth 2 k2).corr }) ∧
          (e.locked = false → gives (.l2 c l true) u failed fun b' => tGet (b'.cluster c).l2 slot = none ∧ (e.st = .m → b'.poisoned l = true))) ∧
        (∀ d slot e, b.l3Has l = some (d, slot, e) →
          gives (.l3 l false) u failed (fun b' => b'.dies = b.dies ∧ b'.strands = b.strands ∧
            b'.tilth 3 (dieLoc d (l3Slice l)).toNat = { b.tilth 3 (dieLoc d (l3Slice l)).toNat with corr := sat32 (b.tilth 3 (dieLoc d (l3Slice l)).toNat).corr }) ∧
          gives (.l3 l true) u failed fun b' => tGet (b'.die d).l3 slot = none ∧ b'.strands = b.strands ∧ (e.dirty = true → b'.poisoned l = true)) ∧
        (∀ m : Fin 32768, m.val * 128 < (b.cluster c).spadLimit → (b.cluster c).spadLost.contains m.val = false →
          gives (.spad c m false) u failed (fun b' => b'.clusters = b.clusters ∧ b'.strands = b.strands ∧ b'.tilth 2 k2 = { b.tilth 2 k2 with corr := sat32 (b.tilth 2 k2).corr }) ∧
          gives (.spad c m true) u failed fun b' => (b'.cluster c).spadLost = (b.cluster c).spadLost ++ [m.val] ∧ b'.strands = b.strands ∧
            ∀ i, Recorded b b' i (clusterLoc c 0x18) 0x0301 (dataOf [(1, 3), (7, 0), (8, spadBase + m.val * 128)])) ∧
        exec (.transientError (.copy h k false) u failed) s = .next s ∧
        (b.isSplit = false → b.ctl.lostHubs = [] → b.ctl.hubCopies = [] →
          gives (.copy h k true) u failed fun b' => b'.ctl.hubCopies = [(h, k)] ∧ b'.ctl.mode = .exposed ∧ b'.strands = b.strands ∧ b'.io = b.io) ∧
        (b.chanUp h n = true →
          gives (.chan h n) (.microWord true) failed (fun b' => b'.io = b.io ∧ b'.strands = b.strands ∧ b'.tilth 5 k5 = { b.tilth 5 k5 with corr := sat32 (b.tilth 5 k5).corr }) ∧
          (u ≠ .microWord true →
            gives (.chan h n) u false (fun b' => b'.io = b.io ∧ b'.strands = b.strands ∧
              b'.tilth 5 k5 = { b.tilth 5 k5 with uncorr := sat32 (b.tilth 5 k5).uncorr, retry := sat32 (b.tilth 5 k5).retry }) ∧
            ((b.chan h n).bank ≠ 3 → gives (.chan h n) u true fun b' => b'.chan h n = (b.chan h n).enter 3 ∧ b'.strands = b.strands)))) ∧
  (∀ (s : State) (c : CoreId) (h : HubId) (n : Fin 16) (test : BitVec 16) (m : StackId) (l : Line) (row : Nat) (cause : Byte),
      let b := s.body
      let g := b.chan h n
      let u := b.ctl.cores[c]
      let pa := lineAddr l
      let mc := (controllerLoc (homeStacks pa).1).toNat
      let gives (i : Instr) (f : Body → Prop) : Prop := ∃ b' : Body, exec i s = .next { s with body := b' } ∧ b'.strands = b.strands ∧ f b'
      (b.serving = true →
        (u.role = .spare → gives (.provingRound (.core c) true test) fun b' => b'.ctl.cores[c] = { u with consec := 0 } ∧
          (b'.tilth 1 (coreLoc c).toNat).passed = sat32 (b.tilth 1 (coreLoc c).toNat).passed) ∧
        (u.role = .spare → u.consec = 0 → gives (.provingRound (.core c) false test) fun b' => b'.ctl.cores[c] = { u with consec := 1 } ∧
          (b'.tilth 1 (coreLoc c).toNat).failed = sat32 (b.tilth 1 (coreLoc c).toNat).failed) ∧
        (u.role = .spare → u.consec = 1 → gives (.provingRound (.core c) false test) fun b' => (b'.ctl.cores[c]).role = .out ∧ b'.domainOn c.val = false) ∧
        (u.role ≠ .spare → ∀ pass, exec (.provingRound (.core c) pass test) s = .next s) ∧
        (b.ctl.lostHubs.contains h = false → g.proving = true → (g.service = .suspect ∨ g.service = .checkStopped) →
          (g.rounds + 1 < 30 → gives (.provingRound (.chan h n) true test) fun b' => b'.chan h n = { g with rounds := g.rounds + 1 }) ∧
          (30 ≤ g.rounds + 1 → gives (.provingRound (.chan h n) true test) fun b' => b'.chanUp h n = true ∧ (b'.chan h n).rounds = 0) ∧
          gives (.provingRound (.chan h n) false test) fun b' => (b'.chan h n).service = .outUntilProving) ∧
        (g.proving = true → g.service = .inService → b.ctl.lostHubs.contains h = false →
          ∃ b' : Body, exec (.provingRound (.chan h n) false test) s = .next { s with body := b' } ∧ (b'.chan h n).service ≠ .inService) ∧
        (b.chanUp h n = true → b.outstanding = [] → g.lastJob + 1000000000 < 2 ^ 64 →
          gives (.engineIdleTimeout (.chan h n)) fun b' => b'.chan h n = { g with proving := true } ∧ g.lastJob + 1000000000 ≤ b'.tod h ∧ b'.mem = b.mem) ∧
        (b.chanUp h n = false → exec (.engineIdleTimeout (.chan h n)) s = .next s) ∧
        exec (.scrubRead l .clean) s = .next s ∧
        (pa < memoryEnd → b.ctl.lostDies = [] → b.ctl.lostHubs = [] → ∀ o, o = .onDie ∨ o = .ecc → gives (.scrubRead l o) fun b' =>
          b'.mem = b.mem ∧ b'.io = b.io ∧ b'.tilth 4 mc = { b.tilth 4 mc with corr := sat32 (b.tilth 4 mc).corr, spec0 := sat32 (b.tilth 4 mc).spec0 })) ∧
      ((b.ctl.mode = .operating ∨ b.ctl.mode = .exposed) → (cause = 1 ∨ cause = 2) → (b.mem.hbm[m]).failed = false → gives (.stackFailed m cause) fun b' =>
        b'.mem = { b.mem with hbm := b.mem.hbm.set m { b.mem.hbm[m] with failed := true } } ∧ b'.ctl.mode = .exposed ∧
          ∀ i, Recorded b b' i (stackLoc m) 0x0302 (dataOf [(1, cause.toNat)])) ∧
      ((b.mem.hbm[m]).failed = true → exec (.stackFailed m cause) s = .next s) ∧
      gives (.parityWriteback m row) fun b' => b'.mem = { b.mem with parity := b.mem.parity.filter fun q => q != (m, row) } ∧ b'.io = b.io ∧ b'.ctl = b.ctl)

/-- The bridge and the feeds. The loss of a bundle leaves the other one, which carries every transfer from then on and those in flight again, with their sequence numbers and in their places (R15, R16), and the module EXPOSED; a bundle that retrains begins its test traffic, and 10 s of it readmit the bundle (R439). A window in which 24 phases of a feed's pairs are flagged loses the feed; feed proving that fails loses it too; a feed whose
proving passes is admitted again (R440 to R442). Every change settles the mode by R445. -/
def Obligations.BundlesAndFeeds : Prop :=
  ∀ (s : State) (n : BundleId) (f : FeedId),
    let b := s.body
    let o : BundleId := if n = 0 then 1 else 0
    let e : FeedId := if f = 0 then 1 else 0
    let gives (i : Instr) (P : Body → Prop) : Prop := ∃ b' : Body, exec i s = .next { s with body := b' } ∧ b'.strands = b.strands ∧ b'.mem = b.mem ∧ P b'
    let settled (b' : Body) : Prop := b'.ctl.mode = if b'.exposedRows.any id then .exposed else .operating
    let rerouted (x : Option Crossing) : Option Crossing := x.map fun k => if k.bundle = n then { k with bundle := o } else k
    (b.ctl.mode = .operating ∨ b.ctl.mode = .exposed) →
      (b.ctl.bundles[n] = true → b.ctl.bundles[o] = true → ∃ b' : Body, exec (.bundleLost n) s = .next { s with body := b' } ∧ b'.strands = b.strands ∧ b'.ctl.bundles[n] = false ∧ b'.ctl.bundles[o] = true ∧ b'.ctl.mode = .exposed ∧
        b'.mem = { b.mem with reqs := b.mem.reqs.map fun r => { r with via := rerouted r.via }, departing := b.mem.departing.map fun d => { d with via := rerouted d.via } } ∧
        (∀ l : Option Line, b'.bundleFor l = some o) ∧
        ∀ i, Recorded b b' i (hubLoc b.ctl.steering (0x34 + n.val)) 0x0504 (dataOf [(1, n.val)])) ∧
      (b.ctl.bundles[n] = false → b.ctl.lostHubs = [] →
        (b.ctl.bundleTest[n] = none → gives (.bundleRetrain n true) fun b' => b'.ctl.bundleTest[n] = some (b.tod b.ctl.steering) ∧ b'.ctl.bundles = b.ctl.bundles) ∧
        gives (.bundleRetrain n false) (fun b' => b'.ctl.bundleTest[n] = none ∧ b'.ctl.bundles = b.ctl.bundles) ∧
        (∀ t, b.ctl.bundleTest[n] = some t → t + 10000000000 < 2 ^ 64 → gives (.bundleReadmitted n) fun b' => b'.ctl.bundles[n] = true ∧ t + 10000000000 ≤ b'.tod b.ctl.steering ∧ settled b' ∧
          ∀ i, Recorded b b' i (hubLoc b.ctl.steering (0x34 + n.val)) 0x0505 (dataOf [(1, n.val)]))) ∧
      (b.ctl.bundleTest[n] = none → exec (.bundleReadmitted n) s = .next s) ∧
      (∀ x y : Fin 97, x.val + y.val ≤ 96 → x.val < 24 → y.val < 24 → gives (.feedCurrentWindow x y) fun b' =>
        (b'.ctl.feeds[(0 : FeedId)]).flagged = x.val ∧ (b'.ctl.feeds[(1 : FeedId)]).flagged = y.val ∧
        (b'.ctl.feeds[(0 : FeedId)]).admitted = (b.ctl.feeds[(0 : FeedId)]).admitted ∧ (b'.ctl.feeds[(1 : FeedId)]).admitted = (b.ctl.feeds[(1 : FeedId)]).admitted ∧ b'.ctl.mode = b.ctl.mode) ∧
      (∀ x y : Fin 97, x.val + y.val ≤ 96 → (24 ≤ x.val ↔ f = 0) → (24 ≤ y.val ↔ f = 1) → (b.ctl.feeds[f]).admitted = true → (b.ctl.feeds[e]).admitted = true →
        ∃ b' : Body, exec (.feedCurrentWindow x y) s = .next { s with body := b' } ∧ (b'.ctl.feeds[f]).admitted = false ∧ (b'.ctl.feeds[e]).admitted = true) ∧
      (b.stewardsUp = true → (b.ctl.feeds[f]).admitted = true → (b.ctl.feeds[e]).admitted = true → b.ctl.lastProve.toNat + 60000000000 < 2 ^ 64 →
        (gives (.feedProving true true) fun b' => b'.ctl.feeds = b.ctl.feeds ∧ b.ctl.lastProve.toNat + 60000000000 ≤ b'.tod b.ctl.steering) ∧
        ∃ b' : Body, exec (.feedProving (decide (f ≠ 0)) (decide (f ≠ 1))) s = .next { s with body := b' } ∧ (b'.ctl.feeds[f]).admitted = false ∧ (b'.ctl.feeds[e]).admitted = true) ∧
      ((b.ctl.feeds[f]).present = true → (b.ctl.feeds[f]).closed = true → (b.ctl.feeds[f]).admitted = false →
        gives (.feedAdmitted f true) (fun b' => (b'.ctl.feeds[f]).admitted = true ∧ settled b' ∧ ∀ i, Recorded b b' i b.moduleLoc 0x0103 (dataOf [(1, f.val)])) ∧
        ∃ b' : Body, exec (.feedAdmitted f false) s = .next { s with body := b' } ∧ (b'.ctl.feeds[f]).admitted = false) ∧
      ((b.ctl.feeds[f]).admitted = true → ∀ pass, exec (.feedAdmitted f pass) s = .next s)

/-- Islands and stewards. A heartbeat comes 1 ms after the one before, and 5 ms without one let the shadow island take over, with TAKEOVER recorded in MGMT_FAULT (R443). A management port that fails ends its connections (R444). A frame with a good copy on an island or cluster link changes nothing; a repeat with none fails the
link (R26, R28). MANAGEMENT_REPAIRED and HUB_COPY_REBUILT put the repaired unit back and settle the mode (R445). What is lost with a cluster or a die. CLUSTER_LOST, after the failure of its link: its cores are out of service, its domain and theirs are off, its strands that ran stop with a strand-check record of kind 9 (R28). DIE_LOST: the strands of the die's clusters stop so, and the module is EXPOSED
(R446; that their kind is 9 is the model's choice of log entry 17). HUB_LOST: both bundles of the bridge are gone and the hub is lost (R447). None of them happens twice. -/
def Obligations.StewardsClustersDiesAndHubs : Prop :=
  (∀ (s : State) (h : HubId) (c : ClusterId) (x : HubCopy),
      let b := s.body
      let d := b.ctl.steering
      let o := otherHub d
      let gives (i : Instr) (P : Body → Prop) : Prop := ∃ b' : Body, exec i s = .next { s with body := b' } ∧ b'.strands = b.strands ∧ b'.mem = b.mem ∧ P b'
      let settled (b' : Body) : Prop := b'.ctl.mode = if b'.exposedRows.any id then .exposed else .operating
      (b.islandUp d = true → b.ctl.lastBeat + 1000000 < 2 ^ 64 → gives .heartbeat fun b' => b.ctl.lastBeat + 1000000 ≤ b'.tod d ∧ b'.ctl.lastBeat = b'.tod d ∧ b'.io = b.io) ∧
      (b.islandUp d = false → exec .heartbeat s = .next s) ∧
      ((b.ctl.mode = .operating ∨ b.ctl.mode = .exposed) →
        (b.stewardsUp = true → b.islandUp d = true → b.islandUp o = true → b.ctl.lastBeat + 5000000 < 2 ^ 64 → gives .islandTakeover fun b' =>
          b'.ctl.steering = o ∧ (b'.ctl.islands[d]).failed = true ∧ b'.ctl.mode = .exposed ∧ b.ctl.lastBeat + 5000000 ≤ b'.tod o ∧
            Recorded b b' o (islandLoc d) 0x0105 (dataOf [(1, 0), (1, d.val), (1, 1)])) ∧
        (b.islandUp o = false → exec .islandTakeover s = .next s) ∧
        ((b.ctl.islands[h]).powered = true → (b.ctl.islands[h]).portFailed = false → gives (.mgmtPortFailed h) fun b' =>
          (b'.ctl.islands[h]).portFailed = true ∧ (∀ k ∈ b'.ctl.conns, k.2.port ≠ h) ∧ b'.ctl.mode = .exposed ∧ ∀ i, Recorded b b' i (hubLoc h 0x33) 0x0105 (dataOf [(1, 1), (1, h.val)])) ∧
        (b.islandUp d = true → b.ctl.lostHubs = [] →
          ((b.ctl.islands[h]).portFailed = true → gives (.managementRepaired (.port h)) fun b' => (b'.ctl.islands[h]).portFailed = false ∧ settled b') ∧
          (b.ctl.islandLink = false → gives (.managementRepaired .islandLink) fun b' => b'.ctl.islandLink = true ∧ settled b') ∧
          ((b.ctl.hubCopies.contains (h, x)) = true → gives (.hubCopyRebuilt h x) fun b' => b'.ctl.hubCopies = b.ctl.hubCopies.filter (fun y => y != (h, x)) ∧ settled b' ∧
            (x = .journal → b'.io.journal[h] = b.io.journal[otherHub h]) ∧ (x = .keyTable → b'.io.keys[h] = b.io.keys[otherHub h]))) ∧
        ((b.ctl.hubCopies.contains (h, x)) = false → exec (.hubCopyRebuilt h x) s = .next s) ∧
        (b.stewardsUp = true → b.ctl.failedLinks.contains c = false → b.ctl.lostClusters.contains c = false →
          (∀ p q r, p = true ∨ q = true → exec (.stewardFrame (.cluster c) p q r) s = .next s) ∧
          exec (.stewardFrame (.cluster c) false false false) s = .next s ∧
          gives (.stewardFrame (.cluster c) false false true) fun b' => b'.ctl.failedLinks = b.ctl.failedLinks ++ [c] ∧ b'.ctl.mode = .exposed))) ∧
  (∀ (s : State) (c : ClusterId) (d : CDieId) (h : HubId),
      let b := s.body
      let stopped (b' : Body) (t : StrandId) : Prop := (b.strand t).run = .running → (b'.strand t).run = .stopped ∧ ∃ k, (b'.strand t).check = some k ∧ k.cause = 0x31 ∧ k.info1 = 9
      (b.ctl.mode = .operating ∨ b.ctl.mode = .exposed) →
        (b.ctl.failedLinks.contains c = true → b.ctl.lostClusters.contains c = false → ∃ b' : Body, exec (.clusterLost c) s = .next { s with body := b' } ∧
          b'.ctl.lostClusters = b.ctl.lostClusters ++ [c] ∧ b'.ctl.mode = .exposed ∧ b'.domainOn (144 + c.val) = false ∧
          (∀ k ∈ coresOf c, (b'.ctl.cores[k]).role = .out ∧ b'.domainOn k.val = false) ∧ ∀ t ∈ strandsOfCluster c, stopped b' t) ∧
        (b.ctl.failedLinks.contains c = false ∨ b.ctl.lostClusters.contains c = true → exec (.clusterLost c) s = .next s) ∧
        (b.ctl.lostDies.contains d = false → ∃ b' : Body, exec (.dieLost d) s = .next { s with body := b' } ∧ b'.ctl.lostDies = b.ctl.lostDies ++ [d] ∧ b'.ctl.mode = .exposed ∧
          ∀ k ∈ clustersOfDie d, ∀ t ∈ strandsOfCluster k, stopped b' t) ∧
        (b.ctl.lostDies.contains d = true → exec (.dieLost d) s = .next s) ∧
        (b.ctl.lostHubs.contains h = false → ∃ b' : Body, exec (.hubLost h) s = .next { s with body := b' } ∧ b'.ctl.lostHubs = b.ctl.lostHubs ++ [h] ∧ b'.ctl.mode = .exposed ∧
          b'.ctl.bundles[(0 : BundleId)] = false ∧ b'.ctl.bundles[(1 : BundleId)] = false ∧ (b'.ctl.islands[h]).failed = true) ∧
        (b.ctl.lostHubs.contains h = true → exec (.hubLost h) s = .next s))

/-! ## SPLIT -/

/-- SPLIT (R452 to R467). The loss of the second bundle splits the module, and no half has a half-state. The grant, which the island that does not steer has over the island link, makes its half LEAD and the other one FENCED; 5 ms without a word, with no grant yet taken or no island link, make the preferred half LEAD when it is healthy, and every other FENCED. A renewal changes nothing. LEAD may use shared targets from 100 ms on.
A bundle error-free for 10 s is ready for rejoin. When the copy of a mirrored partition ends, its placement is in force. When rejoin ends, the halves are one module with one time, one journal and one key table, and LEAD steers; no strand is stopped, and none is changed but for a reservation on a line that a mirrored copy overwrites. A steering island that hears no steward for 100 ms enters STANDBY (R488). -/
def Obligations.SplitAndRejoin : Prop :=
  ∀ (s : State) (h g : HubId) (n : BundleId) (p : Byte),
    let b := s.body
    let gives (i : Instr) (f : Body → Prop) : Prop := ∃ b' : Body, exec i s = .next { s with body := b' } ∧ f b'
    ((b.ctl.mode = .operating ∨ b.ctl.mode = .exposed) → b.ctl.bundles[n] = true → (∀ k : BundleId, k ≠ n → b.ctl.bundles[k] = false) → b.ctl.lostHubs = [] →
      gives (.bundleLost n) fun b' => b'.ctl.mode = .split ∧ (∀ i : HubId, (b'.ctl.halves[i]).half = .none ∧ (b'.ctl.silt[i]).frozen.isSome = true)) ∧
    (b.ctl.mode = .split → (b.ctl.halves[h]).half = .none → b.islandUp h = true →
      (g = b.grantee s.cfg.preferred → h = b.ctl.steering ∨ b.ctl.islandLink = true → gives (.leaseGrant h g) fun b' => (b'.ctl.halves[h]).half = (if g = h then .lead else .fenced) ∧ b'.ctl.mode = .split) ∧
      (g ≠ b.grantee s.cfg.preferred ∨ h ≠ b.ctl.steering ∧ b.ctl.islandLink = false → exec (.leaseGrant h g) s = .next s) ∧
      (b.granted = none ∨ b.ctl.islandLink = false → (b.ctl.halves[h]).entered + 5000000 < 2 ^ 64 → gives (.leaseTimeout h) fun b' =>
        (b'.ctl.halves[h]).half = (if h = s.cfg.preferred ∧ b.healthy h = true then .lead else .fenced) ∧ (b.ctl.halves[h]).entered + 5000000 ≤ b'.tod h)) ∧
    ((b.ctl.halves[h]).half ≠ .none → exec (.leaseGrant h g) s = .next s ∧ exec (.leaseTimeout h) s = .next s) ∧
    exec .leaseRenewal s = .next s ∧
    (b.ctl.mode = .split → (b.ctl.halves[h]).half = .lead → (∀ i : HubId, i ≠ h → (b.ctl.halves[i]).half ≠ .lead) → (b.ctl.halves[h]).entered + 100000000 < 2 ^ 64 →
      gives .sharedTargetDelay fun b' => (b'.ctl.halves[h]).sharedOk = true ∧ (b.ctl.halves[h]).entered + 100000000 ≤ b'.tod h) ∧
    (∀ t, b.ctl.mode = .split → b.ctl.bundleTest[n] = some t → t + 10000000000 < 2 ^ 64 →
      gives (.rejoinReady n) fun b' => b'.ctl.bundleReady[n] = true ∧ t + 10000000000 ≤ b'.tod b.ctl.steering ∧ b'.strands = b.strands ∧ b'.mem = b.mem ∧ b'.io = b.io) ∧
    (∀ t, (b.part p).copying = some t → (b.ctl.mode = .operating ∨ b.ctl.mode = .exposed) →
      gives (.mirrorCopyDone p) fun b' => (b'.part p).place = 3 ∧ (b'.part p).copying = none ∧ (∀ x ∈ b'.ctl.tickets, x.num = t → x.result ≠ none)) ∧
    ((b.part p).copying = none → exec (.mirrorCopyDone p) s = .next s) ∧
    (∀ t, b.ctl.mode = .split → b.ctl.rejoin = some (t, h) → gives .rejoinCopyDone fun b' =>
      b'.ctl.mode = (if b'.exposedRows.any id then .exposed else .operating) ∧ b'.ctl.steering = h ∧ b'.ctl.rejoin = none ∧ (∀ i : HubId, (b'.ctl.halves[i]).half = .none) ∧
        b'.tod 0 = b'.tod 1 ∧ b'.io.journal[(0 : HubId)] = b'.io.journal[(1 : HubId)] ∧ b'.io.keys[(0 : HubId)] = b'.io.keys[(1 : HubId)] ∧ (∀ i, b'.strand i = b.strand i ∨ b'.strand i = (b.strand i).endResv) ∧
        ((∀ e ∈ b.io.parts, e.2.place ≠ 3) → b'.strands = b.strands)) ∧
    (b.ctl.rejoin = none → exec .rejoinCopyDone s = .next s) ∧
    (b.ctl.mode ≠ .standby → b.islandUp b.ctl.steering = true → gives .stewardSilence fun b' => b'.ctl.mode = .standby ∧ ∀ f : FeedId, (b'.ctl.feeds[f]).admitted = false ∧ (b'.ctl.feeds[f]).closed = false)

/-! ## Starting, proving and the package -/

/-- How the module starts (R472 to R477). A dark island with a source boots into STANDBY, its time the saved one plus 61 s, and steers. AUTOSTART closes the switches, no sooner than 1 s after the entry to STANDBY and 10 s after the attempt before; after 3 s without a steward they open again. The first frame of a die steward begins
PROVING at step 1, with the configured octets. A step without findings is followed by the next one, with every rail at its floor in step 3 and at 0.80 V after it (that the rails move at the step's ends is the model's choice of log entry 15), step 4 by step 6, with a fresh storage key in slot 0; step 7 decides the coverage: the cores' roles, or FALLOW. 180 s of PROVING end in FALLOW with reason 9. -/
def Obligations.StartingAndProving : Prop :=
  ∀ (s : State) (h : HubId) (f : FeedId) (straps : BitVec 3) (d : Fin 6) (present : Bool) (farUp : List (PortId × Nat)) (test : BitVec 16),
    let b := s.body
    let none' : Findings :=
      { cores := [], clusters := [], hbm := [], dies := [], chans := [], engines := [], bundles := [], feeds := [], islands := [], mgmtPorts := [], octets := [], links := [],
        farUp := farUp, test := test }
    let gives (i : Instr) (P : Body → Prop) : Prop := ∃ b' : Body, exec i s = .next { s with body := b' } ∧ P b'
    gives (.islandSupplyChange h present) (fun b' => (b'.ctl.islands[h]).supply = present ∧
      (present = false → b.anyFeed = false → (b.ctl.islands[otherHub h]).supply = false → ∀ i : HubId, (b'.ctl.islands[i]).powered = false)) ∧
    gives (.feedApplied f present) (fun b' => (b'.ctl.feeds[f]).present = present) ∧
    ((b.ctl.islands[h]).powered = false → (b.ctl.islands[h]).failed = false → b.sourced h = true → b.islandUp (otherHub h) = false → gives (.darkStart h straps) fun b' =>
      (b'.ctl.islands[h]).powered = true ∧ b'.ctl.steering = h ∧ (∀ i : HubId, b'.ctl.tod[i] = b.ctl.savedTod + 61000000000) ∧ b'.ctl.slot = straps ∧ b'.mem = b.mem ∧ b'.io = b.io) ∧
    (b.ctl.mode = .standby → b.islandUp b.ctl.steering = true → s.cfg.autostart = true → b.ctl.offHold = false → b.ctl.attempt = false → b.ctl.standbySince + 1000000000 < 2 ^ 64 →
      (∀ t, b.ctl.attemptAt = some t → t + 10000000000 < 2 ^ 64) → gives .startAttempt fun b' =>
        b'.ctl.attempt = true ∧ (∀ i : FeedId, (b'.ctl.feeds[i]).closed = true) ∧ b.ctl.standbySince + 1000000000 ≤ b'.tod b.ctl.steering ∧
          (∀ t, b.ctl.attemptAt = some t → t + 10000000000 ≤ b'.tod b.ctl.steering) ∧ b'.ctl.attemptAt = some (b'.tod b.ctl.steering)) ∧
    (b.ctl.mode = .standby → b.ctl.attempt = true → gives .startAttemptTimeout fun b' => b'.ctl.attempt = false ∧ b'.ctl.startTickets = [] ∧ ∀ i : FeedId, (b'.ctl.feeds[i]).closed = false) ∧
    (b.ctl.attempt = false → exec .startAttempt { s with cfg := { s.cfg with autostart := false } } = .next { s with cfg := { s.cfg with autostart := false } }) ∧
    (b.ctl.mode = .standby → b.ctl.attempt = true → b.stewardsUp = true → b.ctl.failedWires.contains (.nearDie d) = false → ∀ copyB rep, gives (.stewardFrame (.nearDie d) true copyB rep) fun b' =>
      b'.ctl.mode = .proving ∧ b'.ctl.step = 1 ∧ b'.io.octets = s.cfg.octets ∧ (∀ i : FeedId, (b'.ctl.feeds[i]).admitted = (b.ctl.feeds[i]).present)) ∧
    (b.ctl.mode = .proving →
      (b.ctl.step = 1 → gives (.provingStepComplete none') fun b' => b' = { b with ctl := { b.ctl with step := 2 } }) ∧
      (∀ k, k = 2 ∨ k = 3 → b.ctl.step = k → gives (.provingStepComplete none') fun b' => b'.ctl.step = k + 1 ∧ b'.ctl.mode = .proving ∧ b'.strands = b.strands ∧ b'.mem = b.mem ∧ b'.io = b.io ∧
        (∀ i : DomainId, i.val < 230 → b'.domain i.val = { b.domain i.val with rail := (b'.domain i.val).rail, changed := (b'.domain i.val).changed, moveFrom := (b'.domain i.val).moveFrom, moveAt := (b'.domain i.val).moveAt } ∧
          (b'.domain i.val).rail = if k = 2 then clampRail s.cfg i.val 0 else 800)) ∧
      (b.ctl.step = 4 → gives (.provingStepComplete none') fun b' => b'.ctl = { b.ctl with step := 6 } ∧ (tGet b'.mem.slots 0).map (·.length) = some 64 ∧ b'.mem.cells = b.mem.cells) ∧
      (b.ctl.step = 7 → b.fallowRow = none → gives (.provingStepComplete none') fun b' => b'.ctl.step = 8 ∧ b'.ctl.mode = .proving ∧
        ∀ c : CoreId, ((b'.ctl.cores[c]).role = .out ↔ b.ctl.badCores.contains c = true)) ∧
      (∀ reason loc, b.ctl.step = 7 → b.fallowRow = some (reason, loc) → gives (.provingStepComplete none') fun b' => b'.ctl.mode = .fallow ∧ b'.ctl.reason = reason ∧ b'.ctl.reasonLoc = loc ∧
        ∀ t : StrandId, b'.strand t = {}) ∧
      (b.ctl.provingSince + 180000000000 < 2 ^ 64 → gives .provingTimeout fun b' => b'.ctl.mode = .fallow ∧ b'.ctl.reason = 9 ∧ b'.ctl.reasonLoc = 0xFFFF)) ∧
    (b.ctl.mode ≠ .proving → exec (.provingStepComplete none') s = .next s ∧ exec .provingTimeout s = .next s)

/-- The log, the time of day, the reference inputs, pace records and the test port. SILT_EVENT records a known event with the DATA bytes of its code (R518, R521); a retained log goes to flash in front of at most 15 older ones (R524); CS.TOD is saved 60 s after the save before (R532); a reference that is lost is recorded (R545); a pace window leaves
the record of its domain (R37, R39); a stack above 85 degrees refreshes at double rate (R551); the TAP controller follows TMS at a rising edge of TCK while the port is open, and five edges with TMS 1 reset it; TDO takes a free bit at a falling edge while the controller shifts, and is high impedance else (R546, R549). Both lamps are on in FALLOW, LAMP_SVC is off in STANDBY, PROVING and OPERATING, and no lamp is on while no island is up (R547). -/
def Obligations.PackageEvents : Prop :=
  ∀ (s : State) (loc code : BitVec 16) (data : BitVec 128) (h : HubId) (d : DomainId) (count : BitVec 32) (temp : BitVec 16) (m : StackId) (above tms tdi : Bool),
    let b := s.body
    let gives (i : Instr) (P : Body → Prop) : Prop := ∃ b' : Body, exec i s = .next { s with body := b' } ∧ b'.strands = b.strands ∧ b'.io = b.io ∧ P b'
    (∀ k, siltBytes code = some k → locValid loc = true → gives (.siltEvent loc code data) fun b' => b'.mem = b.mem ∧ (∀ i, Recorded b b' i loc code (maskData k data)) ∧
      ((code = 0x0401 ∨ code = 0x0102) → b.isSplit = false → ∀ i : HubId, (b'.ctl.silt[i]).frozen.isSome = true)) ∧
    ((siltBytes code = none ∨ locValid loc = false) → exec (.siltEvent loc code data) s = .next s) ∧
    (∀ tod trigger recs, (b.ctl.silt[b.ctl.steering]).writing = some (tod, trigger, recs) → b.ctl.mode = .fallow → gives .retainedLogWritten fun b' =>
      b'.ctl.retained = some { tod := tod, trigger := trigger, recs := recs } :: b.ctl.retained.take 15 ∧ (∀ i : HubId, (b'.ctl.silt[i]).writing = none ∧ (b'.ctl.silt[i]).ring = (b.ctl.silt[i]).ring)) ∧
    ((∀ i : HubId, (b.ctl.silt[i]).writing = none) → exec .retainedLogWritten s = .next s) ∧
    (b.islandUp b.ctl.steering = true → b.ctl.lastSave.toNat + 60000000000 < 2 ^ 64 → gives .todSave fun b' =>
      b'.ctl.savedTod = b'.ctl.tod[b.ctl.steering] ∧ b'.ctl.lastSave = b'.ctl.savedTod ∧ b.ctl.lastSave.toNat + 60000000000 ≤ b'.tod b.ctl.steering ∧ b'.mem = b.mem) ∧
    (b.ctl.refclk[h] = true → (b.ctl.islands[h]).powered = true → gives (.refclkLost h) fun b' => b'.ctl.refclk[h] = false ∧ b'.mem = b.mem ∧ ∀ i, Recorded b b' i (islandLoc h) 0x010A (dataOf [(1, h.val)])) ∧
    (b.ctl.refclk[h] = false → gives (.refclkReturn h) fun b' => b'.ctl.refclk = b.ctl.refclk.set h true ∧ (b.ctl.refclk[otherHub h] = true → b'.mem = b.mem) ∧ b'.mem.poison = b.mem.poison) ∧
    (b.ctl.refclk[h] = true → exec (.refclkReturn h) s = .next s) ∧
    ((b.ctl.islands[domainHalf d.val]).powered = true → 10000 ≤ b.tod (domainHalf d.val) →
      let x := b.domain d.val
      let begun := (b.tod (domainHalf d.val) / 10000 - 1) * 10000
      let st : Byte := if x.changed = true ∨ (x.on = true ∧ begun < x.moveAt + 200 * (max x.moveFrom x.rail.toNat - min x.moveFrom x.rail.toNat)) then 1 else if x.on = true then 2 else 0
      gives (.paceWindow d count temp) fun b' => vget b'.ctl.pace d.val {} = { count := if st = 2 then count else 0, rail := x.rail, temp := temp, st := st, window := BitVec.ofNat 16 (b.tod (domainHalf d.val) / 10000 - 1) } ∧
        b'.domain d.val = { x with changed := false } ∧ b'.mem = b.mem) ∧
    gives (.hbmTempThreshold m above) (fun b' => b'.mem = { b.mem with hbm := b.mem.hbm.set m { b.mem.hbm[m] with refresh2 := above } } ∧ b'.ctl = b.ctl) ∧
    (b.ctl.port.isOpen = true →
      gives (.tck true tms tdi true) (fun b' => b'.ctl = { b.ctl with port := { b.ctl.port with tap := b.ctl.port.tap.next tms } } ∧ b'.mem = b.mem) ∧
      (∀ rising, gives (.tck rising tms tdi false) fun b' => b'.ctl.port = { b.ctl.port with tap := .reset } ∧ b'.mem = b.mem) ∧
      (b.ctl.port.tap.shifting = false → b.ctl.port.tdoLand = none ∧ exec (.tck false tms tdi true) s = .next s) ∧
      (b.ctl.port.tap.shifting = true → gives (.tck false tms tdi true) fun b' => b'.ctl = { b.ctl with port := { b.ctl.port with tdo := b'.ctl.port.tdo } } ∧ b'.ctl.port.tdoLand = some b'.ctl.port.tdo ∧ b'.mem = b.mem)) ∧
    (b.ctl.port.isOpen = false → b.ctl.port.tdoLand = none ∧ ∀ rising trst, exec (.tck rising tms tdi trst) s = .next s) ∧
    (∀ t : HubId → Nat, (b.islandUp h = true → b.ctl.mode = .fallow → ∀ svc, b.lampLow svc t = true) ∧
      (b.ctl.mode = .standby ∨ b.ctl.mode = .proving ∨ b.ctl.mode = .operating → b.lampLow true t = false) ∧
      ((∀ i : HubId, b.islandUp i = false) → ∀ svc, b.lampLow svc t = false)) ∧
    ∀ p : Tap, ((((p.next true).next true).next true).next true).next true = .reset
/-! ## Flelet -/

/-- Connections and sessions (R489, R491, R492, R494, R497). A fifth connection of a port is refused; a session opens with a role that its certificate allows, under a new number other than 0; a closed connection, a session without a packet for 600 s and a connection that its peer ends are gone. A repeated sequence number gets the kept reply again, with
the REPEAT flag; an opcode that is not assigned gets UNKNOWN_OPCODE; a command of another role gets NOT_AUTHORISED and one not legal in the mode NOT_IN_THIS_MODE, each with no effect. A mailbox without a request is left alone. A staging area without data for 600 s is dropped (R507). -/
def Obligations.FleletConnections : Prop :=
  ∀ (s : State) (h island : HubId) (n : Nat) (x : Conn) (p : Packet) (cert : CertKind) (src : FSource) (role : Role),
    let b := s.body
    let next' (i : Instr) (f : Body → Prop) : Prop := ∃ b' : Body, exec i s = .next { s with body := b' } ∧ b'.strands = b.strands ∧ b'.mem = b.mem ∧ b'.io = b.io ∧ f b'
    (b.islandUp h = true → (b.ctl.islands[h]).portFailed = false → ((b.ctl.conns.filter fun e => e.2.port = h).length < 4) → ¬(cert = .neither ∧ s.cfg.anchor.isSome = true) →
      next' (.connectionOpen h cert) fun b' => tGet b'.ctl.conns b.nextConn = some { port := h, cert := cert, session := none, maxSeq := 0, replies := [], lastPacket := b.now } ∧
        tGet b.ctl.conns b.nextConn = none) ∧
    (4 ≤ (b.ctl.conns.filter fun e => e.2.port = h).length → exec (.connectionOpen h cert) s = .next s) ∧
    next' (.connectionEnd n) (fun b' => tGet b'.ctl.conns n = none ∧ b'.ctl.outbox = b.ctl.outbox) ∧
    (tGet b.ctl.conns n = some x → x.session ≠ none → x.lastPacket + 600000000000 < 2 ^ 64 → next' (.sessionTimeout n) fun b' => tGet b'.ctl.conns n = none ∧ x.lastPacket + 600000000000 ≤ b'.tod b.ctl.steering) ∧
    (tGet b.ctl.conns n = some x → x.session = none → exec (.sessionTimeout n) s = .next s) ∧
    (∀ r : Role, b.ctl.genWait = [] → b.ctl.switching = none → b.receiver (.conn n) = some (island, false) → tGet b.ctl.conns n = some x → x.session = none → badLength p = false → badHeader p = false → p.session = 0 →
      p.params = [if r = .owner then 1 else 2] → r ≠ .mailbox → roleOpen s.cfg.anchor.isSome x.cert r = true →
        next' (.sessionOpen (.conn n) p) fun b' => ∃ k y, tGet b'.ctl.conns n = some y ∧ y.session = some (k, r) ∧ k ≠ 0 ∧ y.maxSeq = p.sequence ∧
          b'.ctl.outbox = b.ctl.outbox ++ [(n, replyBytes b island 0x0101 p 0 0 (leBytes 4 k.toNat) false)]) ∧
    (Asked s cmdSessionClose (.conn n) role island p → next' (.sessionClose (.conn n) p) fun b' => tGet b'.ctl.conns n = none ∧
      ∃ more, b'.ctl.outbox = b.ctl.outbox ++ (n, replyBytes b island 0x0102 p 0 0 [] false) :: more) ∧
    (∀ e, b.ctl.genWait = [] → b.ctl.switching = none → b.receiver (.conn n) = some (island, false) → tGet b.ctl.conns n = some x → x.session = some (p.session, role) → badLength p = false → badHeader p = false →
      x.replies.find? (fun y => y.1 = p.sequence) = some e → next' (.getFeeds (.conn n) p) fun b' => b'.ctl.outbox = b.ctl.outbox ++ [(n, e.2.set 3 3)]) ∧
    (∀ op : BitVec 16, (∀ c ∈ allCmds, c.op ≠ op) → Asked s { cmdGetFeeds with lenOk := fun _ => true } src role island p → ∀ c : Cmd, c.op = op → Answers s (.unknownOpcode src op p) c src island p 0x10 [] id) ∧
    (∀ c ∈ allCmds, exec (.unknownOpcode src c.op p) s = .next s) ∧
    (Asked s { cmdSetAutostart with roles := rolesOVS } src role island p → role ≠ .owner → Answers s (.setAutostart src p) cmdSetAutostart src island p 0x20 [] id) ∧
    (Asked s { cmdPowerOn with cls := clsIs .a } src role island p → b.ctl.mode ≠ .standby → Answers s (.powerOn src p) cmdPowerOn src island p 0x13 [] id) ∧
    (b.ctl.genWait = [] → b.mailRequests h = [] → exec (.mailboxPoll h) s = .next s) ∧
    (∀ m q, b.ctl.genWait = [] → b.receiver (.mailbox h 0) = some (h, false) → b.mailRequests h = [(m, 0x0301, q)] → exec (.mailboxPoll h) s = exec (.getFeeds (.mailbox h m) q) s) ∧
    (∀ (target : Byte) (y : Staging), tGet b.ctl.staging target.toNat = some y → y.lastData + 600000000000 < 2 ^ 64 → next' (.imageStagingTimeout target) fun b' => tGet b'.ctl.staging target.toNat = none ∧ y.lastData + 600000000000 ≤ b'.tod b.ctl.steering)

/-- The commands that only report: their replies, and that they change nothing but the connection's books, the read mark of a ticket and the counter of free values (R503 to R506, R509, R515, R517). -/
def Obligations.FleletReports : Prop :=
  ∀ (s : State) (src : FSource) (role : Role) (island : HubId) (p : Packet),
    let q := p.params
    let b := (s.heard src p).body
    let spent (x : State) : State := { s.heard src p with body := x.body.spend }
    let asked (c : Cmd) : Prop := Asked s c src role island p
    (asked cmdGetIdentity → ∃ ps, ps.take 16 = padTo 16 partNo ∧ Answers s (.getIdentity src p) cmdGetIdentity src island p 0 ps id) ∧
    (asked cmdGetInventory → inventory.length ≤ pf q 0 4 + 16367 → ∃ next', Answers s (.getInventory src p) cmdGetInventory src island p 0
      (leBytes 4 next' ++ (inventory.drop (pf q 0 4)).flatMap fun l => leBytes 2 l.toNat ++ [BitVec.ofNat 8 (b.unitState l), 0]) spent) ∧
    (asked cmdGetResult → (b.ctl.tickets.find? fun t => t.num.toNat = pf q 0 4 && t.role = role && t.heldBy island) = none → Answers s (.getResult src p) cmdGetResult src island p 0x16 [] id) ∧
    (∀ t res, asked cmdGetResult → (b.ctl.tickets.find? fun t => t.num.toNat = pf q 0 4 && t.role = role && t.heldBy island) = some t → t.result = some res → t.read = false →
      Answers s (.getResult src p) cmdGetResult src island p 0 res fun x =>
        { x with body := x.body.modCtl fun c => { c with tickets := c.tickets.map fun y => if y.num = t.num then { y with read := true } else y } }) ∧
    (asked cmdGetMode → ∃ loc, (b.ctl.mode = .fallow → loc = b.ctl.reasonLoc.toNat) ∧ Answers s (.getMode src p) cmdGetMode src island p 0
      (pack [(1, modeCode b.ctl.mode), (1, halfCode (b.halfOf island)), (1, if b.ctl.mode = .fallow then b.ctl.reason.toNat else 0), (1, if b.ctl.mode = .proving then b.ctl.step else 0), (2, loc), (1, b.feedBits), (1, 0)]) spent) ∧
    (asked cmdGetFeeds → Answers s (.getFeeds src p) cmdGetFeeds src island p 0
      (pack [(1, b.feedState), (1, (b.ctl.feeds[(0 : FeedId)]).flagged), (1, (b.ctl.feeds[(1 : FeedId)]).flagged), (5, 0), (8, b.ctl.lastProve.toNat)]) id) ∧
    (1 ≤ pf q 2 2 → pf q 0 2 + pf q 2 2 ≤ 232 → b.isSplit = false →
      let ds := (List.range (pf q 2 2)).map (· + pf q 0 2)
      (asked cmdGetDomains → Answers s (.getDomains src p) cmdGetDomains src island p 0 (ds.map fun d => if (b.domain d).out then 2 else if (b.domain d).on then 1 else 0) id) ∧
      (asked cmdGetPace → Answers s (.getPace src p) cmdGetPace src island p 0 (ds.flatMap b.paceBytes) id)) ∧
    (asked cmdGetTilth → pf q 0 4 = 0 → (b.tilthReport s.cfg.farPairs).length ≤ 1022 → Answers s (.getTilth src p) cmdGetTilth src island p 0
      (pack [(4, 0xFFFFFFFF), (2, (b.tilthReport s.cfg.farPairs).length), (2, 0)] ++ (b.tilthReport s.cfg.farPairs).flatten) spent) ∧
    (asked cmdReadSilt → pf q 0 1 = 0 → zeroBytes q 1 1 → pf q 4 4 = 0 → 1 ≤ pf q 2 2 → pf q 2 2 ≤ 2045 → (b.ctl.silt[island]).ring.length ≤ pf q 2 2 →
      ∃ head, head.length = 32 ∧ Answers s (.readSilt src p) cmdReadSilt src island p 0 (head ++ (b.ctl.silt[island]).ring.flatMap SiltRec.bytes) id) ∧
    (∀ g, asked cmdReadRetained → b.ctl.retained[pf q 0 1]? = some (some g) → zeroBytes q 1 3 → pf q 4 4 = 0 → g.recs.length ≤ 2045 →
      ∃ head, head.length = 32 ∧ Answers s (.readRetained src p) cmdReadRetained src island p 0 (head ++ g.recs.flatMap SiltRec.bytes) spent) ∧
    (asked cmdGetFirmware → ∃ rest, Answers s (.getFirmware src p) cmdGetFirmware src island p 0
      (pack [(8, if (s.cfg.slots[(0 : Fin 2)]).valid then (s.cfg.slots[(0 : Fin 2)]).seq.toNat else 0), (8, if (s.cfg.slots[(1 : Fin 2)]).valid then (s.cfg.slots[(1 : Fin 2)]).seq.toNat else 0),
             (8, s.cfg.seqFloor.toNat), (1, s.cfg.active.val)] ++ rest) id) ∧
    (asked cmdReadJournal → pf q 0 1 = 0 → zeroBytes q 1 3 → zeroBytes q 16 4 → pf q 12 4 = 0 → b.isSplit = false →
      let hits := b.outstanding.filter fun e => e.2.txn.toNat = pf q 4 8
      hits.length ≤ 511 → ∃ next', Answers s (.readJournal src p) cmdReadJournal src island p 0 (leBytes 4 next' ++ leBytes 4 0 ++ hits.flatMap fun e => e.2.bytes) spent) ∧
    (asked cmdReadPam → Answers s (.readPam src p) cmdReadPam src island p 0 (b.pam.flatMap PamRec.bytes) id) ∧
    (∀ t : StrandId, asked cmdReadStrand → pf q 0 2 = t.val → zeroBytes q 2 2 → b.isSplit = false →
      (((b.strand t).run = .stopped ∨ (b.strand t).run = .neverStarted) → Answers s (.readStrand src p) cmdReadStrand src island p 0 (b.image t) id) ∧
      ((b.strand t).run = .running → Answers s (.readStrand src p) cmdReadStrand src island p 0x14 [] id)) ∧
    (∀ x, asked cmdReadUnit → locValid (BitVec.ofNat 16 (pf q 0 2)) = true → b.isSplit = false → b.unitRecord (BitVec.ofNat 16 (pf q 0 2)) = some x → Answers s (.readUnit src p) cmdReadUnit src island p 0 x spent) ∧
    (asked cmdReadPhys → pf q 0 8 % 128 = 0 → pf q 0 8 < 2 ^ 52 → pf q 8 4 = 128 → zeroBytes q 13 3 → b.classOf (pf q 0 8) = .memory → b.poisoned (lineNo (pf q 0 8)) = false → b.readable (lineNo (pf q 0 8)) = true →
      Answers s (.readPhys src p) cmdReadPhys src island p 0 (leBytes 8 0 ++ lineBytes (b.coherent (lineNo (pf q 0 8)) (q.getD 12 0))) id) ∧
    (∀ h : HubId, asked cmdReadJournalRaw → pf q 0 1 = h.val → zeroBytes q 1 3 → pf q 4 4 < 262144 → pf q 8 4 = 1 →
      Answers s (.readJournalRaw src p) cmdReadJournalRaw src island p 0 (match tGet b.io.journal[h] (pf q 4 4) with | some e => e.bytes | none => List.replicate 128 0) id) ∧
    (asked cmdGetTransportKey → Answers s (.getTransportKey src p) cmdGetTransportKey src island p 0 (padTo 1568 Config.transportKey) id)
/-- The commands that set the module up: identity, network, power, rails, octets, far memory, firmware and logs (R34, R269, R403 to R406, R416, R469, R473, R479, R482, R486, R503 to R509, R522 to R528). Each has the effect of its row on valid parameters, and SET_AUTOSTART shows what an invalid one gets:
BAD_PARAMETER with its offset and no effect. -/
def Obligations.FleletConfiguration : Prop :=
  ∀ (s : State) (src : FSource) (role : Role) (island : HubId) (p : Packet),
    let q := p.params
    let b := (s.heard src p).body
    let asked (c : Cmd) : Prop := Asked s c src role island p
    let cfg (f : FlashCfg → FlashCfg) : State → State := fun x => { x with cfg := f x.cfg }
    let body (f : Body → Body) : State → State := fun x => { x with body := f x.body }
    (∀ alg : Byte, asked cmdSetOwnerAnchor → s.cfg.anchor = none → s.body.ctl.mode = .standby → (alg = 1 ∨ alg = 2) → q.getD 0 0 = alg → zeroBytes q 1 3 → pf q 4 2 = algKey alg → pf q 6 2 = 0 → q.length = 8 + 3 * algKey alg →
      let key (i : Nat) := (q.drop (8 + i * algKey alg)).take (algKey alg)
      Answers s (.setOwnerAnchor src p) cmdSetOwnerAnchor src island p 0 [] (cfg fun c => { c with anchor := some { alg := alg, session := key 0, viewer := key 1, sign := key 2 } })) ∧
    (∀ h : HubId, asked cmdSetMgmtNet → pf q 0 1 = h.val → pf q 1 1 < 4 → pf q 2 1 ≤ 32 → pf q 3 1 ≤ 128 →
      (s.body.isSplit = true → h ≠ island → Answers s (.setMgmtNet src p) cmdSetMgmtNet src island p 0x12 (leBytes 4 0 ++ leBytes 4 0) id) ∧
      (s.body.isSplit = false ∨ h = island → ∃ t : State, exec (.setMgmtNet src p) s = .next t ∧ t.cfg = { s.cfg with mgmtNet := s.cfg.mgmtNet.set h q } ∧ ∀ e ∈ t.body.ctl.conns, e.2.port ≠ h)) ∧
    (asked cmdSetAutostart →
      (pf q 0 1 ≤ 1 → Answers s (.setAutostart src p) cmdSetAutostart src island p 0 [] (cfg fun c => { c with autostart := decide (pf q 0 1 = 1) })) ∧
      (1 < pf q 0 1 → Answers s (.setAutostart src p) cmdSetAutostart src island p 0x12 (leBytes 4 0 ++ leBytes 4 0) id)) ∧
    (∀ h : HubId, asked cmdSetPreferredHalf → pf q 0 1 = h.val → Answers s (.setPreferredHalf src p) cmdSetPreferredHalf src island p 0 [] (cfg fun c => { c with preferred := h })) ∧
    (asked cmdSetRailLimits → pf q 0 2 ≤ pf q 2 2 → pf q 2 2 ≤ 231 → pf q 4 2 % 5 = 0 → pf q 6 2 % 5 = 0 → 650 ≤ pf q 4 2 → pf q 4 2 ≤ pf q 6 2 → pf q 6 2 ≤ 950 →
      ∃ t : State, exec (.setRailLimits src p) s = .next t ∧ t.body.strands = s.body.strands ∧ ∀ d : Fin 232,
        (t.cfg.floor[d]).toNat = (if pf q 0 2 ≤ d.val ∧ d.val ≤ pf q 2 2 then pf q 4 2 else (s.cfg.floor[d]).toNat) ∧
        (t.cfg.ceil[d]).toNat = (if pf q 0 2 ≤ d.val ∧ d.val ≤ pf q 2 2 then pf q 6 2 else (s.cfg.ceil[d]).toNat) ∧
        (pf q 0 2 ≤ d.val → d.val ≤ pf q 2 2 → clockedDomain d.val = false → pf q 4 2 ≤ (t.body.domain d.val).rail.toNat ∧ (t.body.domain d.val).rail.toNat ≤ pf q 6 2)) ∧
    (asked cmdSetRail → pf q 0 2 ≤ 231 → pf q 2 2 % 5 = 0 → s.body.isSplit = false → s.cfg.legal →
      let v := clampRail s.cfg (pf q 0 2) (pf q 2 2)
      Answers s (.setRail src p) cmdSetRail src island p 0 (leBytes 2 v.toNat) (body fun x => x.setRail (pf q 0 2) v) ∧
        ∀ d : Fin 232, pf q 0 2 = d.val → (s.cfg.floor[d]).toNat ≤ v.toNat ∧ (clockedDomain d.val = false → v.toNat ≤ (s.cfg.ceil[d]).toNat)) ∧
    (asked cmdSetDomain → pf q 0 2 ≤ 231 → pf q 2 1 ≤ 1 → zeroBytes q 3 1 → s.body.isSplit = false →
      (s.body.domainBusy (pf q 0 2) = some 0x14 → Answers s (.setDomain src p) cmdSetDomain src island p 0x14 [] id) ∧
      (s.body.domainBusy (pf q 0 2) = none → pf q 2 1 = 0 → Answers s (.setDomain src p) cmdSetDomain src island p 0 [] (body fun x => (x.clearDomain (pf q 0 2)).switch (pf q 0 2) false)) ∧
      (s.body.domainBusy (pf q 0 2) = some 0x12 → Answers s (.setDomain src p) cmdSetDomain src island p 0x12 (leBytes 4 0 ++ leBytes 4 0) id)) ∧
    (∀ o : OctetId, asked cmdSetOctet → pf q 0 1 = o.val → (octetOf q).legal → s.body.serving = false → Answers s (.setOctet src p) cmdSetOctet src island p 0 [] (cfg fun c => { c with octets := c.octets.set o (octetOf q) })) ∧
    (asked cmdSetFarmem → q = [] → Answers s (.setFarmem src p) cmdSetFarmem src island p 0 [] (cfg fun c => { c with farPairs := [] })) ∧
    (asked cmdSetFarmem → q.length = 8 → pf q 0 1 < 96 → pf q 1 1 < 96 → zeroBytes q 2 2 → pf q 4 4 < 4096 →
      Answers s (.setFarmem src p) cmdSetFarmem src island p 0 [] (cfg fun c => { c with farPairs := [{ portA := q.getD 0 0, portB := q.getD 1 0, base := BitVec.ofNat 32 (pf q 4 4) }] })) ∧
    (∀ k : Fin 2, asked cmdSetActiveSlot → pf q 0 1 = k.val → (s.cfg.slots[k]).valid = true → Answers s (.setActiveSlot src p) cmdSetActiveSlot src island p 0 [] (cfg fun c => { c with active := k })) ∧
    (∀ n : Nat, src = .conn n → asked cmdImageBegin → pf q 0 1 = 3 → algOk (q.getD 1 0) = true → pf q 2 2 = algSig (q.getD 1 0) → tGet s.body.ctl.staging 3 = none →
      Answers s (.imageBegin src p) cmdImageBegin src island p 0 [] (body fun x => x.putStaging 3
        { conn := n, alg := q.getD 1 0, length := pf q 4 4, keyid := (q.drop 8).take 32, sig := q.drop 40, data := [], lastData := x.now })) ∧
    (∀ (n : Nat) (y : Staging), src = .conn n → tGet s.body.ctl.staging (pf q 0 1) = some y → y.conn = n → zeroBytes q 1 3 →
      (asked cmdImageData → pf q 4 4 + (q.length - 8) ≤ y.length → Answers s (.imageData src p) cmdImageData src island p 0 [] (body fun x => x.putStaging (pf q 0 1) { y with data := overlay y.data (pf q 4 4) (q.drop 8), lastData := x.now })) ∧
      (asked cmdImageAbort → 1 ≤ pf q 0 1 → pf q 0 1 ≤ 5 → Answers s (.imageAbort src p) cmdImageAbort src island p 0 [] (body fun x => x.dropStaging (pf q 0 1))) ∧
      (asked cmdImageCommit → s.body.ctl.switching = none → Starts s (.imageCommit src p) cmdImageCommit src role island p fun t x => commitImage (pf q 0 1) y t (withBody x fun k => k.dropStaging (pf q 0 1)))) ∧
    (asked cmdFreezeSilt → Answers s (.freezeSilt src p) cmdFreezeSilt src island p 0 [] (body fun x => x.freezeSilt 5 (x.siltOf island))) ∧
    (asked cmdThawSilt → s.body.ctl.mode ≠ .fallow → Answers s (.thawSilt src p) cmdThawSilt src island p 0 [] (body fun x => x.thawSilt 1 (x.siltOf island))) ∧
    (∀ i : Fin 16, asked cmdClearRetained → pf q 0 1 = i.val → zeroBytes q 1 3 → (∀ h : HubId, (s.body.ctl.silt[h]).writing = none) →
      Answers s (.clearRetained src p) cmdClearRetained src island p 0 [] (body fun x => x.modCtl fun c => { c with retained := c.retained.set i.val none })) ∧
    (asked cmdPowerOn → Starts s (.powerOn src p) cmdPowerOn src role island p fun t => body fun x => (x.modCtl fun c => { c with offHold := false, startTickets := c.startTickets ++ [t] }).startAttempt) ∧
    (asked cmdPowerOff → (s.body.serving = true → q.getD 0 0 = 1) → Answers s (.powerOff src p) cmdPowerOff src island p 0 [] (body fun x => x.leave s.cfg fun y => y.enterStandby true)) ∧
    (asked cmdEnterFallow → Starts s (.enterFallow src p) cmdEnterFallow src role island p fun _ => body fun x => x.leave s.cfg fun y => y.enterFallow 10 0xFFFF) ∧
    (asked cmdProve → Starts s (.prove src p) cmdProve src role island p fun t => body fun x => (x.modCtl fun c => { c with startTickets := c.startTickets ++ [t] }).enterProving s.cfg.octets) ∧
    (∀ t, asked cmdReleaseResult → (b.ctl.tickets.find? fun y => y.num.toNat = pf q 0 4 && y.role = role && y.heldBy island) = some t →
      (t.result ≠ none → Answers s (.releaseResult src p) cmdReleaseResult src island p 0 [] (body fun x => x.modCtl fun c => { c with tickets := ticketLeaves b.isSplit island t c.tickets })) ∧
      (t.result = none → Answers s (.releaseResult src p) cmdReleaseResult src island p 0x14 [] id)) ∧
    (∀ h : HubId, asked cmdRejoin → island = h → s.body.ctl.rejoin = none → (s.body.ctl.halves[h]).half = .lead → s.body.ctl.bundleReady[(0 : BundleId)] = true →
      ∀ r, (s.heard src p).body.issueTicket h role 0x0208 (replyHeader (s.heard src p).body h 0x0208 1 0 p.sequence p.session 0 ((s.heard src p).body.nextTicket h)) = some r →
        ∃ t : State, exec (.rejoin src p) s = .next t ∧ t.body.ctl.rejoin = some (BitVec.ofNat 32 ((s.heard src p).body.nextTicket h), h) ∧ t.body.ctl.bundles[(0 : BundleId)] = true)

/-- The commands on slices, partitions, subchannels, targets, network addresses and streams (R281 to R283, R331, R336, R344 to R349, R366, R368, R459, R509 to R512).
Those that advance a slice's generation wait until 20 µs have passed since its last advance, and GENERATION_WAIT_EXPIRY lets them go on; a drain ends only when no job of the slice is left. -/
def Obligations.FleletSlices : Prop :=
  ∀ (s : State) (src : FSource) (role : Role) (island : HubId) (p : Packet),
    let q := p.params
    let b := (s.heard src p).body
    let asked (c : Cmd) : Prop := Asked s c src role island p
    let body (f : Body → Body) : State → State := fun x => { x with body := f x.body }
    let io (f : Io → Io) : State → State := body fun x => x.modIo f
    (∀ sl : SliceId, pf q 0 2 = sl.val → s.body.isSplit = false →
      (b.tooSoon sl = true → asked cmdBindSlice → ∃ t, exec (.bindSlice src p) s = .next t ∧ t.body.ctl.genWait = [{ src := src, opcode := 0x0701, packet := p }] ∧ t.body.io = s.body.io ∧ t.body.ctl.outbox = s.body.ctl.outbox) ∧
      (b.tooSoon sl = false →
        (asked cmdBindSlice → (b.slice sl).st = .free → 1 ≤ pf q 2 1 → pf q 2 1 ≤ 4 → 1 ≤ pf q 6 2 → rootOk (pf q 8 8) = true → 1 ≤ pf q 16 2 → pf q 18 2 < 576 → pf q 20 1 ≤ 3 → (pf q 20 1 = 3 → pf q 3 1 = 0) →
          engMaskOk (pf q 2 1) (pf q 21 1) = true → zeroBytes q 22 10 →
          Answers s (.bindSlice src p) cmdBindSlice src island p 0 [] (body fun x => (x.engForget sl).setSlice sl
            { st := .bound, kind := q.getD 2 0, part := q.getD 3 0, asid := BitVec.ofNat 16 (pf q 4 2), weight := BitVec.ofNat 16 (pf q 6 2), s1root := BitVec.ofNat 64 (pf q 8 8),
              limit := BitVec.ofNat 16 (pf q 16 2), target := pf q 18 2, rkind := q.getD 20 0, engmask := q.getD 21 0, gen := nextGen (x.slice sl).gen, lastAdv := some (x.tod (x.servingHub sl (q.getD 3 0))) })) ∧
        (asked cmdUnbindSlice → (b.slice sl).st ≠ .free → zeroBytes q 2 2 → Starts s (.unbindSlice src p) cmdUnbindSlice src role island p fun t => body fun x => x.startDrain sl true (some t)) ∧
        (asked cmdResetSlice → (b.slice sl).st = .bound → zeroBytes q 2 2 → Starts s (.resetSlice src p) cmdResetSlice src role island p fun t => body fun x => x.startDrain sl false (some t)) ∧
        (∀ free, asked cmdResetSlice → (b.slice sl).st = .draining free → zeroBytes q 2 2 → Answers s (.resetSlice src p) cmdResetSlice src island p 0x14 [] id)) ∧
      ((b.slice sl).st ≠ .free →
        (asked cmdSetShare → 1 ≤ pf q 2 2 → 1 ≤ pf q 4 2 → zeroBytes q 6 2 → Answers s (.setShare src p) cmdSetShare src island p 0 []
          (body fun x => x.modSlice sl fun y => { y with weight := BitVec.ofNat 16 (pf q 2 2), limit := BitVec.ofNat 16 (pf q 4 2) })) ∧
        (asked cmdSetRoute → pf q 2 2 < 576 → pf q 4 1 ≤ 3 → (pf q 4 1 = 3 → (b.slice sl).part = 0) → zeroBytes q 5 3 → Answers s (.setRoute src p) cmdSetRoute src island p 0 []
          (body fun x => x.modSlice sl fun y => { y with target := pf q 2 2, rkind := q.getD 4 0 })))) ∧
    (asked cmdSetWake → s.body.isSplit = false → b.partExists (pf q 0 1) = true → pf q 1 1 ≤ 1 → pf q 2 2 < 576 → Answers s (.setWake src p) cmdSetWake src island p 0 []
      (io fun i => { i with parts := tMod i.parts (pf q 0 1) fun x => { x with wakeMask := decide (pf q 1 1 = 1), wakeTarget := some (pf q 2 2) } })) ∧
    (asked cmdSetPartition → zeroBytes q 1 1 → pf q 4 2 ≤ 1000 → pf q 6 2 ≤ 3600 → pf q 8 2 ≤ 3600 → zeroBytes q 10 6 → rootOk (pf q 16 8) = true → (pf q 0 1 = 0 → pf q 16 8 = 0) →
      let x : Partition := (tGet b.io.parts (pf q 0 1)).getD { kquota := if pf q 0 1 = 0 then 1024 else 256, domain := BitVec.ofNat 64 (pf q 0 1) }
      let kept (n off len : Nat) (old : BitVec n) : BitVec n := if pf q off len = 0 then old else BitVec.ofNat n (pf q off len)
      Answers s (.setPartition src p) cmdSetPartition src island p 0 [] (io fun i => { i with parts := tPut i.parts (pf q 0 1) { x with kquota := kept _ 2 2 x.kquota, iotmo := kept _ 4 2 x.iotmo, blktmo := kept _ 6 2 x.blktmo, tapetmo := kept _ 8 2 x.tapetmo, s2root := kept _ 16 8 x.s2root, domain := kept _ 24 8 x.domain } })) ∧
    (asked cmdSetPlacement → 1 ≤ pf q 0 1 → b.partExists (pf q 0 1) = true → zeroBytes q 2 2 → zeroBytes q 8 8 → (b.part (BitVec.ofNat 8 (pf q 0 1))).copying = none →
      (pf q 1 1 ≤ 2 → pf q 4 2 = 0 → pf q 6 2 = 0 → Answers s (.setPlacement src p) cmdSetPlacement src island p 0 []
        (io fun i => { i with parts := tMod i.parts (pf q 0 1) fun x => { x with place := BitVec.ofNat 8 (pf q 1 1), mbase := 0, msize := 0, copying := none } })) ∧
      (pf q 1 1 = 3 → 1 ≤ pf q 6 2 → pf q 4 2 + pf q 6 2 ≤ 144 → (∀ e ∈ b.io.parts, e.1 ≠ pf q 0 1 → e.2.place ≠ 3 ∧ e.2.copying = none) → Starts s (.setPlacement src p) cmdSetPlacement src role island p fun t =>
        io fun i => { i with parts := tMod i.parts (pf q 0 1) fun x => { x with place := 0, mbase := BitVec.ofNat 16 (pf q 4 2), msize := BitVec.ofNat 16 (pf q 6 2), copying := some t } })) ∧
    (∀ sl : SliceId, pf q 0 2 = sl.val → s.body.isSplit = false →
      (asked cmdSetSubchannel → (b.slice sl).st ≠ .free → (b.slice sl).kind = 1 → zeroBytes q 2 6 → pf q 8 2 ≤ 4095 → (pf q 10 1 = 1 ∨ pf q 10 1 = 2) → 1 ≤ pf q 11 1 → pf q 11 1 ≤ 8 →
        (if pf q 10 1 = 1 then pf q 12 4 = 512 ∨ pf q 12 4 = 4096 else pf q 12 4 = 0) → (∀ i < pf q 11 1, ∀ e ∈ b.pathChecks q (pf q 10 1) (16 + 16 * i), e.2 = true) → zeroBytes q (16 + 16 * pf q 11 1) (128 - 16 * pf q 11 1) →
        let paths := (List.range (pf q 11 1)).map fun i => pathOf q (16 + 16 * i)
        (b.subch (subchKey sl.val (pf q 8 2)) = none → b.io.subchs.length < 65536 → Answers s (.setSubchannel src p) cmdSetSubchannel src island p 0 []
          (io fun i => { i with subchs := tPut i.subchs (subchKey sl.val (pf q 8 2)) { kind := q.getD 10 0, blksz := BitVec.ofNat 32 (pf q 12 4), paths := paths } })) ∧
        (∀ c, b.subch (subchKey sl.val (pf q 8 2)) = some c →
          (c.busy = true → Answers s (.setSubchannel src p) cmdSetSubchannel src island p 0x14 [] id) ∧
          (c.busy = false → Answers s (.setSubchannel src p) cmdSetSubchannel src island p 0 []
            (body fun x => x.modSubch (subchKey sl.val (pf q 8 2)) fun c => { c with kind := q.getD 10 0, blksz := BitVec.ofNat 32 (pf q 12 4), paths := paths, lastPath := none })))) ∧
      (∀ c, pf q 2 2 ≤ 4095 → b.subch (subchKey sl.val (pf q 2 2)) = some c →
        (asked cmdRemoveSubchannel → c.busy = false → Answers s (.removeSubchannel src p) cmdRemoveSubchannel src island p 0 [] (io fun i => { i with subchs := tDel i.subchs (subchKey sl.val (pf q 2 2)) })) ∧
        (asked cmdRemoveSubchannel → c.busy = true → Answers s (.removeSubchannel src p) cmdRemoveSubchannel src island p 0x14 [] id) ∧
        (asked cmdSetPathState → pf q 4 1 < c.paths.length → pf q 5 1 ≤ 1 → ∃ g : Path → Path, Answers s (.setPathState src p) cmdSetPathState src island p 0 []
            (body fun x => x.modSubch (subchKey sl.val (pf q 2 2)) fun c => { c with paths := c.paths.modify (pf q 4 1) g }) ∧
          (pf q 5 1 = 0 → ∀ x, (g x).st = 0) ∧ (pf q 5 1 = 1 → ∀ x, if x.st = 2 then g x = x else (g x).st = 1)))) ∧
    (asked cmdSetTarget → 1 ≤ pf q 0 2 → pf q 0 2 ≤ 4095 → pf q 2 1 ≤ 4 → zeroBytes q 3 1 → (if pf q 2 1 = 1 then zeroBytes q 6 2 else zeroBytes q 4 4) → (pf q 2 1 ≤ 1 → zeroBytes q 8 16) → (pf q 2 1 = 4 → zeroBytes q 8 8) →
      (pf q 2 1 ≠ 3 → zeroBytes q 24 2) → zeroBytes q 26 6 → (∀ e ∈ b.io.subchs, ∀ x ∈ e.2.paths, x.target.toNat ≠ pf q 0 2) →
      Answers s (.setTarget src p) cmdSetTarget src island p 0 [] (io fun i => { i with targets := if pf q 2 1 = 0 then tDel i.targets (pf q 0 2) else tPut i.targets (pf q 0 2) q })) ∧
    (asked cmdSetNetaddr → b.partExists (pf q 0 1) = true → pf q 2 2 ≤ 4095 → b.netaddrUsed (pf q 0 1) (pf q 2 2) = false →
      ((pf q 1 1 = 0 ∨ pf q 1 1 = 2) → Answers s (.setNetaddr src p) cmdSetNetaddr src island p 0 [] (io fun i => { i with netaddrs := tDel i.netaddrs (pf q 0 1 * 4096 + pf q 2 2) })) ∧
      (∀ sl : SliceId, s.body.isSplit = false → (pf q 1 1 = 1 ∨ pf q 1 1 = 3) → pf q 4 2 = sl.val → (b.slice sl).st ≠ .free → (b.slice sl).kind = 4 → b.etherPort (q.getD 6 0) (b.servingHub sl (b.slice sl).part) = true →
        (if pf q 1 1 = 3 then b.etherPort (q.getD 7 0) (otherHub (b.servingHub sl (b.slice sl).part)) = true else q.getD 7 0 = 0) → pf q 15 1 < 128 →
        Answers s (.setNetaddr src p) cmdSetNetaddr src island p 0 [] (io fun i => { i with netaddrs := tPut i.netaddrs (pf q 0 1 * 4096 + pf q 2 2) { slice := BitVec.ofNat 16 sl.val, port := q.getD 6 0, alt := if pf q 1 1 = 3 then some (q.getD 7 0) else none, mac := (q.drop 8).take 6, vlan := BitVec.ofNat 16 (pf q 14 2), ip := (q.drop 16).take 16, rip := (q.drop 32).take 16 } }))) ∧
    (∀ (sl : SliceId) (c : Subch), asked cmdDeclareStream → pf q 0 1 ≤ 63 → tGet b.io.streams (pf q 0 1) = none → zeroBytes q 1 1 → pf q 2 2 = sl.val → b.channelSlice island (q.drop 2) = true → pf q 4 2 ≤ 4095 →
      b.subch (subchKey sl.val (pf q 4 2)) = some c → c.kind = 2 → c.busy = false → b.hasStream (subchKey sl.val (pf q 4 2)) = false → 1 ≤ pf q 6 2 → pf q 6 2 ≤ 2000 → pf q 8 8 % 0x200000 = 0 →
      (∀ a, pf q 8 8 ≤ a → a < pf q 8 8 + pf q 16 4 * 0x100000 → b.classOf a = .memory) → pf q 16 4 % 2 = 0 → 2 ≤ pf q 16 4 → pf q 16 4 ≤ 256 → pf q 6 2 * 8000 ≤ pf q 16 4 * 0x100000 → zeroBytes q 20 12 →
      Answers s (.declareStream src p) cmdDeclareStream src island p 0 [] (io fun i => { i with streams := tPut i.streams (pf q 0 1) { slice := sl, image := BitVec.ofNat 12 (pf q 4 2), rate := BitVec.ofNat 16 (pf q 6 2), bufbase := BitVec.ofNat 64 (pf q 8 8), bufsize := BitVec.ofNat 32 (pf q 16 4) } })) ∧
    (∀ x, asked cmdRemoveStream → tGet b.io.streams (pf q 0 1) = some x → zeroBytes q 1 3 → (∀ c, b.subch (subchKey x.slice.val x.image.toNat) = some c → c.busy = false) →
      (x.blocks = [] → Answers s (.removeStream src p) cmdRemoveStream src island p 0 [] (io fun i => { i with streams := tDel i.streams (pf q 0 1) })) ∧
      (x.blocks ≠ [] → Answers s (.removeStream src p) cmdRemoveStream src island p 0x14 [] id)) ∧
    (∀ h : HubId, asked cmdReadOrphans → s.body.isSplit = false → pf q 0 1 = h.val → 1 ≤ pf q 1 1 → zeroBytes q 2 2 →
      let out := b.io.orphans[h].take (pf q 1 1)
      Answers s (.readOrphans src p) cmdReadOrphans src island p 0 (leBytes 4 out.length ++ out.flatMap Orphan.bytes) (body fun x =>
        (out.foldl (fun (y : Body) o => y.retire o.ix) (x.modIo fun i => { i with orphans := i.orphans.set h (i.orphans[h].drop (pf q 1 1)) })).refillOrphans h)) ∧
    (∀ sl : SliceId,
      let x := s.body.slice sl
      (x.lastAdv = none ∨ s.body.ctl.genWait = [] → exec (.generationWaitExpiry sl) s = .next s) ∧
      (∀ t0, x.lastAdv = some t0 → s.body.ctl.genWait ≠ [] → t0 + 20000 < 2 ^ 64 →
        let b' := s.body.reach (s.body.servingHub sl x.part) (t0 + 20000)
        exec (.generationWaitExpiry sl) s = .next (pump cmdOf { s with body := b' }) ∧ b'.tooSoon sl = false) ∧
      ((s.body.serving = false ∨ x.st = .free ∨ x.st = .bound ∨ ∃ j ∈ s.body.io.jobs, j.slice = sl) → exec (.sliceDrainComplete sl) s = .next s) ∧
      (s.body.serving = true → (∀ j ∈ s.body.io.jobs, j.slice ≠ sl) →
        let ended (y : Body) : Body := x.drainTickets.foldl (fun y t => y.finishTicket t 0 0 []) y
        (x.st = .draining true → exec (.sliceDrainComplete sl) s = .next (body (fun y => ended ((y.engForget sl).setSlice sl { gen := x.gen, lastAdv := x.lastAdv })) s)) ∧
        (x.st = .draining false → x.sq.en = false → x.waiting = [] → x.reserved = [] →
          exec (.sliceDrainComplete sl) s = .next (body (fun y => ended (y.setSlice sl { x with st := .bound, drainTickets := [], sq := { x.sq with head := x.sq.tail } })) s))))

/-- The commands on lost lines, strands, keys and the diagnostics (R64, R252, R392 to R396, R437, R483, R513 to R517). RUN_SELFTEST's verdict is free (log entry 10), DESTROY_KEY waits for the jobs that have started with its key, and a strand whose image
gives the reserved privilege 0b11 is refused. -/
def Obligations.FleletUnits : Prop :=
  ∀ (s : State) (src : FSource) (role : Role) (island : HubId) (p : Packet),
    let q := p.params
    let b := (s.heard src p).body
    let asked (c : Cmd) : Prop := Asked s c src role island p
    let body (f : Body → Body) : State → State := fun x => { x with body := f x.body }
    (asked cmdClearPoison → pf q 0 8 % 128 = 0 → pf q 0 8 < 2 ^ 52 → b.poisoned (lineNo (pf q 0 8)) = true → b.cutOff island (pf q 0 8) = false → (tGet b.mem.slots (pf q 8 1)).isSome = true → zeroBytes q 9 7 →
      Answers s (.clearPoison src p) cmdClearPoison src island p 0 [] (body fun x => x.homeStore (pf q 0 8) ((q.drop 16).take 128) (q.getD 8 0) true)) ∧
    (∀ t : StrandId, s.body.isSplit = false → pf q 0 2 = t.val → zeroBytes q 2 2 → ((b.strand t).run = .stopped ∨ (b.strand t).run = .neverStarted) →
      (asked cmdStartStrand → (b.ctl.cores[coreOf t]).role = .assignable → b.domainOn (coreOf t).val = true →
        (field (q.drop 4) 0xC40 8 / 4 % 4 ≠ 3 → Answers s (.startStrand src p) cmdStartStrand src island p 0 [] (body fun x =>
          (x.setStrand t { imageStrand (q.drop 4) with spHome := (x.ctl.cores[coreOf t]).spHome, checkSrc := (x.strand t).checkSrc }).dropCheck t)) ∧
        (field (q.drop 4) 0xC40 8 / 4 % 4 = 3 → Answers s (.startStrand src p) cmdStartStrand src island p 0x12 (leBytes 4 0xC40 ++ leBytes 4 0) id)) ∧
      (asked cmdReleaseStrand → Answers s (.releaseStrand src p) cmdReleaseStrand src island p 0 [] (body fun x => (x.setStrand t { checkSrc := (x.strand t).checkSrc }).dropCheck t))) ∧
    (asked cmdLoadKey →
      (s.cfg.anchor = none → Answers s (.loadKey src p) cmdLoadKey src island p 0x21 [] id) ∧
      (∀ a, s.cfg.anchor = some a → q.getD 3 0 = a.alg → pf q 8 2 = algSig a.alg → (keyUsages (q.getD 1 0)).isSome = true → keyKindOk (q.getD 1 0) (q.getD 2 0) = true →
        keyLenOk (q.getD 1 0) (pf q 6 2) = true → zeroBytes q 10 2 → b.partExists (pf q 0 1) = true →
          let answers (status : Byte) (ps : List Byte) (b' : Body) : Prop := Answers s (.loadKey src p) cmdLoadKey src island p status ps (body fun _ => b')
          match Config.verifies a.alg a.sign (q.take (1608 + pf q 6 2)) (q.drop (1608 + pf q 6 2)), Config.openTransport ((q.drop 24).take 1568) ((q.drop 12).take 12) (q.take 12) ((q.drop 1592).take (pf q 6 2 + 16)) with
          | false, _ => answers 0x21 [] b
          | true, none => answers 0x12 (leBytes 4 24 ++ leBytes 4 0) b
          | true, some m =>
            match b.newKey island (q.getD 1 0) (q.getD 2 0) (q.getD 0 0) (BitVec.ofNat 16 (pf q 4 2)) (padTo (pf q 6 2) m) with
            | (.ok h, b') => answers 0 (leBytes 4 h.toNat) b'
            | (.error _, _) => answers 0x12 (leBytes 4 0 ++ leBytes 4 0) b)) ∧
    (asked cmdLoadMemkey → 1 ≤ pf q 0 1 → zeroBytes q 2 2 →
      (∀ k, pf q 1 1 = 1 → b.keyOf island (BitVec.ofNat 32 (pf q 4 4)) = some k → k.ktype = 3 → k.usage.getLsbD 5 = true → (k.part = 0 ∨ k.part.toNat = pf q 0 1) →
        Answers s (.loadMemkey src p) cmdLoadMemkey src island p 0 [] (body fun x => x.modMem fun m => { m with slots := tPut m.slots (pf q 0 1) k.material })) ∧
      (pf q 1 1 = 0 → ∃ key : Config.KeyVal, Answers s (.loadMemkey src p) cmdLoadMemkey src island p 0 [] (body fun x => (x.modMem fun m => { m with slots := tPut m.slots (pf q 0 1) key }).spend))) ∧
    (asked cmdClearMemkey → 1 ≤ pf q 0 1 → zeroBytes q 1 3 → Answers s (.clearMemkey src p) cmdClearMemkey src island p 0 [] (body fun x => x.modMem fun m => { m with slots := tDel m.slots (pf q 0 1) })) ∧
    (asked cmdSetKeyQuota → b.partExists (pf q 0 1) = true → zeroBytes q 1 1 → 1 ≤ pf q 2 2 → Answers s (.setKeyQuota src p) cmdSetKeyQuota src island p 0 []
      (body fun x => x.modIo fun i => { i with parts := tMod i.parts (pf q 0 1) fun y => { y with kquota := BitVec.ofNat 16 (pf q 2 2) } })) ∧
    (∀ k,
      let h : BitVec 32 := BitVec.ofNat 32 (pf q 0 4)
      b.keyOf island h = some k →
        (asked cmdReassignKey → b.partExists (pf q 4 1) = true → zeroBytes q 5 1 →
          (b.handleUsed h = false → Answers s (.reassignKey src p) cmdReassignKey src island p 0 [] (body fun x => x.putKey island (h.toNat % 65536) { k with part := q.getD 4 0, asid := BitVec.ofNat 16 (pf q 6 2) })) ∧
          (b.handleUsed h = true → Answers s (.reassignKey src p) cmdReassignKey src island p 0x14 [] id)) ∧
        (asked cmdDestroyKey →
          (b.handleUsed h = false → Answers s (.destroyKey src p) cmdDestroyKey src island p 0 [] (body fun x => x.putKey island (h.toNat % 65536) { k with live := false, material := [] })) ∧
          (b.handleUsed h = true → ∃ t, exec (.destroyKey src p) s = .next t ∧ t.body.ctl.genWait = [{ src := src, opcode := 0x0907, packet := p }] ∧ t.body.io = s.body.io ∧ t.body.ctl.outbox = s.body.ctl.outbox))) ∧
    (asked cmdRunSelftest → locValid (BitVec.ofNat 16 (pf q 0 2)) = true → ∃ res : List Byte, res.length = 17 ∧ (res.getD 0 0 = 0 ∨ res.getD 0 0 = 1) ∧
      Starts s (.runSelftest src p) cmdRunSelftest src role island p fun t => body fun x => x.spend.finishTicket t 0 0 res) ∧
    (asked cmdDiagDomain → pf q 0 2 < 230 → zeroBytes q 3 1 →
      (pf q 2 1 = 1 → Answers s (.diagDomain src p) cmdDiagDomain src island p 0 [] (body fun x => x.switch (pf q 0 2) true)) ∧
      (pf q 2 1 = 0 → Answers s (.diagDomain src p) cmdDiagDomain src island p 0 [] (body fun x => (x.clearDomain (pf q 0 2)).switch (pf q 0 2) false))) ∧
    (asked cmdTestPort →
      (pf q 0 1 = 1 → Answers s (.testPort src p) cmdTestPort src island p 0 [] (body fun x => x.modCtl fun c => { c with port := { c.port with isOpen := true } })) ∧
      (pf q 0 1 = 0 → Answers s (.testPort src p) cmdTestPort src island p 0 [] (body fun x => x.modCtl fun c => { c with port := {} })))

/-! ## Encodings, the configuration in flash, and reset -/

/-- An instruction's bytes and the instruction agree (R87 to R89, R92): a well-formed instruction decodes from the bytes it encodes to, which have the length its first byte fixes, and bytes that decode to an instruction are the ones it encodes to. The four rows
that are writes of one CS register have the words of CSWR. -/
def Obligations.DecodeEncode : Prop :=
  (∀ (i : Instr) (e : Enc), encodeInsn i = some e → WellFormed i = true → (∀ t ra, i ≠ .writeCsSpad t ra) → (∀ t ra, i ≠ .writeCsCachectl t ra) → (∀ t sel ra, i ≠ .writeCsTcmp t sel ra) → (∀ t ra, i ≠ .writeCsWin t ra) →
    ∃ t : StrandId, decodeInsn t e.bits = some i ∧ e.len = insnLen (e.bits % 256) ∧ e.bits < 256 ^ e.len) ∧
  (∀ (t : StrandId) (w : Nat) (i : Instr), w < 256 ^ insnLen (w % 256) → decodeInsn t w = some i → encodeInsn i = some ⟨insnLen (w % 256), w⟩ ∧ WellFormed i = true) ∧
  (∀ (t : StrandId) (ra : Reg), encodeInsn (.writeCsSpad t ra) = encodeInsn (.cswr t 0x069 ra) ∧ encodeInsn (.writeCsCachectl t ra) = encodeInsn (.cswr t 0x068 ra) ∧ encodeInsn (.writeCsWin t ra) = encodeInsn (.cswr t 0x002 ra)) ∧
  (∀ (t : StrandId) (sel : BitVec 3) (ra : Reg), sel.toNat ≤ 2 → encodeInsn (.writeCsTcmp t sel ra) = encodeInsn (.cswr t (0x078 + sel.setWidth 12) ra))

/-- An invariant that every step keeps, from every state: the configuration in flash stays one that the commands' checks accept (R34, R405, R479, R490, R509; the far-memory clause rests on log entry 10). -/
def Obligations.FlashStaysLegal : Prop :=
  ∀ s t : State, s.cfg.legal → step s = .next t → t.cfg.legal

/-- The module as manufactured, dark: its mode, factory configuration and empty logs. The values that the spec does not state are the model's choice of log entry 1. -/
def Obligations.AtReset : Prop :=
  let s := State.reset
  s.cfg.legal ∧ s.pending = [] ∧ s.body.ctl.mode = .standby ∧ s.cfg.anchor = none ∧ s.cfg.autostart = false ∧ s.cfg.preferred = 0 ∧
    (∀ k : Fin 2, (s.cfg.slots[k]).valid = false) ∧ (∀ o : OctetId, (s.cfg.octets[o]).mode = 0) ∧
    (∀ t : StrandId, (s.body.strand t).run = .neverStarted) ∧ (∀ f : FeedId, (s.body.ctl.feeds[f]).present = false) ∧
    (∀ h : HubId, (s.body.ctl.silt[h]).ring = [] ∧ (s.body.ctl.islands[h]).powered = false) ∧ (∀ d : Fin 232, (s.body.domain d.val).on = false) ∧
    s.body.ctl.tickets = [] ∧ s.body.ctl.conns = [] ∧ (∀ sl : SliceId, (s.body.slice sl).st = .free) ∧ s.body.mem.cells = [] ∧ s.body.mem.poison = []
end

