-- ==== Sys2Proof/Laws/Memory.lean ====
section
/-!
SUPPORT. Memory cells: every operation keeps the canonical form, and reading back what was written (R3). Tables: reading back.
-/

namespace Sys2Proof.Machine

/-! ## Tables -/

theorem tGet_tPut_self {α : Type} (t : Table α) (k : Nat) (v : α) : tGet (tPut t k v) k = some v := by
  induction t with
  | nil => simp [tPut, tGet]
  | cons e r ih =>
    obtain ⟨j, w⟩ := e
    simp only [tPut]
    split
    · simp [tGet]
    · split
      · simp [tGet]
      · rename_i h
        have : ¬ j = k := fun e => h e.symm
        simp [tGet, this, ih]

theorem tGet_tPut_ne {α : Type} (t : Table α) {k i : Nat} (v : α) (h : i ≠ k) : tGet (tPut t k v) i = tGet t i := by
  induction t with
  | nil => simp [tPut, tGet, h.symm]
  | cons e r ih =>
    obtain ⟨j, w⟩ := e
    simp only [tPut]
    split
    · simp [tGet, h.symm]
    · split
      · rename_i e
        have hj : ¬ j = i := fun x => h (x.symm.trans e.symm)
        simp [tGet, h.symm, hj]
      · simp [tGet, ih]

theorem tGet_tDel_self {α : Type} (t : Table α) (k : Nat) : tGet (tDel t k) k = none := by
  induction t with
  | nil => simp [tDel, tGet]
  | cons e r ih =>
    obtain ⟨j, w⟩ := e
    unfold tDel at ih ⊢
    by_cases hj : j = k
    · simpa [hj] using ih
    · simp [hj, tGet, ih]

theorem tGet_tDel_ne {α : Type} (t : Table α) {k i : Nat} (h : i ≠ k) : tGet (tDel t k) i = tGet t i := by
  induction t with
  | nil => simp [tDel, tGet]
  | cons e r ih =>
    obtain ⟨j, w⟩ := e
    unfold tDel at ih ⊢
    by_cases hj : j = k
    · have : ¬ k = i := fun x => h x.symm
      simp [hj, tGet, this, ih]
    · simp [hj, tGet, ih]

theorem tGet_tMod_self {α : Type} (t : Table α) (k : Nat) (f : α → α) : tGet (tMod t k f) k = (tGet t k).map f := by
  induction t with
  | nil => simp [tMod, tGet]
  | cons e r ih =>
    obtain ⟨j, w⟩ := e
    unfold tMod at ih ⊢
    by_cases hj : j = k <;> simp [hj, tGet, ih]

theorem tGet_tMod_ne {α : Type} (t : Table α) {k i : Nat} (f : α → α) (h : i ≠ k) : tGet (tMod t k f) i = tGet t i := by
  induction t with
  | nil => simp [tMod, tGet]
  | cons e r ih =>
    obtain ⟨j, w⟩ := e
    unfold tMod at ih ⊢
    by_cases hj : j = k
    · have : ¬ k = i := fun x => h x.symm
      simp [hj, tGet, this, ih]
    · simp [hj, tGet, ih]

/-! ## The canonical form -/

/-- A list of cells in canonical form whose keys all lie above a bound. -/
def cellsAbove (n : Nat) (m : List Host.Cell) : Prop := ∀ c ∈ m, n < c.1

theorem wf_cons {unl : Nat → Byte} {a : Nat} {v : Byte} {r : List Host.Cell} :
    Memory.wf unl ((a, v) :: r) = true ↔ v ≠ unl a ∧ cellsAbove a r ∧ Memory.wf unl r = true := by
  constructor
  · intro h
    induction r generalizing a v with
    | nil => simp [Memory.wf, cellsAbove] at *; exact h
    | cons c r ih =>
      obtain ⟨k, w⟩ := c
      have h' := h
      simp only [Memory.wf, Bool.and_eq_true, bne_iff_ne, ne_eq, decide_eq_true_eq] at h
      obtain ⟨⟨hv, hk⟩, hr⟩ := h
      have hr' : Memory.wf unl ((k, w) :: r) = true := by simp [Memory.wf, hr]
      obtain ⟨-, hab, -⟩ := ih hr'
      refine ⟨hv, ?_, hr'⟩
      intro c hc
      rcases List.mem_cons.1 hc with rfl | hc
      · exact hk
      · exact lt_trans hk (hab c hc)
  · rintro ⟨hv, hab, hr⟩
    cases r with
    | nil => simp [Memory.wf, hv]
    | cons c r =>
      obtain ⟨k, w⟩ := c
      have hk := hab (k, w) (by simp)
      have h2 := hr
      simp only [Memory.wf] at h2 ⊢
      simp [hv, hk, h2]

theorem cellsAbove_put {unl : Nat → Byte} {m : List Host.Cell} {n a : Nat} {v : Byte} (h : cellsAbove n m) (ha : n < a) :
    cellsAbove n (cellPut unl m a v) := by
  induction m with
  | nil => simp only [cellPut]; split <;> simp [cellsAbove, ha]
  | cons c r ih =>
    obtain ⟨k, w⟩ := c
    have hr : cellsAbove n r := fun c hc => h c (List.mem_cons_of_mem _ hc)
    have hk : n < k := h (k, w) (by simp)
    simp only [cellPut]
    split
    · split
      · exact h
      · intro c hc
        rcases List.mem_cons.1 hc with rfl | hc
        · exact ha
        · exact h c hc
    · split
      · split
        · exact hr
        · intro c hc
          rcases List.mem_cons.1 hc with rfl | hc
          · exact ha
          · exact hr c hc
      · intro c hc
        rcases List.mem_cons.1 hc with rfl | hc
        · exact hk
        · exact ih hr c hc

/-- Writing a byte keeps the canonical form. -/
theorem wf_cellPut {unl : Nat → Byte} {m : List Host.Cell} (a : Nat) (v : Byte) (h : Memory.wf unl m = true) :
    Memory.wf unl (cellPut unl m a v) = true := by
  induction m with
  | nil => simp only [cellPut]; split <;> simp_all [Memory.wf]
  | cons c r ih =>
    obtain ⟨k, w⟩ := c
    obtain ⟨hw, hab, hr⟩ := wf_cons.1 h
    simp only [cellPut]
    split
    · rename_i hak
      split
      · exact h
      · rename_i hv
        refine wf_cons.2 ⟨hv, ?_, h⟩
        intro c hc
        rcases List.mem_cons.1 hc with rfl | hc
        · exact hak
        · exact lt_trans hak (hab c hc)
    · split
      · rename_i he
        subst he
        split
        · exact hr
        · rename_i hv
          exact wf_cons.2 ⟨hv, hab, hr⟩
      · exact wf_cons.2 ⟨hw, cellsAbove_put hab (by omega), ih hr⟩

/-- Writing bytes keeps the canonical form. -/
theorem wf_cellPuts {unl : Nat → Byte} (bs : List Byte) {m : List Host.Cell} (a : Nat) (h : Memory.wf unl m = true) :
    Memory.wf unl (cellPuts unl m a bs) = true := by
  induction bs generalizing m a with
  | nil => exact h
  | cons x xs ih => exact ih (a + 1) (wf_cellPut a x h)

/-- Leaving cells out keeps the canonical form. -/
theorem wf_filter {unl : Nat → Byte} (p : Host.Cell → Bool) {m : List Host.Cell} (h : Memory.wf unl m = true) :
    Memory.wf unl (m.filter p) = true := by
  induction m with
  | nil => rfl
  | cons c r ih =>
    obtain ⟨k, w⟩ := c
    obtain ⟨hw, hab, hr⟩ := wf_cons.1 h
    simp only [List.filter]
    split
    · exact wf_cons.2 ⟨hw, fun c hc => hab c (List.mem_filter.1 hc).1, ih hr⟩
    · exact ih hr

theorem cellGet_of_above {unl : Nat → Byte} {m : List Host.Cell} {a : Nat} (h : cellsAbove a m) : cellGet unl m a = unl a := by
  induction m with
  | nil => rfl
  | cons c r ih =>
    obtain ⟨k, w⟩ := c
    have hk : a < k := h (k, w) (by simp)
    have : ¬ k = a := by omega
    simp [cellGet, this, ih fun c hc => h c (List.mem_cons_of_mem _ hc)]

/-- A byte reads as what was last written there. -/
theorem cellGet_put_self {unl : Nat → Byte} {m : List Host.Cell} (a : Nat) (v : Byte) (h : Memory.wf unl m = true) :
    cellGet unl (cellPut unl m a v) a = v := by
  induction m with
  | nil => simp only [cellPut]; split <;> simp_all [cellGet]
  | cons c r ih =>
    obtain ⟨k, w⟩ := c
    obtain ⟨hw, hab, hr⟩ := wf_cons.1 h
    simp only [cellPut]
    split
    · rename_i hak
      split
      · rename_i hv
        have hab' : cellsAbove a ((k, w) :: r) := by
          intro c hc
          rcases List.mem_cons.1 hc with rfl | hc
          · exact hak
          · exact lt_trans hak (hab c hc)
        rw [cellGet_of_above hab', hv]
      · simp [cellGet]
    · split
      · rename_i he
        subst he
        split
        · rename_i hv
          rw [cellGet_of_above hab, hv]
        · simp [cellGet]
      · rename_i hne
        have : ¬ k = a := fun e => hne e.symm
        simp [cellGet, this, ih hr]

/-- Writing a byte leaves every other byte as it was. -/
theorem cellGet_put_ne {unl : Nat → Byte} {m : List Host.Cell} {a i : Nat} (v : Byte) (h : i ≠ a) :
    cellGet unl (cellPut unl m a v) i = cellGet unl m i := by
  induction m with
  | nil => simp only [cellPut]; split <;> simp [cellGet, h.symm]
  | cons c r ih =>
    obtain ⟨k, w⟩ := c
    simp only [cellPut]
    split
    · split <;> simp [cellGet, h.symm]
    · split
      · rename_i he
        subst he
        split <;> simp [cellGet, h.symm]
      · simp [cellGet, ih]

/-- Bytes outside those written keep their values. -/
theorem cellGet_puts_outside {unl : Nat → Byte} (bs : List Byte) {m : List Host.Cell} {a i : Nat} (h : i < a ∨ a + bs.length ≤ i) :
    cellGet unl (cellPuts unl m a bs) i = cellGet unl m i := by
  induction bs generalizing m a with
  | nil => rfl
  | cons x xs ih =>
    simp only [List.length_cons] at h
    rw [cellPuts, ih (by omega), cellGet_put_ne x (by omega)]

/-- Bytes written read back. -/
theorem cellGet_puts_inside {unl : Nat → Byte} (bs : List Byte) {m : List Host.Cell} (a i : Nat) (hm : Memory.wf unl m = true)
    (h : i < bs.length) : cellGet unl (cellPuts unl m a bs) (a + i) = bs.getD i 0 := by
  induction bs generalizing m a i with
  | nil => simp at h
  | cons x xs ih =>
    cases i with
    | zero => rw [cellPuts, cellGet_puts_outside xs (by omega)]; simp [cellGet_put_self a x hm]
    | succ i =>
      have := ih (a + 1) i (wf_cellPut a x hm) (by simpa using h)
      rw [cellPuts, show a + (i + 1) = a + 1 + i by omega, this]
      simp

/-- After reset nothing is listed, and the form holds. -/
theorem reset_memory_wf : Memory.wf unwritten State.reset.body.mem.cells = true := by
  simp [State.reset, Memory.wf]

/-! ## Little-endian bytes (R3) -/

@[simp] theorem leBytes_length (n v : Nat) : (leBytes n v).length = n := by
  induction n generalizing v with
  | zero => rfl
  | succ n ih => simp [leBytes, ih]

theorem leNat_leBytes (n v : Nat) : leNat (leBytes n v) = v % 256 ^ n := by
  induction n generalizing v with
  | zero => simp [leBytes, leNat, Nat.mod_one]
  | succ n ih =>
    have h : leNat (leBytes (n + 1) v) = v % 256 + 256 * (v / 256 % 256 ^ n) := by
      show (BitVec.ofNat 8 v).toNat + 256 * leNat (leBytes n (v / 256)) = _
      rw [ih, BitVec.toNat_ofNat]
    rw [h, Nat.pow_succ', Nat.mod_mul]

end Sys2Proof.Machine
end

