-- ==== Sys2Proof/Laws/State.lean ====
section
/-!
SUPPORT. What each update of the machine leaves as it is: one lemma for each field and update, and reading back what was written.
-/

namespace Sys2Proof.Machine

@[simp] theorem Body.modCtl_strands (b : Body) (f : Ctl → Ctl) : (b.modCtl f).strands = b.strands := rfl
@[simp] theorem Body.modCtl_cores (b : Body) (f : Ctl → Ctl) : (b.modCtl f).cores = b.cores := rfl
@[simp] theorem Body.modCtl_clusters (b : Body) (f : Ctl → Ctl) : (b.modCtl f).clusters = b.clusters := rfl
@[simp] theorem Body.modCtl_dies (b : Body) (f : Ctl → Ctl) : (b.modCtl f).dies = b.dies := rfl
@[simp] theorem Body.modCtl_mem (b : Body) (f : Ctl → Ctl) : (b.modCtl f).mem = b.mem := rfl
@[simp] theorem Body.modCtl_io (b : Body) (f : Ctl → Ctl) : (b.modCtl f).io = b.io := rfl
@[simp] theorem Body.modCtl_ctl (b : Body) (f : Ctl → Ctl) : (b.modCtl f).ctl = f b.ctl := rfl
@[simp] theorem Body.modCtl_freeCtr (b : Body) (f : Ctl → Ctl) : (b.modCtl f).freeCtr = b.freeCtr := rfl

@[simp] theorem Body.modIo_strands (b : Body) (f : Io → Io) : (b.modIo f).strands = b.strands := rfl
@[simp] theorem Body.modIo_cores (b : Body) (f : Io → Io) : (b.modIo f).cores = b.cores := rfl
@[simp] theorem Body.modIo_clusters (b : Body) (f : Io → Io) : (b.modIo f).clusters = b.clusters := rfl
@[simp] theorem Body.modIo_dies (b : Body) (f : Io → Io) : (b.modIo f).dies = b.dies := rfl
@[simp] theorem Body.modIo_mem (b : Body) (f : Io → Io) : (b.modIo f).mem = b.mem := rfl
@[simp] theorem Body.modIo_io (b : Body) (f : Io → Io) : (b.modIo f).io = f b.io := rfl
@[simp] theorem Body.modIo_ctl (b : Body) (f : Io → Io) : (b.modIo f).ctl = b.ctl := rfl
@[simp] theorem Body.modIo_freeCtr (b : Body) (f : Io → Io) : (b.modIo f).freeCtr = b.freeCtr := rfl

@[simp] theorem Body.modMem_strands (b : Body) (f : MemSys → MemSys) : (b.modMem f).strands = b.strands := rfl
@[simp] theorem Body.modMem_cores (b : Body) (f : MemSys → MemSys) : (b.modMem f).cores = b.cores := rfl
@[simp] theorem Body.modMem_clusters (b : Body) (f : MemSys → MemSys) : (b.modMem f).clusters = b.clusters := rfl
@[simp] theorem Body.modMem_dies (b : Body) (f : MemSys → MemSys) : (b.modMem f).dies = b.dies := rfl
@[simp] theorem Body.modMem_mem (b : Body) (f : MemSys → MemSys) : (b.modMem f).mem = f b.mem := rfl
@[simp] theorem Body.modMem_io (b : Body) (f : MemSys → MemSys) : (b.modMem f).io = b.io := rfl
@[simp] theorem Body.modMem_ctl (b : Body) (f : MemSys → MemSys) : (b.modMem f).ctl = b.ctl := rfl
@[simp] theorem Body.modMem_freeCtr (b : Body) (f : MemSys → MemSys) : (b.modMem f).freeCtr = b.freeCtr := rfl

@[simp] theorem Body.setStrand_strands (b : Body) (t : StrandId) (u : Strand) : (b.setStrand t u).strands = b.strands.set t u := rfl
@[simp] theorem Body.setStrand_cores (b : Body) (t : StrandId) (u : Strand) : (b.setStrand t u).cores = b.cores := rfl
@[simp] theorem Body.setStrand_clusters (b : Body) (t : StrandId) (u : Strand) : (b.setStrand t u).clusters = b.clusters := rfl
@[simp] theorem Body.setStrand_dies (b : Body) (t : StrandId) (u : Strand) : (b.setStrand t u).dies = b.dies := rfl
@[simp] theorem Body.setStrand_mem (b : Body) (t : StrandId) (u : Strand) : (b.setStrand t u).mem = b.mem := rfl
@[simp] theorem Body.setStrand_io (b : Body) (t : StrandId) (u : Strand) : (b.setStrand t u).io = b.io := rfl
@[simp] theorem Body.setStrand_ctl (b : Body) (t : StrandId) (u : Strand) : (b.setStrand t u).ctl = b.ctl := rfl
@[simp] theorem Body.setStrand_freeCtr (b : Body) (t : StrandId) (u : Strand) : (b.setStrand t u).freeCtr = b.freeCtr := rfl

@[simp] theorem Body.modStrand_strands (b : Body) (t : StrandId) (f : Strand → Strand) : (b.modStrand t f).strands = b.strands.set t (f (b.strand t)) := rfl
@[simp] theorem Body.modStrand_cores (b : Body) (t : StrandId) (f : Strand → Strand) : (b.modStrand t f).cores = b.cores := rfl
@[simp] theorem Body.modStrand_clusters (b : Body) (t : StrandId) (f : Strand → Strand) : (b.modStrand t f).clusters = b.clusters := rfl
@[simp] theorem Body.modStrand_dies (b : Body) (t : StrandId) (f : Strand → Strand) : (b.modStrand t f).dies = b.dies := rfl
@[simp] theorem Body.modStrand_mem (b : Body) (t : StrandId) (f : Strand → Strand) : (b.modStrand t f).mem = b.mem := rfl
@[simp] theorem Body.modStrand_io (b : Body) (t : StrandId) (f : Strand → Strand) : (b.modStrand t f).io = b.io := rfl
@[simp] theorem Body.modStrand_ctl (b : Body) (t : StrandId) (f : Strand → Strand) : (b.modStrand t f).ctl = b.ctl := rfl
@[simp] theorem Body.modStrand_freeCtr (b : Body) (t : StrandId) (f : Strand → Strand) : (b.modStrand t f).freeCtr = b.freeCtr := rfl

@[simp] theorem Body.modCore_strands (b : Body) (c : CoreId) (f : Core → Core) : (b.modCore c f).strands = b.strands := rfl
@[simp] theorem Body.modCore_cores (b : Body) (c : CoreId) (f : Core → Core) : (b.modCore c f).cores = b.cores.set c (f (b.core c)) := rfl
@[simp] theorem Body.modCore_clusters (b : Body) (c : CoreId) (f : Core → Core) : (b.modCore c f).clusters = b.clusters := rfl
@[simp] theorem Body.modCore_dies (b : Body) (c : CoreId) (f : Core → Core) : (b.modCore c f).dies = b.dies := rfl
@[simp] theorem Body.modCore_mem (b : Body) (c : CoreId) (f : Core → Core) : (b.modCore c f).mem = b.mem := rfl
@[simp] theorem Body.modCore_io (b : Body) (c : CoreId) (f : Core → Core) : (b.modCore c f).io = b.io := rfl
@[simp] theorem Body.modCore_ctl (b : Body) (c : CoreId) (f : Core → Core) : (b.modCore c f).ctl = b.ctl := rfl
@[simp] theorem Body.modCore_freeCtr (b : Body) (c : CoreId) (f : Core → Core) : (b.modCore c f).freeCtr = b.freeCtr := rfl

@[simp] theorem Body.modCluster_strands (b : Body) (c : ClusterId) (f : Cluster → Cluster) : (b.modCluster c f).strands = b.strands := rfl
@[simp] theorem Body.modCluster_cores (b : Body) (c : ClusterId) (f : Cluster → Cluster) : (b.modCluster c f).cores = b.cores := rfl
@[simp] theorem Body.modCluster_clusters (b : Body) (c : ClusterId) (f : Cluster → Cluster) : (b.modCluster c f).clusters = b.clusters.set c (f (b.cluster c)) := rfl
@[simp] theorem Body.modCluster_dies (b : Body) (c : ClusterId) (f : Cluster → Cluster) : (b.modCluster c f).dies = b.dies := rfl
@[simp] theorem Body.modCluster_mem (b : Body) (c : ClusterId) (f : Cluster → Cluster) : (b.modCluster c f).mem = b.mem := rfl
@[simp] theorem Body.modCluster_io (b : Body) (c : ClusterId) (f : Cluster → Cluster) : (b.modCluster c f).io = b.io := rfl
@[simp] theorem Body.modCluster_ctl (b : Body) (c : ClusterId) (f : Cluster → Cluster) : (b.modCluster c f).ctl = b.ctl := rfl
@[simp] theorem Body.modCluster_freeCtr (b : Body) (c : ClusterId) (f : Cluster → Cluster) : (b.modCluster c f).freeCtr = b.freeCtr := rfl

@[simp] theorem Body.modDie_strands (b : Body) (d : CDieId) (f : Die → Die) : (b.modDie d f).strands = b.strands := rfl
@[simp] theorem Body.modDie_cores (b : Body) (d : CDieId) (f : Die → Die) : (b.modDie d f).cores = b.cores := rfl
@[simp] theorem Body.modDie_clusters (b : Body) (d : CDieId) (f : Die → Die) : (b.modDie d f).clusters = b.clusters := rfl
@[simp] theorem Body.modDie_dies (b : Body) (d : CDieId) (f : Die → Die) : (b.modDie d f).dies = b.dies.set d (f (b.die d)) := rfl
@[simp] theorem Body.modDie_mem (b : Body) (d : CDieId) (f : Die → Die) : (b.modDie d f).mem = b.mem := rfl
@[simp] theorem Body.modDie_io (b : Body) (d : CDieId) (f : Die → Die) : (b.modDie d f).io = b.io := rfl
@[simp] theorem Body.modDie_ctl (b : Body) (d : CDieId) (f : Die → Die) : (b.modDie d f).ctl = b.ctl := rfl
@[simp] theorem Body.modDie_freeCtr (b : Body) (d : CDieId) (f : Die → Die) : (b.modDie d f).freeCtr = b.freeCtr := rfl

@[simp] theorem Body.spend_strands (b : Body) : (b.spend).strands = b.strands := rfl
@[simp] theorem Body.spend_cores (b : Body) : (b.spend).cores = b.cores := rfl
@[simp] theorem Body.spend_clusters (b : Body) : (b.spend).clusters = b.clusters := rfl
@[simp] theorem Body.spend_dies (b : Body) : (b.spend).dies = b.dies := rfl
@[simp] theorem Body.spend_mem (b : Body) : (b.spend).mem = b.mem := rfl
@[simp] theorem Body.spend_io (b : Body) : (b.spend).io = b.io := rfl
@[simp] theorem Body.spend_ctl (b : Body) : (b.spend).ctl = b.ctl := rfl
@[simp] theorem Body.spend_freeCtr (b : Body) : (b.spend).freeCtr = b.freeCtr + 1 := rfl

@[simp] theorem Body.mapStrands_cores (b : Body) (f : StrandId → Strand → Strand) : (b.mapStrands f).cores = b.cores := by rw [Body.mapStrands]
@[simp] theorem Body.mapStrands_clusters (b : Body) (f : StrandId → Strand → Strand) : (b.mapStrands f).clusters = b.clusters := by rw [Body.mapStrands]
@[simp] theorem Body.mapStrands_dies (b : Body) (f : StrandId → Strand → Strand) : (b.mapStrands f).dies = b.dies := by rw [Body.mapStrands]
@[simp] theorem Body.mapStrands_mem (b : Body) (f : StrandId → Strand → Strand) : (b.mapStrands f).mem = b.mem := by rw [Body.mapStrands]
@[simp] theorem Body.mapStrands_io (b : Body) (f : StrandId → Strand → Strand) : (b.mapStrands f).io = b.io := by rw [Body.mapStrands]
@[simp] theorem Body.mapStrands_ctl (b : Body) (f : StrandId → Strand → Strand) : (b.mapStrands f).ctl = b.ctl := by rw [Body.mapStrands]
@[simp] theorem Body.mapStrands_freeCtr (b : Body) (f : StrandId → Strand → Strand) : (b.mapStrands f).freeCtr = b.freeCtr := by rw [Body.mapStrands]

@[simp] theorem Body.mapCores_strands (b : Body) (f : CoreId → Core → Core) : (b.mapCores f).strands = b.strands := by rw [Body.mapCores]
@[simp] theorem Body.mapCores_clusters (b : Body) (f : CoreId → Core → Core) : (b.mapCores f).clusters = b.clusters := by rw [Body.mapCores]
@[simp] theorem Body.mapCores_dies (b : Body) (f : CoreId → Core → Core) : (b.mapCores f).dies = b.dies := by rw [Body.mapCores]
@[simp] theorem Body.mapCores_mem (b : Body) (f : CoreId → Core → Core) : (b.mapCores f).mem = b.mem := by rw [Body.mapCores]
@[simp] theorem Body.mapCores_io (b : Body) (f : CoreId → Core → Core) : (b.mapCores f).io = b.io := by rw [Body.mapCores]
@[simp] theorem Body.mapCores_ctl (b : Body) (f : CoreId → Core → Core) : (b.mapCores f).ctl = b.ctl := by rw [Body.mapCores]
@[simp] theorem Body.mapCores_freeCtr (b : Body) (f : CoreId → Core → Core) : (b.mapCores f).freeCtr = b.freeCtr := by rw [Body.mapCores]

@[simp] theorem Body.mapClusters_strands (b : Body) (f : ClusterId → Cluster → Cluster) : (b.mapClusters f).strands = b.strands := by rw [Body.mapClusters]
@[simp] theorem Body.mapClusters_cores (b : Body) (f : ClusterId → Cluster → Cluster) : (b.mapClusters f).cores = b.cores := by rw [Body.mapClusters]
@[simp] theorem Body.mapClusters_dies (b : Body) (f : ClusterId → Cluster → Cluster) : (b.mapClusters f).dies = b.dies := by rw [Body.mapClusters]
@[simp] theorem Body.mapClusters_mem (b : Body) (f : ClusterId → Cluster → Cluster) : (b.mapClusters f).mem = b.mem := by rw [Body.mapClusters]
@[simp] theorem Body.mapClusters_io (b : Body) (f : ClusterId → Cluster → Cluster) : (b.mapClusters f).io = b.io := by rw [Body.mapClusters]
@[simp] theorem Body.mapClusters_ctl (b : Body) (f : ClusterId → Cluster → Cluster) : (b.mapClusters f).ctl = b.ctl := by rw [Body.mapClusters]
@[simp] theorem Body.mapClusters_freeCtr (b : Body) (f : ClusterId → Cluster → Cluster) : (b.mapClusters f).freeCtr = b.freeCtr := by rw [Body.mapClusters]

@[simp] theorem Body.setSlice_strands (b : Body) (s : SliceId) (x : Slice) : (b.setSlice s x).strands = b.strands := rfl
@[simp] theorem Body.setSlice_cores (b : Body) (s : SliceId) (x : Slice) : (b.setSlice s x).cores = b.cores := rfl
@[simp] theorem Body.setSlice_clusters (b : Body) (s : SliceId) (x : Slice) : (b.setSlice s x).clusters = b.clusters := rfl
@[simp] theorem Body.setSlice_dies (b : Body) (s : SliceId) (x : Slice) : (b.setSlice s x).dies = b.dies := rfl
@[simp] theorem Body.setSlice_mem (b : Body) (s : SliceId) (x : Slice) : (b.setSlice s x).mem = b.mem := rfl
@[simp] theorem Body.setSlice_ctl (b : Body) (s : SliceId) (x : Slice) : (b.setSlice s x).ctl = b.ctl := rfl
@[simp] theorem Body.setSlice_freeCtr (b : Body) (s : SliceId) (x : Slice) : (b.setSlice s x).freeCtr = b.freeCtr := rfl

@[simp] theorem Body.modSlice_strands (b : Body) (s : SliceId) (f : Slice → Slice) : (b.modSlice s f).strands = b.strands := rfl
@[simp] theorem Body.modSlice_cores (b : Body) (s : SliceId) (f : Slice → Slice) : (b.modSlice s f).cores = b.cores := rfl
@[simp] theorem Body.modSlice_clusters (b : Body) (s : SliceId) (f : Slice → Slice) : (b.modSlice s f).clusters = b.clusters := rfl
@[simp] theorem Body.modSlice_dies (b : Body) (s : SliceId) (f : Slice → Slice) : (b.modSlice s f).dies = b.dies := rfl
@[simp] theorem Body.modSlice_mem (b : Body) (s : SliceId) (f : Slice → Slice) : (b.modSlice s f).mem = b.mem := rfl
@[simp] theorem Body.modSlice_ctl (b : Body) (s : SliceId) (f : Slice → Slice) : (b.modSlice s f).ctl = b.ctl := rfl
@[simp] theorem Body.modSlice_freeCtr (b : Body) (s : SliceId) (f : Slice → Slice) : (b.modSlice s f).freeCtr = b.freeCtr := rfl

@[simp] theorem Body.modSubch_strands (b : Body) (k : Nat) (f : Subch → Subch) : (b.modSubch k f).strands = b.strands := rfl
@[simp] theorem Body.modSubch_cores (b : Body) (k : Nat) (f : Subch → Subch) : (b.modSubch k f).cores = b.cores := rfl
@[simp] theorem Body.modSubch_clusters (b : Body) (k : Nat) (f : Subch → Subch) : (b.modSubch k f).clusters = b.clusters := rfl
@[simp] theorem Body.modSubch_dies (b : Body) (k : Nat) (f : Subch → Subch) : (b.modSubch k f).dies = b.dies := rfl
@[simp] theorem Body.modSubch_mem (b : Body) (k : Nat) (f : Subch → Subch) : (b.modSubch k f).mem = b.mem := rfl
@[simp] theorem Body.modSubch_ctl (b : Body) (k : Nat) (f : Subch → Subch) : (b.modSubch k f).ctl = b.ctl := rfl
@[simp] theorem Body.modSubch_freeCtr (b : Body) (k : Nat) (f : Subch → Subch) : (b.modSubch k f).freeCtr = b.freeCtr := rfl

@[simp] theorem Body.modPort_strands (b : Body) (p : PortId) (f : Port → Port) : (b.modPort p f).strands = b.strands := rfl
@[simp] theorem Body.modPort_cores (b : Body) (p : PortId) (f : Port → Port) : (b.modPort p f).cores = b.cores := rfl
@[simp] theorem Body.modPort_clusters (b : Body) (p : PortId) (f : Port → Port) : (b.modPort p f).clusters = b.clusters := rfl
@[simp] theorem Body.modPort_dies (b : Body) (p : PortId) (f : Port → Port) : (b.modPort p f).dies = b.dies := rfl
@[simp] theorem Body.modPort_mem (b : Body) (p : PortId) (f : Port → Port) : (b.modPort p f).mem = b.mem := rfl
@[simp] theorem Body.modPort_ctl (b : Body) (p : PortId) (f : Port → Port) : (b.modPort p f).ctl = b.ctl := rfl
@[simp] theorem Body.modPort_freeCtr (b : Body) (p : PortId) (f : Port → Port) : (b.modPort p f).freeCtr = b.freeCtr := rfl

@[simp] theorem Body.modChan_strands (b : Body) (h : HubId) (n : Fin 16) (f : ChanEng → ChanEng) : (b.modChan h n f).strands = b.strands := rfl
@[simp] theorem Body.modChan_cores (b : Body) (h : HubId) (n : Fin 16) (f : ChanEng → ChanEng) : (b.modChan h n f).cores = b.cores := rfl
@[simp] theorem Body.modChan_clusters (b : Body) (h : HubId) (n : Fin 16) (f : ChanEng → ChanEng) : (b.modChan h n f).clusters = b.clusters := rfl
@[simp] theorem Body.modChan_dies (b : Body) (h : HubId) (n : Fin 16) (f : ChanEng → ChanEng) : (b.modChan h n f).dies = b.dies := rfl
@[simp] theorem Body.modChan_mem (b : Body) (h : HubId) (n : Fin 16) (f : ChanEng → ChanEng) : (b.modChan h n f).mem = b.mem := rfl
@[simp] theorem Body.modChan_ctl (b : Body) (h : HubId) (n : Fin 16) (f : ChanEng → ChanEng) : (b.modChan h n f).ctl = b.ctl := rfl
@[simp] theorem Body.modChan_freeCtr (b : Body) (h : HubId) (n : Fin 16) (f : ChanEng → ChanEng) : (b.modChan h n f).freeCtr = b.freeCtr := rfl

@[simp] theorem Body.modEng_strands (b : Body) (e : EngineRef) (f : JobEng → JobEng) : (b.modEng e f).strands = b.strands := rfl
@[simp] theorem Body.modEng_cores (b : Body) (e : EngineRef) (f : JobEng → JobEng) : (b.modEng e f).cores = b.cores := rfl
@[simp] theorem Body.modEng_clusters (b : Body) (e : EngineRef) (f : JobEng → JobEng) : (b.modEng e f).clusters = b.clusters := rfl
@[simp] theorem Body.modEng_dies (b : Body) (e : EngineRef) (f : JobEng → JobEng) : (b.modEng e f).dies = b.dies := rfl
@[simp] theorem Body.modEng_mem (b : Body) (e : EngineRef) (f : JobEng → JobEng) : (b.modEng e f).mem = b.mem := rfl
@[simp] theorem Body.modEng_ctl (b : Body) (e : EngineRef) (f : JobEng → JobEng) : (b.modEng e f).ctl = b.ctl := rfl
@[simp] theorem Body.modEng_freeCtr (b : Body) (e : EngineRef) (f : JobEng → JobEng) : (b.modEng e f).freeCtr = b.freeCtr := rfl

@[simp] theorem Body.modDomain_strands (b : Body) (d : Nat) (f : Domain → Domain) : (b.modDomain d f).strands = b.strands := rfl
@[simp] theorem Body.modDomain_cores (b : Body) (d : Nat) (f : Domain → Domain) : (b.modDomain d f).cores = b.cores := rfl
@[simp] theorem Body.modDomain_clusters (b : Body) (d : Nat) (f : Domain → Domain) : (b.modDomain d f).clusters = b.clusters := rfl
@[simp] theorem Body.modDomain_dies (b : Body) (d : Nat) (f : Domain → Domain) : (b.modDomain d f).dies = b.dies := rfl
@[simp] theorem Body.modDomain_mem (b : Body) (d : Nat) (f : Domain → Domain) : (b.modDomain d f).mem = b.mem := rfl
@[simp] theorem Body.modDomain_io (b : Body) (d : Nat) (f : Domain → Domain) : (b.modDomain d f).io = b.io := rfl
@[simp] theorem Body.modDomain_freeCtr (b : Body) (d : Nat) (f : Domain → Domain) : (b.modDomain d f).freeCtr = b.freeCtr := rfl

@[simp] theorem Body.modIsland_strands (b : Body) (h : HubId) (f : Island → Island) : (b.modIsland h f).strands = b.strands := rfl
@[simp] theorem Body.modIsland_cores (b : Body) (h : HubId) (f : Island → Island) : (b.modIsland h f).cores = b.cores := rfl
@[simp] theorem Body.modIsland_clusters (b : Body) (h : HubId) (f : Island → Island) : (b.modIsland h f).clusters = b.clusters := rfl
@[simp] theorem Body.modIsland_dies (b : Body) (h : HubId) (f : Island → Island) : (b.modIsland h f).dies = b.dies := rfl
@[simp] theorem Body.modIsland_mem (b : Body) (h : HubId) (f : Island → Island) : (b.modIsland h f).mem = b.mem := rfl
@[simp] theorem Body.modIsland_io (b : Body) (h : HubId) (f : Island → Island) : (b.modIsland h f).io = b.io := rfl
@[simp] theorem Body.modIsland_freeCtr (b : Body) (h : HubId) (f : Island → Island) : (b.modIsland h f).freeCtr = b.freeCtr := rfl

@[simp] theorem Body.modFeed_strands (b : Body) (k : FeedId) (f : Feed → Feed) : (b.modFeed k f).strands = b.strands := rfl
@[simp] theorem Body.modFeed_cores (b : Body) (k : FeedId) (f : Feed → Feed) : (b.modFeed k f).cores = b.cores := rfl
@[simp] theorem Body.modFeed_clusters (b : Body) (k : FeedId) (f : Feed → Feed) : (b.modFeed k f).clusters = b.clusters := rfl
@[simp] theorem Body.modFeed_dies (b : Body) (k : FeedId) (f : Feed → Feed) : (b.modFeed k f).dies = b.dies := rfl
@[simp] theorem Body.modFeed_mem (b : Body) (k : FeedId) (f : Feed → Feed) : (b.modFeed k f).mem = b.mem := rfl
@[simp] theorem Body.modFeed_io (b : Body) (k : FeedId) (f : Feed → Feed) : (b.modFeed k f).io = b.io := rfl
@[simp] theorem Body.modFeed_freeCtr (b : Body) (k : FeedId) (f : Feed → Feed) : (b.modFeed k f).freeCtr = b.freeCtr := rfl

@[simp] theorem Body.count_strands (b : Body) (k l : Nat) (f : Tilth → Tilth) : (b.count k l f).strands = b.strands := rfl
@[simp] theorem Body.count_cores (b : Body) (k l : Nat) (f : Tilth → Tilth) : (b.count k l f).cores = b.cores := rfl
@[simp] theorem Body.count_clusters (b : Body) (k l : Nat) (f : Tilth → Tilth) : (b.count k l f).clusters = b.clusters := rfl
@[simp] theorem Body.count_dies (b : Body) (k l : Nat) (f : Tilth → Tilth) : (b.count k l f).dies = b.dies := rfl
@[simp] theorem Body.count_mem (b : Body) (k l : Nat) (f : Tilth → Tilth) : (b.count k l f).mem = b.mem := rfl
@[simp] theorem Body.count_io (b : Body) (k l : Nat) (f : Tilth → Tilth) : (b.count k l f).io = b.io := rfl
@[simp] theorem Body.count_freeCtr (b : Body) (k l : Nat) (f : Tilth → Tilth) : (b.count k l f).freeCtr = b.freeCtr := rfl

@[simp] theorem Body.reach_strands (b : Body) (h : HubId) (n : Nat) : (b.reach h n).strands = b.strands := rfl
@[simp] theorem Body.reach_cores (b : Body) (h : HubId) (n : Nat) : (b.reach h n).cores = b.cores := rfl
@[simp] theorem Body.reach_clusters (b : Body) (h : HubId) (n : Nat) : (b.reach h n).clusters = b.clusters := rfl
@[simp] theorem Body.reach_dies (b : Body) (h : HubId) (n : Nat) : (b.reach h n).dies = b.dies := rfl
@[simp] theorem Body.reach_mem (b : Body) (h : HubId) (n : Nat) : (b.reach h n).mem = b.mem := rfl
@[simp] theorem Body.reach_io (b : Body) (h : HubId) (n : Nat) : (b.reach h n).io = b.io := rfl
@[simp] theorem Body.reach_freeCtr (b : Body) (h : HubId) (n : Nat) : (b.reach h n).freeCtr = b.freeCtr := rfl

@[simp] theorem Body.finishTicket_strands (b : Body) (n : BitVec 32) (st d : Byte) (p : List Byte) : (b.finishTicket n st d p).strands = b.strands := rfl
@[simp] theorem Body.finishTicket_cores (b : Body) (n : BitVec 32) (st d : Byte) (p : List Byte) : (b.finishTicket n st d p).cores = b.cores := rfl
@[simp] theorem Body.finishTicket_clusters (b : Body) (n : BitVec 32) (st d : Byte) (p : List Byte) : (b.finishTicket n st d p).clusters = b.clusters := rfl
@[simp] theorem Body.finishTicket_dies (b : Body) (n : BitVec 32) (st d : Byte) (p : List Byte) : (b.finishTicket n st d p).dies = b.dies := rfl
@[simp] theorem Body.finishTicket_mem (b : Body) (n : BitVec 32) (st d : Byte) (p : List Byte) : (b.finishTicket n st d p).mem = b.mem := rfl
@[simp] theorem Body.finishTicket_io (b : Body) (n : BitVec 32) (st d : Byte) (p : List Byte) : (b.finishTicket n st d p).io = b.io := rfl
@[simp] theorem Body.finishTicket_freeCtr (b : Body) (n : BitVec 32) (st d : Byte) (p : List Byte) : (b.finishTicket n st d p).freeCtr = b.freeCtr := rfl

@[simp] theorem Body.closeConns_strands (b : Body) (p : Nat → Conn → Bool) : (b.closeConns p).strands = b.strands := rfl
@[simp] theorem Body.closeConns_cores (b : Body) (p : Nat → Conn → Bool) : (b.closeConns p).cores = b.cores := rfl
@[simp] theorem Body.closeConns_clusters (b : Body) (p : Nat → Conn → Bool) : (b.closeConns p).clusters = b.clusters := rfl
@[simp] theorem Body.closeConns_dies (b : Body) (p : Nat → Conn → Bool) : (b.closeConns p).dies = b.dies := rfl
@[simp] theorem Body.closeConns_mem (b : Body) (p : Nat → Conn → Bool) : (b.closeConns p).mem = b.mem := rfl
@[simp] theorem Body.closeConns_io (b : Body) (p : Nat → Conn → Bool) : (b.closeConns p).io = b.io := rfl
@[simp] theorem Body.closeConns_freeCtr (b : Body) (p : Nat → Conn → Bool) : (b.closeConns p).freeCtr = b.freeCtr := rfl

@[simp] theorem Body.useL1_strands (b : Body) (c : CoreId) (fetch : Bool) (slot : Nat) : (b.useL1 c fetch slot).strands = b.strands := rfl
@[simp] theorem Body.useL1_clusters (b : Body) (c : CoreId) (fetch : Bool) (slot : Nat) : (b.useL1 c fetch slot).clusters = b.clusters := rfl
@[simp] theorem Body.useL1_dies (b : Body) (c : CoreId) (fetch : Bool) (slot : Nat) : (b.useL1 c fetch slot).dies = b.dies := rfl
@[simp] theorem Body.useL1_mem (b : Body) (c : CoreId) (fetch : Bool) (slot : Nat) : (b.useL1 c fetch slot).mem = b.mem := rfl
@[simp] theorem Body.useL1_io (b : Body) (c : CoreId) (fetch : Bool) (slot : Nat) : (b.useL1 c fetch slot).io = b.io := rfl
@[simp] theorem Body.useL1_ctl (b : Body) (c : CoreId) (fetch : Bool) (slot : Nat) : (b.useL1 c fetch slot).ctl = b.ctl := rfl
@[simp] theorem Body.useL1_freeCtr (b : Body) (c : CoreId) (fetch : Bool) (slot : Nat) : (b.useL1 c fetch slot).freeCtr = b.freeCtr := rfl

@[simp] theorem Body.useL2_strands (b : Body) (c : ClusterId) (slot : Nat) : (b.useL2 c slot).strands = b.strands := rfl
@[simp] theorem Body.useL2_cores (b : Body) (c : ClusterId) (slot : Nat) : (b.useL2 c slot).cores = b.cores := rfl
@[simp] theorem Body.useL2_dies (b : Body) (c : ClusterId) (slot : Nat) : (b.useL2 c slot).dies = b.dies := rfl
@[simp] theorem Body.useL2_mem (b : Body) (c : ClusterId) (slot : Nat) : (b.useL2 c slot).mem = b.mem := rfl
@[simp] theorem Body.useL2_io (b : Body) (c : ClusterId) (slot : Nat) : (b.useL2 c slot).io = b.io := rfl
@[simp] theorem Body.useL2_ctl (b : Body) (c : ClusterId) (slot : Nat) : (b.useL2 c slot).ctl = b.ctl := rfl
@[simp] theorem Body.useL2_freeCtr (b : Body) (c : ClusterId) (slot : Nat) : (b.useL2 c slot).freeCtr = b.freeCtr := rfl

@[simp] theorem Body.useL3_strands (b : Body) (d : CDieId) (slot : Nat) : (b.useL3 d slot).strands = b.strands := rfl
@[simp] theorem Body.useL3_cores (b : Body) (d : CDieId) (slot : Nat) : (b.useL3 d slot).cores = b.cores := rfl
@[simp] theorem Body.useL3_clusters (b : Body) (d : CDieId) (slot : Nat) : (b.useL3 d slot).clusters = b.clusters := rfl
@[simp] theorem Body.useL3_mem (b : Body) (d : CDieId) (slot : Nat) : (b.useL3 d slot).mem = b.mem := rfl
@[simp] theorem Body.useL3_io (b : Body) (d : CDieId) (slot : Nat) : (b.useL3 d slot).io = b.io := rfl
@[simp] theorem Body.useL3_ctl (b : Body) (d : CDieId) (slot : Nat) : (b.useL3 d slot).ctl = b.ctl := rfl
@[simp] theorem Body.useL3_freeCtr (b : Body) (d : CDieId) (slot : Nat) : (b.useL3 d slot).freeCtr = b.freeCtr := rfl

@[simp] theorem Body.setL2_strands (b : Body) (c : ClusterId) (slot : Nat) (e : L2Line) : (b.setL2 c slot e).strands = b.strands := rfl
@[simp] theorem Body.setL2_cores (b : Body) (c : ClusterId) (slot : Nat) (e : L2Line) : (b.setL2 c slot e).cores = b.cores := rfl
@[simp] theorem Body.setL2_dies (b : Body) (c : ClusterId) (slot : Nat) (e : L2Line) : (b.setL2 c slot e).dies = b.dies := rfl
@[simp] theorem Body.setL2_mem (b : Body) (c : ClusterId) (slot : Nat) (e : L2Line) : (b.setL2 c slot e).mem = b.mem := rfl
@[simp] theorem Body.setL2_io (b : Body) (c : ClusterId) (slot : Nat) (e : L2Line) : (b.setL2 c slot e).io = b.io := rfl
@[simp] theorem Body.setL2_ctl (b : Body) (c : ClusterId) (slot : Nat) (e : L2Line) : (b.setL2 c slot e).ctl = b.ctl := rfl
@[simp] theorem Body.setL2_freeCtr (b : Body) (c : ClusterId) (slot : Nat) (e : L2Line) : (b.setL2 c slot e).freeCtr = b.freeCtr := rfl

@[simp] theorem Body.setDir_strands (b : Body) (l : Line) (e : Option DirEntry) : (b.setDir l e).strands = b.strands := rfl
@[simp] theorem Body.setDir_cores (b : Body) (l : Line) (e : Option DirEntry) : (b.setDir l e).cores = b.cores := rfl
@[simp] theorem Body.setDir_clusters (b : Body) (l : Line) (e : Option DirEntry) : (b.setDir l e).clusters = b.clusters := rfl
@[simp] theorem Body.setDir_dies (b : Body) (l : Line) (e : Option DirEntry) : (b.setDir l e).dies = b.dies := rfl
@[simp] theorem Body.setDir_io (b : Body) (l : Line) (e : Option DirEntry) : (b.setDir l e).io = b.io := rfl
@[simp] theorem Body.setDir_ctl (b : Body) (l : Line) (e : Option DirEntry) : (b.setDir l e).ctl = b.ctl := rfl
@[simp] theorem Body.setDir_freeCtr (b : Body) (l : Line) (e : Option DirEntry) : (b.setDir l e).freeCtr = b.freeCtr := rfl

@[simp] theorem Body.dropReq_strands (b : Body) (r : Req) : (b.dropReq r).strands = b.strands := rfl
@[simp] theorem Body.dropReq_cores (b : Body) (r : Req) : (b.dropReq r).cores = b.cores := rfl
@[simp] theorem Body.dropReq_clusters (b : Body) (r : Req) : (b.dropReq r).clusters = b.clusters := rfl
@[simp] theorem Body.dropReq_dies (b : Body) (r : Req) : (b.dropReq r).dies = b.dies := rfl
@[simp] theorem Body.dropReq_io (b : Body) (r : Req) : (b.dropReq r).io = b.io := rfl
@[simp] theorem Body.dropReq_ctl (b : Body) (r : Req) : (b.dropReq r).ctl = b.ctl := rfl
@[simp] theorem Body.dropReq_freeCtr (b : Body) (r : Req) : (b.dropReq r).freeCtr = b.freeCtr := rfl

@[simp] theorem Body.reissueBridge_strands (b : Body) (n : BundleId) : (b.reissueBridge n).strands = b.strands := by simp [Body.reissueBridge]
@[simp] theorem Body.reissueBridge_clusters (b : Body) (n : BundleId) : (b.reissueBridge n).clusters = b.clusters := by simp [Body.reissueBridge]
@[simp] theorem Body.reissueBridge_dies (b : Body) (n : BundleId) : (b.reissueBridge n).dies = b.dies := by simp [Body.reissueBridge]
@[simp] theorem Body.reissueBridge_ctl (b : Body) (n : BundleId) : (b.reissueBridge n).ctl = b.ctl := by simp [Body.reissueBridge]
@[simp] theorem Body.reissueBridge_freeCtr (b : Body) (n : BundleId) : (b.reissueBridge n).freeCtr = b.freeCtr := by simp [Body.reissueBridge]

@[simp] theorem Body.modRange_strands (b : Body) (base : Nat) (f : FarRange → FarRange) : (b.modRange base f).strands = b.strands := rfl
@[simp] theorem Body.modRange_cores (b : Body) (base : Nat) (f : FarRange → FarRange) : (b.modRange base f).cores = b.cores := rfl
@[simp] theorem Body.modRange_clusters (b : Body) (base : Nat) (f : FarRange → FarRange) : (b.modRange base f).clusters = b.clusters := rfl
@[simp] theorem Body.modRange_dies (b : Body) (base : Nat) (f : FarRange → FarRange) : (b.modRange base f).dies = b.dies := rfl
@[simp] theorem Body.modRange_io (b : Body) (base : Nat) (f : FarRange → FarRange) : (b.modRange base f).io = b.io := rfl
@[simp] theorem Body.modRange_ctl (b : Body) (base : Nat) (f : FarRange → FarRange) : (b.modRange base f).ctl = b.ctl := rfl
@[simp] theorem Body.modRange_freeCtr (b : Body) (base : Nat) (f : FarRange → FarRange) : (b.modRange base f).freeCtr = b.freeCtr := rfl

@[simp] theorem Body.setQp_strands (b : Body) (s : SliceId) (q : Nat) (x : Qp) : (b.setQp s q x).strands = b.strands := rfl
@[simp] theorem Body.setQp_cores (b : Body) (s : SliceId) (q : Nat) (x : Qp) : (b.setQp s q x).cores = b.cores := rfl
@[simp] theorem Body.setQp_clusters (b : Body) (s : SliceId) (q : Nat) (x : Qp) : (b.setQp s q x).clusters = b.clusters := rfl
@[simp] theorem Body.setQp_dies (b : Body) (s : SliceId) (q : Nat) (x : Qp) : (b.setQp s q x).dies = b.dies := rfl
@[simp] theorem Body.setQp_mem (b : Body) (s : SliceId) (q : Nat) (x : Qp) : (b.setQp s q x).mem = b.mem := rfl
@[simp] theorem Body.setQp_ctl (b : Body) (s : SliceId) (q : Nat) (x : Qp) : (b.setQp s q x).ctl = b.ctl := rfl
@[simp] theorem Body.setQp_freeCtr (b : Body) (s : SliceId) (q : Nat) (x : Qp) : (b.setQp s q x).freeCtr = b.freeCtr := rfl

@[simp] theorem Body.dropPosted_strands (b : Body) (p : Posted) : (b.dropPosted p).strands = b.strands := rfl
@[simp] theorem Body.dropPosted_cores (b : Body) (p : Posted) : (b.dropPosted p).cores = b.cores := rfl
@[simp] theorem Body.dropPosted_clusters (b : Body) (p : Posted) : (b.dropPosted p).clusters = b.clusters := rfl
@[simp] theorem Body.dropPosted_dies (b : Body) (p : Posted) : (b.dropPosted p).dies = b.dies := rfl
@[simp] theorem Body.dropPosted_mem (b : Body) (p : Posted) : (b.dropPosted p).mem = b.mem := rfl
@[simp] theorem Body.dropPosted_ctl (b : Body) (p : Posted) : (b.dropPosted p).ctl = b.ctl := rfl
@[simp] theorem Body.dropPosted_freeCtr (b : Body) (p : Posted) : (b.dropPosted p).freeCtr = b.freeCtr := rfl

@[simp] theorem Body.dropRecords_strands (b : Body) (s : SliceId) : (b.dropRecords s).strands = b.strands := rfl
@[simp] theorem Body.dropRecords_cores (b : Body) (s : SliceId) : (b.dropRecords s).cores = b.cores := rfl
@[simp] theorem Body.dropRecords_clusters (b : Body) (s : SliceId) : (b.dropRecords s).clusters = b.clusters := rfl
@[simp] theorem Body.dropRecords_dies (b : Body) (s : SliceId) : (b.dropRecords s).dies = b.dies := rfl
@[simp] theorem Body.dropRecords_mem (b : Body) (s : SliceId) : (b.dropRecords s).mem = b.mem := rfl
@[simp] theorem Body.dropRecords_ctl (b : Body) (s : SliceId) : (b.dropRecords s).ctl = b.ctl := rfl
@[simp] theorem Body.dropRecords_freeCtr (b : Body) (s : SliceId) : (b.dropRecords s).freeCtr = b.freeCtr := rfl

@[simp] theorem Body.setJob_strands (b : Body) (j k : Job) : (b.setJob j k).strands = b.strands := rfl
@[simp] theorem Body.setJob_cores (b : Body) (j k : Job) : (b.setJob j k).cores = b.cores := rfl
@[simp] theorem Body.setJob_clusters (b : Body) (j k : Job) : (b.setJob j k).clusters = b.clusters := rfl
@[simp] theorem Body.setJob_dies (b : Body) (j k : Job) : (b.setJob j k).dies = b.dies := rfl
@[simp] theorem Body.setJob_mem (b : Body) (j k : Job) : (b.setJob j k).mem = b.mem := rfl
@[simp] theorem Body.setJob_ctl (b : Body) (j k : Job) : (b.setJob j k).ctl = b.ctl := rfl
@[simp] theorem Body.setJob_freeCtr (b : Body) (j k : Job) : (b.setJob j k).freeCtr = b.freeCtr := rfl

@[simp] theorem Body.setPool_strands (b : Body) (h : HubId) (p : PoolKind) (c : PoolClock) : (b.setPool h p c).strands = b.strands := rfl
@[simp] theorem Body.setPool_cores (b : Body) (h : HubId) (p : PoolKind) (c : PoolClock) : (b.setPool h p c).cores = b.cores := rfl
@[simp] theorem Body.setPool_clusters (b : Body) (h : HubId) (p : PoolKind) (c : PoolClock) : (b.setPool h p c).clusters = b.clusters := rfl
@[simp] theorem Body.setPool_dies (b : Body) (h : HubId) (p : PoolKind) (c : PoolClock) : (b.setPool h p c).dies = b.dies := rfl
@[simp] theorem Body.setPool_mem (b : Body) (h : HubId) (p : PoolKind) (c : PoolClock) : (b.setPool h p c).mem = b.mem := rfl
@[simp] theorem Body.setPool_ctl (b : Body) (h : HubId) (p : PoolKind) (c : PoolClock) : (b.setPool h p c).ctl = b.ctl := rfl
@[simp] theorem Body.setPool_freeCtr (b : Body) (h : HubId) (p : PoolKind) (c : PoolClock) : (b.setPool h p c).freeCtr = b.freeCtr := rfl

@[simp] theorem Body.joinPool_strands (b : Body) (h : HubId) (p : PoolKind) (s : SliceId) : (b.joinPool h p s).strands = b.strands := by rw [Body.joinPool]; split <;> rfl
@[simp] theorem Body.joinPool_cores (b : Body) (h : HubId) (p : PoolKind) (s : SliceId) : (b.joinPool h p s).cores = b.cores := by rw [Body.joinPool]; split <;> rfl
@[simp] theorem Body.joinPool_clusters (b : Body) (h : HubId) (p : PoolKind) (s : SliceId) : (b.joinPool h p s).clusters = b.clusters := by rw [Body.joinPool]; split <;> rfl
@[simp] theorem Body.joinPool_dies (b : Body) (h : HubId) (p : PoolKind) (s : SliceId) : (b.joinPool h p s).dies = b.dies := by rw [Body.joinPool]; split <;> rfl
@[simp] theorem Body.joinPool_mem (b : Body) (h : HubId) (p : PoolKind) (s : SliceId) : (b.joinPool h p s).mem = b.mem := by rw [Body.joinPool]; split <;> rfl
@[simp] theorem Body.joinPool_ctl (b : Body) (h : HubId) (p : PoolKind) (s : SliceId) : (b.joinPool h p s).ctl = b.ctl := by rw [Body.joinPool]; split <;> rfl
@[simp] theorem Body.joinPool_freeCtr (b : Body) (h : HubId) (p : PoolKind) (s : SliceId) : (b.joinPool h p s).freeCtr = b.freeCtr := by rw [Body.joinPool]; split <;> rfl

@[simp] theorem Body.charge_strands (b : Body) (h : HubId) (s : SliceId) (d : List Byte) : (b.charge h s d).strands = b.strands := by simp [Body.charge, Body.setPool]
@[simp] theorem Body.charge_cores (b : Body) (h : HubId) (s : SliceId) (d : List Byte) : (b.charge h s d).cores = b.cores := by simp [Body.charge, Body.setPool]
@[simp] theorem Body.charge_clusters (b : Body) (h : HubId) (s : SliceId) (d : List Byte) : (b.charge h s d).clusters = b.clusters := by simp [Body.charge, Body.setPool]
@[simp] theorem Body.charge_dies (b : Body) (h : HubId) (s : SliceId) (d : List Byte) : (b.charge h s d).dies = b.dies := by simp [Body.charge, Body.setPool]
@[simp] theorem Body.charge_mem (b : Body) (h : HubId) (s : SliceId) (d : List Byte) : (b.charge h s d).mem = b.mem := by simp [Body.charge, Body.setPool]
@[simp] theorem Body.charge_ctl (b : Body) (h : HubId) (s : SliceId) (d : List Byte) : (b.charge h s d).ctl = b.ctl := by simp [Body.charge, Body.setPool]
@[simp] theorem Body.charge_freeCtr (b : Body) (h : HubId) (s : SliceId) (d : List Byte) : (b.charge h s d).freeCtr = b.freeCtr := by simp [Body.charge, Body.setPool]

@[simp] theorem Body.jPut_strands (b : Body) (ix : Nat) (e : JEntry) : (b.jPut ix e).strands = b.strands := rfl
@[simp] theorem Body.jPut_cores (b : Body) (ix : Nat) (e : JEntry) : (b.jPut ix e).cores = b.cores := rfl
@[simp] theorem Body.jPut_clusters (b : Body) (ix : Nat) (e : JEntry) : (b.jPut ix e).clusters = b.clusters := rfl
@[simp] theorem Body.jPut_dies (b : Body) (ix : Nat) (e : JEntry) : (b.jPut ix e).dies = b.dies := rfl
@[simp] theorem Body.jPut_mem (b : Body) (ix : Nat) (e : JEntry) : (b.jPut ix e).mem = b.mem := rfl
@[simp] theorem Body.jPut_ctl (b : Body) (ix : Nat) (e : JEntry) : (b.jPut ix e).ctl = b.ctl := rfl
@[simp] theorem Body.jPut_freeCtr (b : Body) (ix : Nat) (e : JEntry) : (b.jPut ix e).freeCtr = b.freeCtr := rfl

@[simp] theorem Body.jMod_strands (b : Body) (ix : Nat) (f : JEntry → JEntry) : (b.jMod ix f).strands = b.strands := by rw [Body.jMod]; split <;> rfl
@[simp] theorem Body.jMod_cores (b : Body) (ix : Nat) (f : JEntry → JEntry) : (b.jMod ix f).cores = b.cores := by rw [Body.jMod]; split <;> rfl
@[simp] theorem Body.jMod_clusters (b : Body) (ix : Nat) (f : JEntry → JEntry) : (b.jMod ix f).clusters = b.clusters := by rw [Body.jMod]; split <;> rfl
@[simp] theorem Body.jMod_dies (b : Body) (ix : Nat) (f : JEntry → JEntry) : (b.jMod ix f).dies = b.dies := by rw [Body.jMod]; split <;> rfl
@[simp] theorem Body.jMod_mem (b : Body) (ix : Nat) (f : JEntry → JEntry) : (b.jMod ix f).mem = b.mem := by rw [Body.jMod]; split <;> rfl
@[simp] theorem Body.jMod_ctl (b : Body) (ix : Nat) (f : JEntry → JEntry) : (b.jMod ix f).ctl = b.ctl := by rw [Body.jMod]; split <;> rfl
@[simp] theorem Body.jMod_freeCtr (b : Body) (ix : Nat) (f : JEntry → JEntry) : (b.jMod ix f).freeCtr = b.freeCtr := by rw [Body.jMod]; split <;> rfl

@[simp] theorem Body.modRunning_strands (b : Body) (ix : Nat) (f : Running → Running) : (b.modRunning ix f).strands = b.strands := rfl
@[simp] theorem Body.modRunning_cores (b : Body) (ix : Nat) (f : Running → Running) : (b.modRunning ix f).cores = b.cores := rfl
@[simp] theorem Body.modRunning_clusters (b : Body) (ix : Nat) (f : Running → Running) : (b.modRunning ix f).clusters = b.clusters := rfl
@[simp] theorem Body.modRunning_dies (b : Body) (ix : Nat) (f : Running → Running) : (b.modRunning ix f).dies = b.dies := rfl
@[simp] theorem Body.modRunning_mem (b : Body) (ix : Nat) (f : Running → Running) : (b.modRunning ix f).mem = b.mem := rfl
@[simp] theorem Body.modRunning_ctl (b : Body) (ix : Nat) (f : Running → Running) : (b.modRunning ix f).ctl = b.ctl := rfl
@[simp] theorem Body.modRunning_freeCtr (b : Body) (ix : Nat) (f : Running → Running) : (b.modRunning ix f).freeCtr = b.freeCtr := rfl

@[simp] theorem Body.putKey_strands (b : Body) (h : HubId) (ix : Nat) (e : KeyEntry) : (b.putKey h ix e).strands = b.strands := rfl
@[simp] theorem Body.putKey_cores (b : Body) (h : HubId) (ix : Nat) (e : KeyEntry) : (b.putKey h ix e).cores = b.cores := rfl
@[simp] theorem Body.putKey_clusters (b : Body) (h : HubId) (ix : Nat) (e : KeyEntry) : (b.putKey h ix e).clusters = b.clusters := rfl
@[simp] theorem Body.putKey_dies (b : Body) (h : HubId) (ix : Nat) (e : KeyEntry) : (b.putKey h ix e).dies = b.dies := rfl
@[simp] theorem Body.putKey_mem (b : Body) (h : HubId) (ix : Nat) (e : KeyEntry) : (b.putKey h ix e).mem = b.mem := rfl
@[simp] theorem Body.putKey_ctl (b : Body) (h : HubId) (ix : Nat) (e : KeyEntry) : (b.putKey h ix e).ctl = b.ctl := rfl
@[simp] theorem Body.putKey_freeCtr (b : Body) (h : HubId) (ix : Nat) (e : KeyEntry) : (b.putKey h ix e).freeCtr = b.freeCtr := rfl

@[simp] theorem Body.touchChan_strands (b : Body) (e : HubId × Fin 16) : (b.touchChan e).strands = b.strands := rfl
@[simp] theorem Body.touchChan_cores (b : Body) (e : HubId × Fin 16) : (b.touchChan e).cores = b.cores := rfl
@[simp] theorem Body.touchChan_clusters (b : Body) (e : HubId × Fin 16) : (b.touchChan e).clusters = b.clusters := rfl
@[simp] theorem Body.touchChan_dies (b : Body) (e : HubId × Fin 16) : (b.touchChan e).dies = b.dies := rfl
@[simp] theorem Body.touchChan_mem (b : Body) (e : HubId × Fin 16) : (b.touchChan e).mem = b.mem := rfl
@[simp] theorem Body.touchChan_ctl (b : Body) (e : HubId × Fin 16) : (b.touchChan e).ctl = b.ctl := rfl
@[simp] theorem Body.touchChan_freeCtr (b : Body) (e : HubId × Fin 16) : (b.touchChan e).freeCtr = b.freeCtr := rfl

@[simp] theorem Body.modStream_strands (b : Body) (n : Nat) (f : Stream → Stream) : (b.modStream n f).strands = b.strands := rfl
@[simp] theorem Body.modStream_cores (b : Body) (n : Nat) (f : Stream → Stream) : (b.modStream n f).cores = b.cores := rfl
@[simp] theorem Body.modStream_clusters (b : Body) (n : Nat) (f : Stream → Stream) : (b.modStream n f).clusters = b.clusters := rfl
@[simp] theorem Body.modStream_dies (b : Body) (n : Nat) (f : Stream → Stream) : (b.modStream n f).dies = b.dies := rfl
@[simp] theorem Body.modStream_mem (b : Body) (n : Nat) (f : Stream → Stream) : (b.modStream n f).mem = b.mem := rfl
@[simp] theorem Body.modStream_ctl (b : Body) (n : Nat) (f : Stream → Stream) : (b.modStream n f).ctl = b.ctl := rfl
@[simp] theorem Body.modStream_freeCtr (b : Body) (n : Nat) (f : Stream → Stream) : (b.modStream n f).freeCtr = b.freeCtr := rfl

@[simp] theorem Body.hold_strands (b : Body) (key : Nat) (sense : List Byte) : (b.hold key sense).strands = b.strands := rfl
@[simp] theorem Body.hold_cores (b : Body) (key : Nat) (sense : List Byte) : (b.hold key sense).cores = b.cores := rfl
@[simp] theorem Body.hold_clusters (b : Body) (key : Nat) (sense : List Byte) : (b.hold key sense).clusters = b.clusters := rfl
@[simp] theorem Body.hold_dies (b : Body) (key : Nat) (sense : List Byte) : (b.hold key sense).dies = b.dies := rfl
@[simp] theorem Body.hold_mem (b : Body) (key : Nat) (sense : List Byte) : (b.hold key sense).mem = b.mem := rfl
@[simp] theorem Body.hold_ctl (b : Body) (key : Nat) (sense : List Byte) : (b.hold key sense).ctl = b.ctl := rfl
@[simp] theorem Body.hold_freeCtr (b : Body) (key : Nat) (sense : List Byte) : (b.hold key sense).freeCtr = b.freeCtr := rfl

@[simp] theorem Body.waits_strands (b : Body) (ix : Nat) : (b.waits ix).strands = b.strands := rfl
@[simp] theorem Body.waits_cores (b : Body) (ix : Nat) : (b.waits ix).cores = b.cores := rfl
@[simp] theorem Body.waits_clusters (b : Body) (ix : Nat) : (b.waits ix).clusters = b.clusters := rfl
@[simp] theorem Body.waits_dies (b : Body) (ix : Nat) : (b.waits ix).dies = b.dies := rfl
@[simp] theorem Body.waits_mem (b : Body) (ix : Nat) : (b.waits ix).mem = b.mem := rfl
@[simp] theorem Body.waits_ctl (b : Body) (ix : Nat) : (b.waits ix).ctl = b.ctl := rfl
@[simp] theorem Body.waits_freeCtr (b : Body) (ix : Nat) : (b.waits ix).freeCtr = b.freeCtr := rfl

@[simp] theorem Body.dropCmd_strands (b : Body) (id : Nat) : (b.dropCmd id).strands = b.strands := rfl
@[simp] theorem Body.dropCmd_cores (b : Body) (id : Nat) : (b.dropCmd id).cores = b.cores := rfl
@[simp] theorem Body.dropCmd_clusters (b : Body) (id : Nat) : (b.dropCmd id).clusters = b.clusters := rfl
@[simp] theorem Body.dropCmd_dies (b : Body) (id : Nat) : (b.dropCmd id).dies = b.dies := rfl
@[simp] theorem Body.dropCmd_mem (b : Body) (id : Nat) : (b.dropCmd id).mem = b.mem := rfl
@[simp] theorem Body.dropCmd_ctl (b : Body) (id : Nat) : (b.dropCmd id).ctl = b.ctl := rfl
@[simp] theorem Body.dropCmd_freeCtr (b : Body) (id : Nat) : (b.dropCmd id).freeCtr = b.freeCtr := rfl

@[simp] theorem Body.modCmd_strands (b : Body) (id : Nat) (f : DevCmd → DevCmd) : (b.modCmd id f).strands = b.strands := rfl
@[simp] theorem Body.modCmd_cores (b : Body) (id : Nat) (f : DevCmd → DevCmd) : (b.modCmd id f).cores = b.cores := rfl
@[simp] theorem Body.modCmd_clusters (b : Body) (id : Nat) (f : DevCmd → DevCmd) : (b.modCmd id f).clusters = b.clusters := rfl
@[simp] theorem Body.modCmd_dies (b : Body) (id : Nat) (f : DevCmd → DevCmd) : (b.modCmd id f).dies = b.dies := rfl
@[simp] theorem Body.modCmd_mem (b : Body) (id : Nat) (f : DevCmd → DevCmd) : (b.modCmd id f).mem = b.mem := rfl
@[simp] theorem Body.modCmd_ctl (b : Body) (id : Nat) (f : DevCmd → DevCmd) : (b.modCmd id f).ctl = b.ctl := rfl
@[simp] theorem Body.modCmd_freeCtr (b : Body) (id : Nat) (f : DevCmd → DevCmd) : (b.modCmd id f).freeCtr = b.freeCtr := rfl

@[simp] theorem Body.streamReport_strands (b : Body) (key : Nat) (sc ds : Byte) (sense : Option (List Byte)) : (b.streamReport key sc ds sense).strands = b.strands := rfl
@[simp] theorem Body.streamReport_cores (b : Body) (key : Nat) (sc ds : Byte) (sense : Option (List Byte)) : (b.streamReport key sc ds sense).cores = b.cores := rfl
@[simp] theorem Body.streamReport_clusters (b : Body) (key : Nat) (sc ds : Byte) (sense : Option (List Byte)) : (b.streamReport key sc ds sense).clusters = b.clusters := rfl
@[simp] theorem Body.streamReport_dies (b : Body) (key : Nat) (sc ds : Byte) (sense : Option (List Byte)) : (b.streamReport key sc ds sense).dies = b.dies := rfl
@[simp] theorem Body.streamReport_mem (b : Body) (key : Nat) (sc ds : Byte) (sense : Option (List Byte)) : (b.streamReport key sc ds sense).mem = b.mem := rfl
@[simp] theorem Body.streamReport_ctl (b : Body) (key : Nat) (sc ds : Byte) (sense : Option (List Byte)) : (b.streamReport key sc ds sense).ctl = b.ctl := rfl
@[simp] theorem Body.streamReport_freeCtr (b : Body) (key : Nat) (sc ds : Byte) (sense : Option (List Byte)) : (b.streamReport key sc ds sense).freeCtr = b.freeCtr := rfl

@[simp] theorem Body.setRail_strands (b : Body) (d : Nat) (mv : BitVec 16) : (b.setRail d mv).strands = b.strands := rfl
@[simp] theorem Body.setRail_cores (b : Body) (d : Nat) (mv : BitVec 16) : (b.setRail d mv).cores = b.cores := rfl
@[simp] theorem Body.setRail_clusters (b : Body) (d : Nat) (mv : BitVec 16) : (b.setRail d mv).clusters = b.clusters := rfl
@[simp] theorem Body.setRail_dies (b : Body) (d : Nat) (mv : BitVec 16) : (b.setRail d mv).dies = b.dies := rfl
@[simp] theorem Body.setRail_mem (b : Body) (d : Nat) (mv : BitVec 16) : (b.setRail d mv).mem = b.mem := rfl
@[simp] theorem Body.setRail_io (b : Body) (d : Nat) (mv : BitVec 16) : (b.setRail d mv).io = b.io := rfl
@[simp] theorem Body.setRail_freeCtr (b : Body) (d : Nat) (mv : BitVec 16) : (b.setRail d mv).freeCtr = b.freeCtr := rfl

@[simp] theorem Body.switch_strands (b : Body) (d : Nat) (on : Bool) : (b.switch d on).strands = b.strands := rfl
@[simp] theorem Body.switch_cores (b : Body) (d : Nat) (on : Bool) : (b.switch d on).cores = b.cores := rfl
@[simp] theorem Body.switch_clusters (b : Body) (d : Nat) (on : Bool) : (b.switch d on).clusters = b.clusters := rfl
@[simp] theorem Body.switch_dies (b : Body) (d : Nat) (on : Bool) : (b.switch d on).dies = b.dies := rfl
@[simp] theorem Body.switch_mem (b : Body) (d : Nat) (on : Bool) : (b.switch d on).mem = b.mem := rfl
@[simp] theorem Body.switch_io (b : Body) (d : Nat) (on : Bool) : (b.switch d on).io = b.io := rfl
@[simp] theorem Body.switch_freeCtr (b : Body) (d : Nat) (on : Bool) : (b.switch d on).freeCtr = b.freeCtr := rfl

@[simp] theorem Body.modUnit_strands (b : Body) (c : CoreId) (f : CoreUnit → CoreUnit) : (b.modUnit c f).strands = b.strands := rfl
@[simp] theorem Body.modUnit_cores (b : Body) (c : CoreId) (f : CoreUnit → CoreUnit) : (b.modUnit c f).cores = b.cores := rfl
@[simp] theorem Body.modUnit_clusters (b : Body) (c : CoreId) (f : CoreUnit → CoreUnit) : (b.modUnit c f).clusters = b.clusters := rfl
@[simp] theorem Body.modUnit_dies (b : Body) (c : CoreId) (f : CoreUnit → CoreUnit) : (b.modUnit c f).dies = b.dies := rfl
@[simp] theorem Body.modUnit_mem (b : Body) (c : CoreId) (f : CoreUnit → CoreUnit) : (b.modUnit c f).mem = b.mem := rfl
@[simp] theorem Body.modUnit_io (b : Body) (c : CoreId) (f : CoreUnit → CoreUnit) : (b.modUnit c f).io = b.io := rfl
@[simp] theorem Body.modUnit_freeCtr (b : Body) (c : CoreId) (f : CoreUnit → CoreUnit) : (b.modUnit c f).freeCtr = b.freeCtr := rfl

@[simp] theorem Body.stampUnit_strands (b : Body) (kind : Nat) (loc : BitVec 16) : (b.stampUnit kind loc).strands = b.strands := rfl
@[simp] theorem Body.stampUnit_cores (b : Body) (kind : Nat) (loc : BitVec 16) : (b.stampUnit kind loc).cores = b.cores := rfl
@[simp] theorem Body.stampUnit_clusters (b : Body) (kind : Nat) (loc : BitVec 16) : (b.stampUnit kind loc).clusters = b.clusters := rfl
@[simp] theorem Body.stampUnit_dies (b : Body) (kind : Nat) (loc : BitVec 16) : (b.stampUnit kind loc).dies = b.dies := rfl
@[simp] theorem Body.stampUnit_mem (b : Body) (kind : Nat) (loc : BitVec 16) : (b.stampUnit kind loc).mem = b.mem := rfl
@[simp] theorem Body.stampUnit_io (b : Body) (kind : Nat) (loc : BitVec 16) : (b.stampUnit kind loc).io = b.io := rfl
@[simp] theorem Body.stampUnit_freeCtr (b : Body) (kind : Nat) (loc : BitVec 16) : (b.stampUnit kind loc).freeCtr = b.freeCtr := rfl

@[simp] theorem Body.putStaging_strands (b : Body) (target : Nat) (x : Staging) : (b.putStaging target x).strands = b.strands := rfl
@[simp] theorem Body.putStaging_cores (b : Body) (target : Nat) (x : Staging) : (b.putStaging target x).cores = b.cores := rfl
@[simp] theorem Body.putStaging_clusters (b : Body) (target : Nat) (x : Staging) : (b.putStaging target x).clusters = b.clusters := rfl
@[simp] theorem Body.putStaging_dies (b : Body) (target : Nat) (x : Staging) : (b.putStaging target x).dies = b.dies := rfl
@[simp] theorem Body.putStaging_mem (b : Body) (target : Nat) (x : Staging) : (b.putStaging target x).mem = b.mem := rfl
@[simp] theorem Body.putStaging_io (b : Body) (target : Nat) (x : Staging) : (b.putStaging target x).io = b.io := rfl
@[simp] theorem Body.putStaging_freeCtr (b : Body) (target : Nat) (x : Staging) : (b.putStaging target x).freeCtr = b.freeCtr := rfl

@[simp] theorem Body.dropStaging_strands (b : Body) (target : Nat) : (b.dropStaging target).strands = b.strands := rfl
@[simp] theorem Body.dropStaging_cores (b : Body) (target : Nat) : (b.dropStaging target).cores = b.cores := rfl
@[simp] theorem Body.dropStaging_clusters (b : Body) (target : Nat) : (b.dropStaging target).clusters = b.clusters := rfl
@[simp] theorem Body.dropStaging_dies (b : Body) (target : Nat) : (b.dropStaging target).dies = b.dies := rfl
@[simp] theorem Body.dropStaging_mem (b : Body) (target : Nat) : (b.dropStaging target).mem = b.mem := rfl
@[simp] theorem Body.dropStaging_io (b : Body) (target : Nat) : (b.dropStaging target).io = b.io := rfl
@[simp] theorem Body.dropStaging_freeCtr (b : Body) (target : Nat) : (b.dropStaging target).freeCtr = b.freeCtr := rfl

@[simp] theorem Body.dropCheck_cores (b : Body) (t : StrandId) : (b.dropCheck t).cores = b.cores := by simp [Body.dropCheck]
@[simp] theorem Body.dropCheck_clusters (b : Body) (t : StrandId) : (b.dropCheck t).clusters = b.clusters := by simp [Body.dropCheck]
@[simp] theorem Body.dropCheck_dies (b : Body) (t : StrandId) : (b.dropCheck t).dies = b.dies := by simp [Body.dropCheck]
@[simp] theorem Body.dropCheck_mem (b : Body) (t : StrandId) : (b.dropCheck t).mem = b.mem := by simp [Body.dropCheck]
@[simp] theorem Body.dropCheck_io (b : Body) (t : StrandId) : (b.dropCheck t).io = b.io := by simp [Body.dropCheck]
@[simp] theorem Body.dropCheck_ctl (b : Body) (t : StrandId) : (b.dropCheck t).ctl = b.ctl := by simp [Body.dropCheck]
@[simp] theorem Body.dropCheck_freeCtr (b : Body) (t : StrandId) : (b.dropCheck t).freeCtr = b.freeCtr := by simp [Body.dropCheck]

@[simp] theorem Body.strand_setStrand (b : Body) (t : StrandId) (u : Strand) : (b.setStrand t u).strand t = u := by
  simp [Body.strand, Body.setStrand]

theorem Body.strand_setStrand_ne (b : Body) {t v : StrandId} (u : Strand) (h : v ≠ t) : (b.setStrand t u).strand v = b.strand v := by
  have h' : t.val ≠ v.val := fun e => h (Fin.ext e.symm)
  simp [Body.strand, Body.setStrand, Vector.getElem_set_ne, h']

@[simp] theorem Body.setStrand_setStrand (b : Body) (t : StrandId) (u v : Strand) :
    (b.setStrand t u).setStrand t v = b.setStrand t v := by
  simp [Body.setStrand]

theorem Body.modStrand_eq (b : Body) (t : StrandId) (f : Strand → Strand) : b.modStrand t f = b.setStrand t (f (b.strand t)) := rfl

@[simp] theorem Body.strand_modIo (b : Body) (f : Io → Io) (t : StrandId) : (b.modIo f).strand t = b.strand t := rfl
@[simp] theorem Body.strand_modCtl (b : Body) (f : Ctl → Ctl) (t : StrandId) : (b.modCtl f).strand t = b.strand t := rfl
@[simp] theorem Body.strand_modMem (b : Body) (f : MemSys → MemSys) (t : StrandId) : (b.modMem f).strand t = b.strand t := rfl
@[simp] theorem Body.strand_modCore (b : Body) (c : CoreId) (f : Core → Core) (t : StrandId) : (b.modCore c f).strand t = b.strand t := rfl
@[simp] theorem Body.strand_spend (b : Body) (t : StrandId) : b.spend.strand t = b.strand t := rfl

@[simp] theorem withBody_pending (s : State) (f : Body → Body) : ({ s with body := f s.body } : State).pending = s.pending := rfl

/-- A command that acts on the body answers a next state and leaves queue and flash configuration alone. -/
theorem onBody_next (f : Body → Body) (s : State) : onBody f s = .next { s with body := f s.body } := rfl
theorem insn_next (t : StrandId) (i : Instr) (x : Body → Res) (forced : Bool) (s : State) :
    insn t i x forced s = .next { s with body := s.body.runInsn t i x forced } := rfl

end Sys2Proof.Machine
end

