-- ==== Sys2Proof/Laws/Run.lean ====
section
/-! SUPPORT. An instruction that runs: its command is one application of `settle` to the instruction's own outcome. -/

namespace Sys2Proof.Machine

variable {s : State} {t : StrandId} {i : Instr} {b : Body} {f : Bool}

/-- Under `Runs`, what an instruction command answers. -/
theorem Runs.insn_eq (h : Runs s t i b f) (x : Body → Res) :
    insn t i x f s = .next { s with body := b.settle t (lenOf i) (insnBytes i) (x b) } := by
  simp only [insn, onBody, Body.runInsn, h.ready, h.quiet, h.fetched, Bool.not_true, Bool.false_eq_true, if_false]

/-- A completed instruction that has changed its own strand alone. -/
theorem Runs.insn_ok (h : Runs s t i b f) {x : Body → Res} {u : Strand} {pc : Option (BitVec 48)}
    (hx : x b = .ok (b.setStrand t u) pc) :
    insn t i x f s = .next (finish s b t u (pc.getD (b.seqPc t (lenOf i)))) := by
  rw [h.insn_eq, hx]
  simp only [Body.settle, Body.modStrand, Body.strand_setStrand, Body.setStrand_setStrand, finish, Body.seqPc, Strand.retire]

/-- A completed instruction that has changed no strand. -/
theorem Runs.insn_ok_same (h : Runs s t i b f) {x : Body → Res} {pc : Option (BitVec 48)} (hx : x b = .ok b pc) :
    insn t i x f s = .next (finish s b t (b.strand t) (pc.getD (b.seqPc t (lenOf i)))) := by
  rw [h.insn_eq, hx]
  simp only [Body.settle, Body.modStrand, finish, Body.seqPc, Strand.retire]

/-- A trap at the instruction itself, no floating exception being pending. -/
theorem Runs.insn_trap (h : Runs s t i b f) {x : Body → Res} {b' : Body} {r : TrapReq} (hx : x b = .trap b' r)
    (hp : (b.strand t).pend = false) :
    insn t i x f s = .next { s with body := b'.takeTrap t (fillBytes r (insnBytes i)) (b.strand t).pc false } := by
  rw [h.insn_eq, hx]
  simp only [Body.settle, Body.trapOrFp, hp, Bool.false_eq_true, false_and, and_false, if_false]

/-- A trap after the instruction, no floating exception being pending. -/
theorem Runs.insn_next (h : Runs s t i b f) {x : Body → Res} {u : Strand} {r : TrapReq} (hx : x b = .next (b.setStrand t u) r)
    (hp : (b.strand t).pend = false) :
    insn t i x f s = .next { s with
      body := (finish s b t u (b.seqPc t (lenOf i))).body.takeTrap t r (b.seqPc t (lenOf i)) true } := by
  rw [h.insn_eq, hx]
  simp only [Body.settle, Body.trapOrFp, hp, Bool.false_eq_true, false_and, and_false, if_false, Body.modStrand, finish,
    Body.strand_setStrand, Body.setStrand_setStrand, Body.seqPc, Strand.retire]

end Sys2Proof.Machine
end

