-- ==== Sys2Proof/Tests/Slice0.lean ====
section
/-!
SUPPORT. Tests: ill-formed terms that WellFormed refuses; the worked examples of the spec; and, for every statement of
Obligations.lean that has hypotheses, concrete states and operands that meet them (theorems witness_<statement>_<number>).
-/


namespace Sys2Proof.Tests
set_option maxRecDepth 100000
open Sys2Proof Sys2Proof.Machine

/-! ## WellFormed refuses an ill-formed term of each check -/

def eng1 (p : PoolKind) (n : Fin 4) : EngineRef := { pool := p, hub := 0, n := n }
def packet (n : Nat) : Packet :=
  { magic := 0x464C, version := 1, flags := 0, status := 0, detail := 0, sequence := 1, session := 0, plen := BitVec.ofNat 32 n,
    ticket := 0, mode := 0, half := 0, island := 0, reserved := 0, params := [1] }
def answer (n : Nat) : DevResult :=
  { cls := .good, data := [], pos := 0, sense := { kind := 0, key := 0, code := 0, sfl := 0, info := 0, raw := List.replicate n 0 } }

theorem test_wf_lds : WellFormed (.lds 0 .d (.disp 1 0) 2) = false ∧ WellFormed (.lds 0 .w (.disp 1 0) 2) = true := by decide
theorem test_wf_bcond : WellFormed (.bCond 0 15 0) = false ∧ WellFormed (.bCond 0 14 0) = true := by decide
theorem test_wf_scope : ([.cinvRange 0 3 1 2, .cinvAll 0 3, .iflushRange 0 3 1 2, .tlbiVa 0 3 1 2 false, .tlbiTag 0 3 1, .tlbiAll 0 3,
    .wciVa 0 3 1 2 true, .wciTag 0 3 1, .wciAll 0 3] : List Instr).all (fun i => !WellFormed i) = true ∧ WellFormed (.wciAll 0 2) = true := by decide
theorem test_wf_float_form : WellFormed (.fadd 0 .d (.long 5) 1 2 3) = false ∧ WellFormed (.fsub 0 .d (.long 6) 1 2 3) = false ∧
    WellFormed (.fmul 0 .d (.long 5) 1 2 3) = false ∧ WellFormed (.fmul 0 .d (.long 7) 1 2 3) = true := by decide
theorem test_wf_fmvg : WellFormed (.fmvg 0 false 1 2 2) = false ∧ WellFormed (.fmvg 0 false 1 2 1) = true := by decide
theorem test_wf_rounding : ([.fmadd 0 .d 5 1 2 3 4, .fmsub 0 .d 6 1 2 3 4, .fnmadd 0 .d 5 1 2 3 4, .fnmsub 0 .d 6 1 2 3 4, .fcvt 0 .sd 5 1 2,
    .fcvtfi 0 .d false 6 1 2, .fcvtif 0 .d true 5 1 2, .frint 0 .d 6 false 1 2] : List Instr).all (fun i => !WellFormed i) = true := by decide
theorem test_wf_tcmp : WellFormed (.writeCsTcmp 0 3 1) = false ∧ WellFormed (.writeCsTcmp 0 2 1) = true := by decide
theorem test_wf_sense : WellFormed (.deviceCompletion 1 (answer 49)) = false ∧ WellFormed (.drainBlockConfirmed 1 (answer 49)) = false ∧
    WellFormed (.deviceCompletion 1 (answer 48)) = true := by decide
theorem test_wf_port : ([.sessionEnd 96 0, .pathFailure 128 none, .frameReceived 96 .other, .linkUp 96 0 0, .trainingTimeout 255, .linkLoss 96 1,
    .holdExpiry 96, .receiverDetected 96] : List Instr).all (fun i => !WellFormed i) = true ∧ WellFormed (.holdExpiry 95) = true := by decide +kernel
theorem test_wf_comp_engine : ([.compress (eng1 .bulk 0), .decompress (eng1 .pk 0), .continueJob (eng1 .bulk 1)] : List Instr).all (fun i => !WellFormed i) = true := by
  decide
theorem test_wf_bulk_engine : ([.aesGcmEncrypt (eng1 .comp 0), .hash (eng1 .pk 0), .keyDestroy (eng1 .comp 3)] : List Instr).all (fun i => !WellFormed i) = true := by decide
theorem test_wf_key_generate : WellFormed (.keyGenerate (eng1 .comp 0)) = false ∧ WellFormed (.keyGenerate (eng1 .pk 1)) = true := by decide
theorem test_wf_pk_engine : WellFormed (.rsaSign (eng1 .bulk 0)) = false ∧ WellFormed (.mldsaVerify (eng1 .pk 2)) = false ∧
    WellFormed (.ecdsaSign (eng1 .pk 1)) = true := by decide
theorem test_wf_attempt : WellFormed (.attemptEnd (eng1 .pk 2) .mismatch) = false := by decide
theorem test_wf_proved_unit : WellFormed (.provingRound (.eng (eng1 .pk 2)) true 0) = false ∧ WellFormed (.engineIdleTimeout (.eng (eng1 .pk 3))) = false := by
  decide +kernel
theorem test_wf_stack_cause : WellFormed (.stackFailed 0 3) = false ∧ WellFormed (.stackFailed 0 2) = true := by decide +kernel
theorem test_wf_staging : WellFormed (.imageStagingTimeout 6) = false ∧ WellFormed (.imageStagingTimeout 5) = true := by decide +kernel
theorem test_wf_packet : WellFormed (.unknownOpcode (.conn 0) 0x0FFF (packet 2)) = false ∧ WellFormed (.unknownOpcode (.conn 0) 0x0FFF (packet 1)) = true := by
  decide +kernel

/-! ## Instruction words, written out from the formats of R89 and the encodings of R92, R111 to R117, R122, R123, R134, R148 and R149 -/

/-- Example of R91: LD.D k3, [p1 + 0x140] is E8 33 0D 40 01 00. -/
theorem test_decode_ld : decodeInsn 0 (leNat [0xE8, 0x33, 0x0D, 0x40, 0x01, 0x00]) = some (.ld 0 .d (.disp 9 0x140) 19) := by decide +kernel
/-- Example of R91: ST.W k0, [p2 + q5 × 4] is 8A 50 F5. -/
theorem test_decode_st : decodeInsn 0 (leNat [0x8A, 0x50, 0xF5]) = some (.st 0 .w (.idx 10 29 true) 16) := by decide +kernel
/-- Example of R106: IODB q0, IOB1, 0 is F0 38 08 00 00 00. -/
theorem test_decode_iodb : decodeInsn 0 (leNat [0xF0, 0x38, 0x08, 0, 0, 0]) = some (.iodb 0 24 1 0) := by decide +kernel
/-- Example of R132: DSTART.D k1, k2, k3 is 18 51 4E. -/
theorem test_decode_dstart : decodeInsn 0 (leNat [0x18, 0x51, 0x4E]) = some (.dstart 0 .d false 17 18 19) := by decide +kernel
/-- Example of R138: DADD is D0 B4 02 53 00 00. -/
theorem test_decode_dadd : decodeInsn 0 (leNat [0xD0, 0xB4, 0x02, 0x53, 0, 0]) = some (.dadd 0 20 21 5 3) := by decide +kernel
/-- Example of R149: FMADD.D f3, f1, f2, f4 under the dynamic mode is E1 23 04 82 1C 00. -/
theorem test_decode_fmadd : decodeInsn 0 (leNat [0xE1, 0x23, 0x04, 0x82, 0x1C, 0]) = some (.fmadd 0 .d 7 3 1 2 4) := by decide +kernel
/-- Example of R278: X 0x31 with rd = k2, ra = p0, imm24 = 0x64 is FC 12 C5 64 00 00. -/
theorem test_decode_x : decodeInsn 0 (leNat [0xFC, 0x12, 0xC5, 0x64, 0, 0]) = some (.xInstruction 0 1 18 8 0x64) := by decide +kernel
/-- An S word: op [7:0], rd [12:8], ra [17:13], rb [22:18], x [23]. ADD.D with x = 1 and SUB.W with x = 0 (R122). -/
theorem test_decode_add_sub : decodeInsn 0 (0x01 + 5 * 2 ^ 8 + 6 * 2 ^ 13 + 7 * 2 ^ 18 + 2 ^ 23) = some (.add 0 .d true 5 6 7) ∧
    decodeInsn 0 (0x22 + 31 * 2 ^ 8 + 1 * 2 ^ 13 + 30 * 2 ^ 18) = some (.sub 0 .w false 31 1 30) := by decide +kernel
/-- An SI word: imm6 in [23:18]. SRAQ.D by 63 (R122). -/
theorem test_decode_sraq : decodeInsn 0 (0x43 + 3 * 2 ^ 8 + 4 * 2 ^ 13 + 63 * 2 ^ 18) = some (.sraq 0 .d 3 4 63) := by decide +kernel
/-- LI words: fn6 in [23:18], imm24 in [47:24]. ADDI.D with x, CSWR of 0x088, SVC (R115, R123). -/
theorem test_decode_li : decodeInsn 0 (0xC0 + 3 * 2 ^ 8 + 4 * 2 ^ 13 + 0x20 * 2 ^ 18 + 0xFFFFFF * 2 ^ 24) = some (.addi 0 .d true 3 4 0xFFFFFF) ∧
    decodeInsn 0 (0xEC + 4 * 2 ^ 13 + 1 * 2 ^ 18 + 0x088 * 2 ^ 24) = some (.cswr 0 0x088 4) ∧
    decodeInsn 0 (0xED + 0x123456 * 2 ^ 24) = some (.svc 0 0x123456) := by decide +kernel
/-- LB words: cond in [12:8], ra in [17:13], off24 in [47:24]. B.LE and BNZ; the reserved condition 0x0F (R113, R114). -/
theorem test_decode_lb : decodeInsn 0 (0xEA + 0x0E * 2 ^ 8 + 0x800000 * 2 ^ 24) = some (.bCond 0 0x0E 0x800000) ∧
    decodeInsn 0 (0xEA + 12 * 2 ^ 13 + 2 * 2 ^ 18 + 0xFFFF40 * 2 ^ 24) = some (.bnz 0 12 0xFFFF40) ∧ decodeInsn 0 (0xEA + 0x0F * 2 ^ 8) = none := by
  decide +kernel
/-- CAS.W, TLBI.VA with x, BMOVE and NOP (R111, R112, R115, R116). -/
theorem test_decode_system : decodeInsn 0 (0x8E + 3 * 2 ^ 8 + 4 * 2 ^ 13 + 5 * 2 ^ 18 + 2 ^ 23) = some (.cas 0 .w 3 4 5) ∧
    decodeInsn 0 (0xA5 + 2 * 2 ^ 8 + 4 * 2 ^ 13 + 5 * 2 ^ 18 + 2 ^ 23) = some (.tlbiVa 0 2 4 5 true) ∧
    decodeInsn 0 (0xB0 + 1 * 2 ^ 8 + 2 * 2 ^ 13 + 3 * 2 ^ 18) = some (.bmove 0 1 2 3) ∧ decodeInsn 0 0x9B = some (.nop 0) := by decide +kernel
/-- Reserved words do not fall through (R90, R92): major 0x00, 0x14 and 0xFF, a rb that must be 0, an unassigned fn6. -/
theorem test_decode_reserved : decodeInsn 0 0x00 = none ∧ decodeInsn 0 0x14 = none ∧ decodeInsn 0 0xFF = none ∧
    decodeInsn 0 (0x11 + 1 * 2 ^ 18) = none ∧ decodeInsn 0 (0xE8 + 7 * 2 ^ 18) = none := by decide +kernel
/-- DecodeEncode's hypotheses are met, at an operand's last values. -/
theorem witness_DecodeEncode_1 : encodeInsn (.addi 0 .w true 31 30 0xFFFFFF) = some ⟨6, 0xC1 + 31 * 2 ^ 8 + 30 * 2 ^ 13 + 0x20 * 2 ^ 18 + 0xFFFFFF * 2 ^ 24⟩ ∧
    WellFormed (.addi 0 .w true 31 30 0xFFFFFF) = true := by decide +kernel
theorem witness_DecodeEncode_2 : leNat [0x8A, 0x50, 0xF5] < 256 ^ insnLen (leNat [0x8A, 0x50, 0xF5] % 256) ∧
    decodeInsn 0 (leNat [0x8A, 0x50, 0xF5]) = some (.st 0 .w (.idx 10 29 true) 16) := by decide +kernel
theorem witness_DecodeEncode_3 : (2 : BitVec 3).toNat ≤ 2 := by decide

/-! ## Worked examples of the spec -/

/-- The location codes of R44 and R427: pipeline B of strand 2, core 1, cluster 4 of C3; that core; port 0 of octet 8. -/
theorem test_location_codes : strandLoc (strandOf 125 2) 3 = 0x68C3 ∧ coreLoc 125 = 0x6880 ∧ portLoc 64 = 0xA501 := by decide +kernel
/-- Example of R248: PA 0x29_8A47_2A10 has its line in M7, in row 61,965,510; its home is controller 1 of C3. -/
theorem test_home : homeStacks 0x298A472A10 = (7, 6) ∧ homeRow 0x298A472A10 = 61965510 ∧ homeDie 0x298A472A10 = 3 := by decide +kernel
/-- Example of R521: the record of a lost link. -/
theorem test_silt_record : SiltRec.bytes { tod := 0x521F3C8A40, loc := 0xA501, code := 0x0501, seq := 0x317E6, data := dataOf [(1, 4), (1, 3), (1, 1), (1, 0)] } =
    [0x40, 0x8A, 0x3C, 0x1F, 0x52, 0, 0, 0, 0x01, 0xA5, 0x01, 0x05, 0xE6, 0x17, 0x03, 0, 0x04, 0x03, 0x01, 0, 0, 0, 0, 0, 0, 0, 0, 0, 0, 0, 0, 0] := by decide +kernel

/-- Example of R132: −250 over 7 accounts, with the values its table shows after DSTART, DSTEP 15, DSTEP 16 and DEND. -/
theorem test_division :
    let p := divStart 64 false (-250) 7
    let step (e : W × W) : W × W := divStep e.1 e.2 p.2.2
    let e15 := step^[15] (0, p.2.1)
    p = (mkCC true false false true, 0xFA, 7) ∧ step^[14] (0, p.2.1) = (0, 0xFA00000000000000) ∧ e15 = (1, 0xA000000000000002) ∧
      step e15 = (5, 0x23) ∧ divEnd 64 false p.1 5 0x23 = (-35, -5, mkCC true false false false) := by decide +kernel
/-- Example of R138: 1,250.75 − 2,000.00 is stored as 00 00 00 74 92 5D. -/
theorem test_decimal : decValue [0, 0, 0x01, 0x25, 0x07, 0x5C] = 125075 ∧ decValue [0x02, 0, 0, 0x0D] = -200000 ∧
    decStore 6 (125075 - 200000) = ([0, 0, 0, 0x74, 0x92, 0x5D], false) := by decide +kernel
/-- Example of R155: in binary32, −MaxN × MaxSub under RNE, RZ and RD. -/
theorem test_fmul : fpMulVal .s 0 (fpDecode .s 0xFF7FFFFF) (fpDecode .s 0x007FFFFF) = (0xC07FFFFD, fNX) ∧
    fpMulVal .s 2 (fpDecode .s 0xFF7FFFFF) (fpDecode .s 0x007FFFFF) = (0xC07FFFFD, fNX) ∧
    fpMulVal .s 4 (fpDecode .s 0xFF7FFFFF) (fpDecode .s 0x007FFFFF) = (0xC07FFFFE, fNX) := by decide +kernel
/-- Example of R164: FMUL.D f2, f0, f1 that overflows with only OF enabled leaves the kind word 0x00690504 and its own address. -/
theorem test_fp_pending :
    let u := ({ pc := 0x7F3A3000, fpstat := 0x040000 } : Strand).raise (.fmul 0 .d .short 2 0 1) (fOF ||| fNX)
    u.pend = true ∧ u.fpKind = 0x00690504 ∧ u.fpAddr = 0x7F3A3000 := by decide +kernel
/-- Example of R114: a BNZ at 0x7F3A2000 with off24 0xFFFF40. -/
theorem test_branch : Strand.target { pc := 0x7F3A2000 } 0xFFFF40 = 0x7F3A1F40 := by decide +kernel

/-! ## States that meet the hypotheses of the statements

From here on, theorem witness_<statement>_<number> shows a state and operands that meet together the hypotheses of one clause
of that statement; what a statement concludes is left to its proof. A few large clauses are met in the form (h : the statement) : the
command completes, so that the statement itself is applied to the concrete state and every hypothesis is met there. -/

set_option linter.unusedVariables false
set_option Elab.async false

/-- Strand 0 runs at 0x200000 in OPERATING, with the supervisor's key in slot 0. -/
def oneStrand (u : Strand) : Body := { ({} : Body) with
  strands := (Vector.replicate 576 {}).set 0 { u with run := .running, pc := 0x200000 }
  mem := { slots := [(0, [1])] }
  ctl := { mode := .operating } }
/-- The state around it. -/
def running (u : Strand) : State := { body := oneStrand u }
/-- The body that fetching `n` bytes leaves. -/
def fetched (s : State) (n : Nat) : Body := match s.body.fetchCheck 0 n with | .ok b () => b | _ => s.body
/-- A strand at privilege `p` and trap level `l`. -/
def atLevel (p l : Nat) : Strand := { status := BitVec.ofNat 64 (p * 4 + l) }
def atS : Strand := atLevel 2 0
def atK : Strand := atLevel 1 0
def atU : Strand := atLevel 0 0
/-- Cluster 0 holds the lines of some addresses in M, and core 0 reads past its L1D. -/
def holding (s : State) (pas : List Nat) (d : LineData) : State :=
  let lines : Table L2Line := pas.map fun a => (l2Slot (lineNo a) 0, { line := lineNo a, st := .m, locked := false, slot := 0, nol3 := false, data := d })
  let b := s.body.modMem fun m => { m with dir := pas.map fun a => (a / 128, .exclusive 0) }
  let b := b.modCluster 0 fun c => { c with l2 := lines }
  { s with body := b.modCore 0 fun k => { k with l1de := false, l1ie := false } }
/-- Body and value of an outcome. -/
def LRes.get {α : Type} (x : LRes α) (b : Body) (v : α) : Body × α := match x with | .ok b v => (b, v) | _ => (b, v)
def TRes.get {α : Type} (x : TRes α) (b : Body) (v : α) : Body × α := match x with | .ok b v => (b, v) | _ => (b, v)
def nx (x : Host.Outcome State Fault Refusal) : State := match x with | .next t => t | _ => {}
/-- What holds of the one slice that a table lists, and of a free slice, holds of every slice. -/
theorem one_slice {b : Body} {x : Slice} (h : b.io.slices = [(5, x)]) (P : Slice → Prop) (h1 : P x) (h0 : P {}) (sl : SliceId) : P (b.slice sl) := by
  unfold Body.slice
  rw [h]
  unfold tGet
  split
  · exact h1
  · unfold tGet; exact h0
/-- The factory configuration is legal. -/
theorem legal_default : FlashCfg.legal {} where
  rails := fun d => by simp [Vector.getElem_replicate]
  anchor := by intro a h; cases h
  octets := fun o => by simp [OctetRec.legal, Vector.getElem_replicate, rateOk, fecMax]
  pairs := by simp
  bases := List.Pairwise.nil
  images := fun k h => by simp [Vector.getElem_replicate] at h
/-- What the kernel decides. -/
theorem dec {p : Prop} [Decidable p] (h : decide p = true := by decide +kernel) : p := of_decide_eq_true h
/-- Below East, every address is memory. -/
theorem class_low {b : Body} {lo hi : Nat} (h : hi ≤ eastBase) : ∀ a, lo ≤ a → a < hi → b.classOf a = .memory := by
  intro a _ h2
  have : eastBase ≤ memoryEnd := by decide
  unfold Body.classOf
  rw [if_pos (by omega), if_neg (by omega)]
/-- A command that completes with anything completes. -/
theorem next_of {o : Host.Outcome State Fault Refusal} {x : State} (h : o = .next x) : ∃ t, o = .next t := ⟨x, h⟩

namespace G1
def sAdd := running (((atS.setReg 2 0x7FFFFFFFFFFFFFFF).setReg 3 64).setReg 5 0xFFFFFFFF80000000)
def sIoe := running ({ ((((atLevel 2 0).setReg 2 0x8000000000000000).setReg 3 0x8000000000000000).setReg 4 1) with status := 0x108 })
def sDiv := running (((atS.setReg 1 7).setReg 2 0x8000000000000000).setReg 3 0xFFFFFFFFFFFFFFFF)
def sDze := running { (atS.setReg 2 5) with status := 0x88 }
def sDend := running { (((atS.setReg 1 3).setReg 2 0x8000000000000000).setReg 3 0xFFFFFFFFFFFFFFFF) with status := 0x2108 }
def sDzero := running { (((atS.setReg 1 3).setReg 2 9).setReg 3 0) with status := 0x4008 }
def bTrap := oneStrand { atK with wcur := 3, tvecS := 0x10, tvecK := 0x20 }
def bFull := oneStrand { atU with wcur := 2, wbase := 4 }
def bT1 := oneStrand { atLevel 1 1 with tvecS := 0x10 }
def bT2 := oneStrand { atLevel 1 2 with chktgt := 5 }
def rIll : TrapReq := { cause := 1, rule := .upK, info0 := 5, info1 := 6, info2 := 7 }
def rWin : TrapReq := { cause := 0x0E, rule := .upK, info0 := 5 }
def oneQueued : State := { pending := [.nop 1, .nop 0] }

def sUnb := holding (running atS) [0x200000] 0
def unb : Body × List Byte := LRes.get (sUnb.body.fetchBytes 0) {} []
def sBr := running { (atS.setReg 2 0x8000000000200004) with status := 0xA008 }
def sK14 := running { atK with wcur := 14, lsp := 0x300008 }
def sK13 := holding (running { atK with wcur := 13, lsp := 0x300008 }) [0x300000] 0x1122334455667788AABBCCDDEEFF001122
def sK0 := running { atK with wcur := 14, wbase := 14, lsp := 0x300008 }
def sT1 := running (atLevel 1 1)
def pushed (s : State) (n : Nat) : Body :=
  let b := fetched s n
  (LRes.get (b.plainStore 0 needPush (b.strand 0).prv ((b.strand 0).lsp - 8).toNat (leBytes 8 (b.seqPc 0 n).toNat)) b ()).1
def popped (s : State) : Body × List Byte :=
  let b := fetched s 3
  LRes.get (b.loadVa 0 needPop (b.strand 0).prv (b.strand 0).lsp.toNat 8) b []

def sR (p l : Nat) (w : BitVec 4) : State := running { atLevel p l with
  wcur := w, trapS := { info3 := 0xFFFF, pc := 0x1234 }, trapK := { info3 := 0x7, pc := 0x1234 }, trap1 := { info3 := 0xE, pc := 9 }, trap2 := { info3 := 0xF, pc := 9 } }

def wStepRunsFrontCommand_0 : Instr := (.nop 1)
def wStepRunsFrontCommand_1 : List Instr := [.nop 0]
theorem witness_StepRunsFrontCommand_1 :
    (oneQueued.pending = wStepRunsFrontCommand_0 :: wStepRunsFrontCommand_1) :=
  dec

theorem witness_EmptyQueueStepCountsTime_1 :
    (State.reset.pending = []) :=
  dec

def wIntegerRegisterResults_2 : Body := (fetched sAdd 3)
theorem witness_IntegerRegisterResults_1 :
    (Runs sAdd (0 : StrandId) (Instr.add (0 : StrandId) Width.w true (1 : Reg) (2 : Reg) (3 : Reg)) wIntegerRegisterResults_2) ∧
    (¬(true = true ∧
    (atForm Width.w false (addRule 0) ((wIntegerRegisterResults_2.strand (0 : StrandId)).reg (2 : Reg))
              ((wIntegerRegisterResults_2.strand (0 : StrandId)).reg (3 : Reg))).2.2 =
        true ∧
      (wIntegerRegisterResults_2.strand (0 : StrandId)).ioe = true)) :=
  ⟨⟨dec, dec, rfl⟩, dec⟩

theorem witness_IntegerRegisterResults_2 :
    (Runs sAdd (0 : StrandId) (Instr.mulh (0 : StrandId) Width.d true (1 : Reg) (2 : Reg) (3 : Reg)) wIntegerRegisterResults_2) ∧
    (¬(false = true ∧
    (atForm Width.d false mulhRule ((wIntegerRegisterResults_2.strand (0 : StrandId)).reg (2 : Reg))
              ((wIntegerRegisterResults_2.strand (0 : StrandId)).reg (3 : Reg))).2.2 =
        true ∧
      (wIntegerRegisterResults_2.strand (0 : StrandId)).ioe = true)) :=
  ⟨⟨dec, dec, rfl⟩, dec⟩

theorem witness_ShiftsAndRotates_1 :
    (Runs sAdd (0 : StrandId) (Instr.sll (0 : StrandId) Width.w true (1 : Reg) (2 : Reg) (3 : Reg)) wIntegerRegisterResults_2) ∧
    (¬(false = true ∧
    (atForm Width.w false (sllRule (BitVec.toNat ((wIntegerRegisterResults_2.strand (0 : StrandId)).reg (3 : Reg))))
              ((wIntegerRegisterResults_2.strand (0 : StrandId)).reg (2 : Reg)) (0 : W)).2.2 =
        true ∧
      (wIntegerRegisterResults_2.strand (0 : StrandId)).ioe = true)) :=
  ⟨⟨dec, dec, rfl⟩, dec⟩

theorem witness_ShiftsAndRotates_2 :
    (Runs sAdd (0 : StrandId) (Instr.rorq (0 : StrandId) Width.w (1 : Reg) (2 : Reg) (63 : BitVec 6)) wIntegerRegisterResults_2) ∧
    (¬(false = true ∧
    (atForm Width.w false (rorRule (BitVec.toNat (63 : BitVec 6))) ((wIntegerRegisterResults_2.strand (0 : StrandId)).reg (2 : Reg)) (0 : W)).2.2 = true ∧
      (wIntegerRegisterResults_2.strand (0 : StrandId)).ioe = true)) :=
  ⟨⟨dec, dec, rfl⟩, dec⟩

theorem witness_UnaryAndImmediateResults_1 :
    (Runs sAdd (0 : StrandId) (Instr.neg (0 : StrandId) Width.d (1 : Reg) (2 : Reg)) wIntegerRegisterResults_2) ∧
    (¬(true = true ∧
    (atForm Width.d false negRule ((wIntegerRegisterResults_2.strand (0 : StrandId)).reg (2 : Reg)) (0 : W)).2.2 = true ∧
      (wIntegerRegisterResults_2.strand (0 : StrandId)).ioe = true)) :=
  ⟨⟨dec, dec, rfl⟩, dec⟩

theorem witness_UnaryAndImmediateResults_2 :
    (Runs sAdd (0 : StrandId) (Instr.cmp (0 : StrandId) Width.d (2 : Reg) (3 : Reg)) wIntegerRegisterResults_2) ∧
    (¬(false = true ∧
    (atForm Width.d false (subRule 0) ((wIntegerRegisterResults_2.strand (0 : StrandId)).reg (2 : Reg))
              ((wIntegerRegisterResults_2.strand (0 : StrandId)).reg (3 : Reg))).2.2 =
        true ∧
      (wIntegerRegisterResults_2.strand (0 : StrandId)).ioe = true)) :=
  ⟨⟨dec, dec, rfl⟩, dec⟩

def wUnaryAndImmediateResults_3 : Body := (fetched sAdd 6)
theorem witness_UnaryAndImmediateResults_3 :
    (Runs sAdd (0 : StrandId) (Instr.addi (0 : StrandId) Width.w true (1 : Reg) (2 : Reg) (8388608 : BitVec 24)) wUnaryAndImmediateResults_3) ∧
    (¬(true = true ∧
    (atForm Width.w false (addRule 0) ((wUnaryAndImmediateResults_3.strand (0 : StrandId)).reg (2 : Reg))
              (BitVec.signExtend 64 (8388608 : BitVec 24))).2.2 =
        true ∧
      (wUnaryAndImmediateResults_3.strand (0 : StrandId)).ioe = true)) :=
  ⟨⟨dec, dec, rfl⟩, dec⟩

def wOverflowTrapsAfterWriting_4 : Body := (fetched sIoe 3)
theorem witness_OverflowTrapsAfterWriting_1 :
    (Runs sIoe (0 : StrandId) (Instr.add (0 : StrandId) Width.d true (1 : Reg) (2 : Reg) (3 : Reg)) wOverflowTrapsAfterWriting_4) ∧
    ((atForm Width.d false (addRule 0) ((wOverflowTrapsAfterWriting_4.strand (0 : StrandId)).reg (2 : Reg))
        ((wOverflowTrapsAfterWriting_4.strand (0 : StrandId)).reg (3 : Reg))).2.2 =
  true) ∧
    ((wOverflowTrapsAfterWriting_4.strand (0 : StrandId)).ioe = true) ∧
    ((wOverflowTrapsAfterWriting_4.strand (0 : StrandId)).pend = false) :=
  ⟨⟨dec, dec, rfl⟩, dec⟩

theorem witness_OverflowTrapsAfterWriting_2 :
    (Runs sIoe (0 : StrandId) (Instr.abs (0 : StrandId) Width.d (1 : Reg) (2 : Reg)) wOverflowTrapsAfterWriting_4) ∧
    ((atForm Width.d false absRule ((wOverflowTrapsAfterWriting_4.strand (0 : StrandId)).reg (2 : Reg)) (0 : W)).2.2 = true) ∧
    ((wOverflowTrapsAfterWriting_4.strand (0 : StrandId)).ioe = true) ∧
    ((wOverflowTrapsAfterWriting_4.strand (0 : StrandId)).pend = false) :=
  ⟨⟨dec, dec, rfl⟩, dec⟩

def wOverflowTrapsAfterWriting_5 : Body := (fetched sIoe 6)
theorem witness_OverflowTrapsAfterWriting_3 :
    (Runs sIoe (0 : StrandId) (Instr.addi (0 : StrandId) Width.d true (1 : Reg) (2 : Reg) (8388608 : BitVec 24)) wOverflowTrapsAfterWriting_5) ∧
    ((atForm Width.d false (addRule 0) ((wOverflowTrapsAfterWriting_5.strand (0 : StrandId)).reg (2 : Reg))
        (BitVec.signExtend 64 (8388608 : BitVec 24))).2.2 =
  true) ∧
    ((wOverflowTrapsAfterWriting_5.strand (0 : StrandId)).ioe = true) ∧
    ((wOverflowTrapsAfterWriting_5.strand (0 : StrandId)).pend = false) :=
  ⟨⟨dec, dec, rfl⟩, dec⟩

def wDivisionInstructions_6 : Body := (fetched sDiv 3)
theorem witness_DivisionInstructions_1 :
    (Runs sDiv (0 : StrandId) (Instr.dstart (0 : StrandId) Width.d false (1 : Reg) (2 : Reg) (3 : Reg)) wDivisionInstructions_6) ∧
    ((1 : Reg) ≠ (0 : Reg) ∧ (2 : Reg) ≠ (0 : Reg) ∧ (3 : Reg) ≠ (0 : Reg) ∧ (1 : Reg) ≠ (2 : Reg) ∧ (1 : Reg) ≠ (3 : Reg) ∧ (2 : Reg) ≠ (3 : Reg)) ∧
    (¬((fun v =>
          BitVec.toNat v %
            2 ^
              match Width.d with
              | Width.d => 64
              | Width.w => 32)
        ((wDivisionInstructions_6.strand (0 : StrandId)).reg (3 : Reg)) =
      0 ∧
    (wDivisionInstructions_6.strand (0 : StrandId)).dze = true)) :=
  ⟨⟨dec, dec, rfl⟩, dec⟩

def wDivisionInstructions_7 : Body := (fetched sDzero 3)
theorem witness_DivisionInstructions_2 :
    (Runs sDzero (0 : StrandId) (Instr.dstart (0 : StrandId) Width.d false (1 : Reg) (2 : Reg) (3 : Reg)) wDivisionInstructions_7) ∧
    ((1 : Reg) ≠ (0 : Reg) ∧ (2 : Reg) ≠ (0 : Reg) ∧ (3 : Reg) ≠ (0 : Reg) ∧ (1 : Reg) ≠ (2 : Reg) ∧ (1 : Reg) ≠ (3 : Reg) ∧ (2 : Reg) ≠ (3 : Reg)) ∧
    (¬((fun v =>
          BitVec.toNat v %
            2 ^
              match Width.d with
              | Width.d => 64
              | Width.w => 32)
        ((wDivisionInstructions_7.strand (0 : StrandId)).reg (3 : Reg)) =
      0 ∧
    (wDivisionInstructions_7.strand (0 : StrandId)).dze = true)) :=
  ⟨⟨dec, dec, rfl⟩, dec⟩

def wDivisionInstructions_8 : Body := (fetched sDze 3)
theorem witness_DivisionInstructions_3 :
    (Runs sDze (0 : StrandId) (Instr.dstart (0 : StrandId) Width.w true (1 : Reg) (2 : Reg) (3 : Reg)) wDivisionInstructions_8) ∧
    ((1 : Reg) ≠ (0 : Reg) ∧ (2 : Reg) ≠ (0 : Reg) ∧ (3 : Reg) ≠ (0 : Reg) ∧ (1 : Reg) ≠ (2 : Reg) ∧ (1 : Reg) ≠ (3 : Reg) ∧ (2 : Reg) ≠ (3 : Reg)) ∧
    ((fun v =>
      BitVec.toNat v %
        2 ^
          match Width.w with
          | Width.d => 64
          | Width.w => 32)
    ((wDivisionInstructions_8.strand (0 : StrandId)).reg (3 : Reg)) =
  0) ∧
    ((wDivisionInstructions_8.strand (0 : StrandId)).dze = true) ∧
    ((wDivisionInstructions_8.strand (0 : StrandId)).pend = false) :=
  ⟨⟨dec, dec, rfl⟩, dec⟩

theorem witness_DivisionInstructions_4 :
    (Runs sDzero (0 : StrandId) (Instr.dstep (0 : StrandId) (1 : Reg) (2 : Reg) (3 : Reg)) wDivisionInstructions_7) ∧
    ((1 : Reg) ≠ (0 : Reg) ∧ (2 : Reg) ≠ (0 : Reg) ∧ (3 : Reg) ≠ (0 : Reg) ∧ (1 : Reg) ≠ (2 : Reg) ∧ (1 : Reg) ≠ (3 : Reg) ∧ (2 : Reg) ≠ (3 : Reg)) :=
  ⟨⟨dec, dec, rfl⟩, dec⟩

theorem witness_DivisionInstructions_5 :
    (Runs sDiv (0 : StrandId) (Instr.dend (0 : StrandId) Width.d true (1 : Reg) (2 : Reg) (3 : Reg)) wDivisionInstructions_6) ∧
    ((1 : Reg) ≠ (0 : Reg) ∧ (2 : Reg) ≠ (0 : Reg) ∧ (3 : Reg) ≠ (0 : Reg) ∧ (1 : Reg) ≠ (2 : Reg) ∧ (1 : Reg) ≠ (3 : Reg) ∧ (2 : Reg) ≠ (3 : Reg)) ∧
    (¬((¬BitVec.getLsbD (wDivisionInstructions_6.strand (0 : StrandId)).status 14 = true ∧
      BitVec.getLsbD (wDivisionInstructions_6.strand (0 : StrandId)).status 13 = true ∧ true = false) ∧
    (wDivisionInstructions_6.strand (0 : StrandId)).ioe = true)) :=
  ⟨⟨dec, dec, rfl⟩, dec⟩

theorem witness_DivisionInstructions_6 :
    (Runs sDzero (0 : StrandId) (Instr.dend (0 : StrandId) Width.d true (1 : Reg) (2 : Reg) (3 : Reg)) wDivisionInstructions_7) ∧
    ((1 : Reg) ≠ (0 : Reg) ∧ (2 : Reg) ≠ (0 : Reg) ∧ (3 : Reg) ≠ (0 : Reg) ∧ (1 : Reg) ≠ (2 : Reg) ∧ (1 : Reg) ≠ (3 : Reg) ∧ (2 : Reg) ≠ (3 : Reg)) ∧
    (¬((¬BitVec.getLsbD (wDivisionInstructions_7.strand (0 : StrandId)).status 14 = true ∧
      BitVec.getLsbD (wDivisionInstructions_7.strand (0 : StrandId)).status 13 = true ∧ true = false) ∧
    (wDivisionInstructions_7.strand (0 : StrandId)).ioe = true)) :=
  ⟨⟨dec, dec, rfl⟩, dec⟩

theorem witness_DivisionInstructions_7 :
    (Runs sDze (0 : StrandId) (Instr.dend (0 : StrandId) Width.d true (1 : Reg) (2 : Reg) (3 : Reg)) wDivisionInstructions_8) ∧
    ((1 : Reg) ≠ (0 : Reg) ∧ (2 : Reg) ≠ (0 : Reg) ∧ (3 : Reg) ≠ (0 : Reg) ∧ (1 : Reg) ≠ (2 : Reg) ∧ (1 : Reg) ≠ (3 : Reg) ∧ (2 : Reg) ≠ (3 : Reg)) ∧
    (¬((¬BitVec.getLsbD (wDivisionInstructions_8.strand (0 : StrandId)).status 14 = true ∧
      BitVec.getLsbD (wDivisionInstructions_8.strand (0 : StrandId)).status 13 = true ∧ true = false) ∧
    (wDivisionInstructions_8.strand (0 : StrandId)).ioe = true)) :=
  ⟨⟨dec, dec, rfl⟩, dec⟩

def wDivisionInstructions_9 : Body := (fetched sDend 3)
theorem witness_DivisionInstructions_8 :
    (Runs sDend (0 : StrandId) (Instr.dend (0 : StrandId) Width.d false (1 : Reg) (2 : Reg) (3 : Reg)) wDivisionInstructions_9) ∧
    ((1 : Reg) ≠ (0 : Reg) ∧ (2 : Reg) ≠ (0 : Reg) ∧ (3 : Reg) ≠ (0 : Reg) ∧ (1 : Reg) ≠ (2 : Reg) ∧ (1 : Reg) ≠ (3 : Reg) ∧ (2 : Reg) ≠ (3 : Reg)) ∧
    (¬BitVec.getLsbD (wDivisionInstructions_9.strand (0 : StrandId)).status 14 = true ∧
  BitVec.getLsbD (wDivisionInstructions_9.strand (0 : StrandId)).status 13 = true ∧ false = false) ∧
    ((wDivisionInstructions_9.strand (0 : StrandId)).ioe = true) ∧
    ((wDivisionInstructions_9.strand (0 : StrandId)).pend = false) :=
  ⟨⟨dec, dec, rfl⟩, dec⟩

def wDivisionInstructions_10 : Instr := (.dend 0 .d false 1 0 3)
theorem witness_DivisionInstructions_9 :
    (Runs sDiv (0 : StrandId) wDivisionInstructions_10 wDivisionInstructions_6) ∧
    (wDivisionInstructions_10 ∈
  [Instr.dstart (0 : StrandId) Width.d false (1 : Reg) (0 : Reg) (3 : Reg), Instr.dstep (0 : StrandId) (1 : Reg) (0 : Reg) (3 : Reg),
    Instr.dend (0 : StrandId) Width.d false (1 : Reg) (0 : Reg) (3 : Reg)]) ∧
    (¬((1 : Reg) ≠ (0 : Reg) ∧ (0 : Reg) ≠ (0 : Reg) ∧ (3 : Reg) ≠ (0 : Reg) ∧ (1 : Reg) ≠ (0 : Reg) ∧ (1 : Reg) ≠ (3 : Reg) ∧ (0 : Reg) ≠ (3 : Reg))) ∧
    ((wDivisionInstructions_6.strand (0 : StrandId)).pend = false) :=
  ⟨⟨dec, dec, rfl⟩, dec⟩

theorem witness_DivisionSequenceIsExact_1 :
    (BitVec.setWidth
    (match Width.d with
    | Width.d => 64
    | Width.w => 32)
    (18446744073709551615 : W) ≠
  (0 :
    BitVec
      (match Width.d with
      | Width.d => 64
      | Width.w => 32))) :=
  dec

theorem witness_TrapEntry_1 :
    ((bTrap.strand (0 : StrandId)).micro = none) ∧
    ((bTrap.strand (0 : StrandId)).tl = 0) ∧
    (¬(rIll.cause = (14 : Byte) ∨ rIll.cause = (15 : Byte))) ∧
    (rIll.cause ≠ (32 : Byte)) ∧
    (((bTrap.strand (0 : StrandId)).wcur - (bTrap.strand (0 : StrandId)).wbase).toNat ≠ 14) :=
  dec

theorem witness_TrapEntry_2 :
    ((bFull.strand (0 : StrandId)).micro = none) ∧
    ((bFull.strand (0 : StrandId)).tl = 0) ∧
    (¬(rIll.cause = (14 : Byte) ∨ rIll.cause = (15 : Byte))) ∧
    (rIll.cause ≠ (32 : Byte)) ∧
    (((bFull.strand (0 : StrandId)).wcur - (bFull.strand (0 : StrandId)).wbase).toNat = 14) :=
  dec

theorem witness_TrapEntry_3 :
    ((bT1.strand (0 : StrandId)).micro = none) ∧
    ((bT1.strand (0 : StrandId)).tl = 1) ∧
    (¬(rIll.cause = (14 : Byte) ∨ rIll.cause = (15 : Byte))) :=
  dec

theorem witness_TrapEntry_4 :
    ((bTrap.strand (0 : StrandId)).micro = none) ∧
    ((bTrap.strand (0 : StrandId)).tl = 0) ∧
    ((rWin.cause = (14 : Byte) ∨ rWin.cause = (15 : Byte)) ∨ rWin.cause = (32 : Byte)) :=
  dec

theorem witness_TrapEntry_5 :
    ((bT2.strand (0 : StrandId)).tl = 2) ∧
    ((bT2.strand (0 : StrandId)).micro = none) :=
  dec

def wSystemCallBreakpointAndUnassigned_11 : Body := (fetched sDiv 6)
theorem witness_SystemCallBreakpointAndUnassigned_1 :
    (Runs sDiv (0 : StrandId) (Instr.svc (0 : StrandId) (16777215 : BitVec 24)) wSystemCallBreakpointAndUnassigned_11) ∧
    ((wSystemCallBreakpointAndUnassigned_11.strand (0 : StrandId)).pend = false) :=
  ⟨⟨dec, dec, rfl⟩, dec⟩

theorem witness_SystemCallBreakpointAndUnassigned_2 :
    (Runs sDiv (0 : StrandId) (Instr.brk (0 : StrandId) (16777215 : BitVec 24)) wSystemCallBreakpointAndUnassigned_11) ∧
    ((wSystemCallBreakpointAndUnassigned_11.strand (0 : StrandId)).pend = false) :=
  ⟨⟨dec, dec, rfl⟩, dec⟩

def wSystemCallBreakpointAndUnassigned_12 : Body := unb.1
def wSystemCallBreakpointAndUnassigned_13 : List Byte := unb.2
theorem witness_SystemCallBreakpointAndUnassigned_3 :
    (sUnb.body.dueFirst (0 : StrandId) false = none) ∧
    (sUnb.body.fetchBytes (0 : StrandId) = LRes.ok wSystemCallBreakpointAndUnassigned_12 wSystemCallBreakpointAndUnassigned_13) ∧
    ((sUnb.body.strand (0 : StrandId)).ready = true) ∧
    (decodeInsn (0 : StrandId) (leNat wSystemCallBreakpointAndUnassigned_13) = none) ∧
    ((wSystemCallBreakpointAndUnassigned_12.strand (0 : StrandId)).pend = false) :=
  ⟨rfl, rfl, dec⟩

def wBranchesCallsAndReturns_14 : Body := (fetched sBr 6)
theorem witness_BranchesCallsAndReturns_1 :
    (Runs sBr (0 : StrandId) (Instr.bCond (0 : StrandId) (15 : BitVec 5) (8388608 : BitVec 24)) wBranchesCallsAndReturns_14) ∧
    (15 ≤ BitVec.toNat (15 : BitVec 5)) ∧
    ((wBranchesCallsAndReturns_14.strand (0 : StrandId)).pend = false) :=
  ⟨⟨dec, dec, rfl⟩, dec⟩

theorem witness_BranchesCallsAndReturns_2 :
    (Runs sBr (0 : StrandId) (Instr.bltz (0 : StrandId) (2 : Reg) (8388608 : BitVec 24)) wBranchesCallsAndReturns_14) ∧
    (BitVec.toInt ((wBranchesCallsAndReturns_14.strand (0 : StrandId)).reg (2 : Reg)) < (0 : ℤ)) :=
  ⟨⟨dec, dec, rfl⟩, dec⟩

theorem witness_BranchesCallsAndReturns_3 :
    (Runs sBr (0 : StrandId) (Instr.bgez (0 : StrandId) (2 : Reg) (8388608 : BitVec 24)) wBranchesCallsAndReturns_14) ∧
    (¬(0 : ℤ) ≤ BitVec.toInt ((wBranchesCallsAndReturns_14.strand (0 : StrandId)).reg (2 : Reg))) :=
  ⟨⟨dec, dec, rfl⟩, dec⟩

def wBranchesCallsAndReturns_15 : Body := (fetched sBr 3)
theorem witness_BranchesCallsAndReturns_4 :
    (Runs sBr (0 : StrandId) (Instr.nop (0 : StrandId)) wBranchesCallsAndReturns_15) :=
  ⟨dec, dec, rfl⟩

def wBranchesCallsAndReturns_16 : Body := (fetched sK13 6)
def wBranchesCallsAndReturns_17 : Body := (pushed sK13 6)
theorem witness_BranchesCallsAndReturns_5 :
    (Runs sK13 (0 : StrandId) (Instr.call (0 : StrandId) (8388608 : BitVec 24)) wBranchesCallsAndReturns_16) ∧
    (wBranchesCallsAndReturns_16.plainStore (0 : StrandId) needPush (wBranchesCallsAndReturns_16.strand (0 : StrandId)).prv
    (BitVec.toNat ((wBranchesCallsAndReturns_16.strand (0 : StrandId)).lsp - (8 : W)))
    (leBytes 8 (wBranchesCallsAndReturns_16.seqPc (0 : StrandId) 6).toNat) =
  LRes.ok wBranchesCallsAndReturns_17 ()) ∧
    ((wBranchesCallsAndReturns_16.strand (0 : StrandId)).pend = false) ∧
    ((wBranchesCallsAndReturns_16.strand (0 : StrandId)).tl = 0) ∧
    ((wBranchesCallsAndReturns_16.strand (0 : StrandId)).resident ≠ 14) :=
  ⟨⟨dec, dec, rfl⟩, rfl, dec⟩

def wBranchesCallsAndReturns_18 : Body := (fetched sK14 6)
theorem witness_BranchesCallsAndReturns_6 :
    (Runs sK14 (0 : StrandId) (Instr.call (0 : StrandId) (8388608 : BitVec 24)) wBranchesCallsAndReturns_18) ∧
    ((wBranchesCallsAndReturns_18.strand (0 : StrandId)).pend = false) ∧
    ((wBranchesCallsAndReturns_18.strand (0 : StrandId)).tl = 0) ∧
    ((wBranchesCallsAndReturns_18.strand (0 : StrandId)).resident = 14) :=
  ⟨⟨dec, dec, rfl⟩, dec⟩

def wBranchesCallsAndReturns_19 : Body := (fetched sT1 6)
theorem witness_BranchesCallsAndReturns_7 :
    (Runs sT1 (0 : StrandId) (Instr.call (0 : StrandId) (8388608 : BitVec 24)) wBranchesCallsAndReturns_19) ∧
    ((wBranchesCallsAndReturns_19.strand (0 : StrandId)).pend = false) ∧
    ((wBranchesCallsAndReturns_19.strand (0 : StrandId)).tl ≠ 0) :=
  ⟨⟨dec, dec, rfl⟩, dec⟩

def wBranchesCallsAndReturns_20 : Body := (fetched sK13 3)
def wBranchesCallsAndReturns_21 : Body := (popped sK13).1
def wBranchesCallsAndReturns_22 : List Byte := (popped sK13).2
theorem witness_BranchesCallsAndReturns_8 :
    (Runs sK13 (0 : StrandId) (Instr.ret (0 : StrandId)) wBranchesCallsAndReturns_20) ∧
    (wBranchesCallsAndReturns_20.loadVa (0 : StrandId) needPop (wBranchesCallsAndReturns_20.strand (0 : StrandId)).prv
    (BitVec.toNat (wBranchesCallsAndReturns_20.strand (0 : StrandId)).lsp) 8 =
  LRes.ok wBranchesCallsAndReturns_21 wBranchesCallsAndReturns_22) ∧
    ((wBranchesCallsAndReturns_20.strand (0 : StrandId)).pend = false) ∧
    ((wBranchesCallsAndReturns_20.strand (0 : StrandId)).tl = 0) ∧
    ((wBranchesCallsAndReturns_20.strand (0 : StrandId)).resident ≠ 0) :=
  ⟨⟨dec, dec, rfl⟩, rfl, dec⟩

def wBranchesCallsAndReturns_23 : Body := (fetched sK0 3)
theorem witness_BranchesCallsAndReturns_9 :
    (Runs sK0 (0 : StrandId) (Instr.ret (0 : StrandId)) wBranchesCallsAndReturns_23) ∧
    ((wBranchesCallsAndReturns_23.strand (0 : StrandId)).pend = false) ∧
    ((wBranchesCallsAndReturns_23.strand (0 : StrandId)).tl = 0) ∧
    ((wBranchesCallsAndReturns_23.strand (0 : StrandId)).resident = 0) :=
  ⟨⟨dec, dec, rfl⟩, dec⟩

def wReturnFromTrap_24 : State := (sR 1 0 3)
def wReturnFromTrap_25 : Body := (fetched (sR 1 0 3) 3)
theorem witness_ReturnFromTrap_1 :
    (Runs wReturnFromTrap_24 (0 : StrandId) (Instr.rtt (0 : StrandId)) wReturnFromTrap_25 true) ∧
    ((wReturnFromTrap_25.strand (0 : StrandId)).prv ≠ (0 : BitVec 2)) ∧
    (¬((wReturnFromTrap_25.strand (0 : StrandId)).tl = 0 ∧ (wReturnFromTrap_25.strand (0 : StrandId)).wcur = (wReturnFromTrap_25.strand (0 : StrandId)).wbase)) :=
  ⟨⟨dec, dec, rfl⟩, dec⟩

def wReturnFromTrap_26 : State := (sR 0 0 0)
def wReturnFromTrap_27 : Body := (fetched (sR 0 0 0) 3)
theorem witness_ReturnFromTrap_2 :
    (Runs wReturnFromTrap_26 (0 : StrandId) (Instr.rtt (0 : StrandId)) wReturnFromTrap_27 true) ∧
    ((wReturnFromTrap_27.strand (0 : StrandId)).prv = (0 : BitVec 2)) ∧
    ((wReturnFromTrap_27.strand (0 : StrandId)).pend = false) :=
  ⟨⟨dec, dec, rfl⟩, dec⟩

def wReturnFromTrap_28 : State := (sR 1 0 0)
def wReturnFromTrap_29 : Body := (fetched (sR 1 0 0) 3)
theorem witness_ReturnFromTrap_3 :
    (Runs wReturnFromTrap_28 (0 : StrandId) (Instr.rtt (0 : StrandId)) wReturnFromTrap_29 true) ∧
    ((wReturnFromTrap_29.strand (0 : StrandId)).prv ≠ (0 : BitVec 2)) ∧
    ((wReturnFromTrap_29.strand (0 : StrandId)).tl = 0) ∧
    ((wReturnFromTrap_29.strand (0 : StrandId)).wcur = (wReturnFromTrap_29.strand (0 : StrandId)).wbase) ∧
    ((wReturnFromTrap_29.strand (0 : StrandId)).pend = false) :=
  ⟨⟨dec, dec, rfl⟩, dec⟩
end G1

namespace G2
def sW (p l : Nat) (src : List Nat) : State := running { atLevel p l with checkSrc := src }
def sWaiting := running { atK with checkSrc := [3], act := .waiting }
def anEntry : StoreEntry := { pa := 0x300000, bytes := [1, 2], slot := 0, nol3 := false, via := none }
def aFail : FailRecord := { slice := 5, off := 0x2000, part := 1, asid := 7, loadCause := 0, kind := 1 }
def aPost : Posted := { strand := 0, slice := 5, off := 0x2000, wd := .d, data := 9, part := 1, asid := 7, gen := 1, expiry := 50 }
def sSb := running { atU with sb := [anEntry] }
def sPost : State := { running atU with body := (running atU).body.modIo fun i => { i with posted := [aPost] } }
def sFail := running { atU with fail := some aFail, further := 2 }
def sFm := running { atU with act := .fenceM }
def sFi := running { atU with act := .fenceIo }
def sFiF := running { atU with act := .fenceIo, fail := some aFail }

def sCs (p l : Nat) : State := running { (atLevel p l).setReg 3 0xFEDCBA9876543217 with fpstat := 0x030405, wcur := 3, wbase := 2, spsel := 1, lsp := 0x18, wsp := 0x28, tvecK := 0x11, tvecS := 0x22, itbr := 0x1000, dtbr := 0, s2tbr := 0x3000, asid := 0x44, part := 0, iob := #v[1, 2, 3, 4], tcmpK := 0x77777777, tcmpS := 0x88888888, trapK := { cause := 1, pc := 2, info0 := 3, info1 := 4, info2 := 5, info3 := 6 }, trapS := { cause := 11, pc := 12, info0 := 13, info1 := 14, info2 := 15, info3 := 16 } }
 
def uCs : Strand := (fetched (sCs 2 0) 6).strand 0
def wv : W := 0xFEDCBA9876543217
def sWin (v : W) : State := running { atK.setReg 3 v with wcur := 3, wbase := 2, dtbr := 0 }
def sSp (v : W) : State := running (atS.setReg 3 v)
def sInt (p : Nat) (u : Strand) : State := running { u with status := BitVec.ofNat 64 (p * 4 + 0x30) }
def iS := sInt 1 { tcmpS := 0 }
def iSupv := sInt 1 { checkSrc := [3] }
def iK := sInt 1 { tcmpK := 0 }
def withSlice (s : State) (n : Nat) (x : Slice) : State := { s with body := s.body.modIo fun i => { i with slices := tPut i.slices n x } }
def evSlice (rk : Byte) : Slice := { st := .bound, kind := 1, gen := 1, target := 0, rkind := rk, arm := true, thresh := 1, cq := { en := true, tail := 1 } }
def iFast := withSlice (sInt 1 {}) 7 (evSlice 1)
def iExt := withSlice (sInt 1 {}) 7 (evSlice 2)
def iTl := running { atLevel 1 1 with tcmpS := 0 }

def tS := sInt 1 { tcmpS := 500 }
def tK := sInt 1 { tcmpK := 500, tcmpS := 600 }
def sFp := running { atK with fpstat := 0x1000000, fpAddr := 0x1234, fpKind := 5, fpPrv := 2 }
def sHeld := running { atK with held := some { cause := 0x0A, rule := .upK } }
def sDelay := withSlice (running atK) 7 { (evSlice 1) with thresh := 9, stamps := [(0, 100)], delay := 3 }

def wWaitsAndFences_0 : State := (sW 2 0 [3])
def wWaitsAndFences_1 : Body := (fetched (sW 2 0 [3]) 6)
theorem witness_WaitsAndFences_1 :
    (Runs wWaitsAndFences_0 (0 : StrandId) (Instr.wait (0 : StrandId)) wWaitsAndFences_1 true) ∧
    ((wWaitsAndFences_1.strand (0 : StrandId)).tl = 0) ∧
    ((wWaitsAndFences_1.strand (0 : StrandId)).prv ≠ (0 : BitVec 2)) ∧
    (wWaitsAndFences_1.ipend (0 : StrandId) ≠ (0 : W) ∨ (wWaitsAndFences_1.strand (0 : StrandId)).mcheck.isSome = true) :=
  ⟨⟨dec, dec, rfl⟩, dec⟩

def wWaitsAndFences_2 : State := (sW 1 0 [])
def wWaitsAndFences_3 : Body := (fetched (sW 1 0 []) 6)
theorem witness_WaitsAndFences_2 :
    (Runs wWaitsAndFences_2 (0 : StrandId) (Instr.wait (0 : StrandId)) wWaitsAndFences_3 true) ∧
    ((wWaitsAndFences_3.strand (0 : StrandId)).tl = 0) ∧
    ((wWaitsAndFences_3.strand (0 : StrandId)).prv ≠ (0 : BitVec 2)) ∧
    (¬(fun x => x.ipend (0 : StrandId) ≠ (0 : W) ∨ (x.strand (0 : StrandId)).mcheck.isSome = true) wWaitsAndFences_3) :=
  ⟨⟨dec, dec, rfl⟩, dec⟩

def wWaitsAndFences_4 : State := (sW 1 1 [])
def wWaitsAndFences_5 : Body := (fetched (sW 1 1 []) 6)
theorem witness_WaitsAndFences_3 :
    (Runs wWaitsAndFences_4 (0 : StrandId) (Instr.wait (0 : StrandId)) wWaitsAndFences_5 true) ∧
    ((wWaitsAndFences_5.strand (0 : StrandId)).pend = false) ∧
    ((wWaitsAndFences_5.strand (0 : StrandId)).tl ≠ 0) :=
  ⟨⟨dec, dec, rfl⟩, dec⟩

def wWaitsAndFences_6 : State := (sW 0 0 [])
def wWaitsAndFences_7 : Body := (fetched (sW 0 0 []) 6)
theorem witness_WaitsAndFences_4 :
    (Runs wWaitsAndFences_6 (0 : StrandId) (Instr.wait (0 : StrandId)) wWaitsAndFences_7 true) ∧
    ((wWaitsAndFences_7.strand (0 : StrandId)).pend = false) ∧
    ((wWaitsAndFences_7.strand (0 : StrandId)).tl = 0) ∧
    ((wWaitsAndFences_7.strand (0 : StrandId)).prv = (0 : BitVec 2)) :=
  ⟨⟨dec, dec, rfl⟩, dec⟩

theorem witness_WaitsAndFences_5 :
    ((sWaiting.body.strand (0 : StrandId)).run = RunState.running) ∧
    ((sWaiting.body.strand (0 : StrandId)).act = Activity.waiting) ∧
    (sWaiting.body.ipend (0 : StrandId) ≠ (0 : W) ∨ (sWaiting.body.strand (0 : StrandId)).mcheck.isSome = true) :=
  dec

def wWaitsAndFences_9 : Body := (fetched sSb 3)
theorem witness_WaitsAndFences_6 :
    (Runs sSb (0 : StrandId) (Instr.fenceM (0 : StrandId)) wWaitsAndFences_9) ∧
    ((wWaitsAndFences_9.strand (0 : StrandId)).sb ≠ []) :=
  ⟨⟨dec, dec, rfl⟩, dec⟩

def wWaitsAndFences_10 : Body := (fetched sFail 3)
theorem witness_WaitsAndFences_7 :
    (Runs sFail (0 : StrandId) (Instr.fenceM (0 : StrandId)) wWaitsAndFences_10) ∧
    ((wWaitsAndFences_10.strand (0 : StrandId)).sb = []) :=
  ⟨⟨dec, dec, rfl⟩, dec⟩

def wWaitsAndFences_11 : Body := (fetched sPost 3)
theorem witness_WaitsAndFences_8 :
    (Runs sPost (0 : StrandId) (Instr.fenceIo (0 : StrandId)) wWaitsAndFences_11) ∧
    (∃ p ∈ wWaitsAndFences_11.io.posted, p.strand = (0 : StrandId)) :=
  ⟨⟨dec, dec, rfl⟩, dec⟩

theorem witness_WaitsAndFences_9 :
    (Runs sSb (0 : StrandId) (Instr.fenceIo (0 : StrandId)) wWaitsAndFences_9) ∧
    (¬(fun x => ∃ p ∈ x.io.posted, p.strand = (0 : StrandId)) wWaitsAndFences_9) ∧
    ((wWaitsAndFences_9.strand (0 : StrandId)).fail = none) :=
  ⟨⟨dec, dec, rfl⟩, dec⟩

theorem witness_WaitsAndFences_10 :
    (Runs sFail (0 : StrandId) (Instr.fenceIo (0 : StrandId)) wWaitsAndFences_10) ∧
    (¬(fun x => ∃ p ∈ x.io.posted, p.strand = (0 : StrandId)) wWaitsAndFences_10) ∧
    ((wWaitsAndFences_10.strand (0 : StrandId)).fail = some aFail) ∧
    ((wWaitsAndFences_10.strand (0 : StrandId)).pend = false) :=
  ⟨⟨dec, dec, rfl⟩, dec⟩

theorem witness_WaitsAndFences_11 :
    ((sFm.body.strand (0 : StrandId)).run = RunState.running) ∧
    ((sFm.body.strand (0 : StrandId)).act = Activity.fenceM) ∧
    ((sFm.body.strand (0 : StrandId)).mcheck = none) ∧
    ((sFm.body.strand (0 : StrandId)).sb = []) :=
  dec

theorem witness_WaitsAndFences_12 :
    ((sFi.body.strand (0 : StrandId)).run = RunState.running) ∧
    ((sFi.body.strand (0 : StrandId)).act = Activity.fenceIo) ∧
    (¬(fun x => ∃ p ∈ x.io.posted, p.strand = (0 : StrandId)) sFi.body) ∧
    ((sFi.body.strand (0 : StrandId)).pend = false) ∧
    ((sFi.body.strand (0 : StrandId)).mcheck = none) ∧
    ((sFi.body.strand (0 : StrandId)).held = none ∨ (sFi.body.strand (0 : StrandId)).tl ≠ 0) ∧
    ((sFi.body.strand (0 : StrandId)).fail = none) :=
  dec

theorem witness_WaitsAndFences_13 :
    ((sFiF.body.strand (0 : StrandId)).run = RunState.running) ∧
    ((sFiF.body.strand (0 : StrandId)).act = Activity.fenceIo) ∧
    (¬(fun x => ∃ p ∈ x.io.posted, p.strand = (0 : StrandId)) sFiF.body) ∧
    ((sFiF.body.strand (0 : StrandId)).pend = false) ∧
    ((sFiF.body.strand (0 : StrandId)).mcheck = none) ∧
    ((sFiF.body.strand (0 : StrandId)).held = none ∨ (sFiF.body.strand (0 : StrandId)).tl ≠ 0) ∧
    ((sFiF.body.strand (0 : StrandId)).fail = some aFail) :=
  dec

def wControlStateReads_12 : State := (sCs 2 0)
def wControlStateReads_13 : Body := (fetched (sCs 2 0) 6)
theorem witness_ControlStateReads_1 (h : Obligations.ControlStateReads) : ∃ t, exec (Instr.csrd (0 : StrandId) (4 : Reg) (2 : BitVec 12)) (wControlStateReads_12) = .next t := by
  have p := ((((((((((h.1 wControlStateReads_12) (0)) wControlStateReads_13) (4)) (2)) (0)) (0x1213)) (dec)) (⟨dec, dec, rfl⟩)) (dec))
  exact next_of p

theorem witness_ControlStateReads_2 (h : Obligations.ControlStateReads) : ∃ t, exec (Instr.csrd (0 : StrandId) (4 : Reg) (18 : BitVec 12)) (wControlStateReads_12) = .next t := by
  have p := ((((((((((h.1 wControlStateReads_12) (0)) wControlStateReads_13) (4)) (18)) (2)) (0x220000)) (dec)) (⟨dec, dec, rfl⟩)) (dec))
  exact next_of p

theorem witness_ControlStateReads_3 (h : Obligations.ControlStateReads) : ∃ t, exec (Instr.csrd (0 : StrandId) (4 : Reg) (68 : BitVec 12)) (wControlStateReads_12) = .next t := by
  have p := ((((((((((h.1 wControlStateReads_12) (0)) wControlStateReads_13) (4)) (68)) (1)) (0)) (dec)) (⟨dec, dec, rfl⟩)) (dec))
  exact next_of p

theorem witness_ControlStateReads_4 :
    (Runs wControlStateReads_12 (0 : StrandId) (Instr.csrd (0 : StrandId) (4 : Reg) (5 : BitVec 12)) wControlStateReads_13) ∧
    ((wControlStateReads_13.strand (0 : StrandId)).pend = false) ∧
    ((5 : BitVec 12) ∈
  [(5 : BitVec 12), (15 : BitVec 12), (19 : BitVec 12), (20 : BitVec 12), (29 : BitVec 12), (39 : BitVec 12), (72 : BitVec 12),
    (83 : BitVec 12), (107 : BitVec 12), (113 : BitVec 12), (123 : BitVec 12), (129 : BitVec 12), (255 : BitVec 12),
    (1023 : BitVec 12), (1088 : BitVec 12), (4095 : BitVec 12)]) :=
  ⟨⟨dec, dec, rfl⟩, dec⟩

def wControlStateReads_14 : State := (sCs 0 0)
def wControlStateReads_15 : Body := (fetched (sCs 0 0) 6)
theorem witness_ControlStateReads_5 :
    (Runs wControlStateReads_14 (0 : StrandId) (Instr.csrd (0 : StrandId) (4 : Reg) (17 : BitVec 12)) wControlStateReads_15) ∧
    ((wControlStateReads_15.strand (0 : StrandId)).pend = false) ∧
    ((17 : BitVec 12) ∈
  [(17 : BitVec 12), (24 : BitVec 12), (35 : BitVec 12), (40 : BitVec 12), (80 : BitVec 12), (89 : BitVec 12),
    (128 : BitVec 12), (1024 : BitVec 12), (1087 : BitVec 12)]) ∧
    ((wControlStateReads_15.strand (0 : StrandId)).prv = (0 : BitVec 2)) :=
  ⟨⟨dec, dec, rfl⟩, dec⟩

theorem witness_ControlStateReads_6 :
    (Runs wControlStateReads_14 (0 : StrandId) (Instr.cswr (0 : StrandId) (2 : BitVec 12) (3 : Reg)) wControlStateReads_15) ∧
    ((wControlStateReads_15.strand (0 : StrandId)).pend = false) ∧
    ((2 : BitVec 12) ∈
  [(2 : BitVec 12), (17 : BitVec 12), (24 : BitVec 12), (80 : BitVec 12), (88 : BitVec 12), (96 : BitVec 12),
    (1024 : BitVec 12)]) ∧
    ((wControlStateReads_15.strand (0 : StrandId)).prv = (0 : BitVec 2)) :=
  ⟨⟨dec, dec, rfl⟩, dec⟩

def wControlStateReads_16 : State := (sCs 1 0)
def wControlStateReads_17 : Body := (fetched (sCs 1 0) 6)
theorem witness_ControlStateReads_7 :
    (Runs wControlStateReads_16 (0 : StrandId) (Instr.csrd (0 : StrandId) (4 : Reg) (105 : BitVec 12)) wControlStateReads_17) ∧
    ((wControlStateReads_17.strand (0 : StrandId)).pend = false) ∧
    ((105 : BitVec 12) ∈
  [(18 : BitVec 12), (26 : BitVec 12), (34 : BitVec 12), (82 : BitVec 12), (104 : BitVec 12), (105 : BitVec 12),
    (106 : BitVec 12), (122 : BitVec 12), (136 : BitVec 12)]) ∧
    ((wControlStateReads_17.strand (0 : StrandId)).prv.toNat < 2) :=
  ⟨⟨dec, dec, rfl⟩, dec⟩

theorem witness_ControlStateReads_8 :
    (Runs wControlStateReads_12 (0 : StrandId) (Instr.cswr (0 : StrandId) (112 : BitVec 12) (3 : Reg)) wControlStateReads_13) ∧
    ((wControlStateReads_13.strand (0 : StrandId)).pend = false) ∧
    ((112 : BitVec 12) = (112 : BitVec 12) ∨ (112 : BitVec 12) = (128 : BitVec 12)) ∧
    ((wControlStateReads_13.strand (0 : StrandId)).prv.toNat ≤ 2) :=
  ⟨⟨dec, dec, rfl⟩, dec⟩

theorem witness_ControlStateReads_9 :
    (Runs wControlStateReads_14 (0 : StrandId) (Instr.cswr (0 : StrandId) (0 : BitVec 12) (3 : Reg)) wControlStateReads_15) ∧
    ((wControlStateReads_15.strand (0 : StrandId)).pend = false) ∧
    ((wControlStateReads_15.strand (0 : StrandId)).prv = (0 : BitVec 2)) ∧
    (((wControlStateReads_15.strand (0 : StrandId)).reg (3 : Reg) ^^^ (wControlStateReads_15.strand (0 : StrandId)).status) &&& (48 : W) ≠ (0 : W)) :=
  ⟨⟨dec, dec, rfl⟩, dec⟩

def wControlStateWrites_18 : Strand := ({ uCs with waymaskL2 := 0x3217, waymaskL3 := 0x7654 })
theorem witness_ControlStateWrites_1 (h : Obligations.ControlStateWrites) : ∃ t, exec (Instr.cswr (0 : StrandId) (106 : BitVec 12) (3 : Reg)) (wControlStateReads_12) = .next t := by
  have p := ((((((((((h.1 wControlStateReads_12) (0)) wControlStateReads_13) (3)) (106)) (2)) wControlStateWrites_18) (dec)) (⟨dec, dec, rfl⟩)) (dec))
  exact next_of p

def wControlStateWrites_19 : Strand := ({ uCs with trap1 := { uCs.trap1 with info0 := wv } })
theorem witness_ControlStateWrites_2 (h : Obligations.ControlStateWrites) : ∃ t, exec (Instr.cswr (0 : StrandId) (43 : BitVec 12) (3 : Reg)) (wControlStateReads_12) = .next t := by
  have p := ((((((((((h.1 wControlStateReads_12) (0)) wControlStateReads_13) (3)) (43)) (1)) wControlStateWrites_19) (dec)) (⟨dec, dec, rfl⟩)) (dec))
  exact next_of p

def wControlStateWrites_20 : State := (sWin 0x506)
def wControlStateWrites_21 : Body := (fetched (sWin 0x506) 6)
theorem witness_ControlStateWrites_3 :
    (Runs wControlStateWrites_20 (0 : StrandId) (Instr.writeCsWin (0 : StrandId) (3 : Reg)) wControlStateWrites_21) ∧
    (1 ≤ (wControlStateWrites_21.strand (0 : StrandId)).prv.toNat) :=
  ⟨⟨dec, dec, rfl⟩, dec⟩

def wControlStateWrites_22 : State := (sWin 0x0100)
def wControlStateWrites_23 : Body := (fetched (sWin 0x0100) 6)
theorem witness_ControlStateWrites_4 :
    (Runs wControlStateWrites_22 (0 : StrandId) (Instr.writeCsWin (0 : StrandId) (3 : Reg)) wControlStateWrites_23) ∧
    (1 ≤ (wControlStateWrites_23.strand (0 : StrandId)).prv.toNat) :=
  ⟨⟨dec, dec, rfl⟩, dec⟩

def wControlStateWrites_24 : State := (sWin 9)
def wControlStateWrites_25 : Body := (fetched (sWin 9) 6)
theorem witness_ControlStateWrites_5 :
    (Runs wControlStateWrites_24 (0 : StrandId) (Instr.writeCsTcmp (0 : StrandId) (0 : BitVec 3) (3 : Reg)) wControlStateWrites_25) ∧
    ((0 : BitVec 3) = (1 : BitVec 3) ∨ (0 : BitVec 3) = (0 : BitVec 3) ∧ (wControlStateWrites_25.strand (0 : StrandId)).prv = (1 : BitVec 2)) ∧
    (1 ≤ (wControlStateWrites_25.strand (0 : StrandId)).prv.toNat) :=
  ⟨⟨dec, dec, rfl⟩, dec⟩

def wControlStateWrites_26 : State := (sSp 9)
def wControlStateWrites_27 : Body := (fetched (sSp 9) 6)
theorem witness_ControlStateWrites_6 :
    (Runs wControlStateWrites_26 (0 : StrandId) (Instr.writeCsTcmp (0 : StrandId) (0 : BitVec 3) (3 : Reg)) wControlStateWrites_27) ∧
    ((0 : BitVec 3) = (2 : BitVec 3) ∨ (0 : BitVec 3) = (0 : BitVec 3)) ∧
    ((wControlStateWrites_27.strand (0 : StrandId)).prv = (2 : BitVec 2)) :=
  ⟨⟨dec, dec, rfl⟩, dec⟩

def wControlStateWrites_28 : State := (sSp 8)
def wControlStateWrites_29 : Body := (fetched (sSp 8) 6)
theorem witness_ControlStateWrites_7 :
    (Runs wControlStateWrites_28 (0 : StrandId) (Instr.writeCsSpad (0 : StrandId) (3 : Reg)) wControlStateWrites_29) ∧
    (2 ≤ (wControlStateWrites_29.strand (0 : StrandId)).prv.toNat) :=
  ⟨⟨dec, dec, rfl⟩, dec⟩

theorem witness_ControlStateWrites_8 :
    (Runs wControlStateWrites_26 (0 : StrandId) (Instr.writeCsSpad (0 : StrandId) (3 : Reg)) wControlStateWrites_27) ∧
    (2 ≤ (wControlStateWrites_27.strand (0 : StrandId)).prv.toNat) :=
  ⟨⟨dec, dec, rfl⟩, dec⟩

def wControlStateWrites_30 : State := (sSp 5)
def wControlStateWrites_31 : Body := (fetched (sSp 5) 6)
theorem witness_ControlStateWrites_9 :
    (Runs wControlStateWrites_30 (0 : StrandId) (Instr.writeCsCachectl (0 : StrandId) (3 : Reg)) wControlStateWrites_31) ∧
    (2 ≤ (wControlStateWrites_31.strand (0 : StrandId)).prv.toNat) :=
  ⟨⟨dec, dec, rfl⟩, dec⟩

theorem witness_InterruptPriority_1 :
    (iS.body.boundary (0 : StrandId) false = none) ∧
    ((iS.body.strand (0 : StrandId)).interruptible = true) ∧
    ((iS.body.strand (0 : StrandId)).pend = false) ∧
    ((iS.body.strand (0 : StrandId)).tl = 0) ∧
    (((iS.body.strand (0 : StrandId)).ie = true ∨ (iS.body.strand (0 : StrandId)).prv ≠ (2 : BitVec 2)) ∧
  BitVec.toNat (iS.body.strand (0 : StrandId)).tcmpS ≤ iS.body.ctl.tod[halfOfStrand (0 : StrandId)].toNat) :=
  ⟨rfl, dec⟩

theorem witness_InterruptPriority_2 :
    (iK.body.boundary (0 : StrandId) false = none) ∧
    ((iK.body.strand (0 : StrandId)).interruptible = true) ∧
    ((iK.body.strand (0 : StrandId)).pend = false) ∧
    ((iK.body.strand (0 : StrandId)).tl = 0) ∧
    (¬(((iK.body.strand (0 : StrandId)).ie = true ∨ (iK.body.strand (0 : StrandId)).prv ≠ (2 : BitVec 2)) ∧
    BitVec.toNat (iK.body.strand (0 : StrandId)).tcmpS ≤ iK.body.ctl.tod[halfOfStrand (0 : StrandId)].toNat)) ∧
    (¬(((iK.body.strand (0 : StrandId)).ie = true ∨ (iK.body.strand (0 : StrandId)).prv ≠ (2 : BitVec 2)) ∧ iK.body.sources (0 : StrandId) IntrKind.sup ≠ [])) ∧
    (¬(((iK.body.strand (0 : StrandId)).fie = true ∧ (iK.body.strand (0 : StrandId)).prv ≠ (2 : BitVec 2)) ∧ iK.body.sources (0 : StrandId) IntrKind.fast ≠ [])) ∧
    (((iK.body.strand (0 : StrandId)).ie = true ∧ (iK.body.strand (0 : StrandId)).prv ≠ (2 : BitVec 2)) ∧
  BitVec.toNat (iK.body.strand (0 : StrandId)).tcmpK ≤ iK.body.ctl.tod[halfOfStrand (0 : StrandId)].toNat) :=
  ⟨rfl, dec⟩

def wInterruptPriority_32 : ℕ := (iSupv.body.sources 0 .sup).headD 0
theorem witness_InterruptPriority_3 :
    (iSupv.body.boundary (0 : StrandId) false = none) ∧
    ((iSupv.body.strand (0 : StrandId)).interruptible = true) ∧
    ((iSupv.body.strand (0 : StrandId)).pend = false) ∧
    ((iSupv.body.strand (0 : StrandId)).tl = 0) ∧
    (¬(((iSupv.body.strand (0 : StrandId)).ie = true ∨ (iSupv.body.strand (0 : StrandId)).prv ≠ (2 : BitVec 2)) ∧
    BitVec.toNat (iSupv.body.strand (0 : StrandId)).tcmpS ≤ iSupv.body.ctl.tod[halfOfStrand (0 : StrandId)].toNat)) ∧
    ((iSupv.body.strand (0 : StrandId)).ie = true ∨ (iSupv.body.strand (0 : StrandId)).prv ≠ (2 : BitVec 2)) ∧
    (wInterruptPriority_32 ∈ iSupv.body.sources (0 : StrandId) IntrKind.sup ∧ ∀ m ∈ iSupv.body.sources (0 : StrandId) IntrKind.sup, wInterruptPriority_32 ≤ m) :=
  ⟨rfl, dec⟩

def wInterruptPriority_33 : ℕ := (iFast.body.sources 0 .fast).headD 0
theorem witness_InterruptPriority_4 :
    (iFast.body.boundary (0 : StrandId) false = none) ∧
    ((iFast.body.strand (0 : StrandId)).interruptible = true) ∧
    ((iFast.body.strand (0 : StrandId)).pend = false) ∧
    ((iFast.body.strand (0 : StrandId)).tl = 0) ∧
    (¬(((iFast.body.strand (0 : StrandId)).ie = true ∨ (iFast.body.strand (0 : StrandId)).prv ≠ (2 : BitVec 2)) ∧
    BitVec.toNat (iFast.body.strand (0 : StrandId)).tcmpS ≤ iFast.body.ctl.tod[halfOfStrand (0 : StrandId)].toNat)) ∧
    (¬(((iFast.body.strand (0 : StrandId)).ie = true ∨ (iFast.body.strand (0 : StrandId)).prv ≠ (2 : BitVec 2)) ∧ iFast.body.sources (0 : StrandId) IntrKind.sup ≠ [])) ∧
    ((iFast.body.strand (0 : StrandId)).fie = true ∧ (iFast.body.strand (0 : StrandId)).prv ≠ (2 : BitVec 2)) ∧
    (wInterruptPriority_33 ∈ iFast.body.sources (0 : StrandId) IntrKind.fast ∧ ∀ m ∈ iFast.body.sources (0 : StrandId) IntrKind.fast, wInterruptPriority_33 ≤ m) :=
  ⟨rfl, dec⟩

def wInterruptPriority_34 : ℕ := (iExt.body.sources 0 .ext).headD 0
theorem witness_InterruptPriority_5 :
    (iExt.body.boundary (0 : StrandId) false = none) ∧
    ((iExt.body.strand (0 : StrandId)).interruptible = true) ∧
    ((iExt.body.strand (0 : StrandId)).pend = false) ∧
    ((iExt.body.strand (0 : StrandId)).tl = 0) ∧
    (¬(((iExt.body.strand (0 : StrandId)).ie = true ∨ (iExt.body.strand (0 : StrandId)).prv ≠ (2 : BitVec 2)) ∧
    BitVec.toNat (iExt.body.strand (0 : StrandId)).tcmpS ≤ iExt.body.ctl.tod[halfOfStrand (0 : StrandId)].toNat)) ∧
    (¬(((iExt.body.strand (0 : StrandId)).ie = true ∨ (iExt.body.strand (0 : StrandId)).prv ≠ (2 : BitVec 2)) ∧ iExt.body.sources (0 : StrandId) IntrKind.sup ≠ [])) ∧
    (¬(((iExt.body.strand (0 : StrandId)).fie = true ∧ (iExt.body.strand (0 : StrandId)).prv ≠ (2 : BitVec 2)) ∧ iExt.body.sources (0 : StrandId) IntrKind.fast ≠ [])) ∧
    (¬(((iExt.body.strand (0 : StrandId)).ie = true ∧ (iExt.body.strand (0 : StrandId)).prv ≠ (2 : BitVec 2)) ∧
    BitVec.toNat (iExt.body.strand (0 : StrandId)).tcmpK ≤ iExt.body.ctl.tod[halfOfStrand (0 : StrandId)].toNat)) ∧
    ((iExt.body.strand (0 : StrandId)).ie = true ∧ (iExt.body.strand (0 : StrandId)).prv ≠ (2 : BitVec 2)) ∧
    (wInterruptPriority_34 ∈ iExt.body.sources (0 : StrandId) IntrKind.ext ∧ ∀ m ∈ iExt.body.sources (0 : StrandId) IntrKind.ext, wInterruptPriority_34 ≤ m) :=
  ⟨rfl, dec⟩

theorem witness_InterruptPriority_6 :
    (iTl.body.boundary (0 : StrandId) false = none) ∧
    ((iTl.body.strand (0 : StrandId)).tl ≠ 0) :=
  ⟨rfl, dec⟩

theorem witness_TimerAndHeldEvents_1 (h : Obligations.TimerAndHeldEvents) : ∃ t, exec (Instr.timer (0 : StrandId) TimerTarget.s) (tS) = .next t := by
  have p := (((((((((h.1 tS) (0)) Sys2Proof.TimerTarget.s).2 (dec)) (rfl)) (dec)) (dec)).1 (dec)) (dec))
  exact next_of p

theorem witness_TimerAndHeldEvents_2 (h : Obligations.TimerAndHeldEvents) : ∃ t, exec (Instr.timer (0 : StrandId) TimerTarget.k) (tK) = .next t := by
  have p := (((((((((((((h.1 tK) (0)) Sys2Proof.TimerTarget.k).2 (dec)) (rfl)) (dec)) (dec)).2 (dec)) (dec)) (dec)) (dec)) (dec)) (dec))
  exact next_of p

theorem witness_TimerAndHeldEvents_3 :
    ((sFp.body.strand (0 : StrandId)).interruptible = true) ∧
    ((sFp.body.strand (0 : StrandId)).tl = 0) ∧
    ((sFp.body.strand (0 : StrandId)).pend = true) ∧
    ((sFp.body.strand (0 : StrandId)).resident ≠ 14) :=
  dec

def wTimerAndHeldEvents_35 : TrapReq := ({ cause := 0x0A, rule := .upK })
theorem witness_TimerAndHeldEvents_4 :
    ((sHeld.body.strand (0 : StrandId)).interruptible = true) ∧
    ((sHeld.body.strand (0 : StrandId)).tl = 0) ∧
    ((sHeld.body.strand (0 : StrandId)).pend = false) ∧
    ((sHeld.body.strand (0 : StrandId)).mcheck = none) ∧
    ((sHeld.body.strand (0 : StrandId)).held = some wTimerAndHeldEvents_35) :=
  dec

theorem witness_TimerAndHeldEvents_5 :
    ((sDelay.body.slice (7 : SliceId)).st ≠ SliceSt.free) ∧
    ((sDelay.body.slice (7 : SliceId)).arm = true) ∧
    ((sDelay.body.slice (7 : SliceId)).cq.head ≠ (sDelay.body.slice (7 : SliceId)).cq.tail) ∧
    ((sDelay.body.slice (7 : SliceId)).delayEnd = some 3100) ∧
    (3100 < 2 ^ 64) :=
  dec
end G2

namespace G3
def dat : LineData := 0xFFEEDDCCBBAA99887766554433221100F0E0D0C0B0A09080
def sLd := holding (running ((((atK.setReg 2 0x300008).setReg 3 2).setReg 4 0x123456789ABCDEF0).setReg 5 0x30007C)) [0x300000, 0x300080] dat
def bLd (n : Nat) := fetched sLd n
def ldOf (need : Need) (va n : Nat) : Body × List Byte := LRes.get ((bLd 3).loadVa 0 need 1 va n) {} []
def sU := running atU

def stOf (need : Need) (va : Nat) (bs : List Byte) : Body := (LRes.get ((bLd 3).plainStore 0 need 1 va bs) {} ()).1
def r4 (n : Nat) : List Byte := leBytes n 0x123456789ABCDEF0
def svOf (va n : Nat) : Body × List Seg := LRes.get ((bLd 3).storeVa 0 needStore 1 va n) {} []
def sSp : State := { sLd with body := sLd.body.setStrand 0 { sLd.body.strand 0 with sb := [{ pa := 0x300004, bytes := [1, 2], slot := 0, nol3 := false, via := none }, { pa := 0x300104, bytes := [1, 2], slot := 0, nol3 := false, via := none }], resv := some 0x3000, hold := true } }

def sBm (n : W) : State := holding (running (((atK.setReg 2 0x300008).setReg 1 0x400010).setReg 3 n)) [0x300000, 0x300080, 0x300100] dat
def bm (n : W) (k : Nat) : Body × Body × Body × Body × List Piece × List Seg × List Byte :=
  let b := fetched (sBm n) 3
  let (b1, ps) := TRes.get (b.translate 0 needLoad 1 0x300008 k) {} []
  let (b2, gs) := LRes.get (b1.storeVa 0 needStore 1 0x400010 k) {} []
  let (b3, bs) := LRes.get (b2.readSegs 0 (segsOf ps)) {} []
  (b1, b2, b3, (b3.bufferStore 0 gs bs).getD {}, ps, gs, bs)
def sAt (a : W) (rs : Option Nat) : State := holding (running { ((((atK.setReg 2 a).setReg 1 0x30).setReg 3 9)) with resv := rs, hold := rs.isSome }) [0x300000, 0x300080] dat
def at2 (need : Need) (a : W) (rs : Option Nat) (n : Nat) : Body × List Piece × Body × List Byte :=
  let b := fetched (sAt a rs) 3
  let (b1, ps) := TRes.get (b.translate 0 need 1 a.toNat n) {} []
  let (b2, bs) := LRes.get (b1.readSegs 0 (segsOf ps)) {} []
  (b1, ps, b2, bs)
def ats (need : Need) (a : W) (rs : Option Nat) (n : Nat) : Body × List Seg := LRes.get ((fetched (sAt a rs) 3).storeVa 0 need 1 a.toNat n) {} []
def seg0 (l : List Seg) : Seg := l.headD { pa := 0, len := 0, slot := 0, nol3 := false, cls := .memory, via := none }
def yes (p : Performed) : Body := match p with | .yes b => b | _ => {}
def exr (a : W) (n : Nat) : Body × List Byte := let x := ats needCas a none n; LRes.get (x.1.exclusiveRead 0 (seg0 x.2)) {} []

def wLoads_0 : Body := (bLd 6)
def wLoads_1 : Body := (ldOf needLoad (0x300007) 1).1
def wLoads_2 : MemForm := (.disp 2 0xFFFFFF)
def wLoads_3 : List Byte := (ldOf needLoad (0x300007) 1).2
theorem witness_Loads_1 :
    (Runs sLd (0 : StrandId) (Instr.lds (0 : StrandId) Size.b wLoads_2 (4 : Reg)) wLoads_0) ∧
    (wLoads_0.loadVa (0 : StrandId) needLoad (wLoads_0.strand (0 : StrandId)).dataPrv
    (BitVec.toNat
      (match wLoads_2 with
      | MemForm.idx ra rb x =>
        (wLoads_0.strand (0 : StrandId)).reg ra +
          (wLoads_0.strand (0 : StrandId)).reg rb *
            if x = true then
              BitVec.ofNat 64
                (match Size.b with
                | Size.b => 1
                | Size.h => 2
                | Size.w => 4
                | Size.d => 8)
            else (1 : BitVec 64)
      | MemForm.disp base d => (wLoads_0.strand (0 : StrandId)).reg base + BitVec.signExtend 64 d))
    (match Size.b with
    | Size.b => 1
    | Size.h => 2
    | Size.w => 4
    | Size.d => 8) =
  LRes.ok wLoads_1 wLoads_3) ∧
    (Size.b ≠ Size.d) :=
  ⟨⟨dec, dec, rfl⟩, rfl, dec⟩

def wLoads_4 : Body := (bLd 3)
def wLoads_5 : Body := (ldOf needLoad (0x30007E) 8).1
def wLoads_6 : MemForm := (.idx 5 3 false)
def wLoads_7 : List Byte := (ldOf needLoad (0x30007E) 8).2
theorem witness_Loads_2 :
    (Runs sLd (0 : StrandId) (Instr.ld (0 : StrandId) Size.d wLoads_6 (4 : Reg)) wLoads_4) ∧
    (wLoads_4.loadVa (0 : StrandId) needLoad (wLoads_4.strand (0 : StrandId)).dataPrv
    (BitVec.toNat
      (match wLoads_6 with
      | MemForm.idx ra rb x =>
        (wLoads_4.strand (0 : StrandId)).reg ra +
          (wLoads_4.strand (0 : StrandId)).reg rb *
            if x = true then
              BitVec.ofNat 64
                (match Size.d with
                | Size.b => 1
                | Size.h => 2
                | Size.w => 4
                | Size.d => 8)
            else (1 : BitVec 64)
      | MemForm.disp base d => (wLoads_4.strand (0 : StrandId)).reg base + BitVec.signExtend 64 d))
    (match Size.d with
    | Size.b => 1
    | Size.h => 2
    | Size.w => 4
    | Size.d => 8) =
  LRes.ok wLoads_5 wLoads_7) :=
  ⟨⟨dec, dec, rfl⟩, rfl⟩

theorem witness_Loads_3 :
    (Runs sLd (0 : StrandId) (Instr.lds (0 : StrandId) Size.d wLoads_6 (4 : Reg)) wLoads_4) ∧
    ((wLoads_4.strand (0 : StrandId)).pend = false) :=
  ⟨⟨dec, dec, rfl⟩, dec⟩

def wLoads_8 : Body := (ldOf needIrd 0x300018 8).1
def wLoads_10 : List Byte := (ldOf needIrd 0x300018 8).2
theorem witness_Loads_4 :
    (Runs sLd (0 : StrandId) (Instr.ird (0 : StrandId) (2 : Reg) (16 : BitVec 24) (4 : Reg)) wLoads_0) ∧
    (wLoads_0.loadVa (0 : StrandId) needIrd (wLoads_0.strand (0 : StrandId)).prv
    (BitVec.toNat ((wLoads_0.strand (0 : StrandId)).reg (2 : Reg) + BitVec.signExtend 64 (16 : BitVec 24)) % 2 ^ 48) 8 =
  LRes.ok wLoads_8 wLoads_10) ∧
    (1 ≤ (wLoads_0.strand (0 : StrandId)).prv.toNat) :=
  ⟨⟨dec, dec, rfl⟩, rfl, dec⟩

def wLoads_11 : Body := (fetched sU 6)
def wLoads_13 : Instr := (.ird 0 2 0x10 4)
theorem witness_Loads_5 :
    (Runs sU (0 : StrandId) wLoads_13 wLoads_11) ∧
    (wLoads_13 ∈ [Instr.ird (0 : StrandId) (2 : Reg) (16 : BitVec 24) (4 : Reg), Instr.iwr (0 : StrandId) (2 : Reg) (16 : BitVec 24) (4 : Reg)]) ∧
    ((wLoads_11.strand (0 : StrandId)).prv = (0 : BitVec 2)) ∧
    ((wLoads_11.strand (0 : StrandId)).pend = false) :=
  ⟨⟨dec, dec, rfl⟩, dec⟩

theorem witness_Loads_6 :
    (wLoads_4.loadVa (0 : StrandId) needLoad (1 : BitVec 2) 3145854 8 = LRes.ok wLoads_5 wLoads_7) ∧
    ((wLoads_4.cluster (clusterOfStrand (0 : StrandId))).l2e = true) ∧
    (1 ≤ 8) ∧
    (8 ≤ 256) :=
  ⟨rfl, dec⟩

def wStores_14 : Body := (stOf needStore (0x30007E) (r4 8))
theorem witness_Stores_1 :
    (Runs sLd (0 : StrandId) (Instr.st (0 : StrandId) Size.d wLoads_6 (4 : Reg)) wLoads_4) ∧
    (wLoads_4.plainStore (0 : StrandId) needStore (wLoads_4.strand (0 : StrandId)).dataPrv
    (BitVec.toNat
      (match wLoads_6 with
      | MemForm.idx ra rb x =>
        (wLoads_4.strand (0 : StrandId)).reg ra +
          (wLoads_4.strand (0 : StrandId)).reg rb *
            if x = true then
              BitVec.ofNat 64
                (match Size.d with
                | Size.b => 1
                | Size.h => 2
                | Size.w => 4
                | Size.d => 8)
            else (1 : BitVec 64)
      | MemForm.disp base d => (wLoads_4.strand (0 : StrandId)).reg base + BitVec.signExtend 64 d))
    (leBytes
      (match Size.d with
      | Size.b => 1
      | Size.h => 2
      | Size.w => 4
      | Size.d => 8)
      (BitVec.toNat ((wLoads_4.strand (0 : StrandId)).reg (4 : Reg)))) =
  LRes.ok wStores_14 ()) :=
  ⟨⟨dec, dec, rfl⟩, rfl⟩

def wStores_15 : Body := (stOf needIwr 0x300018 (r4 8))
theorem witness_Stores_2 :
    (Runs sLd (0 : StrandId) (Instr.iwr (0 : StrandId) (2 : Reg) (16 : BitVec 24) (4 : Reg)) wLoads_0) ∧
    (wLoads_0.plainStore (0 : StrandId) needIwr (wLoads_0.strand (0 : StrandId)).prv
    (BitVec.toNat ((wLoads_0.strand (0 : StrandId)).reg (2 : Reg) + BitVec.signExtend 64 (16 : BitVec 24)) % 2 ^ 48)
    (leBytes 8 (BitVec.toNat ((wLoads_0.strand (0 : StrandId)).reg (4 : Reg)))) =
  LRes.ok wStores_15 ()) ∧
    (1 ≤ (wLoads_0.strand (0 : StrandId)).prv.toNat) :=
  ⟨⟨dec, dec, rfl⟩, rfl, dec⟩

def wStoreBuffer_17 : Body := (svOf 0x30007E 8).1
def wStoreBuffer_18 : List Byte := (r4 8)
def wStoreBuffer_19 : List Seg := (svOf 0x30007E 8).2
theorem witness_StoreBuffer_1 :
    (wLoads_4.storeVa (0 : StrandId) needStore (1 : BitVec 2) 3145854 wStoreBuffer_18.length = LRes.ok wStoreBuffer_17 wStoreBuffer_19) ∧
    (wLoads_4.plainStore (0 : StrandId) needStore (1 : BitVec 2) 3145854 wStoreBuffer_18 = LRes.ok wStores_14 ()) :=
  ⟨rfl, rfl⟩

def wStoreBuffer_20 : StoreEntry := ({ pa := 0x100, bytes := [7, 8], slot := 0, nol3 := false, via := none })
def wStoreBuffer_21 : List Byte := [1, 2, 3, 4]
theorem witness_StoreBuffer_2 :
    (3 < wStoreBuffer_21.length) ∧
    (wStoreBuffer_20.pa ≤ 254 + 3) ∧
    (254 + 3 < wStoreBuffer_20.pa + wStoreBuffer_20.bytes.length) :=
  dec

def wStoreBuffer_22 : List StoreEntry := [{ pa := 0x102, bytes := [7, 8], slot := 0, nol3 := false, via := none }]
theorem witness_StoreBuffer_3 :
    (3 < wStoreBuffer_21.length) ∧
    (∀ x ∈ wStoreBuffer_22, 254 + 3 < x.pa ∨ x.pa + x.bytes.length ≤ 254 + 3) :=
  dec

def wStoreBuffer_23 : StoreEntry := (sSp.body.strand 0).sb.headD ({ pa := 0, bytes := [], slot := 0, nol3 := false, via := none })
def wStoreBuffer_24 : List StoreEntry := (sSp.body.strand 0).sb.tail
def wStoreBuffer_25 : ℕ := (l2Slot (lineNo 0x300004) 0)
def wStoreBuffer_26 : L2Line := ({ line := lineNo 0x300004, st := .m, locked := false, slot := 0, nol3 := false, data := dat })
theorem witness_StoreBuffer_4 :
    ((sSp.body.strand (0 : StrandId)).sb = wStoreBuffer_23 :: wStoreBuffer_24) ∧
    (sSp.body.classOf wStoreBuffer_23.pa ≠ PClass.scratchpad) ∧
    (sSp.body.lineCheck (0 : StrandId) wStoreBuffer_23.pa false = none) ∧
    ((sSp.body.cluster (clusterOfStrand (0 : StrandId))).l2e = true) ∧
    (sSp.body.l2Has (clusterOfStrand (0 : StrandId)) (lineNo wStoreBuffer_23.pa) = some (wStoreBuffer_25, wStoreBuffer_26)) ∧
    (wStoreBuffer_26.st = L2State.e ∨ wStoreBuffer_26.st = L2State.m) ∧
    (sSp.body.mirrored wStoreBuffer_23.pa = none) :=
  dec

def wBlockMove_27 : State := (sBm 0)
def wBlockMove_28 : Body := (fetched (sBm 0) 3)
theorem witness_BlockMove_1 :
    (Runs wBlockMove_27 (0 : StrandId) (Instr.bmove (0 : StrandId) (1 : Reg) (2 : Reg) (3 : Reg)) wBlockMove_28) ∧
    ((1 : Reg) ≠ (0 : Reg) ∧ (2 : Reg) ≠ (0 : Reg) ∧ (3 : Reg) ≠ (0 : Reg) ∧ (1 : Reg) ≠ (2 : Reg) ∧ (1 : Reg) ≠ (3 : Reg) ∧ (2 : Reg) ≠ (3 : Reg)) ∧
    ((wBlockMove_28.strand (0 : StrandId)).reg (3 : Reg) = (0 : W)) :=
  ⟨⟨dec, dec, rfl⟩, dec⟩

def wBlockMove_36 : State := (sBm 256)
def wBlockMove_37 : Body := (fetched (sBm 256) 3)
def wBlockMove_38 : Body := (bm 256 256).1
def wBlockMove_39 : Body := (bm 256 256).2.1
def wBlockMove_40 : Body := (bm 256 256).2.2.1
def wBlockMove_41 : Body := (bm 256 256).2.2.2.1
def wBlockMove_42 : List Piece := (bm 256 256).2.2.2.2.1
def wBlockMove_43 : List Seg := (bm 256 256).2.2.2.2.2.1
def wBlockMove_44 : List Byte := (bm 256 256).2.2.2.2.2.2
theorem witness_BlockMove_2 :
    (Runs wBlockMove_36 (0 : StrandId) (Instr.bmove (0 : StrandId) (1 : Reg) (2 : Reg) (3 : Reg)) wBlockMove_37) ∧
    (wBlockMove_37.translate (0 : StrandId) needLoad (wBlockMove_37.strand (0 : StrandId)).dataPrv (BitVec.toNat ((wBlockMove_37.strand (0 : StrandId)).reg (2 : Reg)))
    (min (BitVec.toNat ((wBlockMove_37.strand (0 : StrandId)).reg (3 : Reg))) 256) =
  TRes.ok wBlockMove_38 wBlockMove_42) ∧
    (wBlockMove_38.storeVa (0 : StrandId) needStore (wBlockMove_37.strand (0 : StrandId)).dataPrv (BitVec.toNat ((wBlockMove_37.strand (0 : StrandId)).reg (1 : Reg)))
    (min (BitVec.toNat ((wBlockMove_37.strand (0 : StrandId)).reg (3 : Reg))) 256) =
  LRes.ok wBlockMove_39 wBlockMove_43) ∧
    (wBlockMove_39.readSegs (0 : StrandId) (segsOf wBlockMove_42) = LRes.ok wBlockMove_40 wBlockMove_44) ∧
    (wBlockMove_40.bufferStore (0 : StrandId) wBlockMove_43 wBlockMove_44 = some wBlockMove_41) ∧
    ((1 : Reg) ≠ (0 : Reg) ∧ (2 : Reg) ≠ (0 : Reg) ∧ (3 : Reg) ≠ (0 : Reg) ∧ (1 : Reg) ≠ (2 : Reg) ∧ (1 : Reg) ≠ (3 : Reg) ∧ (2 : Reg) ≠ (3 : Reg)) ∧
    ((wBlockMove_37.strand (0 : StrandId)).reg (3 : Reg) ≠ (0 : W)) ∧
    (wBlockMove_38.readCheck (0 : StrandId) (segsOf wBlockMove_42) = none) ∧
    (((((wBlockMove_41.strand (0 : StrandId)).setReg (1 : Reg)
                ((wBlockMove_41.strand (0 : StrandId)).reg (1 : Reg) +
                  BitVec.ofNat 64 (min (BitVec.toNat ((wBlockMove_37.strand (0 : StrandId)).reg (3 : Reg))) 256))).setReg
            (2 : Reg)
            ((wBlockMove_41.strand (0 : StrandId)).reg (2 : Reg) +
              BitVec.ofNat 64 (min (BitVec.toNat ((wBlockMove_37.strand (0 : StrandId)).reg (3 : Reg))) 256))).setReg
        (3 : Reg)
        ((wBlockMove_41.strand (0 : StrandId)).reg (3 : Reg) -
          BitVec.ofNat 64 (min (BitVec.toNat ((wBlockMove_37.strand (0 : StrandId)).reg (3 : Reg))) 256))).reg
    (3 : Reg) =
  (0 : W)) :=
  ⟨⟨dec, dec, rfl⟩, rfl, rfl, rfl, rfl, dec⟩

def wBlockMove_45 : State := (sBm 257)
def wBlockMove_46 : Body := (fetched (sBm 257) 3)
def wBlockMove_47 : Body := (bm 257 256).1
def wBlockMove_48 : Body := (bm 257 256).2.1
def wBlockMove_49 : Body := (bm 257 256).2.2.1
def wBlockMove_50 : Body := (bm 257 256).2.2.2.1
def wBlockMove_51 : List Piece := (bm 257 256).2.2.2.2.1
def wBlockMove_52 : List Seg := (bm 257 256).2.2.2.2.2.1
def wBlockMove_53 : List Byte := (bm 257 256).2.2.2.2.2.2
theorem witness_BlockMove_3 :
    (Runs wBlockMove_45 (0 : StrandId) (Instr.bmove (0 : StrandId) (1 : Reg) (2 : Reg) (3 : Reg)) wBlockMove_46) ∧
    (wBlockMove_46.translate (0 : StrandId) needLoad (wBlockMove_46.strand (0 : StrandId)).dataPrv (BitVec.toNat ((wBlockMove_46.strand (0 : StrandId)).reg (2 : Reg)))
    (min (BitVec.toNat ((wBlockMove_46.strand (0 : StrandId)).reg (3 : Reg))) 256) =
  TRes.ok wBlockMove_47 wBlockMove_51) ∧
    (wBlockMove_47.storeVa (0 : StrandId) needStore (wBlockMove_46.strand (0 : StrandId)).dataPrv (BitVec.toNat ((wBlockMove_46.strand (0 : StrandId)).reg (1 : Reg)))
    (min (BitVec.toNat ((wBlockMove_46.strand (0 : StrandId)).reg (3 : Reg))) 256) =
  LRes.ok wBlockMove_48 wBlockMove_52) ∧
    (wBlockMove_48.readSegs (0 : StrandId) (segsOf wBlockMove_51) = LRes.ok wBlockMove_49 wBlockMove_53) ∧
    (wBlockMove_49.bufferStore (0 : StrandId) wBlockMove_52 wBlockMove_53 = some wBlockMove_50) ∧
    ((1 : Reg) ≠ (0 : Reg) ∧ (2 : Reg) ≠ (0 : Reg) ∧ (3 : Reg) ≠ (0 : Reg) ∧ (1 : Reg) ≠ (2 : Reg) ∧ (1 : Reg) ≠ (3 : Reg) ∧ (2 : Reg) ≠ (3 : Reg)) ∧
    ((wBlockMove_46.strand (0 : StrandId)).reg (3 : Reg) ≠ (0 : W)) ∧
    (wBlockMove_47.readCheck (0 : StrandId) (segsOf wBlockMove_51) = none) ∧
    (((((wBlockMove_50.strand (0 : StrandId)).setReg (1 : Reg)
                ((wBlockMove_50.strand (0 : StrandId)).reg (1 : Reg) +
                  BitVec.ofNat 64 (min (BitVec.toNat ((wBlockMove_46.strand (0 : StrandId)).reg (3 : Reg))) 256))).setReg
            (2 : Reg)
            ((wBlockMove_50.strand (0 : StrandId)).reg (2 : Reg) +
              BitVec.ofNat 64 (min (BitVec.toNat ((wBlockMove_46.strand (0 : StrandId)).reg (3 : Reg))) 256))).setReg
        (3 : Reg)
        ((wBlockMove_50.strand (0 : StrandId)).reg (3 : Reg) -
          BitVec.ofNat 64 (min (BitVec.toNat ((wBlockMove_46.strand (0 : StrandId)).reg (3 : Reg))) 256))).reg
    (3 : Reg) ≠
  (0 : W)) :=
  ⟨⟨dec, dec, rfl⟩, rfl, rfl, rfl, rfl, dec⟩

def wBlockMove_54 : State := (sBm 7)
def wBlockMove_55 : Body := (fetched (sBm 7) 3)
theorem witness_BlockMove_4 :
    (Runs wBlockMove_54 (0 : StrandId) (Instr.bmove (0 : StrandId) (1 : Reg) (1 : Reg) (3 : Reg)) wBlockMove_55) ∧
    (¬((1 : Reg) ≠ (0 : Reg) ∧ (1 : Reg) ≠ (0 : Reg) ∧ (3 : Reg) ≠ (0 : Reg) ∧ (1 : Reg) ≠ (1 : Reg) ∧ (1 : Reg) ≠ (3 : Reg) ∧ (1 : Reg) ≠ (3 : Reg))) ∧
    ((wBlockMove_55.strand (0 : StrandId)).pend = false) :=
  ⟨⟨dec, dec, rfl⟩, dec⟩

def wAtomics_63 : State := (sAt 0x300008 none)
def wAtomics_64 : Body := (fetched (sAt 0x300008 none) 3)
def wAtomics_65 : Body := (at2 needLdr 0x300008 none 8).1
def wAtomics_66 : Body := (at2 needLdr 0x300008 none 8).2.2.1
def wAtomics_67 : List Piece := (at2 needLdr 0x300008 none 8).2.1
def wAtomics_68 : Seg := (seg0 (segsOf (at2 needLdr 0x300008 none 8).2.1))
def wAtomics_69 : List Seg := (segsOf (at2 needLdr 0x300008 none 8).2.1).tail
def wAtomics_70 : List Byte := (at2 needLdr 0x300008 none 8).2.2.2
theorem witness_Atomics_1 :
    (Runs wAtomics_63 (0 : StrandId) (Instr.ldr (0 : StrandId) Width.d (1 : Reg) (2 : Reg)) wAtomics_64) ∧
    (wAtomics_64.translate (0 : StrandId) needLdr (wAtomics_64.strand (0 : StrandId)).dataPrv (BitVec.toNat ((wAtomics_64.strand (0 : StrandId)).reg (2 : Reg)))
    (match Width.d with
    | Width.d => 8
    | Width.w => 4) =
  TRes.ok wAtomics_65 wAtomics_67) ∧
    (wAtomics_65.readSegs (0 : StrandId) (segsOf wAtomics_67) = LRes.ok wAtomics_66 wAtomics_70) ∧
    (wAtomics_66.obtainGranule (0 : StrandId) (wAtomics_68.pa / 256) wAtomics_68.slot wAtomics_68.nol3 = none) ∧
    ((BitVec.toNat ((wAtomics_64.strand (0 : StrandId)).reg (2 : Reg)) %
    match Width.d with
    | Width.d => 8
    | Width.w => 4) =
  0) ∧
    (segsOf wAtomics_67 = wAtomics_68 :: wAtomics_69) ∧
    (wAtomics_68.cls ≠ PClass.scratchpad) ∧
    ((wAtomics_66.cluster (clusterOfStrand (0 : StrandId))).l2e = true) :=
  ⟨⟨dec, dec, rfl⟩, rfl, rfl, rfl, dec⟩

def wAtomics_71 : Body := (ats needStc 0x300008 none 8).1
def wAtomics_72 : Seg := (seg0 (ats needStc 0x300008 none 8).2)
def wAtomics_73 : List Seg := (ats needStc 0x300008 none 8).2.tail
theorem witness_Atomics_2 :
    (Runs wAtomics_63 (0 : StrandId) (Instr.stc (0 : StrandId) Width.d (1 : Reg) (2 : Reg) (3 : Reg)) wAtomics_64) ∧
    (wAtomics_64.storeVa (0 : StrandId) needStc (wAtomics_64.strand (0 : StrandId)).dataPrv (BitVec.toNat ((wAtomics_64.strand (0 : StrandId)).reg (2 : Reg)))
    (match Width.d with
    | Width.d => 8
    | Width.w => 4) =
  LRes.ok wAtomics_71 (wAtomics_72 :: wAtomics_73)) ∧
    ((BitVec.toNat ((wAtomics_64.strand (0 : StrandId)).reg (2 : Reg)) %
    match Width.d with
    | Width.d => 8
    | Width.w => 4) =
  0) ∧
    ((wAtomics_71.strand (0 : StrandId)).resv ≠ some (wAtomics_72.pa / 256)) :=
  ⟨⟨dec, dec, rfl⟩, rfl, dec⟩

def wAtomics_74 : State := (sAt 0x300008 (some 0x3000))
def wAtomics_75 : Body := (fetched (sAt 0x300008 (some 0x3000)) 3)
def wAtomics_76 : Body := (ats needStc 0x300008 (some 0x3000) 8).1
def wAtomics_77 : Body := (yes ((ats needStc 0x300008 (some 0x3000) 8).1.perform 0 (seg0 (ats needStc 0x300008 (some 0x3000) 8).2) (leBytes 8 9)))
def wAtomics_78 : Seg := (seg0 (ats needStc 0x300008 (some 0x3000) 8).2)
def wAtomics_79 : List Seg := (ats needStc 0x300008 (some 0x3000) 8).2.tail
theorem witness_Atomics_3 :
    (Runs wAtomics_74 (0 : StrandId) (Instr.stc (0 : StrandId) Width.d (1 : Reg) (2 : Reg) (3 : Reg)) wAtomics_75) ∧
    (wAtomics_75.storeVa (0 : StrandId) needStc (wAtomics_75.strand (0 : StrandId)).dataPrv (BitVec.toNat ((wAtomics_75.strand (0 : StrandId)).reg (2 : Reg)))
    (match Width.d with
    | Width.d => 8
    | Width.w => 4) =
  LRes.ok wAtomics_76 (wAtomics_78 :: wAtomics_79)) ∧
    (wAtomics_76.perform (0 : StrandId) wAtomics_78
    (leBytes
      (match Width.d with
      | Width.d => 8
      | Width.w => 4)
      (BitVec.toNat ((wAtomics_75.strand (0 : StrandId)).reg (3 : Reg)))) =
  Performed.yes wAtomics_77) ∧
    ((BitVec.toNat ((wAtomics_75.strand (0 : StrandId)).reg (2 : Reg)) %
    match Width.d with
    | Width.d => 8
    | Width.w => 4) =
  0) ∧
    ((wAtomics_76.strand (0 : StrandId)).resv = some (wAtomics_78.pa / 256)) ∧
    ((wAtomics_76.strand (0 : StrandId)).sb = []) ∧
    ((wAtomics_76.cluster (clusterOfStrand (0 : StrandId))).l2e = true) :=
  ⟨⟨dec, dec, rfl⟩, rfl, rfl, dec⟩

def wAtomics_80 : Body := (ats needCas 0x300008 none 8).1
def wAtomics_81 : Body := (exr 0x300008 8).1
def wAtomics_82 : Seg := (seg0 (ats needCas 0x300008 none 8).2)
def wAtomics_83 : List Seg := (ats needCas 0x300008 none 8).2.tail
def wAtomics_84 : List Byte := (exr 0x300008 8).2
theorem witness_Atomics_4 :
    (Runs wAtomics_63 (0 : StrandId) (Instr.cas (0 : StrandId) Width.d (1 : Reg) (2 : Reg) (3 : Reg)) wAtomics_64) ∧
    (wAtomics_64.storeVa (0 : StrandId) needCas (wAtomics_64.strand (0 : StrandId)).dataPrv (BitVec.toNat ((wAtomics_64.strand (0 : StrandId)).reg (2 : Reg)))
    (match Width.d with
    | Width.d => 8
    | Width.w => 4) =
  LRes.ok wAtomics_80 (wAtomics_82 :: wAtomics_83)) ∧
    (wAtomics_80.exclusiveRead (0 : StrandId) wAtomics_82 = LRes.ok wAtomics_81 wAtomics_84) ∧
    ((BitVec.toNat ((wAtomics_64.strand (0 : StrandId)).reg (2 : Reg)) %
    match Width.d with
    | Width.d => 8
    | Width.w => 4) =
  0) ∧
    ((wAtomics_80.strand (0 : StrandId)).sb = []) ∧
    (wAtomics_84 ≠
  leBytes
    (match Width.d with
    | Width.d => 8
    | Width.w => 4)
    (BitVec.toNat ((wAtomics_64.strand (0 : StrandId)).reg (1 : Reg)))) :=
  ⟨⟨dec, dec, rfl⟩, rfl, rfl, dec⟩

def wAtomics_85 : State := (sAt 0x300020 none)
def wAtomics_86 : Body := (fetched (sAt 0x300020 none) 3)
def wAtomics_87 : Body := (ats needCas 0x300020 none 8).1
def wAtomics_88 : Body := (exr 0x300020 8).1
def wAtomics_89 : Body := (yes ((exr 0x300020 8).1.perform 0 (seg0 (ats needCas 0x300020 none 8).2) (leBytes 8 9)))
def wAtomics_90 : Seg := (seg0 (ats needCas 0x300020 none 8).2)
def wAtomics_91 : List Seg := (ats needCas 0x300020 none 8).2.tail
def wAtomics_92 : List Byte := (exr 0x300020 8).2
theorem witness_Atomics_5 :
    (Runs wAtomics_85 (0 : StrandId) (Instr.cas (0 : StrandId) Width.d (0 : Reg) (2 : Reg) (3 : Reg)) wAtomics_86) ∧
    (wAtomics_86.storeVa (0 : StrandId) needCas (wAtomics_86.strand (0 : StrandId)).dataPrv (BitVec.toNat ((wAtomics_86.strand (0 : StrandId)).reg (2 : Reg)))
    (match Width.d with
    | Width.d => 8
    | Width.w => 4) =
  LRes.ok wAtomics_87 (wAtomics_90 :: wAtomics_91)) ∧
    (wAtomics_87.exclusiveRead (0 : StrandId) wAtomics_90 = LRes.ok wAtomics_88 wAtomics_92) ∧
    (wAtomics_88.perform (0 : StrandId) wAtomics_90
    (leBytes
      (match Width.d with
      | Width.d => 8
      | Width.w => 4)
      (BitVec.toNat ((wAtomics_86.strand (0 : StrandId)).reg (3 : Reg)))) =
  Performed.yes wAtomics_89) ∧
    ((BitVec.toNat ((wAtomics_86.strand (0 : StrandId)).reg (2 : Reg)) %
    match Width.d with
    | Width.d => 8
    | Width.w => 4) =
  0) ∧
    ((wAtomics_87.strand (0 : StrandId)).sb = []) ∧
    (wAtomics_92 =
  leBytes
    (match Width.d with
    | Width.d => 8
    | Width.w => 4)
    (BitVec.toNat ((wAtomics_86.strand (0 : StrandId)).reg (0 : Reg)))) :=
  ⟨⟨dec, dec, rfl⟩, rfl, rfl, rfl, dec⟩

def wAtomics_93 : State := (sAt 0x300002 none)
def wAtomics_94 : Body := (fetched (sAt 0x300002 none) 3)
def wAtomics_96 : Instr := (.stc 0 .d 1 2 3)
theorem witness_Atomics_6 :
    (Runs wAtomics_93 (0 : StrandId) wAtomics_96 wAtomics_94) ∧
    (wAtomics_96 ∈
  [Instr.ldr (0 : StrandId) Width.d (1 : Reg) (2 : Reg), Instr.stc (0 : StrandId) Width.d (1 : Reg) (2 : Reg) (3 : Reg),
    Instr.cas (0 : StrandId) Width.d (1 : Reg) (2 : Reg) (3 : Reg)]) ∧
    ((BitVec.toNat ((wAtomics_94.strand (0 : StrandId)).reg (2 : Reg)) %
    match Width.d with
    | Width.d => 8
    | Width.w => 4) ≠
  0) ∧
    ((wAtomics_94.strand (0 : StrandId)).pend = false) :=
  ⟨⟨dec, dec, rfl⟩, dec⟩
end G3

namespace G4
def dat : LineData := 0xFFEEDDCCBBAA99887766554433221100F0E0D0C0B0A09080
def tl (gl : Bool) (a : Option (BitVec 16)) (vpn : Nat) : TlbEntry := { tag := { part := 0, sup := false, ispace := false, asid := if gl then none else a, level := 0, vpn := vpn }, ppn := 5, rd := true, wr := true, us := true, skey := false, nol3 := false, d1 := true, d2 := true }
def sTl (p : Nat) (v : W) : State :=
  let s := running ((({ status := BitVec.ofNat 64 (p * 4), asid := 7 } : Strand).setReg 2 0x5000).setReg 3 v)
  { s with body := s.body.modCore 0 fun k => { k with dtlb := [tl false (some 7) 5, tl true none 5, tl false (some 8) 5, tl false (some 7) 6] } }
def op1 (wci : Bool) : InvalOp := { src := 0, wci := wci, part := some 0, sup := some false, ispace := some false, asid := some 7, globals := true, va := some 0x5000, stage2 := false }
def sAck (wci : Bool) : State := { sTl 1 7 with body := ((sTl 1 7).body.modCore 0 fun k => { k with inval := [op1 wci] }).modIo fun i => { i with einval := #v[[op1 wci], []] } }
def sTs (a : Activity) (inv : List InvalOp) : State := { running { atK with act := a } with body := (running { atK with act := a }).body.modCore 9 fun k => { k with inval := inv } }

def prs (s : State) (b : Body) (scope : Reg) : List (Instr × InvalOp) :=
      let t : StrandId := 0
      let ra : Reg := 2
      let rb : Reg := 3
      let x := false
      let u := b.strand t
      let sup := u.prv = 2
      let v := u.reg rb
      let part : Byte := if sup then v.extractLsb' 16 8 else u.part
      let all := sup ∧ v.getLsbD 31 = true
      let regime := decide sup && v.getLsbD 30
      let asid : Option (BitVec 16) := if all then none else some (v.extractLsb' 0 16)
      let page (wci : Bool) : InvalOp :=
        { src := t, wci := wci, part := some part, sup := some regime, ispace := some x, asid := asid, globals := true, va := some (u.reg ra), stage2 := false }
      let tag (wci : Bool) : InvalOp :=
        { src := t, wci := wci, part := some part, sup := if wci = true ∧ all then none else some regime, ispace := none, asid := asid,
          globals := decide all, va := none, stage2 := wci && decide all }
      let every (wci : Bool) : InvalOp :=
        { src := t, wci := wci, part := if scope = 2 then none else some u.part, sup := none, ispace := none, asid := none, globals := true, va := none,
          stage2 := wci && decide sup }
      [(.tlbiVa t scope ra rb x, page false), (.tlbiTag t scope rb, tag false), (.tlbiAll t scope, every false),
         (.wciVa t scope ra rb x, page true), (.wciTag t scope rb, tag true), (.wciAll t scope, every true)]
def prn (p : Nat) (v : W) (sc : Reg) (k : Nat) : Instr × InvalOp := (prs (sTl p v) (fetched (sTl p v) 3) sc).getD k (.nop 0, op1 false)
def lk (lo : Bool) (st : L2State) (wc : Activity) : State :=
  let s := holding (running { (atS.setReg 2 0x300010).setReg 3 0x70 with act := wc }) [0x300000] dat
  { s with body := s.body.modCluster 0 fun c => { c with l2 := c.l2.map fun e => (e.1, { e.2 with locked := lo, st := st }) } }
def lkx (need : Need) (lo : Bool) (st : L2State) (n : Nat) : Body × List Piece := TRes.get ((fetched (lk lo st .ready) n).translate 0 need 2 0x300010 1) {} []
def pc0 (l : List Piece) : Piece := l.headD { va := 0, pa := 0, len := 0, slot := 0, nol3 := false, cls := .memory, via := none }
def l2e (lo : Bool) (st : L2State) : L2Line := { line := lineNo 0x300000, st := st, locked := lo, slot := 0, nol3 := false, data := dat }
def sSpd : State := { running (atS.setReg 2 (BitVec.ofNat 64 (spadBase + 16))) with body := (running (atS.setReg 2 (BitVec.ofNat 64 (spadBase + 16)))).body.modCluster 0 fun c => { c with ways := 4 } }
def spx : Body × List Piece := TRes.get ((fetched sSpd 3).translate 0 needLoad 2 (spadBase + 16) 1) {} []

def wTranslationInvalidation_0 : State := (sTl 1 7)
def wTranslationInvalidation_1 : Body := (fetched (sTl 1 7) 3)
def wTranslationInvalidation_2 : Instr × InvalOp := (prn 1 7 2 0)
theorem witness_TranslationInvalidation_1 (h : Obligations.TranslationInvalidation) : ∃ t, exec (wTranslationInvalidation_2.1) (wTranslationInvalidation_0) = .next t := by
  have p := (((((((((((((((h.1 wTranslationInvalidation_0) (0)) wTranslationInvalidation_1) (2)) (2)) (3)) Bool.false) (0)) (1)) wTranslationInvalidation_2) (dec)) (⟨dec, dec, rfl⟩)).2.2.2 (dec)) (dec)) (dec))
  exact next_of p

def wTranslationInvalidation_3 : State := (sTl 2 7)
def wTranslationInvalidation_4 : Body := (fetched (sTl 2 7) 3)
def wTranslationInvalidation_5 : Instr × InvalOp := (prn 2 7 0 0)
theorem witness_TranslationInvalidation_2 (h : Obligations.TranslationInvalidation) : ∃ t, exec (wTranslationInvalidation_5.1) (wTranslationInvalidation_3) = .next t := by
  have p := ((((((((((((((h.1 wTranslationInvalidation_3) (0)) wTranslationInvalidation_4) (0)) (2)) (3)) Bool.false) (0)) (1)) wTranslationInvalidation_5) (dec)) (⟨dec, dec, rfl⟩)).1 (dec)) (dec))
  exact next_of p

def wTranslationInvalidation_6 : Instr × InvalOp := (prn 2 7 1 0)
theorem witness_TranslationInvalidation_3 (h : Obligations.TranslationInvalidation) : ∃ t, exec (wTranslationInvalidation_6.1) (wTranslationInvalidation_3) = .next t := by
  have p := (((((((((((((((h.1 wTranslationInvalidation_3) (0)) wTranslationInvalidation_4) (1)) (2)) (3)) Bool.false) (0)) (1)) wTranslationInvalidation_6) (dec)) (⟨dec, dec, rfl⟩)).2.1 (dec)) (dec)) (dec))
  exact (let ⟨_, q⟩ := p; next_of q.1)

def wTranslationInvalidation_7 : Instr × InvalOp := (prn 2 7 2 0)
theorem witness_TranslationInvalidation_4 (h : Obligations.TranslationInvalidation) : ∃ t, exec (wTranslationInvalidation_7.1) (wTranslationInvalidation_3) = .next t := by
  have p := (((((((((((((((h.1 wTranslationInvalidation_3) (0)) wTranslationInvalidation_4) (2)) (2)) (3)) Bool.false) (0)) (1)) wTranslationInvalidation_7) (dec)) (⟨dec, dec, rfl⟩)).2.1 (dec)) (dec)) (dec))
  exact (let ⟨_, q⟩ := p; next_of q.1)

def wTranslationInvalidation_8 : Instr × InvalOp := (prn 2 7 3 0)
theorem witness_TranslationInvalidation_5 (h : Obligations.TranslationInvalidation) : ∃ t, exec (wTranslationInvalidation_8.1) (wTranslationInvalidation_3) = .next t := by
  have p := ((((((((((((((h.1 wTranslationInvalidation_3) (0)) wTranslationInvalidation_4) (3)) (2)) (3)) Bool.false) (0)) (1)) wTranslationInvalidation_8) (dec)) (⟨dec, dec, rfl⟩)).2.2.1 (dec)) (dec))
  exact next_of p

def wTranslationInvalidation_9 : Instr × InvalOp := (prn 2 7 0 4)
theorem witness_TranslationInvalidation_6 (h : Obligations.TranslationInvalidation) : ∃ t, exec (wTranslationInvalidation_9.1) (wTranslationInvalidation_3) = .next t := by
  have p := ((((((((((((((h.1 wTranslationInvalidation_3) (0)) wTranslationInvalidation_4) (0)) (2)) (3)) Bool.false) (0)) (1)) wTranslationInvalidation_9) (dec)) (⟨dec, dec, rfl⟩)).1 (dec)) (dec))
  exact next_of p

def wTranslationInvalidation_10 : Instr × InvalOp := (prn 2 7 1 4)
theorem witness_TranslationInvalidation_7 (h : Obligations.TranslationInvalidation) : ∃ t, exec (wTranslationInvalidation_10.1) (wTranslationInvalidation_3) = .next t := by
  have p := (((((((((((((((h.1 wTranslationInvalidation_3) (0)) wTranslationInvalidation_4) (1)) (2)) (3)) Bool.false) (0)) (1)) wTranslationInvalidation_10) (dec)) (⟨dec, dec, rfl⟩)).2.1 (dec)) (dec)) (dec))
  exact (let ⟨_, q⟩ := p; next_of q.1)

def wTranslationInvalidation_11 : Instr × InvalOp := (prn 2 7 2 4)
theorem witness_TranslationInvalidation_8 (h : Obligations.TranslationInvalidation) : ∃ t, exec (wTranslationInvalidation_11.1) (wTranslationInvalidation_3) = .next t := by
  have p := (((((((((((((((h.1 wTranslationInvalidation_3) (0)) wTranslationInvalidation_4) (2)) (2)) (3)) Bool.false) (0)) (1)) wTranslationInvalidation_11) (dec)) (⟨dec, dec, rfl⟩)).2.1 (dec)) (dec)) (dec))
  exact (let ⟨_, q⟩ := p; next_of q.1)

def wTranslationInvalidation_12 : Instr × InvalOp := (prn 2 7 3 4)
theorem witness_TranslationInvalidation_9 (h : Obligations.TranslationInvalidation) : ∃ t, exec (wTranslationInvalidation_12.1) (wTranslationInvalidation_3) = .next t := by
  have p := ((((((((((((((h.1 wTranslationInvalidation_3) (0)) wTranslationInvalidation_4) (3)) (2)) (3)) Bool.false) (0)) (1)) wTranslationInvalidation_12) (dec)) (⟨dec, dec, rfl⟩)).2.2.1 (dec)) (dec))
  exact next_of p

theorem witness_TranslationInvalidation_10 :
    (((sAck false).body.core (0 : CoreId)).inval = [op1 false]) ∧
    ((sAck false).body.owesStores (0 : CoreId) (op1 false) = false) ∧
    (∀ (v : StrandId), coreOf v = (0 : CoreId) → ((sAck false).body.strand v).inSpan = false) :=
  dec

theorem witness_TranslationInvalidation_11 :
    ((sAck true).body.io.einval[(0 : HubId)] = [op1 true]) ∧
    ((sAck true).body.io.writes = []) :=
  dec

def wTranslationInvalidation_14 : State := (sTs .ready [])
def wTranslationInvalidation_15 : Body := (fetched (sTs .ready []) 3)
theorem witness_TranslationInvalidation_12 :
    (Runs wTranslationInvalidation_14 (0 : StrandId) (Instr.tsync (0 : StrandId)) wTranslationInvalidation_15) ∧
    (1 ≤ (wTranslationInvalidation_15.strand (0 : StrandId)).prv.toNat) ∧
    (wTranslationInvalidation_15.owesAck (0 : StrandId) = false) :=
  ⟨⟨dec, dec, rfl⟩, dec⟩

def wTranslationInvalidation_16 : State := (sTs .ready [op1 true])
def wTranslationInvalidation_17 : Body := (fetched (sTs .ready [op1 true]) 3)
theorem witness_TranslationInvalidation_13 :
    (Runs wTranslationInvalidation_16 (0 : StrandId) (Instr.tsync (0 : StrandId)) wTranslationInvalidation_17) ∧
    (1 ≤ (wTranslationInvalidation_17.strand (0 : StrandId)).prv.toNat) ∧
    (wTranslationInvalidation_17.owesAck (0 : StrandId) = true) :=
  ⟨⟨dec, dec, rfl⟩, dec⟩

def wTranslationInvalidation_18 : State := (sTs .tsync [])
theorem witness_TranslationInvalidation_14 :
    ((wTranslationInvalidation_18.body.strand (0 : StrandId)).run = RunState.running) ∧
    ((wTranslationInvalidation_18.body.strand (0 : StrandId)).act = Activity.tsync) ∧
    (wTranslationInvalidation_18.body.owesAck (0 : StrandId) = false) :=
  dec

def wLineLocksAndMaintenance_19 : Body := (fetched (lk false .m .ready) 3)
def wLineLocksAndMaintenance_20 : Body := (lkx needLoad false .m 3).1
def wLineLocksAndMaintenance_21 : Piece := (pc0 (lkx needLoad false .m 3).2)
def wLineLocksAndMaintenance_22 : List Piece := (lkx needLoad false .m 3).2.tail
def wLineLocksAndMaintenance_23 : ℕ := (l2Slot (lineNo 0x300000) 0)
theorem witness_LineLocksAndMaintenance_1 :
    (wLineLocksAndMaintenance_19.translate (0 : StrandId) needLoad (wLineLocksAndMaintenance_19.strand (0 : StrandId)).prv
    (BitVec.toNat ((wLineLocksAndMaintenance_19.strand (0 : StrandId)).reg (2 : Reg))) 1 =
  TRes.ok wLineLocksAndMaintenance_20 (wLineLocksAndMaintenance_21 :: wLineLocksAndMaintenance_22)) ∧
    (Runs (lk false L2State.m Activity.ready) (0 : StrandId) (Instr.clock (0 : StrandId) (2 : Reg)) wLineLocksAndMaintenance_19) ∧
    (1 ≤ (wLineLocksAndMaintenance_19.strand (0 : StrandId)).prv.toNat) ∧
    (wLineLocksAndMaintenance_21.cls ≠ PClass.scratchpad) ∧
    ((wLineLocksAndMaintenance_20.cluster (clusterOfStrand (0 : StrandId))).l2e = true) ∧
    (wLineLocksAndMaintenance_20.lineCheck (0 : StrandId) wLineLocksAndMaintenance_21.pa false = none) ∧
    ((wLineLocksAndMaintenance_20.cluster (clusterOfStrand (0 : StrandId))).find (lineNo wLineLocksAndMaintenance_21.pa) =
  some (wLineLocksAndMaintenance_23, l2e false L2State.m)) ∧
    ((l2e false L2State.m).locked = false) ∧
    (wLineLocksAndMaintenance_23 % 16 < 4) ∧
    ((wLineLocksAndMaintenance_20.strand (0 : StrandId)).waymaskL2.getLsbD (wLineLocksAndMaintenance_23 % 16) = true) :=
  ⟨rfl, ⟨dec, dec, rfl⟩, dec⟩

def wLineLocksAndMaintenance_24 : Body := (fetched (lk true .m .ready) 3)
def wLineLocksAndMaintenance_25 : Body := (lkx needLoad true .m 3).1
def wLineLocksAndMaintenance_26 : Piece := (pc0 (lkx needLoad true .m 3).2)
def wLineLocksAndMaintenance_27 : List Piece := (lkx needLoad true .m 3).2.tail
theorem witness_LineLocksAndMaintenance_2 :
    (wLineLocksAndMaintenance_24.translate (0 : StrandId) needLoad (wLineLocksAndMaintenance_24.strand (0 : StrandId)).prv
    (BitVec.toNat ((wLineLocksAndMaintenance_24.strand (0 : StrandId)).reg (2 : Reg))) 1 =
  TRes.ok wLineLocksAndMaintenance_25 (wLineLocksAndMaintenance_26 :: wLineLocksAndMaintenance_27)) ∧
    (Runs (lk true L2State.m Activity.ready) (0 : StrandId) (Instr.clock (0 : StrandId) (2 : Reg)) wLineLocksAndMaintenance_24) ∧
    (1 ≤ (wLineLocksAndMaintenance_24.strand (0 : StrandId)).prv.toNat) ∧
    (wLineLocksAndMaintenance_26.cls ≠ PClass.scratchpad) ∧
    ((wLineLocksAndMaintenance_25.cluster (clusterOfStrand (0 : StrandId))).l2e = true) ∧
    (wLineLocksAndMaintenance_25.lineCheck (0 : StrandId) wLineLocksAndMaintenance_26.pa false = none) ∧
    ((wLineLocksAndMaintenance_25.cluster (clusterOfStrand (0 : StrandId))).find (lineNo wLineLocksAndMaintenance_26.pa) =
  some (wLineLocksAndMaintenance_23, l2e true L2State.m)) ∧
    ((l2e true L2State.m).locked = true) :=
  ⟨rfl, ⟨dec, dec, rfl⟩, dec⟩

theorem witness_LineLocksAndMaintenance_3 :
    (wLineLocksAndMaintenance_24.translate (0 : StrandId) needLoad (wLineLocksAndMaintenance_24.strand (0 : StrandId)).prv
    (BitVec.toNat ((wLineLocksAndMaintenance_24.strand (0 : StrandId)).reg (2 : Reg))) 1 =
  TRes.ok wLineLocksAndMaintenance_25 (wLineLocksAndMaintenance_26 :: wLineLocksAndMaintenance_27)) ∧
    (Runs (lk true L2State.m Activity.ready) (0 : StrandId) (Instr.cunlock (0 : StrandId) (2 : Reg)) wLineLocksAndMaintenance_24) ∧
    (1 ≤ (wLineLocksAndMaintenance_24.strand (0 : StrandId)).prv.toNat) ∧
    (wLineLocksAndMaintenance_26.cls ≠ PClass.scratchpad) ∧
    ((wLineLocksAndMaintenance_25.cluster (clusterOfStrand (0 : StrandId))).l2e = true) ∧
    ((wLineLocksAndMaintenance_25.cluster (clusterOfStrand (0 : StrandId))).find (lineNo wLineLocksAndMaintenance_26.pa) =
  some (wLineLocksAndMaintenance_23, l2e true L2State.m)) ∧
    ((l2e true L2State.m).locked = true) :=
  ⟨rfl, ⟨dec, dec, rfl⟩, dec⟩

def wLineLocksAndMaintenance_28 : Body := (fetched (lk true .le .ready) 3)
def wLineLocksAndMaintenance_29 : Body := (lkx needLoad true .le 3).1
def wLineLocksAndMaintenance_30 : Piece := (pc0 (lkx needLoad true .le 3).2)
def wLineLocksAndMaintenance_31 : List Piece := (lkx needLoad true .le 3).2.tail
theorem witness_LineLocksAndMaintenance_4 :
    (wLineLocksAndMaintenance_28.translate (0 : StrandId) needLoad (wLineLocksAndMaintenance_28.strand (0 : StrandId)).prv
    (BitVec.toNat ((wLineLocksAndMaintenance_28.strand (0 : StrandId)).reg (2 : Reg))) 1 =
  TRes.ok wLineLocksAndMaintenance_29 (wLineLocksAndMaintenance_30 :: wLineLocksAndMaintenance_31)) ∧
    (Runs (lk true L2State.le Activity.ready) (0 : StrandId) (Instr.clock (0 : StrandId) (2 : Reg)) wLineLocksAndMaintenance_28) ∧
    (1 ≤ (wLineLocksAndMaintenance_28.strand (0 : StrandId)).prv.toNat) ∧
    (wLineLocksAndMaintenance_30.cls ≠ PClass.scratchpad) ∧
    ((wLineLocksAndMaintenance_29.cluster (clusterOfStrand (0 : StrandId))).l2e = true) ∧
    (wLineLocksAndMaintenance_29.lineCheck (0 : StrandId) wLineLocksAndMaintenance_30.pa false = none) ∧
    ((wLineLocksAndMaintenance_29.cluster (clusterOfStrand (0 : StrandId))).find (lineNo wLineLocksAndMaintenance_30.pa) =
  some (wLineLocksAndMaintenance_23, l2e true L2State.le)) ∧
    ((l2e true L2State.le).locked = true) :=
  ⟨rfl, ⟨dec, dec, rfl⟩, dec⟩

def wLineLocksAndMaintenance_32 : Body := (fetched sSpd 3)
def wLineLocksAndMaintenance_33 : Body := spx.1
def wLineLocksAndMaintenance_34 : Piece := (pc0 spx.2)
def wLineLocksAndMaintenance_35 : List Piece := spx.2.tail
theorem witness_LineLocksAndMaintenance_5 :
    (wLineLocksAndMaintenance_32.translate (0 : StrandId) needLoad (wLineLocksAndMaintenance_32.strand (0 : StrandId)).prv
    (BitVec.toNat ((wLineLocksAndMaintenance_32.strand (0 : StrandId)).reg (2 : Reg))) 1 =
  TRes.ok wLineLocksAndMaintenance_33 (wLineLocksAndMaintenance_34 :: wLineLocksAndMaintenance_35)) ∧
    (Runs sSpd (0 : StrandId) (Instr.clock (0 : StrandId) (2 : Reg)) wLineLocksAndMaintenance_32) ∧
    (1 ≤ (wLineLocksAndMaintenance_32.strand (0 : StrandId)).prv.toNat) ∧
    (wLineLocksAndMaintenance_34.cls = PClass.scratchpad) :=
  ⟨rfl, ⟨dec, dec, rfl⟩, dec⟩

theorem witness_LineLocksAndMaintenance_6 :
    (Runs (lk true L2State.m Activity.ready) (0 : StrandId) (Instr.cinvRange (0 : StrandId) (0 : Reg) (2 : Reg) (3 : Reg)) wLineLocksAndMaintenance_24) ∧
    (wLineLocksAndMaintenance_24.translate (0 : StrandId) needLoad (wLineLocksAndMaintenance_24.strand (0 : StrandId)).prv
    (BitVec.toNat ((wLineLocksAndMaintenance_24.strand (0 : StrandId)).reg (2 : Reg))) 1 =
  TRes.ok wLineLocksAndMaintenance_25 (wLineLocksAndMaintenance_26 :: wLineLocksAndMaintenance_27)) ∧
    (1 ≤ (wLineLocksAndMaintenance_24.strand (0 : StrandId)).prv.toNat) ∧
    ((2 : Reg) ≠ (3 : Reg)) ∧
    ((2 : Reg) ≠ (0 : Reg)) ∧
    ((3 : Reg) ≠ (0 : Reg)) ∧
    ((wLineLocksAndMaintenance_24.strand (0 : StrandId)).reg (3 : Reg) ≠ (0 : W)) ∧
    (BitVec.toNat ((wLineLocksAndMaintenance_24.strand (0 : StrandId)).reg (3 : Reg)) ≤
  128 - BitVec.toNat ((wLineLocksAndMaintenance_24.strand (0 : StrandId)).reg (2 : Reg)) % 128) ∧
    (wLineLocksAndMaintenance_26.cls ≠ PClass.scratchpad) :=
  ⟨⟨dec, dec, rfl⟩, rfl, dec⟩

theorem witness_LineLocksAndMaintenance_7 :
    (Runs (lk true L2State.m Activity.ready) (0 : StrandId) (Instr.cinvAll (0 : StrandId) (0 : Reg)) wLineLocksAndMaintenance_24) ∧
    (2 ≤ (wLineLocksAndMaintenance_24.strand (0 : StrandId)).prv.toNat) :=
  ⟨⟨dec, dec, rfl⟩, dec⟩

def wLineLocksAndMaintenance_36 : Body := (lkx needIrd true .m 3).1
def wLineLocksAndMaintenance_37 : Piece := (pc0 (lkx needIrd true .m 3).2)
def wLineLocksAndMaintenance_38 : List Piece := (lkx needIrd true .m 3).2.tail
theorem witness_LineLocksAndMaintenance_8 :
    (Runs (lk true L2State.m Activity.ready) (0 : StrandId) (Instr.iflushRange (0 : StrandId) (0 : Reg) (2 : Reg) (3 : Reg)) wLineLocksAndMaintenance_24) ∧
    (wLineLocksAndMaintenance_24.translate (0 : StrandId) needIrd (wLineLocksAndMaintenance_24.strand (0 : StrandId)).prv
    (BitVec.toNat ((wLineLocksAndMaintenance_24.strand (0 : StrandId)).reg (2 : Reg)) % 2 ^ 48) 1 =
  TRes.ok wLineLocksAndMaintenance_36 (wLineLocksAndMaintenance_37 :: wLineLocksAndMaintenance_38)) ∧
    ((wLineLocksAndMaintenance_24.strand (0 : StrandId)).sb = []) ∧
    ((2 : Reg) ≠ (3 : Reg)) ∧
    ((2 : Reg) ≠ (0 : Reg)) ∧
    ((3 : Reg) ≠ (0 : Reg)) ∧
    ((wLineLocksAndMaintenance_24.strand (0 : StrandId)).reg (3 : Reg) ≠ (0 : W)) ∧
    (BitVec.toNat ((wLineLocksAndMaintenance_24.strand (0 : StrandId)).reg (3 : Reg)) ≤
  128 - BitVec.toNat ((wLineLocksAndMaintenance_24.strand (0 : StrandId)).reg (2 : Reg)) % 128) :=
  ⟨⟨dec, dec, rfl⟩, rfl, dec⟩

def wLineLocksAndMaintenance_39 : State := (lk true .m (.maint .range [1, 2] (some (lineNo 0x300000)) 2 3 0x70))
def wLineLocksAndMaintenance_41 : List ClusterId := [1, 2]
def wLineLocksAndMaintenance_42 : Option Line := (some (lineNo 0x300000))
theorem witness_LineLocksAndMaintenance_9 :
    (∃ d ∈ wLineLocksAndMaintenance_41, d ≠ (1 : ClusterId)) ∧
    ((wLineLocksAndMaintenance_39.body.strand (0 : StrandId)).run = RunState.running) ∧
    ((wLineLocksAndMaintenance_39.body.strand (0 : StrandId)).act =
  Activity.maint MaintKind.range wLineLocksAndMaintenance_41 wLineLocksAndMaintenance_42 (2 : Reg) (3 : Reg) 112) ∧
    ((1 : ClusterId) ∈ wLineLocksAndMaintenance_41) :=
  ⟨dec, dec⟩
end G4

namespace G5
def dat : LineData := 0xFFEEDDCCBBAA99887766554433221100F0E0D0C0B0A09080
def L0 : Line := lineNo 0x300000
def rq (c : ClusterId) (wr : Bool) : Req := { cluster := c, line := L0, write := wr, l2mask := 0xFFFF, l3mask := 0xFFFF, slot := 0, nol3 := true, lock := false, part := 0 }
def dir1 (hold : Bool) (c : ClusterId) (wr : Bool) : State :=
  let s := if hold then holding (running atK) [0x300000] dat else running atK
  { s with body := s.body.modMem fun m => { m with reqs := [rq c wr] } }
def l2d (st : L2State) : L2Line := { line := L0, st := st, locked := false, slot := 0, nol3 := false, data := dat }
def kOf (s : State) (r : Req) : Nat := ((s.body.l2Room r).1).getD 0
def dep : Departing := { holder := 0, line := L0, data := dat, slot := 0, nol3 := false, l3mask := 0xFFFF, fromL2 := none, fromL3 := some (0, 0), fill := L0, resent := 0 }
def dep2 : Departing := { dep with fromL2 := some (0, 5), fromL3 := none }
def x3 : L3Line := { line := L0, dirty := false, slot := 0, data := 0 }
def h3 : CDieId := homeDie 0x300000
def sDep3 : State := { running atK with body := ((running atK).body.modMem fun m => { m with departing := [dep2] }).modDie h3 fun y => { y with l3e := true, l3 := [(l3Slot L0 2, x3)] } }
def sDep : State := { running atK with body := (running atK).body.modMem fun m => { m with departing := [dep] } }
def sPark : State := let s := holding (running { atK with act := .parked L0 false 0 false }) [0x300000] dat
  { s with body := s.body.modCore 0 fun k => { k with l1de := true } }
def sWr : State := { holding (running atK) [0x300000] dat with body := (holding (running atK) [0x300000] dat).body.modIo fun i => { i with writes := [{ slice := 5, gen := 1, pa := 0x300004, bytes := [1], slot := 0, issued := 0, done := none }] } }
def sH := holding (running atK) [0x300000] dat
def sDec (d : LineData) (st : W) : State := holding (running { (atK.setReg 1 0x300000).setReg 2 0x300010 with status := st }) [0x300000] d
def dm (a b : List Byte) : LineData := lineSet (lineSet 0 0 a) 16 b
structure DecW where
  b1 : Body
  b2 : Body
  b3 : Body
  b4 : Body
  b5 : Body
  p1 : List Piece
  p2 : List Piece
  o1 : List Byte
  o2 : List Byte
def dw (s : State) (n1 n2 : Nat) (kind : Nat) : DecW :=
  let b := fetched s 6
  let (b1, ps2) := TRes.get (b.translate 0 needLoad 1 0x300010 n2) {} []
  let (b2, ps1) := TRes.get (b1.translate 0 (if kind = 2 then needLoad else needStore) 1 0x300000 n1) {} []
  let (b3, o1) := LRes.get (b2.readSegs 0 (segsOf ps1)) {} []
  let (b4, o2) := LRes.get ((if kind = 1 then b2 else b3).readSegs 0 (segsOf ps2)) {} []
  let v := if kind = 1 then decValue o2 else if kind = 3 then decValue o1 - decValue o2 else decValue o1 + decValue o2
  let b5 := (b4.bufferStore 0 (segsOf ps1) (decStore n1 v).1).getD {}
  ⟨b1, b2, b3, b4, b5, ps1, ps2, o1, o2⟩

def wDirectoryAccess_0 : State := (dir1 false 0 false)
def wDirectoryAccess_1 : Req := (rq 0 false)
def wDirectoryAccess_2 : ℕ := (kOf (dir1 false 0 false) (rq 0 false))
theorem witness_DirectoryAccess_1 :
    (List.find? (fun x => decide (x.cluster = wDirectoryAccess_1.cluster) && decide (x.line = wDirectoryAccess_1.line) && !x.write) wDirectoryAccess_0.body.mem.reqs =
  some wDirectoryAccess_1) ∧
    (wDirectoryAccess_0.body.isDeparting wDirectoryAccess_1.line = false ∧
  wDirectoryAccess_0.body.poisoned wDirectoryAccess_1.line = false ∧
    wDirectoryAccess_0.body.cutOff (halfOfCluster wDirectoryAccess_1.cluster) (lineAddr wDirectoryAccess_1.line) = false ∧
      (wDirectoryAccess_0.body.cluster wDirectoryAccess_1.cluster).l2e = true ∧
        wDirectoryAccess_0.body.readable wDirectoryAccess_1.line = true ∧
          wDirectoryAccess_0.body.l2Has wDirectoryAccess_1.cluster wDirectoryAccess_1.line = none ∧
            (wDirectoryAccess_0.body.l2Room wDirectoryAccess_1).1 = some wDirectoryAccess_2) ∧
    (wDirectoryAccess_0.body.dirAt wDirectoryAccess_1.line = none) ∧
    (wDirectoryAccess_0.body.l3Home wDirectoryAccess_1.line = none ∨ wDirectoryAccess_1.nol3 = true) ∧
    (wDirectoryAccess_0.body.l3Has wDirectoryAccess_1.line = none) :=
  dec

def wDirectoryAccess_3 : State := (dir1 true 1 false)
def wDirectoryAccess_4 : Req := (rq 1 false)
def wDirectoryAccess_5 : ℕ := (kOf (dir1 true 1 false) (rq 1 false))
theorem witness_DirectoryAccess_2 :
    (List.find? (fun x => decide (x.cluster = wDirectoryAccess_4.cluster) && decide (x.line = wDirectoryAccess_4.line) && !x.write) wDirectoryAccess_3.body.mem.reqs =
  some wDirectoryAccess_4) ∧
    (wDirectoryAccess_3.body.isDeparting wDirectoryAccess_4.line = false ∧
  wDirectoryAccess_3.body.poisoned wDirectoryAccess_4.line = false ∧
    wDirectoryAccess_3.body.cutOff (halfOfCluster wDirectoryAccess_4.cluster) (lineAddr wDirectoryAccess_4.line) = false ∧
      (wDirectoryAccess_3.body.cluster wDirectoryAccess_4.cluster).l2e = true ∧
        wDirectoryAccess_3.body.readable wDirectoryAccess_4.line = true ∧
          wDirectoryAccess_3.body.l2Has wDirectoryAccess_4.cluster wDirectoryAccess_4.line = none ∧
            (wDirectoryAccess_3.body.l2Room wDirectoryAccess_4).1 = some wDirectoryAccess_5) ∧
    ((0 : ClusterId) ≠ wDirectoryAccess_4.cluster) ∧
    (wDirectoryAccess_3.body.dirAt wDirectoryAccess_4.line = some (DirEntry.exclusive (0 : ClusterId))) :=
  dec

def wDirectoryAccess_6 : State := (dir1 true 0 true)
def wDirectoryAccess_7 : Req := (rq 0 true)
def wDirectoryAccess_8 : ℕ := (l2Slot L0 0)
theorem witness_DirectoryAccess_3 :
    (List.find? (fun x => decide (x.cluster = wDirectoryAccess_7.cluster) && decide (x.line = wDirectoryAccess_7.line) && x.write) wDirectoryAccess_6.body.mem.reqs =
  some wDirectoryAccess_7) ∧
    (wDirectoryAccess_6.body.isDeparting wDirectoryAccess_7.line = false) ∧
    (wDirectoryAccess_6.body.poisoned wDirectoryAccess_7.line = false) ∧
    (wDirectoryAccess_6.body.deferred wDirectoryAccess_7 = false) ∧
    (wDirectoryAccess_6.body.cutOff (halfOfCluster wDirectoryAccess_7.cluster) (lineAddr wDirectoryAccess_7.line) = false) ∧
    ((wDirectoryAccess_6.body.cluster wDirectoryAccess_7.cluster).l2e = true) ∧
    (wDirectoryAccess_6.body.readable wDirectoryAccess_7.line = true) ∧
    (wDirectoryAccess_6.body.l2Has wDirectoryAccess_7.cluster wDirectoryAccess_7.line = some (wDirectoryAccess_8, l2d L2State.m)) :=
  dec

def wDirectoryAccess_9 : State := (dir1 true 1 true)
def wDirectoryAccess_10 : Req := (rq 1 true)
def wDirectoryAccess_11 : ℕ := (kOf (dir1 true 1 true) (rq 1 true))
theorem witness_DirectoryAccess_4 :
    (List.find? (fun x => decide (x.cluster = wDirectoryAccess_10.cluster) && decide (x.line = wDirectoryAccess_10.line) && x.write) wDirectoryAccess_9.body.mem.reqs =
  some wDirectoryAccess_10) ∧
    (wDirectoryAccess_9.body.isDeparting wDirectoryAccess_10.line = false) ∧
    (wDirectoryAccess_9.body.poisoned wDirectoryAccess_10.line = false) ∧
    (wDirectoryAccess_9.body.deferred wDirectoryAccess_10 = false) ∧
    (wDirectoryAccess_9.body.cutOff (halfOfCluster wDirectoryAccess_10.cluster) (lineAddr wDirectoryAccess_10.line) = false) ∧
    ((wDirectoryAccess_9.body.cluster wDirectoryAccess_10.cluster).l2e = true) ∧
    (wDirectoryAccess_9.body.readable wDirectoryAccess_10.line = true) ∧
    (wDirectoryAccess_9.body.l2Has wDirectoryAccess_10.cluster wDirectoryAccess_10.line = none) ∧
    ((wDirectoryAccess_9.body.l2Room wDirectoryAccess_10).1 = some wDirectoryAccess_11) ∧
    ((wDirectoryAccess_9.body.l2Room wDirectoryAccess_10).2.l3Home wDirectoryAccess_10.line = none ∨ wDirectoryAccess_10.nol3 = true) :=
  dec

theorem witness_CacheEvents_1 :
    ((sPark.body.strand (0 : StrandId)).run = RunState.running) ∧
    ((sPark.body.strand (0 : StrandId)).act = Activity.parked L0 false (0 : Byte) false) ∧
    (sPark.body.lineCheck (0 : StrandId) (lineAddr L0) false = none) ∧
    (sPark.body.l2Has (clusterOfStrand (0 : StrandId)) L0 = some (wDirectoryAccess_8, l2d L2State.m)) ∧
    (sPark.body.l1On (0 : StrandId) false = true) :=
  dec

theorem witness_CacheEvents_2 :
    (List.find? (fun x => decide (x.line = L0)) sDep.body.mem.departing = some dep) ∧
    (dep.fromL3.isSome = true ∨ sDep.body.l3Has L0 = none ∧ (sDep.body.l3Home L0 = none ∨ dep.nol3 = true)) ∧
    (sDep.body.mirrored (lineAddr L0) = none) :=
  dec

def wCacheEvents_12 : ℕ := (l3Slot L0 2)
theorem witness_CacheEvents_3 :
    (List.find? (fun x => decide (x.line = L0)) sDep3.body.mem.departing = some dep2) ∧
    (dep2.fromL3 = none) ∧
    (sDep3.body.mirrored (lineAddr L0) = none) ∧
    (sDep3.body.l3Has L0 = some (h3, wCacheEvents_12, x3)) :=
  dec

theorem witness_CacheEvents_4 :
    (List.find? (fun x => decide (x.line = L0)) sDep.body.mem.departing = some dep) :=
  dec

theorem witness_CacheEvents_5 :
    (sH.body.isDeparting L0 = false) ∧
    (sH.body.dirAt L0 = some (DirEntry.exclusive (0 : ClusterId))) ∧
    (sH.body.l2Has (0 : ClusterId) L0 = some (wDirectoryAccess_8, l2d L2State.m)) :=
  dec

theorem witness_CacheEvents_6 :
    (∃ w ∈ sWr.body.io.writes, lineNo w.pa = L0) ∧
    (sWr.body.heldBy (0 : ClusterId) L0 = false) ∧
    (sWr.body.l2Has (0 : ClusterId) L0 = some (wDirectoryAccess_8, l2d L2State.m)) ∧
    ((l2d L2State.m).st = L2State.m) ∧
    ((l2d L2State.m).locked = false) :=
  ⟨dec, dec⟩

def wPackedDecimal_13 : State := (sDec (dm [0x12, 0x3C] [0x99, 0x9C]) 0x4)
def wPackedDecimal_14 : Body := (fetched (sDec (dm [0x12, 0x3C] [0x99, 0x9C]) 0x4) 6)
def wPackedDecimal_15 : Body := (dw (sDec (dm [0x12, 0x3C] [0x99, 0x9C]) 0x4) 2 2 0).b1
def wPackedDecimal_16 : Body := (dw (sDec (dm [0x12, 0x3C] [0x99, 0x9C]) 0x4) 2 2 0).b2
def wPackedDecimal_17 : Body := (dw (sDec (dm [0x12, 0x3C] [0x99, 0x9C]) 0x4) 2 2 0).b3
def wPackedDecimal_18 : Body := (dw (sDec (dm [0x12, 0x3C] [0x99, 0x9C]) 0x4) 2 2 0).b4
def wPackedDecimal_19 : Body := (dw (sDec (dm [0x12, 0x3C] [0x99, 0x9C]) 0x4) 2 2 0).b5
def wPackedDecimal_20 : List Piece := (dw (sDec (dm [0x12, 0x3C] [0x99, 0x9C]) 0x4) 2 2 0).p1
def wPackedDecimal_21 : List Piece := (dw (sDec (dm [0x12, 0x3C] [0x99, 0x9C]) 0x4) 2 2 0).p2
def wPackedDecimal_22 : List Byte := (dw (sDec (dm [0x12, 0x3C] [0x99, 0x9C]) 0x4) 2 2 0).o1
def wPackedDecimal_23 : List Byte := (dw (sDec (dm [0x12, 0x3C] [0x99, 0x9C]) 0x4) 2 2 0).o2
theorem witness_PackedDecimal_1 :
    (wPackedDecimal_14.translate (0 : StrandId) needLoad (wPackedDecimal_14.strand (0 : StrandId)).dataPrv
    (BitVec.toNat ((wPackedDecimal_14.strand (0 : StrandId)).reg (2 : Reg))) (BitVec.toNat (1 : BitVec 4) + 1) =
  TRes.ok wPackedDecimal_15 wPackedDecimal_21) ∧
    (wPackedDecimal_15.translate (0 : StrandId) needStore (wPackedDecimal_14.strand (0 : StrandId)).dataPrv
    (BitVec.toNat ((wPackedDecimal_14.strand (0 : StrandId)).reg (1 : Reg))) (BitVec.toNat (1 : BitVec 4) + 1) =
  TRes.ok wPackedDecimal_16 wPackedDecimal_20) ∧
    (wPackedDecimal_16.readSegs (0 : StrandId) (segsOf wPackedDecimal_20) = LRes.ok wPackedDecimal_17 wPackedDecimal_22) ∧
    (wPackedDecimal_17.readSegs (0 : StrandId) (segsOf wPackedDecimal_21) = LRes.ok wPackedDecimal_18 wPackedDecimal_23) ∧
    (Runs wPackedDecimal_13 (0 : StrandId) (Instr.dadd (0 : StrandId) (1 : Reg) (2 : Reg) (1 : BitVec 4) (1 : BitVec 4)) wPackedDecimal_14) ∧
    (wPackedDecimal_18.bufferStore (0 : StrandId) (segsOf wPackedDecimal_20)
    (decStore (BitVec.toNat (1 : BitVec 4) + 1) (decValue wPackedDecimal_22 + decValue wPackedDecimal_23)).1 =
  some wPackedDecimal_19) ∧
    (wPackedDecimal_16.storeCheck (0 : StrandId) (segsOf wPackedDecimal_20) = none) ∧
    (decCheck ((wPackedDecimal_14.strand (0 : StrandId)).reg (1 : Reg)) wPackedDecimal_22 1 = none) ∧
    (decCheck ((wPackedDecimal_14.strand (0 : StrandId)).reg (2 : Reg)) wPackedDecimal_23 2 = none) ∧
    (¬((decStore (BitVec.toNat (1 : BitVec 4) + 1) (decValue wPackedDecimal_22 + decValue wPackedDecimal_23)).2 = true ∧
    (wPackedDecimal_14.strand (0 : StrandId)).doe = true)) :=
  ⟨rfl, rfl, rfl, rfl, ⟨dec, dec, rfl⟩, rfl, dec⟩

def wPackedDecimal_24 : State := (sDec (dm [0x99, 0x9C] [0x00, 0x1C]) 0x4)
def wPackedDecimal_25 : Body := (fetched (sDec (dm [0x99, 0x9C] [0x00, 0x1C]) 0x4) 6)
def wPackedDecimal_26 : Body := (dw (sDec (dm [0x99, 0x9C] [0x00, 0x1C]) 0x4) 2 2 1).b1
def wPackedDecimal_27 : Body := (dw (sDec (dm [0x99, 0x9C] [0x00, 0x1C]) 0x4) 2 2 1).b2
def wPackedDecimal_29 : Body := (dw (sDec (dm [0x99, 0x9C] [0x00, 0x1C]) 0x4) 2 2 1).b4
def wPackedDecimal_30 : Body := (dw (sDec (dm [0x99, 0x9C] [0x00, 0x1C]) 0x4) 2 2 1).b5
def wPackedDecimal_31 : List Piece := (dw (sDec (dm [0x99, 0x9C] [0x00, 0x1C]) 0x4) 2 2 1).p1
def wPackedDecimal_32 : List Piece := (dw (sDec (dm [0x99, 0x9C] [0x00, 0x1C]) 0x4) 2 2 1).p2
def wPackedDecimal_34 : List Byte := (dw (sDec (dm [0x99, 0x9C] [0x00, 0x1C]) 0x4) 2 2 1).o2
theorem witness_PackedDecimal_2 :
    (wPackedDecimal_25.translate (0 : StrandId) needLoad (wPackedDecimal_25.strand (0 : StrandId)).dataPrv
    (BitVec.toNat ((wPackedDecimal_25.strand (0 : StrandId)).reg (2 : Reg))) (BitVec.toNat (1 : BitVec 4) + 1) =
  TRes.ok wPackedDecimal_26 wPackedDecimal_32) ∧
    (wPackedDecimal_26.translate (0 : StrandId) needStore (wPackedDecimal_25.strand (0 : StrandId)).dataPrv
    (BitVec.toNat ((wPackedDecimal_25.strand (0 : StrandId)).reg (1 : Reg))) (BitVec.toNat (1 : BitVec 4) + 1) =
  TRes.ok wPackedDecimal_27 wPackedDecimal_31) ∧
    (wPackedDecimal_27.readSegs (0 : StrandId) (segsOf wPackedDecimal_32) = LRes.ok wPackedDecimal_29 wPackedDecimal_34) ∧
    (Runs wPackedDecimal_24 (0 : StrandId) (Instr.dmove (0 : StrandId) (1 : Reg) (2 : Reg) (1 : BitVec 4) (1 : BitVec 4)) wPackedDecimal_25) ∧
    (wPackedDecimal_29.bufferStore (0 : StrandId) (segsOf wPackedDecimal_31) (decStore (BitVec.toNat (1 : BitVec 4) + 1) (decValue wPackedDecimal_34)).1 =
  some wPackedDecimal_30) ∧
    (wPackedDecimal_27.storeCheck (0 : StrandId) (segsOf wPackedDecimal_31) = none) ∧
    (decCheck ((wPackedDecimal_25.strand (0 : StrandId)).reg (2 : Reg)) wPackedDecimal_34 2 = none) ∧
    (¬((decStore (BitVec.toNat (1 : BitVec 4) + 1) (decValue wPackedDecimal_34)).2 = true ∧ (wPackedDecimal_25.strand (0 : StrandId)).doe = true)) :=
  ⟨rfl, rfl, rfl, ⟨dec, dec, rfl⟩, rfl, dec⟩

def wPackedDecimal_35 : State := (sDec (dm [0x00, 0x1D] [0x00, 0x1C]) 0x4)
def wPackedDecimal_36 : Body := (fetched (sDec (dm [0x00, 0x1D] [0x00, 0x1C]) 0x4) 6)
def wPackedDecimal_37 : Body := (dw (sDec (dm [0x00, 0x1D] [0x00, 0x1C]) 0x4) 2 2 2).b1
def wPackedDecimal_38 : Body := (dw (sDec (dm [0x00, 0x1D] [0x00, 0x1C]) 0x4) 2 2 2).b2
def wPackedDecimal_39 : Body := (dw (sDec (dm [0x00, 0x1D] [0x00, 0x1C]) 0x4) 2 2 2).b3
def wPackedDecimal_40 : Body := (dw (sDec (dm [0x00, 0x1D] [0x00, 0x1C]) 0x4) 2 2 2).b4
def wPackedDecimal_42 : List Piece := (dw (sDec (dm [0x00, 0x1D] [0x00, 0x1C]) 0x4) 2 2 2).p1
def wPackedDecimal_43 : List Piece := (dw (sDec (dm [0x00, 0x1D] [0x00, 0x1C]) 0x4) 2 2 2).p2
def wPackedDecimal_44 : List Byte := (dw (sDec (dm [0x00, 0x1D] [0x00, 0x1C]) 0x4) 2 2 2).o1
def wPackedDecimal_45 : List Byte := (dw (sDec (dm [0x00, 0x1D] [0x00, 0x1C]) 0x4) 2 2 2).o2
theorem witness_PackedDecimal_3 :
    (wPackedDecimal_36.translate (0 : StrandId) needLoad (wPackedDecimal_36.strand (0 : StrandId)).dataPrv
    (BitVec.toNat ((wPackedDecimal_36.strand (0 : StrandId)).reg (2 : Reg))) (BitVec.toNat (1 : BitVec 4) + 1) =
  TRes.ok wPackedDecimal_37 wPackedDecimal_43) ∧
    (wPackedDecimal_37.translate (0 : StrandId) needLoad (wPackedDecimal_36.strand (0 : StrandId)).dataPrv
    (BitVec.toNat ((wPackedDecimal_36.strand (0 : StrandId)).reg (1 : Reg))) (BitVec.toNat (1 : BitVec 4) + 1) =
  TRes.ok wPackedDecimal_38 wPackedDecimal_42) ∧
    (wPackedDecimal_38.readSegs (0 : StrandId) (segsOf wPackedDecimal_42) = LRes.ok wPackedDecimal_39 wPackedDecimal_44) ∧
    (wPackedDecimal_39.readSegs (0 : StrandId) (segsOf wPackedDecimal_43) = LRes.ok wPackedDecimal_40 wPackedDecimal_45) ∧
    (Runs wPackedDecimal_35 (0 : StrandId) (Instr.dcmp (0 : StrandId) (1 : Reg) (2 : Reg) (1 : BitVec 4) (1 : BitVec 4)) wPackedDecimal_36) ∧
    (decCheck ((wPackedDecimal_36.strand (0 : StrandId)).reg (1 : Reg)) wPackedDecimal_44 1 = none) ∧
    (decCheck ((wPackedDecimal_36.strand (0 : StrandId)).reg (2 : Reg)) wPackedDecimal_45 2 = none) :=
  ⟨rfl, rfl, rfl, rfl, ⟨dec, dec, rfl⟩, dec⟩

def wPackedDecimal_46 : State := (sDec (dm [0x99, 0x9C] [0x00, 0x1C]) 0x204)
def wPackedDecimal_47 : Body := (fetched (sDec (dm [0x99, 0x9C] [0x00, 0x1C]) 0x204) 6)
def wPackedDecimal_48 : Body := (dw (sDec (dm [0x99, 0x9C] [0x00, 0x1C]) 0x204) 2 2 0).b1
def wPackedDecimal_49 : Body := (dw (sDec (dm [0x99, 0x9C] [0x00, 0x1C]) 0x204) 2 2 0).b2
def wPackedDecimal_50 : Body := (dw (sDec (dm [0x99, 0x9C] [0x00, 0x1C]) 0x204) 2 2 0).b3
def wPackedDecimal_51 : Body := (dw (sDec (dm [0x99, 0x9C] [0x00, 0x1C]) 0x204) 2 2 0).b4
def wPackedDecimal_52 : Body := (dw (sDec (dm [0x99, 0x9C] [0x00, 0x1C]) 0x204) 2 2 0).b5
def wPackedDecimal_53 : List Piece := (dw (sDec (dm [0x99, 0x9C] [0x00, 0x1C]) 0x204) 2 2 0).p1
def wPackedDecimal_54 : List Piece := (dw (sDec (dm [0x99, 0x9C] [0x00, 0x1C]) 0x204) 2 2 0).p2
def wPackedDecimal_55 : List Byte := (dw (sDec (dm [0x99, 0x9C] [0x00, 0x1C]) 0x204) 2 2 0).o1
def wPackedDecimal_56 : List Byte := (dw (sDec (dm [0x99, 0x9C] [0x00, 0x1C]) 0x204) 2 2 0).o2
theorem witness_PackedDecimal_4 :
    (wPackedDecimal_47.translate (0 : StrandId) needLoad (wPackedDecimal_47.strand (0 : StrandId)).dataPrv
    (BitVec.toNat ((wPackedDecimal_47.strand (0 : StrandId)).reg (2 : Reg))) (BitVec.toNat (1 : BitVec 4) + 1) =
  TRes.ok wPackedDecimal_48 wPackedDecimal_54) ∧
    (wPackedDecimal_48.translate (0 : StrandId) needStore (wPackedDecimal_47.strand (0 : StrandId)).dataPrv
    (BitVec.toNat ((wPackedDecimal_47.strand (0 : StrandId)).reg (1 : Reg))) (BitVec.toNat (1 : BitVec 4) + 1) =
  TRes.ok wPackedDecimal_49 wPackedDecimal_53) ∧
    (wPackedDecimal_49.readSegs (0 : StrandId) (segsOf wPackedDecimal_53) = LRes.ok wPackedDecimal_50 wPackedDecimal_55) ∧
    (wPackedDecimal_50.readSegs (0 : StrandId) (segsOf wPackedDecimal_54) = LRes.ok wPackedDecimal_51 wPackedDecimal_56) ∧
    (Runs wPackedDecimal_46 (0 : StrandId) (Instr.dadd (0 : StrandId) (1 : Reg) (2 : Reg) (1 : BitVec 4) (1 : BitVec 4)) wPackedDecimal_47) ∧
    (wPackedDecimal_51.bufferStore (0 : StrandId) (segsOf wPackedDecimal_53)
    (decStore (BitVec.toNat (1 : BitVec 4) + 1) (decValue wPackedDecimal_55 + decValue wPackedDecimal_56)).1 =
  some wPackedDecimal_52) ∧
    (wPackedDecimal_49.storeCheck (0 : StrandId) (segsOf wPackedDecimal_53) = none) ∧
    (decCheck ((wPackedDecimal_47.strand (0 : StrandId)).reg (1 : Reg)) wPackedDecimal_55 1 = none) ∧
    (decCheck ((wPackedDecimal_47.strand (0 : StrandId)).reg (2 : Reg)) wPackedDecimal_56 2 = none) ∧
    ((decStore (BitVec.toNat (1 : BitVec 4) + 1) (decValue wPackedDecimal_55 + decValue wPackedDecimal_56)).2 = true) ∧
    ((wPackedDecimal_47.strand (0 : StrandId)).doe = true) ∧
    ((wPackedDecimal_47.strand (0 : StrandId)).pend = false) :=
  ⟨rfl, rfl, rfl, rfl, ⟨dec, dec, rfl⟩, rfl, dec⟩

def wPackedDecimal_57 : State := (sDec (dm [0xA9, 0x9C] [0x00, 0x1C]) 0x4)
def wPackedDecimal_58 : Body := (fetched (sDec (dm [0xA9, 0x9C] [0x00, 0x1C]) 0x4) 6)
def wPackedDecimal_59 : Body := (dw (sDec (dm [0xA9, 0x9C] [0x00, 0x1C]) 0x4) 2 2 0).b1
def wPackedDecimal_60 : Body := (dw (sDec (dm [0xA9, 0x9C] [0x00, 0x1C]) 0x4) 2 2 0).b2
def wPackedDecimal_61 : Body := (dw (sDec (dm [0xA9, 0x9C] [0x00, 0x1C]) 0x4) 2 2 0).b3
def wPackedDecimal_62 : Body := (dw (sDec (dm [0xA9, 0x9C] [0x00, 0x1C]) 0x4) 2 2 0).b4
def wPackedDecimal_64 : List Piece := (dw (sDec (dm [0xA9, 0x9C] [0x00, 0x1C]) 0x4) 2 2 0).p1
def wPackedDecimal_65 : List Piece := (dw (sDec (dm [0xA9, 0x9C] [0x00, 0x1C]) 0x4) 2 2 0).p2
def wPackedDecimal_66 : List Byte := (dw (sDec (dm [0xA9, 0x9C] [0x00, 0x1C]) 0x4) 2 2 0).o1
def wPackedDecimal_67 : List Byte := (dw (sDec (dm [0xA9, 0x9C] [0x00, 0x1C]) 0x4) 2 2 0).o2
def wPackedDecimal_68 : TrapReq := (decCheck 0x300000 (dw (sDec (dm [0xA9, 0x9C] [0x00, 0x1C]) 0x4) 2 2 0).o1 1).getD { cause := 0, rule := .upK }
def wPackedDecimal_69 : Instr := (.dadd 0 1 2 1 1)
theorem witness_PackedDecimal_5 :
    (wPackedDecimal_58.translate (0 : StrandId) needLoad (wPackedDecimal_58.strand (0 : StrandId)).dataPrv
    (BitVec.toNat ((wPackedDecimal_58.strand (0 : StrandId)).reg (2 : Reg))) (BitVec.toNat (1 : BitVec 4) + 1) =
  TRes.ok wPackedDecimal_59 wPackedDecimal_65) ∧
    (wPackedDecimal_59.translate (0 : StrandId) needStore (wPackedDecimal_58.strand (0 : StrandId)).dataPrv
    (BitVec.toNat ((wPackedDecimal_58.strand (0 : StrandId)).reg (1 : Reg))) (BitVec.toNat (1 : BitVec 4) + 1) =
  TRes.ok wPackedDecimal_60 wPackedDecimal_64) ∧
    (wPackedDecimal_60.readSegs (0 : StrandId) (segsOf wPackedDecimal_64) = LRes.ok wPackedDecimal_61 wPackedDecimal_66) ∧
    (wPackedDecimal_61.readSegs (0 : StrandId) (segsOf wPackedDecimal_65) = LRes.ok wPackedDecimal_62 wPackedDecimal_67) ∧
    (Runs wPackedDecimal_57 (0 : StrandId) wPackedDecimal_69 wPackedDecimal_58) ∧
    (wPackedDecimal_60.storeCheck (0 : StrandId) (segsOf wPackedDecimal_64) = none) ∧
    (decCheck ((wPackedDecimal_58.strand (0 : StrandId)).reg (1 : Reg)) wPackedDecimal_66 1 = some wPackedDecimal_68) ∧
    ((wPackedDecimal_58.strand (0 : StrandId)).pend = false) ∧
    (wPackedDecimal_69 ∈
  [Instr.dadd (0 : StrandId) (1 : Reg) (2 : Reg) (1 : BitVec 4) (1 : BitVec 4),
    Instr.dsub (0 : StrandId) (1 : Reg) (2 : Reg) (1 : BitVec 4) (1 : BitVec 4)]) :=
  ⟨rfl, rfl, rfl, rfl, ⟨dec, dec, rfl⟩, dec⟩

theorem witness_PackedDecimal_6 :
    (1 ≤ 16) ∧
    (16 ≤ 16) :=
  dec
end G5

namespace G6
def fset (u : Strand) (l : List (Nat × BitVec 128)) : Strand := l.foldl (fun u e => u.setFreg (BitVec.ofNat 5 e.1) e.2) u
def sF (p l : Nat) (fs : W) (a b c : BitVec 128) : State := running { fset (((atLevel p l).setReg 2 0xFFFFFFFFFFFFFFFE).setReg 5 0x300010) [(2, a), (3, b), (4, c)] with fpstat := fs }

def lfc : Nat := lenOf (.fcmp 0 .d true 2 3)
def sFm : State := holding (sF 1 0 0 0x3FF8000000000000 0xAABBCCDDEEFF00112233445566778899 7) [0x300000] 0x1122334455667788AABBCCDDEEFF001122445566778811223344556677
def fl (n : Nat) : Body × List Byte := LRes.get ((fetched sFm 6).loadVa 0 needLoad 1 0x300010 n) {} []
def fs' (n : Nat) : Body × List Seg := LRes.get ((fetched sFm 6).storeVa 0 needStore 1 0x300010 n) {} []
def wFloatingResults_0 : State := (sF 1 0 0 0x3FF8000000000000 0xC002000000000000 0x4008000000000000)
def wFloatingResults_1 : Body := (fetched (sF 1 0 0 0x3FF8000000000000 0xC002000000000000 0x4008000000000000) 3)
theorem witness_FloatingResults_1 :
    (Runs wFloatingResults_0 (0 : StrandId) (Instr.fadd (0 : StrandId) FFmt.d FForm.short (1 : Reg) (2 : Reg) (3 : Reg)) wFloatingResults_1) ∧
    ((wFloatingResults_1.strand (0 : StrandId)).tl = 0) ∧
    (match FForm.short with
| FForm.short => True
| FForm.long r => (fun r => r.toNat ≤ 4 ∨ r = (7 : BitVec 3)) r) :=
  ⟨⟨dec, dec, rfl⟩, dec⟩

def wFloatingResults_2 : Body := (fetched (sF 1 0 0 0x3FF8000000000000 0xC002000000000000 0x4008000000000000) 6)
theorem witness_FloatingResults_2 :
    (Runs wFloatingResults_0 (0 : StrandId) (Instr.fmadd (0 : StrandId) FFmt.d (7 : BitVec 3) (1 : Reg) (2 : Reg) (3 : Reg) (4 : Reg)) wFloatingResults_2) ∧
    ((wFloatingResults_2.strand (0 : StrandId)).tl = 0) ∧
    (BitVec.toNat (7 : BitVec 3) ≤ 4 ∨ (7 : BitVec 3) = (7 : BitVec 3)) :=
  ⟨⟨dec, dec, rfl⟩, dec⟩

theorem witness_FloatingResults_3 :
    (Runs wFloatingResults_0 (0 : StrandId) (Instr.fmin (0 : StrandId) FFmt.d (1 : Reg) (2 : Reg) (3 : Reg)) wFloatingResults_2) ∧
    ((wFloatingResults_2.strand (0 : StrandId)).tl = 0) ∧
    (True) :=
  ⟨⟨dec, dec, rfl⟩, dec⟩

theorem witness_FloatingResults_4 :
    (Runs wFloatingResults_0 (0 : StrandId) (Instr.fcvt (0 : StrandId) FConv.ds (7 : BitVec 3) (1 : Reg) (2 : Reg)) wFloatingResults_2) ∧
    ((wFloatingResults_2.strand (0 : StrandId)).tl = 0) ∧
    (BitVec.toNat (7 : BitVec 3) ≤ 4 ∨ (7 : BitVec 3) = (7 : BitVec 3)) :=
  ⟨⟨dec, dec, rfl⟩, dec⟩

theorem witness_FloatingResults_5 :
    (Runs wFloatingResults_0 (0 : StrandId) (Instr.fcvtfi (0 : StrandId) FFmt.d true (7 : BitVec 3) (1 : Reg) (2 : Reg)) wFloatingResults_2) ∧
    ((wFloatingResults_2.strand (0 : StrandId)).tl = 0) ∧
    (BitVec.toNat (7 : BitVec 3) ≤ 4 ∨ (7 : BitVec 3) = (7 : BitVec 3)) :=
  ⟨⟨dec, dec, rfl⟩, dec⟩

def wFloatingResults_4 : Instr := (.fcvt 0 .sd 5 1 2)
theorem witness_FloatingResults_6 :
    (Runs wFloatingResults_0 (0 : StrandId) wFloatingResults_4 wFloatingResults_2) ∧
    (wFloatingResults_4 ∈
  [Instr.fadd (0 : StrandId) FFmt.d (FForm.long (5 : BitVec 3)) (1 : Reg) (2 : Reg) (3 : Reg),
    Instr.fmadd (0 : StrandId) FFmt.d (5 : BitVec 3) (1 : Reg) (2 : Reg) (3 : Reg) (4 : Reg),
    Instr.fcvt (0 : StrandId) FConv.sd (5 : BitVec 3) (1 : Reg) (2 : Reg), Instr.fcvtif (0 : StrandId) FFmt.d true (5 : BitVec 3) (1 : Reg) (2 : Reg),
    Instr.frint (0 : StrandId) FFmt.d (5 : BitVec 3) true (1 : Reg) (2 : Reg)]) ∧
    (¬(fun r => r.toNat ≤ 4 ∨ r = (7 : BitVec 3)) (5 : BitVec 3)) ∧
    ((wFloatingResults_2.strand (0 : StrandId)).pend = false) :=
  ⟨⟨dec, dec, rfl⟩, dec⟩

def wFloatingResults_5 : State := (sF 1 1 0 0x3FF8000000000000 0xC002000000000000 0x4008000000000000)
def wFloatingResults_6 : Body := (fetched (sF 1 1 0 0x3FF8000000000000 0xC002000000000000 0x4008000000000000) 3)
def wFloatingResults_7 : Instr := (.fmov 0 1 2)
theorem witness_FloatingResults_7 :
    (Runs wFloatingResults_5 (0 : StrandId) wFloatingResults_7 wFloatingResults_6) ∧
    (wFloatingResults_7 ∈
  [Instr.fadd (0 : StrandId) FFmt.d FForm.short (1 : Reg) (2 : Reg) (3 : Reg), Instr.fneg (0 : StrandId) FFmt.d (1 : Reg) (2 : Reg),
    Instr.fmov (0 : StrandId) (1 : Reg) (2 : Reg), Instr.fcmp (0 : StrandId) FFmt.d true (2 : Reg) (3 : Reg)]) ∧
    ((wFloatingResults_6.strand (0 : StrandId)).tl ≠ 0) ∧
    ((wFloatingResults_6.strand (0 : StrandId)).pend = false) :=
  ⟨⟨dec, dec, rfl⟩, dec⟩

theorem witness_FloatingMovesAndCompares_1 :
    (Runs wFloatingResults_0 (0 : StrandId) (Instr.fcvtif (0 : StrandId) FFmt.d true (7 : BitVec 3) (1 : Reg) (2 : Reg)) wFloatingResults_2) ∧
    ((wFloatingResults_2.strand (0 : StrandId)).tl = 0) ∧
    (BitVec.toNat (7 : BitVec 3) ≤ 4 ∨ (7 : BitVec 3) = (7 : BitVec 3)) :=
  ⟨⟨dec, dec, rfl⟩, dec⟩

def wFloatingMovesAndCompares_9 : Body := (fetched (sF 1 0 0 0x3FF8000000000000 0xC002000000000000 0x4008000000000000) lfc)
theorem witness_FloatingMovesAndCompares_2 :
    (Runs wFloatingResults_0 (0 : StrandId) (Instr.fcmp (0 : StrandId) FFmt.d true (2 : Reg) (3 : Reg)) wFloatingMovesAndCompares_9) ∧
    ((wFloatingMovesAndCompares_9.strand (0 : StrandId)).tl = 0) :=
  ⟨⟨dec, dec, rfl⟩, dec⟩

theorem witness_FloatingMovesAndCompares_3 :
    (Runs wFloatingResults_0 (0 : StrandId) (Instr.fmov (0 : StrandId) (1 : Reg) (2 : Reg)) wFloatingResults_1) ∧
    ((wFloatingResults_1.strand (0 : StrandId)).tl = 0) :=
  ⟨⟨dec, dec, rfl⟩, dec⟩

theorem witness_FloatingMovesAndCompares_4 :
    (Runs wFloatingResults_0 (0 : StrandId) (Instr.fmvg (0 : StrandId) true (1 : Reg) (2 : Reg) (1 : Reg)) wFloatingResults_1) ∧
    ((wFloatingResults_1.strand (0 : StrandId)).tl = 0) :=
  ⟨⟨dec, dec, rfl⟩, dec⟩

def wFloatingMovesAndCompares_10 : Body := (fetched (sFm) 6)
def wFloatingMovesAndCompares_11 : Body := (fl 16).1
def wFloatingMovesAndCompares_12 : List Byte := (fl 16).2
theorem witness_FloatingMovesAndCompares_5 :
    (Runs sFm (0 : StrandId) (Instr.fld (0 : StrandId) FFmt.q (1 : Reg) (5 : Reg) (0 : BitVec 24)) wFloatingMovesAndCompares_10) ∧
    (wFloatingMovesAndCompares_10.loadVa (0 : StrandId) needLoad (wFloatingMovesAndCompares_10.strand (0 : StrandId)).dataPrv
    (BitVec.toNat ((wFloatingMovesAndCompares_10.strand (0 : StrandId)).reg (5 : Reg) + BitVec.signExtend 64 (0 : BitVec 24))) (fpWidth FFmt.q / 8) =
  LRes.ok wFloatingMovesAndCompares_11 wFloatingMovesAndCompares_12) ∧
    ((wFloatingMovesAndCompares_10.strand (0 : StrandId)).tl = 0) :=
  ⟨⟨dec, dec, rfl⟩, rfl, dec⟩

def wFloatingMovesAndCompares_13 : Body := (((fs' 16).1.bufferStore 0 (splitSegs 8 (fs' 16).2) (leBytes 16 (((fetched sFm 6).strand 0).freg 1).toNat)).getD {})
def wFloatingMovesAndCompares_14 : List Seg := (fs' 16).2
def wFloatingMovesAndCompares_15 : Body := (fs' 16).1
theorem witness_FloatingMovesAndCompares_6 :
    (Runs sFm (0 : StrandId) (Instr.fst (0 : StrandId) FFmt.q (1 : Reg) (5 : Reg) (0 : BitVec 24)) wFloatingMovesAndCompares_10) ∧
    (wFloatingMovesAndCompares_10.storeVa (0 : StrandId) needStore (wFloatingMovesAndCompares_10.strand (0 : StrandId)).dataPrv
    (BitVec.toNat ((wFloatingMovesAndCompares_10.strand (0 : StrandId)).reg (5 : Reg) + BitVec.signExtend 64 (0 : BitVec 24))) (fpWidth FFmt.q / 8) =
  LRes.ok wFloatingMovesAndCompares_15 wFloatingMovesAndCompares_14) ∧
    (wFloatingMovesAndCompares_15.bufferStore (0 : StrandId) (if FFmt.q = FFmt.q then splitSegs 8 wFloatingMovesAndCompares_14 else wFloatingMovesAndCompares_14)
    (leBytes (fpWidth FFmt.q / 8) ((wFloatingMovesAndCompares_10.strand (0 : StrandId)).freg (1 : Reg)).toNat) =
  some wFloatingMovesAndCompares_13) ∧
    ((wFloatingMovesAndCompares_10.strand (0 : StrandId)).tl = 0) :=
  ⟨⟨dec, dec, rfl⟩, rfl, rfl, dec⟩

theorem witness_FloatingMovesAndCompares_7 :
    (Runs wFloatingResults_0 (0 : StrandId) (Instr.fpsync (0 : StrandId)) wFloatingResults_1 true) ∧
    ((wFloatingResults_1.strand (0 : StrandId)).tl = 0) :=
  ⟨⟨dec, dec, rfl⟩, dec⟩

def wFloatingStepsAndPendingException_16 : Body := (fetched (sF 1 0 0 0x3FF8000000000000 0xC002000000000000 0x4008000000000000) (lenOf (.fdstep 0 .d 1 2 3)))
theorem witness_FloatingStepsAndPendingException_1 :
    (Runs wFloatingResults_0 (0 : StrandId) (Instr.fdstep (0 : StrandId) FFmt.d (1 : Reg) (2 : Reg) (3 : Reg)) wFloatingStepsAndPendingException_16) ∧
    ((wFloatingStepsAndPendingException_16.strand (0 : StrandId)).tl = 0) ∧
    ((1 : Reg) ≠ (2 : Reg) ∧ (1 : Reg) ≠ (3 : Reg) ∧ (2 : Reg) ≠ (3 : Reg)) :=
  ⟨⟨dec, dec, rfl⟩, dec⟩

theorem witness_FloatingStepsAndPendingException_2 :
    (Runs wFloatingResults_0 (0 : StrandId) (Instr.fdstep (0 : StrandId) FFmt.d (1 : Reg) (1 : Reg) (3 : Reg)) wFloatingStepsAndPendingException_16) ∧
    (¬((1 : Reg) ≠ (1 : Reg) ∧ (1 : Reg) ≠ (3 : Reg) ∧ (1 : Reg) ≠ (3 : Reg))) ∧
    ((wFloatingStepsAndPendingException_16.strand (0 : StrandId)).pend = false) :=
  ⟨⟨dec, dec, rfl⟩, dec⟩

theorem witness_ExactFloatingResults_1 :
    (0 ≤ 4) ∧
    ((fpDecode FFmt.d (4607182418800017408 : BitVec 128)).isFin = true) ∧
    ((fpDecode FFmt.d (4611686018427387904 : BitVec 128)).isFin = true) ∧
    ((fpDecode FFmt.d (4613937818241073152 : BitVec 128)).isFin = true) ∧
    (BitVec.toNat (4613937818241073152 : BitVec 128) < 2 ^ fpWidth FFmt.d) ∧
    ((fpDecode FFmt.d (4613937818241073152 : BitVec 128)).num ≠ (0 : ℚ)) ∧
    ((fpDecode FFmt.d (4613937818241073152 : BitVec 128)).num =
  (fpDecode FFmt.d (4607182418800017408 : BitVec 128)).num + (fpDecode FFmt.d (4611686018427387904 : BitVec 128)).num) :=
  dec

theorem witness_ExactFloatingResults_2 :
    (0 ≤ 4) ∧
    ((fpDecode FFmt.d (4607182418800017408 : BitVec 128)).isFin = true) ∧
    ((fpDecode FFmt.d (4611686018427387904 : BitVec 128)).isFin = true) ∧
    ((fpDecode FFmt.d (4611686018427387904 : BitVec 128)).isFin = true) ∧
    (BitVec.toNat (4611686018427387904 : BitVec 128) < 2 ^ fpWidth FFmt.d) ∧
    ((fpDecode FFmt.d (4611686018427387904 : BitVec 128)).num ≠ (0 : ℚ)) ∧
    ((fpDecode FFmt.d (4611686018427387904 : BitVec 128)).num =
  (fpDecode FFmt.d (4607182418800017408 : BitVec 128)).num * (fpDecode FFmt.d (4611686018427387904 : BitVec 128)).num) :=
  dec

theorem witness_ExactFloatingResults_3 :
    (0 ≤ 4) ∧
    ((fpDecode FFmt.d (4616189618054758400 : BitVec 128)).isFin = true) ∧
    ((fpDecode FFmt.d (4611686018427387904 : BitVec 128)).isFin = true) ∧
    ((fpDecode FFmt.d (4611686018427387904 : BitVec 128)).isFin = true) ∧
    (BitVec.toNat (4611686018427387904 : BitVec 128) < 2 ^ fpWidth FFmt.d) ∧
    ((fpDecode FFmt.d (4611686018427387904 : BitVec 128)).num ≠ (0 : ℚ)) ∧
    ((fpDecode FFmt.d (4611686018427387904 : BitVec 128)).num ≠ (0 : ℚ)) ∧
    ((fpDecode FFmt.d (4611686018427387904 : BitVec 128)).num * (fpDecode FFmt.d (4611686018427387904 : BitVec 128)).num =
  (fpDecode FFmt.d (4616189618054758400 : BitVec 128)).num) :=
  dec

theorem witness_ExactFloatingResults_4 :
    (0 ≤ 4) ∧
    ((fpDecode FFmt.d (4616189618054758400 : BitVec 128)).isFin = true) ∧
    ((fpDecode FFmt.d (4611686018427387904 : BitVec 128)).isFin = true) ∧
    ((fpDecode FFmt.d (4611686018427387904 : BitVec 128)).isFin = true) ∧
    (BitVec.toNat (4611686018427387904 : BitVec 128) < 2 ^ fpWidth FFmt.d) ∧
    ((fpDecode FFmt.d (4611686018427387904 : BitVec 128)).num ≠ (0 : ℚ)) ∧
    ((0 : ℚ) < (fpDecode FFmt.d (4611686018427387904 : BitVec 128)).num) ∧
    ((fpDecode FFmt.d (4616189618054758400 : BitVec 128)).num =
  (fpDecode FFmt.d (4611686018427387904 : BitVec 128)).num * (fpDecode FFmt.d (4611686018427387904 : BitVec 128)).num) :=
  dec
end G6

namespace G7
def withSlice (s : State) (n : Nat) (x : Slice) : State := { s with body := s.body.modIo fun i => { i with slices := tPut i.slices n x } }
def io1 (k : Byte) (gen : BitVec 16) : Slice := { st := .bound, kind := k, part := 0, asid := 0, gen := gen, limit := 9, weight := 2, engmask := 0, target := 0, sq := { en := true, log2n := 4, head := 3, tail := 4 }, cq := { en := true, log2n := 4, head := 1, tail := 3 } }
def post (off : BitVec 24) (d : W) (gen : BitVec 16) (ex : Nat) : Posted := { strand := 0, slice := 5, off := off, wd := .d, data := d, part := 0, asid := 0, gen := gen, expiry := ex }
def uIo : Strand := { atU.setReg 4 0x1FFE with iob := #v[5, 0, 0, 0] }
def sIo (u : Strand) : State := withSlice (running u) 5 (io1 1 3)
def sNo (u : Strand) : State := running u
def en1 : StoreEntry := { pa := 0x300000, bytes := [1, 2], slot := 0, nol3 := false, via := none }

def bell0 : IoBell := { slice := 5, off := 0, data := 0x1FFE, part := 0, asid := 0, gen := 3 }
def sHeld : State := sIo { uIo with act := .iodb bell0 }
def cutS (s : State) : State := { s with body := s.body.modCtl fun c => { c with bundles := #v[false, false] } }
def sCut : State := cutS (withSlice (running { uIo with iob := #v[4101, 0, 0, 0] }) 4101 (io1 1 3))
def withPrv (p : Nat) (rd : W) : State := running ((atLevel p 0).setReg 4 rd)
def ld1 (off : BitVec 24) (wd : Width) (gen : BitVec 16) : IoLoad := { wd := wd, rd := 7, slice := 5, off := off, part := 0, asid := 0, gen := gen, expiry := 50 }
def sLd (off : BitVec 24) (wd : Width) (gen : BitVec 16) : State := sIo { uIo with act := .iold (ld1 off wd gen) }
def sP (off : BitVec 24) (d : W) (x : Slice) : State := { withSlice (running uIo) 5 x with body := (withSlice (running uIo) 5 x).body.modIo fun i => { i with posted := [post off d 3 50] } }
def tw (pa : Nat) (gen : BitVec 16) : TagWrite := { slice := 5, gen := gen, pa := pa, bytes := [1, 2, 3], slot := 0, issued := 0, done := none }
def sW (pa : Nat) (gen : BitVec 16) : State := let s := withSlice (holding (running atK) [0x300000] 77) 5 (io1 1 3)
  { s with body := s.body.modIo fun i => { i with writes := [tw pa gen] } }
def hr (g : Option (BitVec 16)) : HeldRec := { src := .job, gen := g, bytes := List.replicate 32 7 }
def sHr (g : Option (BitVec 16)) : State := withSlice (running atK) 5 { (io1 2 3) with cq := { en := true, log2n := 4, base := 0x400000, head := 1, tail := 16 }, cqNext := 16, waiting := [hr g] }
def hm (g : Option (BitVec 16)) : Body × List Piece := let b := (sHr g).body; match b.engMap (b.ownerOf 5 3 (b.servingHub 5 0)) needStore 0x400000 32 with | (b1, .ok ps) => (b1, ps) | (b1, _) => (b1, [])

def wIoInstructions_0 : Body := (fetched (sIo uIo) 6)
theorem witness_IoInstructions_1 :
    (Runs (sIo uIo) (0 : StrandId) (Instr.iost (0 : StrandId) Width.d (4 : Reg) (0 : BitVec 2) (4096 : BitVec 24)) wIoInstructions_0) ∧
    ((BitVec.toNat (4096 : BitVec 24) %
    match Width.d with
    | Width.d => 8
    | Width.w => 4) =
  0) ∧
    ((fun lo hi => lo ≤ BitVec.toNat (4096 : BitVec 24) ∧ BitVec.toNat (4096 : BitVec 24) < hi) 4096 4136 ∨
  (fun lo hi => lo ≤ BitVec.toNat (4096 : BitVec 24) ∧ BitVec.toNat (4096 : BitVec 24) < hi) 8192 8232 ∨
    (fun lo hi => lo ≤ BitVec.toNat (4096 : BitVec 24) ∧ BitVec.toNat (4096 : BitVec 24) < hi) 65536 131072) ∧
    ((wIoInstructions_0.slice ((wIoInstructions_0.strand (0 : StrandId)).iobSlice (0 : BitVec 2))).st ≠ SliceSt.free ∧
  (wIoInstructions_0.slice ((wIoInstructions_0.strand (0 : StrandId)).iobSlice (0 : BitVec 2))).part = (wIoInstructions_0.strand (0 : StrandId)).part ∧
    (wIoInstructions_0.slice ((wIoInstructions_0.strand (0 : StrandId)).iobSlice (0 : BitVec 2))).asid = (wIoInstructions_0.strand (0 : StrandId)).asid) ∧
    (wIoInstructions_0.ioCut (0 : StrandId) ((wIoInstructions_0.strand (0 : StrandId)).iobSlice (0 : BitVec 2)) (wIoInstructions_0.strand (0 : StrandId)).part = false) :=
  ⟨⟨dec, dec, rfl⟩, dec⟩

theorem witness_IoInstructions_2 :
    (Runs (sIo uIo) (0 : StrandId) (Instr.iodb (0 : StrandId) (4 : Reg) (0 : BitVec 2) (0 : BitVec 24)) wIoInstructions_0) ∧
    (BitVec.toNat (0 : BitVec 24) = 0) ∧
    ((wIoInstructions_0.slice ((wIoInstructions_0.strand (0 : StrandId)).iobSlice (0 : BitVec 2))).st ≠ SliceSt.free ∧
  (wIoInstructions_0.slice ((wIoInstructions_0.strand (0 : StrandId)).iobSlice (0 : BitVec 2))).part = (wIoInstructions_0.strand (0 : StrandId)).part ∧
    (wIoInstructions_0.slice ((wIoInstructions_0.strand (0 : StrandId)).iobSlice (0 : BitVec 2))).asid = (wIoInstructions_0.strand (0 : StrandId)).asid) ∧
    (wIoInstructions_0.ioCut (0 : StrandId) ((wIoInstructions_0.strand (0 : StrandId)).iobSlice (0 : BitVec 2)) (wIoInstructions_0.strand (0 : StrandId)).part = false) ∧
    ((wIoInstructions_0.strand (0 : StrandId)).sb = []) :=
  ⟨⟨dec, dec, rfl⟩, dec⟩

def wIoInstructions_1 : State := (sIo { uIo with sb := [en1] })
def wIoInstructions_2 : Body := (fetched (sIo { uIo with sb := [en1] }) 6)
theorem witness_IoInstructions_3 :
    (Runs wIoInstructions_1 (0 : StrandId) (Instr.iodb (0 : StrandId) (4 : Reg) (0 : BitVec 2) (0 : BitVec 24)) wIoInstructions_2) ∧
    (BitVec.toNat (0 : BitVec 24) = 0) ∧
    ((wIoInstructions_2.slice ((wIoInstructions_2.strand (0 : StrandId)).iobSlice (0 : BitVec 2))).st ≠ SliceSt.free ∧
  (wIoInstructions_2.slice ((wIoInstructions_2.strand (0 : StrandId)).iobSlice (0 : BitVec 2))).part = (wIoInstructions_2.strand (0 : StrandId)).part ∧
    (wIoInstructions_2.slice ((wIoInstructions_2.strand (0 : StrandId)).iobSlice (0 : BitVec 2))).asid = (wIoInstructions_2.strand (0 : StrandId)).asid) ∧
    (wIoInstructions_2.ioCut (0 : StrandId) ((wIoInstructions_2.strand (0 : StrandId)).iobSlice (0 : BitVec 2)) (wIoInstructions_2.strand (0 : StrandId)).part = false) ∧
    ((wIoInstructions_2.strand (0 : StrandId)).sb ≠ []) :=
  ⟨⟨dec, dec, rfl⟩, dec⟩

theorem witness_IoInstructions_4 :
    ((sHeld.body.strand (0 : StrandId)).run = RunState.running) ∧
    ((sHeld.body.strand (0 : StrandId)).act = Activity.iodb bell0) ∧
    ((sHeld.body.strand (0 : StrandId)).sb = []) ∧
    (sHeld.body.ioCut (0 : StrandId) bell0.slice bell0.part = false) :=
  dec

def wIoInstructions_4 : Body := (fetched (sCut) 6)
theorem witness_IoInstructions_5 :
    (Runs sCut (0 : StrandId) (Instr.iold (0 : StrandId) Width.d (4 : Reg) (0 : BitVec 2) (12304 : BitVec 24)) wIoInstructions_4) ∧
    (wIoInstructions_4.ioCut (0 : StrandId) ((wIoInstructions_4.strand (0 : StrandId)).iobSlice (0 : BitVec 2)) (wIoInstructions_4.strand (0 : StrandId)).part = true) ∧
    ((wIoInstructions_4.slice ((wIoInstructions_4.strand (0 : StrandId)).iobSlice (0 : BitVec 2))).st ≠ SliceSt.free ∧
  (wIoInstructions_4.slice ((wIoInstructions_4.strand (0 : StrandId)).iobSlice (0 : BitVec 2))).part = (wIoInstructions_4.strand (0 : StrandId)).part ∧
    (wIoInstructions_4.slice ((wIoInstructions_4.strand (0 : StrandId)).iobSlice (0 : BitVec 2))).asid = (wIoInstructions_4.strand (0 : StrandId)).asid) ∧
    ((wIoInstructions_4.strand (0 : StrandId)).fail = none) ∧
    ((BitVec.toNat (12304 : BitVec 24) %
    match Width.d with
    | Width.d => 8
    | Width.w => 4) =
  0) ∧
    (((fun lo hi => lo ≤ BitVec.toNat (12304 : BitVec 24) ∧ BitVec.toNat (12304 : BitVec 24) < hi) 4096 4136 ∨
    (fun lo hi => lo ≤ BitVec.toNat (12304 : BitVec 24) ∧ BitVec.toNat (12304 : BitVec 24) < hi) 8192 8232 ∨
      (fun lo hi => lo ≤ BitVec.toNat (12304 : BitVec 24) ∧ BitVec.toNat (12304 : BitVec 24) < hi) 65536 131072) ∨
  (fun lo hi => lo ≤ BitVec.toNat (12304 : BitVec 24) ∧ BitVec.toNat (12304 : BitVec 24) < hi) 12288 12312) :=
  ⟨⟨dec, dec, rfl⟩, dec⟩

theorem witness_IoInstructions_6 :
    (Runs sCut (0 : StrandId) (Instr.iost (0 : StrandId) Width.d (4 : Reg) (0 : BitVec 2) (4096 : BitVec 24)) wIoInstructions_4) ∧
    (wIoInstructions_4.ioCut (0 : StrandId) ((wIoInstructions_4.strand (0 : StrandId)).iobSlice (0 : BitVec 2)) (wIoInstructions_4.strand (0 : StrandId)).part = true) ∧
    ((wIoInstructions_4.slice ((wIoInstructions_4.strand (0 : StrandId)).iobSlice (0 : BitVec 2))).st ≠ SliceSt.free ∧
  (wIoInstructions_4.slice ((wIoInstructions_4.strand (0 : StrandId)).iobSlice (0 : BitVec 2))).part = (wIoInstructions_4.strand (0 : StrandId)).part ∧
    (wIoInstructions_4.slice ((wIoInstructions_4.strand (0 : StrandId)).iobSlice (0 : BitVec 2))).asid = (wIoInstructions_4.strand (0 : StrandId)).asid) ∧
    ((wIoInstructions_4.strand (0 : StrandId)).fail = none) ∧
    ((BitVec.toNat (4096 : BitVec 24) %
    match Width.d with
    | Width.d => 8
    | Width.w => 4) =
  0) ∧
    ((fun lo hi => lo ≤ BitVec.toNat (4096 : BitVec 24) ∧ BitVec.toNat (4096 : BitVec 24) < hi) 4096 4136 ∨
  (fun lo hi => lo ≤ BitVec.toNat (4096 : BitVec 24) ∧ BitVec.toNat (4096 : BitVec 24) < hi) 8192 8232 ∨
    (fun lo hi => lo ≤ BitVec.toNat (4096 : BitVec 24) ∧ BitVec.toNat (4096 : BitVec 24) < hi) 65536 131072) :=
  ⟨⟨dec, dec, rfl⟩, dec⟩

theorem witness_IoInstructions_7 :
    (Runs sCut (0 : StrandId) (Instr.iodb (0 : StrandId) (4 : Reg) (0 : BitVec 2) (0 : BitVec 24)) wIoInstructions_4) ∧
    (wIoInstructions_4.ioCut (0 : StrandId) ((wIoInstructions_4.strand (0 : StrandId)).iobSlice (0 : BitVec 2)) (wIoInstructions_4.strand (0 : StrandId)).part = true) ∧
    ((wIoInstructions_4.slice ((wIoInstructions_4.strand (0 : StrandId)).iobSlice (0 : BitVec 2))).st ≠ SliceSt.free ∧
  (wIoInstructions_4.slice ((wIoInstructions_4.strand (0 : StrandId)).iobSlice (0 : BitVec 2))).part = (wIoInstructions_4.strand (0 : StrandId)).part ∧
    (wIoInstructions_4.slice ((wIoInstructions_4.strand (0 : StrandId)).iobSlice (0 : BitVec 2))).asid = (wIoInstructions_4.strand (0 : StrandId)).asid) ∧
    ((wIoInstructions_4.strand (0 : StrandId)).fail = none) ∧
    (BitVec.toNat (0 : BitVec 24) = 0) ∧
    ((wIoInstructions_4.strand (0 : StrandId)).sb = []) :=
  ⟨⟨dec, dec, rfl⟩, dec⟩

theorem witness_IoInstructions_8 :
    (Runs (sIo uIo) (0 : StrandId) (Instr.iold (0 : StrandId) Width.w (4 : Reg) (0 : BitVec 2) (12308 : BitVec 24)) wIoInstructions_0) ∧
    ((BitVec.toNat (12308 : BitVec 24) %
    match Width.w with
    | Width.d => 8
    | Width.w => 4) =
  0) ∧
    (((fun lo hi => lo ≤ BitVec.toNat (12308 : BitVec 24) ∧ BitVec.toNat (12308 : BitVec 24) < hi) 4096 4136 ∨
    (fun lo hi => lo ≤ BitVec.toNat (12308 : BitVec 24) ∧ BitVec.toNat (12308 : BitVec 24) < hi) 8192 8232 ∨
      (fun lo hi => lo ≤ BitVec.toNat (12308 : BitVec 24) ∧ BitVec.toNat (12308 : BitVec 24) < hi) 65536 131072) ∨
  (fun lo hi => lo ≤ BitVec.toNat (12308 : BitVec 24) ∧ BitVec.toNat (12308 : BitVec 24) < hi) 12288 12312) ∧
    ((wIoInstructions_0.slice ((wIoInstructions_0.strand (0 : StrandId)).iobSlice (0 : BitVec 2))).st ≠ SliceSt.free ∧
  (wIoInstructions_0.slice ((wIoInstructions_0.strand (0 : StrandId)).iobSlice (0 : BitVec 2))).part = (wIoInstructions_0.strand (0 : StrandId)).part ∧
    (wIoInstructions_0.slice ((wIoInstructions_0.strand (0 : StrandId)).iobSlice (0 : BitVec 2))).asid = (wIoInstructions_0.strand (0 : StrandId)).asid) ∧
    (wIoInstructions_0.ioCut (0 : StrandId) ((wIoInstructions_0.strand (0 : StrandId)).iobSlice (0 : BitVec 2)) (wIoInstructions_0.strand (0 : StrandId)).part = false) :=
  ⟨⟨dec, dec, rfl⟩, dec⟩

theorem witness_IoInstructions_9 :
    (Runs (sIo uIo) (0 : StrandId) (Instr.iost (0 : StrandId) Width.d (4 : Reg) (0 : BitVec 2) (12304 : BitVec 24)) wIoInstructions_0) ∧
    (¬((fun lo hi => lo ≤ BitVec.toNat (12304 : BitVec 24) ∧ BitVec.toNat (12304 : BitVec 24) < hi) 4096 4136 ∨
      (fun lo hi => lo ≤ BitVec.toNat (12304 : BitVec 24) ∧ BitVec.toNat (12304 : BitVec 24) < hi) 8192 8232 ∨
        (fun lo hi => lo ≤ BitVec.toNat (12304 : BitVec 24) ∧ BitVec.toNat (12304 : BitVec 24) < hi) 65536 131072) ∨
  (BitVec.toNat (12304 : BitVec 24) %
      match Width.d with
      | Width.d => 8
      | Width.w => 4) ≠
    0) ∧
    ((wIoInstructions_0.strand (0 : StrandId)).pend = false) :=
  ⟨⟨dec, dec, rfl⟩, dec⟩

theorem witness_IoInstructions_10 :
    (Runs (sIo uIo) (0 : StrandId) (Instr.iold (0 : StrandId) Width.d (4 : Reg) (0 : BitVec 2) (12312 : BitVec 24)) wIoInstructions_0) ∧
    (¬(((fun lo hi => lo ≤ BitVec.toNat (12312 : BitVec 24) ∧ BitVec.toNat (12312 : BitVec 24) < hi) 4096 4136 ∨
        (fun lo hi => lo ≤ BitVec.toNat (12312 : BitVec 24) ∧ BitVec.toNat (12312 : BitVec 24) < hi) 8192 8232 ∨
          (fun lo hi => lo ≤ BitVec.toNat (12312 : BitVec 24) ∧ BitVec.toNat (12312 : BitVec 24) < hi) 65536 131072) ∨
      (fun lo hi => lo ≤ BitVec.toNat (12312 : BitVec 24) ∧ BitVec.toNat (12312 : BitVec 24) < hi) 12288 12312) ∨
  (BitVec.toNat (12312 : BitVec 24) %
      match Width.d with
      | Width.d => 8
      | Width.w => 4) ≠
    0) ∧
    ((wIoInstructions_0.strand (0 : StrandId)).pend = false) :=
  ⟨⟨dec, dec, rfl⟩, dec⟩

theorem witness_IoInstructions_11 :
    (Runs (sIo uIo) (0 : StrandId) (Instr.iodb (0 : StrandId) (4 : Reg) (0 : BitVec 2) (8 : BitVec 24)) wIoInstructions_0) ∧
    (BitVec.toNat (8 : BitVec 24) ≠ 0) ∧
    ((wIoInstructions_0.strand (0 : StrandId)).pend = false) :=
  ⟨⟨dec, dec, rfl⟩, dec⟩

def wIoInstructions_5 : Body := (fetched (sNo uIo) 6)
theorem witness_IoInstructions_12 :
    (Runs (sNo uIo) (0 : StrandId) (Instr.iost (0 : StrandId) Width.d (4 : Reg) (0 : BitVec 2) (8192 : BitVec 24)) wIoInstructions_5) ∧
    ((BitVec.toNat (8192 : BitVec 24) %
    match Width.d with
    | Width.d => 8
    | Width.w => 4) =
  0) ∧
    ((fun lo hi => lo ≤ BitVec.toNat (8192 : BitVec 24) ∧ BitVec.toNat (8192 : BitVec 24) < hi) 4096 4136 ∨
  (fun lo hi => lo ≤ BitVec.toNat (8192 : BitVec 24) ∧ BitVec.toNat (8192 : BitVec 24) < hi) 8192 8232 ∨
    (fun lo hi => lo ≤ BitVec.toNat (8192 : BitVec 24) ∧ BitVec.toNat (8192 : BitVec 24) < hi) 65536 131072) ∧
    (¬((wIoInstructions_5.slice ((wIoInstructions_5.strand (0 : StrandId)).iobSlice (0 : BitVec 2))).st ≠ SliceSt.free ∧
    (wIoInstructions_5.slice ((wIoInstructions_5.strand (0 : StrandId)).iobSlice (0 : BitVec 2))).part = (wIoInstructions_5.strand (0 : StrandId)).part ∧
      (wIoInstructions_5.slice ((wIoInstructions_5.strand (0 : StrandId)).iobSlice (0 : BitVec 2))).asid = (wIoInstructions_5.strand (0 : StrandId)).asid)) ∧
    ((wIoInstructions_5.strand (0 : StrandId)).pend = false) :=
  ⟨⟨dec, dec, rfl⟩, dec⟩

theorem witness_IoInstructions_13 :
    (Runs (sNo uIo) (0 : StrandId) (Instr.iold (0 : StrandId) Width.d (4 : Reg) (0 : BitVec 2) (12288 : BitVec 24)) wIoInstructions_5) ∧
    ((BitVec.toNat (12288 : BitVec 24) %
    match Width.d with
    | Width.d => 8
    | Width.w => 4) =
  0) ∧
    (((fun lo hi => lo ≤ BitVec.toNat (12288 : BitVec 24) ∧ BitVec.toNat (12288 : BitVec 24) < hi) 4096 4136 ∨
    (fun lo hi => lo ≤ BitVec.toNat (12288 : BitVec 24) ∧ BitVec.toNat (12288 : BitVec 24) < hi) 8192 8232 ∨
      (fun lo hi => lo ≤ BitVec.toNat (12288 : BitVec 24) ∧ BitVec.toNat (12288 : BitVec 24) < hi) 65536 131072) ∨
  (fun lo hi => lo ≤ BitVec.toNat (12288 : BitVec 24) ∧ BitVec.toNat (12288 : BitVec 24) < hi) 12288 12312) ∧
    (¬((wIoInstructions_5.slice ((wIoInstructions_5.strand (0 : StrandId)).iobSlice (0 : BitVec 2))).st ≠ SliceSt.free ∧
    (wIoInstructions_5.slice ((wIoInstructions_5.strand (0 : StrandId)).iobSlice (0 : BitVec 2))).part = (wIoInstructions_5.strand (0 : StrandId)).part ∧
      (wIoInstructions_5.slice ((wIoInstructions_5.strand (0 : StrandId)).iobSlice (0 : BitVec 2))).asid = (wIoInstructions_5.strand (0 : StrandId)).asid)) ∧
    ((wIoInstructions_5.strand (0 : StrandId)).pend = false) :=
  ⟨⟨dec, dec, rfl⟩, dec⟩

theorem witness_IoInstructions_14 :
    (Runs (sNo uIo) (0 : StrandId) (Instr.iodb (0 : StrandId) (4 : Reg) (0 : BitVec 2) (0 : BitVec 24)) wIoInstructions_5) ∧
    (BitVec.toNat (0 : BitVec 24) = 0) ∧
    (¬((wIoInstructions_5.slice ((wIoInstructions_5.strand (0 : StrandId)).iobSlice (0 : BitVec 2))).st ≠ SliceSt.free ∧
    (wIoInstructions_5.slice ((wIoInstructions_5.strand (0 : StrandId)).iobSlice (0 : BitVec 2))).part = (wIoInstructions_5.strand (0 : StrandId)).part ∧
      (wIoInstructions_5.slice ((wIoInstructions_5.strand (0 : StrandId)).iobSlice (0 : BitVec 2))).asid = (wIoInstructions_5.strand (0 : StrandId)).asid)) ∧
    ((wIoInstructions_5.strand (0 : StrandId)).pend = false) :=
  ⟨⟨dec, dec, rfl⟩, dec⟩

def wIoInstructions_6 : State := (withPrv 1 0x1FFE)
def wIoInstructions_7 : Body := (fetched (withPrv 1 0x1FFE) 6)
theorem witness_IoInstructions_15 :
    (Runs wIoInstructions_6 (0 : StrandId) (Instr.setiob (0 : StrandId) (4 : Reg) (0 : BitVec 2) (1 : BitVec 24)) wIoInstructions_7) ∧
    (BitVec.toNat ((wIoInstructions_7.strand (0 : StrandId)).reg (4 : Reg)) + BitVec.toNat (1 : BitVec 24) ≤ 8191) ∧
    (1 ≤ (wIoInstructions_7.strand (0 : StrandId)).prv.toNat) :=
  ⟨⟨dec, dec, rfl⟩, dec⟩

def wIoInstructions_8 : State := (withPrv 0 0x1FFE)
def wIoInstructions_9 : Body := (fetched (withPrv 0 0x1FFE) 6)
theorem witness_IoInstructions_16 :
    (Runs wIoInstructions_8 (0 : StrandId) (Instr.setiob (0 : StrandId) (4 : Reg) (0 : BitVec 2) (1 : BitVec 24)) wIoInstructions_9) ∧
    (BitVec.toNat ((wIoInstructions_9.strand (0 : StrandId)).reg (4 : Reg)) + BitVec.toNat (1 : BitVec 24) ≤ 8191) ∧
    ((wIoInstructions_9.strand (0 : StrandId)).prv = (0 : BitVec 2)) ∧
    ((wIoInstructions_9.strand (0 : StrandId)).pend = false) :=
  ⟨⟨dec, dec, rfl⟩, dec⟩

def wIoInstructions_10 : State := (withPrv 2 0x1FFE)
def wIoInstructions_11 : Body := (fetched (withPrv 2 0x1FFE) 6)
theorem witness_IoInstructions_17 :
    (Runs wIoInstructions_10 (0 : StrandId) (Instr.setiob (0 : StrandId) (4 : Reg) (0 : BitVec 2) (2 : BitVec 24)) wIoInstructions_11) ∧
    (8191 < BitVec.toNat ((wIoInstructions_11.strand (0 : StrandId)).reg (4 : Reg)) + BitVec.toNat (2 : BitVec 24)) ∧
    ((wIoInstructions_11.strand (0 : StrandId)).pend = false) :=
  ⟨⟨dec, dec, rfl⟩, dec⟩

def wIoRepliesAndTimeouts_12 : State := (sLd 0x1014 .w 3)
def wIoRepliesAndTimeouts_13 : IoLoad := (ld1 0x1014 .w 3)
theorem witness_IoRepliesAndTimeouts_1 :
    ((wIoRepliesAndTimeouts_12.body.strand (0 : StrandId)).run = RunState.running) ∧
    ((wIoRepliesAndTimeouts_12.body.strand (0 : StrandId)).act = Activity.iold wIoRepliesAndTimeouts_13) ∧
    ((wIoRepliesAndTimeouts_12.body.strand (0 : StrandId)).fail = none) ∧
    (wIoRepliesAndTimeouts_13.wd = Width.d → wIoRepliesAndTimeouts_13.off.toNat % 8 = 0) ∧
    (wIoRepliesAndTimeouts_13.off.toNat % 4 = 0) ∧
    (∀ p ∈ wIoRepliesAndTimeouts_12.body.io.posted, ¬(p.strand = (0 : StrandId) ∧ p.slice = wIoRepliesAndTimeouts_13.slice)) ∧
    (wIoRepliesAndTimeouts_12.body.ctl.tod[halfOfStrand (0 : StrandId)].toNat ≤ wIoRepliesAndTimeouts_13.expiry) ∧
    ((wIoRepliesAndTimeouts_12.body.slice wIoRepliesAndTimeouts_13.slice).st ≠ SliceSt.free ∧
  (wIoRepliesAndTimeouts_12.body.slice wIoRepliesAndTimeouts_13.slice).part = wIoRepliesAndTimeouts_13.part ∧
    (wIoRepliesAndTimeouts_12.body.slice wIoRepliesAndTimeouts_13.slice).asid = wIoRepliesAndTimeouts_13.asid ∧
      (wIoRepliesAndTimeouts_12.body.slice wIoRepliesAndTimeouts_13.slice).gen = wIoRepliesAndTimeouts_13.gen) :=
  dec

theorem witness_IoRepliesAndTimeouts_2 :
    ((wIoRepliesAndTimeouts_12.body.strand (0 : StrandId)).run = RunState.running) ∧
    ((wIoRepliesAndTimeouts_12.body.strand (0 : StrandId)).act = Activity.iold wIoRepliesAndTimeouts_13) ∧
    ((wIoRepliesAndTimeouts_12.body.strand (0 : StrandId)).fail = none) ∧
    (wIoRepliesAndTimeouts_13.wd = Width.d → wIoRepliesAndTimeouts_13.off.toNat % 8 = 0) ∧
    (wIoRepliesAndTimeouts_13.off.toNat % 4 = 0) :=
  dec

def wIoRepliesAndTimeouts_14 : State := (sLd 0x1014 .w 4)
def wIoRepliesAndTimeouts_15 : IoLoad := (ld1 0x1014 .w 4)
theorem witness_IoRepliesAndTimeouts_3 :
    ((wIoRepliesAndTimeouts_14.body.strand (0 : StrandId)).run = RunState.running) ∧
    ((wIoRepliesAndTimeouts_14.body.strand (0 : StrandId)).act = Activity.iold wIoRepliesAndTimeouts_15) ∧
    ((wIoRepliesAndTimeouts_14.body.strand (0 : StrandId)).fail = none) ∧
    (wIoRepliesAndTimeouts_15.wd = Width.d → wIoRepliesAndTimeouts_15.off.toNat % 8 = 0) ∧
    (wIoRepliesAndTimeouts_15.off.toNat % 4 = 0) ∧
    (∀ p ∈ wIoRepliesAndTimeouts_14.body.io.posted, ¬(p.strand = (0 : StrandId) ∧ p.slice = wIoRepliesAndTimeouts_15.slice)) ∧
    (wIoRepliesAndTimeouts_14.body.ctl.tod[halfOfStrand (0 : StrandId)].toNat ≤ wIoRepliesAndTimeouts_15.expiry) ∧
    (¬((wIoRepliesAndTimeouts_14.body.slice wIoRepliesAndTimeouts_15.slice).st ≠ SliceSt.free ∧
    (wIoRepliesAndTimeouts_14.body.slice wIoRepliesAndTimeouts_15.slice).part = wIoRepliesAndTimeouts_15.part ∧
      (wIoRepliesAndTimeouts_14.body.slice wIoRepliesAndTimeouts_15.slice).asid = wIoRepliesAndTimeouts_15.asid ∧
        (wIoRepliesAndTimeouts_14.body.slice wIoRepliesAndTimeouts_15.slice).gen = wIoRepliesAndTimeouts_15.gen)) :=
  dec

def wIoRepliesAndTimeouts_16 : State := (sP 0x1000 7 (io1 1 3))
def wIoRepliesAndTimeouts_17 : Posted := (post 0x1000 7 3 50)
theorem witness_IoRepliesAndTimeouts_4 :
    (wIoRepliesAndTimeouts_16.body.io.posted = [wIoRepliesAndTimeouts_17]) ∧
    (wIoRepliesAndTimeouts_17.strand = (0 : StrandId)) ∧
    (wIoRepliesAndTimeouts_17.slice = (5 : SliceId)) ∧
    ((wIoRepliesAndTimeouts_16.body.strand (0 : StrandId)).fail = none) :=
  dec

def wSliceRegisterStores_18 : State := (sP 0 19 (io1 1 3))
def wSliceRegisterStores_19 : Posted := (post 0 19 3 50)
theorem witness_SliceRegisterStores_1 :
    (List.find? (fun q => decide (q.strand = (0 : StrandId)) && decide (q.slice = (5 : SliceId))) wSliceRegisterStores_18.body.io.posted = some wSliceRegisterStores_19) ∧
    (wSliceRegisterStores_18.body.ctl.tod[halfOfStrand (0 : StrandId)].toNat ≤ wSliceRegisterStores_19.expiry) ∧
    (wSliceRegisterStores_19.wd = Width.d) ∧
    ((wSliceRegisterStores_18.body.slice (5 : SliceId)).st ≠ SliceSt.free) ∧
    ((wSliceRegisterStores_18.body.slice (5 : SliceId)).part = wSliceRegisterStores_19.part) ∧
    ((wSliceRegisterStores_18.body.slice (5 : SliceId)).asid = wSliceRegisterStores_19.asid) ∧
    ((wSliceRegisterStores_18.body.slice (5 : SliceId)).gen = wSliceRegisterStores_19.gen) ∧
    (wSliceRegisterStores_19.off.toNat = 0) ∧
    (BitVec.extractLsb' 32 16 wSliceRegisterStores_19.data = (0 : BitVec 16)) ∧
    ((wSliceRegisterStores_18.body.slice (5 : SliceId)).sq.en = true) ∧
    ((BitVec.setWidth 32 wSliceRegisterStores_19.data - (wSliceRegisterStores_18.body.slice (5 : SliceId)).sq.head).toNat ≤
  2 ^ (wSliceRegisterStores_18.body.slice (5 : SliceId)).sq.log2n.toNat) ∧
    (((wSliceRegisterStores_18.body.slice (5 : SliceId)).sq.tail - (wSliceRegisterStores_18.body.slice (5 : SliceId)).sq.head).toNat ≤
  (BitVec.setWidth 32 wSliceRegisterStores_19.data - (wSliceRegisterStores_18.body.slice (5 : SliceId)).sq.head).toNat) :=
  dec

def wSliceRegisterStores_20 : State := (sP 0 20 (io1 1 3))
def wSliceRegisterStores_21 : Posted := (post 0 20 3 50)
theorem witness_SliceRegisterStores_2 :
    (List.find? (fun q => decide (q.strand = (0 : StrandId)) && decide (q.slice = (5 : SliceId))) wSliceRegisterStores_20.body.io.posted = some wSliceRegisterStores_21) ∧
    (wSliceRegisterStores_20.body.ctl.tod[halfOfStrand (0 : StrandId)].toNat ≤ wSliceRegisterStores_21.expiry) ∧
    (wSliceRegisterStores_21.wd = Width.d) ∧
    ((wSliceRegisterStores_20.body.slice (5 : SliceId)).st ≠ SliceSt.free) ∧
    ((wSliceRegisterStores_20.body.slice (5 : SliceId)).part = wSliceRegisterStores_21.part) ∧
    ((wSliceRegisterStores_20.body.slice (5 : SliceId)).asid = wSliceRegisterStores_21.asid) ∧
    ((wSliceRegisterStores_20.body.slice (5 : SliceId)).gen = wSliceRegisterStores_21.gen) ∧
    (wSliceRegisterStores_21.off.toNat = 0) ∧
    (BitVec.extractLsb' 32 16 wSliceRegisterStores_21.data = (0 : BitVec 16)) ∧
    ((wSliceRegisterStores_20.body.slice (5 : SliceId)).sq.en = true) ∧
    (2 ^ (wSliceRegisterStores_20.body.slice (5 : SliceId)).sq.log2n.toNat <
  (BitVec.setWidth 32 wSliceRegisterStores_21.data - (wSliceRegisterStores_20.body.slice (5 : SliceId)).sq.head).toNat) ∧
    ((wSliceRegisterStores_20.body.slice (5 : SliceId)).sq.fault = false) :=
  dec

def wSliceRegisterStores_22 : State := (sP 0x1000 0x1234567 ({ (io1 1 3) with sq := {}, cq := {} }))
def wSliceRegisterStores_23 : Posted := (post 0x1000 0x1234567 3 50)
theorem witness_SliceRegisterStores_3 :
    (List.find? (fun q => decide (q.strand = (0 : StrandId)) && decide (q.slice = (5 : SliceId))) wSliceRegisterStores_22.body.io.posted = some wSliceRegisterStores_23) ∧
    (wSliceRegisterStores_22.body.ctl.tod[halfOfStrand (0 : StrandId)].toNat ≤ wSliceRegisterStores_23.expiry) ∧
    (wSliceRegisterStores_23.wd = Width.d) ∧
    ((wSliceRegisterStores_22.body.slice (5 : SliceId)).st ≠ SliceSt.free) ∧
    ((wSliceRegisterStores_22.body.slice (5 : SliceId)).part = wSliceRegisterStores_23.part) ∧
    ((wSliceRegisterStores_22.body.slice (5 : SliceId)).asid = wSliceRegisterStores_23.asid) ∧
    ((wSliceRegisterStores_22.body.slice (5 : SliceId)).gen = wSliceRegisterStores_23.gen) ∧
    (wSliceRegisterStores_23.off.toNat = 4096) ∧
    ((wSliceRegisterStores_22.body.slice (5 : SliceId)).sq.en = false) :=
  dec

def wSliceRegisterStores_24 : State := (sP 0x1008 0x110 ({ (io1 1 3) with sq := {}, cq := {} }))
def wSliceRegisterStores_25 : Posted := (post 0x1008 0x110 3 50)
theorem witness_SliceRegisterStores_4 :
    (List.find? (fun q => decide (q.strand = (0 : StrandId)) && decide (q.slice = (5 : SliceId))) wSliceRegisterStores_24.body.io.posted = some wSliceRegisterStores_25) ∧
    (wSliceRegisterStores_24.body.ctl.tod[halfOfStrand (0 : StrandId)].toNat ≤ wSliceRegisterStores_25.expiry) ∧
    (wSliceRegisterStores_25.wd = Width.d) ∧
    ((wSliceRegisterStores_24.body.slice (5 : SliceId)).st ≠ SliceSt.free) ∧
    ((wSliceRegisterStores_24.body.slice (5 : SliceId)).part = wSliceRegisterStores_25.part) ∧
    ((wSliceRegisterStores_24.body.slice (5 : SliceId)).asid = wSliceRegisterStores_25.asid) ∧
    ((wSliceRegisterStores_24.body.slice (5 : SliceId)).gen = wSliceRegisterStores_25.gen) ∧
    (wSliceRegisterStores_25.off.toNat = 4104) ∧
    ((wSliceRegisterStores_24.body.slice (5 : SliceId)).kind ≠ (4 : Byte)) ∧
    ((wSliceRegisterStores_24.body.slice (5 : SliceId)).sq.en = false) ∧
    (BitVec.getLsbD wSliceRegisterStores_25.data 8 = true) ∧
    (4 ≤ (BitVec.extractLsb' 0 5 wSliceRegisterStores_25.data).toNat) ∧
    ((BitVec.extractLsb' 0 5 wSliceRegisterStores_25.data).toNat ≤ 16) :=
  dec

def wSliceRegisterStores_26 : State := (sP 0x2008 0x3090A304 ({ (io1 1 3) with sq := {}, cq := {} }))
def wSliceRegisterStores_27 : Posted := (post 0x2008 0x3090A304 3 50)
theorem witness_SliceRegisterStores_5 :
    (List.find? (fun q => decide (q.strand = (0 : StrandId)) && decide (q.slice = (5 : SliceId))) wSliceRegisterStores_26.body.io.posted = some wSliceRegisterStores_27) ∧
    (wSliceRegisterStores_26.body.ctl.tod[halfOfStrand (0 : StrandId)].toNat ≤ wSliceRegisterStores_27.expiry) ∧
    (wSliceRegisterStores_27.wd = Width.d) ∧
    ((wSliceRegisterStores_26.body.slice (5 : SliceId)).st ≠ SliceSt.free) ∧
    ((wSliceRegisterStores_26.body.slice (5 : SliceId)).part = wSliceRegisterStores_27.part) ∧
    ((wSliceRegisterStores_26.body.slice (5 : SliceId)).asid = wSliceRegisterStores_27.asid) ∧
    ((wSliceRegisterStores_26.body.slice (5 : SliceId)).gen = wSliceRegisterStores_27.gen) ∧
    (wSliceRegisterStores_27.off.toNat = 8200) ∧
    ((wSliceRegisterStores_26.body.slice (5 : SliceId)).cq.en = false) ∧
    (BitVec.getLsbD wSliceRegisterStores_27.data 8 = true) ∧
    (4 ≤ (BitVec.extractLsb' 0 5 wSliceRegisterStores_27.data).toNat) ∧
    ((BitVec.extractLsb' 0 5 wSliceRegisterStores_27.data).toNat ≤ 16) :=
  dec

def wSliceRegisterStores_28 : State := (sP 0x2010 2 (io1 1 3))
def wSliceRegisterStores_29 : Posted := (post 0x2010 2 3 50)
theorem witness_SliceRegisterStores_6 :
    (List.find? (fun q => decide (q.strand = (0 : StrandId)) && decide (q.slice = (5 : SliceId))) wSliceRegisterStores_28.body.io.posted = some wSliceRegisterStores_29) ∧
    (wSliceRegisterStores_28.body.ctl.tod[halfOfStrand (0 : StrandId)].toNat ≤ wSliceRegisterStores_29.expiry) ∧
    (wSliceRegisterStores_29.wd = Width.d) ∧
    ((wSliceRegisterStores_28.body.slice (5 : SliceId)).st ≠ SliceSt.free) ∧
    ((wSliceRegisterStores_28.body.slice (5 : SliceId)).part = wSliceRegisterStores_29.part) ∧
    ((wSliceRegisterStores_28.body.slice (5 : SliceId)).asid = wSliceRegisterStores_29.asid) ∧
    ((wSliceRegisterStores_28.body.slice (5 : SliceId)).gen = wSliceRegisterStores_29.gen) ∧
    (wSliceRegisterStores_29.off.toNat = 8208) ∧
    ((BitVec.setWidth 32 wSliceRegisterStores_29.data - (wSliceRegisterStores_28.body.slice (5 : SliceId)).cq.head).toNat ≤
  ((wSliceRegisterStores_28.body.slice (5 : SliceId)).cq.tail - (wSliceRegisterStores_28.body.slice (5 : SliceId)).cq.head).toNat) :=
  dec

def wSliceRegisterStores_30 : State := (sP 0x2010 4 (io1 1 3))
def wSliceRegisterStores_31 : Posted := (post 0x2010 4 3 50)
theorem witness_SliceRegisterStores_7 :
    (List.find? (fun q => decide (q.strand = (0 : StrandId)) && decide (q.slice = (5 : SliceId))) wSliceRegisterStores_30.body.io.posted = some wSliceRegisterStores_31) ∧
    (wSliceRegisterStores_30.body.ctl.tod[halfOfStrand (0 : StrandId)].toNat ≤ wSliceRegisterStores_31.expiry) ∧
    (wSliceRegisterStores_31.wd = Width.d) ∧
    ((wSliceRegisterStores_30.body.slice (5 : SliceId)).st ≠ SliceSt.free) ∧
    ((wSliceRegisterStores_30.body.slice (5 : SliceId)).part = wSliceRegisterStores_31.part) ∧
    ((wSliceRegisterStores_30.body.slice (5 : SliceId)).asid = wSliceRegisterStores_31.asid) ∧
    ((wSliceRegisterStores_30.body.slice (5 : SliceId)).gen = wSliceRegisterStores_31.gen) ∧
    (wSliceRegisterStores_31.off.toNat = 8208) ∧
    (((wSliceRegisterStores_30.body.slice (5 : SliceId)).cq.tail - (wSliceRegisterStores_30.body.slice (5 : SliceId)).cq.head).toNat <
  (BitVec.setWidth 32 wSliceRegisterStores_31.data - (wSliceRegisterStores_30.body.slice (5 : SliceId)).cq.head).toNat) ∧
    ((wSliceRegisterStores_30.body.slice (5 : SliceId)).cq.fault = false) :=
  dec

def wSliceRegisterStores_32 : State := (sP 0x1020 1 ({ (io1 1 3) with sq := { fault := true }, cq := { fault := true } }))
def wSliceRegisterStores_33 : Posted := (post 0x1020 1 3 50)
theorem witness_SliceRegisterStores_8 :
    (List.find? (fun q => decide (q.strand = (0 : StrandId)) && decide (q.slice = (5 : SliceId))) wSliceRegisterStores_32.body.io.posted = some wSliceRegisterStores_33) ∧
    (wSliceRegisterStores_32.body.ctl.tod[halfOfStrand (0 : StrandId)].toNat ≤ wSliceRegisterStores_33.expiry) ∧
    (wSliceRegisterStores_33.wd = Width.d) ∧
    ((wSliceRegisterStores_32.body.slice (5 : SliceId)).st ≠ SliceSt.free) ∧
    ((wSliceRegisterStores_32.body.slice (5 : SliceId)).part = wSliceRegisterStores_33.part) ∧
    ((wSliceRegisterStores_32.body.slice (5 : SliceId)).asid = wSliceRegisterStores_33.asid) ∧
    ((wSliceRegisterStores_32.body.slice (5 : SliceId)).gen = wSliceRegisterStores_33.gen) ∧
    (wSliceRegisterStores_33.off.toNat = 4128) ∧
    (BitVec.getLsbD wSliceRegisterStores_33.data 0 = true) :=
  dec

def wSliceRegisterStores_34 : State := (sP 0x2020 1 ({ (io1 1 3) with sq := { fault := true }, cq := { fault := true } }))
def wSliceRegisterStores_35 : Posted := (post 0x2020 1 3 50)
theorem witness_SliceRegisterStores_9 :
    (List.find? (fun q => decide (q.strand = (0 : StrandId)) && decide (q.slice = (5 : SliceId))) wSliceRegisterStores_34.body.io.posted = some wSliceRegisterStores_35) ∧
    (wSliceRegisterStores_34.body.ctl.tod[halfOfStrand (0 : StrandId)].toNat ≤ wSliceRegisterStores_35.expiry) ∧
    (wSliceRegisterStores_35.wd = Width.d) ∧
    ((wSliceRegisterStores_34.body.slice (5 : SliceId)).st ≠ SliceSt.free) ∧
    ((wSliceRegisterStores_34.body.slice (5 : SliceId)).part = wSliceRegisterStores_35.part) ∧
    ((wSliceRegisterStores_34.body.slice (5 : SliceId)).asid = wSliceRegisterStores_35.asid) ∧
    ((wSliceRegisterStores_34.body.slice (5 : SliceId)).gen = wSliceRegisterStores_35.gen) ∧
    (wSliceRegisterStores_35.off.toNat = 8224) ∧
    (BitVec.getLsbD wSliceRegisterStores_35.data 0 = true) :=
  dec

def wSliceRegisterStores_36 : State := (sP 0x13FC0 0x123456ABC07 ({ (io1 4 3) with qps := [(255, { en := true })], mrs := [(63, { en := false })] }))
def wSliceRegisterStores_37 : Posted := (post 0x13FC0 0x123456ABC07 3 50)
theorem witness_SliceRegisterStores_10 :
    (List.find? (fun q => decide (q.strand = (0 : StrandId)) && decide (q.slice = (5 : SliceId))) wSliceRegisterStores_36.body.io.posted = some wSliceRegisterStores_37) ∧
    (wSliceRegisterStores_36.body.ctl.tod[halfOfStrand (0 : StrandId)].toNat ≤ wSliceRegisterStores_37.expiry) ∧
    (wSliceRegisterStores_37.wd = Width.d) ∧
    ((wSliceRegisterStores_36.body.slice (5 : SliceId)).st ≠ SliceSt.free) ∧
    ((wSliceRegisterStores_36.body.slice (5 : SliceId)).part = wSliceRegisterStores_37.part) ∧
    ((wSliceRegisterStores_36.body.slice (5 : SliceId)).asid = wSliceRegisterStores_37.asid) ∧
    ((wSliceRegisterStores_36.body.slice (5 : SliceId)).gen = wSliceRegisterStores_37.gen) ∧
    (255 < 256) ∧
    (wSliceRegisterStores_37.off.toNat = 65536 + 255 * 64) ∧
    ((wSliceRegisterStores_36.body.slice (5 : SliceId)).kind = (4 : Byte)) ∧
    ((wSliceRegisterStores_36.body.qp (5 : SliceId) 255).en = true) ∧
    (BitVec.getLsbD wSliceRegisterStores_37.data 2 = true) :=
  dec

def wSliceRegisterStores_38 : State := (sP 0x187F0 0x5 ({ (io1 4 3) with qps := [(255, { en := true })], mrs := [(63, { en := false })] }))
def wSliceRegisterStores_39 : Posted := (post 0x187F0 0x5 3 50)
theorem witness_SliceRegisterStores_11 :
    (List.find? (fun q => decide (q.strand = (0 : StrandId)) && decide (q.slice = (5 : SliceId))) wSliceRegisterStores_38.body.io.posted = some wSliceRegisterStores_39) ∧
    (wSliceRegisterStores_38.body.ctl.tod[halfOfStrand (0 : StrandId)].toNat ≤ wSliceRegisterStores_39.expiry) ∧
    (wSliceRegisterStores_39.wd = Width.d) ∧
    ((wSliceRegisterStores_38.body.slice (5 : SliceId)).st ≠ SliceSt.free) ∧
    ((wSliceRegisterStores_38.body.slice (5 : SliceId)).part = wSliceRegisterStores_39.part) ∧
    ((wSliceRegisterStores_38.body.slice (5 : SliceId)).asid = wSliceRegisterStores_39.asid) ∧
    ((wSliceRegisterStores_38.body.slice (5 : SliceId)).gen = wSliceRegisterStores_39.gen) ∧
    (63 < 64) ∧
    (wSliceRegisterStores_39.off.toNat = 98320 + 63 * 32) ∧
    ((wSliceRegisterStores_38.body.slice (5 : SliceId)).kind = (4 : Byte)) :=
  dec

def wSliceRegisterStores_40 : State := (sP 0x1000 0x5 (io1 1 4))
def wSliceRegisterStores_41 : Posted := (post 0x1000 0x5 3 50)
theorem witness_SliceRegisterStores_12 :
    (List.find? (fun q => decide (q.strand = (0 : StrandId)) && decide (q.slice = (5 : SliceId))) wSliceRegisterStores_40.body.io.posted = some wSliceRegisterStores_41) ∧
    (wSliceRegisterStores_40.body.ctl.tod[halfOfStrand (0 : StrandId)].toNat ≤ wSliceRegisterStores_41.expiry) ∧
    (wSliceRegisterStores_41.wd = Width.d) ∧
    (¬((wSliceRegisterStores_40.body.slice (5 : SliceId)).st ≠ SliceSt.free ∧
    (wSliceRegisterStores_40.body.slice (5 : SliceId)).part = wSliceRegisterStores_41.part ∧
      (wSliceRegisterStores_40.body.slice (5 : SliceId)).asid = wSliceRegisterStores_41.asid ∧
        (wSliceRegisterStores_40.body.slice (5 : SliceId)).gen = wSliceRegisterStores_41.gen)) ∧
    ((wSliceRegisterStores_40.body.strand (0 : StrandId)).fail = none) ∧
    (wSliceRegisterStores_41.off.toNat ≠ 0) :=
  dec

def wEngineWritesAndRecords_42 : State := (sW 0x30007D 3)
def wEngineWritesAndRecords_43 : TagWrite := (tw 0x30007D 3)
theorem witness_EngineWritesAndRecords_1 :
    (wEngineWritesAndRecords_42.body.io.writes = [wEngineWritesAndRecords_43]) ∧
    (wEngineWritesAndRecords_43.done = none) ∧
    ((wEngineWritesAndRecords_42.body.slice wEngineWritesAndRecords_43.slice).gen = wEngineWritesAndRecords_43.gen) ∧
    (wEngineWritesAndRecords_42.body.lineHeld (lineNo wEngineWritesAndRecords_43.pa) = false) ∧
    (wEngineWritesAndRecords_42.body.isDeparting (lineNo wEngineWritesAndRecords_43.pa) = false) ∧
    (wEngineWritesAndRecords_42.body.mirrored (lineAddr (lineNo wEngineWritesAndRecords_43.pa)) = none) ∧
    (wEngineWritesAndRecords_43.pa < 2 ^ 52) ∧
    (wEngineWritesAndRecords_43.pa % 128 + wEngineWritesAndRecords_43.bytes.length ≤ 128) ∧
    (Memory.wf unwritten wEngineWritesAndRecords_42.body.mem.cells = true) :=
  dec

def wEngineWritesAndRecords_44 : State := (sW 0x30007D 4)
def wEngineWritesAndRecords_45 : TagWrite := (tw 0x30007D 4)
theorem witness_EngineWritesAndRecords_2 :
    (wEngineWritesAndRecords_44.body.io.writes = [wEngineWritesAndRecords_45]) ∧
    (wEngineWritesAndRecords_45.done = none) ∧
    ((wEngineWritesAndRecords_44.body.slice wEngineWritesAndRecords_45.slice).gen ≠ wEngineWritesAndRecords_45.gen) ∧
    (wEngineWritesAndRecords_44.body.lineHeld (lineNo wEngineWritesAndRecords_45.pa) = false) :=
  dec

theorem witness_EngineWritesAndRecords_3 :
    (wEngineWritesAndRecords_42.body.io.writes = [wEngineWritesAndRecords_43]) ∧
    (wEngineWritesAndRecords_43.done = none) :=
  dec

def wEngineWritesAndRecords_46 : State := (sHr (some 3))
def wEngineWritesAndRecords_47 : HeldRec := (hr (some 3))
def wEngineWritesAndRecords_48 : Body := (hm (some 3)).1
def wEngineWritesAndRecords_49 : List Piece := (hm (some 3)).2
theorem witness_EngineWritesAndRecords_4 :
    (wEngineWritesAndRecords_46.body.engMap
    (wEngineWritesAndRecords_46.body.ownerOf (5 : SliceId) (wEngineWritesAndRecords_46.body.slice (5 : SliceId)).gen
      (wEngineWritesAndRecords_46.body.servingHub (5 : SliceId) (wEngineWritesAndRecords_46.body.slice (5 : SliceId)).part))
    needStore
    ((BitVec.toNat (wEngineWritesAndRecords_46.body.slice (5 : SliceId)).cq.base +
        (wEngineWritesAndRecords_46.body.slice (5 : SliceId)).cqNext.toNat % 2 ^ (wEngineWritesAndRecords_46.body.slice (5 : SliceId)).cq.log2n.toNat * 32) %
      2 ^ 64)
    32 =
  (wEngineWritesAndRecords_48, Except.ok wEngineWritesAndRecords_49)) ∧
    (wEngineWritesAndRecords_46.body.serving = true) ∧
    ((wEngineWritesAndRecords_46.body.slice (5 : SliceId)).waiting = [wEngineWritesAndRecords_47]) ∧
    (wEngineWritesAndRecords_47.src = RecSrc.job) ∧
    (wEngineWritesAndRecords_47.gen = some (wEngineWritesAndRecords_46.body.slice (5 : SliceId)).gen) ∧
    (wEngineWritesAndRecords_47.ctr = none) ∧
    ((wEngineWritesAndRecords_46.body.slice (5 : SliceId)).cq.en = true) ∧
    ((wEngineWritesAndRecords_46.body.slice (5 : SliceId)).cq.stopped = false) ∧
    (((wEngineWritesAndRecords_46.body.slice (5 : SliceId)).cqNext - (wEngineWritesAndRecords_46.body.slice (5 : SliceId)).cq.head).toNat <
  2 ^ (wEngineWritesAndRecords_46.body.slice (5 : SliceId)).cq.log2n.toNat) ∧
    (∀ g ∈ segsOf wEngineWritesAndRecords_49,
  wEngineWritesAndRecords_48.cutOff
      (wEngineWritesAndRecords_46.body.ownerOf (5 : SliceId) (wEngineWritesAndRecords_46.body.slice (5 : SliceId)).gen
          (wEngineWritesAndRecords_46.body.servingHub (5 : SliceId) (wEngineWritesAndRecords_46.body.slice (5 : SliceId)).part)).half
      g.pa =
    false) :=
  ⟨rfl, dec⟩

def wEngineWritesAndRecords_50 : State := (sHr (some 2))
def wEngineWritesAndRecords_51 : HeldRec := (hr (some 2))
theorem witness_EngineWritesAndRecords_5 :
    (∃ g, wEngineWritesAndRecords_51.gen = some g ∧ g ≠ (wEngineWritesAndRecords_50.body.slice (5 : SliceId)).gen) ∧
    (wEngineWritesAndRecords_50.body.serving = true) ∧
    ((wEngineWritesAndRecords_50.body.slice (5 : SliceId)).waiting = [wEngineWritesAndRecords_51]) ∧
    (wEngineWritesAndRecords_51.src = RecSrc.job) :=
  ⟨⟨_, rfl, dec⟩, dec⟩
end G7

namespace G8
def rnd (seed k : Nat) : Nat := ((seed * 6364136223846793005 + k * 1442695040888963407 + 12345) ^ 2 / 2 ^ 20) % 2 ^ 32
def desc (op seed : Nat) : List Byte := (List.range 64).map fun i => if i = 0 then BitVec.ofNat 8 op else if seed = 0 then 0 else if i = 1 then BitVec.ofNat 8 (rnd seed i % 4) else if i % 8 < 2 then BitVec.ofNat 8 (rnd seed i % 4) else 0
def eng (p : PoolKind) : EngineRef := { pool := p, hub := 0, n := 1 }
def jb (op seed : Nat) (st : JobSt) (us : Nat) : Job := { slice := 5, gen := 3, sqix := 3, desc := desc op seed, cost := 100, st := st, used := (List.range us).map fun i => { pool := poolOf (desc op seed), hub := 0, n := BitVec.toFin (BitVec.ofNat 2 i) }, rerun := us - 1, last := some (eng (poolOf (desc op seed))) }
def kd (op : Nat) : Byte := if op ≤ 3 then 2 else 3
def sl1 (op : Nat) : Slice := { st := .bound, kind := kd op, part := 0, asid := 0, gen := 3, limit := 9, weight := 2, target := 0, sq := { en := true, log2n := 4, head := 3, tail := 3 }, cq := { en := true, log2n := 4, head := 1, tail := 3 } }
def key0 (p : Byte) : KeyEntry := { seq := 0, live := true, ktype := 1, usage := 0x13, part := p, asid := 0, material := List.replicate 16 1 }
def sJ (op : Nat) (x : Slice) (j : Job) (p : Byte := 0) : State := let s := running atK
  { s with body := { s.body with io := { s.body.io with slices := [(5, x)], jobs := [j], keys := #v[[(1, key0 p)], []] }, ctl := { s.body.ctl with domains := Vector.replicate 232 { on := true } } } }
def sJob (op seed : Nat) : State := sJ op (sl1 op) (jb op seed (.running (eng (poolOf (desc op seed)))) 1)
def dk (op : Nat) : List Byte := (desc op 0).set 28 1
def sK (op : Nat) (p : Byte) : State := sJ op (sl1 op) { (jb op 0 (.running (eng (poolOf (desc op 0)))) 1) with desc := dk op } p
def res1 : JobResult := { status := 5, detail := 6, consumed := 7, produced := 8, check := 9 }
def sDone : State := sJ 1 { (sl1 1) with cq := {} } (jb 1 3 (.done res1) 2)
def sUs (op us : Nat) (st : JobSt) : State := sJ op (sl1 op) (jb op 0 st us)
def allDown (s : State) : State := { s with body := s.body.modIo fun i => { i with engines := i.engines.map fun g => { g with service := .outUntilProving } } }
def sNoJ : State := { sUs 1 0 .ready with body := (sUs 1 0 .ready).body.modIo fun i => { i with jobs := [] } }

def wJobsAreDecidedByTheirEngine_0 : State := (sJob 1 0)
def wJobsAreDecidedByTheirEngine_1 : EngineRef := (eng (poolOf (desc 1 0)))
def wJobsAreDecidedByTheirEngine_2 : Job := (jb 1 0 (.running (eng (poolOf (desc 1 0)))) 1)
def wJobsAreDecidedByTheirEngine_3 : Instr × ℕ := (.compress (eng (poolOf (desc 1 0))), 1)
theorem witness_JobsAreDecidedByTheirEngine_1 (h : Obligations.JobsAreDecidedByTheirEngine) : ∃ t, exec (wJobsAreDecidedByTheirEngine_3.1) (wJobsAreDecidedByTheirEngine_0) = .next t := by
  have p := ((((((((((h.1 wJobsAreDecidedByTheirEngine_0) wJobsAreDecidedByTheirEngine_1) wJobsAreDecidedByTheirEngine_2) wJobsAreDecidedByTheirEngine_3) (dec)) (dec)) (dec)) (dec)).1 (dec)) (dec))
  exact (let ⟨_, _, q⟩ := p; next_of q.1)

def wJobsAreDecidedByTheirEngine_4 : Instr × ℕ := (.decompress (eng (poolOf (desc 1 0))), 2)
theorem witness_JobsAreDecidedByTheirEngine_2 :
    (wJobsAreDecidedByTheirEngine_4 ∈
  [(Instr.compress wJobsAreDecidedByTheirEngine_1, 1), (Instr.decompress wJobsAreDecidedByTheirEngine_1, 2),
    (Instr.continueJob wJobsAreDecidedByTheirEngine_1, 3), (Instr.aesGcmEncrypt wJobsAreDecidedByTheirEngine_1, 16),
    (Instr.aesGcmDecrypt wJobsAreDecidedByTheirEngine_1, 17), (Instr.aesXtsEncrypt wJobsAreDecidedByTheirEngine_1, 18),
    (Instr.aesXtsDecrypt wJobsAreDecidedByTheirEngine_1, 19), (Instr.aesCbcEncrypt wJobsAreDecidedByTheirEngine_1, 20),
    (Instr.aesCbcDecrypt wJobsAreDecidedByTheirEngine_1, 21), (Instr.chachaEncrypt wJobsAreDecidedByTheirEngine_1, 22),
    (Instr.chachaDecrypt wJobsAreDecidedByTheirEngine_1, 23), (Instr.hash wJobsAreDecidedByTheirEngine_1, 24),
    (Instr.hmac wJobsAreDecidedByTheirEngine_1, 25), (Instr.keyGenerate wJobsAreDecidedByTheirEngine_1, 48),
    (Instr.keyImportClear wJobsAreDecidedByTheirEngine_1, 49), (Instr.keyWrap wJobsAreDecidedByTheirEngine_1, 50),
    (Instr.keyUnwrap wJobsAreDecidedByTheirEngine_1, 51), (Instr.keyDestroy wJobsAreDecidedByTheirEngine_1, 52),
    (Instr.keyPublic wJobsAreDecidedByTheirEngine_1, 53), (Instr.rsaSign wJobsAreDecidedByTheirEngine_1, 64),
    (Instr.rsaVerify wJobsAreDecidedByTheirEngine_1, 65), (Instr.rsaDecrypt wJobsAreDecidedByTheirEngine_1, 66),
    (Instr.rsaEncrypt wJobsAreDecidedByTheirEngine_1, 67), (Instr.ecdsaSign wJobsAreDecidedByTheirEngine_1, 72),
    (Instr.ecdsaVerify wJobsAreDecidedByTheirEngine_1, 73), (Instr.ed25519Sign wJobsAreDecidedByTheirEngine_1, 76),
    (Instr.ed25519Verify wJobsAreDecidedByTheirEngine_1, 77), (Instr.mlkemEncaps wJobsAreDecidedByTheirEngine_1, 80),
    (Instr.mlkemDecaps wJobsAreDecidedByTheirEngine_1, 81), (Instr.mldsaSign wJobsAreDecidedByTheirEngine_1, 84),
    (Instr.mldsaVerify wJobsAreDecidedByTheirEngine_1, 85)]) ∧
    (wJobsAreDecidedByTheirEngine_0.body.runningOn wJobsAreDecidedByTheirEngine_1 = some wJobsAreDecidedByTheirEngine_2) ∧
    (wJobsAreDecidedByTheirEngine_2.chan = none) ∧
    (wJobsAreDecidedByTheirEngine_0.body.serving = true) ∧
    (BitVec.toNat (dOp wJobsAreDecidedByTheirEngine_2.desc) ≠ wJobsAreDecidedByTheirEngine_4.2) :=
  dec

def wJobsAreDecidedByTheirEngine_5 : State := (sJob 16 0)
def wJobsAreDecidedByTheirEngine_6 : EngineRef := (eng (poolOf (desc 16 0)))
def wJobsAreDecidedByTheirEngine_7 : Job := (jb 16 0 (.running (eng (poolOf (desc 16 0)))) 1)
def wJobsAreDecidedByTheirEngine_8 : Instr × ℕ := (.aesGcmEncrypt (eng (poolOf (desc 16 0))), 16)
theorem witness_JobsAreDecidedByTheirEngine_3 (h : Obligations.JobsAreDecidedByTheirEngine) : ∃ t, exec (wJobsAreDecidedByTheirEngine_8.1) (wJobsAreDecidedByTheirEngine_5) = .next t := by
  have p := ((((((((((h.1 wJobsAreDecidedByTheirEngine_5) wJobsAreDecidedByTheirEngine_6) wJobsAreDecidedByTheirEngine_7) wJobsAreDecidedByTheirEngine_8) (dec)) (dec)) (dec)) (dec)).1 (dec)) (dec))
  exact (let ⟨_, _, q⟩ := p; next_of q.1)

def wJobsAreDecidedByTheirEngine_9 : State := (sK 52 1)
def wJobsAreDecidedByTheirEngine_10 : EngineRef := (eng (poolOf (desc 52 0)))
def wJobsAreDecidedByTheirEngine_11 : Job := (sK 52 1).body.io.jobs.headD (jb 0 0 .ready 1)
def wJobsAreDecidedByTheirEngine_12 : KeyEntry := (key0 1)
def wJobsAreDecidedByTheirEngine_13 : Instr × ℕ := (.keyDestroy (eng (poolOf (desc 52 0))), 52)
theorem witness_JobsAreDecidedByTheirEngine_4 :
    (wJobsAreDecidedByTheirEngine_9.body.runningOn wJobsAreDecidedByTheirEngine_10 = some wJobsAreDecidedByTheirEngine_11) ∧
    (wJobsAreDecidedByTheirEngine_11.chan = none) ∧
    (wJobsAreDecidedByTheirEngine_9.body.serving = true) ∧
    (dFlag wJobsAreDecidedByTheirEngine_11.desc 0 = false) ∧
    (dFlag wJobsAreDecidedByTheirEngine_11.desc 1 = false) ∧
    (wJobsAreDecidedByTheirEngine_9.body.keyOf wJobsAreDecidedByTheirEngine_10.hub (dKey wJobsAreDecidedByTheirEngine_11.desc) = some wJobsAreDecidedByTheirEngine_12) ∧
    (wJobsAreDecidedByTheirEngine_9.body.keyInUse wJobsAreDecidedByTheirEngine_11 = false) ∧
    (¬(wJobsAreDecidedByTheirEngine_12.part = (wJobsAreDecidedByTheirEngine_9.body.slice wJobsAreDecidedByTheirEngine_11.slice).part ∧
    wJobsAreDecidedByTheirEngine_12.asid = (wJobsAreDecidedByTheirEngine_9.body.slice wJobsAreDecidedByTheirEngine_11.slice).asid)) ∧
    (wJobsAreDecidedByTheirEngine_13 ∈
  [(Instr.keyWrap wJobsAreDecidedByTheirEngine_10, 50), (Instr.keyDestroy wJobsAreDecidedByTheirEngine_10, 52),
    (Instr.keyPublic wJobsAreDecidedByTheirEngine_10, 53)]) ∧
    (BitVec.toNat (dOp wJobsAreDecidedByTheirEngine_11.desc) = wJobsAreDecidedByTheirEngine_13.2) :=
  dec

def wJobsAreDecidedByTheirEngine_14 : State := (sK 0x34 0)
def wJobsAreDecidedByTheirEngine_15 : Job := (sK 0x34 0).body.io.jobs.headD (jb 0 0 .ready 1)
def wJobsAreDecidedByTheirEngine_16 : KeyEntry := (key0 0)
theorem witness_JobsAreDecidedByTheirEngine_5 :
    (wJobsAreDecidedByTheirEngine_14.body.runningOn (eng PoolKind.bulk) = some wJobsAreDecidedByTheirEngine_15) ∧
    (wJobsAreDecidedByTheirEngine_15.chan = none) ∧
    (wJobsAreDecidedByTheirEngine_14.body.serving = true) ∧
    (dFlag wJobsAreDecidedByTheirEngine_15.desc 0 = false) ∧
    (dFlag wJobsAreDecidedByTheirEngine_15.desc 1 = false) ∧
    (wJobsAreDecidedByTheirEngine_14.body.keyOf (eng PoolKind.bulk).hub (dKey wJobsAreDecidedByTheirEngine_15.desc) = some wJobsAreDecidedByTheirEngine_16) ∧
    (wJobsAreDecidedByTheirEngine_14.body.keyInUse wJobsAreDecidedByTheirEngine_15 = false) ∧
    (wJobsAreDecidedByTheirEngine_16.part = (wJobsAreDecidedByTheirEngine_14.body.slice wJobsAreDecidedByTheirEngine_15.slice).part) ∧
    (wJobsAreDecidedByTheirEngine_16.asid = (wJobsAreDecidedByTheirEngine_14.body.slice wJobsAreDecidedByTheirEngine_15.slice).asid) ∧
    (BitVec.toNat (dOp wJobsAreDecidedByTheirEngine_15.desc) = 52) :=
  dec

def wJobRecords_17 : Job := (jb 1 3 (.done res1) 2)
theorem witness_JobRecords_1 :
    (sDone.body.serving = true) ∧
    (List.find?
    (fun k =>
      decide (k.slice = (5 : SliceId)) &&
        match k.st with
        | JobSt.done r => true
        | x => false)
    sDone.body.io.jobs =
  some wJobRecords_17) ∧
    (wJobRecords_17.st = JobSt.done res1) ∧
    (wJobRecords_17.gen = (sDone.body.slice (5 : SliceId)).gen) ∧
    ((sDone.body.slice (5 : SliceId)).waiting = []) ∧
    ((sDone.body.slice (5 : SliceId)).cq.stopped = true ∨ (sDone.body.slice (5 : SliceId)).cq.en = false) :=
  dec

def wAttemptsRerunsAndRounds_18 : State := (sUs 1 1 (.running (eng (poolOf (desc 1 0)))))
theorem witness_AttemptsRerunsAndRounds_1 :
    (wAttemptsRerunsAndRounds_18.body.serving = true) ∧
    (wJobsAreDecidedByTheirEngine_2.gen = (wAttemptsRerunsAndRounds_18.body.slice wJobsAreDecidedByTheirEngine_2.slice).gen) ∧
    (wJobsAreDecidedByTheirEngine_2.chan = none) ∧
    (wAttemptsRerunsAndRounds_18.body.runningOn wJobsAreDecidedByTheirEngine_1 = some wJobsAreDecidedByTheirEngine_2) ∧
    (engExists wJobsAreDecidedByTheirEngine_1 = true) :=
  dec

def wAttemptsRerunsAndRounds_19 : State := (sUs 1 2 (.running (eng (poolOf (desc 1 0)))))
def wAttemptsRerunsAndRounds_20 : Job := (jb 1 0 (.running (eng (poolOf (desc 1 0)))) 2)
theorem witness_AttemptsRerunsAndRounds_2 :
    (wAttemptsRerunsAndRounds_19.body.serving = true) ∧
    (wAttemptsRerunsAndRounds_20.gen = (wAttemptsRerunsAndRounds_19.body.slice wAttemptsRerunsAndRounds_20.slice).gen) ∧
    (wAttemptsRerunsAndRounds_20.chan = none) ∧
    (wAttemptsRerunsAndRounds_19.body.runningOn wJobsAreDecidedByTheirEngine_1 = some wAttemptsRerunsAndRounds_20) ∧
    (wAttemptsRerunsAndRounds_20.used.length < 3) :=
  dec

def wAttemptsRerunsAndRounds_21 : State := (sUs 1 3 (.running (eng (poolOf (desc 1 0)))))
def wAttemptsRerunsAndRounds_22 : Job := (jb 1 0 (.running (eng (poolOf (desc 1 0)))) 3)
theorem witness_AttemptsRerunsAndRounds_3 :
    (wAttemptsRerunsAndRounds_21.body.serving = true) ∧
    (wAttemptsRerunsAndRounds_22.gen = (wAttemptsRerunsAndRounds_21.body.slice wAttemptsRerunsAndRounds_22.slice).gen) ∧
    (wAttemptsRerunsAndRounds_22.chan = none) ∧
    (wAttemptsRerunsAndRounds_21.body.runningOn wJobsAreDecidedByTheirEngine_1 = some wAttemptsRerunsAndRounds_22) ∧
    (3 ≤ wAttemptsRerunsAndRounds_22.used.length) :=
  dec

def wAttemptsRerunsAndRounds_23 : State := (allDown (sUs 1 2 .rerun))
def wAttemptsRerunsAndRounds_24 : Job := (jb 1 0 .rerun 2)
theorem witness_AttemptsRerunsAndRounds_4 :
    (wAttemptsRerunsAndRounds_23.body.serving = true) ∧
    (wAttemptsRerunsAndRounds_24.gen = (wAttemptsRerunsAndRounds_23.body.slice wAttemptsRerunsAndRounds_24.slice).gen) ∧
    (wAttemptsRerunsAndRounds_24.chan = none) ∧
    (List.find? (fun x => decide (x.slice = (5 : SliceId)) && decide (x.st = JobSt.rerun)) wAttemptsRerunsAndRounds_23.body.io.jobs = some wAttemptsRerunsAndRounds_24) ∧
    (∀ (h : HubId), ∀ g ∈ enginesOf h (poolOf wAttemptsRerunsAndRounds_24.desc), g ∉ wAttemptsRerunsAndRounds_24.used → wAttemptsRerunsAndRounds_23.body.engUp g = false) :=
  dec

def wAttemptsRerunsAndRounds_25 : State := (sUs 1 2 .rerun)
theorem witness_AttemptsRerunsAndRounds_5 :
    (∃
  g ∈
    enginesOf (wAttemptsRerunsAndRounds_25.body.servingHub (5 : SliceId) (wAttemptsRerunsAndRounds_25.body.slice (5 : SliceId)).part)
      (poolOf wAttemptsRerunsAndRounds_24.desc),
  (wAttemptsRerunsAndRounds_25.body.slice (5 : SliceId)).admits g = true ∧
    wAttemptsRerunsAndRounds_25.body.engUp g = true ∧ g ∉ wAttemptsRerunsAndRounds_24.used ∧ wAttemptsRerunsAndRounds_25.body.runningOn g = none) ∧
    (wAttemptsRerunsAndRounds_25.body.serving = true) ∧
    (wAttemptsRerunsAndRounds_24.gen = (wAttemptsRerunsAndRounds_25.body.slice wAttemptsRerunsAndRounds_24.slice).gen) ∧
    (wAttemptsRerunsAndRounds_24.chan = none) ∧
    (List.find? (fun x => decide (x.slice = (5 : SliceId)) && decide (x.st = JobSt.rerun)) wAttemptsRerunsAndRounds_25.body.io.jobs = some wAttemptsRerunsAndRounds_24) ∧
    (wAttemptsRerunsAndRounds_24.slice = (5 : SliceId)) :=
  ⟨dec, dec⟩

def wAttemptsRerunsAndRounds_26 : State := (sUs 1 0 .ready)
def wAttemptsRerunsAndRounds_27 : Job := (jb 1 0 .ready 0)
theorem witness_AttemptsRerunsAndRounds_6 :
    (∀ (sl : SliceId), (wAttemptsRerunsAndRounds_26.body.slice sl).sq.head = (wAttemptsRerunsAndRounds_26.body.slice sl).sq.tail) ∧
    (wAttemptsRerunsAndRounds_26.body.serving = true) ∧
    (wAttemptsRerunsAndRounds_26.body.io.jobs = [wAttemptsRerunsAndRounds_27]) ∧
    (wAttemptsRerunsAndRounds_27.st = JobSt.ready) ∧
    (poolOf wAttemptsRerunsAndRounds_27.desc = PoolKind.comp) ∧
    ((tGet wAttemptsRerunsAndRounds_26.body.io.slices ↑wAttemptsRerunsAndRounds_27.slice).isSome = true) ∧
    (wAttemptsRerunsAndRounds_26.body.servingHub wAttemptsRerunsAndRounds_27.slice (wAttemptsRerunsAndRounds_26.body.slice wAttemptsRerunsAndRounds_27.slice).part =
  (0 : HubId)) ∧
    (wAttemptsRerunsAndRounds_26.body.workHeld wAttemptsRerunsAndRounds_27.slice (wAttemptsRerunsAndRounds_26.body.slice wAttemptsRerunsAndRounds_27.slice).part = false) ∧
    (List.filter (fun e => (wAttemptsRerunsAndRounds_26.body.slice wAttemptsRerunsAndRounds_27.slice).admits e && wAttemptsRerunsAndRounds_26.body.engUp e)
    (enginesOf (0 : HubId) PoolKind.comp) ≠
  []) :=
  ⟨one_slice rfl (fun x => x.sq.head = x.sq.tail) rfl rfl, dec⟩

theorem witness_AttemptsRerunsAndRounds_7 :
    (∀ (sl : SliceId), (sNoJ.body.slice sl).sq.head = (sNoJ.body.slice sl).sq.tail) ∧
    (sNoJ.body.serving = true) ∧
    (sNoJ.body.io.jobs = []) :=
  ⟨one_slice rfl (fun x => x.sq.head = x.sq.tail) rfl rfl, dec⟩

def key8 (kt : Nat) : KeyEntry := { seq := 0, live := true, ktype := BitVec.ofNat 8 kt, usage := 0x1F, part := 0, asid := 0, material := List.replicate ((keyLen (BitVec.ofNat 8 kt)).getD 16) 3 }
/-- A descriptor: source at 0x300000, destination at 0x300400, key handle 1. -/
def d8 (op fl par slen dlen aux x48 x56 : Nat) : List Byte :=
  pack [(1, op), (1, fl), (2, par), (4, slen), (8, 0x300000), (8, 0x300400), (4, dlen), (4, 1), (8, aux), (8, 0), (8, x48), (8, x56)]
def j8 (d : List Byte) : Job :=
  { slice := 5, gen := 3, sqix := 3, desc := d, cost := 100, st := .running (eng (poolOf d)), used := [eng (poolOf d)], rerun := 0
    last := some (eng (poolOf d)) }
def sl8 (d : List Byte) : Slice :=
  { st := .bound, kind := if (dOp d).toNat ≤ 3 then 2 else 3, part := 0, asid := 0, gen := 3, limit := 9, weight := 2, target := 0 }
/-- An engine of hub 0 runs the job of a descriptor, whose slice owns a key; the line at 0x300000 holds `src`. -/
def s8 (d : List Byte) (kt : Nat) (src : LineData) : State :=
  let s := holding (running atK) [0x300000, 0x300100] src
  { s with body := { s.body with
      io := { s.body.io with slices := [(5, sl8 d)], jobs := [j8 d], keys := #v[[(1, key8 kt)], []], parts := [(0, { kquota := 9 })] }
      ctl := { s.body.ctl with domains := Vector.replicate 232 { on := true } } } }
def e8 (d : List Byte) : EngineRef := eng (poolOf d)
def ok8 {α : Type} (f : Eng α) : Bool := match f.2 with | .ok _ => true | .error _ => false
theorem wrote {f : Eng Unit} (h : ok8 f = true) : f = (f.1, .ok ()) := by
  obtain ⟨b, r⟩ := f
  cases r with
  | ok => rfl
  | error => cases h
def got {α : Type} (f : Eng α) (d : α) : α := match f.2 with | .ok x => x | .error _ => d
theorem read {α : Type} {f : Eng α} (d : α) (h : ok8 f = true) : f = (f.1, .ok (got f d)) := by
  obtain ⟨b, r⟩ := f
  cases r with
  | ok => rfl
  | error => cases h
def none8 : SealedRec := { slice := 5, gen := 3, bytes := [], op := 0, param := 0, prev := [], part := [], written := 0, fin := false }
def dHash : List Byte := d8 0x18 4 1 3 32 0 0 0
theorem witness_JobsAreDecidedByTheirEngine_hash (h : Obligations.JobsAreDecidedByTheirEngine) :
    ∃ t, exec (.hash (e8 dHash)) (s8 dHash 4 77) = .next t :=
  next_of <| ((h.2.1 _ (e8 dHash) (j8 dHash) _ _ _ _ dec rfl dec dec rfl rfl).2.2.1 (.hash _, 0x18) dec dec dec (key8 4) none8
    _ _ _ (fun h => absurd h (by decide))
    (by unfold Resumed; rw [if_neg (by decide +kernel)]; exact ⟨rfl, rfl, rfl, rfl⟩) (read [] dec)).1 dec dec dec _ (wrote dec)
def dSave : List Byte := d8 0x19 0 3 3 0 0x300100 0 0
theorem witness_JobsAreDecidedByTheirEngine_hmac (h : Obligations.JobsAreDecidedByTheirEngine) :
    ∃ t, exec (.hmac (e8 dSave)) (s8 dSave 4 77) = .next t :=
  next_of <| ((h.2.1 _ (e8 dSave) (j8 dSave) _ _ _ _ dec rfl dec dec rfl rfl).2.2.1 (.hmac _, 0x19) dec dec dec (key8 4) none8
    _ _ _ (fun _ => ⟨dec, dec, dec, dec, by rintro _ ⟨⟩; decide +kernel⟩)
    (by unfold Resumed; rw [if_neg (by decide +kernel)]; exact ⟨rfl, rfl, rfl, rfl⟩) (read [] dec)).2 dec _ (wrote dec)
def dInfl : List Byte := d8 2 4 0 3 16 0 0 0
theorem witness_JobsAreDecidedByTheirEngine_decompress (h : Obligations.JobsAreDecidedByTheirEngine) :
    ∃ t, exec (.decompress (e8 dInfl)) (s8 dInfl 4 0x44B) = .next t :=
  next_of <| ((h.2.1 _ (e8 dInfl) (j8 dInfl) _ _ _ _ dec rfl dec dec rfl rfl).1 (.decompress _, 2) dec dec (fun h => absurd h (by decide +kernel)) (fun _ => dec) none8
    _ _ _ (by unfold Resumed; rw [if_neg (by decide +kernel)]; exact ⟨rfl, rfl, rfl, rfl⟩) (read [] dec) _ (wrote dec)).1 _ rfl
def dCbc : List Byte := d8 0x14 0 0 16 16 0x300100 0 0
theorem witness_JobsAreDecidedByTheirEngine_aesCbcEncrypt (h : Obligations.JobsAreDecidedByTheirEngine) :
    ∃ t, exec (.aesCbcEncrypt (e8 dCbc)) (s8 dCbc 2 0x44B) = .next t :=
  next_of <| ((h.2.1 _ (e8 dCbc) (j8 dCbc) _ _ _ _ dec rfl dec dec rfl rfl).2.1 (.aesCbcEncrypt _, 0x14) dec dec (fun h => absurd h (by decide)) dec (fun h => absurd h (by decide)) (fun _ => dec) dec
    (key8 2) _ _ _ _ _ _ ⟨dec, dec, dec, dec, by rintro _ ⟨⟩; decide +kernel⟩ (read [] dec) (read [] dec) (read [] dec)).1 _ rfl dec _ (wrote dec)
/-- A new entry: with quota left and a free slot, some handle, and nothing but the key table and the free-value counter changes. -/
theorem newKey_some {b : Body} {p : Byte} (kt us : Byte) (m : List Byte) (hq : ¬(b.part p).kquota.toNat ≤ b.keysHeld 0 p)
    (hs : b.isSplit = false) (hf : tGet (b.keyTable 0) 2 = none) :
    ∃ x k e, b.newKey 0 kt us p 0 m = (.ok x, (b.putKey 0 k e).spend) := by
  unfold Body.newKey
  extract_lets t free k0
  have h2 : free 2 = true := by simp [free, hs, t, hf]
  clear_value free
  rw [if_neg hq]
  rcases ho : (if free k0 = true then some k0 else (List.range 65536).find? free) with _ | k
  · rw [ite_eq_iff] at ho
    rcases ho with ⟨_, hn⟩ | ⟨_, hn⟩
    · cases hn
    · exact absurd h2 (List.find?_eq_none.mp hn 2 (List.mem_range.mpr (by omega)))
  · exact ⟨_, _, _, rfl⟩
def dGen : List Byte := d8 0x30 0 0x304 20 4 0 0 0
theorem witness_JobsAreDecidedByTheirEngine_keyGenerate (h : Obligations.JobsAreDecidedByTheirEngine) :
    ∃ t, exec (.keyGenerate (e8 dGen)) (s8 dGen 1 0) = .next t := by
  obtain ⟨x, k, e, hk⟩ := newKey_some (b := (s8 dGen 1 0).body.spend) (p := 0) 4 3 (freeBytes (s8 dGen 1 0).body.freeCtr 20) dec dec dec
  exact next_of <| (h.2.1 (s8 dGen 1 0) (e8 dGen) (j8 dGen) _ _ _ _ dec rfl dec dec rfl rfl).2.2.2.1 dec x _ dec hk (Nat.le_refl 4) _
    (wrote (by with_unfolding_all rfl))
def dImp : List Byte := d8 0x31 0 0x301 16 4 0 0 0
theorem witness_JobsAreDecidedByTheirEngine_keyImportClear (h : Obligations.JobsAreDecidedByTheirEngine) :
    ∃ t, exec (.keyImportClear (e8 dImp)) (s8 dImp 1 0) = .next t := by
  let r := (s8 dImp 1 0).body.areaRead ((s8 dImp 1 0).body.jobOwner (e8 dImp) (j8 dImp)) [(0x300000, 16)]
  obtain ⟨x, k, e, hk⟩ := newKey_some (b := r.1) (p := 0) 1 3 (got r []) dec dec dec
  exact next_of <| (h.2.1 (s8 dImp 1 0) (e8 dImp) (j8 dImp) _ _ _ _ dec rfl dec dec rfl rfl).2.2.2.2.1 dec r.1 _ (read [] dec) dec x _ dec hk
    (Nat.le_refl 4) _ (wrote (by with_unfolding_all rfl))
def dDes : List Byte := d8 0x34 0 0 0 0 0 0 0
theorem witness_JobsAreDecidedByTheirEngine_keyDestroy (h : Obligations.JobsAreDecidedByTheirEngine) :
    ∃ t, exec (.keyDestroy (e8 dDes)) (s8 dDes 1 0) = .next t :=
  next_of <| (h.2.1 _ (e8 dDes) (j8 dDes) _ _ _ _ dec rfl dec dec rfl rfl).2.2.2.2.2.2.2.1 dec dec (key8 1) ⟨dec, dec, dec, dec, by rintro _ ⟨⟩⟩
/-- What the job's engine finds as its key operand, and reads of its source. -/
def pk8 (d : List Byte) (kt : Nat) : Step (Nat × List Byte) := (s8 d kt 0).body.pkOperand ((s8 d kt 0).body.jobOwner (e8 d) (j8 d)) d
def src8 (d : List Byte) (kt : Nat) : Eng (List Byte) := (pk8 d kt).1.areaRead ((s8 d kt 0).body.jobOwner (e8 d) (j8 d)) [(0x300000, 5)]
def dVer : List Byte := d8 0x49 0 0x100 5 0 0 0 0
theorem witness_JobsAreDecidedByTheirEngine_ecdsaVerify (h : Obligations.JobsAreDecidedByTheirEngine) :
    ∃ t, exec (.ecdsaVerify (e8 dVer)) (s8 dVer 12 0) = .next t :=
  next_of <| ((h.2.1 (s8 dVer 12 0) (e8 dVer) (j8 dVer) _ _ _ _ dec rfl dec dec rfl rfl).2.2.2.2.2.2.2.2.2 (pk8 dVer 12).1 (src8 dVer 12).1 12
    (key8 12).material _ (by rfl) (read [] dec)).2.1 (.ecdsaVerify (e8 dVer), 0x49) dec dec
/-- Padding to a length, byte for byte, so that its spine evaluates whatever the bytes are. -/
theorem padTo_map (n : Nat) (l : List Byte) : padTo n l = (List.range n).map fun i => l.getD i 0 := by
  apply List.ext_getElem
  · simp [padTo]; omega
  · intro i h1 h2
    simp only [List.length_map, List.length_range] at h2
    simp only [padTo, List.getElem_append, List.length_take, List.getElem_take, List.getElem_replicate, List.getElem_map, List.getElem_range, List.getD_eq_getElem?_getD]
    split
    · rw [List.getElem?_eq_getElem (by omega)]; rfl
    · rw [List.getElem?_eq_none (by omega)]; rfl
def dSign : List Byte := d8 0x4C 0 0 5 64 0 0 0
theorem witness_JobsAreDecidedByTheirEngine_ed25519Sign (h : Obligations.JobsAreDecidedByTheirEngine) :
    ∃ t, exec (.ed25519Sign (e8 dSign)) (s8 dSign 14 0) = .next t :=
  next_of <| ((h.2.1 (s8 dSign 14 0) (e8 dSign) (j8 dSign) _ _ _ _ dec rfl dec dec rfl rfl).2.2.2.2.2.2.2.2.2 (pk8 dSign 14).1 (src8 dSign 14).1 14
    (key8 14).material _ (by rfl) (read [] dec)).1
    (.ed25519Sign (e8 dSign), 0x4C) dec dec (fun h => absurd h (by decide)) (fun _ => dec) dec (by rw [padTo_map]; decide +kernel) _
    (wrote (by rw [padTo_map]; decide +kernel))
def dCaps : List Byte := d8 0x51 0 0x300 5 4 0 0 0
theorem witness_JobsAreDecidedByTheirEngine_mlkemDecaps (h : Obligations.JobsAreDecidedByTheirEngine) :
    ∃ t, exec (.mlkemDecaps (e8 dCaps)) (s8 dCaps 16 0) = .next t := by
  have p := ((h.2.1 (s8 dCaps 16 0) (e8 dCaps) (j8 dCaps) _ _ _ _ dec rfl dec dec rfl rfl).2.2.2.2.2.2.2.2.2 (pk8 dCaps 16).1 (src8 dCaps 16).1 16
    (key8 16).material _ (by rfl) (read [] dec)).2.2.2 dec
  obtain ⟨x, k, e, hk⟩ := newKey_some (b := (src8 dCaps 16).1.spend) (p := 0) 2 3 _ dec dec dec
  exact next_of <| p x _ dec hk (Nat.le_refl 4) _ (wrote (by with_unfolding_all rfl))
end G8

namespace G9
/-- All domains on. -/
def lit (s : State) : State := { s with body := s.body.modCtl fun c => { c with domains := Vector.replicate 232 { on := true } } }
/-- A Start Record. -/
def srec (addr tag image prio fl stream path r23 cs : Nat) : List Byte :=
  leBytes 8 addr ++ leBytes 8 tag ++ leBytes 2 image ++ leBytes 1 prio ++ leBytes 1 fl ++ leBytes 2 stream ++ leBytes 1 path ++ leBytes 1 r23 ++ leBytes 2 cs ++ List.replicate 6 0
def chSlice : Slice := { st := .bound, kind := 1, part := 0, asid := 0, gen := 3, limit := 9, weight := 2, sq := { en := true, base := 0x300000, log2n := 4, head := 16, tail := 17 }, cq := {} }
def path1 : Path := { port := 9, proto := 1, target := 7, st := 1, unit := 0, probed := true }
def sub1 : Subch := { kind := 1, blksz := 512, paths := [path1] }
def chState (x : Slice) (d : List Byte) (subs : Table Subch) : State :=
  let s := lit (holding (running atK) [0x300000] (lineOf (padTo 128 d)))
  { s with body := s.body.modIo fun i => { i with slices := [(5, x)], subchs := subs, octets := i.octets.set 1 { mode := 4 }, ports := [(9, { st := .up })] } }
def sSt (d : List Byte) : State := chState chSlice d [(5 * 4096 + 2, sub1)]
def rd (s : State) : Body := (s.body.readEntryAtHead 5 32).2
def ixOf (b : Body) : Nat := (b.freeEntry 0).getD 0

def wChannelStarts_0 : State := (sSt (srec 0x400000 99 2 3 8 0 0 0 0))
def wChannelStarts_1 : Body := (rd (sSt (srec 0x400000 99 2 3 8 0 0 0 0)))
def wChannelStarts_2 : HubId × Fin 16 := (0, 5)
def wChannelStarts_3 : List Byte := (srec 0x400000 99 2 3 8 0 0 0 0)
theorem witness_ChannelStarts_1 :
    (wChannelStarts_0.body.readEntryAtHead (5 : SliceId) 32 = (some wChannelStarts_3, wChannelStarts_1)) ∧
    (wChannelStarts_0.body.serving = true) ∧
    (wChannelStarts_0.body.ringEngine (5 : SliceId) = some wChannelStarts_2) ∧
    (wChannelStarts_0.body.poolNext
    (wChannelStarts_0.body.io.chanPools[chanIx wChannelStarts_2.1 wChannelStarts_2.2].join
      (List.filter (wChannelStarts_0.body.startReady wChannelStarts_2) (sliceIds wChannelStarts_0.body)))
    (fun x => 1) (List.filter (wChannelStarts_0.body.startReady wChannelStarts_2) (sliceIds wChannelStarts_0.body)) =
  some (5 : SliceId)) ∧
    ((wChannelStarts_1.slice (5 : SliceId)).waiting = []) ∧
    ((wChannelStarts_1.slice (5 : SliceId)).cq.stopped = true ∨ (wChannelStarts_1.slice (5 : SliceId)).cq.en = false) ∧
    (wChannelStarts_3.getD 19 (0 : Byte) &&& (248 : Byte) ≠ (0 : Byte) ∨
  wChannelStarts_3.getD 23 (0 : Byte) ≠ (0 : Byte) ∨
    field wChannelStarts_3 28 4 ≠ 0 ∨
      BitVec.getLsbD (wChannelStarts_3.getD 19 (0 : Byte)) 2 = false ∧ field wChannelStarts_3 20 2 ≠ 0 ∨
        BitVec.getLsbD (wChannelStarts_3.getD 19 (0 : Byte)) 1 = false ∧ BitVec.toNat (wChannelStarts_3.getD 22 (0 : Byte)) ≠ 0) :=
  ⟨rfl, dec⟩

def wChannelStarts_4 : State := (sSt (srec 0x400000 99 2 8 0 0 0 0 0))
def wChannelStarts_5 : Body := (rd (sSt (srec 0x400000 99 2 8 0 0 0 0 0)))
def wChannelStarts_6 : List Byte := (srec 0x400000 99 2 8 0 0 0 0 0)
theorem witness_ChannelStarts_2 :
    (wChannelStarts_4.body.readEntryAtHead (5 : SliceId) 32 = (some wChannelStarts_6, wChannelStarts_5)) ∧
    (wChannelStarts_4.body.serving = true) ∧
    (wChannelStarts_4.body.ringEngine (5 : SliceId) = some wChannelStarts_2) ∧
    (wChannelStarts_4.body.poolNext
    (wChannelStarts_4.body.io.chanPools[chanIx wChannelStarts_2.1 wChannelStarts_2.2].join
      (List.filter (wChannelStarts_4.body.startReady wChannelStarts_2) (sliceIds wChannelStarts_4.body)))
    (fun x => 1) (List.filter (wChannelStarts_4.body.startReady wChannelStarts_2) (sliceIds wChannelStarts_4.body)) =
  some (5 : SliceId)) ∧
    ((wChannelStarts_5.slice (5 : SliceId)).waiting = []) ∧
    ((wChannelStarts_5.slice (5 : SliceId)).cq.stopped = true ∨ (wChannelStarts_5.slice (5 : SliceId)).cq.en = false) ∧
    (¬(wChannelStarts_6.getD 19 (0 : Byte) &&& (248 : Byte) ≠ (0 : Byte) ∨
    wChannelStarts_6.getD 23 (0 : Byte) ≠ (0 : Byte) ∨
      field wChannelStarts_6 28 4 ≠ 0 ∨
        BitVec.getLsbD (wChannelStarts_6.getD 19 (0 : Byte)) 2 = false ∧ field wChannelStarts_6 20 2 ≠ 0 ∨
          BitVec.getLsbD (wChannelStarts_6.getD 19 (0 : Byte)) 1 = false ∧ BitVec.toNat (wChannelStarts_6.getD 22 (0 : Byte)) ≠ 0)) ∧
    (7 < BitVec.toNat (wChannelStarts_6.getD 18 (0 : Byte))) :=
  ⟨rfl, dec⟩

def wChannelStarts_7 : State := (sSt (srec 0x400008 99 2 7 0 0 0 0 0))
def wChannelStarts_8 : Body := (rd (sSt (srec 0x400008 99 2 7 0 0 0 0 0)))
def wChannelStarts_9 : List Byte := (srec 0x400008 99 2 7 0 0 0 0 0)
theorem witness_ChannelStarts_3 :
    (wChannelStarts_7.body.readEntryAtHead (5 : SliceId) 32 = (some wChannelStarts_9, wChannelStarts_8)) ∧
    (wChannelStarts_7.body.serving = true) ∧
    (wChannelStarts_7.body.ringEngine (5 : SliceId) = some wChannelStarts_2) ∧
    (wChannelStarts_7.body.poolNext
    (wChannelStarts_7.body.io.chanPools[chanIx wChannelStarts_2.1 wChannelStarts_2.2].join
      (List.filter (wChannelStarts_7.body.startReady wChannelStarts_2) (sliceIds wChannelStarts_7.body)))
    (fun x => 1) (List.filter (wChannelStarts_7.body.startReady wChannelStarts_2) (sliceIds wChannelStarts_7.body)) =
  some (5 : SliceId)) ∧
    ((wChannelStarts_8.slice (5 : SliceId)).waiting = []) ∧
    ((wChannelStarts_8.slice (5 : SliceId)).cq.stopped = true ∨ (wChannelStarts_8.slice (5 : SliceId)).cq.en = false) ∧
    (¬(wChannelStarts_9.getD 19 (0 : Byte) &&& (248 : Byte) ≠ (0 : Byte) ∨
    wChannelStarts_9.getD 23 (0 : Byte) ≠ (0 : Byte) ∨
      field wChannelStarts_9 28 4 ≠ 0 ∨
        BitVec.getLsbD (wChannelStarts_9.getD 19 (0 : Byte)) 2 = false ∧ field wChannelStarts_9 20 2 ≠ 0 ∨
          BitVec.getLsbD (wChannelStarts_9.getD 19 (0 : Byte)) 1 = false ∧ BitVec.toNat (wChannelStarts_9.getD 22 (0 : Byte)) ≠ 0)) ∧
    (¬7 < BitVec.toNat (wChannelStarts_9.getD 18 (0 : Byte))) ∧
    (field wChannelStarts_9 0 8 % 16 ≠ 0) :=
  ⟨rfl, dec⟩

def wChannelStarts_10 : State := (sSt (srec 0x400000 99 3 3 0 0 0 0 0))
def wChannelStarts_11 : Body := (rd (sSt (srec 0x400000 99 3 3 0 0 0 0 0)))
def wChannelStarts_12 : List Byte := (srec 0x400000 99 3 3 0 0 0 0 0)
theorem witness_ChannelStarts_4 :
    (wChannelStarts_10.body.readEntryAtHead (5 : SliceId) 32 = (some wChannelStarts_12, wChannelStarts_11)) ∧
    (wChannelStarts_10.body.serving = true) ∧
    (wChannelStarts_10.body.ringEngine (5 : SliceId) = some wChannelStarts_2) ∧
    (wChannelStarts_10.body.poolNext
    (wChannelStarts_10.body.io.chanPools[chanIx wChannelStarts_2.1 wChannelStarts_2.2].join
      (List.filter (wChannelStarts_10.body.startReady wChannelStarts_2) (sliceIds wChannelStarts_10.body)))
    (fun x => 1) (List.filter (wChannelStarts_10.body.startReady wChannelStarts_2) (sliceIds wChannelStarts_10.body)) =
  some (5 : SliceId)) ∧
    ((wChannelStarts_11.slice (5 : SliceId)).waiting = []) ∧
    ((wChannelStarts_11.slice (5 : SliceId)).cq.stopped = true ∨ (wChannelStarts_11.slice (5 : SliceId)).cq.en = false) ∧
    (¬(wChannelStarts_12.getD 19 (0 : Byte) &&& (248 : Byte) ≠ (0 : Byte) ∨
    wChannelStarts_12.getD 23 (0 : Byte) ≠ (0 : Byte) ∨
      field wChannelStarts_12 28 4 ≠ 0 ∨
        BitVec.getLsbD (wChannelStarts_12.getD 19 (0 : Byte)) 2 = false ∧ field wChannelStarts_12 20 2 ≠ 0 ∨
          BitVec.getLsbD (wChannelStarts_12.getD 19 (0 : Byte)) 1 = false ∧ BitVec.toNat (wChannelStarts_12.getD 22 (0 : Byte)) ≠ 0)) ∧
    (¬7 < BitVec.toNat (wChannelStarts_12.getD 18 (0 : Byte))) ∧
    (¬field wChannelStarts_12 0 8 % 16 ≠ 0) ∧
    (4096 ≤ field wChannelStarts_12 16 2 ∨ wChannelStarts_11.subch (subchKey (↑(5 : SliceId)) (field wChannelStarts_12 16 2)) = none) :=
  ⟨rfl, dec⟩

def wChannelStarts_13 : State := (sSt (srec 0x400000 99 2 3 2 0 1 0 0))
def wChannelStarts_14 : Body := (rd (sSt (srec 0x400000 99 2 3 2 0 1 0 0)))
def wChannelStarts_15 : List Byte := (srec 0x400000 99 2 3 2 0 1 0 0)
theorem witness_ChannelStarts_5 :
    (wChannelStarts_13.body.readEntryAtHead (5 : SliceId) 32 = (some wChannelStarts_15, wChannelStarts_14)) ∧
    (wChannelStarts_13.body.serving = true) ∧
    (wChannelStarts_13.body.ringEngine (5 : SliceId) = some wChannelStarts_2) ∧
    (wChannelStarts_13.body.poolNext
    (wChannelStarts_13.body.io.chanPools[chanIx wChannelStarts_2.1 wChannelStarts_2.2].join
      (List.filter (wChannelStarts_13.body.startReady wChannelStarts_2) (sliceIds wChannelStarts_13.body)))
    (fun x => 1) (List.filter (wChannelStarts_13.body.startReady wChannelStarts_2) (sliceIds wChannelStarts_13.body)) =
  some (5 : SliceId)) ∧
    ((wChannelStarts_14.slice (5 : SliceId)).waiting = []) ∧
    ((wChannelStarts_14.slice (5 : SliceId)).cq.stopped = true ∨ (wChannelStarts_14.slice (5 : SliceId)).cq.en = false) ∧
    (¬(wChannelStarts_15.getD 19 (0 : Byte) &&& (248 : Byte) ≠ (0 : Byte) ∨
    wChannelStarts_15.getD 23 (0 : Byte) ≠ (0 : Byte) ∨
      field wChannelStarts_15 28 4 ≠ 0 ∨
        BitVec.getLsbD (wChannelStarts_15.getD 19 (0 : Byte)) 2 = false ∧ field wChannelStarts_15 20 2 ≠ 0 ∨
          BitVec.getLsbD (wChannelStarts_15.getD 19 (0 : Byte)) 1 = false ∧ BitVec.toNat (wChannelStarts_15.getD 22 (0 : Byte)) ≠ 0)) ∧
    (¬7 < BitVec.toNat (wChannelStarts_15.getD 18 (0 : Byte))) ∧
    (¬field wChannelStarts_15 0 8 % 16 ≠ 0) ∧
    (¬(4096 ≤ field wChannelStarts_15 16 2 ∨ wChannelStarts_14.subch (subchKey (↑(5 : SliceId)) (field wChannelStarts_15 16 2)) = none)) ∧
    (wChannelStarts_14.subch (subchKey (↑(5 : SliceId)) (field wChannelStarts_15 16 2)) = some sub1) ∧
    (BitVec.getLsbD (wChannelStarts_15.getD 19 (0 : Byte)) 1 = true) ∧
    (sub1.paths.length ≤ BitVec.toNat (wChannelStarts_15.getD 22 (0 : Byte))) :=
  ⟨rfl, dec⟩

def wChannelStarts_16 : State := (sSt (srec 0x400000 99 2 3 4 1 0 0 0))
def wChannelStarts_17 : Body := (rd (sSt (srec 0x400000 99 2 3 4 1 0 0 0)))
def wChannelStarts_18 : List Byte := (srec 0x400000 99 2 3 4 1 0 0 0)
theorem witness_ChannelStarts_6 :
    (wChannelStarts_16.body.readEntryAtHead (5 : SliceId) 32 = (some wChannelStarts_18, wChannelStarts_17)) ∧
    (wChannelStarts_16.body.serving = true) ∧
    (wChannelStarts_16.body.ringEngine (5 : SliceId) = some wChannelStarts_2) ∧
    (wChannelStarts_16.body.poolNext
    (wChannelStarts_16.body.io.chanPools[chanIx wChannelStarts_2.1 wChannelStarts_2.2].join
      (List.filter (wChannelStarts_16.body.startReady wChannelStarts_2) (sliceIds wChannelStarts_16.body)))
    (fun x => 1) (List.filter (wChannelStarts_16.body.startReady wChannelStarts_2) (sliceIds wChannelStarts_16.body)) =
  some (5 : SliceId)) ∧
    ((wChannelStarts_17.slice (5 : SliceId)).waiting = []) ∧
    ((wChannelStarts_17.slice (5 : SliceId)).cq.stopped = true ∨ (wChannelStarts_17.slice (5 : SliceId)).cq.en = false) ∧
    (¬(wChannelStarts_18.getD 19 (0 : Byte) &&& (248 : Byte) ≠ (0 : Byte) ∨
    wChannelStarts_18.getD 23 (0 : Byte) ≠ (0 : Byte) ∨
      field wChannelStarts_18 28 4 ≠ 0 ∨
        BitVec.getLsbD (wChannelStarts_18.getD 19 (0 : Byte)) 2 = false ∧ field wChannelStarts_18 20 2 ≠ 0 ∨
          BitVec.getLsbD (wChannelStarts_18.getD 19 (0 : Byte)) 1 = false ∧ BitVec.toNat (wChannelStarts_18.getD 22 (0 : Byte)) ≠ 0)) ∧
    (¬7 < BitVec.toNat (wChannelStarts_18.getD 18 (0 : Byte))) ∧
    (¬field wChannelStarts_18 0 8 % 16 ≠ 0) ∧
    (¬(4096 ≤ field wChannelStarts_18 16 2 ∨ wChannelStarts_17.subch (subchKey (↑(5 : SliceId)) (field wChannelStarts_18 16 2)) = none)) ∧
    (wChannelStarts_17.subch (subchKey (↑(5 : SliceId)) (field wChannelStarts_18 16 2)) = some sub1) ∧
    (BitVec.getLsbD (wChannelStarts_18.getD 19 (0 : Byte)) 1 = false ∨ BitVec.toNat (wChannelStarts_18.getD 22 (0 : Byte)) < sub1.paths.length) ∧
    (BitVec.getLsbD (wChannelStarts_18.getD 19 (0 : Byte)) 2 = true) ∧
    (tGet wChannelStarts_17.io.streams (field wChannelStarts_18 20 2) = none) :=
  ⟨rfl, dec⟩

def wChannelStarts_19 : State := (chState ({ chSlice with st := .draining false }) (srec 0x400000 99 2 3 0 0 0 0 0) [(5 * 4096 + 2, sub1)])
def wChannelStarts_20 : Body := (rd (chState ({ chSlice with st := .draining false }) (srec 0x400000 99 2 3 0 0 0 0 0) [(5 * 4096 + 2, sub1)]))
def wChannelStarts_21 : List Byte := (srec 0x400000 99 2 3 0 0 0 0 0)
theorem witness_ChannelStarts_7 :
    (wChannelStarts_19.body.readEntryAtHead (5 : SliceId) 32 = (some wChannelStarts_21, wChannelStarts_20)) ∧
    (wChannelStarts_19.body.serving = true) ∧
    (wChannelStarts_19.body.ringEngine (5 : SliceId) = some wChannelStarts_2) ∧
    (wChannelStarts_19.body.poolNext
    (wChannelStarts_19.body.io.chanPools[chanIx wChannelStarts_2.1 wChannelStarts_2.2].join
      (List.filter (wChannelStarts_19.body.startReady wChannelStarts_2) (sliceIds wChannelStarts_19.body)))
    (fun x => 1) (List.filter (wChannelStarts_19.body.startReady wChannelStarts_2) (sliceIds wChannelStarts_19.body)) =
  some (5 : SliceId)) ∧
    ((wChannelStarts_20.slice (5 : SliceId)).waiting = []) ∧
    ((wChannelStarts_20.slice (5 : SliceId)).cq.stopped = true ∨ (wChannelStarts_20.slice (5 : SliceId)).cq.en = false) ∧
    (¬(wChannelStarts_21.getD 19 (0 : Byte) &&& (248 : Byte) ≠ (0 : Byte) ∨
    wChannelStarts_21.getD 23 (0 : Byte) ≠ (0 : Byte) ∨
      field wChannelStarts_21 28 4 ≠ 0 ∨
        BitVec.getLsbD (wChannelStarts_21.getD 19 (0 : Byte)) 2 = false ∧ field wChannelStarts_21 20 2 ≠ 0 ∨
          BitVec.getLsbD (wChannelStarts_21.getD 19 (0 : Byte)) 1 = false ∧ BitVec.toNat (wChannelStarts_21.getD 22 (0 : Byte)) ≠ 0)) ∧
    (¬7 < BitVec.toNat (wChannelStarts_21.getD 18 (0 : Byte))) ∧
    (¬field wChannelStarts_21 0 8 % 16 ≠ 0) ∧
    (¬(4096 ≤ field wChannelStarts_21 16 2 ∨ wChannelStarts_20.subch (subchKey (↑(5 : SliceId)) (field wChannelStarts_21 16 2)) = none)) ∧
    (wChannelStarts_20.subch (subchKey (↑(5 : SliceId)) (field wChannelStarts_21 16 2)) = some sub1) ∧
    (wChannelStarts_20.startReason (5 : SliceId) wChannelStarts_21 = none) ∧
    ((wChannelStarts_20.slice (5 : SliceId)).st = SliceSt.draining false) :=
  ⟨rfl, dec⟩

def wChannelStarts_22 : State := (chState ({ chSlice with st := .draining true }) (srec 0x400000 99 2 3 0 0 0 0 0) [(5 * 4096 + 2, sub1)])
def wChannelStarts_23 : Body := (rd (chState ({ chSlice with st := .draining true }) (srec 0x400000 99 2 3 0 0 0 0 0) [(5 * 4096 + 2, sub1)]))
theorem witness_ChannelStarts_8 :
    (wChannelStarts_22.body.readEntryAtHead (5 : SliceId) 32 = (some wChannelStarts_21, wChannelStarts_23)) ∧
    (wChannelStarts_22.body.serving = true) ∧
    (wChannelStarts_22.body.ringEngine (5 : SliceId) = some wChannelStarts_2) ∧
    (wChannelStarts_22.body.poolNext
    (wChannelStarts_22.body.io.chanPools[chanIx wChannelStarts_2.1 wChannelStarts_2.2].join
      (List.filter (wChannelStarts_22.body.startReady wChannelStarts_2) (sliceIds wChannelStarts_22.body)))
    (fun x => 1) (List.filter (wChannelStarts_22.body.startReady wChannelStarts_2) (sliceIds wChannelStarts_22.body)) =
  some (5 : SliceId)) ∧
    ((wChannelStarts_23.slice (5 : SliceId)).waiting = []) ∧
    ((wChannelStarts_23.slice (5 : SliceId)).cq.stopped = true ∨ (wChannelStarts_23.slice (5 : SliceId)).cq.en = false) ∧
    (¬(wChannelStarts_21.getD 19 (0 : Byte) &&& (248 : Byte) ≠ (0 : Byte) ∨
    wChannelStarts_21.getD 23 (0 : Byte) ≠ (0 : Byte) ∨
      field wChannelStarts_21 28 4 ≠ 0 ∨
        BitVec.getLsbD (wChannelStarts_21.getD 19 (0 : Byte)) 2 = false ∧ field wChannelStarts_21 20 2 ≠ 0 ∨
          BitVec.getLsbD (wChannelStarts_21.getD 19 (0 : Byte)) 1 = false ∧ BitVec.toNat (wChannelStarts_21.getD 22 (0 : Byte)) ≠ 0)) ∧
    (¬7 < BitVec.toNat (wChannelStarts_21.getD 18 (0 : Byte))) ∧
    (¬field wChannelStarts_21 0 8 % 16 ≠ 0) ∧
    (¬(4096 ≤ field wChannelStarts_21 16 2 ∨ wChannelStarts_23.subch (subchKey (↑(5 : SliceId)) (field wChannelStarts_21 16 2)) = none)) ∧
    (wChannelStarts_23.subch (subchKey (↑(5 : SliceId)) (field wChannelStarts_21 16 2)) = some sub1) ∧
    (wChannelStarts_23.startReason (5 : SliceId) wChannelStarts_21 = none) ∧
    ((wChannelStarts_23.slice (5 : SliceId)).st = SliceSt.draining true) :=
  ⟨rfl, dec⟩

def wChannelStarts_24 : State := (chState ({ chSlice with limit := 0 }) (srec 0x400000 99 2 3 0 0 0 0 0) [(5 * 4096 + 2, sub1)])
def wChannelStarts_25 : Body := (rd (chState ({ chSlice with limit := 0 }) (srec 0x400000 99 2 3 0 0 0 0 0) [(5 * 4096 + 2, sub1)]))
theorem witness_ChannelStarts_9 :
    (wChannelStarts_24.body.readEntryAtHead (5 : SliceId) 32 = (some wChannelStarts_21, wChannelStarts_25)) ∧
    (wChannelStarts_24.body.serving = true) ∧
    (wChannelStarts_24.body.ringEngine (5 : SliceId) = some wChannelStarts_2) ∧
    (wChannelStarts_24.body.poolNext
    (wChannelStarts_24.body.io.chanPools[chanIx wChannelStarts_2.1 wChannelStarts_2.2].join
      (List.filter (wChannelStarts_24.body.startReady wChannelStarts_2) (sliceIds wChannelStarts_24.body)))
    (fun x => 1) (List.filter (wChannelStarts_24.body.startReady wChannelStarts_2) (sliceIds wChannelStarts_24.body)) =
  some (5 : SliceId)) ∧
    ((wChannelStarts_25.slice (5 : SliceId)).waiting = []) ∧
    ((wChannelStarts_25.slice (5 : SliceId)).cq.stopped = true ∨ (wChannelStarts_25.slice (5 : SliceId)).cq.en = false) ∧
    (¬(wChannelStarts_21.getD 19 (0 : Byte) &&& (248 : Byte) ≠ (0 : Byte) ∨
    wChannelStarts_21.getD 23 (0 : Byte) ≠ (0 : Byte) ∨
      field wChannelStarts_21 28 4 ≠ 0 ∨
        BitVec.getLsbD (wChannelStarts_21.getD 19 (0 : Byte)) 2 = false ∧ field wChannelStarts_21 20 2 ≠ 0 ∨
          BitVec.getLsbD (wChannelStarts_21.getD 19 (0 : Byte)) 1 = false ∧ BitVec.toNat (wChannelStarts_21.getD 22 (0 : Byte)) ≠ 0)) ∧
    (¬7 < BitVec.toNat (wChannelStarts_21.getD 18 (0 : Byte))) ∧
    (¬field wChannelStarts_21 0 8 % 16 ≠ 0) ∧
    (¬(4096 ≤ field wChannelStarts_21 16 2 ∨ wChannelStarts_25.subch (subchKey (↑(5 : SliceId)) (field wChannelStarts_21 16 2)) = none)) ∧
    (wChannelStarts_25.subch (subchKey (↑(5 : SliceId)) (field wChannelStarts_21 16 2)) = some sub1) ∧
    (wChannelStarts_25.startReason (5 : SliceId) wChannelStarts_21 = none) ∧
    ((wChannelStarts_25.slice (5 : SliceId)).st = SliceSt.bound) ∧
    ((wChannelStarts_25.slice (5 : SliceId)).limit.toNat ≤ wChannelStarts_25.occ (5 : SliceId)) :=
  ⟨rfl, dec⟩

def wChannelStarts_26 : State := (chState (chSlice) (srec 0x400000 99 2 3 0 0 0 0 0) [(5 * 4096 + 2, { sub1 with busy := true })])
def wChannelStarts_27 : Body := (rd (chState (chSlice) (srec 0x400000 99 2 3 0 0 0 0 0) [(5 * 4096 + 2, { sub1 with busy := true })]))
def wChannelStarts_28 : Subch := ({ sub1 with busy := true })
theorem witness_ChannelStarts_10 :
    (wChannelStarts_26.body.readEntryAtHead (5 : SliceId) 32 = (some wChannelStarts_21, wChannelStarts_27)) ∧
    (wChannelStarts_26.body.serving = true) ∧
    (wChannelStarts_26.body.ringEngine (5 : SliceId) = some wChannelStarts_2) ∧
    (wChannelStarts_26.body.poolNext
    (wChannelStarts_26.body.io.chanPools[chanIx wChannelStarts_2.1 wChannelStarts_2.2].join
      (List.filter (wChannelStarts_26.body.startReady wChannelStarts_2) (sliceIds wChannelStarts_26.body)))
    (fun x => 1) (List.filter (wChannelStarts_26.body.startReady wChannelStarts_2) (sliceIds wChannelStarts_26.body)) =
  some (5 : SliceId)) ∧
    ((wChannelStarts_27.slice (5 : SliceId)).waiting = []) ∧
    ((wChannelStarts_27.slice (5 : SliceId)).cq.stopped = true ∨ (wChannelStarts_27.slice (5 : SliceId)).cq.en = false) ∧
    (¬(wChannelStarts_21.getD 19 (0 : Byte) &&& (248 : Byte) ≠ (0 : Byte) ∨
    wChannelStarts_21.getD 23 (0 : Byte) ≠ (0 : Byte) ∨
      field wChannelStarts_21 28 4 ≠ 0 ∨
        BitVec.getLsbD (wChannelStarts_21.getD 19 (0 : Byte)) 2 = false ∧ field wChannelStarts_21 20 2 ≠ 0 ∨
          BitVec.getLsbD (wChannelStarts_21.getD 19 (0 : Byte)) 1 = false ∧ BitVec.toNat (wChannelStarts_21.getD 22 (0 : Byte)) ≠ 0)) ∧
    (¬7 < BitVec.toNat (wChannelStarts_21.getD 18 (0 : Byte))) ∧
    (¬field wChannelStarts_21 0 8 % 16 ≠ 0) ∧
    (¬(4096 ≤ field wChannelStarts_21 16 2 ∨ wChannelStarts_27.subch (subchKey (↑(5 : SliceId)) (field wChannelStarts_21 16 2)) = none)) ∧
    (wChannelStarts_27.subch (subchKey (↑(5 : SliceId)) (field wChannelStarts_21 16 2)) = some wChannelStarts_28) ∧
    (wChannelStarts_27.startReason (5 : SliceId) wChannelStarts_21 = none) ∧
    ((wChannelStarts_27.slice (5 : SliceId)).st = SliceSt.bound) ∧
    (wChannelStarts_27.occ (5 : SliceId) < (wChannelStarts_27.slice (5 : SliceId)).limit.toNat) ∧
    (wChannelStarts_28.busy = true) :=
  ⟨rfl, dec⟩

def wChannelStarts_29 : State := (chState (chSlice) (srec 0x400000 99 2 3 0 0 0 0 0) [(5 * 4096 + 2, { sub1 with paths := [{ path1 with st := 0 }] })])
def wChannelStarts_30 : Body := (rd (chState (chSlice) (srec 0x400000 99 2 3 0 0 0 0 0) [(5 * 4096 + 2, { sub1 with paths := [{ path1 with st := 0 }] })]))
def wChannelStarts_31 : Subch := ({ sub1 with paths := [{ path1 with st := 0 }] })
theorem witness_ChannelStarts_11 :
    (wChannelStarts_29.body.readEntryAtHead (5 : SliceId) 32 = (some wChannelStarts_21, wChannelStarts_30)) ∧
    (wChannelStarts_29.body.serving = true) ∧
    (wChannelStarts_29.body.ringEngine (5 : SliceId) = some wChannelStarts_2) ∧
    (wChannelStarts_29.body.poolNext
    (wChannelStarts_29.body.io.chanPools[chanIx wChannelStarts_2.1 wChannelStarts_2.2].join
      (List.filter (wChannelStarts_29.body.startReady wChannelStarts_2) (sliceIds wChannelStarts_29.body)))
    (fun x => 1) (List.filter (wChannelStarts_29.body.startReady wChannelStarts_2) (sliceIds wChannelStarts_29.body)) =
  some (5 : SliceId)) ∧
    ((wChannelStarts_30.slice (5 : SliceId)).waiting = []) ∧
    ((wChannelStarts_30.slice (5 : SliceId)).cq.stopped = true ∨ (wChannelStarts_30.slice (5 : SliceId)).cq.en = false) ∧
    (¬(wChannelStarts_21.getD 19 (0 : Byte) &&& (248 : Byte) ≠ (0 : Byte) ∨
    wChannelStarts_21.getD 23 (0 : Byte) ≠ (0 : Byte) ∨
      field wChannelStarts_21 28 4 ≠ 0 ∨
        BitVec.getLsbD (wChannelStarts_21.getD 19 (0 : Byte)) 2 = false ∧ field wChannelStarts_21 20 2 ≠ 0 ∨
          BitVec.getLsbD (wChannelStarts_21.getD 19 (0 : Byte)) 1 = false ∧ BitVec.toNat (wChannelStarts_21.getD 22 (0 : Byte)) ≠ 0)) ∧
    (¬7 < BitVec.toNat (wChannelStarts_21.getD 18 (0 : Byte))) ∧
    (¬field wChannelStarts_21 0 8 % 16 ≠ 0) ∧
    (¬(4096 ≤ field wChannelStarts_21 16 2 ∨ wChannelStarts_30.subch (subchKey (↑(5 : SliceId)) (field wChannelStarts_21 16 2)) = none)) ∧
    (wChannelStarts_30.subch (subchKey (↑(5 : SliceId)) (field wChannelStarts_21 16 2)) = some wChannelStarts_31) ∧
    (wChannelStarts_30.startReason (5 : SliceId) wChannelStarts_21 = none) ∧
    ((wChannelStarts_30.slice (5 : SliceId)).st = SliceSt.bound) ∧
    (wChannelStarts_30.occ (5 : SliceId) < (wChannelStarts_30.slice (5 : SliceId)).limit.toNat) ∧
    (wChannelStarts_31.busy = false) ∧
    (wChannelStarts_30.choosePath (wChannelStarts_30.servingHub (5 : SliceId) (wChannelStarts_30.slice (5 : SliceId)).part) wChannelStarts_31
    (if BitVec.getLsbD (wChannelStarts_21.getD 19 (0 : Byte)) 1 = true then some (BitVec.toNat (wChannelStarts_21.getD 22 (0 : Byte))) else none) =
  none) ∧
    (wChannelStarts_30.isSplit = false) :=
  ⟨rfl, dec⟩

def wChannelStarts_32 : State := (chState (chSlice) (srec 0x400000 99 2 3 0 0 0 0 0) [(5 * 4096 + 2, sub1)])
def wChannelStarts_33 : Body := (rd (chState (chSlice) (srec 0x400000 99 2 3 0 0 0 0 0) [(5 * 4096 + 2, sub1)]))
def wChannelStarts_34 : ℕ := (ixOf (rd (chState (chSlice) (srec 0x400000 99 2 3 0 0 0 0 0) [(5 * 4096 + 2, sub1)])))
theorem witness_ChannelStarts_12 (h : Obligations.ChannelStarts) : ∃ t, exec (Instr.startRecord (5 : SliceId)) (wChannelStarts_32) = .next t := by
  have p := (((((((((((((((((((((((((((h wChannelStarts_32) (5)) wChannelStarts_33) wChannelStarts_2) wChannelStarts_21) (dec)) (dec)) (dec)) (rfl)) (dec)) (dec)).2.2.2.2 sub1) (dec)) (dec)) (dec)) (dec)) (dec)).2.2 (dec)).2.2 (dec)).2 (dec)).2 (dec)).2.2 (0)) wChannelStarts_34) (dec)) (rfl)) (dec)) (dec))
  exact (let ⟨_, _, _, q⟩ := p; next_of q.1)

def wChannelStarts_35 : State := (chState (chSlice) (srec 0x400000 99 2 3 1 0 0 0 0) [(5 * 4096 + 2, sub1)])
def wChannelStarts_36 : Body := (rd (chState (chSlice) (srec 0x400000 99 2 3 1 0 0 0 0) [(5 * 4096 + 2, sub1)]))
def wChannelStarts_37 : List Byte := (srec 0x400000 99 2 3 1 0 0 0 0)
def wChannelStarts_38 : ℕ := (ixOf (rd (chState (chSlice) (srec 0x400000 99 2 3 1 0 0 0 0) [(5 * 4096 + 2, sub1)])))
theorem witness_ChannelStarts_13 (h : Obligations.ChannelStarts) : ∃ t, exec (Instr.startRecord (5 : SliceId)) (wChannelStarts_35) = .next t := by
  have p := (((((((((((((((((((((((((((h wChannelStarts_35) (5)) wChannelStarts_36) wChannelStarts_2) wChannelStarts_37) (dec)) (dec)) (dec)) (rfl)) (dec)) (dec)).2.2.2.2 sub1) (dec)) (dec)) (dec)) (dec)) (dec)).2.2 (dec)).2.2 (dec)).2 (dec)).2 (dec)).2.2 (0)) wChannelStarts_38) (dec)) (rfl)) (dec)) (dec))
  exact (let ⟨_, _, _, q⟩ := p; next_of q.1)

/-- Every journal entry holds a transaction of another slice. -/
def jOther : JEntry := { txn := 0, tag := 0, program := 0, slice := 6, gen := 0, subch := 0, part := 0, st := 1, asid := 0, prio := 0, sflags := 0, stream := 0, path := 0, engine := 0, cslice := 0, cdepth := 0, cmode := 0, ckcce := 0, recov := 0, ckaddr := 0, ckpos := 0, ckxfer := 0, ckdone := 0, ckresid := 0, dups := 0, issued := 0, jflags := 0, acctod := 0, ckseq := 0, ringix := 0, final := [] }
def jTable (n : Nat) : Table JEntry := (List.range n).map fun k => (k, jOther)
abbrev jFull : Table JEntry := jTable 262144
theorem tGet_mem {α : Type} : ∀ {t : Table α} {k : Nat} {v : α}, tGet t k = some v → ∃ p ∈ t, p.2 = v
  | [], _, _, h => by simp [tGet] at h
  | (j, w) :: r, k, v, h => by
    unfold tGet at h
    split at h
    · exact ⟨(j, w), by simp, by simpa using h⟩
    · obtain ⟨p, hp, e⟩ := tGet_mem h
      exact ⟨p, by simp [hp], e⟩
theorem full_mem {n : Nat} {p : Nat × JEntry} (hp : p ∈ jTable n) : p.2 = jOther := by
  obtain ⟨k, -, rfl⟩ := List.mem_map.mp hp
  rfl
theorem full_filter (n : Nat) : ((jTable n).filter fun e => e.2.st != 0).length = n := by
  rw [List.filter_eq_self.mpr]
  · simp [jTable]
  · intro p hp
    rw [full_mem hp]
    decide
theorem full_jGet {b : Body} (hj : ∀ h : HubId, b.io.journal[h] = jFull) {ix : Nat} {e : JEntry} (h : b.jGet ix = some e) : e = jOther := by
  unfold Body.jGet at h
  obtain ⟨hub, -, h⟩ := List.exists_of_findSome?_eq_some h
  rw [hj] at h
  split at h
  · rename_i e' g
    obtain ⟨p, hp, q⟩ := tGet_mem g
    split at h
    · exact (Option.some.inj h).symm.trans (q.symm.trans (full_mem hp))
    · cases h
  · cases h
theorem full_occ {b : Body} (hj : ∀ h : HubId, b.io.journal[h] = jFull) (hk : (b.slice 5).kind = 1) : b.occ 5 = 0 := by
  unfold Body.occ
  simp only [hk]
  show (List.filter _ _).length = 0
  rw [List.length_eq_zero_iff, List.filter_eq_nil_iff]
  intro p hp
  unfold Body.outstanding at hp
  simp only [List.mem_filterMap] at hp
  obtain ⟨ix, -, hp⟩ := hp
  cases hg : b.jGet ix with
  | none => rw [hg] at hp; cases hp
  | some e =>
    rw [hg] at hp
    injection hp with hp
    rw [← hp]
    show ¬(decide (e.slice.toNat = _) && decide (e.st.toNat ≤ 4) && !e.orphan) = true
    rw [full_jGet hj hg]
    decide
theorem full_free {b : Body} (hj : ∀ h : HubId, b.io.journal[h] = jFull) (h : HubId) : b.freeEntry h = none := by
  have e : b.journalOf h = jTable 262144 := by unfold Body.journalOf; split <;> exact hj _
  have hl := full_filter 262144
  unfold Body.freeEntry
  rw [e]
  simp only [hl, Nat.le_refl, if_true]
def sFull : State := { wChannelStarts_32 with body := wChannelStarts_32.body.modIo fun i => { i with journal := Vector.replicate 2 jFull } }
theorem full_all (h : HubId) : (rd sFull).io.journal[h] = jFull := by
  have e : (rd sFull).io.journal = Vector.replicate 2 jFull := rfl
  simp [e]
theorem witness_ChannelStarts_14 (h : Obligations.ChannelStarts) : ∃ t, exec (Instr.startRecord (5 : SliceId)) sFull = .next t := by
  have p := (((((h sFull 5 (rd sFull) wChannelStarts_2 wChannelStarts_21 dec dec dec rfl dec dec).2.2.2.2 sub1 dec dec dec dec dec).2.2 dec).2.2 dec).2
    (by rw [full_occ full_all dec]; exact dec)).2 dec
  obtain ⟨_, q, _⟩ := p.2.1 0 dec (full_free full_all _)
  exact next_of q
end G9

namespace G10
def mw (cls uop dst seq commit : Nat) : BitVec 160 := BitVec.ofNat 160 (commit * 2 ^ 159 + seq * 2 ^ 156 + cls * 2 ^ 132 + uop * 2 ^ 124 + dst * 2 ^ 118 + 3 * 2 ^ 112 + 17 * 2 ^ 106 + 49 * 2 ^ 100 + 99 * 2 ^ 64)
def bank (e : BitVec 32) (w : BitVec 160) : SlipBank := { entries := (List.replicate 16 0).set 5 e, code := [w] }
def sX (u : Strand) (e : BitVec 32) (w : BitVec 160) : State := let s := running u
  { s with body := s.body.modCtl fun c => { c with slip := #v[bank e w, {}] } }

def budget : State := running { atK with act := .xBudget 0xA5_000014 }
def bankM : SlipBank := { entries := [], matchRegs := [0x00000007, 0x80000001 ||| (0x123 <<< 16), 0x80000002], patch := [1, 2, 3], code := [9] }

def wMicroRoutines_0 : State := (sX (atU) 0 (mw 0 1 2 3 1))
def wMicroRoutines_1 : Body := (fetched (sX (atU) 0 (mw 0 1 2 3 1)) 6)
theorem witness_MicroRoutines_1 :
    (Runs wMicroRoutines_0 (0 : StrandId) (Instr.xInstruction (0 : StrandId) (5 : BitVec 4) (3 : Reg) (4 : Reg) (77 : BitVec 24)) wMicroRoutines_1) ∧
    ((wMicroRoutines_1.strand (0 : StrandId)).micro = none) ∧
    (((wMicroRoutines_1.bankOf (0 : StrandId)).entries.getD (BitVec.toNat (5 : BitVec 4)) (0 : BitVec 32)).getLsbD 15 = false) ∧
    ((wMicroRoutines_1.strand (0 : StrandId)).pend = false) :=
  ⟨⟨dec, dec, rfl⟩, dec⟩

def wMicroRoutines_3 : State := (sX (atU) 0x1E300 (mw 0 1 2 3 1))
def wMicroRoutines_4 : Body := (fetched (sX (atU) 0x1E300 (mw 0 1 2 3 1)) 6)
theorem witness_MicroRoutines_2 :
    (Runs wMicroRoutines_3 (0 : StrandId) (Instr.xInstruction (0 : StrandId) (5 : BitVec 4) (3 : Reg) (4 : Reg) (77 : BitVec 24)) wMicroRoutines_4) ∧
    ((wMicroRoutines_4.strand (0 : StrandId)).micro = none) ∧
    (((wMicroRoutines_4.bankOf (0 : StrandId)).entries.getD (BitVec.toNat (5 : BitVec 4)) (0 : BitVec 32)).getLsbD 15 = true) ∧
    ((wMicroRoutines_4.strand (0 : StrandId)).prv.toNat <
  (BitVec.extractLsb' 16 2 ((wMicroRoutines_4.bankOf (0 : StrandId)).entries.getD (BitVec.toNat (5 : BitVec 4)) (0 : BitVec 32))).toNat) ∧
    ((wMicroRoutines_4.strand (0 : StrandId)).pend = false) :=
  ⟨⟨dec, dec, rfl⟩, dec⟩

def wMicroRoutines_5 : State := (sX (atK) 0x1E300 (mw 0 7 49 3 1))
def wMicroRoutines_6 : Body := (fetched (sX (atK) 0x1E300 (mw 0 7 49 3 1)) 6)
def wMicroRoutines_7 : BitVec 160 := (mw 0 7 49 3 1)
theorem witness_MicroRoutines_3 :
    (Runs wMicroRoutines_5 (0 : StrandId) (Instr.xInstruction (0 : StrandId) (5 : BitVec 4) (3 : Reg) (4 : Reg) (77 : BitVec 24)) wMicroRoutines_6) ∧
    ((wMicroRoutines_6.strand (0 : StrandId)).micro = none) ∧
    (((wMicroRoutines_6.bankOf (0 : StrandId)).entries.getD (BitVec.toNat (5 : BitVec 4)) (0 : BitVec 32)).getLsbD 15 = true) ∧
    ((BitVec.extractLsb' 16 2 ((wMicroRoutines_6.bankOf (0 : StrandId)).entries.getD (BitVec.toNat (5 : BitVec 4)) (0 : BitVec 32))).toNat ≤
  (wMicroRoutines_6.strand (0 : StrandId)).prv.toNat) ∧
    ((wMicroRoutines_6.bankOf (0 : StrandId)).fetch
    (BitVec.extractLsb' 0 15 ((wMicroRoutines_6.bankOf (0 : StrandId)).entries.getD (BitVec.toNat (5 : BitVec 4)) (0 : BitVec 32))).toNat =
  some wMicroRoutines_7) ∧
    ((microWord wMicroRoutines_7).cls ≤ 1) ∧
    ((microWord wMicroRoutines_7).commit = true) ∧
    ((microWord wMicroRoutines_7).seq = 3) ∧
    ((microWord wMicroRoutines_7).opens = false) ∧
    ((microWord wMicroRoutines_7).dst = BitVec.toNat (3 : Reg) ∨ (microWord wMicroRoutines_7).dst = 49 ∧ (3 : Reg) = (3 : Reg)) :=
  ⟨⟨dec, dec, rfl⟩, dec⟩

def wMicroRoutines_8 : Body := {}
theorem witness_MicroRoutines_4 (h : Obligations.MicroRoutines) : ∃ t, exec (Instr.xBudget (0 : StrandId)) (budget) = .next t := by
  have p := ((((((((((((h budget) (0)) wMicroRoutines_8) (5)) (3)) (4)) (77)) (0)).2.1 (0xA5000014)) (dec)) (dec)) (rfl))
  exact (let ⟨_, q⟩ := p; next_of q.1)

theorem witness_MicroRoutines_5 :
    (∀ r ∈ bankM.matchRegs, r.getLsbD 31 = true → (BitVec.extractLsb' 16 15 r).toNat ≠ 24575) ∧
    (24575 < 24576) :=
  ⟨List.forall_iff_forall_mem.mp dec, dec⟩

theorem witness_MicroRoutines_6 :
    (291 < 24576) ∧
    (List.find? (fun r => r.getLsbD 31 && decide ((BitVec.extractLsb' 16 15 r).toNat = 291)) bankM.matchRegs = some (2166554625 : BitVec 32)) :=
  dec

theorem witness_MicroRoutines_7 :
    (24576 ≤ 24576) ∧
    (24576 < 25344) :=
  dec

theorem witness_MicroRoutines_8 :
    (24576 ≤ 25343) ∧
    (25343 < 25344) :=
  dec

theorem witness_MicroRoutines_9 :
    (25344 ≤ 25344) :=
  dec

theorem witness_MicroRoutines_10 :
    (∀ r ∈ bankM.matchRegs, r.getLsbD 31 = true → (BitVec.extractLsb' 16 15 r).toNat ≠ 7) ∧
    (7 < 24576) :=
  ⟨List.forall_iff_forall_mem.mp dec, dec⟩
end G10

namespace G11
def lit (s : State) : State := { s with body := s.body.modCtl fun c => { c with domains := Vector.replicate 232 { on := true } } }
def chSlice : Slice := { st := .bound, kind := 1, part := 0, asid := 0, gen := 3, limit := 9, weight := 2, sq := { en := true, base := 0x300000, log2n := 4, head := 16, tail := 17 }, cq := {} }
def path1 : Path := { port := 9, proto := 1, target := 7, st := 1, unit := 0, probed := true }
def sub1 : Subch := { kind := 1, blksz := 512, paths := [path1], busy := true, lastPath := some 0 }
def je (st : Byte) : JEntry := { txn := 7, tag := 99, program := 0x300000, slice := 5, gen := 3, subch := 2, part := 0, st := st, asid := 0, prio := 3, sflags := 0, stream := 0, path := 0, engine := 5, cslice := 0, cdepth := 0, cmode := 0, ckcce := 0, recov := 0, ckaddr := 0x300000, ckpos := 0, ckxfer := 0, ckdone := 0, ckresid := 0, dups := 0, issued := 1, jflags := 0, acctod := 0, ckseq := 4, ringix := 0, final := List.replicate 32 0 }
def run1 : Running := { ix := 77, root := 0, addr := 0x300000, ccno := 2, pos := none, group := none, resid := 0, xfer := 0, ending := none }
def grp : Group := { cmd := 0x50, flags := 0, order := 2, area := [], count := 0, sent := 0, got := [], staged := none, packing := false, xlen := 0 }
def cmd1 (cmd : Byte) (live : Bool) (ab : Option Nat) : DevCmd := { id := 3, cid := 3, who := .txn 77, txn := 7, ckseq := 4, queue := 5, port := 9, path := 0, cmd := cmd, order := 2, target := 7, pos := 0, off := 0, len := 0, param := 0, wire := { code := 0 }, data := [], issuedAt := 0, abort := ab, live := live, answered := false, stale := false, retried := false, recov := 0 }
def chRun (d : List Byte) (j : JEntry) (r : Running) (cs : List DevCmd) : State :=
  let s := lit (holding (running atK) [0x300000] (lineOf (padTo 128 d)))
  { s with body := s.body.modIo fun i => { i with slices := [(5, chSlice)], subchs := [(5 * 4096 + 2, sub1)], octets := i.octets.set 1 { mode := 4 }, ports := [(9, { st := .up })], journal := #v[[(77, j)], [(77, j)]], running := [r], cmds := cs, nextCmd := 8 } }
def own (s : State) : Owner := s.body.txOwner (je 2) run1
def rd (s : State) : Body := (s.body.engRead (own s) 0x300000 16).1
def ans (k : DevClass) : DevResult := { cls := k, data := [], pos := 0, sense := { kind := 0, key := 0, code := 0, sfl := 0, info := 0, raw := [] } }
def r2 : Running := { run1 with group := some grp }
def sCmd (live : Bool) : State := chRun [] (je 3) r2 [cmd1 0x50 live none]
def sFin (fl : Byte) (subs : Nat) : State := chRun [] { je 4 with jflags := fl } run1 []
def sRec (cmd : Byte) (ab : Option Nat) (r : Running) : State := chRun [] (je 3) r [cmd1 cmd true ab]
def keyAns : ProbeResult := { ok := true, blksz := 512, plainFormat := true }
def sProbe (st : Byte) : State := let s := chRun [] (je 3) run1 []
  { s with body := s.body.modIo fun i => { i with subchs := [(5 * 4096 + 2, { sub1 with paths := [{ path1 with st := st }] })] } }
def eng1 (bank : BitVec 2) (st : List (BitVec 2)) (q : List Bool) : State := let s := running atK
  { s with body := s.body.modChan 0 3 fun g => { g with bank := bank, stack := st, queue := q } }
def full256 : List Bool := List.replicate 256 false
def engW (bank : BitVec 2) (st : List (BitVec 2)) (old : Bool) (w : Nat) : State := let s := eng1 bank st []
  let s := { s with body := s.body.modChan 0 3 fun g => { g with slipOld := old, addr := #v[0x2000, 0x2001, 0x2002, 0x2003] } }
  { s with body := s.body.modCtl fun c => { c with engSlip := #v[{ words := List.replicate 4 (BitVec.ofNat 128 w) }, { words := List.replicate 4 (BitVec.ofNat 128 w) }] } }
def ew (commit br next alt : Nat) : Nat := commit * 2 ^ 127 + br * 2 ^ 124 + next * 2 ^ 104 + alt * 2 ^ 90
def eng2 : State := let s := running atK
  { s with body := s.body.modChan 0 3 fun g => { g with service := .suspect } }
def strm (blocks : List (BitVec 64 × List Byte)) (bar : Bool) : Stream := { slice := 5, image := 2, rate := 10, bufbase := 0, bufsize := 4, blocks := blocks, active := true, barrier := bar }
def subT : Subch := { sub1 with kind := 2, blksz := 0, lon := 12 }
def dk : DevCmd := { cmd1 0x21 true none with who := .drain 63, pos := 10, len := 1, data := [1] }
def dcmds : List DevCmd := [dk, { dk with id := 4, pos := 11, data := [2] }]
def sStr (blocks : List (BitVec 64 × List Byte)) (bar : Bool) : State := let s := chRun [] (je 3) run1 []
  { s with body := s.body.modIo fun i => { i with journal := #v[[], []], running := [], cmds := dcmds, subchs := [(5 * 4096 + 2, subT)], streams := [(63, strm blocks bar)] } }
def sBar : State := { sStr [] true with body := (sStr [] true).body.modIo fun i => { i with journal := #v[[(77, je 2)], [(77, je 2)]], running := [run1] } }

def wChannelPrograms_0 : State := (chRun ([0x60, 0, 0, 0, 0, 0, 0, 0, 0, 0, 0, 0, 0, 0, 0, 0]) (je 2) run1 [])
def wChannelPrograms_1 : Body := (rd (chRun ([0x60, 0, 0, 0, 0, 0, 0, 0, 0, 0, 0, 0, 0, 0, 0, 0]) (je 2) run1 []))
def wChannelPrograms_2 : JEntry := (je 2)
def wChannelPrograms_3 : List Byte := [0x60, 0, 0, 0, 0, 0, 0, 0, 0, 0, 0, 0, 0, 0, 0, 0]
theorem witness_ChannelPrograms_1 (h : Obligations.ChannelPrograms) : ∃ t, exec (Instr.cceFetch 77) (wChannelPrograms_0) = .next t := by
  have p := (((((((((((((((((((((((((((((h wChannelPrograms_0) (77)) wChannelPrograms_1) wChannelPrograms_2) run1) sub1) wChannelPrograms_3).1 (dec)) (dec)) (dec)) (dec)) (dec)) (dec)) (dec)) (dec)) (dec)) (dec)) (dec)) (dec)) (dec)) (dec)) (rfl)) (dec)) (dec)) (dec)) (dec)) (dec)) (dec)).1 (dec))
  exact (let ⟨_, _, q⟩ := p; next_of q.1)

def wChannelPrograms_4 : State := (chRun (0x41 :: List.replicate 15 0) (je 2) run1 [])
def wChannelPrograms_5 : Body := (rd (chRun (0x41 :: List.replicate 15 0) (je 2) run1 []))
def wChannelPrograms_6 : List Byte := (0x41 :: List.replicate 15 0)
theorem witness_ChannelPrograms_2 (h : Obligations.ChannelPrograms) : ∃ t, exec (Instr.cceFetch 77) (wChannelPrograms_4) = .next t := by
  have p := (((((((((((((((((((((((((((((h wChannelPrograms_4) (77)) wChannelPrograms_5) wChannelPrograms_2) run1) sub1) wChannelPrograms_6).1 (dec)) (dec)) (dec)) (dec)) (dec)) (dec)) (dec)) (dec)) (dec)) (dec)) (dec)) (dec)) (dec)) (dec)) (rfl)) (dec)) (dec)) (dec)) (dec)) (dec)) (dec)).2.1 (dec))
  exact (let ⟨_, _, q⟩ := p; next_of q.1)

def wChannelPrograms_7 : State := (chRun (0x50 :: 0 :: 2 :: List.replicate 13 0) (je 2) run1 [])
def wChannelPrograms_8 : Body := (rd (chRun (0x50 :: 0 :: 2 :: List.replicate 13 0) (je 2) run1 []))
def wChannelPrograms_9 : List Byte := (0x50 :: 0 :: 2 :: List.replicate 13 0)
theorem witness_ChannelPrograms_3 (h : Obligations.ChannelPrograms) : ∃ t, exec (Instr.cceFetch 77) (wChannelPrograms_7) = .next t := by
  have p := (((((((((((((((((((((((((((((((((h wChannelPrograms_7) (77)) wChannelPrograms_8) wChannelPrograms_2) run1) sub1) wChannelPrograms_9).1 (dec)) (dec)) (dec)) (dec)) (dec)) (dec)) (dec)) (dec)) (dec)) (dec)) (dec)) (dec)) (dec)) (dec)) (rfl)) (dec)) (dec)) (dec)) (dec)) (dec)) (dec)).2.2 path1) (dec)) (dec)) (dec)) (dec))
  exact (let ⟨_, _, _, q⟩ := p; next_of q.1)

def wChannelPrograms_10 : State := (sFin 0 0)
def wChannelPrograms_12 : JEntry := (je 4)
theorem witness_ChannelPrograms_4 :
    (List.find? (fun q => decide (q.id = 3)) wChannelPrograms_10.body.io.cmds = none) :=
  dec

def wChannelPrograms_15 : JEntry := (je 3)
def wChannelPrograms_16 : DevCmd := (cmd1 0x50 false none)
theorem witness_ChannelPrograms_5 :
    (List.find? (fun q => decide (q.id = 3)) (sCmd false).body.io.cmds = some wChannelPrograms_16) ∧
    ((sCmd false).body.serving = true) ∧
    (wChannelPrograms_16.who = CmdFor.txn 77) ∧
    (wChannelPrograms_16.answered = false) ∧
    ((sCmd false).body.jGet 77 = some wChannelPrograms_15) ∧
    (wChannelPrograms_16.live = false) ∧
    (wChannelPrograms_15.txn = wChannelPrograms_16.txn) ∧
    ((sCmd false).body.jRaw 77 = some wChannelPrograms_15) :=
  dec

def wChannelPrograms_18 : DevCmd := (cmd1 0x50 true none)
theorem witness_ChannelPrograms_6 :
    (List.find? (fun q => decide (q.id = 3)) (sCmd true).body.io.cmds = some wChannelPrograms_18) ∧
    ((sCmd true).body.serving = true) ∧
    (wChannelPrograms_18.who = CmdFor.txn 77) ∧
    (wChannelPrograms_18.answered = false) ∧
    ((sCmd true).body.jGet 77 = some wChannelPrograms_15) ∧
    (wChannelPrograms_18.live = true) ∧
    (wChannelPrograms_15.txn = wChannelPrograms_18.txn) ∧
    (wChannelPrograms_18.abort = none) ∧
    ((sCmd true).body.subch wChannelPrograms_15.subchKey = some sub1) ∧
    (sub1.kind = (1 : Byte)) ∧
    (sub1.reports = []) ∧
    ((sCmd true).body.portUp wChannelPrograms_18.port = true) ∧
    (wChannelPrograms_18.recov = 0) ∧
    (wChannelPrograms_18.cmd = (80 : Byte)) ∧
    ((ans DevClass.good).cls = DevClass.good) ∧
    ((sCmd true).body.running 77 = some r2) ∧
    (r2.lost = false) ∧
    (r2.redo = []) ∧
    (r2.ending = none) ∧
    (r2.group = some grp) ∧
    (grp.flags = (0 : Byte)) ∧
    (∀ q ∈ (sCmd true).body.inDoubt 77, q.id = 3) :=
  dec

theorem witness_ChannelPrograms_7 :
    (wChannelPrograms_10.body.serving = true) ∧
    (wChannelPrograms_10.body.jGet 77 = some wChannelPrograms_12) ∧
    (wChannelPrograms_12.st = (4 : Byte)) ∧
    (BitVec.getLsbD wChannelPrograms_12.jflags 2 = false) ∧
    (BitVec.getLsbD wChannelPrograms_12.jflags 1 = false) ∧
    ((wChannelPrograms_10.body.slice (⟨wChannelPrograms_12.slice.toNat, by have := wChannelPrograms_12.slice.isLt; omega⟩ : Fin 8192)).gen = wChannelPrograms_12.gen) ∧
    ((wChannelPrograms_10.body.slice (⟨wChannelPrograms_12.slice.toNat, by have := wChannelPrograms_12.slice.isLt; omega⟩ : Fin 8192)).waiting = []) ∧
    ((wChannelPrograms_10.body.slice (⟨wChannelPrograms_12.slice.toNat, by have := wChannelPrograms_12.slice.isLt; omega⟩ : Fin 8192)).cq.stopped = true ∨
  (wChannelPrograms_10.body.slice (⟨wChannelPrograms_12.slice.toNat, by have := wChannelPrograms_12.slice.isLt; omega⟩ : Fin 8192)).cq.en = false) :=
  dec

def wChannelPrograms_19 : State := (sFin 2 0)
def wChannelPrograms_21 : JEntry := ({ je 4 with jflags := 2 })
theorem witness_ChannelPrograms_8 :
    (wChannelPrograms_19.body.serving = true) ∧
    (wChannelPrograms_19.body.jGet 77 = some wChannelPrograms_21) ∧
    (wChannelPrograms_21.st = (4 : Byte)) ∧
    (BitVec.getLsbD wChannelPrograms_21.jflags 2 = false) ∧
    (BitVec.getLsbD wChannelPrograms_21.jflags 1 = true) ∧
    (∀ (h : HubId), wChannelPrograms_19.body.io.orphans[h] = []) :=
  dec

def wChannelRecovery_22 : State := (sRec 0x50 none r2)
theorem witness_ChannelRecovery_2 :
    (wChannelRecovery_22.body.serving = true) :=
  dec

theorem witness_ChannelRecovery_3 :
    (wChannelRecovery_22.body.serving = true) :=
  dec

def wChannelRecovery_24 : State := (sRec 0x22 none r2)
def wChannelRecovery_25 : DevCmd := (cmd1 0x22 true none)
theorem witness_ChannelRecovery_4 :
    (wChannelRecovery_24.body.serving = true) ∧
    (List.find? (fun q => decide (q.id = wChannelRecovery_25.id)) wChannelRecovery_24.body.io.cmds = some wChannelRecovery_25) ∧
    (wChannelRecovery_25.who = CmdFor.txn 77) ∧
    (wChannelRecovery_24.body.jGet 77 = some wChannelPrograms_15) ∧
    (wChannelRecovery_24.body.jRaw 77 = some wChannelPrograms_15) ∧
    (wChannelPrograms_15.txn = wChannelRecovery_25.txn) ∧
    (wChannelRecovery_25.live = true) ∧
    (wChannelRecovery_25.stale = false) ∧
    (wChannelRecovery_25.answered = false) ∧
    (wChannelRecovery_25.abort = none) ∧
    (wChannelRecovery_25.issuedAt + wChannelRecovery_24.body.deviceTimeout wChannelRecovery_25 < 2 ^ 64) :=
  dec

def wChannelRecovery_26 : State := (sRec 0x50 (some 9) r2)
def wChannelRecovery_27 : DevCmd := (cmd1 0x50 true (some 9))
theorem witness_ChannelRecovery_5 :
    (wChannelRecovery_26.body.serving = true) ∧
    (List.find? (fun q => decide (q.id = wChannelRecovery_27.id)) wChannelRecovery_26.body.io.cmds = some wChannelRecovery_27) ∧
    (wChannelRecovery_27.who = CmdFor.txn 77) ∧
    (wChannelRecovery_26.body.jGet 77 = some wChannelPrograms_15) ∧
    (wChannelRecovery_26.body.jRaw 77 = some wChannelPrograms_15) ∧
    (wChannelPrograms_15.txn = wChannelRecovery_27.txn) ∧
    (wChannelRecovery_27.live = true) ∧
    (wChannelRecovery_27.abort ≠ none) ∧
    (wChannelRecovery_26.body.running 77 = some r2) ∧
    (r2.lost = false) ∧
    (r2.redo = []) ∧
    (r2.ending = none) ∧
    (∀ (g : Machine.Group), r2.group = some g → g.cmd ≠ (33 : Byte)) ∧
    (∀ q ∈ wChannelRecovery_26.body.inDoubt 77, q.id = wChannelRecovery_27.id) :=
  dec

theorem witness_ChannelRecovery_6 :
    (wChannelRecovery_26.body.serving = true) ∧
    (List.find? (fun q => decide (q.id = wChannelRecovery_27.id)) wChannelRecovery_26.body.io.cmds = some wChannelRecovery_27) ∧
    (wChannelRecovery_27.who = CmdFor.txn 77) ∧
    (wChannelRecovery_26.body.jGet 77 = some wChannelPrograms_15) ∧
    (wChannelRecovery_26.body.jRaw 77 = some wChannelPrograms_15) ∧
    (wChannelPrograms_15.txn = wChannelRecovery_27.txn) ∧
    (wChannelRecovery_27.live = true) ∧
    (wChannelRecovery_27.abort = some 9) ∧
    (wChannelRecovery_26.body.isLost wChannelRecovery_27 = false) ∧
    (wChannelRecovery_27.port = (9 : PortId)) ∧
    (9 + 5000000000 < 2 ^ 64) :=
  dec

def wChannelRecovery_28 : State := (sProbe 2)
def wChannelRecovery_29 : Subch := ({ sub1 with paths := [{ path1 with st := 2 }] })
def wChannelRecovery_30 : Machine.Path := ({ path1 with st := 2 })
theorem witness_ChannelRecovery_7 :
    (wChannelRecovery_28.body.serving = true) ∧
    (wChannelRecovery_28.body.subch (subchKey (↑(5 : SliceId)) (BitVec.toNat (2 : BitVec 12))) = some wChannelRecovery_29) ∧
    (wChannelRecovery_29.paths[↑(0 : Fin 8)]? = some wChannelRecovery_30) ∧
    (wChannelRecovery_30.st = (2 : Byte)) ∧
    (wChannelRecovery_28.body.portUp wChannelRecovery_30.port = true) ∧
    (wChannelRecovery_28.body.holdsPath (wChannelRecovery_28.body.servingHub (5 : SliceId) (wChannelRecovery_28.body.slice (5 : SliceId)).part) wChannelRecovery_30 = true) ∧
    (keyAns.ok = true) ∧
    (wChannelRecovery_29.kind = (1 : Byte) → keyAns.blksz = wChannelRecovery_29.blksz ∧ keyAns.plainFormat = true) :=
  dec

def wChannelRecovery_31 : ProbeResult := ({ keyAns with ok := false })
theorem witness_ChannelRecovery_8 :
    (wChannelRecovery_28.body.serving = true) ∧
    (wChannelRecovery_28.body.subch (subchKey (↑(5 : SliceId)) (BitVec.toNat (2 : BitVec 12))) = some wChannelRecovery_29) ∧
    (wChannelRecovery_29.paths[↑(0 : Fin 8)]? = some wChannelRecovery_30) ∧
    (wChannelRecovery_30.st = (2 : Byte)) ∧
    (wChannelRecovery_28.body.portUp wChannelRecovery_30.port = true) ∧
    (wChannelRecovery_28.body.holdsPath (wChannelRecovery_28.body.servingHub (5 : SliceId) (wChannelRecovery_28.body.slice (5 : SliceId)).part) wChannelRecovery_30 = true) ∧
    (wChannelRecovery_31.ok = false) :=
  dec

def wChannelEngineBanksAndDrains_32 : State := (eng1 0 [] [])
theorem witness_ChannelEngineBanksAndDrains_1 :
    (wChannelEngineBanksAndDrains_32.body.serving = true) ∧
    (wChannelEngineBanksAndDrains_32.body.chanUp (0 : HubId) (3 : Fin 16) = true) ∧
    ((wChannelEngineBanksAndDrains_32.body.chan (0 : HubId) (3 : Fin 16)).bank = (0 : BitVec 2)) :=
  dec

def wChannelEngineBanksAndDrains_33 : State := (eng1 1 [0] [])
theorem witness_ChannelEngineBanksAndDrains_2 :
    (wChannelEngineBanksAndDrains_33.body.serving = true) ∧
    (wChannelEngineBanksAndDrains_33.body.chanUp (0 : HubId) (3 : Fin 16) = true) ∧
    ((wChannelEngineBanksAndDrains_33.body.chan (0 : HubId) (3 : Fin 16)).bank ≠ (0 : BitVec 2)) ∧
    ((List.filter (fun x => !x) (wChannelEngineBanksAndDrains_33.body.chan (0 : HubId) (3 : Fin 16)).queue).length < 256) :=
  dec

def wChannelEngineBanksAndDrains_34 : State := (eng1 1 [0] full256)
theorem witness_ChannelEngineBanksAndDrains_3 :
    (wChannelEngineBanksAndDrains_34.body.serving = true) ∧
    (wChannelEngineBanksAndDrains_34.body.chanUp (0 : HubId) (3 : Fin 16) = true) ∧
    ((wChannelEngineBanksAndDrains_34.body.chan (0 : HubId) (3 : Fin 16)).bank ≠ (0 : BitVec 2)) ∧
    (256 ≤ (List.filter (fun x => !x) (wChannelEngineBanksAndDrains_34.body.chan (0 : HubId) (3 : Fin 16)).queue).length) :=
  dec

theorem witness_ChannelEngineBanksAndDrains_4 :
    (wChannelEngineBanksAndDrains_33.body.serving = true) ∧
    (wChannelEngineBanksAndDrains_33.body.chanUp (0 : HubId) (3 : Fin 16) = true) ∧
    ((wChannelEngineBanksAndDrains_33.body.chan (0 : HubId) (3 : Fin 16)).bank.toNat ≤ 1) :=
  dec

def wChannelEngineBanksAndDrains_35 : State := (eng1 2 [0] [])
theorem witness_ChannelEngineBanksAndDrains_5 :
    (wChannelEngineBanksAndDrains_35.body.serving = true) ∧
    (wChannelEngineBanksAndDrains_35.body.chanUp (0 : HubId) (3 : Fin 16) = true) ∧
    ((wChannelEngineBanksAndDrains_35.body.chan (0 : HubId) (3 : Fin 16)).bank = (2 : BitVec 2)) :=
  dec

theorem witness_ChannelEngineBanksAndDrains_6 :
    (wChannelEngineBanksAndDrains_35.body.serving = true) ∧
    (wChannelEngineBanksAndDrains_35.body.chanUp (0 : HubId) (3 : Fin 16) = true) ∧
    ((wChannelEngineBanksAndDrains_35.body.chan (0 : HubId) (3 : Fin 16)).bank = (2 : BitVec 2)) :=
  dec

theorem witness_ChannelEngineBanksAndDrains_7 :
    (wChannelEngineBanksAndDrains_35.body.serving = true) ∧
    (wChannelEngineBanksAndDrains_35.body.chanUp (0 : HubId) (3 : Fin 16) = true) ∧
    ((wChannelEngineBanksAndDrains_35.body.chan (0 : HubId) (3 : Fin 16)).bank.toNat ≤ 2) :=
  dec

def wChannelEngineBanksAndDrains_36 : List (BitVec 2) := []
theorem witness_ChannelEngineBanksAndDrains_8 :
    (wChannelEngineBanksAndDrains_33.body.serving = true) ∧
    (wChannelEngineBanksAndDrains_33.body.chanUp (0 : HubId) (3 : Fin 16) = true) ∧
    ((wChannelEngineBanksAndDrains_33.body.chan (0 : HubId) (3 : Fin 16)).stack = (0 : BitVec 2) :: wChannelEngineBanksAndDrains_36) ∧
    ((wChannelEngineBanksAndDrains_33.body.chan (0 : HubId) (3 : Fin 16)).queue = []) :=
  dec

def wChannelEngineBanksAndDrains_37 : State := (eng1 2 [1, 0] [true])
def wChannelEngineBanksAndDrains_38 : List (BitVec 2) := [0]
theorem witness_ChannelEngineBanksAndDrains_9 :
    (wChannelEngineBanksAndDrains_37.body.serving = true) ∧
    (wChannelEngineBanksAndDrains_37.body.chanUp (0 : HubId) (3 : Fin 16) = true) ∧
    ((wChannelEngineBanksAndDrains_37.body.chan (0 : HubId) (3 : Fin 16)).stack = (1 : BitVec 2) :: wChannelEngineBanksAndDrains_38) ∧
    (BitVec.toNat (1 : BitVec 2) ≤ 1) ∧
    ((wChannelEngineBanksAndDrains_37.body.chan (0 : HubId) (3 : Fin 16)).queue = [true]) :=
  dec

def wChannelEngineBanksAndDrains_39 : State := (engW 0 [] true (ew 1 0 0x3FF0 5))
def wChannelEngineBanksAndDrains_40 : BitVec 128 := (BitVec.ofNat 128 (ew 1 0 0x3FF0 5))
theorem witness_ChannelEngineBanksAndDrains_10 :
    (wChannelEngineBanksAndDrains_39.body.serving = true) ∧
    (wChannelEngineBanksAndDrains_39.body.chanUp (0 : HubId) (3 : Fin 16) = true) ∧
    ((wChannelEngineBanksAndDrains_39.body.chan (0 : HubId) (3 : Fin 16)).halted = false) ∧
    ((if wChannelEngineBanksAndDrains_39.body.ctl.engActive ≠ (wChannelEngineBanksAndDrains_39.body.chan (0 : HubId) (3 : Fin 16)).slipOld then
        wChannelEngineBanksAndDrains_39.body.ctl.engSlip[1]
      else wChannelEngineBanksAndDrains_39.body.ctl.engSlip[0]).fetch
    ((wChannelEngineBanksAndDrains_39.body.chan (0 : HubId) (3 : Fin 16)).addr.toList.getD
      (wChannelEngineBanksAndDrains_39.body.chan (0 : HubId) (3 : Fin 16)).bank.toNat 0) =
  some wChannelEngineBanksAndDrains_40) ∧
    ((BitVec.extractLsb' 124 3 wChannelEngineBanksAndDrains_40).toNat = 0) :=
  dec

def wChannelEngineBanksAndDrains_41 : State := (engW 0 [] true (ew 1 1 0x3FF0 5))
def wChannelEngineBanksAndDrains_42 : BitVec 128 := (BitVec.ofNat 128 (ew 1 1 0x3FF0 5))
theorem witness_ChannelEngineBanksAndDrains_11 :
    (wChannelEngineBanksAndDrains_41.body.serving = true) ∧
    (wChannelEngineBanksAndDrains_41.body.chanUp (0 : HubId) (3 : Fin 16) = true) ∧
    ((wChannelEngineBanksAndDrains_41.body.chan (0 : HubId) (3 : Fin 16)).halted = false) ∧
    ((if wChannelEngineBanksAndDrains_41.body.ctl.engActive ≠ (wChannelEngineBanksAndDrains_41.body.chan (0 : HubId) (3 : Fin 16)).slipOld then
        wChannelEngineBanksAndDrains_41.body.ctl.engSlip[1]
      else wChannelEngineBanksAndDrains_41.body.ctl.engSlip[0]).fetch
    ((wChannelEngineBanksAndDrains_41.body.chan (0 : HubId) (3 : Fin 16)).addr.toList.getD
      (wChannelEngineBanksAndDrains_41.body.chan (0 : HubId) (3 : Fin 16)).bank.toNat 0) =
  some wChannelEngineBanksAndDrains_42) ∧
    ((BitVec.extractLsb' 124 3 wChannelEngineBanksAndDrains_42).toNat = 1) :=
  dec

def wChannelEngineBanksAndDrains_43 : State := (engW 0 [] true (ew 1 2 0x3FF0 5))
def wChannelEngineBanksAndDrains_44 : BitVec 128 := (BitVec.ofNat 128 (ew 1 2 0x3FF0 5))
theorem witness_ChannelEngineBanksAndDrains_12 :
    (wChannelEngineBanksAndDrains_43.body.serving = true) ∧
    (wChannelEngineBanksAndDrains_43.body.chanUp (0 : HubId) (3 : Fin 16) = true) ∧
    ((wChannelEngineBanksAndDrains_43.body.chan (0 : HubId) (3 : Fin 16)).halted = false) ∧
    ((if wChannelEngineBanksAndDrains_43.body.ctl.engActive ≠ (wChannelEngineBanksAndDrains_43.body.chan (0 : HubId) (3 : Fin 16)).slipOld then
        wChannelEngineBanksAndDrains_43.body.ctl.engSlip[1]
      else wChannelEngineBanksAndDrains_43.body.ctl.engSlip[0]).fetch
    ((wChannelEngineBanksAndDrains_43.body.chan (0 : HubId) (3 : Fin 16)).addr.toList.getD
      (wChannelEngineBanksAndDrains_43.body.chan (0 : HubId) (3 : Fin 16)).bank.toNat 0) =
  some wChannelEngineBanksAndDrains_44) ∧
    ((BitVec.extractLsb' 124 3 wChannelEngineBanksAndDrains_44).toNat = 2) :=
  dec

def wChannelEngineBanksAndDrains_45 : State := (engW 0 [] true (ew 1 4 0x3FF0 5))
def wChannelEngineBanksAndDrains_46 : BitVec 128 := (BitVec.ofNat 128 (ew 1 4 0x3FF0 5))
theorem witness_ChannelEngineBanksAndDrains_13 :
    (wChannelEngineBanksAndDrains_45.body.serving = true) ∧
    (wChannelEngineBanksAndDrains_45.body.chanUp (0 : HubId) (3 : Fin 16) = true) ∧
    ((wChannelEngineBanksAndDrains_45.body.chan (0 : HubId) (3 : Fin 16)).halted = false) ∧
    ((if wChannelEngineBanksAndDrains_45.body.ctl.engActive ≠ (wChannelEngineBanksAndDrains_45.body.chan (0 : HubId) (3 : Fin 16)).slipOld then
        wChannelEngineBanksAndDrains_45.body.ctl.engSlip[1]
      else wChannelEngineBanksAndDrains_45.body.ctl.engSlip[0]).fetch
    ((wChannelEngineBanksAndDrains_45.body.chan (0 : HubId) (3 : Fin 16)).addr.toList.getD
      (wChannelEngineBanksAndDrains_45.body.chan (0 : HubId) (3 : Fin 16)).bank.toNat 0) =
  some wChannelEngineBanksAndDrains_46) ∧
    ((BitVec.extractLsb' 124 3 wChannelEngineBanksAndDrains_46).toNat = 4) :=
  dec

def wChannelEngineBanksAndDrains_47 : State := (engW 1 [0] false (ew 0 2 0x3FF0 5))
def wChannelEngineBanksAndDrains_48 : BitVec 128 := (BitVec.ofNat 128 (ew 0 2 0x3FF0 5))
theorem witness_ChannelEngineBanksAndDrains_14 :
    (wChannelEngineBanksAndDrains_47.body.serving = true) ∧
    (wChannelEngineBanksAndDrains_47.body.chanUp (0 : HubId) (3 : Fin 16) = true) ∧
    ((wChannelEngineBanksAndDrains_47.body.chan (0 : HubId) (3 : Fin 16)).halted = false) ∧
    ((if wChannelEngineBanksAndDrains_47.body.ctl.engActive ≠ (wChannelEngineBanksAndDrains_47.body.chan (0 : HubId) (3 : Fin 16)).slipOld then
        wChannelEngineBanksAndDrains_47.body.ctl.engSlip[1]
      else wChannelEngineBanksAndDrains_47.body.ctl.engSlip[0]).fetch
    ((wChannelEngineBanksAndDrains_47.body.chan (0 : HubId) (3 : Fin 16)).addr.toList.getD
      (wChannelEngineBanksAndDrains_47.body.chan (0 : HubId) (3 : Fin 16)).bank.toNat 0) =
  some wChannelEngineBanksAndDrains_48) ∧
    ((BitVec.extractLsb' 124 3 wChannelEngineBanksAndDrains_48).toNat = 2) :=
  dec

def wChannelEngineBanksAndDrains_49 : State := (engW 3 [1, 0] true (ew 0 2 0x3FF0 5))
theorem witness_ChannelEngineBanksAndDrains_15 :
    (wChannelEngineBanksAndDrains_49.body.serving = true) ∧
    (wChannelEngineBanksAndDrains_49.body.chanUp (0 : HubId) (3 : Fin 16) = true) ∧
    ((wChannelEngineBanksAndDrains_49.body.chan (0 : HubId) (3 : Fin 16)).halted = false) ∧
    ((if wChannelEngineBanksAndDrains_49.body.ctl.engActive ≠ (wChannelEngineBanksAndDrains_49.body.chan (0 : HubId) (3 : Fin 16)).slipOld then
        wChannelEngineBanksAndDrains_49.body.ctl.engSlip[1]
      else wChannelEngineBanksAndDrains_49.body.ctl.engSlip[0]).fetch
    ((wChannelEngineBanksAndDrains_49.body.chan (0 : HubId) (3 : Fin 16)).addr.toList.getD
      (wChannelEngineBanksAndDrains_49.body.chan (0 : HubId) (3 : Fin 16)).bank.toNat 0) =
  some wChannelEngineBanksAndDrains_48) ∧
    ((BitVec.extractLsb' 124 3 wChannelEngineBanksAndDrains_48).toNat = 2) :=
  dec

def wChannelEngineBanksAndDrains_50 : State := (eng1 3 [0] [])
theorem witness_ChannelEngineBanksAndDrains_16 :
    (wChannelEngineBanksAndDrains_50.body.serving = true) ∧
    (wChannelEngineBanksAndDrains_50.body.chanUp (0 : HubId) (3 : Fin 16) = true) ∧
    ((wChannelEngineBanksAndDrains_50.body.chan (0 : HubId) (3 : Fin 16)).bank = (3 : BitVec 2)) ∧
    (EngineEvent.fault = EngineEvent.fault ∨ EngineEvent.fault = EngineEvent.ownFault ∨ EngineEvent.fault = EngineEvent.internal) :=
  dec

theorem witness_ChannelEngineBanksAndDrains_17 :
    (eng2.body.chanUp (0 : HubId) (3 : Fin 16) = false) :=
  dec

def wChannelEngineBanksAndDrains_51 : State := (sStr ([(10, [1]), (11, [2])]) false)
def wChannelEngineBanksAndDrains_52 : Machine.Stream := (strm ([(10, [1]), (11, [2])]) false)
def wChannelEngineBanksAndDrains_53 : BitVec 64 × List Byte := (10, [1])
def wChannelEngineBanksAndDrains_54 : List (BitVec 64 × List Byte) := [(11, [2])]
theorem witness_ChannelEngineBanksAndDrains_18 :
    (tGet wChannelEngineBanksAndDrains_51.body.io.streams ↑(63 : Fin 64) = some wChannelEngineBanksAndDrains_52) ∧
    (wChannelEngineBanksAndDrains_51.body.serving = true) ∧
    (wChannelEngineBanksAndDrains_52.barrier = false ∨ wChannelEngineBanksAndDrains_52.blocks ≠ []) :=
  dec

def wChannelEngineBanksAndDrains_55 : State := (sStr ([]) true)
def wChannelEngineBanksAndDrains_56 : Machine.Stream := (strm ([]) true)
theorem witness_ChannelEngineBanksAndDrains_19 :
    (tGet wChannelEngineBanksAndDrains_55.body.io.streams ↑(63 : Fin 64) = some wChannelEngineBanksAndDrains_56) ∧
    (wChannelEngineBanksAndDrains_55.body.serving = true) ∧
    (wChannelEngineBanksAndDrains_56.barrier = true) ∧
    (wChannelEngineBanksAndDrains_56.blocks = []) ∧
    (List.find?
    (fun e =>
      decide (e.2.subchKey = subchKey (↑wChannelEngineBanksAndDrains_56.slice) wChannelEngineBanksAndDrains_56.image.toNat) &&
        (decide (e.2.st = (2 : Byte)) || decide (e.2.st = (3 : Byte))))
    { strands := wChannelEngineBanksAndDrains_55.body.strands, cores := wChannelEngineBanksAndDrains_55.body.cores,
        clusters := wChannelEngineBanksAndDrains_55.body.clusters, dies := wChannelEngineBanksAndDrains_55.body.dies, mem := wChannelEngineBanksAndDrains_55.body.mem,
        io :=
          have __src := wChannelEngineBanksAndDrains_55.body.io;
          { slices := __src.slices, posted := __src.posted, writes := __src.writes, parts := __src.parts, subchs := __src.subchs, targets := __src.targets,
            netaddrs := __src.netaddrs, journal := __src.journal, running := __src.running, cmds := __src.cmds, nextCmd := __src.nextCmd, orphans := __src.orphans,
            streams :=
              tMod wChannelEngineBanksAndDrains_55.body.io.streams ↑(63 : Fin 64) fun x =>
                { slice := x.slice, image := x.image, rate := x.rate, bufbase := x.bufbase, bufsize := x.bufsize, blocks := x.blocks, recov := x.recov,
                  engine := x.engine : Machine.Stream },
            chans := __src.chans, txnCount := __src.txnCount, txnMark := __src.txnMark, engines := __src.engines, jobs := __src.jobs, pools := __src.pools,
            chanPools := __src.chanPools, txPools := __src.txPools, controllers := __src.controllers, answer := __src.answer, keys := __src.keys,
            sealedRecs := __src.sealedRecs, octets := __src.octets, ports := __src.ports, etlb := __src.etlb, einval := __src.einval : Io },
        ctl := wChannelEngineBanksAndDrains_55.body.ctl, freeCtr := wChannelEngineBanksAndDrains_55.body.freeCtr : Body }.outstanding =
  none) :=
  dec

def wChannelEngineBanksAndDrains_57 : ℕ × JEntry := (77, je 2)
theorem witness_ChannelEngineBanksAndDrains_20 :
    (tGet sBar.body.io.streams ↑(63 : Fin 64) = some wChannelEngineBanksAndDrains_56) ∧
    (sBar.body.serving = true) ∧
    (wChannelEngineBanksAndDrains_56.barrier = true) ∧
    (wChannelEngineBanksAndDrains_56.blocks = []) ∧
    (List.find?
    (fun e =>
      decide (e.2.subchKey = subchKey (↑wChannelEngineBanksAndDrains_56.slice) wChannelEngineBanksAndDrains_56.image.toNat) &&
        (decide (e.2.st = (2 : Byte)) || decide (e.2.st = (3 : Byte))))
    { strands := sBar.body.strands, cores := sBar.body.cores, clusters := sBar.body.clusters, dies := sBar.body.dies, mem := sBar.body.mem,
        io :=
          have __src := sBar.body.io;
          { slices := __src.slices, posted := __src.posted, writes := __src.writes, parts := __src.parts, subchs := __src.subchs, targets := __src.targets,
            netaddrs := __src.netaddrs, journal := __src.journal, running := __src.running, cmds := __src.cmds, nextCmd := __src.nextCmd, orphans := __src.orphans,
            streams :=
              tMod sBar.body.io.streams ↑(63 : Fin 64) fun x =>
                { slice := x.slice, image := x.image, rate := x.rate, bufbase := x.bufbase, bufsize := x.bufsize, blocks := x.blocks, recov := x.recov,
                  engine := x.engine : Machine.Stream },
            chans := __src.chans, txnCount := __src.txnCount, txnMark := __src.txnMark, engines := __src.engines, jobs := __src.jobs, pools := __src.pools,
            chanPools := __src.chanPools, txPools := __src.txPools, controllers := __src.controllers, answer := __src.answer, keys := __src.keys,
            sealedRecs := __src.sealedRecs, octets := __src.octets, ports := __src.ports, etlb := __src.etlb, einval := __src.einval : Io },
        ctl := sBar.body.ctl, freeCtr := sBar.body.freeCtr : Body }.outstanding =
  some wChannelEngineBanksAndDrains_57) :=
  dec

def wChannelEngineBanksAndDrains_58 : List DevCmd := (dcmds.drop 1)
theorem witness_ChannelEngineBanksAndDrains_21 :
    (tGet wChannelEngineBanksAndDrains_51.body.io.streams ↑(63 : Fin 64) = some wChannelEngineBanksAndDrains_52) ∧
    (wChannelEngineBanksAndDrains_51.body.serving = true) ∧
    (wChannelEngineBanksAndDrains_51.body.subch (subchKey (↑wChannelEngineBanksAndDrains_52.slice) wChannelEngineBanksAndDrains_52.image.toNat) = some subT) ∧
    (wChannelEngineBanksAndDrains_52.blocks = wChannelEngineBanksAndDrains_53 :: wChannelEngineBanksAndDrains_54) ∧
    (wChannelEngineBanksAndDrains_51.body.drainCmds ↑(63 : Fin 64) = dk :: wChannelEngineBanksAndDrains_58) ∧
    (dk.recov = 0) ∧
    (wChannelEngineBanksAndDrains_51.body.portUp dk.port = true) ∧
    (dk.abort = none) ∧
    ((ans DevClass.busy).cls = DevClass.busy) :=
  dec

theorem witness_ChannelEngineBanksAndDrains_22 :
    (tGet wChannelEngineBanksAndDrains_51.body.io.streams ↑(63 : Fin 64) = some wChannelEngineBanksAndDrains_52) ∧
    (wChannelEngineBanksAndDrains_51.body.serving = true) ∧
    (wChannelEngineBanksAndDrains_51.body.subch (subchKey (↑wChannelEngineBanksAndDrains_52.slice) wChannelEngineBanksAndDrains_52.image.toNat) = some subT) ∧
    (wChannelEngineBanksAndDrains_52.blocks = wChannelEngineBanksAndDrains_53 :: wChannelEngineBanksAndDrains_54) ∧
    (wChannelEngineBanksAndDrains_51.body.drainCmds ↑(63 : Fin 64) = dk :: wChannelEngineBanksAndDrains_58) ∧
    (dk.recov = 0) ∧
    (wChannelEngineBanksAndDrains_51.body.portUp dk.port = true) ∧
    (dk.abort = none) ∧
    ((ans DevClass.good).cls = DevClass.good) ∧
    (wChannelEngineBanksAndDrains_54 ≠ []) :=
  dec

theorem witness_ChannelEngineBanksAndDrains_23 :
    (tGet wChannelEngineBanksAndDrains_51.body.io.streams ↑(63 : Fin 64) = some wChannelEngineBanksAndDrains_52) ∧
    (wChannelEngineBanksAndDrains_51.body.serving = true) ∧
    (wChannelEngineBanksAndDrains_51.body.subch (subchKey (↑wChannelEngineBanksAndDrains_52.slice) wChannelEngineBanksAndDrains_52.image.toNat) = some subT) ∧
    (wChannelEngineBanksAndDrains_52.blocks = wChannelEngineBanksAndDrains_53 :: wChannelEngineBanksAndDrains_54) ∧
    (wChannelEngineBanksAndDrains_51.body.drainCmds ↑(63 : Fin 64) = dk :: wChannelEngineBanksAndDrains_58) ∧
    (dk.recov = 0) ∧
    (wChannelEngineBanksAndDrains_51.body.portUp dk.port = true) ∧
    (dk.abort = none) ∧
    ((ans DevClass.error).cls = DevClass.error) :=
  dec
end G11

namespace G12
def wr (op fl len addr : Nat) : List Byte := leBytes 1 op ++ leBytes 1 fl ++ [0, 0] ++ leBytes 4 len ++ leBytes 8 addr ++ List.replicate 48 0
def nq (lim : BitVec 16) (p : Qp) : Slice := { st := .bound, kind := 4, part := 0, asid := 0, gen := 3, limit := lim, weight := 2, sq := {}, cq := {}, qps := [(255, p)], mrs := [(63, { base := 0x1000, len := 0x100, rwrite := true, en := true, seq := 9, used := true })] }
def na0 : NetAddr := { slice := 5, port := 9, alt := none, mac := [1, 2, 3, 4, 5, 6], vlan := 0, ip := [10, 0, 0, 1], rip := [10, 0, 0, 2] }
def sQ (lim : BitVec 16) (p : Qp) (d : List Byte) : State :=
  let s := holding (running atK) [0x300000, 0x300080] (lineOf (padTo 128 d))
  { s with body := s.body.modIo fun i => { i with slices := [(5, nq lim p)], netaddrs := [(0, na0), (1, { na0 with rip := [8, 8, 8, 8] })], octets := i.octets.set 1 { mode := 1, mtu := 1518 }, ports := [(9, { st := .up })] } }
def qp1 (typ : BitVec 2) (sq rq : BitVec 32) : Qp := { st := 1, typ := typ, sqbase := 0x300000, rqbase := 0x300080, sqlog := 3, rqlog := 3, sqhead := sq, sqtail := 8, rqhead := rq, rqtail := 16 }
def own (s : State) : Owner := s.body.ownerOf 5 3 (s.body.servingHub 5 0)
def poolOf' (s : State) (b : Body) : PoolClock := (b.txTurn 9 5 255).getD {}
def dat12 (s : State) (b : Body) (p : Qp) (op : Nat) (a n : Nat) : Body × List Byte := let b1 := b.setQp 5 255 { p with sqhead := p.sqhead + 1 }
  if op = 5 then (b1, []) else let x := b1.engRead (own s) a n; (x.1, x.2.toOption.getD [])
def rdAt (s : State) (a : Nat) : Body := (s.body.engRead (own s) a 64).1

def msg0 : NetMsg := { op := 1, port := 9, ip := [], rip := [], dqpn := 0, raddr := 0, rkey := 0, imm := 0, len := 4, data := [1] }
def qS (r : Nat) : Qp := { qp1 1 0 0 with sent := [(wr 1 0 4 0x300004, msg0), (wr 3 0 4 0x300004, msg0)], retries := r }
def qT : Qp := { qp1 1 0 0 with sent := [(wr 1 0 4 0x300004, msg0)], retries := 7 }
def qR (t : BitVec 2) : Qp := { qp1 t 0 0 with recvs := [wr 0x80 0 4 0x300004, wr 0x80 0 4 0] }
def nr (st : Byte) (recv : Bool) : NetqResult := { status := st, recv := recv, imm := 0x99, srcQp := 0x77, data := [] }
def inb (key : Nat) (w : Bool) : InboundRdma := { slice := 5, rkey := BitVec.ofNat 32 key, addr := 0x10FC, len := 4, write := w, data := if w then [1, 2, 3, 4] else [] }

def sRd : State := let s := sQ 9 (qS 0) []
  { s with body := s.body.modSlice 5 fun x => { x with mrs := [(63, { base := 0x1000, len := 0x100, rread := true, en := true, seq := 9, used := true })] } }

def wQueuePairs_0 : State := (sQ 9 (qp1 1 8 16) (wr 1 0 4 0x300004))
def wQueuePairs_2 : Qp := (qp1 1 8 16)
def wQueuePairs_3 : List Byte := (wr 1 0 4 0x300004)
def wQueuePairs_4 : Instr × Byte := (.send 5 255, 1)
theorem witness_QueuePairs_1 :
    (wQueuePairs_4 ∈
  [(Instr.send (5 : SliceId) (255 : Byte), (1 : Byte)), (Instr.sendImm (5 : SliceId) (255 : Byte), (2 : Byte)), (Instr.rdmaWrite (5 : SliceId) (255 : Byte), (3 : Byte)),
    (Instr.rdmaWriteImm (5 : SliceId) (255 : Byte), (4 : Byte)), (Instr.rdmaRead (5 : SliceId) (255 : Byte), (5 : Byte)),
    (Instr.recv (5 : SliceId) (255 : Byte), (128 : Byte))]) ∧
    (wQueuePairs_0.body.netqUp (5 : SliceId) = true) ∧
    (wQueuePairs_0.body.qp (5 : SliceId) (BitVec.toNat (255 : Byte)) = wQueuePairs_2) ∧
    (wQueuePairs_2.st = (1 : BitVec 2)) ∧
    ((if wQueuePairs_4.2 = (128 : Byte) then wQueuePairs_2.rqstop else wQueuePairs_2.sqstop) = false) ∧
    ((if wQueuePairs_4.2 = (128 : Byte) then wQueuePairs_2.rqhead else wQueuePairs_2.sqhead) =
  if wQueuePairs_4.2 = (128 : Byte) then wQueuePairs_2.rqtail else wQueuePairs_2.sqtail) :=
  dec

def wQueuePairs_5 : State := (sQ 9 (qp1 1 0 16) (wr 77 0 4 0x300004))
def wQueuePairs_6 : Body := (rdAt (sQ 9 (qp1 1 0 16) (wr 77 0 4 0x300004)) 0x300000)
def wQueuePairs_7 : Qp := (qp1 1 0 16)
def wQueuePairs_8 : List Byte := (wr 77 0 4 0x300004)
theorem witness_QueuePairs_2 :
    (wQueuePairs_5.body.engRead
    (wQueuePairs_5.body.ownerOf (5 : SliceId) (wQueuePairs_5.body.slice (5 : SliceId)).gen
      (wQueuePairs_5.body.servingHub (5 : SliceId) (wQueuePairs_5.body.slice (5 : SliceId)).part))
    ((BitVec.toNat (if wQueuePairs_4.2 = (128 : Byte) then wQueuePairs_7.rqbase else wQueuePairs_7.sqbase) +
        (if wQueuePairs_4.2 = (128 : Byte) then wQueuePairs_7.rqhead else wQueuePairs_7.sqhead).toNat %
            2 ^ (if wQueuePairs_4.2 = (128 : Byte) then wQueuePairs_7.rqlog else wQueuePairs_7.sqlog).toNat *
          64) %
      2 ^ 64)
    64 =
  (wQueuePairs_6, Except.ok wQueuePairs_8)) ∧
    (wQueuePairs_4 ∈
  [(Instr.send (5 : SliceId) (255 : Byte), (1 : Byte)), (Instr.sendImm (5 : SliceId) (255 : Byte), (2 : Byte)), (Instr.rdmaWrite (5 : SliceId) (255 : Byte), (3 : Byte)),
    (Instr.rdmaWriteImm (5 : SliceId) (255 : Byte), (4 : Byte)), (Instr.rdmaRead (5 : SliceId) (255 : Byte), (5 : Byte)),
    (Instr.recv (5 : SliceId) (255 : Byte), (128 : Byte))]) ∧
    (wQueuePairs_5.body.netqUp (5 : SliceId) = true) ∧
    (wQueuePairs_5.body.qp (5 : SliceId) (BitVec.toNat (255 : Byte)) = wQueuePairs_7) ∧
    (wQueuePairs_7.st = (1 : BitVec 2)) ∧
    ((if wQueuePairs_4.2 = (128 : Byte) then wQueuePairs_7.rqstop else wQueuePairs_7.sqstop) = false) ∧
    ((if wQueuePairs_4.2 = (128 : Byte) then wQueuePairs_7.rqhead else wQueuePairs_7.sqhead) ≠
  if wQueuePairs_4.2 = (128 : Byte) then wQueuePairs_7.rqtail else wQueuePairs_7.sqtail) ∧
    (wQueuePairs_6.slice (5 : SliceId) = wQueuePairs_5.body.slice (5 : SliceId)) ∧
    (wrOp wQueuePairs_8 ≠ wQueuePairs_4.2) :=
  ⟨rfl, dec⟩

def wQueuePairs_9 : State := (sQ 0 (qp1 1 0 16) (wr 1 0 4 0x300004))
def wQueuePairs_10 : Body := (rdAt (sQ 0 (qp1 1 0 16) (wr 1 0 4 0x300004)) 0x300000)
theorem witness_QueuePairs_3 :
    (wQueuePairs_9.body.engRead
    (wQueuePairs_9.body.ownerOf (5 : SliceId) (wQueuePairs_9.body.slice (5 : SliceId)).gen
      (wQueuePairs_9.body.servingHub (5 : SliceId) (wQueuePairs_9.body.slice (5 : SliceId)).part))
    ((BitVec.toNat (if wQueuePairs_4.2 = (128 : Byte) then wQueuePairs_7.rqbase else wQueuePairs_7.sqbase) +
        (if wQueuePairs_4.2 = (128 : Byte) then wQueuePairs_7.rqhead else wQueuePairs_7.sqhead).toNat %
            2 ^ (if wQueuePairs_4.2 = (128 : Byte) then wQueuePairs_7.rqlog else wQueuePairs_7.sqlog).toNat *
          64) %
      2 ^ 64)
    64 =
  (wQueuePairs_10, Except.ok wQueuePairs_3)) ∧
    (wQueuePairs_4 ∈
  [(Instr.send (5 : SliceId) (255 : Byte), (1 : Byte)), (Instr.sendImm (5 : SliceId) (255 : Byte), (2 : Byte)), (Instr.rdmaWrite (5 : SliceId) (255 : Byte), (3 : Byte)),
    (Instr.rdmaWriteImm (5 : SliceId) (255 : Byte), (4 : Byte)), (Instr.rdmaRead (5 : SliceId) (255 : Byte), (5 : Byte)),
    (Instr.recv (5 : SliceId) (255 : Byte), (128 : Byte))]) ∧
    (wQueuePairs_9.body.netqUp (5 : SliceId) = true) ∧
    (wQueuePairs_9.body.qp (5 : SliceId) (BitVec.toNat (255 : Byte)) = wQueuePairs_7) ∧
    (wQueuePairs_7.st = (1 : BitVec 2)) ∧
    ((if wQueuePairs_4.2 = (128 : Byte) then wQueuePairs_7.rqstop else wQueuePairs_7.sqstop) = false) ∧
    ((if wQueuePairs_4.2 = (128 : Byte) then wQueuePairs_7.rqhead else wQueuePairs_7.sqhead) ≠
  if wQueuePairs_4.2 = (128 : Byte) then wQueuePairs_7.rqtail else wQueuePairs_7.sqtail) ∧
    (wQueuePairs_10.slice (5 : SliceId) = wQueuePairs_9.body.slice (5 : SliceId)) ∧
    (wrOp wQueuePairs_3 = wQueuePairs_4.2) ∧
    (BitVec.getLsbD (wQueuePairs_3.getD 1 (0 : Byte)) 0 = false ∨ ∀ w ∈ wQueuePairs_7.sent, wrOp w.1 ≠ (5 : Byte)) ∧
    ((wQueuePairs_9.body.slice (5 : SliceId)).limit.toNat ≤ wQueuePairs_10.occ (5 : SliceId)) ∧
    ((wQueuePairs_9.body.slice (5 : SliceId)).waiting = []) ∧
    ((wQueuePairs_9.body.slice (5 : SliceId)).cq.stopped = true ∨ (wQueuePairs_9.body.slice (5 : SliceId)).cq.en = false) :=
  ⟨rfl, dec⟩

def wQueuePairs_11 : State := (sQ 9 (qp1 2 0 16) (wr 1 0 4 0x300004))
def wQueuePairs_12 : Body := (rdAt (sQ 9 (qp1 2 0 16) (wr 1 0 4 0x300004)) 0x300000)
def wQueuePairs_13 : Qp := (qp1 2 0 16)
def wQueuePairs_14 : PoolClock := (poolOf' (sQ 9 (qp1 2 0 16) (wr 1 0 4 0x300004)) (rdAt (sQ 9 (qp1 2 0 16) (wr 1 0 4 0x300004)) 0x300000))
def wQueuePairs_15 : Body := (dat12 (sQ 9 (qp1 2 0 16) (wr 1 0 4 0x300004)) (rdAt (sQ 9 (qp1 2 0 16) (wr 1 0 4 0x300004)) 0x300000) (qp1 2 0 16) 1 0x300004 4).1
def wQueuePairs_16 : List Byte := (dat12 (sQ 9 (qp1 2 0 16) (wr 1 0 4 0x300004)) (rdAt (sQ 9 (qp1 2 0 16) (wr 1 0 4 0x300004)) 0x300000) (qp1 2 0 16) 1 0x300004 4).2
theorem witness_QueuePairs_4 (h : Obligations.QueuePairs) : ∃ t, exec (wQueuePairs_4.1) (wQueuePairs_11) = .next t := by
  have p := ((((((((((((((((((((((((((((((h.1 wQueuePairs_11) (5)) (255)) wQueuePairs_12) wQueuePairs_13) wQueuePairs_3) wQueuePairs_4) (dec)) (dec)) (dec)) (dec)) (dec)).2 (dec)) (rfl)) (dec)).2 (dec)) (dec)).2.1 na0) na0) wQueuePairs_14) wQueuePairs_15) wQueuePairs_16) (dec)) (dec)) (dec)) (dec)) (dec)) (dec)) (dec)) (by rw [if_neg (by decide)]; rfl))
  exact (let ⟨_, q⟩ := p; next_of q.1)

def wQueuePairs_17 : State := (sQ 9 (qp1 1 0 16) (wr 5 0 4 0x300004))
def wQueuePairs_18 : Body := (rdAt (sQ 9 (qp1 1 0 16) (wr 5 0 4 0x300004)) 0x300000)
def wQueuePairs_19 : List Byte := (wr 5 0 4 0x300004)
def wQueuePairs_20 : Instr × Byte := (.rdmaRead 5 255, 5)
def wQueuePairs_21 : PoolClock := (poolOf' (sQ 9 (qp1 1 0 16) (wr 5 0 4 0x300004)) (rdAt (sQ 9 (qp1 1 0 16) (wr 5 0 4 0x300004)) 0x300000))
def wQueuePairs_22 : Body := (dat12 (sQ 9 (qp1 1 0 16) (wr 5 0 4 0x300004)) (rdAt (sQ 9 (qp1 1 0 16) (wr 5 0 4 0x300004)) 0x300000) (qp1 1 0 16) 5 0x300004 4).1
def wQueuePairs_23 : List Byte := (dat12 (sQ 9 (qp1 1 0 16) (wr 5 0 4 0x300004)) (rdAt (sQ 9 (qp1 1 0 16) (wr 5 0 4 0x300004)) 0x300000) (qp1 1 0 16) 5 0x300004 4).2
theorem witness_QueuePairs_5 (h : Obligations.QueuePairs) : ∃ t, exec (wQueuePairs_20.1) (wQueuePairs_17) = .next t := by
  have p := ((((((((((((((((((((((((((((((h.1 wQueuePairs_17) (5)) (255)) wQueuePairs_18) wQueuePairs_7) wQueuePairs_19) wQueuePairs_20) (dec)) (dec)) (dec)) (dec)) (dec)).2 (dec)) (rfl)) (dec)).2 (dec)) (dec)).2.1 na0) na0) wQueuePairs_21) wQueuePairs_22) wQueuePairs_23) (dec)) (dec)) (dec)) (dec)) (dec)) (dec)) (dec)) (by rw [if_pos (by decide)]; exact ⟨rfl, rfl⟩))
  exact (let ⟨_, q⟩ := p; next_of q.1)

def wQueuePairs_24 : State := (sQ 9 (qp1 1 8 16) (wr 128 0 4 0x300004))
def wQueuePairs_26 : List Byte := (wr 128 0 4 0x300004)
def wQueuePairs_27 : Instr × Byte := (.recv 5 255, 128)
theorem witness_QueuePairs_6 :
    (wQueuePairs_27 ∈
  [(Instr.send (5 : SliceId) (255 : Byte), (1 : Byte)), (Instr.sendImm (5 : SliceId) (255 : Byte), (2 : Byte)), (Instr.rdmaWrite (5 : SliceId) (255 : Byte), (3 : Byte)),
    (Instr.rdmaWriteImm (5 : SliceId) (255 : Byte), (4 : Byte)), (Instr.rdmaRead (5 : SliceId) (255 : Byte), (5 : Byte)),
    (Instr.recv (5 : SliceId) (255 : Byte), (128 : Byte))]) ∧
    (wQueuePairs_24.body.netqUp (5 : SliceId) = true) ∧
    (wQueuePairs_24.body.qp (5 : SliceId) (BitVec.toNat (255 : Byte)) = wQueuePairs_2) ∧
    (wQueuePairs_2.st = (1 : BitVec 2)) ∧
    ((if wQueuePairs_27.2 = (128 : Byte) then wQueuePairs_2.rqstop else wQueuePairs_2.sqstop) = false) ∧
    ((if wQueuePairs_27.2 = (128 : Byte) then wQueuePairs_2.rqhead else wQueuePairs_2.sqhead) =
  if wQueuePairs_27.2 = (128 : Byte) then wQueuePairs_2.rqtail else wQueuePairs_2.sqtail) :=
  dec

def wQueuePairs_28 : State := (sQ 9 (qp1 1 8 8) (wr 77 0 4 0x300004))
def wQueuePairs_29 : Body := (rdAt (sQ 9 (qp1 1 8 8) (wr 77 0 4 0x300004)) 0x300080)
def wQueuePairs_30 : Qp := (qp1 1 8 8)
theorem witness_QueuePairs_7 :
    (wQueuePairs_28.body.engRead
    (wQueuePairs_28.body.ownerOf (5 : SliceId) (wQueuePairs_28.body.slice (5 : SliceId)).gen
      (wQueuePairs_28.body.servingHub (5 : SliceId) (wQueuePairs_28.body.slice (5 : SliceId)).part))
    ((BitVec.toNat (if wQueuePairs_27.2 = (128 : Byte) then wQueuePairs_30.rqbase else wQueuePairs_30.sqbase) +
        (if wQueuePairs_27.2 = (128 : Byte) then wQueuePairs_30.rqhead else wQueuePairs_30.sqhead).toNat %
            2 ^ (if wQueuePairs_27.2 = (128 : Byte) then wQueuePairs_30.rqlog else wQueuePairs_30.sqlog).toNat *
          64) %
      2 ^ 64)
    64 =
  (wQueuePairs_29, Except.ok wQueuePairs_8)) ∧
    (wQueuePairs_27 ∈
  [(Instr.send (5 : SliceId) (255 : Byte), (1 : Byte)), (Instr.sendImm (5 : SliceId) (255 : Byte), (2 : Byte)), (Instr.rdmaWrite (5 : SliceId) (255 : Byte), (3 : Byte)),
    (Instr.rdmaWriteImm (5 : SliceId) (255 : Byte), (4 : Byte)), (Instr.rdmaRead (5 : SliceId) (255 : Byte), (5 : Byte)),
    (Instr.recv (5 : SliceId) (255 : Byte), (128 : Byte))]) ∧
    (wQueuePairs_28.body.netqUp (5 : SliceId) = true) ∧
    (wQueuePairs_28.body.qp (5 : SliceId) (BitVec.toNat (255 : Byte)) = wQueuePairs_30) ∧
    (wQueuePairs_30.st = (1 : BitVec 2)) ∧
    ((if wQueuePairs_27.2 = (128 : Byte) then wQueuePairs_30.rqstop else wQueuePairs_30.sqstop) = false) ∧
    ((if wQueuePairs_27.2 = (128 : Byte) then wQueuePairs_30.rqhead else wQueuePairs_30.sqhead) ≠
  if wQueuePairs_27.2 = (128 : Byte) then wQueuePairs_30.rqtail else wQueuePairs_30.sqtail) ∧
    (wQueuePairs_29.slice (5 : SliceId) = wQueuePairs_28.body.slice (5 : SliceId)) ∧
    (wrOp wQueuePairs_8 ≠ wQueuePairs_27.2) :=
  ⟨rfl, dec⟩

def wQueuePairs_31 : State := (sQ 0 (qp1 1 8 8) (wr 128 0 4 0x300004))
def wQueuePairs_32 : Body := (rdAt (sQ 0 (qp1 1 8 8) (wr 128 0 4 0x300004)) 0x300080)
theorem witness_QueuePairs_8 :
    (wQueuePairs_31.body.engRead
    (wQueuePairs_31.body.ownerOf (5 : SliceId) (wQueuePairs_31.body.slice (5 : SliceId)).gen
      (wQueuePairs_31.body.servingHub (5 : SliceId) (wQueuePairs_31.body.slice (5 : SliceId)).part))
    ((BitVec.toNat (if wQueuePairs_27.2 = (128 : Byte) then wQueuePairs_30.rqbase else wQueuePairs_30.sqbase) +
        (if wQueuePairs_27.2 = (128 : Byte) then wQueuePairs_30.rqhead else wQueuePairs_30.sqhead).toNat %
            2 ^ (if wQueuePairs_27.2 = (128 : Byte) then wQueuePairs_30.rqlog else wQueuePairs_30.sqlog).toNat *
          64) %
      2 ^ 64)
    64 =
  (wQueuePairs_32, Except.ok wQueuePairs_26)) ∧
    (wQueuePairs_27 ∈
  [(Instr.send (5 : SliceId) (255 : Byte), (1 : Byte)), (Instr.sendImm (5 : SliceId) (255 : Byte), (2 : Byte)), (Instr.rdmaWrite (5 : SliceId) (255 : Byte), (3 : Byte)),
    (Instr.rdmaWriteImm (5 : SliceId) (255 : Byte), (4 : Byte)), (Instr.rdmaRead (5 : SliceId) (255 : Byte), (5 : Byte)),
    (Instr.recv (5 : SliceId) (255 : Byte), (128 : Byte))]) ∧
    (wQueuePairs_31.body.netqUp (5 : SliceId) = true) ∧
    (wQueuePairs_31.body.qp (5 : SliceId) (BitVec.toNat (255 : Byte)) = wQueuePairs_30) ∧
    (wQueuePairs_30.st = (1 : BitVec 2)) ∧
    ((if wQueuePairs_27.2 = (128 : Byte) then wQueuePairs_30.rqstop else wQueuePairs_30.sqstop) = false) ∧
    ((if wQueuePairs_27.2 = (128 : Byte) then wQueuePairs_30.rqhead else wQueuePairs_30.sqhead) ≠
  if wQueuePairs_27.2 = (128 : Byte) then wQueuePairs_30.rqtail else wQueuePairs_30.sqtail) ∧
    (wQueuePairs_32.slice (5 : SliceId) = wQueuePairs_31.body.slice (5 : SliceId)) ∧
    (wrOp wQueuePairs_26 = wQueuePairs_27.2) ∧
    (BitVec.getLsbD (wQueuePairs_26.getD 1 (0 : Byte)) 0 = false ∨ ∀ w ∈ wQueuePairs_30.sent, wrOp w.1 ≠ (5 : Byte)) ∧
    ((wQueuePairs_31.body.slice (5 : SliceId)).limit.toNat ≤ wQueuePairs_32.occ (5 : SliceId)) ∧
    ((wQueuePairs_31.body.slice (5 : SliceId)).waiting = []) ∧
    ((wQueuePairs_31.body.slice (5 : SliceId)).cq.stopped = true ∨ (wQueuePairs_31.body.slice (5 : SliceId)).cq.en = false) :=
  ⟨rfl, dec⟩

def wQueuePairs_33 : State := (sQ 9 (qp1 1 8 8) (wr 128 0 4 0x300004))
def wQueuePairs_34 : Body := (rdAt (sQ 9 (qp1 1 8 8) (wr 128 0 4 0x300004)) 0x300080)
theorem witness_QueuePairs_9 :
    (wQueuePairs_33.body.engRead
    (wQueuePairs_33.body.ownerOf (5 : SliceId) (wQueuePairs_33.body.slice (5 : SliceId)).gen
      (wQueuePairs_33.body.servingHub (5 : SliceId) (wQueuePairs_33.body.slice (5 : SliceId)).part))
    ((BitVec.toNat (if wQueuePairs_27.2 = (128 : Byte) then wQueuePairs_30.rqbase else wQueuePairs_30.sqbase) +
        (if wQueuePairs_27.2 = (128 : Byte) then wQueuePairs_30.rqhead else wQueuePairs_30.sqhead).toNat %
            2 ^ (if wQueuePairs_27.2 = (128 : Byte) then wQueuePairs_30.rqlog else wQueuePairs_30.sqlog).toNat *
          64) %
      2 ^ 64)
    64 =
  (wQueuePairs_34, Except.ok wQueuePairs_26)) ∧
    (wQueuePairs_27 ∈
  [(Instr.send (5 : SliceId) (255 : Byte), (1 : Byte)), (Instr.sendImm (5 : SliceId) (255 : Byte), (2 : Byte)), (Instr.rdmaWrite (5 : SliceId) (255 : Byte), (3 : Byte)),
    (Instr.rdmaWriteImm (5 : SliceId) (255 : Byte), (4 : Byte)), (Instr.rdmaRead (5 : SliceId) (255 : Byte), (5 : Byte)),
    (Instr.recv (5 : SliceId) (255 : Byte), (128 : Byte))]) ∧
    (wQueuePairs_33.body.netqUp (5 : SliceId) = true) ∧
    (wQueuePairs_33.body.qp (5 : SliceId) (BitVec.toNat (255 : Byte)) = wQueuePairs_30) ∧
    (wQueuePairs_30.st = (1 : BitVec 2)) ∧
    ((if wQueuePairs_27.2 = (128 : Byte) then wQueuePairs_30.rqstop else wQueuePairs_30.sqstop) = false) ∧
    ((if wQueuePairs_27.2 = (128 : Byte) then wQueuePairs_30.rqhead else wQueuePairs_30.sqhead) ≠
  if wQueuePairs_27.2 = (128 : Byte) then wQueuePairs_30.rqtail else wQueuePairs_30.sqtail) ∧
    (wQueuePairs_34.slice (5 : SliceId) = wQueuePairs_33.body.slice (5 : SliceId)) ∧
    (wrOp wQueuePairs_26 = wQueuePairs_27.2) ∧
    (BitVec.getLsbD (wQueuePairs_26.getD 1 (0 : Byte)) 0 = false ∨ ∀ w ∈ wQueuePairs_30.sent, wrOp w.1 ≠ (5 : Byte)) ∧
    (wQueuePairs_34.occ (5 : SliceId) < (wQueuePairs_33.body.slice (5 : SliceId)).limit.toNat) ∧
    ((wQueuePairs_27.2 = (128 : Byte)) = (true = true)) :=
  ⟨rfl, dec⟩

def wQueuePairs_35 : State := (sQ 9 (qS 3) [])
def wQueuePairs_36 : Qp := (qS 3)
def wQueuePairs_37 : List (List Byte × NetMsg) := [(wr 3 0 4 0x300004, msg0)]
theorem witness_QueuePairs_10 :
    (wQueuePairs_35.body.netqUp (5 : SliceId) = true) ∧
    (wQueuePairs_35.body.qp (5 : SliceId) (BitVec.toNat (255 : Byte)) = wQueuePairs_36) ∧
    (wQueuePairs_36.st = (1 : BitVec 2)) ∧
    ((wQueuePairs_35.body.slice (5 : SliceId)).waiting = []) ∧
    ((wQueuePairs_35.body.slice (5 : SliceId)).cq.stopped = true ∨ (wQueuePairs_35.body.slice (5 : SliceId)).cq.en = false) :=
  dec

def wQueuePairs_38 : State := (sQ 9 (qp1 1 0 0) [])
def wQueuePairs_39 : Qp := (qp1 1 0 0)
theorem witness_QueuePairs_11 :
    (wQueuePairs_38.body.netqUp (5 : SliceId) = true) ∧
    (wQueuePairs_38.body.qp (5 : SliceId) (BitVec.toNat (255 : Byte)) = wQueuePairs_39) ∧
    (wQueuePairs_39.st = (1 : BitVec 2)) ∧
    ((wQueuePairs_38.body.slice (5 : SliceId)).waiting = []) ∧
    ((wQueuePairs_38.body.slice (5 : SliceId)).cq.stopped = true ∨ (wQueuePairs_38.body.slice (5 : SliceId)).cq.en = false) ∧
    (wQueuePairs_39.sent = []) ∧
    (wQueuePairs_39.typ = (1 : BitVec 2)) :=
  dec

def wQueuePairs_40 : State := (sQ 9 (qS 6) [])
def wQueuePairs_41 : Qp := (qS 6)
theorem witness_QueuePairs_12 :
    (wQueuePairs_40.body.netqUp (5 : SliceId) = true) ∧
    (wQueuePairs_40.body.qp (5 : SliceId) (BitVec.toNat (255 : Byte)) = wQueuePairs_41) ∧
    (wQueuePairs_41.st = (1 : BitVec 2)) ∧
    ((wQueuePairs_40.body.slice (5 : SliceId)).waiting = []) ∧
    ((wQueuePairs_40.body.slice (5 : SliceId)).cq.stopped = true ∨ (wQueuePairs_40.body.slice (5 : SliceId)).cq.en = false) ∧
    (wQueuePairs_41.sent = (wQueuePairs_3, msg0) :: wQueuePairs_37) ∧
    (wQueuePairs_41.typ = (1 : BitVec 2)) ∧
    (wQueuePairs_41.retries < 7) :=
  dec

def wQueuePairs_42 : State := (sQ 9 (qT) [])
theorem witness_QueuePairs_13 :
    (wQueuePairs_42.body.netqUp (5 : SliceId) = true) ∧
    (wQueuePairs_42.body.qp (5 : SliceId) (BitVec.toNat (255 : Byte)) = qT) ∧
    (qT.st = (1 : BitVec 2)) ∧
    ((wQueuePairs_42.body.slice (5 : SliceId)).waiting = []) ∧
    ((wQueuePairs_42.body.slice (5 : SliceId)).cq.stopped = true ∨ (wQueuePairs_42.body.slice (5 : SliceId)).cq.en = false) ∧
    (qT.sent = [(wQueuePairs_3, msg0)]) ∧
    (qT.recvs = []) ∧
    (qT.typ = (1 : BitVec 2)) ∧
    (7 ≤ qT.retries) :=
  dec

def wQueuePairs_43 : State := (sQ 9 (qS 0) [])
def wQueuePairs_44 : Qp := (qS 0)
def wQueuePairs_45 : NetqResult := (nr 0 false)
theorem witness_QueuePairs_14 :
    (wQueuePairs_43.body.netqUp (5 : SliceId) = true) ∧
    (wQueuePairs_43.body.qp (5 : SliceId) (BitVec.toNat (255 : Byte)) = wQueuePairs_44) ∧
    (wQueuePairs_44.st = (1 : BitVec 2)) ∧
    ((wQueuePairs_43.body.slice (5 : SliceId)).waiting = []) ∧
    ((wQueuePairs_43.body.slice (5 : SliceId)).cq.stopped = true ∨ (wQueuePairs_43.body.slice (5 : SliceId)).cq.en = false) ∧
    (wQueuePairs_45.recv = false) ∧
    (wQueuePairs_45.status = (0 : Byte)) ∧
    (wrOp wQueuePairs_3 ≠ (5 : Byte)) ∧
    (wQueuePairs_44.sent = (wQueuePairs_3, msg0) :: wQueuePairs_37) :=
  dec

def wQueuePairs_46 : State := (sQ 9 (qR 1) [])
def wQueuePairs_47 : Qp := (qR 1)
def wQueuePairs_48 : NetqResult := (nr 0 true)
def wQueuePairs_49 : List (List Byte) := [wr 0x80 0 4 0]
theorem witness_QueuePairs_15 :
    (wQueuePairs_46.body.netqUp (5 : SliceId) = true) ∧
    (wQueuePairs_46.body.qp (5 : SliceId) (BitVec.toNat (255 : Byte)) = wQueuePairs_47) ∧
    (wQueuePairs_47.st = (1 : BitVec 2)) ∧
    ((wQueuePairs_46.body.slice (5 : SliceId)).waiting = []) ∧
    ((wQueuePairs_46.body.slice (5 : SliceId)).cq.stopped = true ∨ (wQueuePairs_46.body.slice (5 : SliceId)).cq.en = false) ∧
    (wQueuePairs_48.recv = true) ∧
    (wQueuePairs_48.data = []) ∧
    (wQueuePairs_47.recvs = wQueuePairs_26 :: wQueuePairs_49) :=
  dec

def wQueuePairs_50 : InboundRdma := (inb 3137545 true)
def wQueuePairs_51 : Body := ((sQ 9 (qS 0) []).body.engWrite (own (sQ 9 (qS 0) [])) 0x10FC [1, 2, 3, 4]).1
theorem witness_QueuePairs_16 :
    (wQueuePairs_43.body.engWrite
    (wQueuePairs_43.body.ownerOf (5 : SliceId) (wQueuePairs_43.body.slice (5 : SliceId)).gen
      (wQueuePairs_43.body.servingHub (5 : SliceId) (wQueuePairs_43.body.slice (5 : SliceId)).part))
    wQueuePairs_50.addr.toNat wQueuePairs_50.data =
  (wQueuePairs_51, Except.ok ())) ∧
    (wQueuePairs_43.body.netqUp (5 : SliceId) = true) ∧
    (wQueuePairs_43.body.qp (5 : SliceId) (BitVec.toNat (255 : Byte)) = wQueuePairs_44) ∧
    (wQueuePairs_44.st = (1 : BitVec 2)) ∧
    ((wQueuePairs_43.body.slice (5 : SliceId)).waiting = []) ∧
    ((wQueuePairs_43.body.slice (5 : SliceId)).cq.stopped = true ∨ (wQueuePairs_43.body.slice (5 : SliceId)).cq.en = false) ∧
    (wQueuePairs_50.slice = (5 : SliceId)) ∧
    (wQueuePairs_43.body.inboundOk wQueuePairs_50 = true) ∧
    (wQueuePairs_50.write = true) ∧
    (wQueuePairs_50.data.length = wQueuePairs_50.len) :=
  ⟨rfl, dec⟩

def wQueuePairs_52 : InboundRdma := (inb 3137545 false)
def wQueuePairs_53 : Body := (sRd.body.engRead (own sRd) 0x10FC 4).1
def wQueuePairs_54 : List Byte := (sRd.body.engRead (own sRd) 0x10FC 4).2.toOption.getD []
theorem witness_QueuePairs_17 :
    (sRd.body.engRead (sRd.body.ownerOf (5 : SliceId) (sRd.body.slice (5 : SliceId)).gen (sRd.body.servingHub (5 : SliceId) (sRd.body.slice (5 : SliceId)).part))
    wQueuePairs_52.addr.toNat wQueuePairs_52.len =
  (wQueuePairs_53, Except.ok wQueuePairs_54)) ∧
    (sRd.body.netqUp (5 : SliceId) = true) ∧
    (sRd.body.qp (5 : SliceId) (BitVec.toNat (255 : Byte)) = wQueuePairs_44) ∧
    (wQueuePairs_44.st = (1 : BitVec 2)) ∧
    ((sRd.body.slice (5 : SliceId)).waiting = []) ∧
    ((sRd.body.slice (5 : SliceId)).cq.stopped = true ∨ (sRd.body.slice (5 : SliceId)).cq.en = false) ∧
    (wQueuePairs_52.slice = (5 : SliceId)) ∧
    (sRd.body.inboundOk wQueuePairs_52 = true) ∧
    (wQueuePairs_52.write = false) :=
  ⟨rfl, dec⟩

def wQueuePairs_55 : InboundRdma := (inb 3137546 true)
theorem witness_QueuePairs_18 :
    (wQueuePairs_43.body.netqUp (5 : SliceId) = true) ∧
    (wQueuePairs_43.body.qp (5 : SliceId) (BitVec.toNat (255 : Byte)) = wQueuePairs_44) ∧
    (wQueuePairs_44.st = (1 : BitVec 2)) ∧
    ((wQueuePairs_43.body.slice (5 : SliceId)).waiting = []) ∧
    ((wQueuePairs_43.body.slice (5 : SliceId)).cq.stopped = true ∨ (wQueuePairs_43.body.slice (5 : SliceId)).cq.en = false) ∧
    (wQueuePairs_55.slice = (5 : SliceId)) ∧
    (wQueuePairs_43.body.inboundOk wQueuePairs_55 = false) ∧
    (wQueuePairs_55.write = true → wQueuePairs_55.data.length = wQueuePairs_55.len) :=
  dec
end G12

namespace G13
def pw (s : State) : State := { s with body := s.body.modCtl fun c => { c with islands := Vector.replicate 2 { powered := true } } }
def prt (mode : Byte) (x : Port) : State := let s := pw (running atK)
  { s with body := s.body.modIo fun i => { i with octets := i.octets.set 11 { mode := mode, rate := 4, width := 8, fec := 0 }, ports := [(88, x)], subchs := [(5 * 4096 + 2, { kind := 1, blksz := 512, paths := [{ port := 88, proto := 1, target := 7, st := 1, unit := 0 }] })] } }
def old : Port := { st := .up, losses := [0, 0, 0, 0, 0, 0, 0] }

def rng (fs : Nat) (l : Option (Fin 2)) : FarRange := { base := 8, portA := 3, portB := 51, size := 4, fstate := fs, lost := l }
def sF (fs : Nat) (l : Option (Fin 2)) : State := let s := pw (running atK)
  { s with body := s.body.modMem fun m => { m with ranges := [rng fs l] } }

def wPortStatesAndFarMembers_0 : State := (prt 2 ({ st := .training }))
theorem witness_PortStatesAndFarMembers_1 :
    (wPortStatesAndFarMembers_0.body.portExists (88 : PortId) = true) ∧
    ((wPortStatesAndFarMembers_0.body.octetRec (88 : PortId)).mode = (2 : Byte) ∨ (wPortStatesAndFarMembers_0.body.octetRec (88 : PortId)).mode = (3 : Byte)) ∧
    ((wPortStatesAndFarMembers_0.body.port (88 : PortId)).st = PortSt.training) :=
  dec

def wPortStatesAndFarMembers_1 : State := (prt 1 ({ st := .training }))
theorem witness_PortStatesAndFarMembers_2 :
    (wPortStatesAndFarMembers_1.body.portExists (88 : PortId) = true) ∧
    (¬((wPortStatesAndFarMembers_1.body.octetRec (88 : PortId)).mode = (2 : Byte) ∨ (wPortStatesAndFarMembers_1.body.octetRec (88 : PortId)).mode = (3 : Byte))) :=
  dec

theorem witness_PortStatesAndFarMembers_3 :
    (wPortStatesAndFarMembers_1.body.portExists (88 : PortId) = true) ∧
    ((wPortStatesAndFarMembers_1.body.port (88 : PortId)).st = PortSt.training) :=
  dec

theorem witness_PortStatesAndFarMembers_4 :
    (wPortStatesAndFarMembers_0.body.portExists (88 : PortId) = true) ∧
    ((wPortStatesAndFarMembers_0.body.port (88 : PortId)).st = PortSt.training) :=
  dec

def wPortStatesAndFarMembers_2 : State := (prt 2 ({ st := .up }))
theorem witness_PortStatesAndFarMembers_5 :
    (wPortStatesAndFarMembers_2.body.portExists (88 : PortId) = true) ∧
    ((wPortStatesAndFarMembers_2.body.port (88 : PortId)).st ≠ PortSt.training) :=
  dec

def wPortStatesAndFarMembers_3 : State := (prt 1 ({ st := .training, receiver := true, reported := true }))
theorem witness_PortStatesAndFarMembers_6 :
    (wPortStatesAndFarMembers_3.body.portExists (88 : PortId) = true) ∧
    ((wPortStatesAndFarMembers_3.body.port (88 : PortId)).st = PortSt.training) ∧
    ((wPortStatesAndFarMembers_3.body.octetRec (88 : PortId)).mode = (2 : Byte) ∨ (wPortStatesAndFarMembers_3.body.octetRec (88 : PortId)).mode = (3 : Byte) →
  (wPortStatesAndFarMembers_3.body.port (88 : PortId)).receiver = true) ∧
    ((wPortStatesAndFarMembers_3.body.port (88 : PortId)).since + trainingBound (wPortStatesAndFarMembers_3.body.octetRec (88 : PortId)) < 2 ^ 64) :=
  dec

def wPortStatesAndFarMembers_4 : State := (prt 1 ({ st := .training, receiver := true, reported := false }))
theorem witness_PortStatesAndFarMembers_7 :
    (wPortStatesAndFarMembers_4.body.portExists (88 : PortId) = true) ∧
    ((wPortStatesAndFarMembers_4.body.port (88 : PortId)).st = PortSt.training) ∧
    ((wPortStatesAndFarMembers_4.body.octetRec (88 : PortId)).mode = (2 : Byte) ∨ (wPortStatesAndFarMembers_4.body.octetRec (88 : PortId)).mode = (3 : Byte) →
  (wPortStatesAndFarMembers_4.body.port (88 : PortId)).receiver = true) ∧
    ((wPortStatesAndFarMembers_4.body.port (88 : PortId)).since + trainingBound (wPortStatesAndFarMembers_4.body.octetRec (88 : PortId)) < 2 ^ 64) :=
  dec

def wPortStatesAndFarMembers_5 : State := (prt 2 ({ st := .training, reported := true }))
theorem witness_PortStatesAndFarMembers_8 :
    (wPortStatesAndFarMembers_5.body.portExists (88 : PortId) = true) ∧
    ((wPortStatesAndFarMembers_5.body.port (88 : PortId)).st = PortSt.training) ∧
    ((wPortStatesAndFarMembers_5.body.octetRec (88 : PortId)).mode = (2 : Byte) ∨ (wPortStatesAndFarMembers_5.body.octetRec (88 : PortId)).mode = (3 : Byte)) ∧
    ((wPortStatesAndFarMembers_5.body.port (88 : PortId)).receiver = false) ∧
    ((wPortStatesAndFarMembers_5.body.port (88 : PortId)).reported = true ∨ (wPortStatesAndFarMembers_5.body.port (88 : PortId)).met = true) :=
  dec

def wPortStatesAndFarMembers_6 : State := (prt 3 ({ st := .training, met := true }))
theorem witness_PortStatesAndFarMembers_9 :
    (wPortStatesAndFarMembers_6.body.portExists (88 : PortId) = true) ∧
    ((wPortStatesAndFarMembers_6.body.port (88 : PortId)).st = PortSt.training) ∧
    ((wPortStatesAndFarMembers_6.body.octetRec (88 : PortId)).mode = (2 : Byte) ∨ (wPortStatesAndFarMembers_6.body.octetRec (88 : PortId)).mode = (3 : Byte)) ∧
    ((wPortStatesAndFarMembers_6.body.port (88 : PortId)).receiver = false) ∧
    ((wPortStatesAndFarMembers_6.body.port (88 : PortId)).reported = true ∨ (wPortStatesAndFarMembers_6.body.port (88 : PortId)).met = true) :=
  dec

theorem witness_PortStatesAndFarMembers_10 :
    (wPortStatesAndFarMembers_0.body.portExists (88 : PortId) = true) ∧
    ((wPortStatesAndFarMembers_0.body.port (88 : PortId)).st = PortSt.training) ∧
    ((wPortStatesAndFarMembers_0.body.octetRec (88 : PortId)).mode = (2 : Byte) ∨ (wPortStatesAndFarMembers_0.body.octetRec (88 : PortId)).mode = (3 : Byte)) ∧
    ((wPortStatesAndFarMembers_0.body.port (88 : PortId)).receiver = false) ∧
    ((wPortStatesAndFarMembers_0.body.port (88 : PortId)).reported = false) ∧
    ((wPortStatesAndFarMembers_0.body.port (88 : PortId)).met = false) ∧
    ((wPortStatesAndFarMembers_0.body.port (88 : PortId)).since + 100000000 < 2 ^ 64) :=
  dec

def wPortStatesAndFarMembers_7 : State := (prt 1 ({ st := .up }))
theorem witness_PortStatesAndFarMembers_11 :
    (wPortStatesAndFarMembers_7.body.portExists (88 : PortId) = true) ∧
    ((wPortStatesAndFarMembers_7.body.port (88 : PortId)).st = PortSt.up) ∧
    (1 ≤ BitVec.toNat (1 : Byte)) ∧
    (BitVec.toNat (1 : Byte) ≤ 4) :=
  dec

def wPortStatesAndFarMembers_8 : State := (prt 1 (old))
theorem witness_PortStatesAndFarMembers_12 :
    (wPortStatesAndFarMembers_8.body.portExists (88 : PortId) = true) ∧
    ((wPortStatesAndFarMembers_8.body.port (88 : PortId)).st = PortSt.up) ∧
    (1 ≤ BitVec.toNat (1 : Byte)) ∧
    (BitVec.toNat (1 : Byte) ≤ 4) :=
  dec

theorem witness_PortStatesAndFarMembers_13 :
    (wPortStatesAndFarMembers_2.body.portExists (88 : PortId) = true) ∧
    ((wPortStatesAndFarMembers_2.body.port (88 : PortId)).st = PortSt.up) ∧
    (1 ≤ BitVec.toNat (1 : Byte)) ∧
    (BitVec.toNat (1 : Byte) ≤ 4) :=
  dec

def wPortStatesAndFarMembers_9 : State := (prt 2 (old))
theorem witness_PortStatesAndFarMembers_14 :
    (wPortStatesAndFarMembers_9.body.portExists (88 : PortId) = true) ∧
    ((wPortStatesAndFarMembers_9.body.port (88 : PortId)).st = PortSt.up) ∧
    (1 ≤ BitVec.toNat (1 : Byte)) ∧
    (BitVec.toNat (1 : Byte) ≤ 4) :=
  dec

def wPortStatesAndFarMembers_10 : State := (prt 1 ({ st := .hold, since := 5 }))
theorem witness_PortStatesAndFarMembers_15 :
    (wPortStatesAndFarMembers_10.body.portExists (88 : PortId) = true) ∧
    ((wPortStatesAndFarMembers_10.body.port (88 : PortId)).st = PortSt.hold) ∧
    ((wPortStatesAndFarMembers_10.body.port (88 : PortId)).since + 10000000000 < 2 ^ 64) :=
  dec

theorem witness_PortStatesAndFarMembers_16 :
    (wPortStatesAndFarMembers_7.body.portExists (88 : PortId) = true) ∧
    ((wPortStatesAndFarMembers_7.body.port (88 : PortId)).st = PortSt.up) ∧
    (FrameKind.other = FrameKind.fifoFull ∨ FrameKind.other = FrameKind.other ∧ (wPortStatesAndFarMembers_7.body.octetRec (88 : PortId)).mode = (1 : Byte)) :=
  dec

theorem witness_PortStatesAndFarMembers_17 :
    (wPortStatesAndFarMembers_7.body.portExists (88 : PortId) = true) ∧
    ((wPortStatesAndFarMembers_7.body.port (88 : PortId)).st = PortSt.up) ∧
    (FrameKind.roce = FrameKind.roce ∨
  FrameKind.roce = FrameKind.tcp ∨
    FrameKind.roce = FrameKind.neighbour ∨ FrameKind.roce = FrameKind.other ∧ (wPortStatesAndFarMembers_7.body.octetRec (88 : PortId)).mode ≠ (1 : Byte)) :=
  dec

def wPortStatesAndFarMembers_11 : State := (prt 4 ({ st := .up }))
theorem witness_PortStatesAndFarMembers_18 :
    (wPortStatesAndFarMembers_11.body.portExists (88 : PortId) = true) ∧
    ((wPortStatesAndFarMembers_11.body.port (88 : PortId)).st = PortSt.up) ∧
    (FrameKind.fifoFull = FrameKind.fifoFull ∨ FrameKind.fifoFull = FrameKind.other ∧ (wPortStatesAndFarMembers_11.body.octetRec (88 : PortId)).mode = (1 : Byte)) :=
  dec

theorem witness_PortStatesAndFarMembers_19 :
    (wPortStatesAndFarMembers_11.body.portExists (88 : PortId) = true) ∧
    ((wPortStatesAndFarMembers_11.body.port (88 : PortId)).st = PortSt.up) ∧
    (FrameKind.other = FrameKind.roce ∨
  FrameKind.other = FrameKind.tcp ∨
    FrameKind.other = FrameKind.neighbour ∨ FrameKind.other = FrameKind.other ∧ (wPortStatesAndFarMembers_11.body.octetRec (88 : PortId)).mode ≠ (1 : Byte)) :=
  dec

def wPortStatesAndFarMembers_12 : State := (prt 0 ({}))
theorem witness_PortStatesAndFarMembers_20 :
    (wPortStatesAndFarMembers_12.body.portExists (88 : PortId) = false) :=
  dec

def wPortStatesAndFarMembers_13 : State := (sF 0 (none))
def wPortStatesAndFarMembers_14 : FarRange := (rng 0 (none))
theorem witness_PortStatesAndFarMembers_21 :
    (List.find? (fun q => decide (q.base = BitVec.toNat (8 : BitVec 32))) wPortStatesAndFarMembers_13.body.mem.ranges = some wPortStatesAndFarMembers_14) ∧
    (wPortStatesAndFarMembers_13.body.serving = true) ∧
    (wPortStatesAndFarMembers_14.fstate = 0) :=
  dec

def wPortStatesAndFarMembers_15 : State := (sF 1 (some 0))
def wPortStatesAndFarMembers_16 : FarRange := (rng 1 (some 0))
theorem witness_PortStatesAndFarMembers_22 :
    (List.find? (fun q => decide (q.base = BitVec.toNat (8 : BitVec 32))) wPortStatesAndFarMembers_15.body.mem.ranges = some wPortStatesAndFarMembers_16) ∧
    (wPortStatesAndFarMembers_15.body.serving = true) ∧
    (wPortStatesAndFarMembers_16.fstate = 1 ∨ wPortStatesAndFarMembers_16.fstate = 2) ∧
    (wPortStatesAndFarMembers_16.lost ≠ some (1 : Fin 2)) :=
  dec

def wPortStatesAndFarMembers_17 : State := (sF 2 (some 1))
def wPortStatesAndFarMembers_18 : FarRange := (rng 2 (some 1))
theorem witness_PortStatesAndFarMembers_23 :
    (List.find? (fun q => decide (q.base = BitVec.toNat (8 : BitVec 32))) wPortStatesAndFarMembers_17.body.mem.ranges = some wPortStatesAndFarMembers_18) ∧
    (wPortStatesAndFarMembers_17.body.serving = true) ∧
    (wPortStatesAndFarMembers_18.fstate = 2) ∧
    (wPortStatesAndFarMembers_18.lost = some (1 : Fin 2)) :=
  dec

def wPortStatesAndFarMembers_19 : State := (sF 3 (none))
def wPortStatesAndFarMembers_20 : FarRange := (rng 3 (none))
theorem witness_PortStatesAndFarMembers_24 :
    (List.find? (fun q => decide (q.base = BitVec.toNat (8 : BitVec 32))) wPortStatesAndFarMembers_19.body.mem.ranges = some wPortStatesAndFarMembers_20) ∧
    (wPortStatesAndFarMembers_19.body.serving = true) ∧
    (wPortStatesAndFarMembers_20.fstate = 3) :=
  dec

theorem witness_PortStatesAndFarMembers_25 :
    (List.find? (fun q => decide (q.base = BitVec.toNat (8 : BitVec 32))) wPortStatesAndFarMembers_17.body.mem.ranges = some wPortStatesAndFarMembers_18) ∧
    (wPortStatesAndFarMembers_17.body.serving = true) ∧
    (wPortStatesAndFarMembers_18.fstate = 2) ∧
    (List.filter (fun q => decide (q.base = wPortStatesAndFarMembers_18.base)) wPortStatesAndFarMembers_17.body.mem.ranges = [wPortStatesAndFarMembers_18]) :=
  dec

def wPortStatesAndFarMembers_21 : State := (sF 1 (some 1))
def wPortStatesAndFarMembers_22 : FarRange := (rng 1 (some 1))
theorem witness_PortStatesAndFarMembers_26 :
    (List.find? (fun q => decide (q.base = BitVec.toNat (8 : BitVec 32))) wPortStatesAndFarMembers_21.body.mem.ranges = some wPortStatesAndFarMembers_22) ∧
    (wPortStatesAndFarMembers_21.body.serving = true) ∧
    (wPortStatesAndFarMembers_22.fstate ≠ 2) :=
  dec

theorem witness_PortStatesAndFarMembers_27 :
    (List.find? (fun q => decide (q.base = BitVec.toNat (8 : BitVec 32))) wPortStatesAndFarMembers_13.body.mem.ranges = some wPortStatesAndFarMembers_14) ∧
    (wPortStatesAndFarMembers_13.body.serving = true) ∧
    (wPortStatesAndFarMembers_14.fstate ≠ 2) :=
  dec

theorem witness_PortStatesAndFarMembers_28 :
    (List.find? (fun q => decide (q.base = BitVec.toNat (8 : BitVec 32))) wPortStatesAndFarMembers_19.body.mem.ranges = some wPortStatesAndFarMembers_20) ∧
    (wPortStatesAndFarMembers_19.body.serving = true) ∧
    (wPortStatesAndFarMembers_20.fstate ≠ 2) :=
  dec

def wPortStatesAndFarMembers_23 : State := (sF 2 (some 0))
def wPortStatesAndFarMembers_24 : FarRange := (rng 2 (some 0))
theorem witness_PortStatesAndFarMembers_29 :
    (List.find? (fun q => decide (q.base = BitVec.toNat (8 : BitVec 32))) wPortStatesAndFarMembers_23.body.mem.ranges = some wPortStatesAndFarMembers_24) ∧
    (wPortStatesAndFarMembers_23.body.serving = true) ∧
    (wPortStatesAndFarMembers_24.fstate = 2) ∧
    (List.filter (fun q => decide (q.base = wPortStatesAndFarMembers_24.base)) wPortStatesAndFarMembers_23.body.mem.ranges = [wPortStatesAndFarMembers_24]) :=
  dec
end G13

namespace G14
/-- Both islands, both feeds, cores in service with a spare in each half. -/
def full (u : Strand) : State := let s := running u
  { s with body := s.body.modCtl fun c => { c with
      islands := Vector.replicate 2 { powered := true }
      feeds := Vector.replicate 2 { present := true, closed := true, admitted := true }
      domains := Vector.replicate 232 { on := true }
      cores := ((Vector.replicate 144 { role := .assignable }).set 3 { role := .spare }).set 143 { role := .spare } } }
def modC (s : State) (f : Ctl → Ctl) : State := { s with body := s.body.modCtl f }
def retried (s : State) (c : CoreId) : State := modC s fun k => { k with cores := k.cores.set c { k.cores[c] with retries := [0] } }
def spare0 : State := modC (full atK) fun k => { k with cores := k.cores.set 0 { role := .spare } }

def mrun (inSpan : Bool) : MicroRun := { pos := 0, temps := Vector.replicate 16 0, cc := 0, wroteCc := false, snap := ({ atK with k := Vector.replicate 128 9 }).snapshot, snapCc := none, pins := [], inSpan := inSpan, bad := none, words := 0 }
def sMic (b : Bool) : State := full { atK with micro := some (mrun b) }
def Ln : Line := lineNo 0x300000
def withL2 (st : L2State) (lk : Bool) : State := let s := holding (full atK) [0x300000] 77
  { s with body := s.body.modCluster 0 fun c => { c with l2 := [(l2Slot Ln 0, { line := Ln, st := st, locked := lk, slot := 0, nol3 := false, data := 77 })] } }
def e2 (st : L2State) (lk : Bool) : L2Line := { line := Ln, st := st, locked := lk, slot := 0, nol3 := false, data := 77 }
def d3 : CDieId := homeDie 0x300000
def e3 (dirty : Bool) : L3Line := { line := Ln, dirty := dirty, slot := 0, data := 77 }
def withL3 (dirty : Bool) : State := let s := full atK
  { s with body := s.body.modDie d3 fun y => { y with l3e := true, l3 := [(l3Slot Ln 2, e3 dirty)] } }
def spareC (n : Nat) : State := modC (full atK) fun k => { k with cores := k.cores.set 0 { role := .spare, consec := n } }
def che (x : ChanEng) : State := let s := full atK; { s with body := s.body.modChan 1 15 fun _ => x }
def failed7 : State := let s := full atK; { s with body := s.body.modMem fun m => { m with hbm := m.hbm.set 7 { m.hbm[7] with failed := true } } }
def oneB (t : Option Nat) : State := modC (full atK) fun c => { c with bundles := #v[true, false], bundleTest := #v[none, t] }
def feedOut (f : FeedId) : State := modC (full atK) fun c => { c with feeds := c.feeds.set f { c.feeds[f] with admitted := false } }
def isl (f0 f1 p0 : Bool) : State := modC (full atK) fun c => { c with islands := #v[{ c.islands[0] with failed := f0, portFailed := p0 }, { c.islands[1] with failed := f1 }], lastBeat := 6, conns := [(1, { port := 0, cert := .session, session := none, maxSeq := 0, replies := [], lastPacket := 0 }), (2, { port := 1, cert := .session, session := none, maxSeq := 0, replies := [], lastPacket := 0 })] }
def lnk : State := modC (full atK) fun c => { c with islandLink := false }
def hcp (x : HubCopy) : State := modC (full atK) fun c => { c with hubCopies := [(1, x)] }
def lostC (l : List ClusterId) (f : List ClusterId) : State := modC (full atK) fun c => { c with failedLinks := f, lostClusters := l }
def lostD : State := modC (full atK) fun c => { c with lostDies := [0], lostHubs := [1] }

theorem witness_CoresUnitsAndStacks_1 :
    (ErrUnit.microWord true = ErrUnit.microWord true) ∧
    ((full atK).body.serving = true) ∧
    (((full atK).body.strand (0 : StrandId)).run = RunState.running) :=
  dec

theorem witness_CoresUnitsAndStacks_2 :
    (ErrUnit.array ≠ ErrUnit.microWord true) ∧
    ((full atK).body.serving = true) ∧
    (((full atK).body.strand (0 : StrandId)).run = RunState.running) ∧
    (((full atK).body.strand (0 : StrandId)).micro = none ∨ ((full atK).body.strand (0 : StrandId)).inSpan = true) :=
  dec

theorem witness_CoresUnitsAndStacks_3 :
    (ErrUnit.pipeline ≠ ErrUnit.microWord true) ∧
    ((sMic false).body.serving = true) ∧
    (((sMic false).body.strand (0 : StrandId)).run = RunState.running) ∧
    (((sMic false).body.strand (0 : StrandId)).micro ≠ none) ∧
    (((sMic false).body.strand (0 : StrandId)).inSpan = false) :=
  dec

theorem witness_CoresUnitsAndStacks_4 :
    (ErrUnit.array ≠ ErrUnit.microWord true) ∧
    ((full atK).body.serving = true) ∧
    (((full atK).body.strand (0 : StrandId)).run = RunState.running) ∧
    ((List.filter (fun x => decide ((full atK).body.tod (halfOfCore (coreOf (0 : StrandId))) ≤ x + 1000000000))
      ((full atK).body.ctl.cores[coreOf (0 : StrandId)].retries ++ [(full atK).body.tod (halfOfCore (coreOf (0 : StrandId)))])).length <
  2) ∧
    (((full atK).body.strand (0 : StrandId)).micro = none) :=
  dec

def wCoresUnitsAndStacks_0 : State := (retried spare0 0)
theorem witness_CoresUnitsAndStacks_5 :
    (ErrUnit.array ≠ ErrUnit.microWord true) ∧
    (wCoresUnitsAndStacks_0.body.serving = true) ∧
    ((wCoresUnitsAndStacks_0.body.strand (0 : StrandId)).run = RunState.running) ∧
    (2 ≤
  (List.filter (fun x => decide (wCoresUnitsAndStacks_0.body.tod (halfOfCore (coreOf (0 : StrandId))) ≤ x + 1000000000))
      (wCoresUnitsAndStacks_0.body.ctl.cores[coreOf (0 : StrandId)].retries ++ [wCoresUnitsAndStacks_0.body.tod (halfOfCore (coreOf (0 : StrandId)))])).length) ∧
    (wCoresUnitsAndStacks_0.body.ctl.cores[coreOf (0 : StrandId)].role = CoreRole.spare) :=
  dec

def wCoresUnitsAndStacks_1 : State := (retried (full atK) 0)
theorem witness_CoresUnitsAndStacks_6 :
    (ErrUnit.array ≠ ErrUnit.microWord true) ∧
    (wCoresUnitsAndStacks_1.body.serving = true) ∧
    ((wCoresUnitsAndStacks_1.body.strand (0 : StrandId)).run = RunState.running) ∧
    (2 ≤
  (List.filter (fun x => decide (wCoresUnitsAndStacks_1.body.tod (halfOfCore (coreOf (0 : StrandId))) ≤ x + 1000000000))
      (wCoresUnitsAndStacks_1.body.ctl.cores[coreOf (0 : StrandId)].retries ++ [wCoresUnitsAndStacks_1.body.tod (halfOfCore (coreOf (0 : StrandId)))])).length) ∧
    (wCoresUnitsAndStacks_1.body.ctl.cores[coreOf (0 : StrandId)].role = CoreRole.assignable) ∧
    (wCoresUnitsAndStacks_1.body.chooseSpare (coreOf (0 : StrandId)) = some (3 : CoreId)) ∧
    ((3 : CoreId) ≠ coreOf (0 : StrandId)) ∧
    (∀ (i : Fin 4), (wCoresUnitsAndStacks_1.body.strand (strandOf (coreOf (0 : StrandId)) i)).micro = none) :=
  dec

def wCoresUnitsAndStacks_2 : ℕ := (l2Slot Ln 0)
theorem witness_CoresUnitsAndStacks_7 :
    ((withL2 L2State.m false).body.serving = true) ∧
    (((withL2 L2State.m false).body.cluster (0 : ClusterId)).find Ln = some (wCoresUnitsAndStacks_2, e2 L2State.m false)) ∧
    ((e2 L2State.m false).st ≠ L2State.le) :=
  dec

theorem witness_CoresUnitsAndStacks_8 :
    ((withL2 L2State.m false).body.serving = true) ∧
    (((withL2 L2State.m false).body.cluster (0 : ClusterId)).find Ln = some (wCoresUnitsAndStacks_2, e2 L2State.m false)) ∧
    ((e2 L2State.m false).st ≠ L2State.le) ∧
    ((e2 L2State.m false).locked = false) :=
  dec

def wCoresUnitsAndStacks_3 : ℕ := (l3Slot Ln 2)
theorem witness_CoresUnitsAndStacks_9 :
    ((withL3 true).body.serving = true) ∧
    ((withL3 true).body.l3Has Ln = some (d3, wCoresUnitsAndStacks_3, e3 true)) :=
  dec

theorem witness_CoresUnitsAndStacks_10 :
    ((withL3 true).body.serving = true) ∧
    ((withL3 true).body.l3Has Ln = some (d3, wCoresUnitsAndStacks_3, e3 true)) :=
  dec

theorem witness_CoresUnitsAndStacks_11 :
    ((full atK).body.serving = true) :=
  dec

theorem witness_CoresUnitsAndStacks_12 :
    ((full atK).body.serving = true) ∧
    ((full atK).body.isSplit = false) ∧
    ((full atK).body.ctl.lostHubs = []) ∧
    ((full atK).body.ctl.hubCopies = []) :=
  dec

theorem witness_CoresUnitsAndStacks_13 :
    ((full atK).body.serving = true) ∧
    ((full atK).body.chanUp (0 : HubId) (3 : Fin 16) = true) :=
  dec

theorem witness_CoresUnitsAndStacks_14 :
    ((full atK).body.serving = true) ∧
    ((full atK).body.chanUp (0 : HubId) (3 : Fin 16) = true) ∧
    (ErrUnit.array ≠ ErrUnit.microWord true) :=
  dec

theorem witness_CoresUnitsAndStacks_15 :
    ((full atK).body.serving = true) ∧
    ((full atK).body.chanUp (0 : HubId) (3 : Fin 16) = true) ∧
    (ErrUnit.array ≠ ErrUnit.microWord true) ∧
    (((full atK).body.chan (0 : HubId) (3 : Fin 16)).bank ≠ (3 : BitVec 2)) :=
  dec

def wCoresUnitsAndStacks_4 : State := (spareC 1)
theorem witness_CoresUnitsAndStacks_16 :
    (wCoresUnitsAndStacks_4.body.serving = true) ∧
    (wCoresUnitsAndStacks_4.body.ctl.cores[(0 : CoreId)].role = CoreRole.spare) :=
  dec

def wCoresUnitsAndStacks_5 : State := (spareC 0)
theorem witness_CoresUnitsAndStacks_17 :
    (wCoresUnitsAndStacks_5.body.serving = true) ∧
    (wCoresUnitsAndStacks_5.body.ctl.cores[(0 : CoreId)].role = CoreRole.spare) ∧
    (wCoresUnitsAndStacks_5.body.ctl.cores[(0 : CoreId)].consec = 0) :=
  dec

theorem witness_CoresUnitsAndStacks_18 :
    (wCoresUnitsAndStacks_4.body.serving = true) ∧
    (wCoresUnitsAndStacks_4.body.ctl.cores[(0 : CoreId)].role = CoreRole.spare) ∧
    (wCoresUnitsAndStacks_4.body.ctl.cores[(0 : CoreId)].consec = 1) :=
  dec

theorem witness_CoresUnitsAndStacks_19 :
    ((full atK).body.serving = true) ∧
    ((full atK).body.ctl.cores[(0 : CoreId)].role ≠ CoreRole.spare) :=
  dec

def wCoresUnitsAndStacks_6 : State := (che { service := .suspect, proving := true, rounds := 28 })
theorem witness_CoresUnitsAndStacks_20 :
    (wCoresUnitsAndStacks_6.body.serving = true) ∧
    (wCoresUnitsAndStacks_6.body.ctl.lostHubs.contains (1 : HubId) = false) ∧
    ((wCoresUnitsAndStacks_6.body.chan (1 : HubId) (15 : Fin 16)).proving = true) ∧
    ((wCoresUnitsAndStacks_6.body.chan (1 : HubId) (15 : Fin 16)).service = Service.suspect ∨
  (wCoresUnitsAndStacks_6.body.chan (1 : HubId) (15 : Fin 16)).service = Service.checkStopped) ∧
    ((wCoresUnitsAndStacks_6.body.chan (1 : HubId) (15 : Fin 16)).rounds + 1 < 30) :=
  dec

def wCoresUnitsAndStacks_7 : State := (che { service := .suspect, proving := true, rounds := 29 })
theorem witness_CoresUnitsAndStacks_21 :
    (wCoresUnitsAndStacks_7.body.serving = true) ∧
    (wCoresUnitsAndStacks_7.body.ctl.lostHubs.contains (1 : HubId) = false) ∧
    ((wCoresUnitsAndStacks_7.body.chan (1 : HubId) (15 : Fin 16)).proving = true) ∧
    ((wCoresUnitsAndStacks_7.body.chan (1 : HubId) (15 : Fin 16)).service = Service.suspect ∨
  (wCoresUnitsAndStacks_7.body.chan (1 : HubId) (15 : Fin 16)).service = Service.checkStopped) ∧
    (30 ≤ (wCoresUnitsAndStacks_7.body.chan (1 : HubId) (15 : Fin 16)).rounds + 1) :=
  dec

theorem witness_CoresUnitsAndStacks_22 :
    (wCoresUnitsAndStacks_6.body.serving = true) ∧
    (wCoresUnitsAndStacks_6.body.ctl.lostHubs.contains (1 : HubId) = false) ∧
    ((wCoresUnitsAndStacks_6.body.chan (1 : HubId) (15 : Fin 16)).proving = true) ∧
    ((wCoresUnitsAndStacks_6.body.chan (1 : HubId) (15 : Fin 16)).service = Service.suspect ∨
  (wCoresUnitsAndStacks_6.body.chan (1 : HubId) (15 : Fin 16)).service = Service.checkStopped) :=
  dec

def wCoresUnitsAndStacks_8 : State := (che { proving := true })
theorem witness_CoresUnitsAndStacks_23 :
    (wCoresUnitsAndStacks_8.body.serving = true) ∧
    ((wCoresUnitsAndStacks_8.body.chan (1 : HubId) (15 : Fin 16)).proving = true) ∧
    ((wCoresUnitsAndStacks_8.body.chan (1 : HubId) (15 : Fin 16)).service = Service.inService) ∧
    (wCoresUnitsAndStacks_8.body.ctl.lostHubs.contains (1 : HubId) = false) :=
  dec

def wCoresUnitsAndStacks_9 : State := (che { proving := false, lastJob := 7 })
theorem witness_CoresUnitsAndStacks_24 :
    (wCoresUnitsAndStacks_9.body.serving = true) ∧
    (wCoresUnitsAndStacks_9.body.chanUp (1 : HubId) (15 : Fin 16) = true) ∧
    (wCoresUnitsAndStacks_9.body.outstanding = []) ∧
    ((wCoresUnitsAndStacks_9.body.chan (1 : HubId) (15 : Fin 16)).lastJob + 1000000000 < 2 ^ 64) :=
  dec

def wCoresUnitsAndStacks_10 : State := (che { service := .suspect })
theorem witness_CoresUnitsAndStacks_25 :
    (wCoresUnitsAndStacks_10.body.serving = true) ∧
    (wCoresUnitsAndStacks_10.body.chanUp (1 : HubId) (15 : Fin 16) = false) :=
  dec

theorem witness_CoresUnitsAndStacks_26 :
    ((full atK).body.serving = true) :=
  dec

theorem witness_CoresUnitsAndStacks_27 :
    ((full atK).body.serving = true) ∧
    (lineAddr (32768 : Line) < memoryEnd) ∧
    ((full atK).body.ctl.lostDies = []) ∧
    ((full atK).body.ctl.lostHubs = []) ∧
    (ReadOutcome.onDie = ReadOutcome.onDie ∨ ReadOutcome.onDie = ReadOutcome.ecc) :=
  dec

theorem witness_CoresUnitsAndStacks_28 :
    ((full atK).body.ctl.mode = Mode.operating ∨ (full atK).body.ctl.mode = Mode.exposed) ∧
    ((1 : Byte) = (1 : Byte) ∨ (1 : Byte) = (2 : Byte)) ∧
    ((full atK).body.mem.hbm[(7 : StackId)].failed = false) :=
  dec

theorem witness_CoresUnitsAndStacks_29 :
    (failed7.body.mem.hbm[(7 : StackId)].failed = true) :=
  dec

def wCoresUnitsAndStacks_30 : State := { full atK with body := (full atK).body.modCluster 0 fun c => { c with ways := 1 } }
theorem witness_CoresUnitsAndStacks_30 :
    (wCoresUnitsAndStacks_30.body.serving = true) ∧
    ((4095 : Fin 32768).val * 128 < (wCoresUnitsAndStacks_30.body.cluster (0 : ClusterId)).spadLimit) ∧
    ((wCoresUnitsAndStacks_30.body.cluster (0 : ClusterId)).spadLost.contains (4095 : Fin 32768).val = false) :=
  dec

theorem witness_BundlesAndFeeds_1 :
    ((full atK).body.ctl.mode = Mode.operating ∨ (full atK).body.ctl.mode = Mode.exposed) ∧
    ((full atK).body.ctl.bundles[(1 : BundleId)] = true) ∧
    ((full atK).body.ctl.bundles[if (1 : BundleId) = (0 : BundleId) then (1 : BundleId) else (0 : BundleId)] = true) :=
  dec

def wBundlesAndFeeds_11 : State := (oneB none)
theorem witness_BundlesAndFeeds_2 :
    (wBundlesAndFeeds_11.body.ctl.mode = Mode.operating ∨ wBundlesAndFeeds_11.body.ctl.mode = Mode.exposed) ∧
    (wBundlesAndFeeds_11.body.ctl.bundles[(1 : BundleId)] = false) ∧
    (wBundlesAndFeeds_11.body.ctl.lostHubs = []) ∧
    (wBundlesAndFeeds_11.body.ctl.bundleTest[(1 : BundleId)] = none) :=
  dec

def wBundlesAndFeeds_12 : State := (oneB (some 5))
theorem witness_BundlesAndFeeds_3 :
    (wBundlesAndFeeds_12.body.ctl.mode = Mode.operating ∨ wBundlesAndFeeds_12.body.ctl.mode = Mode.exposed) ∧
    (wBundlesAndFeeds_12.body.ctl.bundles[(1 : BundleId)] = false) ∧
    (wBundlesAndFeeds_12.body.ctl.lostHubs = []) :=
  dec

theorem witness_BundlesAndFeeds_4 :
    (wBundlesAndFeeds_12.body.ctl.mode = Mode.operating ∨ wBundlesAndFeeds_12.body.ctl.mode = Mode.exposed) ∧
    (wBundlesAndFeeds_12.body.ctl.bundles[(1 : BundleId)] = false) ∧
    (wBundlesAndFeeds_12.body.ctl.lostHubs = []) ∧
    (wBundlesAndFeeds_12.body.ctl.bundleTest[(1 : BundleId)] = some 5) ∧
    (5 + 10000000000 < 2 ^ 64) :=
  dec

theorem witness_BundlesAndFeeds_5 :
    (wBundlesAndFeeds_11.body.ctl.mode = Mode.operating ∨ wBundlesAndFeeds_11.body.ctl.mode = Mode.exposed) ∧
    (wBundlesAndFeeds_11.body.ctl.bundleTest[(1 : BundleId)] = none) :=
  dec

theorem witness_BundlesAndFeeds_6 :
    ((full atK).body.ctl.mode = Mode.operating ∨ (full atK).body.ctl.mode = Mode.exposed) ∧
    (↑(23 : Fin 97) + ↑(23 : Fin 97) ≤ 96) ∧
    (↑(23 : Fin 97) < 24) ∧
    (↑(23 : Fin 97) < 24) :=
  dec

theorem witness_BundlesAndFeeds_7 :
    ((full atK).body.ctl.mode = Mode.operating ∨ (full atK).body.ctl.mode = Mode.exposed) ∧
    (↑(24 : Fin 97) + ↑(23 : Fin 97) ≤ 96) ∧
    (24 ≤ ↑(24 : Fin 97) ↔ (0 : FeedId) = (0 : FeedId)) ∧
    (24 ≤ ↑(23 : Fin 97) ↔ (0 : FeedId) = (1 : FeedId)) ∧
    ((full atK).body.ctl.feeds[(0 : FeedId)].admitted = true) ∧
    ((full atK).body.ctl.feeds[if (0 : FeedId) = (0 : FeedId) then (1 : FeedId) else (0 : FeedId)].admitted = true) :=
  dec

theorem witness_BundlesAndFeeds_8 :
    ((full atK).body.ctl.mode = Mode.operating ∨ (full atK).body.ctl.mode = Mode.exposed) ∧
    (↑(0 : Fin 97) + ↑(96 : Fin 97) ≤ 96) ∧
    (24 ≤ ↑(0 : Fin 97) ↔ (1 : FeedId) = (0 : FeedId)) ∧
    (24 ≤ ↑(96 : Fin 97) ↔ (1 : FeedId) = (1 : FeedId)) ∧
    ((full atK).body.ctl.feeds[(1 : FeedId)].admitted = true) ∧
    ((full atK).body.ctl.feeds[if (1 : FeedId) = (0 : FeedId) then (1 : FeedId) else (0 : FeedId)].admitted = true) :=
  dec

theorem witness_BundlesAndFeeds_9 :
    ((full atK).body.ctl.mode = Mode.operating ∨ (full atK).body.ctl.mode = Mode.exposed) ∧
    ((full atK).body.stewardsUp = true) ∧
    ((full atK).body.ctl.feeds[(1 : FeedId)].admitted = true) ∧
    ((full atK).body.ctl.feeds[if (1 : FeedId) = (0 : FeedId) then (1 : FeedId) else (0 : FeedId)].admitted = true) ∧
    ((full atK).body.ctl.lastProve.toNat + 60000000000 < 2 ^ 64) :=
  dec

theorem witness_BundlesAndFeeds_10 :
    ((full atK).body.ctl.mode = Mode.operating ∨ (full atK).body.ctl.mode = Mode.exposed) ∧
    ((full atK).body.stewardsUp = true) ∧
    ((full atK).body.ctl.feeds[(1 : FeedId)].admitted = true) ∧
    ((full atK).body.ctl.feeds[if (1 : FeedId) = (0 : FeedId) then (1 : FeedId) else (0 : FeedId)].admitted = true) ∧
    ((full atK).body.ctl.lastProve.toNat + 60000000000 < 2 ^ 64) :=
  dec

def wBundlesAndFeeds_13 : State := (feedOut 1)
theorem witness_BundlesAndFeeds_11 :
    (wBundlesAndFeeds_13.body.ctl.mode = Mode.operating ∨ wBundlesAndFeeds_13.body.ctl.mode = Mode.exposed) ∧
    (wBundlesAndFeeds_13.body.ctl.feeds[(1 : FeedId)].present = true) ∧
    (wBundlesAndFeeds_13.body.ctl.feeds[(1 : FeedId)].closed = true) ∧
    (wBundlesAndFeeds_13.body.ctl.feeds[(1 : FeedId)].admitted = false) :=
  dec

theorem witness_BundlesAndFeeds_12 :
    (wBundlesAndFeeds_13.body.ctl.mode = Mode.operating ∨ wBundlesAndFeeds_13.body.ctl.mode = Mode.exposed) ∧
    (wBundlesAndFeeds_13.body.ctl.feeds[(1 : FeedId)].present = true) ∧
    (wBundlesAndFeeds_13.body.ctl.feeds[(1 : FeedId)].closed = true) ∧
    (wBundlesAndFeeds_13.body.ctl.feeds[(1 : FeedId)].admitted = false) :=
  dec

theorem witness_BundlesAndFeeds_13 :
    ((full atK).body.ctl.mode = Mode.operating ∨ (full atK).body.ctl.mode = Mode.exposed) ∧
    ((full atK).body.ctl.feeds[(1 : FeedId)].admitted = true) :=
  dec

theorem witness_StewardsClustersDiesAndHubs_1 :
    ((isl false false false).body.islandUp (isl false false false).body.ctl.steering = true) ∧
    ((isl false false false).body.ctl.lastBeat + 1000000 < 2 ^ 64) :=
  dec

theorem witness_StewardsClustersDiesAndHubs_2 :
    ((isl true false false).body.islandUp (isl true false false).body.ctl.steering = false) :=
  dec

theorem witness_StewardsClustersDiesAndHubs_3 :
    ((isl false false false).body.ctl.mode = Mode.operating ∨ (isl false false false).body.ctl.mode = Mode.exposed) ∧
    ((isl false false false).body.stewardsUp = true) ∧
    ((isl false false false).body.islandUp (isl false false false).body.ctl.steering = true) ∧
    ((isl false false false).body.islandUp (otherHub (isl false false false).body.ctl.steering) = true) ∧
    ((isl false false false).body.ctl.lastBeat + 5000000 < 2 ^ 64) :=
  dec

theorem witness_StewardsClustersDiesAndHubs_4 :
    ((isl false true false).body.ctl.mode = Mode.operating ∨ (isl false true false).body.ctl.mode = Mode.exposed) ∧
    ((isl false true false).body.islandUp (otherHub (isl false true false).body.ctl.steering) = false) :=
  dec

theorem witness_StewardsClustersDiesAndHubs_5 :
    ((isl false false false).body.ctl.mode = Mode.operating ∨ (isl false false false).body.ctl.mode = Mode.exposed) ∧
    ((isl false false false).body.ctl.islands[(0 : HubId)].powered = true) ∧
    ((isl false false false).body.ctl.islands[(0 : HubId)].portFailed = false) :=
  dec

theorem witness_StewardsClustersDiesAndHubs_6 :
    ((isl false false true).body.ctl.mode = Mode.operating ∨ (isl false false true).body.ctl.mode = Mode.exposed) ∧
    ((isl false false true).body.islandUp (isl false false true).body.ctl.steering = true) ∧
    ((isl false false true).body.ctl.lostHubs = []) ∧
    ((isl false false true).body.ctl.islands[(0 : HubId)].portFailed = true) :=
  dec

theorem witness_StewardsClustersDiesAndHubs_7 :
    (lnk.body.ctl.mode = Mode.operating ∨ lnk.body.ctl.mode = Mode.exposed) ∧
    (lnk.body.islandUp lnk.body.ctl.steering = true) ∧
    (lnk.body.ctl.lostHubs = []) ∧
    (lnk.body.ctl.islandLink = false) :=
  dec

theorem witness_StewardsClustersDiesAndHubs_8 :
    ((hcp HubCopy.journal).body.ctl.mode = Mode.operating ∨ (hcp HubCopy.journal).body.ctl.mode = Mode.exposed) ∧
    ((hcp HubCopy.journal).body.islandUp (hcp HubCopy.journal).body.ctl.steering = true) ∧
    ((hcp HubCopy.journal).body.ctl.lostHubs = []) ∧
    ((hcp HubCopy.journal).body.ctl.hubCopies.contains ((1 : HubId), HubCopy.journal) = true) :=
  dec

theorem witness_StewardsClustersDiesAndHubs_9 :
    ((hcp HubCopy.journal).body.ctl.mode = Mode.operating ∨ (hcp HubCopy.journal).body.ctl.mode = Mode.exposed) ∧
    ((hcp HubCopy.journal).body.ctl.hubCopies.contains ((0 : HubId), HubCopy.journal) = false) :=
  dec

theorem witness_StewardsClustersDiesAndHubs_10 :
    ((full atK).body.ctl.mode = Mode.operating ∨ (full atK).body.ctl.mode = Mode.exposed) ∧
    ((full atK).body.stewardsUp = true) ∧
    ((full atK).body.ctl.failedLinks.contains (3 : ClusterId) = false) ∧
    ((full atK).body.ctl.lostClusters.contains (3 : ClusterId) = false) ∧
    (false = true ∨ true = true) :=
  dec

theorem witness_StewardsClustersDiesAndHubs_11 :
    ((full atK).body.ctl.mode = Mode.operating ∨ (full atK).body.ctl.mode = Mode.exposed) ∧
    ((full atK).body.stewardsUp = true) ∧
    ((full atK).body.ctl.failedLinks.contains (3 : ClusterId) = false) ∧
    ((full atK).body.ctl.lostClusters.contains (3 : ClusterId) = false) :=
  dec

theorem witness_StewardsClustersDiesAndHubs_12 :
    ((full atK).body.ctl.mode = Mode.operating ∨ (full atK).body.ctl.mode = Mode.exposed) ∧
    ((full atK).body.stewardsUp = true) ∧
    ((full atK).body.ctl.failedLinks.contains (3 : ClusterId) = false) ∧
    ((full atK).body.ctl.lostClusters.contains (3 : ClusterId) = false) :=
  dec

def wStewardsClustersDiesAndHubs_14 : State := (lostC [] [0])
theorem witness_StewardsClustersDiesAndHubs_13 :
    (wStewardsClustersDiesAndHubs_14.body.ctl.mode = Mode.operating ∨ wStewardsClustersDiesAndHubs_14.body.ctl.mode = Mode.exposed) ∧
    (wStewardsClustersDiesAndHubs_14.body.ctl.failedLinks.contains (0 : ClusterId) = true) ∧
    (wStewardsClustersDiesAndHubs_14.body.ctl.lostClusters.contains (0 : ClusterId) = false) :=
  dec

def wStewardsClustersDiesAndHubs_15 : State := (lostC [35] [35])
theorem witness_StewardsClustersDiesAndHubs_14 :
    (wStewardsClustersDiesAndHubs_15.body.ctl.mode = Mode.operating ∨ wStewardsClustersDiesAndHubs_15.body.ctl.mode = Mode.exposed) ∧
    (wStewardsClustersDiesAndHubs_15.body.ctl.failedLinks.contains (35 : ClusterId) = false ∨
  wStewardsClustersDiesAndHubs_15.body.ctl.lostClusters.contains (35 : ClusterId) = true) :=
  dec

theorem witness_StewardsClustersDiesAndHubs_15 :
    ((full atK).body.ctl.mode = Mode.operating ∨ (full atK).body.ctl.mode = Mode.exposed) ∧
    ((full atK).body.ctl.lostDies.contains (0 : CDieId) = false) :=
  dec

theorem witness_StewardsClustersDiesAndHubs_16 :
    (lostD.body.ctl.mode = Mode.operating ∨ lostD.body.ctl.mode = Mode.exposed) ∧
    (lostD.body.ctl.lostDies.contains (0 : CDieId) = true) :=
  dec

theorem witness_StewardsClustersDiesAndHubs_17 :
    ((full atK).body.ctl.mode = Mode.operating ∨ (full atK).body.ctl.mode = Mode.exposed) ∧
    ((full atK).body.ctl.lostHubs.contains (1 : HubId) = false) :=
  dec

theorem witness_StewardsClustersDiesAndHubs_18 :
    (lostD.body.ctl.mode = Mode.operating ∨ lostD.body.ctl.mode = Mode.exposed) ∧
    (lostD.body.ctl.lostHubs.contains (1 : HubId) = true) :=
  dec
end G14

namespace G15
/-- Both islands, both feeds, cores in service with a spare in each half. -/
def full (u : Strand) : State := let s := running u
  { s with body := s.body.modCtl fun c => { c with
      islands := Vector.replicate 2 { powered := true }
      feeds := Vector.replicate 2 { present := true, closed := true, admitted := true }
      domains := Vector.replicate 232 { on := true }
      cores := ((Vector.replicate 144 { role := .assignable }).set 3 { role := .spare }).set 143 { role := .spare } } }
def modC (s : State) (f : Ctl → Ctl) : State := { s with body := s.body.modCtl f }

def split (a b : HalfSplit) : State := modC (full atK) fun c => { c with mode := .split, bundles := #v[false, false], halves := #v[a, b] }
def one1 : State := modC (full atK) fun c => { c with bundles := #v[false, true] }

def rj (t : Option Nat) : State := modC (split { half := .lead } { half := .fenced }) fun c => { c with bundleTest := #v[none, t] }
def cpy : State := let s := modC (full atK) fun c => { c with tickets := [{ num := 8, role := .owner, opcode := 0x0702, hdr := [], result := none, read := false, holder := none }] }
  { s with body := s.body.modIo fun i => { i with parts := [(3, { copying := some 8, place := 0, mbase := 4, msize := 1 })] } }
def rjn : State := modC (split { half := .fenced } { half := .lead }) fun c => { c with rejoin := some (8, 1), tod := #v[7, 9], bundles := #v[false, true] }
def dark (f : Ctl → Ctl) : State := { State.reset with body := (({} : Body).modCtl f) }
def sb (f : Ctl → Ctl) : State := modC (modC (full atK) fun c => { c with mode := .standby, feeds := Vector.replicate 2 { present := true }, standbySince := 7 }) f
def auto (s : State) : State := { s with cfg := { s.cfg with autostart := true } }
def pv (k : Nat) (bad : List CoreId) : State := modC (full atK) fun c => { c with mode := .proving, step := k, badCores := bad, provingSince := 3 }
def pk (f : Ctl → Ctl) : State := modC (modC (full atK) fun c => { c with tod := #v[123456, 123456] }) f
def ret : State := pk fun c => { c with mode := .fallow, silt := Vector.replicate 2 { writing := some (5, 6, []) } }
def tp (t : Tap) : State := pk fun c => { c with port := { isOpen := true, tap := t } }

theorem witness_SplitAndRejoin_1 :
    (one1.body.ctl.mode = Mode.operating ∨ one1.body.ctl.mode = Mode.exposed) ∧
    (one1.body.ctl.bundles[(1 : BundleId)] = true) ∧
    (∀ (k : BundleId), k ≠ (1 : BundleId) → one1.body.ctl.bundles[k] = false) ∧
    (one1.body.ctl.lostHubs = []) :=
  dec

def wSplitAndRejoin_0 : State := (split {} {})
theorem witness_SplitAndRejoin_2 :
    (wSplitAndRejoin_0.body.ctl.mode = Mode.split) ∧
    (wSplitAndRejoin_0.body.ctl.halves[(0 : HubId)].half = HalfSt.none) ∧
    (wSplitAndRejoin_0.body.islandUp (0 : HubId) = true) ∧
    ((0 : HubId) = wSplitAndRejoin_0.body.grantee wSplitAndRejoin_0.cfg.preferred) ∧
    ((0 : HubId) = wSplitAndRejoin_0.body.ctl.steering ∨ wSplitAndRejoin_0.body.ctl.islandLink = true) :=
  dec

theorem witness_SplitAndRejoin_3 :
    (wSplitAndRejoin_0.body.ctl.mode = Mode.split) ∧
    (wSplitAndRejoin_0.body.ctl.halves[(1 : HubId)].half = HalfSt.none) ∧
    (wSplitAndRejoin_0.body.islandUp (1 : HubId) = true) ∧
    ((1 : HubId) ≠ wSplitAndRejoin_0.body.grantee wSplitAndRejoin_0.cfg.preferred ∨
  (1 : HubId) ≠ wSplitAndRejoin_0.body.ctl.steering ∧ wSplitAndRejoin_0.body.ctl.islandLink = false) :=
  dec

def wSplitAndRejoin_1 : State := (modC (split {} {}) fun c => { c with islandLink := false })
theorem witness_SplitAndRejoin_4 :
    (wSplitAndRejoin_1.body.ctl.mode = Mode.split) ∧
    (wSplitAndRejoin_1.body.ctl.halves[(1 : HubId)].half = HalfSt.none) ∧
    (wSplitAndRejoin_1.body.islandUp (1 : HubId) = true) ∧
    ((0 : HubId) ≠ wSplitAndRejoin_1.body.grantee wSplitAndRejoin_1.cfg.preferred ∨
  (1 : HubId) ≠ wSplitAndRejoin_1.body.ctl.steering ∧ wSplitAndRejoin_1.body.ctl.islandLink = false) :=
  dec

theorem witness_SplitAndRejoin_5 :
    (wSplitAndRejoin_0.body.ctl.mode = Mode.split) ∧
    (wSplitAndRejoin_0.body.ctl.halves[(0 : HubId)].half = HalfSt.none) ∧
    (wSplitAndRejoin_0.body.islandUp (0 : HubId) = true) ∧
    (wSplitAndRejoin_0.body.granted = none ∨ wSplitAndRejoin_0.body.ctl.islandLink = false) ∧
    (wSplitAndRejoin_0.body.ctl.halves[(0 : HubId)].entered + 5000000 < 2 ^ 64) :=
  dec

def wSplitAndRejoin_2 : State := (split { half := .lead } {})
theorem witness_SplitAndRejoin_6 :
    (wSplitAndRejoin_2.body.ctl.halves[(0 : HubId)].half ≠ HalfSt.none) :=
  dec

def wSplitAndRejoin_3 : State := (split { half := .lead, entered := 9 } {})
theorem witness_SplitAndRejoin_8 :
    (wSplitAndRejoin_3.body.ctl.mode = Mode.split) ∧
    (wSplitAndRejoin_3.body.ctl.halves[(0 : HubId)].half = HalfSt.lead) ∧
    (∀ (i : HubId), i ≠ (0 : HubId) → wSplitAndRejoin_3.body.ctl.halves[i].half ≠ HalfSt.lead) ∧
    (wSplitAndRejoin_3.body.ctl.halves[(0 : HubId)].entered + 100000000 < 2 ^ 64) :=
  dec

def wSplitAndRejoin_4 : State := (rj (some 5))
theorem witness_SplitAndRejoin_9 :
    (wSplitAndRejoin_4.body.ctl.mode = Mode.split) ∧
    (wSplitAndRejoin_4.body.ctl.bundleTest[(1 : BundleId)] = some 5) ∧
    (5 + 10000000000 < 2 ^ 64) :=
  dec

theorem witness_SplitAndRejoin_10 :
    ((cpy.body.part (3 : Byte)).copying = some (8 : BitVec 32)) ∧
    (cpy.body.ctl.mode = Mode.operating ∨ cpy.body.ctl.mode = Mode.exposed) :=
  dec

theorem witness_SplitAndRejoin_11 :
    (((full atK).body.part (3 : Byte)).copying = none) :=
  dec

theorem witness_SplitAndRejoin_12 :
    (rjn.body.ctl.mode = Mode.split) ∧
    (rjn.body.ctl.rejoin = some ((8 : BitVec 32), (1 : HubId))) ∧
    (∀ e ∈ rjn.body.io.parts, e.2.place ≠ 3) :=
  dec

theorem witness_SplitAndRejoin_13 :
    ((full atK).body.ctl.rejoin = none) :=
  dec

theorem witness_SplitAndRejoin_14 :
    ((full atK).body.ctl.mode ≠ Mode.standby) ∧
    ((full atK).body.islandUp (full atK).body.ctl.steering = true) :=
  dec

def wStartingAndProving_7 : State := (dark fun c => { c with savedTod := 77, islands := #v[{ supply := true }, {}] })
theorem witness_StartingAndProving_3 :
    (wStartingAndProving_7.body.ctl.islands[(0 : HubId)].powered = false) ∧
    (wStartingAndProving_7.body.ctl.islands[(0 : HubId)].failed = false) ∧
    (wStartingAndProving_7.body.sourced (0 : HubId) = true) ∧
    (wStartingAndProving_7.body.islandUp (otherHub (0 : HubId)) = false) :=
  dec

def wStartingAndProving_8 : State := (auto (sb id))
theorem witness_StartingAndProving_4 :
    (wStartingAndProving_8.body.ctl.mode = Mode.standby) ∧
    (wStartingAndProving_8.body.islandUp wStartingAndProving_8.body.ctl.steering = true) ∧
    (wStartingAndProving_8.cfg.autostart = true) ∧
    (wStartingAndProving_8.body.ctl.offHold = false) ∧
    (wStartingAndProving_8.body.ctl.attempt = false) ∧
    (wStartingAndProving_8.body.ctl.standbySince + 1000000000 < 2 ^ 64) ∧
    (∀ (t : Nat), wStartingAndProving_8.body.ctl.attemptAt = some t → t + 10000000000 < 2 ^ 64) :=
  dec

def wStartingAndProving_9 : State := (sb fun c => { c with attempt := true, startTickets := [4] })
theorem witness_StartingAndProving_5 :
    (wStartingAndProving_9.body.ctl.mode = Mode.standby) ∧
    (wStartingAndProving_9.body.ctl.attempt = true) :=
  dec

def wStartingAndProving_10 : State := (sb id)
theorem witness_StartingAndProving_6 :
    (wStartingAndProving_10.body.ctl.attempt = false) :=
  dec

def wStartingAndProving_11 : State := (sb fun c => { c with attempt := true, feeds := Vector.replicate 2 { present := true, closed := true } })
theorem witness_StartingAndProving_7 :
    (wStartingAndProving_11.body.ctl.mode = Mode.standby) ∧
    (wStartingAndProving_11.body.ctl.attempt = true) ∧
    (wStartingAndProving_11.body.stewardsUp = true) ∧
    (wStartingAndProving_11.body.ctl.failedWires.contains (StewardLink.nearDie (2 : Fin 6)) = false) :=
  dec

def wStartingAndProving_12 : State := (pv 1 [])
theorem witness_StartingAndProving_8 :
    (wStartingAndProving_12.body.ctl.mode = Mode.proving) ∧
    (wStartingAndProving_12.body.ctl.step = 1) :=
  dec

def wStartingAndProving_13 : State := (pv 2 [])
theorem witness_StartingAndProving_9 :
    (wStartingAndProving_13.body.ctl.mode = Mode.proving) ∧
    (2 = 2 ∨ 2 = 3) ∧
    (wStartingAndProving_13.body.ctl.step = 2) :=
  dec

def wStartingAndProving_14 : State := (pv 3 [])
theorem witness_StartingAndProving_10 :
    (wStartingAndProving_14.body.ctl.mode = Mode.proving) ∧
    (3 = 2 ∨ 3 = 3) ∧
    (wStartingAndProving_14.body.ctl.step = 3) :=
  dec

def wStartingAndProving_15 : State := (pv 4 [])
theorem witness_StartingAndProving_11 :
    (wStartingAndProving_15.body.ctl.mode = Mode.proving) ∧
    (wStartingAndProving_15.body.ctl.step = 4) :=
  dec

def wStartingAndProving_16 : State := (pv 7 [5])
theorem witness_StartingAndProving_12 :
    (wStartingAndProving_16.body.ctl.mode = Mode.proving) ∧
    (wStartingAndProving_16.body.ctl.step = 7) ∧
    (wStartingAndProving_16.body.fallowRow = none) :=
  dec

def wStartingAndProving_17 : State := (pv 7 ((List.finRange 144).take 10))
def wStartingAndProving_18 : Byte := ((pv 7 ((List.finRange 144).take 10)).body.fallowRow.getD (0, 0)).1
def wStartingAndProving_19 : BitVec 16 := ((pv 7 ((List.finRange 144).take 10)).body.fallowRow.getD (0, 0)).2
theorem witness_StartingAndProving_13 :
    (wStartingAndProving_17.body.ctl.mode = Mode.proving) ∧
    (wStartingAndProving_17.body.ctl.step = 7) ∧
    (wStartingAndProving_17.body.fallowRow = some (wStartingAndProving_18, wStartingAndProving_19)) :=
  dec

def wStartingAndProving_20 : State := (pv 6 [])
theorem witness_StartingAndProving_14 :
    (wStartingAndProving_20.body.ctl.mode = Mode.proving) ∧
    (wStartingAndProving_20.body.ctl.provingSince + 180000000000 < 2 ^ 64) :=
  dec

theorem witness_StartingAndProving_15 :
    ((full atK).body.ctl.mode ≠ Mode.proving) :=
  dec

theorem witness_StartingAndProving_16 :
    ((full atK).body.ctl.mode ≠ Mode.proving) :=
  dec

def wPackageEvents_21 : State := (pk id)
def wPackageEvents_22 : BitVec 16 := (coreLoc 3)
def wPackageEvents_23 : ℕ := (siltBytes 0x0401).getD 0
theorem witness_PackageEvents_1 :
    (siltBytes (1025 : BitVec 16) = some wPackageEvents_23) ∧
    (locValid wPackageEvents_22 = true) :=
  dec

theorem witness_PackageEvents_2 :
    (siltBytes (1025 : BitVec 16) = none ∨ locValid (65535 : BitVec 16) = false) :=
  dec

theorem witness_PackageEvents_3 :
    (ret.body.ctl.silt[ret.body.ctl.steering].writing = some ((5 : BitVec 64), (6 : Byte), [])) ∧
    (ret.body.ctl.mode = Mode.fallow) :=
  dec

theorem witness_PackageEvents_4 :
    (∀ (i : HubId), wPackageEvents_21.body.ctl.silt[i].writing = none) :=
  dec

def wPackageEvents_24 : State := (pk fun c => { c with lastSave := 7 })
theorem witness_PackageEvents_5 :
    (wPackageEvents_24.body.islandUp wPackageEvents_24.body.ctl.steering = true) ∧
    (wPackageEvents_24.body.ctl.lastSave.toNat + 60000000000 < 2 ^ 64) :=
  dec

theorem witness_PackageEvents_6 :
    (wPackageEvents_21.body.ctl.refclk[(1 : HubId)] = true) ∧
    (wPackageEvents_21.body.ctl.islands[(1 : HubId)].powered = true) :=
  dec

def wPackageEvents_25 : State := (pk fun c => { c with refclk := #v[false, true] })
theorem witness_PackageEvents_7 :
    (wPackageEvents_25.body.ctl.refclk[(0 : HubId)] = false) :=
  dec

theorem witness_PackageEvents_8 :
    (wPackageEvents_21.body.ctl.refclk[(0 : HubId)] = true) :=
  dec

def wPackageEvents_26 : State := (pk fun c => { c with domains := c.domains.set 7 { on := true, changed := false, moveFrom := 650, moveAt := 80000 } })
theorem witness_PackageEvents_9 :
    (wPackageEvents_26.body.ctl.islands[domainHalf ↑(7 : DomainId)].powered = true) ∧
    (10000 ≤ wPackageEvents_26.body.tod (domainHalf ↑(7 : DomainId))) :=
  dec

def wPackageEvents_27 : State := (pk fun c => { c with domains := c.domains.set 7 { on := true, changed := false, moveFrom := 650, moveAt := 80001 } })
theorem witness_PackageEvents_10 :
    (wPackageEvents_27.body.ctl.islands[domainHalf ↑(7 : DomainId)].powered = true) ∧
    (10000 ≤ wPackageEvents_27.body.tod (domainHalf ↑(7 : DomainId))) :=
  dec

theorem witness_PackageEvents_12 :
    ((tp Tap.shDr).body.ctl.port.isOpen = true) :=
  dec

theorem witness_PackageEvents_13 :
    ((tp Tap.shDr).body.ctl.port.isOpen = true) :=
  dec

theorem witness_PackageEvents_14 :
    ((tp Tap.pauIr).body.ctl.port.isOpen = true) ∧
    ((tp Tap.pauIr).body.ctl.port.tap.shifting = false) :=
  dec

theorem witness_PackageEvents_15 :
    ((tp Tap.shDr).body.ctl.port.isOpen = true) ∧
    ((tp Tap.shDr).body.ctl.port.tap.shifting = true) :=
  dec

theorem witness_PackageEvents_16 :
    (wPackageEvents_21.body.ctl.port.isOpen = false) :=
  dec

def wPackageEvents_28 : State := (pk fun c => { c with mode := .fallow })
theorem witness_PackageEvents_17 :
    (wPackageEvents_28.body.islandUp (0 : HubId) = true) ∧
    (wPackageEvents_28.body.ctl.mode = Mode.fallow) :=
  dec

theorem witness_PackageEvents_18 :
    (wPackageEvents_21.body.ctl.mode = Mode.standby ∨ wPackageEvents_21.body.ctl.mode = Mode.proving ∨ wPackageEvents_21.body.ctl.mode = Mode.operating) :=
  dec

def wPackageEvents_29 : State := {}
theorem witness_PackageEvents_19 :
    (∀ (i : HubId), wPackageEvents_29.body.islandUp i = false) :=
  dec
end G15

namespace G16
/-- Both islands, both feeds, cores in service with a spare in each half. -/
def full (u : Strand) : State := let s := running u
  { s with body := s.body.modCtl fun c => { c with
      islands := Vector.replicate 2 { powered := true }
      feeds := Vector.replicate 2 { present := true, closed := true, admitted := true }
      domains := Vector.replicate 232 { on := true }
      cores := ((Vector.replicate 144 { role := .assignable }).set 3 { role := .spare }).set 143 { role := .spare } } }
def modC (s : State) (f : Ctl → Ctl) : State := { s with body := s.body.modCtl f }
/-- A module in mode `m` with one connection, on which a session of `role` is open. -/
def fl (m : Mode) (role : Role) : State := modC (full atK) fun c => { c with
  mode := m
  conns := [(1, { port := 0, cert := .session, session := some (7, role), maxSeq := 3, replies := [(3, [1, 2, 3, 4])], lastPacket := 0 })] }
/-- A request with parameters `ps`, of session `k`. -/
def ask (k : BitVec 32) (ps : List Byte) : Packet :=
  { magic := 0x464C, version := 1, flags := 0, status := 0, detail := 0, sequence := 9, session := k, plen := BitVec.ofNat 32 ps.length, ticket := 0, mode := 0, half := 0, island := 0, reserved := 0, params := ps }

def many (n : Nat) : State := modC (fl .operating .owner) fun c => { c with conns := (List.range n).map fun k => (k, { port := 0, cert := .session, session := none, maxSeq := 0, replies := [], lastPacket := 0 }) }
def x1 (role : Role) : Conn := { port := 0, cert := .session, session := some (7, role), maxSeq := 3, replies := [(3, [1, 2, 3, 4])], lastPacket := 0 }
def x0 (cert : CertKind) : Conn := { port := 0, cert := cert, session := none, maxSeq := 0, replies := [], lastPacket := 0 }
def fresh (cert : CertKind) : State := modC (fl .standby .owner) fun c => { c with conns := [(1, x0 cert)] }
def stg (s : State) : State := modC s fun c => { c with staging := [(3, { conn := 1, alg := 1, length := 9, keyid := [], sig := [], data := [], lastData := 0 })] }
def mailS : State := let s := fl .operating .owner; { s with body := s.body.modMem fun m => { m with cells := [(0x100000, 1), (0x100020, 0x4C), (0x100021, 0x46), (0x100022, 1), (0x100024, 1), (0x100025, 3), (0x100028, 9)] } }
def hd (s : State) (p : Packet) : Body := (s.heard (.conn 1) p).body
/-- The parameters of the reply that a request gets on connection 1. -/
def tkS (done : Bool) : State := modC (fl .operating .owner) fun c => { c with tickets := [{ num := 5, role := .owner, opcode := 0x0201, hdr := [1, 2], result := if done then some [1, 2, 3] else none, read := false, holder := none }] }
def rec1 : SiltRec := { tod := 5, loc := 6, code := 0x0101, seq := 8, data := 9 }
def logd : State := modC (fl .operating .owner) fun c => { c with silt := Vector.replicate 2 { ring := [rec1] }, retained := some { tod := 5, trigger := 6, recs := [rec1] } :: c.retained.drop 1 }
def je : JEntry := { txn := 7, tag := 99, program := 0x300000, slice := 5, gen := 3, subch := 2, part := 0, st := 2, asid := 0, prio := 3, sflags := 0, stream := 0, path := 0, engine := 5, cslice := 0, cdepth := 0, cmode := 0, ckcce := 0, recov := 0, ckaddr := 0x300000, ckpos := 0, ckxfer := 0, ckdone := 0, ckresid := 0, dups := 0, issued := 1, jflags := 0, acctod := 0, ckseq := 4, ringix := 0, final := List.replicate 32 0 }
def jrn (m : Mode) (r : Role) : State := let s := fl m r; { s with body := s.body.modIo fun i => { i with journal := #v[[(77, je)], [(77, je)]] } }
def strd (r : RunState) : State := let s := fl .operating .mailbox; { s with body := s.body.setStrand 7 { s.body.strand 7 with run := r } }
def phys : State := let s := fl .fallow .owner; { s with body := (holding s [0x300000] 77).body }

def wFleletConnections_0 : State := (many 3)
def wFleletConnections_1 : Packet := (ask 7 [])
def wFleletConnections_2 : FSource := (.conn 1)
theorem witness_FleletConnections_1 :
    (wFleletConnections_0.body.islandUp (0 : HubId) = true) ∧
    (wFleletConnections_0.body.ctl.islands[(0 : HubId)].portFailed = false) ∧
    ((List.filter (fun e => decide (e.2.port = (0 : HubId))) wFleletConnections_0.body.ctl.conns).length < 4) ∧
    (¬(CertKind.session = CertKind.neither ∧ wFleletConnections_0.cfg.anchor.isSome = true)) :=
  dec

def wFleletConnections_3 : State := (many 4)
theorem witness_FleletConnections_2 :
    (4 ≤ (List.filter (fun e => decide (e.2.port = (0 : HubId))) wFleletConnections_3.body.ctl.conns).length) :=
  dec

theorem witness_FleletConnections_4 :
    (tGet (fl Mode.operating Role.owner).body.ctl.conns 1 = some (x1 Role.owner)) ∧
    ((x1 Role.owner).session ≠ none) ∧
    ((x1 Role.owner).lastPacket + 600000000000 < 2 ^ 64) :=
  dec

theorem witness_FleletConnections_5 :
    (tGet (fresh CertKind.session).body.ctl.conns 1 = some (x0 CertKind.session)) ∧
    ((x0 CertKind.session).session = none) :=
  dec

def wFleletConnections_4 : Packet := (ask 0 [2])
theorem witness_FleletConnections_6 :
    ((fresh CertKind.viewer).body.ctl.genWait = []) ∧
    ((fresh CertKind.viewer).body.ctl.switching = none) ∧
    ((fresh CertKind.viewer).body.receiver (FSource.conn 1) = some ((0 : HubId), false)) ∧
    (tGet (fresh CertKind.viewer).body.ctl.conns 1 = some (x0 CertKind.viewer)) ∧
    ((x0 CertKind.viewer).session = none) ∧
    (badLength wFleletConnections_4 = false) ∧
    (badHeader wFleletConnections_4 = false) ∧
    (wFleletConnections_4.session = (0 : BitVec 32)) ∧
    (wFleletConnections_4.params = [if Role.viewer = Role.owner then (1 : Byte) else (2 : Byte)]) ∧
    (Role.viewer ≠ Role.mailbox) ∧
    (roleOpen (fresh CertKind.viewer).cfg.anchor.isSome (x0 CertKind.viewer).cert Role.viewer = true) :=
  dec

theorem witness_FleletConnections_7 :
    (Asked (fl Mode.operating Role.owner) cmdSessionClose (FSource.conn 1) Role.owner (0 : HubId) wFleletConnections_1) :=
  ⟨dec, dec, dec, dec, dec, ⟨_, rfl, dec, dec, dec⟩, dec, dec, dec⟩

def wFleletConnections_5 : Packet := ({ ask 7 [] with sequence := 3 })
def wFleletConnections_6 : BitVec 32 × List Byte := (3, [1, 2, 3, 4])
theorem witness_FleletConnections_8 :
    ((fl Mode.operating Role.owner).body.ctl.genWait = []) ∧
    ((fl Mode.operating Role.owner).body.ctl.switching = none) ∧
    ((fl Mode.operating Role.owner).body.receiver (FSource.conn 1) = some ((0 : HubId), false)) ∧
    (tGet (fl Mode.operating Role.owner).body.ctl.conns 1 = some (x1 Role.owner)) ∧
    ((x1 Role.owner).session = some (wFleletConnections_5.session, Role.owner)) ∧
    (badLength wFleletConnections_5 = false) ∧
    (badHeader wFleletConnections_5 = false) ∧
    (List.find? (fun y => decide (y.1 = wFleletConnections_5.sequence)) (x1 Role.owner).replies = some wFleletConnections_6) :=
  dec

def wFleletConnections_7 : Cmd := ({ cmdGetFeeds with op := 0x0FFF })
theorem witness_FleletConnections_9 :
    (Asked (fl Mode.operating Role.owner)
  (have __src := cmdGetFeeds;
  { op := __src.op, roles := __src.roles, lenOk := fun x => true, cls := __src.cls, run := __src.run : Cmd })
  wFleletConnections_2 Role.owner (0 : HubId) wFleletConnections_1) ∧
    (∀ c ∈ allCmds, c.op ≠ (4095 : BitVec 16)) ∧
    (wFleletConnections_7.op = (4095 : BitVec 16)) :=
  ⟨⟨dec, dec, dec, dec, dec, ⟨_, rfl, dec, dec, dec⟩, dec, dec, dec⟩, dec⟩

theorem witness_FleletConnections_10 :
    (cmdGetFeeds ∈ allCmds) :=
  by simp [allCmds]

def wFleletConnections_8 : Packet := (ask 7 [1])
theorem witness_FleletConnections_11 :
    (Asked (fl Mode.operating Role.viewer)
  (have __src := cmdSetAutostart;
  { op := __src.op, roles := rolesOVS, lenOk := __src.lenOk, cls := __src.cls, run := __src.run : Cmd })
  wFleletConnections_2 Role.viewer (0 : HubId) wFleletConnections_8) ∧
    (Role.viewer ≠ Role.owner) :=
  ⟨⟨dec, dec, dec, dec, dec, ⟨_, rfl, dec, dec, dec⟩, dec, dec, dec⟩, dec⟩

theorem witness_FleletConnections_12 :
    (Asked (fl Mode.operating Role.owner)
  (have __src := cmdPowerOn;
  { op := __src.op, roles := __src.roles, lenOk := __src.lenOk, cls := clsIs LClass.a, run := __src.run : Cmd })
  wFleletConnections_2 Role.owner (0 : HubId) wFleletConnections_1) ∧
    ((fl Mode.operating Role.owner).body.ctl.mode ≠ Mode.standby) :=
  ⟨⟨dec, dec, dec, dec, dec, ⟨_, rfl, dec, dec, dec⟩, dec, dec, dec⟩, dec⟩

theorem witness_FleletConnections_13 :
    ((fl Mode.operating Role.owner).body.ctl.genWait = []) ∧
    ((fl Mode.operating Role.owner).body.mailRequests (0 : HubId) = []) :=
  dec

def wFleletConnections_9 : Packet := (ask 0 [])
theorem witness_FleletConnections_14 :
    (mailS.body.ctl.genWait = []) ∧
    (mailS.body.receiver (FSource.mailbox (0 : HubId) (0 : Fin 16)) = some ((0 : HubId), false)) ∧
    (mailS.body.mailRequests (0 : HubId) = [((0 : Fin 16), (769 : BitVec 16), wFleletConnections_9)]) :=
  dec

def wFleletConnections_10 : State := (stg (fl .operating .owner))
def wFleletConnections_11 : Staging := ({ conn := 1, alg := 1, length := 9, keyid := [], sig := [], data := [], lastData := 0 })
theorem witness_FleletConnections_15 :
    (tGet wFleletConnections_10.body.ctl.staging (BitVec.toNat (3 : Byte)) = some wFleletConnections_11) ∧
    (wFleletConnections_11.lastData + 600000000000 < 2 ^ 64) :=
  dec

theorem witness_FleletReports_1 :
    (Asked (fl Mode.operating Role.owner) cmdGetIdentity wFleletConnections_2 Role.owner (0 : HubId) wFleletConnections_1) :=
  ⟨dec, dec, dec, dec, dec, ⟨_, rfl, dec, dec, dec⟩, dec, dec, dec⟩

def wFleletReports_12 : Packet := (ask 7 (leBytes 4 400))
theorem witness_FleletReports_2 :
    (Asked (fl Mode.operating Role.owner) cmdGetInventory wFleletConnections_2 Role.owner (0 : HubId) wFleletReports_12) ∧
    (inventory.length ≤ pf wFleletReports_12.params 0 4 + 16367) :=
  ⟨⟨dec, dec, dec, dec, dec, ⟨_, rfl, dec, dec, dec⟩, dec, dec, dec⟩, dec⟩

def wFleletReports_13 : Packet := (ask 7 (leBytes 4 4))
theorem witness_FleletReports_3 :
    (Asked (tkS true) cmdGetResult wFleletConnections_2 Role.owner (0 : HubId) wFleletReports_13) ∧
    (List.find? (fun t => decide (t.num.toNat = pf wFleletReports_13.params 0 4) && decide (t.role = Role.owner) && t.heldBy (0 : HubId))
    ((tkS true).heard wFleletConnections_2 wFleletReports_13).body.ctl.tickets =
  none) :=
  ⟨⟨dec, dec, dec, dec, dec, ⟨_, rfl, dec, dec, dec⟩, dec, dec, dec⟩, dec⟩

def wFleletReports_14 : Packet := (ask 7 (leBytes 4 5))
def wFleletReports_15 : Ticket := ((tkS true).body.ctl.tickets.headD { num := 0, role := .owner, opcode := 0, hdr := [], result := none, read := false, holder := none })
def wFleletReports_16 : List Byte := [1, 2, 3]
theorem witness_FleletReports_4 :
    (Asked (tkS true) cmdGetResult wFleletConnections_2 Role.owner (0 : HubId) wFleletReports_14) ∧
    (List.find? (fun t => decide (t.num.toNat = pf wFleletReports_14.params 0 4) && decide (t.role = Role.owner) && t.heldBy (0 : HubId))
    ((tkS true).heard wFleletConnections_2 wFleletReports_14).body.ctl.tickets =
  some wFleletReports_15) ∧
    (wFleletReports_15.result = some wFleletReports_16) ∧
    (wFleletReports_15.read = false) :=
  ⟨⟨dec, dec, dec, dec, dec, ⟨_, rfl, dec, dec, dec⟩, dec, dec, dec⟩, dec⟩

theorem witness_FleletReports_5 :
    (Asked (fl Mode.operating Role.owner) cmdGetMode wFleletConnections_2 Role.owner (0 : HubId) wFleletConnections_1) :=
  ⟨dec, dec, dec, dec, dec, ⟨_, rfl, dec, dec, dec⟩, dec, dec, dec⟩

theorem witness_FleletReports_6 :
    (Asked (fl Mode.operating Role.owner) cmdGetFeeds wFleletConnections_2 Role.owner (0 : HubId) wFleletConnections_1) :=
  ⟨dec, dec, dec, dec, dec, ⟨_, rfl, dec, dec, dec⟩, dec, dec, dec⟩

def wFleletReports_17 : Packet := (ask 7 (leBytes 2 229 ++ leBytes 2 3))
theorem witness_FleletReports_7 :
    (Asked (fl Mode.operating Role.owner) cmdGetDomains wFleletConnections_2 Role.owner (0 : HubId) wFleletReports_17) ∧
    (1 ≤ pf wFleletReports_17.params 2 2) ∧
    (pf wFleletReports_17.params 0 2 + pf wFleletReports_17.params 2 2 ≤ 232) ∧
    (((fl Mode.operating Role.owner).heard wFleletConnections_2 wFleletReports_17).body.isSplit = false) :=
  ⟨⟨dec, dec, dec, dec, dec, ⟨_, rfl, dec, dec, dec⟩, dec, dec, dec⟩, dec⟩

theorem witness_FleletReports_8 :
    (Asked (fl Mode.operating Role.owner) cmdGetPace wFleletConnections_2 Role.owner (0 : HubId) wFleletReports_17) ∧
    (1 ≤ pf wFleletReports_17.params 2 2) ∧
    (pf wFleletReports_17.params 0 2 + pf wFleletReports_17.params 2 2 ≤ 232) ∧
    (((fl Mode.operating Role.owner).heard wFleletConnections_2 wFleletReports_17).body.isSplit = false) :=
  ⟨⟨dec, dec, dec, dec, dec, ⟨_, rfl, dec, dec, dec⟩, dec, dec, dec⟩, dec⟩

def wFleletReports_18 : Packet := (ask 7 (0 :: 0 :: leBytes 2 4 ++ leBytes 4 0))
theorem witness_FleletReports_9 :
    (Asked logd cmdReadSilt wFleletConnections_2 Role.owner (0 : HubId) wFleletReports_18) ∧
    (pf wFleletReports_18.params 0 1 = 0) ∧
    (zeroBytes wFleletReports_18.params 1 1) ∧
    (pf wFleletReports_18.params 4 4 = 0) ∧
    (1 ≤ pf wFleletReports_18.params 2 2) ∧
    (pf wFleletReports_18.params 2 2 ≤ 2045) ∧
    ((logd.heard wFleletConnections_2 wFleletReports_18).body.ctl.silt[(0 : HubId)].ring.length ≤ pf wFleletReports_18.params 2 2) :=
  ⟨⟨dec, dec, dec, dec, dec, ⟨_, rfl, dec, dec, dec⟩, dec, dec, dec⟩, dec⟩

def wFleletReports_19 : Packet := (ask 7 (List.replicate 8 0))
def wFleletReports_20 : Retained := ({ tod := 5, trigger := 6, recs := [rec1] })
theorem witness_FleletReports_10 :
    (Asked logd cmdReadRetained wFleletConnections_2 Role.owner (0 : HubId) wFleletReports_19) ∧
    ((logd.heard wFleletConnections_2 wFleletReports_19).body.ctl.retained[pf wFleletReports_19.params 0 1]? = some (some wFleletReports_20)) ∧
    (zeroBytes wFleletReports_19.params 1 3) ∧
    (pf wFleletReports_19.params 4 4 = 0) ∧
    (wFleletReports_20.recs.length ≤ 2045) :=
  ⟨⟨dec, dec, dec, dec, dec, ⟨_, rfl, dec, dec, dec⟩, dec, dec, dec⟩, dec⟩

theorem witness_FleletReports_11 :
    (Asked (fl Mode.operating Role.owner) cmdGetFirmware wFleletConnections_2 Role.owner (0 : HubId) wFleletConnections_1) :=
  ⟨dec, dec, dec, dec, dec, ⟨_, rfl, dec, dec, dec⟩, dec, dec, dec⟩

def wFleletReports_21 : FSource := (.mailbox 0 2)
def wFleletReports_22 : Packet := (ask 0 (leBytes 4 0 ++ leBytes 8 7 ++ List.replicate 8 0))
theorem witness_FleletReports_12 :
    (Asked (jrn Mode.operating Role.mailbox) cmdReadJournal wFleletReports_21 Role.mailbox (0 : HubId) wFleletReports_22) ∧
    (pf wFleletReports_22.params 0 1 = 0) ∧
    (zeroBytes wFleletReports_22.params 1 3) ∧
    (zeroBytes wFleletReports_22.params 16 4) ∧
    (pf wFleletReports_22.params 12 4 = 0) ∧
    (((jrn Mode.operating Role.mailbox).heard wFleletReports_21 wFleletReports_22).body.isSplit = false) ∧
    ((List.filter (fun e => decide (e.2.txn.toNat = pf wFleletReports_22.params 4 8))
      ((jrn Mode.operating Role.mailbox).heard wFleletReports_21 wFleletReports_22).body.outstanding).length ≤
  511) :=
  ⟨⟨dec, dec, dec, dec, dec, ⟨rfl, rfl⟩, dec, dec, dec⟩, dec⟩

theorem witness_FleletReports_13 :
    (Asked (fl Mode.operating Role.mailbox) cmdReadPam wFleletReports_21 Role.mailbox (0 : HubId) wFleletConnections_9) :=
  ⟨dec, dec, dec, dec, dec, ⟨rfl, rfl⟩, dec, dec, dec⟩

def wFleletReports_23 : Packet := (ask 0 (leBytes 4 7))
theorem witness_FleletReports_14 :
    (Asked (strd RunState.neverStarted) cmdReadStrand wFleletReports_21 Role.mailbox (0 : HubId) wFleletReports_23) ∧
    (pf wFleletReports_23.params 0 2 = ↑(7 : StrandId)) ∧
    (zeroBytes wFleletReports_23.params 2 2) ∧
    (((strd RunState.neverStarted).heard wFleletReports_21 wFleletReports_23).body.isSplit = false) ∧
    ((((strd RunState.neverStarted).heard wFleletReports_21 wFleletReports_23).body.strand (7 : StrandId)).run = RunState.stopped ∨
  (((strd RunState.neverStarted).heard wFleletReports_21 wFleletReports_23).body.strand (7 : StrandId)).run = RunState.neverStarted) :=
  ⟨⟨dec, dec, dec, dec, dec, ⟨rfl, rfl⟩, dec, dec, dec⟩, dec⟩

def wFleletReports_24 : Packet := (ask 0 (leBytes 4 0))
theorem witness_FleletReports_15 :
    (Asked (fl Mode.operating Role.mailbox) cmdReadStrand wFleletReports_21 Role.mailbox (0 : HubId) wFleletReports_24) ∧
    (pf wFleletReports_24.params 0 2 = ↑(0 : StrandId)) ∧
    (zeroBytes wFleletReports_24.params 2 2) ∧
    (((fl Mode.operating Role.mailbox).heard wFleletReports_21 wFleletReports_24).body.isSplit = false) ∧
    ((((fl Mode.operating Role.mailbox).heard wFleletReports_21 wFleletReports_24).body.strand (0 : StrandId)).run = RunState.running) :=
  ⟨⟨dec, dec, dec, dec, dec, ⟨rfl, rfl⟩, dec, dec, dec⟩, dec⟩

def wFleletReports_25 : Packet := (ask 7 ([0, 0]))
def wFleletReports_26 : List Byte := ((hd (fl .operating .owner) (ask 7 [0, 0])).unitRecord 0).getD []
theorem witness_FleletReports_16 :
    (Asked (fl Mode.operating Role.owner) cmdReadUnit wFleletConnections_2 Role.owner (0 : HubId) wFleletReports_25) ∧
    (locValid (BitVec.ofNat 16 (pf wFleletReports_25.params 0 2)) = true) ∧
    (((fl Mode.operating Role.owner).heard wFleletConnections_2 wFleletReports_25).body.isSplit = false) ∧
    (((fl Mode.operating Role.owner).heard wFleletConnections_2 wFleletReports_25).body.unitRecord (BitVec.ofNat 16 (pf wFleletReports_25.params 0 2)) =
  some wFleletReports_26) :=
  ⟨⟨dec, dec, dec, dec, dec, ⟨_, rfl, dec, dec, dec⟩, dec, dec, dec⟩, dec⟩

def wFleletReports_27 : Packet := (ask 7 (leBytes 8 0x300000 ++ leBytes 4 128 ++ [0, 0, 0, 0]))
theorem witness_FleletReports_17 :
    (Asked phys cmdReadPhys wFleletConnections_2 Role.owner (0 : HubId) wFleletReports_27) ∧
    (pf wFleletReports_27.params 0 8 % 128 = 0) ∧
    (pf wFleletReports_27.params 0 8 < 2 ^ 52) ∧
    (pf wFleletReports_27.params 8 4 = 128) ∧
    (zeroBytes wFleletReports_27.params 13 3) ∧
    ((phys.heard wFleletConnections_2 wFleletReports_27).body.classOf (pf wFleletReports_27.params 0 8) = PClass.memory) ∧
    ((phys.heard wFleletConnections_2 wFleletReports_27).body.poisoned (lineNo (pf wFleletReports_27.params 0 8)) = false) ∧
    ((phys.heard wFleletConnections_2 wFleletReports_27).body.readable (lineNo (pf wFleletReports_27.params 0 8)) = true) :=
  ⟨⟨dec, dec, dec, dec, dec, ⟨_, rfl, dec, dec, dec⟩, dec, dec, dec⟩, dec⟩

def wFleletReports_28 : Packet := (ask 7 (leBytes 4 1 ++ leBytes 4 77 ++ leBytes 4 1))
theorem witness_FleletReports_18 :
    (Asked (jrn Mode.fallow Role.owner) cmdReadJournalRaw wFleletConnections_2 Role.owner (0 : HubId) wFleletReports_28) ∧
    (pf wFleletReports_28.params 0 1 = ↑(1 : HubId)) ∧
    (zeroBytes wFleletReports_28.params 1 3) ∧
    (pf wFleletReports_28.params 4 4 < 262144) ∧
    (pf wFleletReports_28.params 8 4 = 1) :=
  ⟨⟨dec, dec, dec, dec, dec, ⟨_, rfl, dec, dec, dec⟩, dec, dec, dec⟩, dec⟩

theorem witness_FleletReports_19 :
    (Asked (fl Mode.operating Role.owner) cmdGetTransportKey wFleletConnections_2 Role.owner (0 : HubId) wFleletConnections_1) :=
  ⟨dec, dec, dec, dec, dec, ⟨_, rfl, dec, dec, dec⟩, dec, dec, dec⟩
end G16

namespace G17
/-- Both islands, both feeds, cores in service with a spare in each half. -/
def full (u : Strand) : State := let s := running u
  { s with body := s.body.modCtl fun c => { c with
      islands := Vector.replicate 2 { powered := true }
      feeds := Vector.replicate 2 { present := true, closed := true, admitted := true }
      domains := Vector.replicate 232 { on := true }
      cores := ((Vector.replicate 144 { role := .assignable }).set 3 { role := .spare }).set 143 { role := .spare } } }
def modC (s : State) (f : Ctl → Ctl) : State := { s with body := s.body.modCtl f }
/-- A module in mode `m` with one connection, on which a session of `role` is open. -/
def fl (m : Mode) (role : Role) : State := modC (full atK) fun c => { c with
  mode := m
  conns := [(1, { port := 0, cert := .session, session := some (7, role), maxSeq := 3, replies := [(3, [1, 2, 3, 4])], lastPacket := 0 })] }
/-- A request with parameters `ps`, of session `k`. -/
def ask (k : BitVec 32) (ps : List Byte) : Packet :=
  { magic := 0x464C, version := 1, flags := 0, status := 0, detail := 0, sequence := 9, session := k, plen := BitVec.ofNat 32 ps.length, ticket := 0, mode := 0, half := 0, island := 0, reserved := 0, params := ps }

def c1 : FSource := .conn 1
def mb : FSource := .mailbox 0 2
def issued (s : State) (src : FSource) (role : Role) (op : BitVec 16) (p : Packet) : Body :=
  let b := (s.heard src p).body
  (b.issueTicket 0 role op (replyHeader b 0 op 1 0 p.sequence p.session 0 (b.nextTicket 0))).getD b
def cfgOf (s : State) (f : FlashCfg → FlashCfg) : State := { s with cfg := f s.cfg }
def slot1 (s : State) : State := cfgOf s fun c => { c with slots := c.slots.set 1 { valid := true } }
def stag (s : State) (t : Nat) : State := modC s fun c => { c with staging := [(t, { conn := 1, alg := 1, length := 9, keyid := [], sig := [], data := [], lastData := 0 })] }
def st1 : Staging := { conn := 1, alg := 1, length := 9, keyid := [], sig := [], data := [], lastData := 0 }
def splitL : State := modC (fl .split .mailbox) fun c => { c with halves := #v[{ half := .lead }, { half := .fenced }], bundles := #v[false, false], bundleReady := #v[true, false] }

def dom (s : State) (f : Domain → Domain) : State := { s with body := s.body.modDomain 231 f }
def idle0 : State := let s := fl .operating .mailbox; { s with body := s.body.setStrand 0 {} }
def tkS (done : Bool) : State := modC (fl .operating .owner) fun c => { c with tickets := [{ num := 5, role := .owner, opcode := 0x0201, hdr := [1, 2], result := if done then some [1, 2, 3] else none, read := false, holder := none }] }
def tk (done : Bool) : Ticket := { num := 5, role := .owner, opcode := 0x0201, hdr := [1, 2], result := if done then some [1, 2, 3] else none, read := false, holder := none }
def sl1 : Slice := { st := .bound, kind := 1, part := 0, asid := 0, gen := 3, limit := 9, weight := 2, lastAdv := none }
def slc (m : Mode) (r : Role) (x : Slice) : State := let s := fl m r; { s with body := s.body.modIo fun i => { i with slices := [(5, x)], parts := [(0, {}), (3, { domain := 3 })] } }
def path1 : Path := { port := 9, proto := 1, target := 7, st := 1, unit := 0, probed := true }
def subS (r : Role) (c : Subch) : State := let s := slc .operating r sl1; { s with body := s.body.modIo fun i => { i with subchs := [(5 * 4096 + 2, c)], octets := i.octets.set 1 { mode := 4 } } }
def sub1 : Subch := { kind := 1, blksz := 512, paths := [path1, path1] }
def pth : List Byte := [9, 1] ++ leBytes 2 7 ++ [1, 0, 0, 0] ++ leBytes 8 0
def nas (r : Role) : State := let s := slc .operating r { sl1 with kind := 4, part := 3 }; { s with body := s.body.modIo fun i => { i with octets := (i.octets.set 0 { mode := 1, rate := 4 }).set 6 { mode := 1, rate := 4 }, netaddrs := [(3 * 4096 + 4095, { slice := 5, port := 0, alt := none, mac := [], vlan := 0, ip := [], rip := [] })] } }
def strm (bl : List (BitVec 64 × List Byte)) : Stream := { slice := 5, image := 2, rate := 10, bufbase := 0, bufsize := 4, blocks := bl }
def subT : Subch := { sub1 with kind := 2, blksz := 0 }
def tpS (bl : List (BitVec 64 × List Byte)) (dec : Bool) : State := let s := subS .mailbox subT
  { s with body := s.body.modIo fun i => { i with streams := if dec then [(63, strm bl)] else [] } }
def orp (n : Nat) : State := let s := slc .operating .mailbox sl1; { s with body := s.body.modIo fun i => { i with orphans := #v[(List.range n).map fun k => { ix := k, final := List.replicate 32 0, slice := 5, gen := 3, part := 0, asid := 0, tod := 4 }, []] } }

def wFleletConfiguration_0 : Packet := (ask 7 ([1, 0, 0, 0] ++ leBytes 2 97 ++ [0, 0] ++ List.replicate 291 5))
theorem witness_FleletConfiguration_1 :
    (Asked (fl Mode.standby Role.owner) cmdSetOwnerAnchor c1 Role.owner (0 : HubId) wFleletConfiguration_0) ∧
    ((fl Mode.standby Role.owner).cfg.anchor = none) ∧
    ((fl Mode.standby Role.owner).body.ctl.mode = Mode.standby) ∧
    ((1 : Byte) = (1 : Byte) ∨ (1 : Byte) = (2 : Byte)) ∧
    (wFleletConfiguration_0.params.getD 0 (0 : Byte) = (1 : Byte)) ∧
    (zeroBytes wFleletConfiguration_0.params 1 3) ∧
    (pf wFleletConfiguration_0.params 4 2 = algKey (1 : Byte)) ∧
    (pf wFleletConfiguration_0.params 6 2 = 0) ∧
    (wFleletConfiguration_0.params.length = 8 + 3 * algKey (1 : Byte)) :=
  ⟨⟨dec, dec, dec, dec, dec, ⟨_, rfl, dec, dec, dec⟩, dec, dec, dec⟩, dec⟩

def wFleletConfiguration_1 : Packet := (ask 7 (leBytes 1 1 ++ [3, 32, 128] ++ List.replicate 40 9))
theorem witness_FleletConfiguration_2 :
    (Asked (fl Mode.operating Role.owner) cmdSetMgmtNet c1 Role.owner (0 : HubId) wFleletConfiguration_1) ∧
    (pf wFleletConfiguration_1.params 0 1 = ↑(1 : HubId)) ∧
    (pf wFleletConfiguration_1.params 1 1 < 4) ∧
    (pf wFleletConfiguration_1.params 2 1 ≤ 32) ∧
    (pf wFleletConfiguration_1.params 3 1 ≤ 128) ∧
    ((fl Mode.operating Role.owner).body.isSplit = false ∨ (1 : HubId) = (0 : HubId)) :=
  ⟨⟨dec, dec, dec, dec, dec, ⟨_, rfl, dec, dec, dec⟩, dec, dec, dec⟩, dec⟩

theorem witness_FleletConfiguration_3 :
    (Asked (fl Mode.split Role.owner) cmdSetMgmtNet c1 Role.owner (0 : HubId) wFleletConfiguration_1) ∧
    (pf wFleletConfiguration_1.params 0 1 = ↑(1 : HubId)) ∧
    (pf wFleletConfiguration_1.params 1 1 < 4) ∧
    (pf wFleletConfiguration_1.params 2 1 ≤ 32) ∧
    (pf wFleletConfiguration_1.params 3 1 ≤ 128) ∧
    ((fl Mode.split Role.owner).body.isSplit = true) ∧
    ((1 : HubId) ≠ (0 : HubId)) :=
  ⟨⟨dec, dec, dec, dec, dec, ⟨_, rfl, dec, dec, dec⟩, dec, dec, dec⟩, dec⟩

def wFleletConfiguration_2 : Packet := (ask 7 ([1]))
theorem witness_FleletConfiguration_4 :
    (Asked (fl Mode.operating Role.owner) cmdSetAutostart c1 Role.owner (0 : HubId) wFleletConfiguration_2) ∧
    (pf wFleletConfiguration_2.params 0 1 ≤ 1) :=
  ⟨⟨dec, dec, dec, dec, dec, ⟨_, rfl, dec, dec, dec⟩, dec, dec, dec⟩, dec⟩

def wFleletConfiguration_3 : Packet := (ask 7 ([2]))
theorem witness_FleletConfiguration_5 :
    (Asked (fl Mode.operating Role.owner) cmdSetAutostart c1 Role.owner (0 : HubId) wFleletConfiguration_3) ∧
    (1 < pf wFleletConfiguration_3.params 0 1) :=
  ⟨⟨dec, dec, dec, dec, dec, ⟨_, rfl, dec, dec, dec⟩, dec, dec, dec⟩, dec⟩

theorem witness_FleletConfiguration_6 :
    (Asked (fl Mode.operating Role.owner) cmdSetPreferredHalf c1 Role.owner (0 : HubId) wFleletConfiguration_2) ∧
    (pf wFleletConfiguration_2.params 0 1 = ↑(1 : HubId)) :=
  ⟨⟨dec, dec, dec, dec, dec, ⟨_, rfl, dec, dec, dec⟩, dec, dec, dec⟩, dec⟩

def wFleletConfiguration_4 : Packet := (ask 7 (leBytes 2 5 ++ leBytes 2 231 ++ leBytes 2 850 ++ leBytes 2 950))
theorem witness_FleletConfiguration_7 :
    (Asked (fl Mode.operating Role.owner) cmdSetRailLimits c1 Role.owner (0 : HubId) wFleletConfiguration_4) ∧
    (pf wFleletConfiguration_4.params 0 2 ≤ pf wFleletConfiguration_4.params 2 2) ∧
    (pf wFleletConfiguration_4.params 2 2 ≤ 231) ∧
    (pf wFleletConfiguration_4.params 4 2 % 5 = 0) ∧
    (pf wFleletConfiguration_4.params 6 2 % 5 = 0) ∧
    (650 ≤ pf wFleletConfiguration_4.params 4 2) ∧
    (pf wFleletConfiguration_4.params 4 2 ≤ pf wFleletConfiguration_4.params 6 2) ∧
    (pf wFleletConfiguration_4.params 6 2 ≤ 950) :=
  ⟨⟨dec, dec, dec, dec, dec, ⟨_, rfl, dec, dec, dec⟩, dec, dec, dec⟩, dec⟩

def wFleletConfiguration_5 : Packet := (ask 0 (leBytes 2 231 ++ leBytes 2 1000))
theorem witness_FleletConfiguration_8 :
    (Asked (fl Mode.operating Role.mailbox) cmdSetRail mb Role.mailbox (0 : HubId) wFleletConfiguration_5) ∧
    ((fl Mode.operating Role.mailbox).cfg.legal) ∧
    (pf wFleletConfiguration_5.params 0 2 ≤ 231) ∧
    (pf wFleletConfiguration_5.params 2 2 % 5 = 0) ∧
    ((fl Mode.operating Role.mailbox).body.isSplit = false) :=
  ⟨⟨dec, dec, dec, dec, dec, ⟨rfl, rfl⟩, dec, dec, dec⟩, legal_default, dec⟩

def wFleletConfiguration_6 : Packet := (ask 0 (leBytes 2 0 ++ [0, 0]))
theorem witness_FleletConfiguration_9 :
    (Asked (fl Mode.operating Role.mailbox) cmdSetDomain mb Role.mailbox (0 : HubId) wFleletConfiguration_6) ∧
    (pf wFleletConfiguration_6.params 0 2 ≤ 231) ∧
    (pf wFleletConfiguration_6.params 2 1 ≤ 1) ∧
    (zeroBytes wFleletConfiguration_6.params 3 1) ∧
    ((fl Mode.operating Role.mailbox).body.isSplit = false) ∧
    ((fl Mode.operating Role.mailbox).body.domainBusy (pf wFleletConfiguration_6.params 0 2) = some (20 : Byte)) :=
  ⟨⟨dec, dec, dec, dec, dec, ⟨rfl, rfl⟩, dec, dec, dec⟩, dec⟩

theorem witness_FleletConfiguration_10 :
    (Asked idle0 cmdSetDomain mb Role.mailbox (0 : HubId) wFleletConfiguration_6) ∧
    (pf wFleletConfiguration_6.params 0 2 ≤ 231) ∧
    (pf wFleletConfiguration_6.params 2 1 ≤ 1) ∧
    (zeroBytes wFleletConfiguration_6.params 3 1) ∧
    (idle0.body.isSplit = false) ∧
    (idle0.body.domainBusy (pf wFleletConfiguration_6.params 0 2) = none) ∧
    (pf wFleletConfiguration_6.params 2 1 = 0) :=
  ⟨⟨dec, dec, dec, dec, dec, ⟨rfl, rfl⟩, dec, dec, dec⟩, dec⟩

def wFleletConfiguration_7 : State := (dom (fl .operating .mailbox) fun x => { x with out := true })
def wFleletConfiguration_8 : Packet := (ask 0 (leBytes 2 231 ++ [1, 0]))
theorem witness_FleletConfiguration_11 :
    (Asked wFleletConfiguration_7 cmdSetDomain mb Role.mailbox (0 : HubId) wFleletConfiguration_8) ∧
    (pf wFleletConfiguration_8.params 0 2 ≤ 231) ∧
    (pf wFleletConfiguration_8.params 2 1 ≤ 1) ∧
    (zeroBytes wFleletConfiguration_8.params 3 1) ∧
    (wFleletConfiguration_7.body.isSplit = false) ∧
    (wFleletConfiguration_7.body.domainBusy (pf wFleletConfiguration_8.params 0 2) = some (18 : Byte)) :=
  ⟨⟨dec, dec, dec, dec, dec, ⟨rfl, rfl⟩, dec, dec, dec⟩, dec⟩

def wFleletConfiguration_9 : Packet := (ask 7 ([0, 0, 0, 0, 0, 0, 0, 0]))
theorem witness_FleletConfiguration_12 :
    (Asked (fl Mode.standby Role.owner) cmdSetOctet c1 Role.owner (0 : HubId) wFleletConfiguration_9) ∧
    ((octetOf wFleletConfiguration_9.params).legal) ∧
    (pf wFleletConfiguration_9.params 0 1 = ↑(0 : OctetId)) ∧
    ((fl Mode.standby Role.owner).body.serving = false) :=
  ⟨⟨dec, dec, dec, dec, dec, ⟨_, rfl, dec, dec, dec⟩, dec, dec, dec⟩, by unfold OctetRec.legal; decide +kernel, dec⟩

def wFleletConfiguration_10 : Packet := (ask 7 ([]))
theorem witness_FleletConfiguration_13 :
    (Asked (fl Mode.standby Role.owner) cmdSetFarmem c1 Role.owner (0 : HubId) wFleletConfiguration_10) ∧
    (wFleletConfiguration_10.params = []) :=
  ⟨⟨dec, dec, dec, dec, dec, ⟨_, rfl, dec, dec, dec⟩, dec, dec, dec⟩, dec⟩

def wFleletConfiguration_11 : Packet := (ask 7 ([95, 0, 0, 0] ++ leBytes 4 4095))
theorem witness_FleletConfiguration_14 :
    (Asked (fl Mode.standby Role.owner) cmdSetFarmem c1 Role.owner (0 : HubId) wFleletConfiguration_11) ∧
    (wFleletConfiguration_11.params.length = 8) ∧
    (pf wFleletConfiguration_11.params 0 1 < 96) ∧
    (pf wFleletConfiguration_11.params 1 1 < 96) ∧
    (zeroBytes wFleletConfiguration_11.params 2 2) ∧
    (pf wFleletConfiguration_11.params 4 4 < 4096) :=
  ⟨⟨dec, dec, dec, dec, dec, ⟨_, rfl, dec, dec, dec⟩, dec, dec, dec⟩, dec⟩

def wFleletConfiguration_12 : State := (slot1 (fl .standby .owner))
theorem witness_FleletConfiguration_15 :
    (Asked wFleletConfiguration_12 cmdSetActiveSlot c1 Role.owner (0 : HubId) wFleletConfiguration_2) ∧
    (pf wFleletConfiguration_2.params 0 1 = ↑(1 : Fin 2)) ∧
    (wFleletConfiguration_12.cfg.slots[(1 : Fin 2)].valid = true) :=
  ⟨⟨dec, dec, dec, dec, dec, ⟨_, rfl, dec, dec, dec⟩, dec, dec, dec⟩, dec⟩

def wFleletConfiguration_13 : Packet := (ask 7 ([3, 1] ++ leBytes 2 96 ++ leBytes 4 92 ++ List.replicate 32 4 ++ List.replicate 96 6))
theorem witness_FleletConfiguration_16 :
    (Asked (fl Mode.operating Role.owner) cmdImageBegin c1 Role.owner (0 : HubId) wFleletConfiguration_13) ∧
    (c1 = FSource.conn 1) ∧
    (pf wFleletConfiguration_13.params 0 1 = 3) ∧
    (algOk (wFleletConfiguration_13.params.getD 1 (0 : Byte)) = true) ∧
    (pf wFleletConfiguration_13.params 2 2 = algSig (wFleletConfiguration_13.params.getD 1 (0 : Byte))) ∧
    (tGet (fl Mode.operating Role.owner).body.ctl.staging 3 = none) :=
  ⟨⟨dec, dec, dec, dec, dec, ⟨_, rfl, dec, dec, dec⟩, dec, dec, dec⟩, dec⟩

def wFleletConfiguration_14 : State := (stag (fl .operating .owner) 3)
def wFleletConfiguration_15 : Packet := (ask 7 ([3, 0, 0, 0] ++ leBytes 4 6 ++ [1, 2, 3]))
theorem witness_FleletConfiguration_17 :
    (Asked wFleletConfiguration_14 cmdImageData c1 Role.owner (0 : HubId) wFleletConfiguration_15) ∧
    (c1 = FSource.conn 1) ∧
    (tGet wFleletConfiguration_14.body.ctl.staging (pf wFleletConfiguration_15.params 0 1) = some st1) ∧
    (st1.conn = 1) ∧
    (zeroBytes wFleletConfiguration_15.params 1 3) ∧
    (pf wFleletConfiguration_15.params 4 4 + (wFleletConfiguration_15.params.length - 8) ≤ st1.length) :=
  ⟨⟨dec, dec, dec, dec, dec, ⟨_, rfl, dec, dec, dec⟩, dec, dec, dec⟩, dec⟩

def wFleletConfiguration_16 : Packet := (ask 7 ([3, 0, 0, 0]))
theorem witness_FleletConfiguration_18 :
    (Asked wFleletConfiguration_14 cmdImageAbort c1 Role.owner (0 : HubId) wFleletConfiguration_16) ∧
    (c1 = FSource.conn 1) ∧
    (tGet wFleletConfiguration_14.body.ctl.staging (pf wFleletConfiguration_16.params 0 1) = some st1) ∧
    (st1.conn = 1) ∧
    (zeroBytes wFleletConfiguration_16.params 1 3) ∧
    (1 ≤ pf wFleletConfiguration_16.params 0 1) ∧
    (pf wFleletConfiguration_16.params 0 1 ≤ 5) :=
  ⟨⟨dec, dec, dec, dec, dec, ⟨_, rfl, dec, dec, dec⟩, dec, dec, dec⟩, dec⟩

def wFleletConfiguration_17 : Body := (issued (stag (fl .operating .owner) 3) c1 .owner 0x0603 (ask 7 ([3, 0, 0, 0])))
theorem witness_FleletConfiguration_19 :
    (Asked wFleletConfiguration_14 cmdImageCommit c1 Role.owner (0 : HubId) wFleletConfiguration_16) ∧
    ((wFleletConfiguration_14.heard c1 wFleletConfiguration_16).body.issueTicket (0 : HubId) Role.owner cmdImageCommit.op
    (replyHeader (wFleletConfiguration_14.heard c1 wFleletConfiguration_16).body (0 : HubId) cmdImageCommit.op (1 : Byte) (0 : Byte) wFleletConfiguration_16.sequence
      wFleletConfiguration_16.session 0 ((wFleletConfiguration_14.heard c1 wFleletConfiguration_16).body.nextTicket (0 : HubId))) =
  some wFleletConfiguration_17) ∧
    (c1 = FSource.conn 1) ∧
    (tGet wFleletConfiguration_14.body.ctl.staging (pf wFleletConfiguration_16.params 0 1) = some st1) ∧
    (st1.conn = 1) ∧
    (zeroBytes wFleletConfiguration_16.params 1 3) ∧
    (wFleletConfiguration_14.body.ctl.switching = none) :=
  ⟨⟨dec, dec, dec, dec, dec, ⟨_, rfl, dec, dec, dec⟩, dec, dec, dec⟩, rfl, dec⟩

theorem witness_FleletConfiguration_20 :
    (Asked (fl Mode.operating Role.owner) cmdFreezeSilt c1 Role.owner (0 : HubId) wFleletConfiguration_10) :=
  ⟨dec, dec, dec, dec, dec, ⟨_, rfl, dec, dec, dec⟩, dec, dec, dec⟩

def wFleletConfiguration_18 : State := (modC (fl .operating .owner) fun c => { c with silt := Vector.replicate 2 { frozen := some (5, 6) } })
theorem witness_FleletConfiguration_21 :
    (Asked wFleletConfiguration_18 cmdThawSilt c1 Role.owner (0 : HubId) wFleletConfiguration_10) ∧
    (wFleletConfiguration_18.body.ctl.mode ≠ Mode.fallow) :=
  ⟨⟨dec, dec, dec, dec, dec, ⟨_, rfl, dec, dec, dec⟩, dec, dec, dec⟩, dec⟩

def wFleletConfiguration_19 : State := (modC (fl .operating .owner) fun c => { c with retained := some { tod := 5, trigger := 6, recs := [] } :: c.retained.drop 1 })
def wFleletConfiguration_20 : Packet := (ask 7 ([0, 0, 0, 0]))
theorem witness_FleletConfiguration_22 :
    (Asked wFleletConfiguration_19 cmdClearRetained c1 Role.owner (0 : HubId) wFleletConfiguration_20) ∧
    (pf wFleletConfiguration_20.params 0 1 = ↑(0 : Fin 16)) ∧
    (zeroBytes wFleletConfiguration_20.params 1 3) ∧
    (∀ (h : HubId), wFleletConfiguration_19.body.ctl.silt[h].writing = none) :=
  ⟨⟨dec, dec, dec, dec, dec, ⟨_, rfl, dec, dec, dec⟩, dec, dec, dec⟩, dec⟩

def wFleletConfiguration_21 : Body := (issued (fl .standby .owner) c1 .owner 0x0201 (ask 7 ([])))
theorem witness_FleletConfiguration_23 :
    (Asked (fl Mode.standby Role.owner) cmdPowerOn c1 Role.owner (0 : HubId) wFleletConfiguration_10) ∧
    (((fl Mode.standby Role.owner).heard c1 wFleletConfiguration_10).body.issueTicket (0 : HubId) Role.owner cmdPowerOn.op
    (replyHeader ((fl Mode.standby Role.owner).heard c1 wFleletConfiguration_10).body (0 : HubId) cmdPowerOn.op (1 : Byte) (0 : Byte) wFleletConfiguration_10.sequence
      wFleletConfiguration_10.session 0 (((fl Mode.standby Role.owner).heard c1 wFleletConfiguration_10).body.nextTicket (0 : HubId))) =
  some wFleletConfiguration_21) :=
  ⟨⟨dec, dec, dec, dec, dec, ⟨_, rfl, dec, dec, dec⟩, dec, dec, dec⟩, rfl⟩

theorem witness_FleletConfiguration_24 :
    (Asked (fl Mode.operating Role.owner) cmdPowerOff c1 Role.owner (0 : HubId) wFleletConfiguration_2) ∧
    ((fl Mode.operating Role.owner).body.serving = true → wFleletConfiguration_2.params.getD 0 (0 : Byte) = (1 : Byte)) :=
  ⟨⟨dec, dec, dec, dec, dec, ⟨_, rfl, dec, dec, dec⟩, dec, dec, dec⟩, dec⟩

def wFleletConfiguration_22 : Body := (issued (fl .operating .owner) c1 .owner 0x0203 (ask 7 ([])))
theorem witness_FleletConfiguration_25 :
    (Asked (fl Mode.operating Role.owner) cmdEnterFallow c1 Role.owner (0 : HubId) wFleletConfiguration_10) ∧
    (((fl Mode.operating Role.owner).heard c1 wFleletConfiguration_10).body.issueTicket (0 : HubId) Role.owner cmdEnterFallow.op
    (replyHeader ((fl Mode.operating Role.owner).heard c1 wFleletConfiguration_10).body (0 : HubId) cmdEnterFallow.op (1 : Byte) (0 : Byte)
      wFleletConfiguration_10.sequence wFleletConfiguration_10.session 0
      (((fl Mode.operating Role.owner).heard c1 wFleletConfiguration_10).body.nextTicket (0 : HubId))) =
  some wFleletConfiguration_22) :=
  ⟨⟨dec, dec, dec, dec, dec, ⟨_, rfl, dec, dec, dec⟩, dec, dec, dec⟩, rfl⟩

def wFleletConfiguration_23 : Body := (issued (fl .fallow .owner) c1 .owner 0x0204 (ask 7 ([])))
theorem witness_FleletConfiguration_26 :
    (Asked (fl Mode.fallow Role.owner) cmdProve c1 Role.owner (0 : HubId) wFleletConfiguration_10) ∧
    (((fl Mode.fallow Role.owner).heard c1 wFleletConfiguration_10).body.issueTicket (0 : HubId) Role.owner cmdProve.op
    (replyHeader ((fl Mode.fallow Role.owner).heard c1 wFleletConfiguration_10).body (0 : HubId) cmdProve.op (1 : Byte) (0 : Byte) wFleletConfiguration_10.sequence
      wFleletConfiguration_10.session 0 (((fl Mode.fallow Role.owner).heard c1 wFleletConfiguration_10).body.nextTicket (0 : HubId))) =
  some wFleletConfiguration_23) :=
  ⟨⟨dec, dec, dec, dec, dec, ⟨_, rfl, dec, dec, dec⟩, dec, dec, dec⟩, rfl⟩

def wFleletConfiguration_24 : Packet := (ask 7 (leBytes 4 5))
theorem witness_FleletConfiguration_27 :
    (Asked (tkS true) cmdReleaseResult c1 Role.owner (0 : HubId) wFleletConfiguration_24) ∧
    (List.find? (fun y => decide (y.num.toNat = pf wFleletConfiguration_24.params 0 4) && decide (y.role = Role.owner) && y.heldBy (0 : HubId))
    ((tkS true).heard c1 wFleletConfiguration_24).body.ctl.tickets =
  some (tk true)) ∧
    ((tk true).result ≠ none) :=
  ⟨⟨dec, dec, dec, dec, dec, ⟨_, rfl, dec, dec, dec⟩, dec, dec, dec⟩, dec⟩

theorem witness_FleletConfiguration_28 :
    (Asked (tkS false) cmdReleaseResult c1 Role.owner (0 : HubId) wFleletConfiguration_24) ∧
    (List.find? (fun y => decide (y.num.toNat = pf wFleletConfiguration_24.params 0 4) && decide (y.role = Role.owner) && y.heldBy (0 : HubId))
    ((tkS false).heard c1 wFleletConfiguration_24).body.ctl.tickets =
  some (tk false)) ∧
    ((tk false).result = none) :=
  ⟨⟨dec, dec, dec, dec, dec, ⟨_, rfl, dec, dec, dec⟩, dec, dec, dec⟩, dec⟩

def wFleletConfiguration_25 : Packet := (ask 0 ([]))
def wFleletConfiguration_26 : Body := (issued splitL mb .mailbox 0x0208 (ask 0 []))
theorem witness_FleletConfiguration_29 :
    (Asked splitL cmdRejoin mb Role.mailbox (0 : HubId) wFleletConfiguration_25) ∧
    ((splitL.heard mb wFleletConfiguration_25).body.issueTicket (0 : HubId) Role.mailbox (520 : BitVec 16)
    (replyHeader (splitL.heard mb wFleletConfiguration_25).body (0 : HubId) (520 : BitVec 16) (1 : Byte) (0 : Byte) wFleletConfiguration_25.sequence
      wFleletConfiguration_25.session 0 ((splitL.heard mb wFleletConfiguration_25).body.nextTicket (0 : HubId))) =
  some wFleletConfiguration_26) ∧
    ((0 : HubId) = (0 : HubId)) ∧
    (splitL.body.ctl.rejoin = none) ∧
    (splitL.body.ctl.halves[(0 : HubId)].half = HalfSt.lead) ∧
    (splitL.body.ctl.bundleReady[(0 : BundleId)] = true) :=
  ⟨⟨dec, dec, dec, dec, dec, ⟨rfl, rfl⟩, dec, dec, dec⟩, rfl, dec⟩

def wFleletSlices_27 : State := (slc .operating .owner { sl1 with lastAdv := some 0 })
def wFleletSlices_28 : Packet := (ask 7 (leBytes 2 5 ++ [2, 3] ++ leBytes 2 77 ++ leBytes 2 1 ++ leBytes 8 0x1000001 ++ leBytes 2 1 ++ leBytes 2 575 ++ [0, 15] ++ List.replicate 10 0))
theorem witness_FleletSlices_1 :
    (Asked wFleletSlices_27 cmdBindSlice c1 Role.owner (0 : HubId) wFleletSlices_28) ∧
    (pf wFleletSlices_28.params 0 2 = ↑(5 : SliceId)) ∧
    (wFleletSlices_27.body.isSplit = false) ∧
    ((wFleletSlices_27.heard c1 wFleletSlices_28).body.tooSoon (5 : SliceId) = true) :=
  ⟨⟨dec, dec, dec, dec, dec, ⟨_, rfl, dec, dec, dec⟩, dec, dec, dec⟩, dec⟩

def wFleletSlices_29 : Packet := (ask 7 (leBytes 2 6 ++ [2, 3] ++ leBytes 2 77 ++ leBytes 2 1 ++ leBytes 8 0x1000001 ++ leBytes 2 1 ++ leBytes 2 575 ++ [0, 15] ++ List.replicate 10 0))
theorem witness_FleletSlices_2 :
    (Asked (slc Mode.operating Role.owner sl1) cmdBindSlice c1 Role.owner (0 : HubId) wFleletSlices_29) ∧
    (pf wFleletSlices_29.params 0 2 = ↑(6 : SliceId)) ∧
    ((slc Mode.operating Role.owner sl1).body.isSplit = false) ∧
    (((slc Mode.operating Role.owner sl1).heard c1 wFleletSlices_29).body.tooSoon (6 : SliceId) = false) ∧
    ((((slc Mode.operating Role.owner sl1).heard c1 wFleletSlices_29).body.slice (6 : SliceId)).st = SliceSt.free) ∧
    (1 ≤ pf wFleletSlices_29.params 2 1) ∧
    (pf wFleletSlices_29.params 2 1 ≤ 4) ∧
    (1 ≤ pf wFleletSlices_29.params 6 2) ∧
    (rootOk (pf wFleletSlices_29.params 8 8) = true) ∧
    (1 ≤ pf wFleletSlices_29.params 16 2) ∧
    (pf wFleletSlices_29.params 18 2 < 576) ∧
    (pf wFleletSlices_29.params 20 1 ≤ 3) ∧
    (pf wFleletSlices_29.params 20 1 = 3 → pf wFleletSlices_29.params 3 1 = 0) ∧
    (engMaskOk (pf wFleletSlices_29.params 2 1) (pf wFleletSlices_29.params 21 1) = true) ∧
    (zeroBytes wFleletSlices_29.params 22 10) :=
  ⟨⟨dec, dec, dec, dec, dec, ⟨_, rfl, dec, dec, dec⟩, dec, dec, dec⟩, dec⟩

def wFleletSlices_30 : Packet := (ask 7 ([5, 0, 0, 0]))
def wFleletSlices_31 : Body := (issued (slc .operating .owner (sl1)) c1 .owner 0x0702 (ask 7 ([5, 0, 0, 0])))
theorem witness_FleletSlices_3 :
    (Asked (slc Mode.operating Role.owner sl1) cmdUnbindSlice c1 Role.owner (0 : HubId) wFleletSlices_30) ∧
    (((slc Mode.operating Role.owner sl1).heard c1 wFleletSlices_30).body.issueTicket (0 : HubId) Role.owner cmdUnbindSlice.op
    (replyHeader ((slc Mode.operating Role.owner sl1).heard c1 wFleletSlices_30).body (0 : HubId) cmdUnbindSlice.op (1 : Byte) (0 : Byte) wFleletSlices_30.sequence
      wFleletSlices_30.session 0 (((slc Mode.operating Role.owner sl1).heard c1 wFleletSlices_30).body.nextTicket (0 : HubId))) =
  some wFleletSlices_31) ∧
    (pf wFleletSlices_30.params 0 2 = ↑(5 : SliceId)) ∧
    ((slc Mode.operating Role.owner sl1).body.isSplit = false) ∧
    (((slc Mode.operating Role.owner sl1).heard c1 wFleletSlices_30).body.tooSoon (5 : SliceId) = false) ∧
    ((((slc Mode.operating Role.owner sl1).heard c1 wFleletSlices_30).body.slice (5 : SliceId)).st ≠ SliceSt.free) ∧
    (zeroBytes wFleletSlices_30.params 2 2) :=
  ⟨⟨dec, dec, dec, dec, dec, ⟨_, rfl, dec, dec, dec⟩, dec, dec, dec⟩, rfl, dec⟩

def wFleletSlices_32 : Body := (issued (slc .operating .owner (sl1)) c1 .owner 0x0703 (ask 7 ([5, 0, 0, 0])))
theorem witness_FleletSlices_4 :
    (Asked (slc Mode.operating Role.owner sl1) cmdResetSlice c1 Role.owner (0 : HubId) wFleletSlices_30) ∧
    (((slc Mode.operating Role.owner sl1).heard c1 wFleletSlices_30).body.issueTicket (0 : HubId) Role.owner cmdResetSlice.op
    (replyHeader ((slc Mode.operating Role.owner sl1).heard c1 wFleletSlices_30).body (0 : HubId) cmdResetSlice.op (1 : Byte) (0 : Byte) wFleletSlices_30.sequence
      wFleletSlices_30.session 0 (((slc Mode.operating Role.owner sl1).heard c1 wFleletSlices_30).body.nextTicket (0 : HubId))) =
  some wFleletSlices_32) ∧
    (pf wFleletSlices_30.params 0 2 = ↑(5 : SliceId)) ∧
    ((slc Mode.operating Role.owner sl1).body.isSplit = false) ∧
    (((slc Mode.operating Role.owner sl1).heard c1 wFleletSlices_30).body.tooSoon (5 : SliceId) = false) ∧
    ((((slc Mode.operating Role.owner sl1).heard c1 wFleletSlices_30).body.slice (5 : SliceId)).st = SliceSt.bound) ∧
    (zeroBytes wFleletSlices_30.params 2 2) :=
  ⟨⟨dec, dec, dec, dec, dec, ⟨_, rfl, dec, dec, dec⟩, dec, dec, dec⟩, rfl, dec⟩

def wFleletSlices_33 : State := (slc .operating .owner ({ sl1 with st := .draining true }))
theorem witness_FleletSlices_5 :
    (Asked wFleletSlices_33 cmdResetSlice c1 Role.owner (0 : HubId) wFleletSlices_30) ∧
    (pf wFleletSlices_30.params 0 2 = ↑(5 : SliceId)) ∧
    (wFleletSlices_33.body.isSplit = false) ∧
    ((wFleletSlices_33.heard c1 wFleletSlices_30).body.tooSoon (5 : SliceId) = false) ∧
    (((wFleletSlices_33.heard c1 wFleletSlices_30).body.slice (5 : SliceId)).st = SliceSt.draining true) ∧
    (zeroBytes wFleletSlices_30.params 2 2) :=
  ⟨⟨dec, dec, dec, dec, dec, ⟨_, rfl, dec, dec, dec⟩, dec, dec, dec⟩, dec⟩

def wFleletSlices_34 : Packet := (ask 7 ([5, 0, 1, 0, 1, 0, 0, 0]))
theorem witness_FleletSlices_6 :
    (Asked (slc Mode.operating Role.owner sl1) cmdSetShare c1 Role.owner (0 : HubId) wFleletSlices_34) ∧
    (pf wFleletSlices_34.params 0 2 = ↑(5 : SliceId)) ∧
    ((slc Mode.operating Role.owner sl1).body.isSplit = false) ∧
    ((((slc Mode.operating Role.owner sl1).heard c1 wFleletSlices_34).body.slice (5 : SliceId)).st ≠ SliceSt.free) ∧
    (1 ≤ pf wFleletSlices_34.params 2 2) ∧
    (1 ≤ pf wFleletSlices_34.params 4 2) ∧
    (zeroBytes wFleletSlices_34.params 6 2) :=
  ⟨⟨dec, dec, dec, dec, dec, ⟨_, rfl, dec, dec, dec⟩, dec, dec, dec⟩, dec⟩

def wFleletSlices_35 : Packet := (ask 7 ([5, 0, 63, 2, 3, 0, 0, 0]))
theorem witness_FleletSlices_7 :
    (Asked (slc Mode.operating Role.owner sl1) cmdSetRoute c1 Role.owner (0 : HubId) wFleletSlices_35) ∧
    (pf wFleletSlices_35.params 0 2 = ↑(5 : SliceId)) ∧
    ((slc Mode.operating Role.owner sl1).body.isSplit = false) ∧
    ((((slc Mode.operating Role.owner sl1).heard c1 wFleletSlices_35).body.slice (5 : SliceId)).st ≠ SliceSt.free) ∧
    (pf wFleletSlices_35.params 2 2 < 576) ∧
    (pf wFleletSlices_35.params 4 1 ≤ 3) ∧
    (pf wFleletSlices_35.params 4 1 = 3 → (((slc Mode.operating Role.owner sl1).heard c1 wFleletSlices_35).body.slice (5 : SliceId)).part = (0 : Byte)) ∧
    (zeroBytes wFleletSlices_35.params 5 3) :=
  ⟨⟨dec, dec, dec, dec, dec, ⟨_, rfl, dec, dec, dec⟩, dec, dec, dec⟩, dec⟩

def wFleletSlices_36 : Packet := (ask 0 ([3, 1, 63, 2]))
theorem witness_FleletSlices_8 :
    (Asked (slc Mode.operating Role.mailbox sl1) cmdSetWake mb Role.mailbox (0 : HubId) wFleletSlices_36) ∧
    ((slc Mode.operating Role.mailbox sl1).body.isSplit = false) ∧
    (((slc Mode.operating Role.mailbox sl1).heard mb wFleletSlices_36).body.partExists (pf wFleletSlices_36.params 0 1) = true) ∧
    (pf wFleletSlices_36.params 1 1 ≤ 1) ∧
    (pf wFleletSlices_36.params 2 2 < 576) :=
  ⟨⟨dec, dec, dec, dec, dec, ⟨rfl, rfl⟩, dec, dec, dec⟩, dec⟩

def wFleletSlices_37 : Packet := (ask 0 ([3, 0] ++ leBytes 2 7 ++ leBytes 2 1000 ++ leBytes 2 0 ++ leBytes 2 3600 ++ List.replicate 6 0 ++ leBytes 8 0x1000001 ++ leBytes 8 8))
theorem witness_FleletSlices_9 :
    (Asked (slc Mode.operating Role.mailbox sl1) cmdSetPartition mb Role.mailbox (0 : HubId) wFleletSlices_37) ∧
    (zeroBytes wFleletSlices_37.params 1 1) ∧
    (pf wFleletSlices_37.params 4 2 ≤ 1000) ∧
    (pf wFleletSlices_37.params 6 2 ≤ 3600) ∧
    (pf wFleletSlices_37.params 8 2 ≤ 3600) ∧
    (zeroBytes wFleletSlices_37.params 10 6) ∧
    (rootOk (pf wFleletSlices_37.params 16 8) = true) ∧
    (pf wFleletSlices_37.params 0 1 = 0 → pf wFleletSlices_37.params 16 8 = 0) :=
  ⟨⟨dec, dec, dec, dec, dec, ⟨rfl, rfl⟩, dec, dec, dec⟩, dec⟩

def wFleletSlices_38 : Packet := (ask 0 ([3, 2, 0, 0] ++ List.replicate 12 0))
theorem witness_FleletSlices_10 :
    (Asked (slc Mode.operating Role.mailbox sl1) cmdSetPlacement mb Role.mailbox (0 : HubId) wFleletSlices_38) ∧
    (1 ≤ pf wFleletSlices_38.params 0 1) ∧
    (((slc Mode.operating Role.mailbox sl1).heard mb wFleletSlices_38).body.partExists (pf wFleletSlices_38.params 0 1) = true) ∧
    (zeroBytes wFleletSlices_38.params 2 2) ∧
    (zeroBytes wFleletSlices_38.params 8 8) ∧
    ((((slc Mode.operating Role.mailbox sl1).heard mb wFleletSlices_38).body.part (BitVec.ofNat 8 (pf wFleletSlices_38.params 0 1))).copying = none) ∧
    (pf wFleletSlices_38.params 1 1 ≤ 2) ∧
    (pf wFleletSlices_38.params 4 2 = 0) ∧
    (pf wFleletSlices_38.params 6 2 = 0) :=
  ⟨⟨dec, dec, dec, dec, dec, ⟨rfl, rfl⟩, dec, dec, dec⟩, dec⟩

def wFleletSlices_39 : Packet := (ask 0 ([3, 3, 0, 0] ++ leBytes 2 100 ++ leBytes 2 44 ++ List.replicate 8 0))
def wFleletSlices_40 : Body := (issued (slc .operating .mailbox (sl1)) mb .mailbox 0x0209 (ask 0 ([3, 3, 0, 0] ++ leBytes 2 100 ++ leBytes 2 44 ++ List.replicate 8 0)))
theorem witness_FleletSlices_11 :
    (Asked (slc Mode.operating Role.mailbox sl1) cmdSetPlacement mb Role.mailbox (0 : HubId) wFleletSlices_39) ∧
    (((slc Mode.operating Role.mailbox sl1).heard mb wFleletSlices_39).body.issueTicket (0 : HubId) Role.mailbox cmdSetPlacement.op
    (replyHeader ((slc Mode.operating Role.mailbox sl1).heard mb wFleletSlices_39).body (0 : HubId) cmdSetPlacement.op (1 : Byte) (0 : Byte) wFleletSlices_39.sequence
      wFleletSlices_39.session 0 (((slc Mode.operating Role.mailbox sl1).heard mb wFleletSlices_39).body.nextTicket (0 : HubId))) =
  some wFleletSlices_40) ∧
    (1 ≤ pf wFleletSlices_39.params 0 1) ∧
    (((slc Mode.operating Role.mailbox sl1).heard mb wFleletSlices_39).body.partExists (pf wFleletSlices_39.params 0 1) = true) ∧
    (zeroBytes wFleletSlices_39.params 2 2) ∧
    (zeroBytes wFleletSlices_39.params 8 8) ∧
    ((((slc Mode.operating Role.mailbox sl1).heard mb wFleletSlices_39).body.part (BitVec.ofNat 8 (pf wFleletSlices_39.params 0 1))).copying = none) ∧
    (pf wFleletSlices_39.params 1 1 = 3) ∧
    (1 ≤ pf wFleletSlices_39.params 6 2) ∧
    (pf wFleletSlices_39.params 4 2 + pf wFleletSlices_39.params 6 2 ≤ 144) ∧
    (∀ e ∈ ((slc Mode.operating Role.mailbox sl1).heard mb wFleletSlices_39).body.io.parts,
  e.1 ≠ pf wFleletSlices_39.params 0 1 → e.2.place ≠ (3 : Byte) ∧ e.2.copying = none) :=
  ⟨⟨dec, dec, dec, dec, dec, ⟨rfl, rfl⟩, dec, dec, dec⟩, rfl, dec⟩

def wFleletSlices_41 : Packet := (ask 7 (leBytes 2 5 ++ List.replicate 6 0 ++ leBytes 2 3 ++ [1, 1] ++ leBytes 4 4096 ++ pth ++ List.replicate 112 0))
theorem witness_FleletSlices_12 :
    (Asked (subS Role.owner sub1) cmdSetSubchannel c1 Role.owner (0 : HubId) wFleletSlices_41) ∧
    (if pf wFleletSlices_41.params 10 1 = 1 then
  pf wFleletSlices_41.params 12 4 = 512 ∨ pf wFleletSlices_41.params 12 4 = 4096
else pf wFleletSlices_41.params 12 4 = 0) ∧
    (pf wFleletSlices_41.params 0 2 = ↑(5 : SliceId)) ∧
    ((subS Role.owner sub1).body.isSplit = false) ∧
    ((((subS Role.owner sub1).heard c1 wFleletSlices_41).body.slice (5 : SliceId)).st ≠ SliceSt.free) ∧
    ((((subS Role.owner sub1).heard c1 wFleletSlices_41).body.slice (5 : SliceId)).kind = (1 : Byte)) ∧
    (zeroBytes wFleletSlices_41.params 2 6) ∧
    (pf wFleletSlices_41.params 8 2 ≤ 4095) ∧
    (pf wFleletSlices_41.params 10 1 = 1 ∨ pf wFleletSlices_41.params 10 1 = 2) ∧
    (1 ≤ pf wFleletSlices_41.params 11 1) ∧
    (pf wFleletSlices_41.params 11 1 ≤ 8) ∧
    (∀ i < pf wFleletSlices_41.params 11 1,
  ∀
    e ∈
      ((subS Role.owner sub1).heard c1 wFleletSlices_41).body.pathChecks wFleletSlices_41.params (pf wFleletSlices_41.params 10 1) (16 + 16 * i),
    e.2 = true) ∧
    (zeroBytes wFleletSlices_41.params (16 + 16 * pf wFleletSlices_41.params 11 1) (128 - 16 * pf wFleletSlices_41.params 11 1)) ∧
    (((subS Role.owner sub1).heard c1 wFleletSlices_41).body.subch (subchKey (↑(5 : SliceId)) (pf wFleletSlices_41.params 8 2)) = none) ∧
    (List.length ((subS Role.owner sub1).heard c1 wFleletSlices_41).body.io.subchs < 65536) :=
  ⟨⟨dec, dec, dec, dec, dec, ⟨_, rfl, dec, dec, dec⟩, dec, dec, dec⟩, dec, dec⟩

def wFleletSlices_42 : State := (subS .owner { sub1 with busy := true })
def wFleletSlices_43 : Packet := (ask 7 (leBytes 2 5 ++ List.replicate 6 0 ++ leBytes 2 2 ++ [1, 1] ++ leBytes 4 4096 ++ pth ++ List.replicate 112 0))
def wFleletSlices_44 : Subch := ({ sub1 with busy := true })
theorem witness_FleletSlices_13 :
    (Asked wFleletSlices_42 cmdSetSubchannel c1 Role.owner (0 : HubId) wFleletSlices_43) ∧
    (if pf wFleletSlices_43.params 10 1 = 1 then
  pf wFleletSlices_43.params 12 4 = 512 ∨ pf wFleletSlices_43.params 12 4 = 4096
else pf wFleletSlices_43.params 12 4 = 0) ∧
    (pf wFleletSlices_43.params 0 2 = ↑(5 : SliceId)) ∧
    (wFleletSlices_42.body.isSplit = false) ∧
    (((wFleletSlices_42.heard c1 wFleletSlices_43).body.slice (5 : SliceId)).st ≠ SliceSt.free) ∧
    (((wFleletSlices_42.heard c1 wFleletSlices_43).body.slice (5 : SliceId)).kind = (1 : Byte)) ∧
    (zeroBytes wFleletSlices_43.params 2 6) ∧
    (pf wFleletSlices_43.params 8 2 ≤ 4095) ∧
    (pf wFleletSlices_43.params 10 1 = 1 ∨ pf wFleletSlices_43.params 10 1 = 2) ∧
    (1 ≤ pf wFleletSlices_43.params 11 1) ∧
    (pf wFleletSlices_43.params 11 1 ≤ 8) ∧
    (∀ i < pf wFleletSlices_43.params 11 1,
  ∀ e ∈ (wFleletSlices_42.heard c1 wFleletSlices_43).body.pathChecks wFleletSlices_43.params (pf wFleletSlices_43.params 10 1) (16 + 16 * i),
    e.2 = true) ∧
    (zeroBytes wFleletSlices_43.params (16 + 16 * pf wFleletSlices_43.params 11 1) (128 - 16 * pf wFleletSlices_43.params 11 1)) ∧
    ((wFleletSlices_42.heard c1 wFleletSlices_43).body.subch (subchKey (↑(5 : SliceId)) (pf wFleletSlices_43.params 8 2)) = some wFleletSlices_44) ∧
    (wFleletSlices_44.busy = true) :=
  ⟨⟨dec, dec, dec, dec, dec, ⟨_, rfl, dec, dec, dec⟩, dec, dec, dec⟩, dec, dec⟩

theorem witness_FleletSlices_14 :
    (Asked (subS Role.owner sub1) cmdSetSubchannel c1 Role.owner (0 : HubId) wFleletSlices_43) ∧
    (if pf wFleletSlices_43.params 10 1 = 1 then
  pf wFleletSlices_43.params 12 4 = 512 ∨ pf wFleletSlices_43.params 12 4 = 4096
else pf wFleletSlices_43.params 12 4 = 0) ∧
    (pf wFleletSlices_43.params 0 2 = ↑(5 : SliceId)) ∧
    ((subS Role.owner sub1).body.isSplit = false) ∧
    ((((subS Role.owner sub1).heard c1 wFleletSlices_43).body.slice (5 : SliceId)).st ≠ SliceSt.free) ∧
    ((((subS Role.owner sub1).heard c1 wFleletSlices_43).body.slice (5 : SliceId)).kind = (1 : Byte)) ∧
    (zeroBytes wFleletSlices_43.params 2 6) ∧
    (pf wFleletSlices_43.params 8 2 ≤ 4095) ∧
    (pf wFleletSlices_43.params 10 1 = 1 ∨ pf wFleletSlices_43.params 10 1 = 2) ∧
    (1 ≤ pf wFleletSlices_43.params 11 1) ∧
    (pf wFleletSlices_43.params 11 1 ≤ 8) ∧
    (∀ i < pf wFleletSlices_43.params 11 1,
  ∀
    e ∈
      ((subS Role.owner sub1).heard c1 wFleletSlices_43).body.pathChecks wFleletSlices_43.params (pf wFleletSlices_43.params 10 1) (16 + 16 * i),
    e.2 = true) ∧
    (zeroBytes wFleletSlices_43.params (16 + 16 * pf wFleletSlices_43.params 11 1) (128 - 16 * pf wFleletSlices_43.params 11 1)) ∧
    (((subS Role.owner sub1).heard c1 wFleletSlices_43).body.subch (subchKey (↑(5 : SliceId)) (pf wFleletSlices_43.params 8 2)) = some sub1) ∧
    (sub1.busy = false) :=
  ⟨⟨dec, dec, dec, dec, dec, ⟨_, rfl, dec, dec, dec⟩, dec, dec, dec⟩, dec, dec⟩

def wFleletSlices_45 : Packet := (ask 7 ([5, 0, 2, 0]))
theorem witness_FleletSlices_15 :
    (Asked (subS Role.owner sub1) cmdRemoveSubchannel c1 Role.owner (0 : HubId) wFleletSlices_45) ∧
    (pf wFleletSlices_45.params 0 2 = ↑(5 : SliceId)) ∧
    ((subS Role.owner sub1).body.isSplit = false) ∧
    (pf wFleletSlices_45.params 2 2 ≤ 4095) ∧
    (((subS Role.owner sub1).heard c1 wFleletSlices_45).body.subch (subchKey (↑(5 : SliceId)) (pf wFleletSlices_45.params 2 2)) = some sub1) ∧
    (sub1.busy = false) :=
  ⟨⟨dec, dec, dec, dec, dec, ⟨_, rfl, dec, dec, dec⟩, dec, dec, dec⟩, dec⟩

theorem witness_FleletSlices_16 :
    (Asked wFleletSlices_42 cmdRemoveSubchannel c1 Role.owner (0 : HubId) wFleletSlices_45) ∧
    (pf wFleletSlices_45.params 0 2 = ↑(5 : SliceId)) ∧
    (wFleletSlices_42.body.isSplit = false) ∧
    (pf wFleletSlices_45.params 2 2 ≤ 4095) ∧
    ((wFleletSlices_42.heard c1 wFleletSlices_45).body.subch (subchKey (↑(5 : SliceId)) (pf wFleletSlices_45.params 2 2)) = some wFleletSlices_44) ∧
    (wFleletSlices_44.busy = true) :=
  ⟨⟨dec, dec, dec, dec, dec, ⟨_, rfl, dec, dec, dec⟩, dec, dec, dec⟩, dec⟩

def wFleletSlices_46 : Packet := (ask 7 ([5, 0, 2, 0, 1, 1]))
theorem witness_FleletSlices_17 :
    (Asked (subS Role.owner sub1) cmdSetPathState c1 Role.owner (0 : HubId) wFleletSlices_46) ∧
    (pf wFleletSlices_46.params 0 2 = ↑(5 : SliceId)) ∧
    ((subS Role.owner sub1).body.isSplit = false) ∧
    (pf wFleletSlices_46.params 2 2 ≤ 4095) ∧
    (((subS Role.owner sub1).heard c1 wFleletSlices_46).body.subch (subchKey (↑(5 : SliceId)) (pf wFleletSlices_46.params 2 2)) = some sub1) ∧
    (pf wFleletSlices_46.params 4 1 < sub1.paths.length) ∧
    (pf wFleletSlices_46.params 5 1 ≤ 1) :=
  ⟨⟨dec, dec, dec, dec, dec, ⟨_, rfl, dec, dec, dec⟩, dec, dec, dec⟩, dec⟩

def wFleletSlices_47 : Packet := (ask 7 (leBytes 2 1 ++ [4, 0] ++ List.replicate 12 0 ++ List.replicate 8 5 ++ [0, 0] ++ List.replicate 6 0 ++ List.replicate 240 4))
theorem witness_FleletSlices_18 :
    (Asked (subS Role.owner sub1) cmdSetTarget c1 Role.owner (0 : HubId) wFleletSlices_47) ∧
    (if pf wFleletSlices_47.params 2 1 = 1 then zeroBytes wFleletSlices_47.params 6 2 else zeroBytes wFleletSlices_47.params 4 4) ∧
    (1 ≤ pf wFleletSlices_47.params 0 2) ∧
    (pf wFleletSlices_47.params 0 2 ≤ 4095) ∧
    (pf wFleletSlices_47.params 2 1 ≤ 4) ∧
    (zeroBytes wFleletSlices_47.params 3 1) ∧
    (pf wFleletSlices_47.params 2 1 ≤ 1 → zeroBytes wFleletSlices_47.params 8 16) ∧
    (pf wFleletSlices_47.params 2 1 = 4 → zeroBytes wFleletSlices_47.params 8 8) ∧
    (pf wFleletSlices_47.params 2 1 ≠ 3 → zeroBytes wFleletSlices_47.params 24 2) ∧
    (zeroBytes wFleletSlices_47.params 26 6) ∧
    (∀ e ∈ ((subS Role.owner sub1).heard c1 wFleletSlices_47).body.io.subchs, ∀ x ∈ e.2.paths, x.target.toNat ≠ pf wFleletSlices_47.params 0 2) :=
  ⟨⟨dec, dec, dec, dec, dec, ⟨_, rfl, dec, dec, dec⟩, dec, dec, dec⟩, dec, dec⟩

def wFleletSlices_48 : Packet := (ask 0 ([3, 0] ++ leBytes 2 4095 ++ leBytes 2 5 ++ [7, 0] ++ [1, 2, 3, 4, 5, 6] ++ leBytes 2 0x3064 ++ List.replicate 32 8))
theorem witness_FleletSlices_19 :
    (Asked (nas Role.mailbox) cmdSetNetaddr mb Role.mailbox (0 : HubId) wFleletSlices_48) ∧
    (((nas Role.mailbox).heard mb wFleletSlices_48).body.partExists (pf wFleletSlices_48.params 0 1) = true) ∧
    (pf wFleletSlices_48.params 2 2 ≤ 4095) ∧
    (((nas Role.mailbox).heard mb wFleletSlices_48).body.netaddrUsed (pf wFleletSlices_48.params 0 1) (pf wFleletSlices_48.params 2 2) = false) ∧
    (pf wFleletSlices_48.params 1 1 = 0 ∨ pf wFleletSlices_48.params 1 1 = 2) :=
  ⟨⟨dec, dec, dec, dec, dec, ⟨rfl, rfl⟩, dec, dec, dec⟩, dec⟩

def wFleletSlices_49 : Packet := (ask 0 ([3, 3] ++ leBytes 2 4095 ++ leBytes 2 5 ++ [7, 48] ++ [1, 2, 3, 4, 5, 6] ++ leBytes 2 0x3064 ++ List.replicate 32 8))
theorem witness_FleletSlices_20 :
    (Asked (nas Role.mailbox) cmdSetNetaddr mb Role.mailbox (0 : HubId) wFleletSlices_49) ∧
    (if pf wFleletSlices_49.params 1 1 = 3 then
  ((nas Role.mailbox).heard mb wFleletSlices_49).body.etherPort (wFleletSlices_49.params.getD 7 (0 : Byte))
      (otherHub
        (((nas Role.mailbox).heard mb wFleletSlices_49).body.servingHub (5 : SliceId) (((nas Role.mailbox).heard mb wFleletSlices_49).body.slice (5 : SliceId)).part)) =
    true
else wFleletSlices_49.params.getD 7 (0 : Byte) = (0 : Byte)) ∧
    (((nas Role.mailbox).heard mb wFleletSlices_49).body.partExists (pf wFleletSlices_49.params 0 1) = true) ∧
    (pf wFleletSlices_49.params 2 2 ≤ 4095) ∧
    (((nas Role.mailbox).heard mb wFleletSlices_49).body.netaddrUsed (pf wFleletSlices_49.params 0 1) (pf wFleletSlices_49.params 2 2) = false) ∧
    ((nas Role.mailbox).body.isSplit = false) ∧
    (pf wFleletSlices_49.params 1 1 = 1 ∨ pf wFleletSlices_49.params 1 1 = 3) ∧
    (pf wFleletSlices_49.params 4 2 = ↑(5 : SliceId)) ∧
    ((((nas Role.mailbox).heard mb wFleletSlices_49).body.slice (5 : SliceId)).st ≠ SliceSt.free) ∧
    ((((nas Role.mailbox).heard mb wFleletSlices_49).body.slice (5 : SliceId)).kind = (4 : Byte)) ∧
    (((nas Role.mailbox).heard mb wFleletSlices_49).body.etherPort (wFleletSlices_49.params.getD 6 (0 : Byte))
    (((nas Role.mailbox).heard mb wFleletSlices_49).body.servingHub (5 : SliceId) (((nas Role.mailbox).heard mb wFleletSlices_49).body.slice (5 : SliceId)).part) =
  true) ∧
    (pf wFleletSlices_49.params 15 1 < 128) :=
  ⟨⟨dec, dec, dec, dec, dec, ⟨rfl, rfl⟩, dec, dec, dec⟩, dec, dec⟩

def wFleletSlices_50 : State := (tpS [] false)
def wFleletSlices_51 : Packet := (ask 0 ([63, 0] ++ leBytes 2 5 ++ leBytes 2 2 ++ leBytes 2 32 ++ leBytes 8 0x200000 ++ leBytes 4 2 ++ List.replicate 12 0))
theorem witness_FleletSlices_21 :
    (Asked wFleletSlices_50 cmdDeclareStream mb Role.mailbox (0 : HubId) wFleletSlices_51) ∧
    (∀ (a : Nat),
  pf wFleletSlices_51.params 8 8 ≤ a →
    a < pf wFleletSlices_51.params 8 8 + pf wFleletSlices_51.params 16 4 * 1048576 →
      (wFleletSlices_50.heard mb wFleletSlices_51).body.classOf a = PClass.memory) ∧
    (pf wFleletSlices_51.params 0 1 ≤ 63) ∧
    (tGet (wFleletSlices_50.heard mb wFleletSlices_51).body.io.streams (pf wFleletSlices_51.params 0 1) = none) ∧
    (zeroBytes wFleletSlices_51.params 1 1) ∧
    (pf wFleletSlices_51.params 2 2 = ↑(5 : SliceId)) ∧
    ((wFleletSlices_50.heard mb wFleletSlices_51).body.channelSlice (0 : HubId) (List.drop 2 wFleletSlices_51.params) = true) ∧
    (pf wFleletSlices_51.params 4 2 ≤ 4095) ∧
    ((wFleletSlices_50.heard mb wFleletSlices_51).body.subch (subchKey (↑(5 : SliceId)) (pf wFleletSlices_51.params 4 2)) = some subT) ∧
    (subT.kind = (2 : Byte)) ∧
    (subT.busy = false) ∧
    ((wFleletSlices_50.heard mb wFleletSlices_51).body.hasStream (subchKey (↑(5 : SliceId)) (pf wFleletSlices_51.params 4 2)) = false) ∧
    (1 ≤ pf wFleletSlices_51.params 6 2) ∧
    (pf wFleletSlices_51.params 6 2 ≤ 2000) ∧
    (pf wFleletSlices_51.params 8 8 % 2097152 = 0) ∧
    (pf wFleletSlices_51.params 16 4 % 2 = 0) ∧
    (2 ≤ pf wFleletSlices_51.params 16 4) ∧
    (pf wFleletSlices_51.params 16 4 ≤ 256) ∧
    (pf wFleletSlices_51.params 6 2 * 8000 ≤ pf wFleletSlices_51.params 16 4 * 1048576) ∧
    (zeroBytes wFleletSlices_51.params 20 12) :=
  ⟨⟨dec, dec, dec, dec, dec, ⟨rfl, rfl⟩, dec, dec, dec⟩, class_low dec, dec⟩

def wFleletSlices_52 : State := (tpS [] true)
def wFleletSlices_53 : Packet := (ask 0 ([63, 0, 0, 0]))
def wFleletSlices_54 : Machine.Stream := (strm [])
theorem witness_FleletSlices_22 :
    (Asked wFleletSlices_52 cmdRemoveStream mb Role.mailbox (0 : HubId) wFleletSlices_53) ∧
    (tGet (wFleletSlices_52.heard mb wFleletSlices_53).body.io.streams (pf wFleletSlices_53.params 0 1) = some wFleletSlices_54) ∧
    (zeroBytes wFleletSlices_53.params 1 3) ∧
    (∀ (c : Subch), (wFleletSlices_52.heard mb wFleletSlices_53).body.subch (subchKey (↑wFleletSlices_54.slice) wFleletSlices_54.image.toNat) = some c → c.busy = false) ∧
    (wFleletSlices_54.blocks = []) :=
  ⟨⟨dec, dec, dec, dec, dec, ⟨rfl, rfl⟩, dec, dec, dec⟩, dec⟩

def wFleletSlices_55 : State := (tpS [(1, [])] true)
def wFleletSlices_56 : Machine.Stream := (strm [(1, [])])
theorem witness_FleletSlices_23 :
    (Asked wFleletSlices_55 cmdRemoveStream mb Role.mailbox (0 : HubId) wFleletSlices_53) ∧
    (tGet (wFleletSlices_55.heard mb wFleletSlices_53).body.io.streams (pf wFleletSlices_53.params 0 1) = some wFleletSlices_56) ∧
    (zeroBytes wFleletSlices_53.params 1 3) ∧
    (∀ (c : Subch), (wFleletSlices_55.heard mb wFleletSlices_53).body.subch (subchKey (↑wFleletSlices_56.slice) wFleletSlices_56.image.toNat) = some c → c.busy = false) ∧
    (wFleletSlices_56.blocks ≠ []) :=
  ⟨⟨dec, dec, dec, dec, dec, ⟨rfl, rfl⟩, dec, dec, dec⟩, dec⟩

def wFleletSlices_57 : State := (orp 3)
def wFleletSlices_58 : Packet := (ask 0 ([0, 2, 0, 0]))
theorem witness_FleletSlices_24 :
    (Asked wFleletSlices_57 cmdReadOrphans mb Role.mailbox (0 : HubId) wFleletSlices_58) ∧
    (wFleletSlices_57.body.isSplit = false) ∧
    (pf wFleletSlices_58.params 0 1 = ↑(0 : HubId)) ∧
    (1 ≤ pf wFleletSlices_58.params 1 1) ∧
    (zeroBytes wFleletSlices_58.params 2 2) :=
  ⟨⟨dec, dec, dec, dec, dec, ⟨rfl, rfl⟩, dec, dec, dec⟩, dec⟩

theorem witness_FleletSlices_25 :
    (((slc Mode.operating Role.owner sl1).body.slice (5 : SliceId)).lastAdv = none ∨ (slc Mode.operating Role.owner sl1).body.ctl.genWait = []) :=
  dec

def wFleletSlices_59 : State := (modC (slc .operating .owner { sl1 with lastAdv := some 0 }) fun c => { c with genWait := [{ src := c1, opcode := 0x0702, packet := ask 7 [5, 0, 0, 0] }] })
theorem witness_FleletSlices_26 :
    ((wFleletSlices_59.body.slice (5 : SliceId)).lastAdv = some 0) ∧
    (wFleletSlices_59.body.ctl.genWait ≠ []) ∧
    (0 + 20000 < 2 ^ 64) :=
  dec

theorem witness_FleletSlices_27 :
    ((slc Mode.operating Role.owner sl1).body.serving = false ∨
  ((slc Mode.operating Role.owner sl1).body.slice (5 : SliceId)).st = SliceSt.free ∨
    ((slc Mode.operating Role.owner sl1).body.slice (5 : SliceId)).st = SliceSt.bound ∨ ∃ j ∈ (slc Mode.operating Role.owner sl1).body.io.jobs, j.slice = (5 : SliceId)) :=
  .inr (.inr (.inl dec))

def wFleletSlices_60 : State := (slc .operating .owner ({ sl1 with st := .draining true, drainTickets := [4] }))
theorem witness_FleletSlices_28 :
    (wFleletSlices_60.body.serving = true) ∧
    (∀ j ∈ wFleletSlices_60.body.io.jobs, j.slice ≠ (5 : SliceId)) ∧
    ((wFleletSlices_60.body.slice (5 : SliceId)).st = SliceSt.draining true) :=
  dec

def wFleletSlices_61 : State := (slc .operating .owner ({ sl1 with st := .draining false, drainTickets := [4] }))
theorem witness_FleletSlices_29 :
    (wFleletSlices_61.body.serving = true) ∧
    (∀ j ∈ wFleletSlices_61.body.io.jobs, j.slice ≠ (5 : SliceId)) ∧
    ((wFleletSlices_61.body.slice (5 : SliceId)).st = SliceSt.draining false) ∧
    ((wFleletSlices_61.body.slice (5 : SliceId)).sq.en = false) ∧
    ((wFleletSlices_61.body.slice (5 : SliceId)).waiting = []) ∧
    ((wFleletSlices_61.body.slice (5 : SliceId)).reserved = []) :=
  dec
end G17

namespace G18
/-- Both islands, both feeds, cores in service with a spare in each half. -/
def full (u : Strand) : State := let s := running u
  { s with body := s.body.modCtl fun c => { c with
      islands := Vector.replicate 2 { powered := true }
      feeds := Vector.replicate 2 { present := true, closed := true, admitted := true }
      domains := Vector.replicate 232 { on := true }
      cores := ((Vector.replicate 144 { role := .assignable }).set 3 { role := .spare }).set 143 { role := .spare } } }
def modC (s : State) (f : Ctl → Ctl) : State := { s with body := s.body.modCtl f }
/-- A module in mode `m` with one connection, on which a session of `role` is open. -/
def fl (m : Mode) (role : Role) : State := modC (full atK) fun c => { c with
  mode := m
  conns := [(1, { port := 0, cert := .session, session := some (7, role), maxSeq := 3, replies := [(3, [1, 2, 3, 4])], lastPacket := 0 })] }
/-- A request with parameters `ps`, of session `k`. -/
def ask (k : BitVec 32) (ps : List Byte) : Packet :=
  { magic := 0x464C, version := 1, flags := 0, status := 0, detail := 0, sequence := 9, session := k, plen := BitVec.ofNat 32 ps.length, ticket := 0, mode := 0, half := 0, island := 0, reserved := 0, params := ps }

def c1 : FSource := .conn 1
def mb : FSource := .mailbox 0 2
def issued (s : State) (src : FSource) (role : Role) (op : BitVec 16) (p : Packet) : Body :=
  let b := (s.heard src p).body
  (b.issueTicket 0 role op (replyHeader b 0 op 1 0 p.sequence p.session 0 (b.nextTicket 0))).getD b
def key0 (live : Bool) : KeyEntry := { seq := 2, live := live, ktype := 3, usage := 0x20, part := 0, asid := 0, material := List.replicate 64 1 }
def pois : State := let s := fl .operating .mailbox; { s with body := s.body.modMem fun m => { m with poison := [0x300000] } }
def strd (r : RunState) (t : StrandId) : State := let s := fl .operating .mailbox; { s with body := s.body.setStrand t { s.body.strand t with run := r, checkSrc := [3] } }
def keyed (r : Role) (jobs : List Job) : State := let s := fl .operating r
  { s with body := s.body.modIo fun i => { i with keys := #v[[(1, key0 true)], [(1, key0 true)]], parts := [(0, {}), (3, { domain := 3 })], slices := [(5, { st := .bound, kind := 3 })], jobs := jobs } }
def jb : Job := { slice := 5, gen := 0, sqix := 3, desc := 0x10 :: List.replicate 27 0 ++ leBytes 4 (2 * 65536 + 1) ++ List.replicate 32 0, cost := 100, st := .rerun, used := [], rerun := 0, last := none }
def anch (s : State) : State := { s with cfg := { s.cfg with anchor := some { alg := 1, session := [], viewer := [], sign := [] } } }

def wFleletUnits_0 : Packet := (ask 0 (leBytes 8 0x300000 ++ List.replicate 8 0 ++ List.replicate 128 7))
theorem witness_FleletUnits_1 :
    (Asked pois cmdClearPoison mb Role.mailbox (0 : HubId) wFleletUnits_0) ∧
    (pf wFleletUnits_0.params 0 8 % 128 = 0) ∧
    (pf wFleletUnits_0.params 0 8 < 2 ^ 52) ∧
    ((pois.heard mb wFleletUnits_0).body.poisoned (lineNo (pf wFleletUnits_0.params 0 8)) = true) ∧
    ((pois.heard mb wFleletUnits_0).body.cutOff (0 : HubId) (pf wFleletUnits_0.params 0 8) = false) ∧
    ((tGet (pois.heard mb wFleletUnits_0).body.mem.slots (pf wFleletUnits_0.params 8 1)).isSome = true) ∧
    (zeroBytes wFleletUnits_0.params 9 7) :=
  ⟨⟨dec, dec, dec, dec, dec, ⟨rfl, rfl⟩, dec, dec, dec⟩, dec⟩

def wFleletUnits_1 : State := (strd .neverStarted 7)
def wFleletUnits_2 : Packet := (ask 0 (leBytes 4 7 ++ List.replicate 4096 0))
theorem witness_FleletUnits_2 :
    (Asked wFleletUnits_1 cmdStartStrand mb Role.mailbox (0 : HubId) wFleletUnits_2) ∧
    (wFleletUnits_1.body.isSplit = false) ∧
    (pf wFleletUnits_2.params 0 2 = ↑(7 : StrandId)) ∧
    (zeroBytes wFleletUnits_2.params 2 2) ∧
    (((wFleletUnits_1.heard mb wFleletUnits_2).body.strand (7 : StrandId)).run = RunState.stopped ∨
  ((wFleletUnits_1.heard mb wFleletUnits_2).body.strand (7 : StrandId)).run = RunState.neverStarted) ∧
    ((wFleletUnits_1.heard mb wFleletUnits_2).body.ctl.cores[coreOf (7 : StrandId)].role = CoreRole.assignable) ∧
    ((wFleletUnits_1.heard mb wFleletUnits_2).body.domainOn ↑(coreOf (7 : StrandId)) = true) ∧
    (field (List.drop 4 wFleletUnits_2.params) 3136 8 / 4 % 4 ≠ 3) :=
  ⟨⟨dec, dec, dec, dec, dec, ⟨rfl, rfl⟩, dec, dec, dec⟩, dec⟩

def wFleletUnits_3 : State := (strd .stopped 7)
def wFleletUnits_4 : Packet := (ask 0 (leBytes 4 7 ++ List.replicate 3136 0 ++ 12 :: List.replicate 959 0))
theorem witness_FleletUnits_3 :
    (Asked wFleletUnits_3 cmdStartStrand mb Role.mailbox (0 : HubId) wFleletUnits_4) ∧
    (wFleletUnits_3.body.isSplit = false) ∧
    (pf wFleletUnits_4.params 0 2 = ↑(7 : StrandId)) ∧
    (zeroBytes wFleletUnits_4.params 2 2) ∧
    (((wFleletUnits_3.heard mb wFleletUnits_4).body.strand (7 : StrandId)).run = RunState.stopped ∨
  ((wFleletUnits_3.heard mb wFleletUnits_4).body.strand (7 : StrandId)).run = RunState.neverStarted) ∧
    ((wFleletUnits_3.heard mb wFleletUnits_4).body.ctl.cores[coreOf (7 : StrandId)].role = CoreRole.assignable) ∧
    ((wFleletUnits_3.heard mb wFleletUnits_4).body.domainOn ↑(coreOf (7 : StrandId)) = true) ∧
    (field (List.drop 4 wFleletUnits_4.params) 3136 8 / 4 % 4 = 3) :=
  ⟨⟨dec, dec, dec, dec, dec, ⟨rfl, rfl⟩, dec, dec, dec⟩, dec⟩

def wFleletUnits_5 : Packet := (ask 0 (leBytes 4 7))
theorem witness_FleletUnits_4 :
    (Asked wFleletUnits_3 cmdReleaseStrand mb Role.mailbox (0 : HubId) wFleletUnits_5) ∧
    (wFleletUnits_3.body.isSplit = false) ∧
    (pf wFleletUnits_5.params 0 2 = ↑(7 : StrandId)) ∧
    (zeroBytes wFleletUnits_5.params 2 2) ∧
    (((wFleletUnits_3.heard mb wFleletUnits_5).body.strand (7 : StrandId)).run = RunState.stopped ∨
  ((wFleletUnits_3.heard mb wFleletUnits_5).body.strand (7 : StrandId)).run = RunState.neverStarted) :=
  ⟨⟨dec, dec, dec, dec, dec, ⟨rfl, rfl⟩, dec, dec, dec⟩, dec⟩

def wFleletUnits_6 : State := (anch (keyed .owner []))
def wFleletUnits_7 : Packet := (ask 7 ([3, 3, 32, 1] ++ leBytes 2 7 ++ leBytes 2 64 ++ leBytes 2 96 ++ List.replicate 1758 0))
def wFleletUnits_8 : Anchor := ({ alg := 1, session := [], viewer := [], sign := [] })
theorem witness_FleletUnits_5 :
    (Asked wFleletUnits_6 cmdLoadKey c1 Role.owner (0 : HubId) wFleletUnits_7) ∧
    (wFleletUnits_6.cfg.anchor = some wFleletUnits_8) ∧
    (wFleletUnits_7.params.getD 3 (0 : Byte) = wFleletUnits_8.alg) ∧
    (pf wFleletUnits_7.params 8 2 = algSig wFleletUnits_8.alg) ∧
    ((keyUsages (wFleletUnits_7.params.getD 1 (0 : Byte))).isSome = true) ∧
    (keyKindOk (wFleletUnits_7.params.getD 1 (0 : Byte)) (wFleletUnits_7.params.getD 2 (0 : Byte)) = true) ∧
    (keyLenOk (wFleletUnits_7.params.getD 1 (0 : Byte)) (pf wFleletUnits_7.params 6 2) = true) ∧
    (zeroBytes wFleletUnits_7.params 10 2) ∧
    ((wFleletUnits_6.heard c1 wFleletUnits_7).body.partExists (pf wFleletUnits_7.params 0 1) = true) :=
  ⟨⟨dec, dec, dec, dec, dec, ⟨_, rfl, dec, dec, dec⟩, dec, dec, dec⟩, dec⟩

def wFleletUnits_9 : State := (keyed .mailbox [])
def wFleletUnits_10 : Packet := (ask 0 ([1, 1, 0, 0] ++ leBytes 4 (2 * 65536 + 1)))
theorem witness_FleletUnits_6 :
    (Asked wFleletUnits_9 cmdLoadMemkey mb Role.mailbox (0 : HubId) wFleletUnits_10) ∧
    (1 ≤ pf wFleletUnits_10.params 0 1) ∧
    (zeroBytes wFleletUnits_10.params 2 2) ∧
    (pf wFleletUnits_10.params 1 1 = 1) ∧
    ((wFleletUnits_9.heard mb wFleletUnits_10).body.keyOf (0 : HubId) (BitVec.ofNat 32 (pf wFleletUnits_10.params 4 4)) = some (key0 true)) ∧
    ((key0 true).ktype = (3 : Byte)) ∧
    (BitVec.getLsbD (key0 true).usage 5 = true) ∧
    ((key0 true).part = (0 : Byte) ∨ BitVec.toNat (key0 true).part = pf wFleletUnits_10.params 0 1) :=
  ⟨⟨dec, dec, dec, dec, dec, ⟨rfl, rfl⟩, dec, dec, dec⟩, dec⟩

def wFleletUnits_11 : Packet := (ask 0 ([255, 0, 0, 0] ++ leBytes 4 0))
theorem witness_FleletUnits_7 :
    (Asked wFleletUnits_9 cmdLoadMemkey mb Role.mailbox (0 : HubId) wFleletUnits_11) ∧
    (1 ≤ pf wFleletUnits_11.params 0 1) ∧
    (zeroBytes wFleletUnits_11.params 2 2) ∧
    (pf wFleletUnits_11.params 1 1 = 0) :=
  ⟨⟨dec, dec, dec, dec, dec, ⟨rfl, rfl⟩, dec, dec, dec⟩, dec⟩

def wFleletUnits_12 : Packet := (ask 0 ([1, 0, 0, 0]))
theorem witness_FleletUnits_8 :
    (Asked wFleletUnits_9 cmdClearMemkey mb Role.mailbox (0 : HubId) wFleletUnits_12) ∧
    (1 ≤ pf wFleletUnits_12.params 0 1) ∧
    (zeroBytes wFleletUnits_12.params 1 3) :=
  ⟨⟨dec, dec, dec, dec, dec, ⟨rfl, rfl⟩, dec, dec, dec⟩, dec⟩

def wFleletUnits_13 : Packet := (ask 0 ([3, 0, 1, 0]))
theorem witness_FleletUnits_9 :
    (Asked wFleletUnits_9 cmdSetKeyQuota mb Role.mailbox (0 : HubId) wFleletUnits_13) ∧
    ((wFleletUnits_9.heard mb wFleletUnits_13).body.partExists (pf wFleletUnits_13.params 0 1) = true) ∧
    (zeroBytes wFleletUnits_13.params 1 1) ∧
    (1 ≤ pf wFleletUnits_13.params 2 2) :=
  ⟨⟨dec, dec, dec, dec, dec, ⟨rfl, rfl⟩, dec, dec, dec⟩, dec⟩

def wFleletUnits_14 : Packet := (ask 0 (leBytes 4 (2 * 65536 + 1) ++ [3, 0, 7, 0]))
theorem witness_FleletUnits_10 :
    (Asked wFleletUnits_9 cmdReassignKey mb Role.mailbox (0 : HubId) wFleletUnits_14) ∧
    ((wFleletUnits_9.heard mb wFleletUnits_14).body.keyOf (0 : HubId) (BitVec.ofNat 32 (pf wFleletUnits_14.params 0 4)) = some (key0 true)) ∧
    ((wFleletUnits_9.heard mb wFleletUnits_14).body.partExists (pf wFleletUnits_14.params 4 1) = true) ∧
    (zeroBytes wFleletUnits_14.params 5 1) ∧
    ((wFleletUnits_9.heard mb wFleletUnits_14).body.handleUsed (BitVec.ofNat 32 (pf wFleletUnits_14.params 0 4)) = false) :=
  ⟨⟨dec, dec, dec, dec, dec, ⟨rfl, rfl⟩, dec, dec, dec⟩, dec⟩

def wFleletUnits_15 : State := (keyed .mailbox [jb])
theorem witness_FleletUnits_11 :
    (Asked wFleletUnits_15 cmdReassignKey mb Role.mailbox (0 : HubId) wFleletUnits_14) ∧
    ((wFleletUnits_15.heard mb wFleletUnits_14).body.keyOf (0 : HubId) (BitVec.ofNat 32 (pf wFleletUnits_14.params 0 4)) = some (key0 true)) ∧
    ((wFleletUnits_15.heard mb wFleletUnits_14).body.partExists (pf wFleletUnits_14.params 4 1) = true) ∧
    (zeroBytes wFleletUnits_14.params 5 1) ∧
    ((wFleletUnits_15.heard mb wFleletUnits_14).body.handleUsed (BitVec.ofNat 32 (pf wFleletUnits_14.params 0 4)) = true) :=
  ⟨⟨dec, dec, dec, dec, dec, ⟨rfl, rfl⟩, dec, dec, dec⟩, dec⟩

def wFleletUnits_16 : State := (keyed .owner [])
def wFleletUnits_17 : Packet := (ask 7 (leBytes 4 (2 * 65536 + 1)))
theorem witness_FleletUnits_12 :
    (Asked wFleletUnits_16 cmdDestroyKey c1 Role.owner (0 : HubId) wFleletUnits_17) ∧
    ((wFleletUnits_16.heard c1 wFleletUnits_17).body.keyOf (0 : HubId) (BitVec.ofNat 32 (pf wFleletUnits_17.params 0 4)) = some (key0 true)) ∧
    ((wFleletUnits_16.heard c1 wFleletUnits_17).body.handleUsed (BitVec.ofNat 32 (pf wFleletUnits_17.params 0 4)) = false) :=
  ⟨⟨dec, dec, dec, dec, dec, ⟨_, rfl, dec, dec, dec⟩, dec, dec, dec⟩, dec⟩

def wFleletUnits_18 : State := (keyed .owner [jb])
theorem witness_FleletUnits_13 :
    (Asked wFleletUnits_18 cmdDestroyKey c1 Role.owner (0 : HubId) wFleletUnits_17) ∧
    ((wFleletUnits_18.heard c1 wFleletUnits_17).body.keyOf (0 : HubId) (BitVec.ofNat 32 (pf wFleletUnits_17.params 0 4)) = some (key0 true)) ∧
    ((wFleletUnits_18.heard c1 wFleletUnits_17).body.handleUsed (BitVec.ofNat 32 (pf wFleletUnits_17.params 0 4)) = true) :=
  ⟨⟨dec, dec, dec, dec, dec, ⟨_, rfl, dec, dec, dec⟩, dec, dec, dec⟩, dec⟩

def wFleletUnits_19 : Packet := (ask 7 ([0, 0]))
def wFleletUnits_20 : Body := (issued (fl .fallow .owner) c1 .owner 0x0802 (ask 7 [0, 0]))
theorem witness_FleletUnits_14 :
    (Asked (fl Mode.fallow Role.owner) cmdRunSelftest c1 Role.owner (0 : HubId) wFleletUnits_19) ∧
    (((fl Mode.fallow Role.owner).heard c1 wFleletUnits_19).body.issueTicket (0 : HubId) Role.owner cmdRunSelftest.op
    (replyHeader ((fl Mode.fallow Role.owner).heard c1 wFleletUnits_19).body (0 : HubId) cmdRunSelftest.op (1 : Byte) (0 : Byte) wFleletUnits_19.sequence
      wFleletUnits_19.session 0 (((fl Mode.fallow Role.owner).heard c1 wFleletUnits_19).body.nextTicket (0 : HubId))) =
  some wFleletUnits_20) ∧
    (locValid (BitVec.ofNat 16 (pf wFleletUnits_19.params 0 2)) = true) :=
  ⟨⟨dec, dec, dec, dec, dec, ⟨_, rfl, dec, dec, dec⟩, dec, dec, dec⟩, rfl, dec⟩

def wFleletUnits_21 : Packet := (ask 7 (leBytes 2 229 ++ [1, 0]))
theorem witness_FleletUnits_15 :
    (Asked (fl Mode.fallow Role.owner) cmdDiagDomain c1 Role.owner (0 : HubId) wFleletUnits_21) ∧
    (pf wFleletUnits_21.params 0 2 < 230) ∧
    (zeroBytes wFleletUnits_21.params 3 1) ∧
    (pf wFleletUnits_21.params 2 1 = 1) :=
  ⟨⟨dec, dec, dec, dec, dec, ⟨_, rfl, dec, dec, dec⟩, dec, dec, dec⟩, dec⟩

def wFleletUnits_22 : Packet := (ask 7 (leBytes 2 229 ++ [0, 0]))
theorem witness_FleletUnits_16 :
    (Asked (fl Mode.fallow Role.owner) cmdDiagDomain c1 Role.owner (0 : HubId) wFleletUnits_22) ∧
    (pf wFleletUnits_22.params 0 2 < 230) ∧
    (zeroBytes wFleletUnits_22.params 3 1) ∧
    (pf wFleletUnits_22.params 2 1 = 0) :=
  ⟨⟨dec, dec, dec, dec, dec, ⟨_, rfl, dec, dec, dec⟩, dec, dec, dec⟩, dec⟩

def wFleletUnits_23 : Packet := (ask 7 ([1]))
theorem witness_FleletUnits_17 :
    (Asked (fl Mode.fallow Role.owner) cmdTestPort c1 Role.owner (0 : HubId) wFleletUnits_23) ∧
    (pf wFleletUnits_23.params 0 1 = 1) :=
  ⟨⟨dec, dec, dec, dec, dec, ⟨_, rfl, dec, dec, dec⟩, dec, dec, dec⟩, dec⟩

def wFleletUnits_24 : Packet := (ask 7 ([0]))
theorem witness_FleletUnits_18 :
    (Asked (fl Mode.proving Role.owner) cmdTestPort c1 Role.owner (0 : HubId) wFleletUnits_24) ∧
    (pf wFleletUnits_24.params 0 1 = 0) :=
  ⟨⟨dec, dec, dec, dec, dec, ⟨_, rfl, dec, dec, dec⟩, dec, dec, dec⟩, dec⟩

def wFlashStaysLegal_25 : State := (nx (step (running atK)))
theorem witness_FlashStaysLegal_1 :
    ((running atK).cfg.legal) ∧
    (step (running atK) = Host.Outcome.next wFlashStaysLegal_25) :=
  ⟨legal_default, rfl⟩
end G18

/-! ## Published vectors of the standards (log entry 32): FIPS 180-4, RFC 8439 section 2.3.2, and the first case of the GCM specification -/

theorem test_sha256_abc : sha256 [0x61, 0x62, 0x63] =
    beBytes 32 0xba7816bf8f01cfea414140de5dae2223b00361a396177a9cb410ff61f20015ad := by decide +kernel
theorem test_chacha_block : (chachaBlock ((List.range 32).map (BitVec.ofNat 8)) (beBytes 12 0x000000090000004a00000000) 1).take 16 =
    beBytes 16 0x10f1e7e4d13b5915500fdd1fa32071c4 := by decide +kernel
theorem test_gcm_tag : gcmEnc (List.replicate 16 0) (List.replicate 12 0) [] 16 [] = beBytes 16 0x58e2fccefa7e3061367f1d57a4e7455a := by
  decide +kernel

end Sys2Proof.Tests
end

section
namespace Sys2Proof.Machine

/-! ## Fields of a request's parameters -/

theorem leNat_lt (l : List Byte) : leNat l < 256 ^ l.length := by
  induction l with
  | nil => simp [leNat]
  | cons x xs ih =>
    have := x.isLt
    simp only [leNat, List.length_cons, Nat.pow_succ]
    omega

theorem field_lt (l : List Byte) (off n : Nat) : field l off n < 256 ^ n :=
  Nat.lt_of_lt_of_le (leNat_lt _) (Nat.pow_le_pow_right (by decide) (List.length_take_le _ _))

/-- A field of one byte is that byte, and 0 beyond the end. -/
theorem field_one (l : List Byte) (off : Nat) : field l off 1 = (l.getD off 0).toNat := by
  unfold field slice
  rcases Nat.lt_or_ge off l.length with h | h
  · rw [List.drop_eq_getElem_cons h, List.take_succ_cons]
    simp [leNat, h]
  · rw [List.drop_eq_nil_of_le h]
    simp [leNat, h]

/-! ## What a Flelet command's answer leaves in flash -/

/-- The flash configuration that an answer leaves is legal, whenever the one that its work meets is. -/
def Answer.Legal : Answer → Prop
  | .reply s _ _ _ _ _ => s.cfg.legal
  | .start f => ∀ t x, x.cfg.legal → (f t x).cfg.legal
  | .wait => True

/-- A command that keeps the flash configuration legal when its parameters have the length of its row. -/
def Cmd.Safe (c : Cmd) : Prop := ∀ (r : FReq) (s : State), c.lenOk r.params = true → s.cfg.legal → (c.run r s).Legal

section
variable {s : State} {a b : Answer}

theorem checked_legal {cs : List (Nat × Bool)} (h : s.cfg.legal) (k : firstBad cs = none → a.Legal) : (checked s cs a).Legal := by
  unfold checked
  split
  · exact h
  · exact k ‹_›

theorem ite_legal {p : Prop} [Decidable p] (ha : a.Legal) (hb : b.Legal) : (if p then a else b).Legal := by
  split
  · exact ha
  · exact hb

theorem bad_legal {o : Nat} (h : s.cfg.legal) : (bad s o).Legal := h
theorem done_withBody_legal {f : Body → Body} {ps : List Byte} (h : s.cfg.legal) : (done (withBody s f) ps).Legal := h

theorem spaced_legal {p : List Byte} {k : SliceId → Answer} (h : s.cfg.legal) (hk : ∀ sl, (k sl).Legal) : (spaced s p k).Legal := by
  unfold spaced
  split
  · exact h
  · exact ite_legal trivial (hk _)

theorem onSlice_legal {r : FReq} {cs : Slice → List (Nat × Bool)} {f : Slice → Slice} (h : s.cfg.legal) : (onSlice r s cs f).Legal := by
  unfold onSlice
  split
  · exact h
  · exact checked_legal h fun _ => h

end

/-! ### Commands that write nothing to flash -/

theorem getResult_safe : cmdGetResult.Safe := fun r s _ h => by
  change (doGetResult r s).Legal
  unfold doGetResult
  dsimp only
  split
  · exact h
  · split
    · exact ite_legal h h
    · exact h

theorem releaseResult_safe : cmdReleaseResult.Safe := fun r s _ h => by
  change (doReleaseResult r s).Legal
  unfold doReleaseResult
  split
  · exact h
  · exact ite_legal h h

theorem powerOff_safe : cmdPowerOff.Safe := fun _ _ _ h => ite_legal h h
theorem rejoin_safe : cmdRejoin.Safe := fun _ _ _ h => ite_legal h (ite_legal h (ite_legal h fun _ _ hx => hx))
theorem setPlacement_safe : cmdSetPlacement.Safe := fun _ _ _ h =>
  checked_legal h fun _ => ite_legal h (ite_legal (fun _ _ hx => hx) h)
theorem setRail_safe : cmdSetRail.Safe := fun _ _ _ h => checked_legal h fun _ => h
theorem setDomain_safe : cmdSetDomain.Safe := fun _ _ _ h => checked_legal h fun _ => ite_legal h h
theorem getDomains_safe : cmdGetDomains.Safe := fun _ _ _ h => checked_legal h fun _ => h
theorem getPace_safe : cmdGetPace.Safe := fun _ _ _ h => checked_legal h fun _ => h
theorem readSilt_safe : cmdReadSilt.Safe := fun _ _ _ h => checked_legal h fun _ => h
theorem thawSilt_safe : cmdThawSilt.Safe := fun _ _ _ h => ite_legal h h

theorem readRetained_safe : cmdReadRetained.Safe := fun r s _ h => by
  change (doReadRetained r s).Legal
  refine checked_legal h fun _ => ?_
  split
  · exact h
  · exact h

theorem clearRetained_safe : cmdClearRetained.Safe := fun _ _ _ h => checked_legal h fun _ => ite_legal h h

theorem imageData_safe : cmdImageData.Safe := fun r s _ h => by
  change (doImageData r s).Legal
  unfold doImageData
  dsimp only
  split
  · exact h
  · exact checked_legal h fun _ => ite_legal h h

theorem imageAbort_safe : cmdImageAbort.Safe := fun _ _ _ h => checked_legal h fun _ => ite_legal h h
theorem bindSlice_safe : cmdBindSlice.Safe := fun _ _ _ h => spaced_legal h fun _ => checked_legal h fun _ => ite_legal h h

theorem doDrain_legal (free : Bool) {s : State} (r : FReq) (h : s.cfg.legal) : (doDrain free r s).Legal :=
  spaced_legal h fun _ => checked_legal h fun _ => ite_legal h fun _ _ hx => hx

theorem unbindSlice_safe : cmdUnbindSlice.Safe := fun r _ _ h => doDrain_legal true r h
theorem resetSlice_safe : cmdResetSlice.Safe := fun r _ _ h => doDrain_legal false r h
theorem setShare_safe : cmdSetShare.Safe := fun r s _ h => by
  change (doSetShare r s).Legal
  unfold doSetShare
  exact onSlice_legal h

theorem setRoute_safe : cmdSetRoute.Safe := fun r s _ h => by
  change (doSetRoute r s).Legal
  unfold doSetRoute
  exact onSlice_legal h

theorem setWake_safe : cmdSetWake.Safe := fun _ _ _ h => checked_legal h fun _ => h
theorem setPartition_safe : cmdSetPartition.Safe := fun _ _ _ h => checked_legal h fun _ => h

theorem setSubchannel_safe : cmdSetSubchannel.Safe := fun r s _ h => by
  change (doSetSubchannel r s).Legal
  refine checked_legal h fun _ => ?_
  split
  · exact ite_legal h h
  · exact h

theorem removeSubchannel_safe : cmdRemoveSubchannel.Safe := fun r s _ h => by
  change (doRemoveSubchannel r s).Legal
  unfold doRemoveSubchannel
  split
  · exact h
  · exact ite_legal h h

theorem setPathState_safe : cmdSetPathState.Safe := fun r s _ h => by
  change (doSetPathState r s).Legal
  unfold doSetPathState
  dsimp only
  split
  · exact h
  · exact checked_legal h fun _ => h

theorem setTarget_safe : cmdSetTarget.Safe := fun _ _ _ h => checked_legal h fun _ => ite_legal h h
theorem setNetaddr_safe : cmdSetNetaddr.Safe := fun _ _ _ h => checked_legal h fun _ => ite_legal h h
theorem declareStream_safe : cmdDeclareStream.Safe := fun _ _ _ h => checked_legal h fun _ => h

theorem removeStream_safe : cmdRemoveStream.Safe := fun r s _ h => by
  change (doRemoveStream r s).Legal
  unfold doRemoveStream
  dsimp only
  split
  · exact h
  · exact checked_legal h fun _ => ite_legal h h

theorem readJournal_safe : cmdReadJournal.Safe := fun _ _ _ h => checked_legal h fun _ => h
theorem readOrphans_safe : cmdReadOrphans.Safe := fun _ _ _ h => checked_legal h fun _ => h

theorem clearPoison_safe : cmdClearPoison.Safe := fun r s _ h => by
  change (doClearPoison r s).Legal
  unfold doClearPoison
  exact checked_legal h fun _ => done_withBody_legal h

theorem readStrand_safe : cmdReadStrand.Safe := fun r s _ h => by
  change (doReadStrand r s).Legal
  unfold doReadStrand
  split
  · exact h
  · exact checked_legal h fun _ => ite_legal h h

theorem startStrand_safe : cmdStartStrand.Safe := fun r s _ h => by
  change (doStartStrand r s).Legal
  unfold doStartStrand
  extract_lets
  split
  · exact h
  · refine checked_legal h fun _ => ?_
    extract_lets
    exact ite_legal (bad_legal h) (done_withBody_legal h)

theorem releaseStrand_safe : cmdReleaseStrand.Safe := fun r s _ h => by
  change (doReleaseStrand r s).Legal
  unfold doReleaseStrand
  split
  · exact h
  · exact checked_legal h fun _ => done_withBody_legal h

theorem loadKey_safe : cmdLoadKey.Safe := fun r s _ h => by
  change (doLoadKey r s).Legal
  refine ite_legal h ?_
  split
  · exact h
  · refine checked_legal h fun _ => ?_
    split
    · exact h
    · exact h

theorem loadMemkey_safe : cmdLoadMemkey.Safe := fun r s _ h => by
  change (doLoadMemkey r s).Legal
  refine checked_legal h fun _ => ?_
  split
  · exact h
  · exact h

theorem clearMemkey_safe : cmdClearMemkey.Safe := fun _ _ _ h => checked_legal h fun _ => h
theorem setKeyQuota_safe : cmdSetKeyQuota.Safe := fun _ _ _ h => checked_legal h fun _ => h

theorem reassignKey_safe : cmdReassignKey.Safe := fun r s _ h => by
  change (doReassignKey r s).Legal
  unfold doReassignKey
  dsimp only
  split
  · exact h
  · exact checked_legal h fun _ => ite_legal h h

theorem destroyKey_safe : cmdDestroyKey.Safe := fun r s _ h => by
  change (doDestroyKey r s).Legal
  unfold doDestroyKey
  dsimp only
  split
  · exact h
  · exact ite_legal trivial h

theorem readUnit_safe : cmdReadUnit.Safe := fun r s _ h => by
  change (doReadUnit r s).Legal
  unfold doReadUnit
  dsimp only
  split
  · exact h
  · exact ite_legal h h

theorem runSelftest_safe : cmdRunSelftest.Safe := fun _ _ _ h => checked_legal h fun _ => fun _ _ hx => hx
theorem diagDomain_safe : cmdDiagDomain.Safe := fun _ _ _ h => checked_legal h fun _ => h
theorem readPhys_safe : cmdReadPhys.Safe := fun _ _ _ h => checked_legal h fun _ => h
theorem readJournalRaw_safe : cmdReadJournalRaw.Safe := fun _ _ _ h => checked_legal h fun _ => h
theorem testPort_safe : cmdTestPort.Safe := fun _ _ _ h => checked_legal h fun _ => h


/-! ### Commands that write to flash -/

theorem firstBad_none {cs : List (Nat × Bool)} : firstBad cs = none ↔ ∀ c ∈ cs, c.2 = true := by
  induction cs with
  | nil => simp [firstBad]
  | cons c r ih =>
    obtain ⟨o, ok⟩ := c
    cases ok
    · simp [firstBad]
    · simp [firstBad, ih]

theorem ImageSlot.ok_zero {x : ImageSlot} {floor : BitVec 64} (h : x.ok floor = true) : x.ok 0 = true := by
  unfold ImageSlot.ok at h ⊢
  simp only [Bool.and_eq_true] at h ⊢
  exact ⟨h.1, by simp⟩

theorem slotImageOk_ok {img : List Byte} {floor : BitVec 64} (h : slotImageOk img floor = true) : (imageSlot img).ok 0 = true := by
  unfold slotImageOk at h
  rw [Bool.and_eq_true] at h
  exact ImageSlot.ok_zero h.2

/-- Changes of the flash configuration that touch none of the fields that `legal` speaks of. -/
theorem FlashCfg.legal_of_eq {c c' : FlashCfg} (h : c.legal) (hf : c'.floor = c.floor) (hc : c'.ceil = c.ceil) (ha : c'.anchor = c.anchor)
    (ho : c'.octets = c.octets) (hp : c'.farPairs = c.farPairs) (hs : c'.slots = c.slots) : c'.legal where
  rails := by rw [hf, hc]; exact h.rails
  anchor := by rw [ha]; exact h.anchor
  octets := by rw [ho]; exact h.octets
  pairs := by rw [hp]; exact h.pairs
  bases := by rw [hp]; exact h.bases
  images := by rw [hs]; exact h.images

theorem legal_setSlot {c : FlashCfg} (h : c.legal) (k : Fin 2) (x : ImageSlot) (hx : x.valid = true → x.ok 0 = true) :
    ({ c with slots := c.slots.set k x } : FlashCfg).legal where
  rails := h.rails
  anchor := h.anchor
  octets := h.octets
  pairs := h.pairs
  bases := h.bases
  images := fun j hj => by
    by_cases e : k.val = j.val
    · simp_all
    · simp only [Fin.getElem_fin, Vector.getElem_set_ne (h := e)] at hj ⊢
      exact h.images j hj

theorem legal_setOctet {c : FlashCfg} (h : c.legal) (o : OctetId) (x : OctetRec) (hx : x.legal) :
    ({ c with octets := c.octets.set o x } : FlashCfg).legal where
  rails := h.rails
  anchor := h.anchor
  octets := fun j => by
    by_cases e : o.val = j.val
    · simpa [e] using hx
    · simpa only [Fin.getElem_fin, Vector.getElem_set_ne (h := e)] using h.octets j
  pairs := h.pairs
  bases := h.bases
  images := h.images

theorem legal_setAnchor {c : FlashCfg} (h : c.legal) (a : Anchor) (ha : a.alg = 1 ∨ a.alg = 2) (h1 : a.session.length = algKey a.alg)
    (h2 : a.viewer.length = algKey a.alg) (h3 : a.sign.length = algKey a.alg) : ({ c with anchor := some a } : FlashCfg).legal where
  rails := h.rails
  anchor := fun b hb => by
    cases hb
    exact ⟨ha, h1, h2, h3⟩
  octets := h.octets
  pairs := h.pairs
  bases := h.bases
  images := h.images

theorem setAutostart_safe : cmdSetAutostart.Safe := fun _ _ _ h =>
  checked_legal h fun _ => FlashCfg.legal_of_eq h rfl rfl rfl rfl rfl rfl
theorem setPreferredHalf_safe : cmdSetPreferredHalf.Safe := fun _ _ _ h =>
  checked_legal h fun _ => FlashCfg.legal_of_eq h rfl rfl rfl rfl rfl rfl
theorem setMgmtNet_safe : cmdSetMgmtNet.Safe := fun _ _ _ h =>
  checked_legal h fun _ => FlashCfg.legal_of_eq h rfl rfl rfl rfl rfl rfl
theorem setActiveSlot_safe : cmdSetActiveSlot.Safe := fun _ _ _ h =>
  checked_legal h fun _ => FlashCfg.legal_of_eq h rfl rfl rfl rfl rfl rfl

theorem algOk_iff (a : Byte) : algOk a = true ↔ a = 1 ∨ a = 2 := by simp [algOk]

theorem setOwnerAnchor_safe : cmdSetOwnerAnchor.Safe := fun r s _ h => by
  change (doSetOwnerAnchor r s).Legal
  unfold doSetOwnerAnchor
  extract_lets p alg klen sig ok key
  split
  · exact h
  · rename_i hlen
    refine checked_legal h fun hc => ite_legal h ?_
    have hlen : p.length = 8 + 3 * klen + sig := by simpa using hlen
    have halg : alg = 1 ∨ alg = 2 := (algOk_iff alg).1 (firstBad_none.1 hc (0, algOk alg) (by simp))
    have hk : klen = algKey alg := by simpa using firstBad_none.1 hc (4, decide (klen = algKey alg)) (by simp)
    have hkey : ∀ i < 3, (key i).length = algKey alg := fun i hi => by
      simp only [key, List.length_take, List.length_drop, ← hk]
      have := Nat.mul_le_mul_right klen (show i ≤ 2 by omega)
      omega
    exact legal_setAnchor h _ halg (hkey 0 (by omega)) (hkey 1 (by omega)) (hkey 2 (by omega))

theorem done_legal {s : State} {ps : List Byte} (h : s.cfg.legal) : (done s ps).Legal := h

theorem setRailLimits_safe : cmdSetRailLimits.Safe := fun r s _ h => by
  change (doSetRailLimits r s).Legal
  unfold doSetRailLimits
  extract_lets p first last lo hi inside src cfg ds
  refine checked_legal h fun hc => done_legal ?_
  have hlo := firstBad_none.1 hc (4, lo % 5 = 0 && 650 ≤ lo && lo ≤ 950) (by simp)
  have hhi := firstBad_none.1 hc (6, hi % 5 = 0 && lo ≤ hi && hi ≤ 950) (by simp)
  simp only [Bool.and_eq_true, decide_eq_true_eq] at hlo hhi
  have elo : (BitVec.ofNat 16 lo).toNat = lo := Nat.mod_eq_of_lt (by omega)
  have ehi : (BitVec.ofNat 16 hi).toNat = hi := Nat.mod_eq_of_lt (by omega)
  exact
    { h with
      rails := fun d => by
        have := h.rails d
        simp only [cfg, Fin.getElem_fin, Vector.getElem_ofFn] at this ⊢
        split
        · rw [elo, ehi]
          omega
        · exact this }

theorem zeros_ok {p : List Byte} {lo n : Nat} : (∀ c ∈ zeros p lo n, c.2 = true) ↔ zeroBytes p lo n := by
  simp [zeros, zeroBytes]

theorem octetOf_mtu (p : List Byte) : (octetOf p).mtu.toNat = field p 6 2 := by
  have := field_lt p 6 2
  simp only [octetOf, pf, BitVec.toNat_ofNat]
  omega

/-- The checks of SET_OCTET are those of a legal record for an octet that exists (R405). -/
theorem octetChecks_none {p : List Byte} : firstBad (octetChecks p) = none ↔ pf p 0 1 ≤ 11 ∧ (octetOf p).legal := by
  have hm := octetOf_mtu p
  rw [firstBad_none]
  simp only [octetChecks, OctetRec.legal, pf, field_one, ← hm, BitVec.toNat_eq, List.forall_mem_cons, List.not_mem_nil, false_implies,
    implies_true, and_true, decide_eq_true_eq]
  refine and_congr .rfl (and_congr .rfl (and_congr .rfl (and_congr ?_ (and_congr .rfl (and_congr ?_ ?_)))))
  · change _ ↔ if (p.getD 1 0).toNat = 2 ∨ (p.getD 1 0).toNat = 3 then (p.getD 3 0).toNat ≤ 1 else (p.getD 3 0).toNat = 0
    split <;> simp
  · change _ ↔ if (p.getD 1 0).toNat = 0 then (p.getD 5 0).toNat = 0 else (p.getD 5 0).toNat ≤ 1
    split <;> simp
  · change _ ↔ if (p.getD 1 0).toNat = 1 then 1518 ≤ (octetOf p).mtu.toNat ∧ (octetOf p).mtu.toNat ≤ 9216 else (octetOf p).mtu.toNat = 0
    split <;> simp

/-- Base addresses of SET_FARMEM are far below 2^32. -/
theorem farPairOf_base {p : List Byte} {i : Nat} (h : field p (8 * i + 4) 4 < 4096) : (farPairOf p i).base.toNat = field p (8 * i + 4) 4 := by
  simp only [farPairOf, pf, BitVec.toNat_ofNat]
  omega

/-- What the checks of SET_FARMEM say of record `i`: ports of R283, a BASE within the window, and no BASE of an earlier record. -/
structure FarRecordOk (p : List Byte) (i : Nat) : Prop where
  portA : (farPairOf p i).portA.toNat < 96
  portB : (farPairOf p i).portB.toNat < 96
  base : (farPairOf p i).base.toNat < 4096
  fresh : ∀ j < i, (farPairOf p j).base ≠ (farPairOf p i).base

theorem farPairs_legal {p : List Byte} {n : Nat} (h : ∀ i < n, FarRecordOk p i) :
    (∀ x ∈ (List.range n).map (farPairOf p), x.portA.toNat < 96 ∧ x.portB.toNat < 96 ∧ x.base.toNat < 4096) ∧
      ((List.range n).map (farPairOf p)).Pairwise fun x y => x.base ≠ y.base := by
  constructor
  · intro x hx
    obtain ⟨i, hi, rfl⟩ := List.mem_map.1 hx
    have := h i (List.mem_range.1 hi)
    exact ⟨this.portA, this.portB, this.base⟩
  · rw [List.pairwise_map]
    exact List.pairwise_lt_range.imp_of_mem fun _ hj hlt => (h _ (List.mem_range.1 hj)).fresh _ hlt

theorem setOctet_safe : cmdSetOctet.Safe := fun r s _ h => by
  change (doSetOctet r s).Legal
  unfold doSetOctet
  extract_lets p o x s'
  refine checked_legal h fun hc => ?_
  have hs' : s'.cfg.legal := legal_setOctet h o x (octetChecks_none.1 hc).2
  exact ite_legal (ite_legal (done_withBody_legal hs') h) hs'

theorem setFarmem_safe : cmdSetFarmem.Safe := fun r s hl h => by
  change (doSetFarmem r s).Legal
  unfold doSetFarmem
  extract_lets p n pairs check
  refine checked_legal h fun hc => done_legal ?_
  have hn : n ≤ 64 := by
    have : p.length % 8 = 0 ∧ p.length ≤ 512 := by simpa [cmdSetFarmem, farmemLen] using hl
    omega
  have hrec : ∀ i < n, FarRecordOk p i := by
    intro i hi
    have hi' := fun c hm => firstBad_none.1 hc c (List.mem_flatMap.2 ⟨i, List.mem_range.2 hi, hm⟩)
    have hA := hi' (8 * i, portByteOk (p.getD (8 * i) 0)) (by simp [check])
    have hB := hi' (8 * i + 1, portByteOk (p.getD (8 * i + 1) 0)) (by simp [check])
    have hbase := hi' (8 * i + 4, _) (List.mem_append_right _ (List.mem_singleton.2 rfl))
    rw [Bool.and_eq_true, decide_eq_true_eq] at hbase
    obtain ⟨hlt, hnew⟩ := hbase
    have hb := farPairOf_base hlt
    refine ⟨of_decide_eq_true hA, of_decide_eq_true hB, hb ▸ hlt, fun j hj e => ?_⟩
    simp only [pairs, ← List.map_take, List.take_range, Bool.not_eq_true', List.any_eq_false, List.mem_map, List.mem_range,
      decide_eq_true_eq] at hnew
    exact hnew _ ⟨j, by omega, rfl⟩ (by rw [e, hb])
  obtain ⟨hports, hbases⟩ := farPairs_legal hrec
  exact { h with pairs := ⟨by simpa [withCfg, pairs] using hn, hports⟩, bases := hbases }

theorem imageBegin_safe : cmdImageBegin.Safe := fun r s _ h => by
  change (doImageBegin r s).Legal
  unfold doImageBegin
  extract_lets p t slotT
  refine checked_legal h fun _ => ite_legal h ?_
  change (if slotT = true then _ else s).cfg.legal
  split
  · exact legal_setSlot h _ _ (by simp)
  · exact h

theorem commitImage_legal (t : Nat) (x : Staging) (ticket : BitVec 32) {s : State} (h : s.cfg.legal) : (commitImage t x ticket s).cfg.legal := by
  unfold commitImage
  extract_lets img refuse
  split
  · exact h
  split
  · exact h
  split
  · split
    · exact legal_setSlot h _ _ fun _ => slotImageOk_ok ‹_›
    · exact h
  split
  · split
    · exact h
    · exact h
  split
  · exact h
  · exact h

theorem imageCommit_safe : cmdImageCommit.Safe := fun r s _ h => by
  change (doImageCommit r s).Legal
  unfold doImageCommit
  extract_lets
  split
  · exact h
  · exact checked_legal h fun _ => ite_legal h fun _ _ hx => commitImage_legal _ _ _ hx

theorem allCmds_safe : ∀ c ∈ allCmds, c.Safe := by
  simp only [allCmds, List.forall_mem_cons, List.not_mem_nil, false_implies, implies_true, and_true]
  exact
    ⟨fun _ _ _ h => h, fun _ _ _ h => h, fun _ _ _ h => h, fun _ _ _ h => h, setOwnerAnchor_safe, setMgmtNet_safe, getResult_safe,
     releaseResult_safe, fun _ _ _ _ _ _ hx => hx, powerOff_safe, fun _ _ _ _ _ _ hx => hx, fun _ _ _ _ _ _ hx => hx,
     setAutostart_safe, fun _ _ _ h => h, setPreferredHalf_safe, rejoin_safe, setPlacement_safe, fun _ _ _ h => h, setRailLimits_safe,
     setRail_safe, setDomain_safe, getDomains_safe, fun _ _ _ h => h, getPace_safe, readSilt_safe, fun _ _ _ h => h, thawSilt_safe,
     readRetained_safe, clearRetained_safe, imageBegin_safe, imageData_safe, imageCommit_safe, imageAbort_safe, setActiveSlot_safe,
     fun _ _ _ h => h, bindSlice_safe, unbindSlice_safe, resetSlice_safe, setShare_safe, setRoute_safe, setWake_safe,
     setPartition_safe, setSubchannel_safe, removeSubchannel_safe, setPathState_safe, setTarget_safe, setNetaddr_safe,
     declareStream_safe, removeStream_safe, readJournal_safe, readOrphans_safe, setOctet_safe, setFarmem_safe, fun _ _ _ h => h,
     clearPoison_safe, readStrand_safe, startStrand_safe, releaseStrand_safe, readUnit_safe, runSelftest_safe, diagDomain_safe,
     readPhys_safe, readJournalRaw_safe, testPort_safe, fun _ _ _ h => h, loadKey_safe, loadMemkey_safe, clearMemkey_safe,
     setKeyQuota_safe, reassignKey_safe, destroyKey_safe⟩

/-- An opcode names only a command that keeps the flash configuration legal. -/
theorem cmdOf_safe (op : BitVec 16) : ∀ c ∈ cmdOf op, c.Safe := fun c hc => allCmds_safe c (List.mem_of_find?_eq_some hc)

/-! ## Requests -/

theorem performCmd_legal {c : Option Cmd} (hc : ∀ x ∈ c, x.Safe) {op : BitVec 16} {r : FReq} {shadow : Bool} {p : Packet} {s : State}
    (h : s.cfg.legal) : (performCmd c op r shadow p s).1.cfg.legal := by
  unfold performCmd
  extract_lets b0 send plain
  split
  · exact h
  split
  · exact h
  · rename_i x
    split
    · exact h
    split
    · exact h
    split
    · exact h
    · rename_i hlen _
      have hx := hc x rfl r s (by simpa using hlen) h
      cases hr : x.run r s with
      | wait => exact h
      | reply s' status detail params rep close =>
        rw [hr] at hx
        exact hx
      | start f =>
        rw [hr] at hx
        dsimp only
        split
        · exact h
        · exact hx _ _ h

theorem openFirst_cfg (op : BitVec 16) (n : Nat) (island : HubId) (p : Packet) (s : State) : (openFirst op n island p s).cfg = s.cfg := by
  unfold openFirst
  extract_lets
  repeat' split
  all_goals rfl

theorem acceptCmd_legal {c : Option Cmd} (hc : ∀ x ∈ c, x.Safe) {op : BitVec 16} {r : FReq} {shadow : Bool} {p : Packet} {s : State}
    (h : s.cfg.legal) : (acceptCmd c op r shadow p s).cfg.legal := by
  have hp := performCmd_legal hc (op := op) (r := r) (shadow := shadow) (p := p) h
  unfold acceptCmd
  extract_lets queue
  split
  · exact h
  · split
    · rename_i e
      rw [e] at hp
      exact hp
    · rename_i e
      rw [e] at hp
      exact hp

theorem checkHeader_legal {c : Option Cmd} (hc : ∀ x ∈ c, x.Safe) {op : BitVec 16} {src : FSource} {island : HubId} {shadow : Bool} {p : Packet}
    {s : State} (h : s.cfg.legal) : (checkHeader c op src island shadow p s).cfg.legal := by
  unfold checkHeader
  extract_lets b out s1
  split
  · cases src <;> exact h
  split
  · exact h
  split
  · split
    · exact h
    · exact acceptCmd_legal hc h
  split
  · exact h
  split
  · exact (openFirst_cfg op _ island p s).symm ▸ h
  split
  · exact h
  split
  · exact h
  split
  · exact h
  split
  · exact h
  · exact acceptCmd_legal hc h

theorem request_legal {c : Option Cmd} (hc : ∀ x ∈ c, x.Safe) {op : BitVec 16} {src : FSource} {p : Packet} {s : State}
    (h : s.cfg.legal) : (request c op src p s).cfg.legal := by
  unfold request
  dsimp only
  split
  · exact h
  · exact checkHeader_legal hc h

theorem pumpList_legal (ws kept : List WaitCmd) {s : State} (h : s.cfg.legal) : (pumpList cmdOf ws kept s).1.cfg.legal := by
  induction ws generalizing kept s with
  | nil => exact h
  | cons w r ih =>
    unfold pumpList
    split
    · exact ih _ h
    split
    · rename_i island shadow role _ _
      split
      · exact ih _ h
      · have hp := performCmd_legal (cmdOf_safe w.opcode) (op := w.opcode)
          (r := { src := w.src, role := role, island := island, params := w.packet.params }) (shadow := shadow) (p := w.packet) h
        split
        · rename_i e
          rw [e] at hp
          exact ih _ hp
        · rename_i e
          rw [e] at hp
          exact ih _ hp
    · exact ih _ h

theorem pump_legal {s : State} (h : s.cfg.legal) : (pump cmdOf s).cfg.legal := pumpList_legal _ _ h

/-! ## Steps -/

/-- An outcome whose next state, if it has one, has a legal flash configuration. -/
def LegalNext (o : Out) : Prop := ∀ t, o = .next t → t.cfg.legal

theorem legalNext_iff {t : State} : LegalNext (.next t) ↔ t.cfg.legal := ⟨fun h => h t rfl, fun h _ e => by cases e; exact h⟩

/-- A command that changes the body alone. -/
theorem legalNext_body {s : State} (h : s.cfg.legal) (b : Body) : LegalNext (.next { s with body := b }) := legalNext_iff.2 h

theorem legalNext_flelet {c : Cmd} (hc : c ∈ allCmds) (src : FSource) (p : Packet) {s : State} (h : s.cfg.legal) : LegalNext (flelet c src p s) :=
  legalNext_iff.2 (request_legal (fun _ hx => by cases hx; exact allCmds_safe c hc) (pump_legal h))

theorem legalNext_iodb (t : StrandId) (rd : Reg) (iob : BitVec 2) (addr : BitVec 24) {s : State} (h : s.cfg.legal) :
    LegalNext (execIodb t rd iob addr s) := by
  unfold execIodb
  split
  · exact legalNext_body h _
  · exact legalNext_body h _

theorem legalNext_xInstruction (t : StrandId) (fn : BitVec 4) (rd ra : Reg) (imm : BitVec 24) {s : State} (h : s.cfg.legal) :
    LegalNext (execXInstruction t fn rd ra imm s) := by
  unfold execXInstruction
  dsimp only
  split
  · exact legalNext_body h _
  · exact legalNext_body h _

theorem legalNext_unknownOpcode (src : FSource) (op : BitVec 16) (p : Packet) {s : State} (h : s.cfg.legal) :
    LegalNext (execUnknownOpcode src op p s) := by
  unfold execUnknownOpcode
  split
  · exact legalNext_iff.2 h
  · exact legalNext_iff.2 (request_legal (by simp) (pump_legal h))

theorem legalNext_connectionOpen (port : HubId) (cert : CertKind) {s : State} (h : s.cfg.legal) : LegalNext (execConnectionOpen port cert s) := by
  unfold execConnectionOpen
  dsimp only
  split
  · exact legalNext_iff.2 h
  · exact legalNext_body h _

theorem legalNext_mailboxPoll (island : HubId) {s : State} (h : s.cfg.legal) : LegalNext (execMailboxPoll island s) := by
  unfold execMailboxPoll
  dsimp only
  split
  · exact legalNext_iff.2 (pump_legal h)
  · exact legalNext_iff.2 (List.foldlRecOn (motive := fun x : State => x.cfg.legal) _ _ (pump_legal h) fun _ hs _ _ => request_legal (cmdOf_safe _) hs)

theorem legalNext_generationWaitExpiry (sl : SliceId) {s : State} (h : s.cfg.legal) : LegalNext (execGenerationWaitExpiry sl s) := by
  unfold execGenerationWaitExpiry
  dsimp only
  split
  · split
    · exact legalNext_iff.2 h
    · exact legalNext_iff.2 (pump_legal h)
  · exact legalNext_iff.2 h

theorem startFirst_legal {s : State} (h : s.cfg.legal) : (startFirst s).cfg.legal := by
  unfold startFirst
  dsimp only
  split
  · exact h
  · exact FlashCfg.legal_of_eq h rfl rfl rfl rfl rfl rfl

theorem legalNext_provingStepComplete (f : Findings) {s : State} (h : s.cfg.legal) : LegalNext (execProvingStepComplete f s) := by
  unfold execProvingStepComplete
  split
  · exact legalNext_iff.2 h
  · extract_lets n b to' put all key b7 b8 b8' b10
    clear_value n
    have hput : ∀ x, LegalNext (put x) := fun x => legalNext_body h _
    split
    case h_8 =>
      split
      · exact legalNext_iff.2 (startFirst_legal h)
      · exact hput _
    all_goals exact hput _

/-- The Flelet commands answer by `flelet`, a few others look at the requests that wait or end PROVING, and every other command changes the
body alone. -/
theorem exec_legalNext (i : Instr) {s : State} (h : s.cfg.legal) : LegalNext (exec i s) := by
  cases i with
  | sessionOpen src p | sessionClose src p | getIdentity src p | getInventory src p | setOwnerAnchor src p | setMgmtNet src p
  | getResult src p | releaseResult src p | powerOn src p | powerOff src p | enterFallow src p | prove src p | setAutostart src p
  | getMode src p | setPreferredHalf src p | rejoin src p | setPlacement src p | getFeeds src p | setRailLimits src p | setRail src p
  | setDomain src p | getDomains src p | getTilth src p | getPace src p | readSilt src p | freezeSilt src p | thawSilt src p
  | readRetained src p | clearRetained src p | imageBegin src p | imageData src p | imageCommit src p | imageAbort src p
  | setActiveSlot src p | getFirmware src p | bindSlice src p | unbindSlice src p | resetSlice src p | setShare src p | setRoute src p
  | setWake src p | setPartition src p | setSubchannel src p | removeSubchannel src p | setPathState src p | setTarget src p
  | setNetaddr src p | declareStream src p | removeStream src p | readJournal src p | readOrphans src p | setOctet src p
  | setFarmem src p | readPam src p | clearPoison src p | readStrand src p | startStrand src p | releaseStrand src p | readUnit src p
  | runSelftest src p | diagDomain src p | readPhys src p | readJournalRaw src p | testPort src p | getTransportKey src p
  | loadKey src p | loadMemkey src p | clearMemkey src p | setKeyQuota src p | reassignKey src p | destroyKey src p =>
    exact legalNext_flelet (by simp [allCmds]) src p h
  | iodb t rd iob addr => exact legalNext_iodb t rd iob addr h
  | xInstruction t fn rd ra imm => exact legalNext_xInstruction t fn rd ra imm h
  | unknownOpcode src op p => exact legalNext_unknownOpcode src op p h
  | connectionOpen port cert => exact legalNext_connectionOpen port cert h
  | mailboxPoll island => exact legalNext_mailboxPoll island h
  | generationWaitExpiry sl => exact legalNext_generationWaitExpiry sl h
  | provingStepComplete f => exact legalNext_provingStepComplete f h
  | _ => exact legalNext_body h _

/-- Settles O59: an empty queue only counts time, and every command leaves a legal configuration. -/
theorem flashStaysLegal : Obligations.FlashStaysLegal := by
  intro s t h
  unfold step
  split
  · exact fun e => by cases e; exact h
  · rename_i c rest _
    exact exec_legalNext c (s := { s with pending := rest }) h t

end Sys2Proof.Machine
end

section
/-! Translation maintenance (R240 to R243): what a TLBI or WCI does at each scope, and what its acknowledgement leaves. -/

namespace Sys2Proof.Machine

/-! ## Cores and strands -/

theorem mem_strandsOfCore {v : StrandId} {c : CoreId} (h : v ∈ strandsOfCore c) : coreOf v = c := by
  simp only [strandsOfCore, List.mem_cons, List.not_mem_nil, or_false] at h
  rcases h with rfl | rfl | rfl | rfl <;> (apply Fin.ext; simp only [coreOf, strandOf]; omega)

@[simp] theorem Body.core_modCore (b : Body) (c : CoreId) (f : Core → Core) : (b.modCore c f).core c = f (b.core c) := by
  simp [Body.core, Body.modCore]

@[simp] theorem Body.core_modIo (b : Body) (f : Io → Io) (c : CoreId) : (b.modIo f).core c = b.core c := rfl

@[simp] theorem Body.core_mapCores (b : Body) (f : CoreId → Core → Core) (c : CoreId) : (b.mapCores f).core c = f c (b.core c) := by
  simp [Body.core, Body.mapCores]

/-! ## What `Core.inval1` removes -/

@[simp] theorem Core.inval1_inval (k : Core) (o : InvalOp) : (k.inval1 o).inval = k.inval := by
  unfold Core.inval1
  split <;> rfl

theorem Core.inval1_tlb (k : Core) {o : InvalOp} (h : o.wci = false) :
    ∀ e ∈ (k.inval1 o).dtlb ++ (k.inval1 o).itlb ++ (k.inval1 o).stlb, o.hitsTag e.tag = false := by
  intro e he
  simp only [Core.inval1, h, Bool.false_eq_true, if_false, List.mem_append, List.mem_filter, Bool.not_eq_true'] at he
  rcases he with (he | he) | he <;> exact he.2

theorem Core.inval1_walk (k : Core) {o : InvalOp} (h : o.wci = true) : ∀ e ∈ (k.inval1 o).walk, o.hitsWalk e = false := by
  intro e he
  simp only [Core.inval1, h, if_true, List.mem_filter, Bool.not_eq_true'] at he
  exact he.2

theorem Core.inval1_dtlb_keeps (k : Core) (o : InvalOp) : ∀ e ∈ k.dtlb, o.hitsTag e.tag = false → e ∈ (k.inval1 o).dtlb := by
  intro e he hk
  unfold Core.inval1
  split
  · exact he
  · exact List.mem_filter.2 ⟨he, by simp [hk]⟩

/-! ## Posting an operation (R242, R361) -/

theorem Body.postInval_zero (b : Body) (t : StrandId) (o : InvalOp) :
    b.postInval t 0 o = b.modCore (coreOf t) fun k =>
      { k.inval1 o with inval := if b.owesStores (coreOf t) o = true then k.inval ++ [o] else k.inval } := by
  unfold Body.postInval
  rw [if_pos rfl]
  refine congrArg (b.modCore (coreOf t)) (funext fun k => ?_)
  by_cases h : b.owesStores (coreOf t) o = true
  · simp only [h, if_true, Core.inval1_inval]
  · simp only [if_neg h, ← Core.inval1_inval k o]

theorem Body.crossing_frame (b : Body) (x y : HubId) (l : Option Line) :
    (b.crossing x y l).2 = { b with mem := { b.mem with bridgeSeq := (b.crossing x y l).2.mem.bridgeSeq } } := by
  unfold Body.crossing
  split
  · rfl
  · split <;> rfl

/-- What the posting of an operation to both halves leaves: every core, and every hub for its engines, owes the operation, and the one of the
other half carries its bridge transfer. -/
structure InvalPosted (b : Body) (t : StrandId) (o : InvalOp) (x : Option Crossing) (b' : Body) : Prop where
  core : ∀ c, b'.core c = { b.core c with
    inval := (b.core c).inval ++ [{ o with via := if halfOfCluster (clusterOf c) = halfOfStrand t then o.via else x }] }
  hub : ∀ h : HubId, b'.io.einval[h] = b.io.einval[h] ++ [{ o with via := if h = halfOfStrand t then o.via else x }]
  strands : b'.strands = b.strands
  clusters : b'.clusters = b.clusters
  mem : b'.mem = { b.mem with bridgeSeq := b'.mem.bridgeSeq }

theorem Body.postInval_posted (b : Body) (t : StrandId) (scope : Reg) (o : InvalOp) (h0 : scope ≠ 0) (hs : b.isSplit = false) :
    ∃ x, InvalPosted b t o x (b.postInval t scope o) := by
  have hf := b.crossing_frame (halfOfStrand t) (otherHub (halfOfStrand t)) none
  unfold Body.postInval
  rw [if_neg h0]
  simp only [hs, Bool.false_eq_true, if_false, Bool.not_false, Bool.true_or, if_true]
  generalize b.crossing (halfOfStrand t) (otherHub (halfOfStrand t)) none = q at hf ⊢
  obtain ⟨x, b1⟩ := q
  change b1 = _ at hf
  have hat : ∀ h : HubId, (if h = halfOfStrand t then o else { o with via := x }) = { o with via := if h = halfOfStrand t then o.via else x } := by
    intro h
    split <;> rfl
  refine ⟨x, ?_, ?_, ?_, ?_, ?_⟩
  · intro c
    rw [Body.core_modIo, Body.core_mapCores, hat, hf]
    rfl
  · intro h
    simp only [Body.modIo_io, Fin.getElem_fin, Vector.getElem_ofFn, Fin.eta, hat, Body.mapCores_io]
    rw [hf]
  · rw [Body.modIo_strands, Body.mapCores_strands, hf]
  · rw [Body.modIo_clusters, Body.mapCores_clusters, hf]
  · rw [Body.modIo_mem, Body.mapCores_mem]
    conv_lhs => rw [hf]

/-! ## The instructions (R116, R240 to R242) -/

/-- Instruction `i` of strand `t` posts the operation `o` at `scope` when it runs at the boundary state `b`. -/
def PostsInval (s : State) (t : StrandId) (b : Body) (scope : Reg) (i : Instr) (o : InvalOp) : Prop :=
  ∃ f, exec i s = insn t i (fun b => invalRes b t scope f) false s ∧ lenOf i = 3 ∧ f (b.strand t) = o

section
variable {s : State} {t : StrandId} {b : Body} {scope : Reg} {i : Instr} {o : InvalOp}

/-- The lowest privilege at which a scope is allowed (R116). -/
theorem PostsInval.done (hi : PostsInval s t b scope i o) (hr : Runs s t i b) (h2 : scope.toNat ≤ 2)
    (hp : (if scope = 2 then 2 else 1) ≤ (b.strand t).prv.toNat) :
    exec i s = .next { s with body := b.settle t 3 (insnBytes i) (.ok (b.postInval t scope o) none) } := by
  obtain ⟨f, hx, hl, ho⟩ := hi
  rw [hx, hr.insn_eq, hl]
  simp only [invalRes, scopeCheck, needPrv, if_neg (Nat.not_le.2 (Nat.lt_succ_of_le h2)), if_neg (Nat.not_lt.2 hp), ho]

theorem PostsInval.illegal (hi : PostsInval s t b scope i o) (hr : Runs s t i b) (h3 : 3 ≤ scope.toNat) (hp : (b.strand t).pend = false) :
    exec i s = .next { s with body := b.takeTrap t { cause := 0x01, rule := .upK, info0 := insnBytes i } (b.strand t).pc } := by
  obtain ⟨f, hx, -, -⟩ := hi
  have hres : invalRes b t scope f = .trap b trapIllegal := by simp only [invalRes, scopeCheck, if_pos h3, Machine.illegal]
  rw [hx, hr.insn_trap hres hp]
  rfl

theorem PostsInval.privileged (hi : PostsInval s t b scope i o) (hr : Runs s t i b) (h2 : scope.toNat ≤ 2)
    (hlow : (b.strand t).prv.toNat < if scope = 2 then 2 else 1) (hp : (b.strand t).pend = false) :
    exec i s = .next { s with body := b.takeTrap t { cause := 0x02, rule := .next, info0 := insnBytes i } (b.strand t).pc } := by
  obtain ⟨f, hx, -, -⟩ := hi
  have hres : invalRes b t scope f = .trap b trapPrivileged := by
    simp only [invalRes, scopeCheck, needPrv, if_neg (Nat.not_le.2 (Nat.lt_succ_of_le h2)), if_pos hlow]
  rw [hx, hr.insn_trap hres hp]
  rfl

/-- Completion of an instruction that has left the strands alone. -/
theorem settle_ok_strands {b' : Body} (s : State) (len : Nat) (bytes : W) (h : b'.strands = b.strands) :
    ({ s with body := b.settle t len bytes (.ok b' none) } : State) = finish s b' t (b.strand t) (b.seqPc t len) := by
  have hs : b'.strand t = b.strand t := by simp only [Body.strand, h]
  simp only [Body.settle, Body.modStrand, finish, hs, Body.seqPc, Strand.retire, Option.getD_none]

end

theorem Strand.tagOperand_sup {u : Strand} {rb : Reg} (h : u.prv = 2) : u.tagOperand rb =
    { part := (u.reg rb).extractLsb' 16 8, sup := (u.reg rb).getLsbD 30, asid := (u.reg rb).extractLsb' 0 16, all := (u.reg rb).getLsbD 31 } :=
  if_pos h

theorem Strand.tagOperand_low {u : Strand} {rb : Reg} (h : u.prv ≠ 2) :
    u.tagOperand rb = { part := u.part, sup := false, asid := (u.reg rb).extractLsb' 0 16, all := false } :=
  if_neg h

/-! ## Acknowledgement (R243, R361) -/

theorem execTlbiAck_core {s : State} {c : CoreId} {o : InvalOp} {rest : List InvalOp} (h : (s.body.core c).inval = o :: rest)
    (ho : s.body.owesStores c o = false) (hspan : ∀ v : StrandId, coreOf v = c → (s.body.strand v).inSpan = false) :
    exec (.tlbiAck (.core c)) s = .next { s with body := s.body.modCore c fun k => { k.inval1 o with inval := rest } } := by
  have hany : (strandsOfCore c).any (fun t => (s.body.strand t).inSpan) = false :=
    List.any_eq_false.2 fun v hv => by simp [hspan v (mem_strandsOfCore hv)]
  change onBody (ackInval (.core c)) s = _
  simp only [onBody, ackInval, h, ho, hany, Bool.or_self, Bool.false_eq_true, if_false]

/-- With no write of an engine in flight, the engines of a hub acknowledge; nothing but their translations and the debt changes. -/
theorem ackInval_engines {b : Body} {h : HubId} {o : InvalOp} {rest : List InvalOp} (hi : b.io.einval[h] = o :: rest) (hw : b.io.writes = []) :
    ∃ f : Io → Io, ackInval (.engines h) b = b.modIo f ∧ (f b.io).einval[h] = rest := by
  simp only [ackInval, hi, hw, List.any_nil, Bool.and_false, Bool.false_eq_true, if_false]
  exact ⟨_, rfl, by simp⟩

/-! ## TSYNC (R243) -/

theorem execTsync_free {s : State} {t : StrandId} {b : Body} (hr : Runs s t (.tsync t) b) (hp : 1 ≤ (b.strand t).prv.toNat)
    (h : b.owesAck t = false) : exec (.tsync t) s = .next (finish s b t (b.strand t) (b.seqPc t 3)) := by
  have hres : tsyncRes b t = .ok b none := by simp only [tsyncRes, needPrv, if_neg (Nat.not_lt.2 hp), h, Bool.false_eq_true, if_false]
  exact hr.insn_ok_same (x := fun b => tsyncRes b t) hres

theorem execTsync_owed {s : State} {t : StrandId} {b : Body} (hr : Runs s t (.tsync t) b) (hp : 1 ≤ (b.strand t).prv.toNat)
    (h : b.owesAck t = true) : exec (.tsync t) s = .next (s.withStrand b t { b.strand t with act := .tsync }) := by
  have hres : tsyncRes b t = .hold (b.modStrand t fun s => { s with act := .tsync }) := by
    simp only [tsyncRes, needPrv, if_neg (Nat.not_lt.2 hp), h, if_true]
  change insn t (.tsync t) (fun b => tsyncRes b t) false s = _
  rw [hr.insn_eq, hres]
  rfl

theorem execTsyncComplete_next {s : State} {t : StrandId} (hrun : (s.body.strand t).run = .running) (hact : (s.body.strand t).act = .tsync)
    (h : s.body.owesAck t = false) :
    exec (.tsyncComplete t) s = .next (finish s s.body t { s.body.strand t with act := .ready } (s.body.seqPc t 3)) := by
  have hwait : ((s.body.strand t).run = .running && (s.body.strand t).act = .tsync && !s.body.owesAck t) = true := by simp [hrun, hact, h]
  change execTsyncComplete t s = _
  simp only [execTsyncComplete, onBody, if_pos hwait]
  rfl

/-- Settles O24: the operands of the six forms, and the rules above. -/
theorem translationInvalidation : Obligations.TranslationInvalidation := by
  refine ⟨?_, ?_⟩
  · intro s t b scope ra rb x c h u sup v part all regime asid page tag every ops p hp hr
    have hpage : ∀ wci, page wci = vaOp t wci ra rb x u := fun wci => by
      by_cases hsup : u.prv = 2
      · simp [page, vaOp, Strand.tagOperand_sup hsup, sup, v, part, all, regime, asid, hsup]
      · simp [page, vaOp, Strand.tagOperand_low hsup, sup, v, part, all, regime, asid, hsup]
    have htag : ∀ wci, tag wci = tagOp t wci rb u := fun wci => by
      by_cases hsup : u.prv = 2
      · simp [tag, tagOp, Strand.tagOperand_sup hsup, sup, v, part, all, regime, asid, hsup]
      · simp [tag, tagOp, Strand.tagOperand_low hsup, sup, v, part, all, regime, asid, hsup]
    have hpost : PostsInval s t b scope p.1 p.2 := by
      simp only [ops, List.mem_cons, List.not_mem_nil, or_false] at hp
      rcases hp with rfl | rfl | rfl | rfl | rfl | rfl
      · exact ⟨vaOp t false ra rb x, rfl, rfl, (hpage _).symm⟩
      · exact ⟨tagOp t false rb, rfl, rfl, (htag _).symm⟩
      · exact ⟨allOp t false scope, rfl, rfl, rfl⟩
      · exact ⟨vaOp t true ra rb x, rfl, rfl, (hpage _).symm⟩
      · exact ⟨tagOp t true rb, rfl, rfl, (htag _).symm⟩
      · exact ⟨allOp t true scope, rfl, rfl, rfl⟩
    have hvia : p.2.via = none := by
      simp only [ops, List.mem_cons, List.not_mem_nil, or_false] at hp
      rcases hp with rfl | rfl | rfl | rfl | rfl | rfl <;> rfl
    refine ⟨fun h0 h1 => ?_, fun h12 hlow hs => ?_, hpost.illegal hr, hpost.privileged hr⟩
    · subst h0
      rw [hpost.done hr (by decide) h1, settle_ok_strands s 3 _ (by rw [Body.postInval_zero]; rfl), Body.postInval_zero]
    · have h0 : scope ≠ 0 := by rcases h12 with rfl | rfl <;> decide
      have h2 : scope.toNat ≤ 2 := by rcases h12 with rfl | rfl <;> decide
      obtain ⟨y, hy⟩ := b.postInval_posted t scope p.2 h0 hs
      refine ⟨b.postInval t scope p.2, ?_, ⟨_, by rw [hy.core], fun e => ?_⟩, ⟨_, hy.hub h, fun e => ?_⟩, by rw [hy.core], hy.strands,
        hy.clusters, hy.mem⟩
      · rw [hpost.done hr h2 hlow, settle_ok_strands s 3 _ hy.strands]
      · rw [if_pos e, hvia]
      · rw [if_pos e, hvia]
  · intro s t b c h o rest u
    refine ⟨fun hi ho hspan => ?_, fun hi hw => ?_, fun hr hp => ⟨execTsync_free hr hp, execTsync_owed hr hp⟩, execTsyncComplete_next⟩
    · refine ⟨_, execTlbiAck_core hi ho hspan, ?_, ?_, ?_, ?_, rfl, rfl⟩
      · rw [Body.core_modCore]
      · intro hw
        rw [Body.core_modCore]
        exact Core.inval1_tlb _ hw
      · intro hw
        rw [Body.core_modCore]
        exact Core.inval1_walk _ hw
      · rw [Body.core_modCore]
        exact Core.inval1_dtlb_keeps _ o
    · obtain ⟨f, hx, hf⟩ := ackInval_engines hi hw
      exact ⟨_, rfl, by rw [hx]; exact hf, by rw [hx]; rfl, by rw [hx]; rfl⟩

end Sys2Proof.Machine
end

section
/-! What the shared operations of the control hierarchy leave alone: records, counters, changes of mode and the freezing of the logs. -/

namespace Sys2Proof.Machine

/-! ## Records and counters -/

/-- `b'` is `b` with other silt logs and tilth counters. -/
def LogOnly (b b' : Body) : Prop := ∃ silt tilth, b' = { b with ctl := { b.ctl with silt := silt, tilth := tilth } }

theorem LogOnly.refl (b : Body) : LogOnly b b := ⟨b.ctl.silt, b.ctl.tilth, rfl⟩

theorem LogOnly.trans {a b c : Body} (h : LogOnly a b) (k : LogOnly b c) : LogOnly a c := by
  obtain ⟨_, _, rfl⟩ := h
  obtain ⟨_, _, rfl⟩ := k
  exact ⟨_, _, rfl⟩

theorem LogOnly.report (b : Body) (loc code : BitVec 16) (data : BitVec 128) : LogOnly b (b.report loc code data) := ⟨_, b.ctl.tilth, rfl⟩
theorem LogOnly.count (b : Body) (kind loc : Nat) (f : Tilth → Tilth) : LogOnly b (b.count kind loc f) := ⟨b.ctl.silt, _, rfl⟩

/-- A fold whose every step keeps a reflexive and transitive relation to its start. -/
theorem foldl_rel {α β : Type} {R : β → β → Prop} (refl : ∀ x, R x x) (trans : ∀ x y z, R x y → R y z → R x z) {f : β → α → β}
    (step : ∀ x a, R x (f x a)) (l : List α) (b : β) : R b (l.foldl f b) := by
  induction l generalizing b with
  | nil => exact refl b
  | cons a l ih => exact trans _ _ _ (step b a) (ih _)

theorem LogOnly.foldl {α : Type} {f : Body → α → Body} (step : ∀ b a, LogOnly b (f b a)) (l : List α) (b : Body) : LogOnly b (l.foldl f b) :=
  foldl_rel LogOnly.refl (fun _ _ _ => LogOnly.trans) step l b

/-! ## Changes of mode (R445, R471, R484) -/

/-- `b'` is `b` in mode `m`, with another test port, logs and counters. -/
def ModeOnly (m : Mode) (b b' : Body) : Prop :=
  ∃ port silt tilth, b' = { b with ctl := { b.ctl with mode := m, port := port, silt := silt, tilth := tilth } }

theorem Body.setMode_modeOnly (b : Body) (m : Mode) (reason : Byte) (loc : BitVec 16) : ModeOnly m b (b.setMode m reason loc) := by
  unfold Body.setMode
  extract_lets old b1 at' b2
  split
  · rename_i h
    exact ⟨b.ctl.port, b.ctl.silt, b.ctl.tilth, by rw [← h]⟩
  · obtain ⟨silt, tilth, h2⟩ : LogOnly b1 b2 := LogOnly.foldl (fun _ _ => LogOnly.report _ _ _ _) _ _
    rw [h2]
    exact ⟨_, _, _, rfl⟩

/-- The rows of R445 do not look at the mode, the test port, the logs and the counters. -/
theorem ModeOnly.exposedRows {m : Mode} {b b' : Body} (h : ModeOnly m b b') : b'.exposedRows = b.exposedRows := by
  obtain ⟨_, _, _, rfl⟩ := h
  rfl

/-- OPERATING or EXPOSED, as the rows of R445 require. -/
def Body.servingMode (b : Body) : Mode := if b.exposedRows.any id then .exposed else .operating

theorem Body.settleMode_modeOnly {b : Body} (h : b.ctl.mode = .operating ∨ b.ctl.mode = .exposed) : ModeOnly b.servingMode b b.settleMode := by
  unfold Body.settleMode
  rcases h with h | h <;> simp only [h] <;> exact b.setMode_modeOnly _ _ _

theorem Body.settleMode_mode {b : Body} (h : b.ctl.mode = .operating ∨ b.ctl.mode = .exposed) :
    b.settleMode.ctl.mode = if b.settleMode.exposedRows.any id then .exposed else .operating := by
  have hm := b.settleMode_modeOnly h
  rw [hm.exposedRows]
  obtain ⟨_, _, _, e⟩ := hm
  rw [e]
  rfl

theorem Body.leave_of_ne {b : Body} (h : b.ctl.mode ≠ .proving) (cfg : FlashCfg) (f : Body → Body) : b.leave cfg f = f b := by
  simp only [Body.leave, h, false_and, if_false]

/-! ## The freezing of the logs (R522) -/

/-- `b'` is `b` with other logs, counters and saved time. -/
def FreezeOnly (b b' : Body) : Prop :=
  ∃ silt savedTod lastSave, b' = { b with ctl := { b.ctl with silt := silt, savedTod := savedTod, lastSave := lastSave } }

theorem FreezeOnly.refl (b : Body) : FreezeOnly b b := ⟨_, _, _, rfl⟩

theorem FreezeOnly.trans {a b c : Body} (h : FreezeOnly a b) (k : FreezeOnly b c) : FreezeOnly a c := by
  obtain ⟨_, _, _, rfl⟩ := h
  obtain ⟨_, _, _, rfl⟩ := k
  exact ⟨_, _, _, rfl⟩

theorem FreezeOnly.report (b : Body) (loc code : BitVec 16) (data : BitVec 128) : FreezeOnly b (b.report loc code data) := ⟨_, _, _, rfl⟩

theorem FreezeOnly.foldl {α : Type} {f : Body → α → Body} (step : ∀ b a, FreezeOnly b (f b a)) (l : List α) (b : Body) :
    FreezeOnly b (l.foldl f b) :=
  foldl_rel FreezeOnly.refl (fun _ _ _ => FreezeOnly.trans) step l b

theorem Body.freezeSilt_freezeOnly (b : Body) (trigger : Byte) (hs : List HubId) : FreezeOnly b (b.freezeSilt trigger hs) := by
  unfold Body.freezeSilt
  extract_lets froze fresh b1 src b2 d
  have h1 : FreezeOnly b b1 := FreezeOnly.foldl (fun _ _ => ⟨_, _, _, rfl⟩) _ _
  have h2 : FreezeOnly b1 b2 := by
    simp only [b2]
    split
    · exact ⟨_, _, _, rfl⟩
    · exact .refl _
  split
  · exact (h1.trans h2).trans (FreezeOnly.foldl (fun _ _ => .report _ _ _ _) _ _)
  · exact (h1.trans h2).trans (.report _ _ _ _)

/-! ## Time -/

/-- Time does not pass the end of the counter, so the timebase of the half stands at the moment or after it. -/
theorem Body.le_tod_reach (b : Body) (h : HubId) {at' : Nat} (hat : at' < 2 ^ 64) : at' ≤ (b.reach h at').tod h := by
  have key : ∀ x : BitVec 64, at' ≤ (x + BitVec.ofNat 64 (at' - x.toNat)).toNat := fun x => by
    have := x.isLt
    rw [BitVec.toNat_add, BitVec.toNat_ofNat]
    omega
  fin_cases h <;> exact key _

/-! ## What a record adds to the log of an island (R518 to R520) -/

/-- The island's log, not frozen, has grown by up to `n` records. -/
structure SiltGrows (n : Nat) (g g' : Silt) (more : List SiltRec) : Prop where
  ring : g'.ring = g.ring ++ more
  few : more.length ≤ n
  frozen : g'.frozen = none

theorem SiltGrows.refl {g : Silt} (h : g.frozen = none) : SiltGrows 0 g g [] := ⟨by simp, by simp, h⟩

theorem SiltGrows.trans {m n : Nat} {a b c : Silt} {x y : List SiltRec} (h : SiltGrows m a b x) (k : SiltGrows n b c y) :
    SiltGrows (m + n) a c (x ++ y) :=
  ⟨by rw [k.ring, h.ring, List.append_assoc], by have := h.few; have := k.few; simp; omega, k.frozen⟩

/-- A log that is not frozen and has room takes a record. -/
theorem Silt.push_grows {g : Silt} (hf : g.frozen = none) (hn : g.ring.length < 65536) (r : SiltRec) (n : Nat) :
    SiltGrows 1 g { g.push r with count := n } [r] := by
  refine ⟨?_, by simp, ?_⟩ <;> simp [Silt.push, Silt.pushRing, hf, hn]

/-- Does an island take records? -/
def Body.logs (b : Body) (i : HubId) : Bool := (b.ctl.islands[i]).powered && !(b.ctl.islands[i]).failed

/-- An island is at most once among those that receive an event. -/
theorem Body.siltTargets_nodup (b : Body) (h : HubId) : ((b.siltTargets h).map (·.1)).Nodup := by
  unfold Body.siltTargets
  extract_lets live
  split
  · split <;> simp
  · split
    · simp only [List.map_map, Function.comp_def, List.map_id']
      exact List.Nodup.filter _ (by decide)
    · simp only [List.map_map, Function.comp_def, List.map_id']
      exact List.Nodup.filter _ (by decide)

theorem Body.mem_siltTargets {b : Body} (hs : b.isSplit = false) (hl : b.ctl.islandLink = true) {i : HubId} (hi : b.logs i = true) (h : HubId) :
    (i, b.ctl.steering) ∈ b.siltTargets h := by
  unfold Body.siltTargets
  simp only [hs, hl, Bool.false_eq_true, if_false, if_true, List.mem_map, List.mem_filter]
  exact ⟨i, ⟨by fin_cases i <;> simp, hi⟩, rfl⟩

/-- Changing the elements that a list names, each at most once. -/
theorem foldl_set_getElem {α β : Type} (F : β → α → α) (ts : List (Fin 2 × β)) (hn : (ts.map (·.1)).Nodup) (v : Vector α 2) (i : Fin 2) :
    (∃ a, (i, a) ∈ ts ∧ (ts.foldl (fun v e => v.set e.1 (F e.2 v[e.1])) v)[i] = F a v[i]) ∨
      (∀ a, (i, a) ∉ ts) ∧ (ts.foldl (fun v e => v.set e.1 (F e.2 v[e.1])) v)[i] = v[i] := by
  induction ts generalizing v with
  | nil => exact .inr ⟨by simp, rfl⟩
  | cons e ts ih =>
    obtain ⟨j, c⟩ := e
    obtain ⟨hj, hts⟩ := List.nodup_cons.1 hn
    rw [List.foldl_cons]
    by_cases hij : i = j
    · subst hij
      have hout : ∀ a, (i, a) ∉ ts := fun a ha => hj (List.mem_map.2 ⟨_, ha, rfl⟩)
      rcases ih hts (v.set i (F c v[i])) with ⟨a, ha, -⟩ | ⟨-, h⟩
      · exact absurd ha (hout a)
      · exact .inl ⟨c, by simp, by rw [h]; simp⟩
    · have hne : j.val ≠ i.val := fun h => hij (Fin.ext h.symm)
      have hset : (v.set j (F c v[j]))[i] = v[i] := by
        simp only [Fin.getElem_fin, Vector.getElem_set_ne (h := hne)]
      rcases ih hts (v.set j (F c v[j])) with ⟨a, ha, h⟩ | ⟨hout, h⟩
      · exact .inl ⟨a, by simp [ha], by rw [h, hset]⟩
      · exact .inr ⟨fun a ha => by simp [hij, hout a] at ha, by rw [h, hset]⟩

/-- A record of an event goes to the log of every island that takes records, when the islands are linked outside SPLIT. -/
theorem Body.report_grows (b : Body) (loc code : BitVec 16) (data : BitVec 128) (i : HubId) (hf : (b.ctl.silt[i]).frozen = none)
    (hn : (b.ctl.silt[i]).ring.length < 65536) :
    ∃ n ≤ 1, ∃ more, SiltGrows n (b.ctl.silt[i]) ((b.report loc code data).ctl.silt[i]) more ∧
      (b.isSplit = false → b.ctl.islandLink = true → b.logs i = true → ∃ r ∈ more, r.loc = loc ∧ r.code = code ∧ r.data = data) := by
  unfold Body.report
  extract_lets h ts top rec' silt
  rcases foldl_set_getElem (fun a g => { g.push (rec' a) with count := top a + 1 }) ts (b.siltTargets_nodup h) b.ctl.silt i with
    ⟨a, -, e⟩ | ⟨hout, e⟩
  · refine ⟨1, le_rfl, [rec' a], ?_, fun _ _ _ => ⟨rec' a, by simp, rfl, rfl, rfl⟩⟩
    change SiltGrows 1 _ (silt[i]) _
    rw [show silt[i] = _ from e]
    exact Silt.push_grows hf hn _ _
  · refine ⟨0, by omega, [], ?_, fun hs hl hi => absurd (Body.mem_siltTargets hs hl hi h) (hout _)⟩
    change SiltGrows 0 _ (silt[i]) _
    rw [show silt[i] = _ from e]
    exact .refl hf

/-- A change of mode other than to SPLIT adds at most one record. -/
theorem Body.setMode_grows (b : Body) {m : Mode} (hm : m ≠ .split) (reason : Byte) (loc : BitVec 16) (i : HubId)
    (hf : (b.ctl.silt[i]).frozen = none) (hn : (b.ctl.silt[i]).ring.length < 65536) :
    ∃ n ≤ 1, ∃ more, SiltGrows n (b.ctl.silt[i]) ((b.setMode m reason loc).ctl.silt[i]) more := by
  unfold Body.setMode
  extract_lets old b1 at' b2
  split
  · exact ⟨0, by omega, [], .refl hf⟩
  · obtain ⟨n, hn1, more, h, -⟩ := b1.report_grows (islandLoc b.ctl.steering) 0x0101
      (dataOf [(1, modeCode old), (1, modeCode m), (1, halfCode (b1.halfOf b.ctl.steering)), (1, reason.toNat), (2, loc.toNat)]) i hf hn
    have h2 : b2.ctl.silt = (b1.report (islandLoc b.ctl.steering) 0x0101
      (dataOf [(1, modeCode old), (1, modeCode m), (1, halfCode (b1.halfOf b.ctl.steering)), (1, reason.toNat), (2, loc.toNat)])).ctl.silt := by
      simp only [b2, at', if_neg hm]
      rfl
    refine ⟨n, hn1, more, ?_⟩
    change SiltGrows n _ (b2.ctl.silt[i]) more
    rw [h2]
    exact h

theorem Body.settleMode_grows (b : Body) (i : HubId) (hf : (b.ctl.silt[i]).frozen = none) (hn : (b.ctl.silt[i]).ring.length < 65536) :
    ∃ n ≤ 1, ∃ more, SiltGrows n (b.ctl.silt[i]) (b.settleMode.ctl.silt[i]) more := by
  have key := fun m hm => b.setMode_grows (m := m) hm 0 0xFFFF i hf hn
  unfold Body.settleMode
  split
  · exact key _ (by split <;> decide)
  · exact key _ (by split <;> decide)
  · exact ⟨0, by omega, [], .refl hf⟩

/-- An event that is recorded before the mode is settled: `b1` is the state in which it is recorded, `b2` the one that is settled. -/
theorem recorded_settleMode {b b1 b2 : Body} {loc code : BitVec 16} {data : BitVec 128} (hsilt : b1.ctl.silt = b.ctl.silt)
    (hmode : b1.ctl.mode = b.ctl.mode) (hlink : b1.ctl.islandLink = b.ctl.islandLink) (hisl : b1.ctl.islands = b.ctl.islands)
    (h2 : b2.ctl.silt = (b1.report loc code data).ctl.silt) (i : HubId) : Recorded b b2.settleMode i loc code data := by
  intro hs hl hp hfl hfr hlen
  obtain ⟨n, hn, more, hg, hr⟩ := b1.report_grows loc code data i (by rw [hsilt]; exact hfr) (by rw [hsilt]; omega)
  rw [← h2, hsilt] at hg
  have hroom : (b2.ctl.silt[i]).ring.length < 65536 := by
    have := hg.few
    rw [hg.ring, List.length_append]
    omega
  obtain ⟨m, hm, more', hg'⟩ := b2.settleMode_grows i hg.frozen hroom
  obtain ⟨r, hr, hrec⟩ := hr (by simpa only [Body.isSplit, hmode] using hs) (by rw [hlink]; exact hl) (by simp only [Body.logs, hisl, hp, hfl]; rfl)
  exact ⟨more ++ more', (hg.trans hg').ring, r, List.mem_append_left _ hr, hrec⟩

end Sys2Proof.Machine
end

section
/-! The bridge's bundles and the feeds (R15, R16, R439 to R445). -/

namespace Sys2Proof.Machine

section
variable {s : State} {n : BundleId} {f : FeedId}

/-- OPERATING or EXPOSED. -/
def Body.up (b : Body) : Prop := b.ctl.mode = .operating ∨ b.ctl.mode = .exposed

theorem Body.up.ne_proving {b : Body} (h : b.up) : b.ctl.mode ≠ .proving := by
  rcases h with h | h <;> rw [h] <;> decide
theorem Body.up.ne_standby {b : Body} (h : b.up) : b.ctl.mode ≠ .standby := by
  rcases h with h | h <;> rw [h] <;> decide
theorem Body.up.ne_split {b : Body} (h : b.up) : b.isSplit = false := by
  unfold Body.isSplit
  rcases h with h | h <;> rw [h] <;> decide

theorem coverLate_of_ne {b : Body} (h : b.ctl.mode ≠ .proving) : b.coverLate = b := by
  simp only [Body.coverLate, h, false_and, if_false]

/-- Outside PROVING, a command that may end it acts by its function alone. -/
theorem onProving_next {s : State} (h : s.body.ctl.mode ≠ .proving) (g : Body → Body) : onProving g s = .next { s with body := g s.body } := by
  rw [onProving, onBody_next, Body.leave_of_ne h]

/-! ## Bundles -/

/-- A bundle, a feed or a hub is one of two. -/
theorem two_cases (n : Fin 2) : n = 0 ∨ n = 1 := by omega

/-- The bundle beside another one. -/
def otherBundle (n : BundleId) : BundleId := if n = 0 then 1 else 0

/-- With one bundle up, it carries every transfer (R15, R16). -/
theorem Body.bundleFor_one {b : Body} {n : BundleId} (hn : b.ctl.bundles[n] = false) (ho : b.ctl.bundles[otherBundle n] = true)
    (l : Option Line) : b.bundleFor l = some (otherBundle n) := by
  have h0 := two_cases n
  unfold Body.bundleFor
  extract_lets up m o
  have hm := two_cases m
  rcases h0 with rfl | rfl <;> rcases hm with hm | hm <;> simp [up, o, hm, otherBundle] at hn ho ⊢ <;> simp [hn, ho]

/-- A bundle that is down makes the module EXPOSED (R445). -/
theorem Body.exposedRows_of_bundle {b : Body} {n : BundleId} (h : b.ctl.bundles[n] = false) : b.exposedRows.any id = true := by
  have h0 := two_cases n
  rcases h0 with rfl | rfl <;> simp [Body.exposedRows] at h ⊢ <;> simp [h]

/-- The bundle is down, and no test traffic runs on it. -/
def Body.bundleDown (b : Body) (n : BundleId) : Body :=
  b.modCtl fun c => { c with bundles := c.bundles.set n false, bundleTest := c.bundleTest.set n none }

/-- The loss of a bundle is recorded and counted. -/
def Body.bundleLogged (b : Body) (n : BundleId) : Body :=
  ([0, 1] : List HubId).foldl (fun (b : Body) h => (b.count 8 (bundleLoc h n).toNat Tilth.event).stampUnit 8 (bundleLoc h n))
    (b.report (bundleLoc b.ctl.steering n) 0x0504 (dataOf [(1, n.val)]))

/-- What follows the loss of a bundle: the coverage decision, SPLIT, or the other bundle carries on. -/
def Body.afterBundle (b : Body) (n : BundleId) : Body :=
  if b.ctl.mode = .proving then b.coverLate
  else if b.serving && !(b.ctl.bundles[(0 : BundleId)] || b.ctl.bundles[(1 : BundleId)]) && b.ctl.lostHubs.isEmpty then b.enterSplit
  else (b.reissueBridge n).settleMode

theorem Body.bundleLogged_logOnly (b : Body) (n : BundleId) : LogOnly b (b.bundleLogged n) :=
  (LogOnly.report _ _ _ _).trans (LogOnly.foldl (fun _ _ => (LogOnly.count _ _ _ _).trans (LogOnly.count _ _ _ _)) _ _)

/-- A transfer that a lost bundle carried goes on the other one. -/
def rerouted (n : BundleId) (x : Option Crossing) : Option Crossing := x.map (Crossing.reissue n)

theorem Body.reissueBridge_mem (b : Body) (n : BundleId) : (b.reissueBridge n).mem = { b.mem with
    reqs := b.mem.reqs.map fun r => { r with via := rerouted n r.via }
    departing := b.mem.departing.map fun d => { d with via := rerouted n d.via } } := by
  simp only [Body.reissueBridge, Body.modIo_mem, Body.mapCores_mem, Body.modMem_mem, rerouted]

/-- What the loss of a bundle leaves while the other one is up (R15, R16, R439). -/
theorem execBundleLost_next (hup : s.body.up) (hn : s.body.ctl.bundles[n] = true) (ho : s.body.ctl.bundles[otherBundle n] = true) :
    exec (.bundleLost n) s = .next { s with body := (((s.body.bundleDown n).bundleLogged n).reissueBridge n).settleMode } := by
  have hone : ((((s.body.bundleDown n).bundleLogged n).ctl.bundles[(0 : BundleId)]) ||
      (((s.body.bundleDown n).bundleLogged n).ctl.bundles[(1 : BundleId)])) = true := by
    obtain ⟨silt, tilth, e⟩ := (s.body.bundleDown n).bundleLogged_logOnly n
    have h0 := two_cases n
    rw [e]
    rcases h0 with rfl | rfl <;> simp [otherBundle] at ho <;> simp [Body.bundleDown, ho]
  have hmode : ((s.body.bundleDown n).bundleLogged n).ctl.mode ≠ .proving := by
    obtain ⟨silt, tilth, e⟩ := (s.body.bundleDown n).bundleLogged_logOnly n
    rw [e]
    exact hup.ne_proving
  have heq : exec (.bundleLost n) s = onProving (fun b => if b.ctl.mode = .standby then b else if !b.ctl.bundles[n] then
      b.modCtl fun c => { c with bundleTest := c.bundleTest.set n none, bundleReady := c.bundleReady.set n false }
    else ((b.bundleDown n).bundleLogged n).afterBundle n) s := rfl
  rw [heq, onProving_next hup.ne_proving, if_neg hup.ne_standby, hn]
  simp only [Bool.not_true, Bool.false_eq_true, if_false, Body.afterBundle, if_neg hmode, hone, Bool.and_false, Bool.false_and]

theorem bundleRetrain_next (h1 : s.body.ctl.mode ≠ .standby) (h2 : s.body.ctl.bundles[n] = false) (h3 : s.body.ctl.lostHubs = []) (ok : Bool) :
    exec (.bundleRetrain n ok) s = .next { s with body := s.body.modCtl fun c => { c with
      bundleTest := c.bundleTest.set n (if ok then some ((c.bundleTest[n]).getD s.body.now) else none) } } := by
  change execBundleRetrain n ok s = _
  simp only [execBundleRetrain, onBody_next, h1, h2, h3, decide_false, List.isEmpty_nil, Bool.not_true, Bool.or_self, Bool.false_eq_true, if_false]

/-- A bundle is up again, its test traffic at an end, at 10 s or later of it. -/
def Body.bundleUp (b : Body) (n : BundleId) (t : Nat) : Body :=
  (b.reach b.ctl.steering (t + 10000000000)).modCtl fun c => { c with bundles := c.bundles.set n true, bundleTest := c.bundleTest.set n none }

/-- The readmission of a bundle is recorded. -/
def Body.bundleUpLogged (b : Body) (n : BundleId) : Body :=
  ([0, 1] : List HubId).foldl (fun (b : Body) h => b.stampUnit 8 (bundleLoc h n)) (b.report (bundleLoc b.ctl.steering n) 0x0505 (dataOf [(1, n.val)]))

theorem Body.bundleUpLogged_logOnly (b : Body) (n : BundleId) : LogOnly b (b.bundleUpLogged n) :=
  (LogOnly.report _ _ _ _).trans (LogOnly.foldl (fun _ _ => LogOnly.count _ _ _ _) _ _)

theorem bundleReadmitted_next (hup : s.body.up) {t : Nat} (ht : s.body.ctl.bundleTest[n] = some t) (hn : s.body.ctl.bundles[n] = false) :
    exec (.bundleReadmitted n) s = .next { s with body := ((s.body.bundleUp n t).bundleUpLogged n).settleMode } := by
  change execBundleReadmitted n s = _
  simp only [execBundleReadmitted, onBody_next, ht, hup.ne_split, hup.ne_standby, hn, decide_false, Bool.or_self, Bool.false_eq_true, if_false]
  rfl

theorem bundleReadmitted_none (ht : s.body.ctl.bundleTest[n] = none) : exec (.bundleReadmitted n) s = .next s := by
  change execBundleReadmitted n s = _
  simp only [execBundleReadmitted, onBody_next, ht]

/-! ## Feeds -/

/-- The other feed. -/
def otherFeed (f : FeedId) : FeedId := if f = 0 then 1 else 0

theorem feed_modFeed_self (b : Body) (f : FeedId) (g : Feed → Feed) : (b.modFeed f g).ctl.feeds[f] = g (b.ctl.feeds[f]) := by
  simp [Body.modFeed]

theorem feed_modFeed_ne (b : Body) {f e : FeedId} (h : e ≠ f) (g : Feed → Feed) : (b.modFeed f g).ctl.feeds[e] = b.ctl.feeds[e] := by
  have : f.val ≠ e.val := fun x => h (Fin.ext x.symm)
  simp only [Body.modFeed, Body.modCtl_ctl, Fin.getElem_fin, Vector.getElem_set_ne (h := this)]

theorem ModeOnly.feeds {m : Mode} {b b' : Body} (h : ModeOnly m b b') : b'.ctl.feeds = b.ctl.feeds := by
  obtain ⟨_, _, _, rfl⟩ := h
  rfl

theorem Body.up.settle {b : Body} (h : b.up) : b.settleMode.up := by
  unfold Body.up
  rw [b.settleMode_mode h]
  split <;> simp

/-- Feed `f` is lost and the other one is admitted, OPERATING or EXPOSED. -/
structure FeedLost (b : Body) (f : FeedId) : Prop where
  up : b.up
  lost : (b.ctl.feeds[f]).admitted = false
  other : (b.ctl.feeds[otherFeed f]).admitted = true

theorem otherFeed_ne (f : FeedId) : otherFeed f ≠ f := by
  rcases two_cases f with rfl | rfl <;> decide

/-- The loss of a feed beside an admitted one leaves the other one (R440). -/
theorem loseFeed_lost {b : Body} (hup : b.up) {f : FeedId} (hf : (b.ctl.feeds[f]).admitted = true)
    (he : (b.ctl.feeds[otherFeed f]).admitted = true) (cause : Byte) (flagged : Nat) : FeedLost (b.loseFeed f cause flagged) f := by
  unfold Body.loseFeed
  extract_lets b1 b2 b3
  have h3 : FreezeOnly b1 b3 := (FreezeOnly.report _ _ _ _).trans (Body.freezeSilt_freezeOnly _ _ _)
  have hfeeds : b3.ctl.feeds = b1.ctl.feeds := by obtain ⟨_, _, _, e⟩ := h3; rw [e]
  have hup3 : b3.up := by obtain ⟨_, _, _, e⟩ := h3; rw [e]; exact hup
  have hother : (b3.ctl.feeds[otherFeed f]).admitted = true := by rw [hfeeds, feed_modFeed_ne _ (otherFeed_ne f)]; exact he
  have hlost : (b3.ctl.feeds[f]).admitted = false := by rw [hfeeds, feed_modFeed_self]
  have hany : (([0, 1] : List FeedId).any fun g => (b3.ctl.feeds[g]).admitted) = true :=
    List.any_eq_true.2 ⟨otherFeed f, by rcases two_cases (otherFeed f) with e | e <;> simp [e], hother⟩
  rw [hf, if_neg (by decide), if_pos hany]
  have hm := Body.settleMode_modeOnly hup3
  exact ⟨hup3.settle, by rw [hm.feeds]; exact hlost, by rw [hm.feeds]; exact hother⟩

/-- Of two admitted feeds, the one that fails alone is lost. -/
theorem failFeeds_lost {b : Body} (hup : b.up) {f : FeedId} (hf : (b.ctl.feeds[f]).admitted = true)
    (he : (b.ctl.feeds[otherFeed f]).admitted = true) (cause : Byte) : FeedLost (b.failFeeds (decide (f = 0)) (decide (f = 1)) cause) f := by
  have h := fun flagged => loseFeed_lost hup hf he cause flagged
  rcases two_cases f with rfl | rfl
  · have hb : b.failFeeds true false cause = (b.loseFeed 0 cause (b.ctl.feeds[(0 : FeedId)]).flagged).coverLate := by
      simp only [Body.failFeeds, Body.admitted, hf, Bool.and_self, Bool.false_and, Bool.and_false, Bool.false_eq_true, if_true, if_false]
    change FeedLost (b.failFeeds true false cause) 0
    rw [hb, coverLate_of_ne (h _).up.ne_proving]
    exact h _
  · have hb : b.failFeeds false true cause = (b.loseFeed 1 cause (b.ctl.feeds[(1 : FeedId)]).flagged).coverLate := by
      simp only [Body.failFeeds, Body.admitted, hf, Bool.and_self, Bool.false_and, Bool.false_eq_true, if_true, if_false]
    change FeedLost (b.failFeeds false true cause) 1
    rw [hb, coverLate_of_ne (h _).up.ne_proving]
    exact h _

theorem failFeeds_none (b : Body) (cause : Byte) : b.failFeeds false false cause = b := by
  simp [Body.failFeeds]

/-- The flagged phases of a window are those of its pairs (R440). -/
def Body.flag (b : Body) (x y : Nat) : Body := (b.modFeed 0 fun e => { e with flagged := x }).modFeed 1 fun e => { e with flagged := y }

theorem feed_flag_zero (b : Body) (x y : Nat) : (b.flag x y).ctl.feeds[(0 : FeedId)] = { b.ctl.feeds[(0 : FeedId)] with flagged := x } := by
  simp [Body.flag, Body.modFeed]

theorem feed_flag_one (b : Body) (x y : Nat) : (b.flag x y).ctl.feeds[(1 : FeedId)] = { b.ctl.feeds[(1 : FeedId)] with flagged := y } := by
  simp [Body.flag, Body.modFeed]

theorem admitted_flag (b : Body) (x y : Nat) (f : FeedId) : ((b.flag x y).ctl.feeds[f]).admitted = (b.ctl.feeds[f]).admitted := by
  rcases two_cases f with rfl | rfl
  · rw [feed_flag_zero]
  · rw [feed_flag_one]

theorem feedCurrentWindow_next (hup : s.body.up) {x y : Fin 97} (hxy : x.val + y.val ≤ 96) : exec (.feedCurrentWindow x y) s =
    .next { s with body := (s.body.flag x.val y.val).failFeeds (24 ≤ x.val) (24 ≤ y.val) 1 } := by
  change execFeedCurrentWindow x y s = _
  unfold execFeedCurrentWindow
  rw [onProving_next hup.ne_proving]
  simp only [hup.ne_standby, Nat.not_lt.2 hxy, decide_false, Bool.or_self, Bool.false_eq_true, if_false]
  rfl

/-- Feed proving has begun, 60 s after the one before (R441). -/
def Body.proveFeeds (b : Body) : Body := (b.reach b.ctl.steering (b.ctl.lastProve.toNat + 60000000000)).fedProved

theorem feedProving_next (hup : s.body.up) (hst : s.body.stewardsUp = true) (hf : (s.body.ctl.feeds[f]).admitted = true)
    (he : (s.body.ctl.feeds[otherFeed f]).admitted = true) (passA passB : Bool) : exec (.feedProving passA passB) s =
    .next { s with body := s.body.proveFeeds.failFeeds (!passA) (!passB) 2 } := by
  have hboth : s.body.admitted 0 = true ∧ s.body.admitted 1 = true := by
    rcases two_cases f with rfl | rfl
    · exact ⟨hf, he⟩
    · exact ⟨he, hf⟩
  change execFeedProving passA passB s = _
  unfold execFeedProving
  rw [onProving_next hup.ne_proving]
  simp only [hup.ne_standby, hst, hboth.1, hboth.2, decide_false, Bool.not_true, Bool.or_self, Bool.false_eq_true, if_false]
  rfl

theorem feedAdmitted_next (hup : s.body.up) (hp : (s.body.ctl.feeds[f]).present = true) (hc : (s.body.ctl.feeds[f]).closed = true)
    (ha : (s.body.ctl.feeds[f]).admitted = false) (pass : Bool) : exec (.feedAdmitted f pass) s = .next { s with body :=
      if pass then
        ((s.body.fedProved.modFeed f fun y => { y with admitted := true }).report s.body.moduleLoc 0x0103 (dataOf [(1, f.val)])).settleMode
      else (s.body.fedProved.report s.body.moduleLoc 0x0102 (dataOf [(1, f.val), (1, 2), (2, (s.body.ctl.feeds[f]).flagged)])).freezeSilt 2 } := by
  change execFeedAdmitted f pass s = _
  simp only [execFeedAdmitted, onBody_next, hup.ne_standby, hp, hc, ha, decide_false, Bool.not_true, Bool.or_self, Bool.false_eq_true, if_false]
  rfl

theorem feedAdmitted_self (ha : (s.body.ctl.feeds[f]).admitted = true) (pass : Bool) : exec (.feedAdmitted f pass) s = .next s := by
  change execFeedAdmitted f pass s = _
  simp only [execFeedAdmitted, onBody_next, ha, Bool.or_true, if_true]

/-! ## What each event leaves -/

theorem bundleLogged_silt (b : Body) (n : BundleId) :
    (b.bundleLogged n).ctl.silt = (b.report (bundleLoc b.ctl.steering n) 0x0504 (dataOf [(1, n.val)])).ctl.silt := rfl

theorem bundleUpLogged_silt (b : Body) (n : BundleId) :
    (b.bundleUpLogged n).ctl.silt = (b.report (bundleLoc b.ctl.steering n) 0x0505 (dataOf [(1, n.val)])).ctl.silt := rfl

/-- The state after the loss of bundle `n` beside the other one. -/
structure BundleLost (b b' : Body) (n : BundleId) : Prop where
  strands : b'.strands = b.strands
  down : b'.ctl.bundles[n] = false
  other : b'.ctl.bundles[otherBundle n] = true
  mode : b'.ctl.mode = .exposed
  mem : b'.mem = { b.mem with
    reqs := b.mem.reqs.map fun r => { r with via := rerouted n r.via }
    departing := b.mem.departing.map fun d => { d with via := rerouted n d.via } }
  recorded : ∀ i, Recorded b b' i (bundleLoc b.ctl.steering n) 0x0504 (dataOf [(1, n.val)])

theorem bundleLost_spec {b : Body} (hup : b.up) (ho : b.ctl.bundles[otherBundle n] = true) :
    BundleLost b ((((b.bundleDown n).bundleLogged n).reissueBridge n).settleMode) n := by
  obtain ⟨silt, tilth, hlog⟩ := (b.bundleDown n).bundleLogged_logOnly n
  have hsilt := bundleLogged_silt (b.bundleDown n) n
  have hctl := ((b.bundleDown n).bundleLogged n).reissueBridge_ctl n
  have hstrands : (((b.bundleDown n).bundleLogged n).reissueBridge n).strands = b.strands := by
    rw [Body.reissueBridge_strands, hlog]
    rfl
  have hmem : (((b.bundleDown n).bundleLogged n).reissueBridge n).mem = { b.mem with
      reqs := b.mem.reqs.map fun r => { r with via := rerouted n r.via }
      departing := b.mem.departing.map fun d => { d with via := rerouted n d.via } } := by
    rw [Body.reissueBridge_mem, hlog]
    rfl
  have hdown : ((b.bundleDown n).bundleLogged n).ctl.bundles[n] = false := by rw [hlog]; simp [Body.bundleDown]
  have hother : ((b.bundleDown n).bundleLogged n).ctl.bundles[otherBundle n] = true := by
    have hne : n.val ≠ (otherBundle n).val := by rcases two_cases n with e | e <;> subst e <;> decide
    rw [hlog]
    simpa only [Body.bundleDown, Body.modCtl_ctl, Fin.getElem_fin, Vector.getElem_set_ne (h := hne)] using ho
  have hup2 : (((b.bundleDown n).bundleLogged n).reissueBridge n).up := by
    unfold Body.up
    rw [hctl, hlog]
    exact hup
  have hmode : (((b.bundleDown n).bundleLogged n).reissueBridge n).servingMode = .exposed :=
    if_pos (Body.exposedRows_of_bundle (n := n) (by rw [hctl]; exact hdown))
  have hrec := fun i => recorded_settleMode (b := b) (b1 := b.bundleDown n) (b2 := ((b.bundleDown n).bundleLogged n).reissueBridge n)
    (loc := bundleLoc b.ctl.steering n) rfl rfl rfl rfl (by rw [hctl]; exact hsilt) i
  have hm := Body.settleMode_modeOnly hup2
  rw [hmode] at hm
  obtain ⟨port, silt', tilth', hm⟩ := hm
  refine ⟨?_, ?_, ?_, by rw [hm], ?_, hrec⟩
  · rw [hm]
    exact hstrands
  · rw [hm]
    exact (congrArg (fun c : Ctl => c.bundles[n]) hctl).trans hdown
  · rw [hm]
    exact (congrArg (fun c : Ctl => c.bundles[otherBundle n]) hctl).trans hother
  · rw [hm]
    exact hmem

/-- The state after the readmission of bundle `n`. -/
structure BundleReadmitted (b b' : Body) (n : BundleId) (t : Nat) : Prop where
  strands : b'.strands = b.strands
  mem : b'.mem = b.mem
  up : b'.ctl.bundles[n] = true
  time : t + 10000000000 ≤ b'.tod b.ctl.steering
  mode : b'.ctl.mode = if b'.exposedRows.any id then .exposed else .operating
  recorded : ∀ i, Recorded b b' i (bundleLoc b.ctl.steering n) 0x0505 (dataOf [(1, n.val)])

theorem bundleReadmitted_spec {b : Body} (hup : b.up) {t : Nat} (ht : t + 10000000000 < 2 ^ 64) :
    BundleReadmitted b (((b.bundleUp n t).bundleUpLogged n).settleMode) n t := by
  obtain ⟨silt, tilth, hlog⟩ := (b.bundleUp n t).bundleUpLogged_logOnly n
  have hup2 : ((b.bundleUp n t).bundleUpLogged n).up := by rw [hlog]; exact hup
  have hrec := fun i => recorded_settleMode (b := b) (b1 := b.bundleUp n t) (b2 := (b.bundleUp n t).bundleUpLogged n)
    (loc := bundleLoc b.ctl.steering n) rfl rfl rfl rfl (bundleUpLogged_silt _ n) i
  have hmode := Body.settleMode_mode hup2
  obtain ⟨port, silt', tilth', hm⟩ := Body.settleMode_modeOnly hup2
  refine ⟨?_, ?_, ?_, ?_, hmode, hrec⟩
  · rw [hm, hlog]; rfl
  · rw [hm, hlog]; rfl
  · rw [hm, hlog]; simp [Body.bundleUp]
  · rw [hm, hlog]; exact b.le_tod_reach _ ht

/-- The feed is admitted, and that is recorded. -/
def Body.feedUp (b : Body) (f : FeedId) : Body :=
  (b.fedProved.modFeed f fun y => { y with admitted := true }).report b.moduleLoc 0x0103 (dataOf [(1, f.val)])

/-- The state after the admission of feed `f`. -/
structure FeedUp (b b' : Body) (f : FeedId) : Prop where
  strands : b'.strands = b.strands
  mem : b'.mem = b.mem
  up : (b'.ctl.feeds[f]).admitted = true
  mode : b'.ctl.mode = if b'.exposedRows.any id then .exposed else .operating
  recorded : ∀ i, Recorded b b' i b.moduleLoc 0x0103 (dataOf [(1, f.val)])

theorem feedUp_spec {b : Body} (hup : b.up) : FeedUp b (b.feedUp f).settleMode f := by
  have hadm : ((b.feedUp f).ctl.feeds[f]).admitted = true :=
    congrArg Feed.admitted (feed_modFeed_self b.fedProved f fun y => { y with admitted := true })
  have hup2 : (b.feedUp f).up := hup
  have hrec := fun i => recorded_settleMode (b := b) (b1 := b.fedProved.modFeed f fun y => { y with admitted := true }) (b2 := b.feedUp f)
    (loc := b.moduleLoc) rfl rfl rfl rfl rfl i
  have hmode := Body.settleMode_mode hup2
  have hm := Body.settleMode_modeOnly hup2
  refine ⟨?_, ?_, by rw [hm.feeds]; exact hadm, hmode, hrec⟩
  · obtain ⟨_, _, _, e⟩ := hm; rw [e]; rfl
  · obtain ⟨_, _, _, e⟩ := hm; rw [e]; rfl

end

/-- Settles O48: each event by its equation, what it leaves by the frames of the log and of the mode. -/
theorem bundlesAndFeeds : Obligations.BundlesAndFeeds := by
  intro s n f b o e gives settled rerouted' hup
  refine ⟨?_, ?_, ?_, ?_, ?_, ?_, ?_, ?_⟩
  · intro hn ho
    have h := bundleLost_spec (n := n) hup ho
    refine ⟨_, execBundleLost_next hup hn ho, ?_, ?_, ?_, ?_, ?_, ?_, ?_⟩
    · exact h.strands
    · exact h.down
    · exact h.other
    · exact h.mode
    · exact h.mem
    · exact Body.bundleFor_one h.down h.other
    · exact h.recorded
  · intro hn hl
    have h2 := bundleRetrain_next (n := n) (Body.up.ne_standby hup) hn hl
    refine ⟨fun ht => ⟨_, h2 true, rfl, rfl, ?_, rfl⟩, ⟨_, h2 false, rfl, rfl, ?_, rfl⟩, fun t ht hlt => ?_⟩
    · simp only [b, Fin.getElem_fin] at ht
      simp [ht, b, Body.now]
    · simp
    · have h := bundleReadmitted_spec (n := n) hup hlt
      refine ⟨_, bundleReadmitted_next hup ht hn, ?_, ?_, ?_, ?_, ?_, ?_⟩
      · exact h.strands
      · exact h.mem
      · exact h.up
      · exact h.time
      · exact h.mode
      · exact h.recorded
  · exact bundleReadmitted_none
  · intro x y hxy hx hy
    refine ⟨_, feedCurrentWindow_next hup hxy, ?_⟩
    simp only [Nat.not_le.2 hx, Nat.not_le.2 hy, decide_false, failFeeds_none]
    exact ⟨rfl, rfl, by rw [feed_flag_zero], by rw [feed_flag_one], admitted_flag .., admitted_flag .., rfl⟩
  · intro x y hxy hx hy hf he
    refine ⟨_, feedCurrentWindow_next hup hxy, ?_⟩
    simp only [hx, hy]
    have h := failFeeds_lost (b := s.body.flag x.val y.val) (f := f) hup (by rw [admitted_flag]; exact hf) (by rw [admitted_flag]; exact he) 1
    exact ⟨h.lost, h.other⟩
  · intro hst hf he hlt
    have h2 := feedProving_next hup hst hf he
    refine ⟨⟨_, h2 true true, ?_⟩, ⟨_, h2 _ _, ?_⟩⟩
    · simp only [Bool.not_true, failFeeds_none]
      exact ⟨rfl, rfl, rfl, s.body.le_tod_reach _ hlt⟩
    · have h := failFeeds_lost (b := s.body.proveFeeds) (f := f) hup hf he 2
      simp only [ne_eq, decide_not, Bool.not_not]
      exact ⟨h.lost, h.other⟩
  · intro hp hc ha
    have h := feedUp_spec (f := f) hup
    refine ⟨⟨_, feedAdmitted_next hup hp hc ha true, h.strands, h.mem, h.up, h.mode, h.recorded⟩, ⟨_, feedAdmitted_next hup hp hc ha false, ?_⟩⟩
    obtain ⟨_, _, _, e⟩ := (b.fedProved.report b.moduleLoc 0x0102
      (dataOf [(1, f.val), (1, 2), (2, (b.ctl.feeds[f]).flagged)])).freezeSilt_freezeOnly 2 [0, 1]
    exact (congrArg (fun x : Body => (x.ctl.feeds[f]).admitted) e).trans ha
  · exact fun ha pass => feedAdmitted_self ha pass

end Sys2Proof.Machine
end

section
/-! Supplies, start attempts and the steps of PROVING (R33, R472 to R477). -/

namespace Sys2Proof.Machine

/-! ## Rails and domains (R33, R34) -/

/-- `b'` is `b` with other domains. -/
def DomainsOnly (b b' : Body) : Prop := ∃ domains, b' = { b with ctl := { b.ctl with domains := domains } }

theorem DomainsOnly.refl (b : Body) : DomainsOnly b b := ⟨b.ctl.domains, rfl⟩

theorem DomainsOnly.trans {a b c : Body} (h : DomainsOnly a b) (k : DomainsOnly b c) : DomainsOnly a c := by
  obtain ⟨_, rfl⟩ := h
  obtain ⟨_, rfl⟩ := k
  exact ⟨_, rfl⟩

theorem DomainsOnly.foldl {α : Type} {f : Body → α → Body} (step : ∀ b a, DomainsOnly b (f b a)) (l : List α) (b : Body) :
    DomainsOnly b (l.foldl f b) :=
  foldl_rel DomainsOnly.refl (fun _ _ _ => DomainsOnly.trans) step l b

theorem DomainsOnly.switch (b : Body) (d : Nat) (on : Bool) : DomainsOnly b (b.switch d on) := ⟨_, rfl⟩
theorem DomainsOnly.setRails (b : Body) (ds : List Nat) (mv : Nat → BitVec 16) : DomainsOnly b (b.setRails ds mv) :=
  .foldl (fun _ _ => ⟨_, rfl⟩) _ _
theorem DomainsOnly.leaveProving (b : Body) (cfg : FlashCfg) : DomainsOnly b (b.leaveProving cfg) := .setRails _ _ _

theorem DomainsOnly.leave (b : Body) (cfg : FlashCfg) (f : Body → Body) : DomainsOnly (f b) (b.leave cfg f) := by
  unfold Body.leave
  extract_lets b'
  split
  · exact .leaveProving _ _
  · exact .refl _

theorem DomainsOnly.mode {b b' : Body} (h : DomainsOnly b b') : b'.ctl.mode = b.ctl.mode := by obtain ⟨_, rfl⟩ := h; rfl
theorem DomainsOnly.feeds {b b' : Body} (h : DomainsOnly b b') : b'.ctl.feeds = b.ctl.feeds := by obtain ⟨_, rfl⟩ := h; rfl
theorem DomainsOnly.strands {b b' : Body} (h : DomainsOnly b b') : b'.strands = b.strands := by obtain ⟨_, rfl⟩ := h; rfl

/-- `x'` is `x` with another setpoint and its move. -/
def RailOnly (x x' : Domain) : Prop :=
  x' = { x with rail := x'.rail, changed := x'.changed, moveFrom := x'.moveFrom, moveAt := x'.moveAt }

theorem RailOnly.refl (x : Domain) : RailOnly x x := rfl

theorem RailOnly.trans {x y z : Domain} (h : RailOnly x y) (k : RailOnly y z) : RailOnly x z := by
  unfold RailOnly at h k ⊢
  rw [h] at k
  exact k

theorem Body.domain_setRail_self (b : Body) {d : Nat} (hd : d < 232) (mv : BitVec 16) :
    RailOnly (b.domain d) ((b.setRail d mv).domain d) ∧ ((b.setRail d mv).domain d).rail = mv := by
  simp only [Body.domain, Body.setRail, Body.modDomain, Body.modCtl_ctl, vget, vset, hd, dif_pos, Vector.getElem_setIfInBounds_self]
  split
  · exact ⟨rfl, ‹_›⟩
  · split <;> exact ⟨rfl, rfl⟩

theorem Body.domain_setRail_ne (b : Body) {d i : Nat} (h : d ≠ i) (mv : BitVec 16) : (b.setRail d mv).domain i = b.domain i := by
  by_cases hi : i < 232
  · simp only [Body.domain, Body.setRail, Body.modDomain, Body.modCtl_ctl, vget, vset, hi, dif_pos, Vector.getElem_setIfInBounds_ne _ h]
  · simp only [Body.domain, vget, hi, dif_neg, not_false_eq_true]

/-- Each domain of a list stands at its setpoint, and nothing else of a domain changes. -/
theorem Body.domain_setRails (b : Body) (ds : List Nat) (mv : Nat → BitVec 16) {i : Nat} (hi : i < 232) :
    RailOnly (b.domain i) ((b.setRails ds mv).domain i) ∧
      (i ∈ ds ∨ (b.domain i).rail = mv i → ((b.setRails ds mv).domain i).rail = mv i) := by
  induction ds generalizing b with
  | nil => exact ⟨.refl _, by simp [Body.setRails]⟩
  | cons d ds ih =>
    obtain ⟨h1, h2⟩ := ih (b.setRail d (mv d))
    by_cases hd : d = i
    · subst hd
      obtain ⟨k1, k2⟩ := b.domain_setRail_self hi (mv d)
      exact ⟨k1.trans h1, fun _ => h2 (.inr k2)⟩
    · rw [b.domain_setRail_ne hd] at h1 h2
      refine ⟨h1, fun h => h2 ?_⟩
      simpa only [List.mem_cons, Ne.symm hd, false_or] using h

/-! ## Supplies and feeds (R45, R472) -/

/-- The feeds, and what supplies the islands, are as before. -/
structure SourcesKept (b b' : Body) : Prop where
  feeds : b'.ctl.feeds = b.ctl.feeds
  supply : ∀ i : HubId, (b'.ctl.islands[i]).supply = (b.ctl.islands[i]).supply

theorem SourcesKept.refl (b : Body) : SourcesKept b b := ⟨rfl, fun _ => rfl⟩
theorem SourcesKept.trans {a b c : Body} (h : SourcesKept a b) (k : SourcesKept b c) : SourcesKept a c :=
  ⟨k.feeds.trans h.feeds, fun i => (k.supply i).trans (h.supply i)⟩

theorem SourcesKept.sourced {b b' : Body} (h : SourcesKept b b') (i : HubId) : b'.sourced i = b.sourced i := by
  simp only [Body.sourced, Body.anyFeed, h.feeds, h.supply]

/-- The islands after one has been switched. -/
def powerSet (v : Vector Island 2) (h : HubId) (on : Bool) : Vector Island 2 := v.set h { v[h] with powered := on }

theorem powerSet_self (v : Vector Island 2) (h : HubId) (on : Bool) : ((powerSet v h on)[h]).powered = on := by
  simp [powerSet]
theorem powerSet_ne (v : Vector Island 2) {h i : HubId} (hi : h ≠ i) (on : Bool) : (powerSet v h on)[i] = v[i] := by
  have : h.val ≠ i.val := fun e => hi (Fin.ext e)
  simp only [powerSet, Fin.getElem_fin, Vector.getElem_set_ne (h := this)]
theorem powerSet_supply (v : Vector Island 2) (h i : HubId) (on : Bool) : ((powerSet v h on)[i]).supply = (v[i]).supply := by
  by_cases hi : h = i
  · subst hi; simp [powerSet]
  · rw [powerSet_ne v hi]

theorem islandOff_ctl (b : Body) (h : HubId) :
    (b.islandOff h).ctl.feeds = b.ctl.feeds ∧ (b.islandOff h).ctl.islands = powerSet b.ctl.islands h false := by
  have key : ∀ x : Body, let y := if x.ctl.steering = h ∧ x.islandUp (otherHub h) then x.modCtl fun c => { c with steering := otherHub h } else x
      y.ctl.feeds = x.ctl.feeds ∧ y.ctl.islands = x.ctl.islands := fun x => by
    extract_lets y
    by_cases hs : x.ctl.steering = h ∧ x.islandUp (otherHub h)
    · simp only [y, if_pos hs, Body.modCtl_ctl, and_self]
    · simp only [y, if_neg hs, and_self]
  exact key _

/-- An island without a source goes off. -/
def Body.starve (b : Body) (h : HubId) : Body := if (b.ctl.islands[h]).powered && !b.sourced h then b.islandOff h else b

/-- An island with a source comes on beside one that runs. -/
def Body.rouse (b : Body) (h : HubId) : Body :=
  if !(b.ctl.islands[h]).powered && b.sourced h && b.islandUp (otherHub h) then b.joinIsland h else b

theorem SourcesKept.starve (b : Body) (h : HubId) : SourcesKept b (b.starve h) := by
  unfold Body.starve
  split
  · obtain ⟨hf, hi⟩ := islandOff_ctl b h
    exact ⟨hf, fun i => by rw [hi, powerSet_supply]⟩
  · exact .refl _

theorem SourcesKept.rouse (b : Body) (h : HubId) : SourcesKept b (b.rouse h) := by
  unfold Body.rouse
  split
  · exact ⟨rfl, fun i => powerSet_supply b.ctl.islands h i true⟩
  · exact .refl _

theorem starve_off {b : Body} {h : HubId} (hs : b.sourced h = false) : ((b.starve h).ctl.islands[h]).powered = false := by
  unfold Body.starve
  split
  · simp only [(islandOff_ctl b h).2, powerSet_self]
  · rename_i hn
    simpa [hs] using hn

theorem starve_stays_off {b : Body} {h i : HubId} (hi : (b.ctl.islands[i]).powered = false) : ((b.starve h).ctl.islands[i]).powered = false := by
  unfold Body.starve
  split
  · simp only [(islandOff_ctl b h).2]
    by_cases e : h = i
    · subst e; exact powerSet_self _ _ _
    · rw [powerSet_ne _ e, hi]
  · exact hi

theorem Body.resupply_eq (b : Body) : b.resupply =
    if !(((b.starve 0).starve 1).ctl.islands[(0 : HubId)]).powered && !(((b.starve 0).starve 1).ctl.islands[(1 : HubId)]).powered then
      ((b.starve 0).starve 1).goDark
    else (((b.starve 0).starve 1).rouse 0).rouse 1 := rfl

theorem SourcesKept.resupply (b : Body) : SourcesKept b b.resupply := by
  have h := (SourcesKept.starve b 0).trans (.starve _ 1)
  rw [b.resupply_eq]
  split
  · exact h.trans ⟨rfl, fun _ => rfl⟩
  · exact (h.trans (.rouse _ 0)).trans (.rouse _ 1)

/-- Without a source no island runs. -/
theorem resupply_dark {b : Body} (hs : ∀ i : HubId, b.sourced i = false) (i : HubId) : (b.resupply.ctl.islands[i]).powered = false := by
  have h0 : (((b.starve 0).starve 1).ctl.islands[(0 : HubId)]).powered = false := starve_stays_off (starve_off (hs 0))
  have h1 : (((b.starve 0).starve 1).ctl.islands[(1 : HubId)]).powered = false :=
    starve_off (((SourcesKept.starve b 0).sourced 1).trans (hs 1))
  rw [b.resupply_eq, h0, h1]
  have hi := two_cases i
  rcases hi with rfl | rfl
  · exact h0
  · exact h1

theorem island_modIsland_self (b : Body) (h : HubId) (g : Island → Island) : ((b.modIsland h g).ctl.islands[h]) = g (b.ctl.islands[h]) := by
  simp [Body.modIsland]

theorem island_modIsland_ne (b : Body) {h i : HubId} (hi : h ≠ i) (g : Island → Island) : ((b.modIsland h g).ctl.islands[i]) = b.ctl.islands[i] := by
  have : h.val ≠ i.val := fun e => hi (Fin.ext e)
  simp only [Body.modIsland, Body.modCtl_ctl, Fin.getElem_fin, Vector.getElem_set_ne (h := this)]

end Sys2Proof.Machine
end

section
/-! Entry to STANDBY, PROVING and FALLOW, and the steps of PROVING (R472 to R477, R482, R500, R525). -/

namespace Sys2Proof.Machine

/-! ## Tickets and switches that a change of mode ends (R273, R500) -/

/-- `b'` is `b` with other tickets. -/
def TicketsOnly (b b' : Body) : Prop := ∃ tickets, b' = { b with ctl := { b.ctl with tickets := tickets } }

theorem TicketsOnly.refl (b : Body) : TicketsOnly b b := ⟨b.ctl.tickets, rfl⟩
theorem TicketsOnly.trans {a b c : Body} (h : TicketsOnly a b) (k : TicketsOnly b c) : TicketsOnly a c := by
  obtain ⟨_, rfl⟩ := h
  obtain ⟨_, rfl⟩ := k
  exact ⟨_, rfl⟩

theorem TicketsOnly.foldl {α : Type} {f : Body → α → Body} (step : ∀ b a, TicketsOnly b (f b a)) (l : List α) (b : Body) :
    TicketsOnly b (l.foldl f b) :=
  foldl_rel TicketsOnly.refl (fun _ _ _ => TicketsOnly.trans) step l b

theorem TicketsOnly.finish (b : Body) (n : BitVec 32) (st d : Byte) (p : List Byte) : TicketsOnly b (b.finishTicket n st d p) := ⟨_, rfl⟩
theorem TicketsOnly.fault (b : Body) (n : BitVec 32) (loc : BitVec 16) : TicketsOnly b (b.ticketFault n loc) := ⟨_, rfl⟩
theorem TicketsOnly.endTickets (b : Body) : TicketsOnly b b.endTickets := .foldl (fun _ _ => ⟨_, rfl⟩) _ _

theorem TicketsOnly.mode {b b' : Body} (h : TicketsOnly b b') : b'.ctl.mode = b.ctl.mode := by obtain ⟨_, rfl⟩ := h; rfl
theorem TicketsOnly.feeds {b b' : Body} (h : TicketsOnly b b') : b'.ctl.feeds = b.ctl.feeds := by obtain ⟨_, rfl⟩ := h; rfl
theorem TicketsOnly.strands {b b' : Body} (h : TicketsOnly b b') : b'.strands = b.strands := by obtain ⟨_, rfl⟩ := h; rfl

/-- The end of a switch changes tickets and the switch of the control hierarchy. -/
theorem endSwitch_ctl (b : Body) : ∃ tickets switching, b.endSwitch.ctl = { b.ctl with tickets := tickets, switching := switching } := by
  unfold Body.endSwitch
  split
  · exact ⟨b.ctl.tickets, b.ctl.switching, rfl⟩
  · exact ⟨_, _, rfl⟩

theorem endSwitch_mode (b : Body) : b.endSwitch.ctl.mode = b.ctl.mode := by
  obtain ⟨_, _, h⟩ := endSwitch_ctl b
  rw [h]

theorem endSwitch_feeds (b : Body) : b.endSwitch.ctl.feeds = b.ctl.feeds := by
  obtain ⟨_, _, h⟩ := endSwitch_ctl b
  rw [h]

/-- No strand has a state. -/
def Body.noStrands (b : Body) : Prop := ∀ t : StrandId, b.strand t = {}

theorem endSwitch_noStrands {b : Body} (h : b.noStrands) : b.endSwitch.noStrands := by
  intro t
  unfold Body.endSwitch
  split
  · exact h t
  · have hs : b.strands[t] = {} := h t
    simp only [Fin.getElem_fin] at hs
    simp only [Body.strand, Body.modCtl_strands, Body.modIo_strands, Body.mapStrands, Body.finishTicket_strands, Fin.getElem_fin,
      Vector.getElem_ofFn, hs]

/-! ## STANDBY (R448, R472, R473) -/

theorem cutPower_feeds (b : Body) : b.cutPower.ctl.feeds = b.ctl.feeds := by
  simp only [Body.cutPower]

theorem enterStandby_feeds (b : Body) (hold : Bool) :
    (b.enterStandby hold).ctl.feeds = b.ctl.feeds.map fun f => { f with closed := false, admitted := false, flagged := 0 } := by
  unfold Body.enterStandby
  extract_lets b1 b2 now
  have h1 : b1.ctl.feeds = b.ctl.feeds := (b.setMode_modeOnly .standby 0 0xFFFF).feeds
  have h2 : b2.ctl.feeds = b.ctl.feeds := by
    rw [← h1, ← endSwitch_feeds b1, ← (TicketsOnly.endTickets b1.endSwitch).feeds]
    exact cutPower_feeds _
  exact congrArg (fun v : Vector Feed 2 => v.map fun f => { f with closed := false, admitted := false, flagged := 0 }) h2

theorem enterStandby_present (b : Body) (hold : Bool) (f : FeedId) :
    ((b.enterStandby hold).ctl.feeds[f]).present = (b.ctl.feeds[f]).present := by
  have h := congrArg (fun v : Vector Feed 2 => (v[f]).present) (enterStandby_feeds b hold)
  simpa only [Fin.getElem_fin, Vector.getElem_map] using h

theorem FreezeOnly.feeds {b b' : Body} (h : FreezeOnly b b') : b'.ctl.feeds = b.ctl.feeds := by
  obtain ⟨_, _, _, rfl⟩ := h
  rfl

theorem loseBothFeeds_present (b : Body) (f : FeedId) : ((b.loseBothFeeds).ctl.feeds[f]).present = (b.ctl.feeds[f]).present := by
  unfold Body.loseBothFeeds
  extract_lets flags b1
  rw [enterStandby_present]
  exact congrArg (fun v : Vector Feed 2 => (v[f]).present) (b1.freezeSilt_freezeOnly 2 [0, 1]).feeds

/-! ## FALLOW (R482, R500) -/

/-- The module is in FALLOW, for a reason and its unit. -/
structure Fallow (b : Body) (reason : Byte) (loc : BitVec 16) : Prop where
  mode : b.ctl.mode = .fallow
  reason : b.ctl.reason = reason
  loc : b.ctl.reasonLoc = loc
  strands : b.noStrands

theorem noStrands_of_eq {b b' : Body} (h : b'.strands = b.strands) (k : b.noStrands) : b'.noStrands := fun t => by
  have := k t
  rw [Body.strand] at this ⊢
  rw [h]
  exact this

theorem enterFallow_fallow (b : Body) (reason : Byte) (loc : BitVec 16) : Fallow (b.enterFallow reason loc) reason loc := by
  unfold Body.enterFallow
  extract_lets b1 b2 b3 b4 b5 b6 b7 b8 b9
  have h4 : b4.noStrands := fun t => by
    simp only [b4, Body.strand, Fin.getElem_fin, Vector.getElem_replicate]
  have h5 : b5.noStrands := noStrands_of_eq (DomainsOnly.foldl (fun _ _ => .switch _ _ _) _ _).strands h4
  obtain ⟨_, _, _, h6⟩ := b5.setMode_modeOnly .fallow reason loc
  have h8 : TicketsOnly b6 b8 := (TicketsOnly.foldl (fun _ _ => .fault _ _ _) _ b6).trans (.foldl (fun _ _ => .finish _ _ _ _ _) _ b7)
  have hmode : b6.ctl.mode = .fallow := by rw [show b6 = _ from h6]
  have hstrands : b6.noStrands := noStrands_of_eq (by rw [show b6 = _ from h6]) h5
  have h9 : TicketsOnly b8.endSwitch b9 := .endTickets _
  have hmode9 : b9.ctl.mode = .fallow := by rw [h9.mode, endSwitch_mode, h8.mode, hmode]
  have hstrands9 : b9.noStrands := noStrands_of_eq h9.strands (endSwitch_noStrands (noStrands_of_eq h8.strands hstrands))
  clear_value b9
  exact ⟨hmode9, rfl, rfl, hstrands9⟩

theorem Fallow.domainsOnly {b b' : Body} {reason : Byte} {loc : BitVec 16} (h : Fallow b reason loc) (k : DomainsOnly b b') : Fallow b' reason loc := by
  obtain ⟨_, rfl⟩ := k
  exact ⟨h.mode, h.reason, h.loc, h.strands⟩

/-! ## Entry to PROVING (R22, R33, R474, R525) -/

/-- The log of one island thaws. -/
def Body.thawOne (b : Body) (h : HubId) : Body :=
  if (b.ctl.silt[h]).frozen.isNone then b
  else b.modCtl fun c => { c with
    silt := c.silt.set h ((b.ctl.silt[h]).post.foldl Silt.pushRing { b.ctl.silt[h] with frozen := none, post := [], lost := 0, thaw := none }) }

theorem thawNow_eq (b : Body) (cause : Byte) (hs : List HubId) : b.thawNow cause hs =
    match hs.find? fun h => (b.ctl.silt[h]).frozen.isSome with
    | none => hs.foldl Body.thawOne b
    | some h => (hs.foldl Body.thawOne b).report (if b.isSplit then islandLoc h else b.moduleLoc) 0x0108
        (dataOf [(1, cause.toNat), (3, 0), (4, (b.ctl.silt[h]).post.length), (4, (b.ctl.silt[h]).lost.toNat)]) := rfl

theorem thawNow_logOnly (b : Body) (cause : Byte) (hs : List HubId) : LogOnly b (b.thawNow cause hs) := by
  rw [thawNow_eq]
  have h1 : LogOnly b (hs.foldl Body.thawOne b) := LogOnly.foldl (fun x h => by
    unfold Body.thawOne
    split
    · exact .refl _
    · exact ⟨_, x.ctl.tilth, rfl⟩) _ _
  split
  · exact h1
  · exact h1.trans (.report _ _ _ _)

theorem thawSilt_logOnly (b : Body) (cause : Byte) (hs : List HubId) : LogOnly b (b.thawSilt cause hs) := by
  unfold Body.thawSilt
  extract_lets wait b1
  have h1 : LogOnly b b1 := LogOnly.foldl (fun x _ => ⟨_, x.ctl.tilth, rfl⟩) _ _
  split
  · exact h1.trans (thawNow_logOnly _ _ _)
  · exact h1

/-- PROVING has begun, with the octets in force and the feeds that are present. -/
structure ProvingBegun (b b' : Body) (octets : Vector OctetRec 12) : Prop where
  mode : b'.ctl.mode = .proving
  step : b'.ctl.step = 1
  octets : b'.io.octets = octets
  feeds : ∀ i : FeedId, (b'.ctl.feeds[i]).admitted = (b.ctl.feeds[i]).present

theorem enterProving_begun (b : Body) (octets : Vector OctetRec 12) : ProvingBegun b (b.enterProving octets) octets := by
  unfold Body.enterProving
  extract_lets b1 b2 now b3 b4
  have h1 : b1.ctl.feeds = b.ctl.feeds := by
    simp only [b1]
    split
    · rfl
    · rfl
  have h4 : DomainsOnly b3 (b3.setRails [230, 231] fun _ => 800) := .setRails _ _ _
  obtain ⟨_, h4⟩ := h4
  have hb4 : b4 = (b3.setRails [230, 231] fun _ => 800).modIo fun i => { i with octets := octets } := rfl
  rw [h4] at hb4
  have h5 := thawSilt_logOnly b4 2 [0, 1]
  obtain ⟨_, _, h5⟩ := h5
  obtain ⟨_, _, _, h6⟩ := (b4.thawSilt 2 [0, 1]).setMode_modeOnly .proving 0 0xFFFF
  rw [h6, h5, hb4]
  refine ⟨rfl, rfl, rfl, fun i => ?_⟩
  change ((b1.ctl.feeds.map fun f => { f with closed := true, admitted := f.present, flagged := 0 } : Vector Feed 2)[i]).admitted = _
  rw [h1]
  simp

end Sys2Proof.Machine
end

section
/-! Dark start, start attempts and PROVING, event by event (R472 to R477). -/

namespace Sys2Proof.Machine

section
variable {s : State} {h : HubId} {f : FeedId} {farUp : List (PortId × Nat)} {test : BitVec 16}

/-! ## Supplies, dark start and start attempts -/

theorem islandSupplyChange_next (h : HubId) (present : Bool) (s : State) : exec (.islandSupplyChange h present) s =
    .next { s with body := (s.body.modIsland h fun i => { i with supply := present }).resupply } := rfl

theorem islandSupplyChange_supply (b : Body) (h : HubId) (present : Bool) :
    (((b.modIsland h fun i => { i with supply := present }).resupply).ctl.islands[h]).supply = present := by
  rw [(SourcesKept.resupply _).supply, island_modIsland_self]

theorem eq_otherHub_of_ne : ∀ {h j : HubId}, h ≠ j → j = otherHub h := by decide

/-- The last source gone, no island runs (R45, R472). -/
theorem islandSupplyChange_dark {b : Body} (hf : b.anyFeed = false) (ho : (b.ctl.islands[otherHub h]).supply = false) (i : HubId) :
    (((b.modIsland h fun i => { i with supply := false }).resupply).ctl.islands[i]).powered = false := by
  refine resupply_dark (fun j => ?_) i
  have hsupply : ((b.modIsland h fun i => { i with supply := false }).ctl.islands[j]).supply = false := by
    by_cases hj : h = j
    · rw [← hj, island_modIsland_self]
    · rw [island_modIsland_ne _ hj, eq_otherHub_of_ne hj]
      exact ho
  rw [Body.sourced, hsupply, Bool.false_or]
  exact hf

/-- A feed is present or not. -/
def Body.feedSet (b : Body) (f : FeedId) (present : Bool) : Body := b.modFeed f fun x => { x with present := present }

/-- What the loss of the last feed brings (R448, R488). -/
def Body.afterFeed (b : Body) : Body :=
  if b.anyFeed || b.ctl.mode = .standby then b
  else if ([0, 1] : List HubId).any fun h => (b.ctl.islands[h]).supply then (b.reach b.ctl.steering (b.now + 100000000)).loseBothFeeds
  else b.enterStandby false

theorem feedApplied_next (f : FeedId) (present : Bool) (s : State) : exec (.feedApplied f present) s =
    .next { s with body := s.body.leave s.cfg fun b => (b.feedSet f present).afterFeed.resupply } := rfl

theorem afterFeed_present (b : Body) (f : FeedId) : ((b.afterFeed).ctl.feeds[f]).present = (b.ctl.feeds[f]).present := by
  unfold Body.afterFeed
  split
  · rfl
  · split
    · exact loseBothFeeds_present _ f
    · exact enterStandby_present _ _ f

theorem feedApplied_present (b : Body) (cfg : FlashCfg) (f : FeedId) (present : Bool) :
    ((b.leave cfg fun b => (b.feedSet f present).afterFeed.resupply).ctl.feeds[f]).present = present := by
  have h1 := (DomainsOnly.leave b cfg fun b => (b.feedSet f present).afterFeed.resupply).feeds
  have h2 := (SourcesKept.resupply (b.feedSet f present).afterFeed).feeds
  simp only [h1, h2, afterFeed_present]
  exact congrArg Feed.present (feed_modFeed_self b f _)

/-- The island runs, from dark, with the time of flash (R472, R532). -/
def Body.boot (b : Body) (h : HubId) (straps : BitVec 3) : Body :=
  ((b.spend.modIsland h fun i => { i with powered := true }).switch (230 + h.val) true).modCtl fun c => { c with
    steering := h
    tod := Vector.replicate 2 (b.ctl.savedTod + 61000000000)
    lastSave := b.ctl.savedTod + 61000000000
    slot := straps
    offHold := false
    standbySince := (b.ctl.savedTod + 61000000000).toNat
    attemptAt := none
    islands := c.islands.map fun i => { i with tickets := i.tickets + Config.freeNat b.freeCtr }
    silt := c.silt.map fun g => { count := g.count + Config.freeNat b.freeCtr } }

/-- The dark start is recorded. -/
def Body.booted (b : Body) (h : HubId) (straps : BitVec 3) : Body :=
  (b.boot h straps).report (islandLoc h) 0x0104 (dataOf [(8, (b.ctl.savedTod + 61000000000).toNat), (8, b.ctl.savedTod.toNat)])

theorem darkStart_next (hp : (s.body.ctl.islands[h]).powered = false) (hf : (s.body.ctl.islands[h]).failed = false) (hs : s.body.sourced h = true)
    (ho : s.body.islandUp (otherHub h) = false) (straps : BitVec 3) : exec (.darkStart h straps) s =
    .next { s with body := s.body.booted h straps } := by
  change execDarkStart h straps s = _
  simp only [execDarkStart, onBody_next, hp, hf, hs, ho, Bool.not_true, Bool.or_self, Bool.false_eq_true, if_false]
  rfl

/-- The state after a dark start. -/
structure DarkStarted (b b' : Body) (h : HubId) (straps : BitVec 3) : Prop where
  powered : (b'.ctl.islands[h]).powered = true
  steering : b'.ctl.steering = h
  tod : ∀ i : HubId, b'.ctl.tod[i] = b.ctl.savedTod + 61000000000
  slot : b'.ctl.slot = straps
  mem : b'.mem = b.mem
  io : b'.io = b.io

theorem boot_powered (b : Body) (h : HubId) (straps : BitVec 3) : ((b.boot h straps).ctl.islands[h]).powered = true := by
  change (((b.ctl.islands.set h { b.ctl.islands[h] with powered := true }).map fun i : Island =>
    { i with tickets := i.tickets + Config.freeNat b.freeCtr })[h]).powered = true
  simp

theorem booted_darkStarted (b : Body) (h : HubId) (straps : BitVec 3) : DarkStarted b (b.booted h straps) h straps := by
  obtain ⟨_, _, e⟩ := LogOnly.report (b.boot h straps) (islandLoc h) 0x0104
    (dataOf [(8, (b.ctl.savedTod + 61000000000).toNat), (8, b.ctl.savedTod.toNat)])
  unfold Body.booted
  rw [e]
  refine ⟨boot_powered b h straps, rfl, fun i => ?_, rfl, rfl, rfl⟩
  exact Vector.getElem_replicate i.isLt

/-- The earliest time of the next attempt (R473). -/
def Body.reachAttempt (b : Body) : Body :=
  match b.ctl.attemptAt with
  | some t => b.reach b.ctl.steering (t + 10000000000)
  | none => b

theorem startAttempt_next (hm : s.body.ctl.mode = .standby) (hi : s.body.islandUp s.body.ctl.steering = true) (ha : s.cfg.autostart = true)
    (ho : s.body.ctl.offHold = false) (ht : s.body.ctl.attempt = false) : exec .startAttempt s =
    .next { s with body := s.body.reachAttempt.startAttempt } := by
  change execStartAttempt s = _
  simp only [execStartAttempt, onBody_next, hm, hi, ha, ho, ht, decide_true, Bool.not_false, Bool.and_self, if_true]
  rfl

theorem startAttempt_manual (s : State) (h : s.cfg.autostart = false) : exec .startAttempt s = .next s := by
  change execStartAttempt s = _
  simp only [execStartAttempt, onBody_next, h, Bool.and_false, Bool.false_and, Bool.false_eq_true, if_false]

/-- `b'` is `b` at another time. -/
def TimeOnly (b b' : Body) : Prop := ∃ tod, b' = { b with ctl := { b.ctl with tod := tod } }

theorem reachAttempt_timeOnly (b : Body) : TimeOnly b b.reachAttempt := by
  unfold Body.reachAttempt
  split
  · exact ⟨_, rfl⟩
  · exact ⟨b.ctl.tod, rfl⟩

/-- Time does not go back. -/
theorem Body.tod_le_reach (b : Body) (h : HubId) {at' : Nat} (hat : at' < 2 ^ 64) : b.tod h ≤ (b.reach h at').tod h := by
  have key : ∀ x : BitVec 64, x.toNat ≤ (x + BitVec.ofNat 64 (at' - x.toNat)).toNat := fun x => by
    have := x.isLt
    rw [BitVec.toNat_add, BitVec.toNat_ofNat]
    omega
  rcases two_cases h with rfl | rfl
  · exact key _
  · exact key _

/-- A start attempt runs, its switches closed. -/
structure Attempted (b b' : Body) : Prop where
  attempt : b'.ctl.attempt = true
  closed : ∀ i : FeedId, (b'.ctl.feeds[i]).closed = true
  since : b.ctl.standbySince + 1000000000 ≤ b'.tod b.ctl.steering
  later : b.tod b.ctl.steering ≤ b'.tod b.ctl.steering
  at' : b'.ctl.attemptAt = some (b'.tod b.ctl.steering)

theorem startAttempt_attempted {b : Body} (ha : b.ctl.attempt = false) (hs : b.ctl.standbySince + 1000000000 < 2 ^ 64) : Attempted b b.startAttempt := by
  simp only [Body.startAttempt, ha, Bool.false_eq_true, if_false]
  refine ⟨rfl, fun i => ?_, b.le_tod_reach _ hs, b.tod_le_reach _ hs, rfl⟩
  simp only [Body.modCtl_ctl, Fin.getElem_fin, Vector.getElem_map]

theorem reachAttempt_late {b : Body} {t : Nat} (ht : b.ctl.attemptAt = some t) (hlt : t + 10000000000 < 2 ^ 64) :
    t + 10000000000 ≤ b.reachAttempt.tod b.ctl.steering := by
  simp only [Body.reachAttempt, ht]
  exact b.le_tod_reach _ hlt

/-- The attempt has failed, and its tickets end (R473). -/
def Body.failAttempt (b : Body) : Body :=
  let b1 := b.reach b.ctl.steering (b.ctl.attemptAt.getD 0 + 3000000000)
  (b1.ctl.startTickets.foldl (fun x t => x.ticketFault t x.moduleLoc) b1).modCtl fun c => { c with
    feeds := c.feeds.map fun f => { f with closed := false }
    attempt := false
    startTickets := [] }

theorem startAttemptTimeout_next (hm : s.body.ctl.mode = .standby) (ha : s.body.ctl.attempt = true) : exec .startAttemptTimeout s =
    .next { s with body := s.body.failAttempt } := by
  change execStartAttemptTimeout s = _
  simp only [execStartAttemptTimeout, onBody_next, hm, ha, decide_true, Bool.and_self, if_true]
  rfl

/-- The first frame of a die steward opens PROVING (R473). -/
theorem stewardFrame_proves (hm : s.body.ctl.mode = .standby) (ha : s.body.ctl.attempt = true) (hu : s.body.stewardsUp = true) {d : Fin 6}
    (hw : s.body.ctl.failedWires.contains (.nearDie d) = false) (copyB rep : Bool) : exec (.stewardFrame (.nearDie d) true copyB rep) s =
    .next { s with body := s.body.enterProving s.cfg.octets } := by
  change execStewardFrame _ _ _ _ s = _
  simp only [execStewardFrame, onBody_next, Body.linkUp, Body.dieReports, hm, ha, hu, hw, decide_true, Bool.not_false, Bool.not_true, Bool.and_self,
    Bool.true_or, Bool.false_eq_true, if_false, if_true]

/-! ## The steps of PROVING (R474 to R477) -/

/-- No unit fails in a step. -/
def noFindings (farUp : List (PortId × Nat)) (test : BitVec 16) : Findings :=
  { cores := [], clusters := [], hbm := [], dies := [], chans := [], engines := [], bundles := [], feeds := [], islands := [], mgmtPorts := [],
    octets := [], links := [], farUp := farUp, test := test }

/-- The next step begins. -/
def Body.toStep (b : Body) (k : Nat) : Body := b.modCtl fun c => { c with step := k }

/-- The next step begins, in PROVING. -/
def Body.stepTo (b : Body) (k : Nat) : Body := if b.ctl.mode = .proving then b.toStep k else b

/-- The end of a step, which may be that of PROVING. -/
def Body.endStep (b : Body) (cfg : FlashCfg) : Body := if b.ctl.mode = .proving then b else b.leaveProving cfg

theorem stepTo_of {b : Body} (h : b.ctl.mode = .proving) (k : Nat) : b.stepTo k = b.toStep k := if_pos h
theorem endStep_of {b : Body} (h : b.ctl.mode = .proving) (cfg : FlashCfg) : b.endStep cfg = b := if_pos h

section
variable (hm : s.body.ctl.mode = .proving)
include hm

theorem provingStep_one (hs : s.body.ctl.step = 1) : exec (.provingStepComplete (noFindings farUp test)) s =
    .next { s with body := s.body.toStep 2 } := by
  have heq : exec (.provingStepComplete (noFindings farUp test)) s = .next { s with body := (s.body.stepTo 2).endStep s.cfg } := by
    change execProvingStepComplete _ s = _
    simp only [execProvingStepComplete, hm, ne_eq, not_true_eq_false, if_false, hs]
    rfl
  rw [heq, stepTo_of hm, endStep_of (b := s.body.toStep 2) hm]

/-- Feed proving has run, and every rail goes to its floor (R33, R441). -/
def Body.provedTwo (b : Body) (cfg : FlashCfg) : Body := (b.fedProved.toStep 3).setRails (List.range 230) fun d => clampRail cfg d 0

/-- Every rail is back at 0.80 V (log entry 15). -/
def Body.provedThree (b : Body) : Body := (b.toStep 4).setRails (List.range 230) fun _ => 800

/-- The storage key is fresh (R475). -/
def Body.keyed (b : Body) : Body := b.spend.modMem fun m => { m with slots := tPut m.slots 0 (freeBytes b.freeCtr 64) }

theorem provingStep_two (hs : s.body.ctl.step = 2) : exec (.provingStepComplete (noFindings farUp test)) s =
    .next { s with body := s.body.provedTwo s.cfg } := by
  have heq : exec (.provingStepComplete (noFindings farUp test)) s =
      .next { s with body := ((s.body.fedProved.stepTo 3).setRails (List.range 230) fun d => clampRail s.cfg d 0).endStep s.cfg } := by
    change execProvingStepComplete _ s = _
    simp only [execProvingStepComplete, hm, ne_eq, not_true_eq_false, if_false, hs]
    generalize List.range 230 = all
    rfl
  have hmode : (s.body.provedTwo s.cfg).ctl.mode = .proving := (DomainsOnly.setRails _ _ _).mode.trans hm
  rw [heq, stepTo_of (b := s.body.fedProved) hm]
  exact congrArg (fun b => Host.Outcome.next { s with body := b }) (endStep_of hmode s.cfg)

theorem provingStep_three (hs : s.body.ctl.step = 3) : exec (.provingStepComplete (noFindings farUp test)) s =
    .next { s with body := s.body.provedThree } := by
  have heq : exec (.provingStepComplete (noFindings farUp test)) s =
      .next { s with body := ((s.body.stepTo 4).setRails (List.range 230) fun _ => 800).endStep s.cfg } := by
    change execProvingStepComplete _ s = _
    simp only [execProvingStepComplete, hm, ne_eq, not_true_eq_false, if_false, hs]
    generalize List.range 230 = all
    rfl
  have hmode : s.body.provedThree.ctl.mode = .proving := (DomainsOnly.setRails _ _ _).mode.trans hm
  rw [heq, stepTo_of hm]
  exact congrArg (fun b => Host.Outcome.next { s with body := b }) (endStep_of hmode s.cfg)

theorem provingStep_four (hs : s.body.ctl.step = 4) : exec (.provingStepComplete (noFindings farUp test)) s =
    .next { s with body := s.body.keyed.toStep 6 } := by
  have heq : exec (.provingStepComplete (noFindings farUp test)) s = .next { s with body := (s.body.keyed.stepTo 6).endStep s.cfg } := by
    change execProvingStepComplete _ s = _
    simp only [execProvingStepComplete, hm, ne_eq, not_true_eq_false, if_false, hs]
    rfl
  rw [heq, stepTo_of (b := s.body.keyed) hm, endStep_of (b := s.body.keyed.toStep 6) hm]

/-- The coverage decision is recorded (R476, R521). -/
def Body.decided (b : Body) : Body := b.finding b.moduleLoc 7 0 b.fallowRow.isSome

theorem provingStep_seven (hs : s.body.ctl.step = 7) : exec (.provingStepComplete (noFindings farUp test)) s =
    .next { s with body := (s.body.decided.coverage.stepTo 8).endStep s.cfg } := by
  change execProvingStepComplete _ s = _
  simp only [execProvingStepComplete, hm, ne_eq, not_true_eq_false, if_false, hs]
  rfl

end

theorem provingStep_self (hm : s.body.ctl.mode ≠ .proving) (x : Findings) : exec (.provingStepComplete x) s = .next s := by
  change execProvingStepComplete _ s = _
  simp only [execProvingStepComplete, hm, ne_eq, not_false_eq_true, if_true]

theorem provingTimeout_self (hm : s.body.ctl.mode ≠ .proving) : exec .provingTimeout s = .next s := by
  change execProvingTimeout s = _
  rw [execProvingTimeout, onProving_next hm, if_neg hm]

/-! ## What the steps leave -/

/-- The next step has begun, with every rail at its setpoint. -/
structure RailStep (b b' : Body) (step : Nat) (mv : Nat → BitVec 16) : Prop where
  step : b'.ctl.step = step
  mode : b'.ctl.mode = b.ctl.mode
  strands : b'.strands = b.strands
  mem : b'.mem = b.mem
  io : b'.io = b.io
  rails : ∀ i : DomainId, i.val < 230 → RailOnly (b.domain i.val) (b'.domain i.val) ∧ (b'.domain i.val).rail = mv i.val

theorem setRails_railStep (b : Body) (step : Nat) (mv : Nat → BitVec 16) : RailStep b ((b.toStep step).setRails (List.range 230) mv) step mv := by
  have hr : ∀ i : DomainId, i.val < 230 → _ := fun i hi =>
    let h := (b.toStep step).domain_setRails (List.range 230) mv i.isLt
    And.intro h.1 (h.2 (.inl (List.mem_range.2 hi)))
  obtain ⟨domains, e⟩ := DomainsOnly.setRails (b.toStep step) (List.range 230) mv
  refine ⟨?_, ?_, ?_, ?_, ?_, hr⟩ <;> rw [e] <;> rfl

theorem keyed_slot (b : Body) : (tGet b.keyed.mem.slots 0).map (·.length) = some 64 := by
  change (tGet (tPut b.mem.slots 0 (freeBytes b.freeCtr 64)) 0).map (·.length) = some 64
  rw [tGet_tPut_self, Option.map_some, freeBytes, List.length_map, List.length_range]

theorem coverage_some {b : Body} {reason : Byte} {loc : BitVec 16} (h : b.fallowRow = some (reason, loc)) : b.coverage = b.enterFallow reason loc := by
  simp only [Body.coverage, h]

theorem coverage_none {b : Body} (h : b.fallowRow = none) : b.coverage = b.assignCores := by
  simp only [Body.coverage, h]

/-- The good cores of a half. -/
def Body.goodCores (b : Body) (h : HubId) : List CoreId := allCores.filter fun c => halfOfCore c = h && !b.ctl.badCores.contains c

theorem mem_goodCores {b : Body} {c : CoreId} : (c ∈ b.goodCores 0 ∨ c ∈ b.goodCores 1) ↔ b.ctl.badCores.contains c = false := by
  have := two_cases (halfOfCore c)
  simp only [Body.goodCores, allCores, List.mem_filter, List.mem_finRange, true_and, Bool.and_eq_true, decide_eq_true_eq, Bool.not_eq_true']
  tauto

theorem assignCores_role (b : Body) (c : CoreId) : ((b.assignCores).ctl.cores[c]).role = .out ↔ b.ctl.badCores.contains c = true := by
  have hmem : c ∈ (b.goodCores 0).take 64 ++ (b.goodCores 1).take 64 ∨ c ∈ (b.goodCores 0).drop 64 ++ (b.goodCores 1).drop 64 ↔
      b.ctl.badCores.contains c = false := by
    rw [← mem_goodCores]
    conv_rhs => rw [← List.take_append_drop 64 (b.goodCores 0), ← List.take_append_drop 64 (b.goodCores 1)]
    simp only [List.mem_append]
    tauto
  have hrole : ((b.assignCores).ctl.cores[c]).role =
      if ((b.goodCores 0).take 64 ++ (b.goodCores 1).take 64).contains c then .assignable
      else if ((b.goodCores 0).drop 64 ++ (b.goodCores 1).drop 64).contains c then .spare else .out := by
    simp only [Body.assignCores, Body.modCtl_ctl, Fin.getElem_fin, Vector.getElem_ofFn]
    rfl
  have hbad := not_congr hmem
  rw [Bool.not_eq_false, not_or] at hbad
  rw [hrole, ← hbad]
  simp only [List.contains_iff_mem]
  by_cases h1 : c ∈ (b.goodCores 0).take 64 ++ (b.goodCores 1).take 64
  · simp only [h1, if_true, not_true_eq_false, false_and, reduceCtorEq]
  · by_cases h2 : c ∈ (b.goodCores 0).drop 64 ++ (b.goodCores 1).drop 64
    · simp only [h1, h2, if_true, if_false, not_true_eq_false, and_false, reduceCtorEq]
    · simp only [h1, h2, if_false, not_false_eq_true, and_self]

/-- Step 8 has begun, every core in its role (R476). -/
structure Covered (b b' : Body) : Prop where
  step : b'.ctl.step = 8
  mode : b'.ctl.mode = .proving
  roles : ∀ c : CoreId, (b'.ctl.cores[c]).role = .out ↔ b.ctl.badCores.contains c = true

theorem covered_spec {b : Body} (hm : b.ctl.mode = .proving) (hn : b.fallowRow = none) (cfg : FlashCfg) :
    Covered b ((b.coverage.stepTo 8).endStep cfg) := by
  have hr := assignCores_role b
  have hma : b.assignCores.ctl.mode = .proving := by simp only [Body.assignCores, Body.modCtl_ctl, hm]
  have hmt : (b.assignCores.toStep 8).ctl.mode = .proving := by simp only [Body.toStep, Body.modCtl_ctl, hma]
  rw [coverage_none hn, stepTo_of hma, endStep_of hmt]
  generalize b.assignCores = x at hr hma hmt ⊢
  exact ⟨rfl, hma, hr⟩

/-- A step after which the module is in FALLOW. -/
theorem fallow_endStep {b : Body} {reason : Byte} {loc : BitVec 16} (h : Fallow b reason loc) (k : Nat) (cfg : FlashCfg) :
    Fallow ((b.stepTo k).endStep cfg) reason loc := by
  have hne : b.ctl.mode ≠ .proving := by rw [h.mode]; decide
  rw [Body.stepTo, if_neg hne, Body.endStep, if_neg hne]
  exact h.domainsOnly (.leaveProving b cfg)

/-- PROVING's end in FALLOW after 180 s (R474). -/
theorem provingTimeout_fallow (hm : s.body.ctl.mode = .proving) :
    ∃ b', exec .provingTimeout s = .next { s with body := b' } ∧ Fallow b' 9 0xFFFF := by
  refine ⟨_, rfl, ?_⟩
  refine Fallow.domainsOnly ?_ (.leave _ _ _)
  simp only [hm, if_true]
  exact enterFallow_fallow _ _ _

end

/-- Settles O51: each event by its equation, and what its parts leave by the frames of rails, supplies, tickets and modes. -/
theorem startingAndProving : Obligations.StartingAndProving := by
  intro s h f straps d present farUp test b none' gives
  refine ⟨?_, ?_, ?_, ?_, ?_, ?_, ?_, ?_, ?_⟩
  · refine ⟨_, islandSupplyChange_next h present s, islandSupplyChange_supply s.body h present, ?_⟩
    rintro rfl hf ho i
    exact islandSupplyChange_dark hf ho i
  · exact ⟨_, feedApplied_next f present s, feedApplied_present s.body s.cfg f present⟩
  · intro hp hf hs ho
    have k := booted_darkStarted s.body h straps
    exact ⟨_, darkStart_next hp hf hs ho straps, k.powered, k.steering, k.tod, k.slot, k.mem, k.io⟩
  · intro hm hi ha ho ht hs hat
    obtain ⟨tod, htod⟩ := reachAttempt_timeOnly s.body
    have hatt : Attempted s.body.reachAttempt s.body.reachAttempt.startAttempt := startAttempt_attempted (by rw [htod]; exact ht) (by rw [htod]; exact hs)
    have hst : s.body.reachAttempt.ctl.steering = s.body.ctl.steering := by rw [htod]
    have hsince : s.body.reachAttempt.ctl.standbySince = s.body.ctl.standbySince := by rw [htod]
    have h3 := hatt.since
    have h4 := hatt.later
    have h5 := hatt.at'
    rw [hst] at h3 h4 h5
    rw [hsince] at h3
    exact ⟨_, startAttempt_next hm hi ha ho ht, hatt.attempt, hatt.closed, h3, fun t e => (reachAttempt_late e (hat t e)).trans h4, h5⟩
  · intro hm ha
    refine ⟨_, startAttemptTimeout_next hm ha, rfl, rfl, fun i => ?_⟩
    simp only [Body.failAttempt, Body.modCtl_ctl, Fin.getElem_fin, Vector.getElem_map]
  · exact fun _ => startAttempt_manual _ rfl
  · intro hm ha hu hw copyB rep
    have hb := enterProving_begun s.body s.cfg.octets
    exact ⟨_, stewardFrame_proves hm ha hu hw copyB rep, hb.mode, hb.step, hb.octets, hb.feeds⟩
  · intro hm
    refine ⟨fun hs => ⟨_, provingStep_one hm hs, rfl⟩, ?_, ?_, ?_, ?_, ?_⟩
    · rintro k (rfl | rfl) hs
      · have k := setRails_railStep s.body.fedProved 3 fun d => clampRail s.cfg d 0
        exact ⟨_, provingStep_two hm hs, k.step, k.mode.trans hm, k.strands, k.mem, k.io, k.rails⟩
      · have k := setRails_railStep s.body 4 fun _ => 800
        exact ⟨_, provingStep_three hm hs, k.step, k.mode.trans hm, k.strands, k.mem, k.io, k.rails⟩
    · intro hs
      exact ⟨_, provingStep_four hm hs, rfl, keyed_slot s.body, rfl⟩
    · intro hs hn
      have k := covered_spec (b := s.body.decided) hm hn s.cfg
      exact ⟨_, provingStep_seven hm hs, k.step, k.mode, k.roles⟩
    · intro reason loc hs hr
      have hf : Fallow s.body.decided.coverage reason loc := by
        rw [coverage_some (b := s.body.decided) hr]
        exact enterFallow_fallow _ _ _
      have k := fallow_endStep hf 8 s.cfg
      exact ⟨_, provingStep_seven hm hs, k.mode, k.reason, k.loc, k.strands⟩
    · intro _
      obtain ⟨b', h1, h2⟩ := provingTimeout_fallow hm
      exact ⟨b', h1, h2.mode, h2.reason, h2.loc⟩
  · exact fun hm => ⟨provingStep_self hm _, provingTimeout_self hm⟩

end Sys2Proof.Machine
end

section
/-! A Flelet request that passes items 1 to 8 of R497: how it reaches its command, and how its command answers (R491 to R497). -/

namespace Sys2Proof.Machine

section
variable {s : State} {c : Cmd} {src : FSource} {role : Role} {island : HubId} {p : Packet}

/-! ## The state in which the request is performed -/

/-- The request of a connection leaves a mark on it alone. -/
theorem heard_eq (s : State) (src : FSource) (p : Packet) :
    ∃ conns, s.heard src p = { s with body := { s.body with ctl := { s.body.ctl with conns := conns } } } := by
  cases src with
  | conn n =>
    simp only [State.heard]
    split
    · exact ⟨_, rfl⟩
    · exact ⟨_, rfl⟩
  | mailbox i n => exact ⟨s.body.ctl.conns, rfl⟩

@[simp] theorem heard_cfg : (s.heard src p).cfg = s.cfg := by obtain ⟨_, h⟩ := heard_eq s src p; rw [h]
@[simp] theorem heard_mode : (s.heard src p).body.ctl.mode = s.body.ctl.mode := by obtain ⟨_, h⟩ := heard_eq s src p; rw [h]
@[simp] theorem heard_genWait : (s.heard src p).body.ctl.genWait = s.body.ctl.genWait := by obtain ⟨_, h⟩ := heard_eq s src p; rw [h]
@[simp] theorem heard_isSplit : (s.heard src p).body.isSplit = s.body.isSplit := by obtain ⟨_, h⟩ := heard_eq s src p; rw [h]; rfl
@[simp] theorem heard_serving : (s.heard src p).body.serving = s.body.serving := by obtain ⟨_, h⟩ := heard_eq s src p; rw [h]; rfl
@[simp] theorem heard_staging : (s.heard src p).body.ctl.staging = s.body.ctl.staging := by obtain ⟨_, h⟩ := heard_eq s src p; rw [h]
@[simp] theorem heard_switching : (s.heard src p).body.ctl.switching = s.body.ctl.switching := by obtain ⟨_, h⟩ := heard_eq s src p; rw [h]
@[simp] theorem heard_silt : (s.heard src p).body.ctl.silt = s.body.ctl.silt := by obtain ⟨_, h⟩ := heard_eq s src p; rw [h]
@[simp] theorem heard_rejoin : (s.heard src p).body.ctl.rejoin = s.body.ctl.rejoin := by obtain ⟨_, h⟩ := heard_eq s src p; rw [h]
@[simp] theorem heard_halves : (s.heard src p).body.ctl.halves = s.body.ctl.halves := by obtain ⟨_, h⟩ := heard_eq s src p; rw [h]
@[simp] theorem heard_bundleReady : (s.heard src p).body.ctl.bundleReady = s.body.ctl.bundleReady := by
  obtain ⟨_, h⟩ := heard_eq s src p; rw [h]
@[simp] theorem heard_strands : (s.heard src p).body.strands = s.body.strands := by obtain ⟨_, h⟩ := heard_eq s src p; rw [h]
@[simp] theorem heard_domainBusy (d : Nat) : (s.heard src p).body.domainBusy d = s.body.domainBusy d := by
  obtain ⟨_, h⟩ := heard_eq s src p; rw [h]; rfl

/-! ## What comes before the command -/

/-- With nothing that waits, nothing is tried again. -/
theorem pump_calm (cmdOf : BitVec 16 → Option Cmd) (h : s.body.ctl.genWait = []) : pump cmdOf s = s := by
  have h2 : pump cmdOf s = { s with body := s.body.modCtl fun c => { c with genWait := [] } } := by
    simp only [pump, h, pumpList]
  rw [h2, ← h]
  rfl

theorem sweepSwitch_none {b : Body} (h : b.ctl.switching = none) : b.sweepSwitch = b := by
  simp only [Body.sweepSwitch, h]

/-- A command behind none that waits is performed. -/
theorem acceptCmd_calm {r : FReq} {t : State} (hg : s.body.ctl.genWait = []) (h : performCmd (some c) c.op r false p s = (t, false)) :
    acceptCmd (some c) c.op r false p s = t := by
  simp only [acceptCmd, hg, List.any_nil, Bool.false_eq_true, if_false, h]

/-- The request as its command sees it. -/
abbrev requestOf (src : FSource) (role : Role) (island : HubId) (p : Packet) : FReq :=
  { src := src, role := role, island := island, params := p.params }

/-- Items 1 to 4 of R497. -/
theorem checkHeader_asked (h : Asked s c src role island p) {t : State}
    (hp : performCmd (some c) c.op (requestOf src role island p) false p (s.heard src p) = (t, false)) :
    checkHeader (some c) c.op src island false p { s with body := s.body.touchConn src } = t := by
  have hg : (s.heard src p).body.ctl.genWait = [] := heard_genWait.trans h.calm
  have hsession := h.session
  cases src with
  | conn n =>
    obtain ⟨x, hx, hs, hr, hm⟩ := hsession
    have hx' : tGet (s.body.touchConn (.conn n)).ctl.conns n = some { x with lastPacket := s.body.now } := by
      simp only [Body.touchConn, Body.modCtl_ctl, tGet_tMod_self, hx, Option.map_some]
    have hw : (s.body.touchConn (.conn n)).waitsFor (.conn n) p.sequence = false := by
      have : (s.body.touchConn (.conn n)).ctl.genWait = [] := h.calm
      simp only [Body.waitsFor, this, List.any_nil]
    have hheard : s.heard (.conn n) p = { s with body := (s.body.touchConn (.conn n)).modCtl fun y => { y with
        conns := tPut y.conns n { x with session := some (p.session, role), lastPacket := s.body.now, maxSeq := p.sequence } } } := by
      simp only [State.heard, hx', ← hs]
    rw [hheard] at hp hg
    simp only [checkHeader, h.length, h.header, hx', hs, hr, hw, Nat.not_le.2 hm, bne_self_eq_false, Bool.false_eq_true, if_false]
    exact acceptCmd_calm hg hp
  | mailbox i n =>
    obtain ⟨hs, hr⟩ := hsession
    subst hr
    simp only [checkHeader, h.length, h.header, hs, bne_self_eq_false, Bool.false_eq_true, if_false]
    exact acceptCmd_calm hg hp

/-- The request is performed by its command. -/
theorem flelet_asked (h : Asked s c src role island p) {t : State}
    (hp : performCmd (some c) c.op (requestOf src role island p) false p (s.heard src p) = (t, false)) : flelet c src p s = .next t := by
  have hs : s.body.sweepSwitch = s.body := sweepSwitch_none h.settled
  simp only [flelet, pump_calm cmdOf h.calm, request, hs, h.reaches]
  rw [checkHeader_asked h hp]

/-! ## What the command answers -/

/-- Items 5 to 8 of R497 pass. -/
theorem performCmd_asked (h : Asked s c src role island p) :
    c.roles (s.heard src p).cfg role = true ∧ c.lenOk p.params = true ∧ (c.cls p.params).legal (s.heard src p).body.ctl.mode = true :=
  ⟨by rw [heard_cfg]; exact h.allowed, h.size, by rw [heard_mode]; exact h.legal⟩

theorem closeConns_noClose (b : Body) : b.closeConns noClose = b := by
  simp only [Body.closeConns, noClose, List.filter_false, List.map_nil, Bool.not_false, List.filter_true, List.contains_nil, List.append_nil]
  rfl

/-- A command that replies; the connections that it names are closed. -/
theorem performCmd_reply (h : Asked s c src role island p) {t : State} {status : Byte} {ps : List Byte} {close : Nat → Conn → Bool}
    (hr : c.run (requestOf src role island p) (s.heard src p) = .reply t status 0 ps false close) :
    performCmd (some c) c.op (requestOf src role island p) false p (s.heard src p) =
      ({ t.answered src p (replyBytes (s.heard src p).body island c.op p status 0 ps false) with
          body := (t.answered src p (replyBytes (s.heard src p).body island c.op p status 0 ps false)).body.closeConns close }, false) := by
  obtain ⟨h1, h2, h3⟩ := performCmd_asked h
  simp only [performCmd, Bool.false_and, Bool.false_eq_true, if_false, h1, h2, h3, Bool.not_true, hr]
  rfl

/-- A command that replies and closes nothing answers its request. -/
theorem Asked.answers (h : Asked s c src role island p) {i : Instr} (hi : exec i s = flelet c src p s) {f : State → State} {status : Byte}
    {ps : List Byte} (hr : c.run (requestOf src role island p) (s.heard src p) = .reply (f (s.heard src p)) status 0 ps false noClose) :
    Answers s i c src island p status ps f := by
  unfold Answers
  rw [hi, flelet_asked h (performCmd_reply h hr), closeConns_noClose]

/-- A long command starts with its ticket. -/
theorem Asked.starts (h : Asked s c src role island p) {i : Instr} (hi : exec i s = flelet c src p s) {f : BitVec 32 → State → State}
    (hr : c.run (requestOf src role island p) (s.heard src p) = .start f) : Starts s i c src role island p f := by
  intro b hb
  obtain ⟨h1, h2, h3⟩ := performCmd_asked h
  rw [hi, flelet_asked h]
  simp only [performCmd, Bool.false_and, Bool.false_eq_true, if_false, h1, h2, h3, Bool.not_true, hr]
  have hb' : (s.heard src p).body.issueTicket island role c.op
      (replyHeader (s.heard src p).body island c.op stStarted 0 p.sequence p.session 0 ((s.heard src p).body.nextTicket island)) = some b := hb
  simp only [hb']
  rfl

/-! ## Checks of parameters (item 9 of R497) -/

theorem checked_ok {cs : List (Nat × Bool)} (h : ∀ x ∈ cs, x.2 = true) (a : Answer) : checked s cs a = a := by
  simp only [checked, firstBad_none.2 h]

end

end Sys2Proof.Machine
end

section
/-! The configuration commands on valid parameters, each by its effect (R34, R269, R405, R416, R473, R479, R486, R503 to R509, R522 to R528). -/

namespace Sys2Proof.Machine

/-! ## Checks that pass -/

/-- Every check of a list passes. -/
def Passes (cs : List (Nat × Bool)) : Prop := ∀ x ∈ cs, x.2 = true

@[simp] theorem passes_nil : Passes [] := by simp [Passes]
@[simp] theorem passes_cons (o : Nat) (ok : Bool) (cs : List (Nat × Bool)) : Passes ((o, ok) :: cs) ↔ ok = true ∧ Passes cs := by
  simp only [Passes, List.forall_mem_cons]
@[simp] theorem passes_append (cs ds : List (Nat × Bool)) : Passes (cs ++ ds) ↔ Passes cs ∧ Passes ds := List.forall_mem_append
theorem passes_zeros {q : List Byte} {lo n : Nat} (h : zeroBytes q lo n) : Passes (zeros q lo n) := zeros_ok.2 h

theorem checked_passes {s : State} {cs : List (Nat × Bool)} (h : Passes cs) (a : Answer) : checked s cs a = a := checked_ok h a

/-- The hub that a parameter byte names. -/
theorem hub_of_field {n : Nat} {h : HubId} (hn : n = h.val) : (if n = 0 then (0 : HubId) else 1) = h := by
  subst hn
  rcases two_cases h with rfl | rfl <;> rfl

section
variable {s : State} {r : FReq}

/-! ## Identity, network and start (R503, R504) -/

theorem setOwnerAnchor_run {alg : Byte} (hn : s.cfg.anchor = none) (hm : s.body.ctl.mode = .standby) (ha : alg = 1 ∨ alg = 2)
    (h0 : r.params.getD 0 0 = alg) (hz : zeroBytes r.params 1 3) (hk : pf r.params 4 2 = algKey alg) (hs : pf r.params 6 2 = 0)
    (hl : r.params.length = 8 + 3 * algKey alg) : doSetOwnerAnchor r s =
      let key (i : Nat) := (r.params.drop (8 + i * algKey alg)).take (algKey alg)
      done (withCfg s fun c => { c with anchor := some { alg := alg, session := key 0, viewer := key 1, sign := key 2 } }) [] := by
  have hc : Passes ([(0, algOk alg)] ++ zeros r.params 1 3 ++ [(4, true)]) := by
    simp [(algOk_iff alg).2 ha, passes_zeros hz]
  simp only [doSetOwnerAnchor, h0, hk, hs, hl, hn, hm, checked_passes hc, Nat.add_zero, bne_self_eq_false, decide_true, Bool.and_self, Bool.not_true,
    Bool.false_eq_true, if_false]

theorem setMgmtNet_bad {h : HubId} (h0 : pf r.params 0 1 = h.val) (hs : s.body.isSplit = true) (hh : h ≠ r.island) :
    doSetMgmtNet r s = bad s 0 := by
  have ho : s.body.otherHalf r.island h = true := by simp [Body.otherHalf, hs, hh]
  simp only [doSetMgmtNet, hub_of_field h0, ho, Bool.not_true, Bool.and_false]
  rfl

theorem setMgmtNet_run {h : HubId} (h0 : pf r.params 0 1 = h.val) (h1 : pf r.params 1 1 < 4) (h2 : pf r.params 2 1 ≤ 32) (h3 : pf r.params 3 1 ≤ 128)
    (hs : s.body.isSplit = false ∨ h = r.island) : doSetMgmtNet r s =
      .reply (withCfg s fun c => { c with mgmtNet := c.mgmtNet.set h r.params }) stDone 0 [] false fun _ c => c.port = h := by
  have ho : s.body.otherHalf r.island h = false := by
    rcases hs with hs | rfl
    · simp [Body.otherHalf, hs]
    · simp [Body.otherHalf]
  have hlt : h.val ≤ 1 := by omega
  simp only [doSetMgmtNet, hub_of_field h0, ho]
  exact checked_passes (by simp [h0, hlt, h1, h2, h3]) _

theorem setAutostart_run (h : pf r.params 0 1 ≤ 1) : doSetAutostart r s =
    done (withCfg s fun c => { c with autostart := decide (pf r.params 0 1 = 1) }) [] :=
  checked_passes (by simp [h]) _

theorem setAutostart_bad (h : 1 < pf r.params 0 1) : doSetAutostart r s = bad s 0 := by
  simp only [doSetAutostart, Nat.not_le.2 h, decide_false]
  rfl

theorem setPreferredHalf_run {h : HubId} (h0 : pf r.params 0 1 = h.val) : doSetPreferredHalf r s = done (withCfg s fun c => { c with preferred := h }) [] := by
  have hlt : h.val ≤ 1 := by omega
  simp only [doSetPreferredHalf, hub_of_field h0]
  exact checked_passes (by simp [h0, hlt]) _

/-! ## Octets, far memory and images (R405, R406, R416, R506 to R508) -/

theorem setOctet_run {o : OctetId} (h0 : pf r.params 0 1 = o.val) (hl : (octetOf r.params).legal) (hs : s.body.serving = false) :
    doSetOctet r s = done (withCfg s fun c => { c with octets := c.octets.set o (octetOf r.params) }) [] := by
  have hc : firstBad (octetChecks r.params) = none := octetChecks_none.2 ⟨by omega, hl⟩
  have ho : pf r.params 0 1 % 12 = o.val := by have := o.isLt; omega
  simp only [doSetOctet, ho, hs, Bool.false_eq_true, if_false, checked, hc]

theorem setFarmem_nil (h : r.params = []) : doSetFarmem r s = done (withCfg s fun c => { c with farPairs := [] }) [] := by
  simp only [doSetFarmem, h, List.length_nil, Nat.zero_div, List.range_zero, List.map_nil, List.flatMap_nil]
  exact checked_passes passes_nil _

theorem setFarmem_one (hl : r.params.length = 8) (h0 : pf r.params 0 1 < 96) (h1 : pf r.params 1 1 < 96) (hz : zeroBytes r.params 2 2)
    (hb : pf r.params 4 4 < 4096) : doSetFarmem r s = done (withCfg s fun c => { c with
      farPairs := [{ portA := r.params.getD 0 0, portB := r.params.getD 1 0, base := BitVec.ofNat 32 (pf r.params 4 4) }] }) [] := by
  have hA : portByteOk (r.params.getD 0 0) = true := by simpa [portByteOk, pf, field_one] using h0
  have hB : portByteOk (r.params.getD 1 0) = true := by simpa [portByteOk, pf, field_one] using h1
  have hr : List.range (r.params.length / 8) = [0] := by rw [hl]; rfl
  simp only [doSetFarmem, hr, List.map_cons, List.map_nil, List.flatMap_cons, List.flatMap_nil, List.append_nil, Nat.mul_zero, Nat.zero_add]
  refine (checked_passes ?_ _).trans rfl
  simp only [passes_append, passes_cons, passes_nil, decide_eq_true_eq, List.take_zero, List.any_nil, Bool.not_false, Bool.and_true, and_true,
    hA, hB, passes_zeros hz, hb]

theorem setActiveSlot_run {k : Fin 2} (h0 : pf r.params 0 1 = k.val) (hv : (s.cfg.slots[k]).valid = true) :
    doSetActiveSlot r s = done (withCfg s fun c => { c with active := k }) [] := by
  have hlt : k.val ≤ 1 := by omega
  simp only [doSetActiveSlot, hub_of_field (h := k) h0]
  exact checked_passes (by simp only [passes_cons, passes_nil, h0, hlt, hv, decide_true, Bool.and_self, and_self]) _

theorem imageBegin_run {n : Nat} (hr : r.src = .conn n) (h0 : pf r.params 0 1 = 3) (ha : algOk (r.params.getD 1 0) = true)
    (hs : pf r.params 2 2 = algSig (r.params.getD 1 0)) (hg : tGet s.body.ctl.staging 3 = none) : doImageBegin r s =
      done (withBody s fun x => x.putStaging 3 { conn := n, alg := r.params.getD 1 0, length := pf r.params 4 4, keyid := (r.params.drop 8).take 32,
                                                 sig := r.params.drop 40, data := [], lastData := x.now }) [] := by
  have hst : s.body.stagedByOther 3 n = false := by simp only [Body.stagedByOther, hg]
  have hno : r.connNo = n := by simp only [FReq.connNo, hr]
  have hc : Passes [(0, true), (1, algOk (r.params.getD 1 0)), (2, decide (pf r.params 2 2 = algSig (r.params.getD 1 0))),
      (4, imageLenOk 3 (pf r.params 4 4))] := by
    simp only [passes_cons, passes_nil, ha, hs, decide_true, imageLenOk, and_self]
  simp only [doImageBegin, h0, hno, hst]
  exact checked_passes hc _

section
variable {n : Nat} {y : Staging} (hr : r.src = .conn n) (hg : tGet s.body.ctl.staging (pf r.params 0 1) = some y) (hy : y.conn = n)
  (hz : zeroBytes r.params 1 3)
include hr hg hy hz

theorem imageData_run (hl : pf r.params 4 4 + (r.params.length - 8) ≤ y.length) : doImageData r s =
    done (withBody s fun x => x.putStaging (pf r.params 0 1)
      { y with data := overlay y.data (pf r.params 4 4) (r.params.drop 8), lastData := x.now }) [] := by
  have hno : (y.conn != r.connNo) = false := by simp only [FReq.connNo, hr, hy, bne_self_eq_false]
  simp only [doImageData, hg, hno, Bool.false_eq_true, if_false]
  exact checked_passes (by simp [passes_zeros hz, hl]) _

theorem imageAbort_run (h1 : 1 ≤ pf r.params 0 1) (h5 : pf r.params 0 1 ≤ 5) : doImageAbort r s =
    done (withBody s fun x => x.dropStaging (pf r.params 0 1)) [] := by
  have hst : s.body.stagedByOther (pf r.params 0 1) r.connNo = false := by
    simp only [Body.stagedByOther, hg, FReq.connNo, hr, hy, bne_self_eq_false]
  simp only [doImageAbort, hst, Bool.false_eq_true, if_false]
  exact checked_passes (by simp [passes_zeros hz, h1, h5]) _

theorem imageCommit_run (hs : s.body.ctl.switching = none) : doImageCommit r s =
    .start fun t x => commitImage (pf r.params 0 1) y t (withBody x fun k => k.dropStaging (pf r.params 0 1)) := by
  have hno : (y.conn != r.connNo) = false := by simp only [FReq.connNo, hr, hy, bne_self_eq_false]
  simp only [doImageCommit, hg, hno, hs, Option.isSome_none, Bool.and_false, Bool.or_self, Bool.false_eq_true, if_false]
  exact checked_passes (by simp [passes_zeros hz]) _

end

/-! ## Logs, modes and tickets (R504, R522 to R528) -/

theorem thawSilt_run (h : s.body.ctl.mode ≠ .fallow) : doThawSilt r s = done (withBody s fun x => x.thawSilt 1 (x.siltOf r.island)) [] := if_neg h

theorem clearRetained_run {i : Fin 16} (h0 : pf r.params 0 1 = i.val) (hz : zeroBytes r.params 1 3)
    (hw : ∀ h : HubId, (s.body.ctl.silt[h]).writing = none) : doClearRetained r s =
      done (withBody s fun x => x.modCtl fun c => { c with retained := c.retained.set i.val none }) [] := by
  have hany : (s.body.ctl.silt.toList.any fun g => g.writing.isSome) = false := by
    rw [List.any_eq_false]
    intro g hg
    obtain ⟨k, hk, rfl⟩ := List.mem_iff_getElem.1 hg
    have hk2 : k < 2 := by simpa using hk
    have := hw ⟨k, hk2⟩
    simp only [Fin.getElem_fin] at this
    simp [this]
  have hi := i.isLt
  have hne : i.val ≠ 0xFF := by omega
  have hle : i.val ≤ 15 := by omega
  simp only [doClearRetained, hany, h0, hne, Bool.false_eq_true, if_false]
  exact checked_passes (by simp [passes_zeros hz, hle]) _

theorem powerOff_run (h : s.body.serving = true → r.params.getD 0 0 = 1) : doPowerOff r s =
    done (withBody s fun x => x.leave s.cfg fun y => y.enterStandby true) [] := by
  have hb : (s.body.serving && r.params.getD 0 0 != 1) = false := by
    cases hs : s.body.serving
    · rfl
    · rw [h hs]; rfl
  simp only [doPowerOff, hb, Bool.false_eq_true, if_false]

section
variable {t : Ticket} (ht : s.body.ticketFor r = some t)
include ht

theorem releaseResult_run (h : t.result ≠ none) : doReleaseResult r s =
    done (withBody s fun x => x.modCtl fun c => { c with tickets := ticketLeaves s.body.isSplit r.island t c.tickets }) [] := by
  have : t.result.isNone = false := by simpa [Option.isNone_eq_false_iff, Option.isSome_iff_ne_none] using h
  simp only [doReleaseResult, ht, this, Bool.false_eq_true, if_false]

theorem releaseResult_busy (h : t.result = none) : doReleaseResult r s = only s stBusy := by
  simp only [doReleaseResult, ht, h, Option.isNone_none, if_true]

end

end

end Sys2Proof.Machine
end

section
/-! What a mailbox reply leaves of the control hierarchy: its bytes go to memory alone (R494, R495). -/

namespace Sys2Proof.Machine

theorem foldl_ctl {α : Type} {f : Body → α → Body} (step : ∀ b a, (f b a).ctl = b.ctl) (l : List α) (b : Body) : (l.foldl f b).ctl = b.ctl :=
  foldl_rel (R := fun b b' : Body => b'.ctl = b.ctl) (fun _ => rfl) (fun _ _ _ h k => Eq.trans k h) step l b

theorem memWrite_ctl (b : Body) (l : Line) (slot : Byte) (d : LineData) : (b.memWrite l slot d).ctl = b.ctl := by
  have hw : ∀ (x : Body) (k : Line), (x.modMem fun m => (m.write k slot d).dirtyParity k).ctl = x.ctl := fun x k => Body.modMem_ctl _ _
  unfold Body.memWrite
  extract_lets w
  split
  · exact hw _ _
  · split
    · exact hw _ _
    · split
      · exact hw _ _
      · exact (hw _ _).trans (hw _ _)

theorem crossing_ctl (b : Body) (src dst : HubId) (l : Option Line) : (b.crossing src dst l).2.ctl = b.ctl := by
  unfold Body.crossing
  split
  · rfl
  · split
    · rfl
    · rfl

theorem sendBack_ctl (b : Body) (d : Departing) : (b.sendBack d).ctl = b.ctl := crossing_ctl b _ _ _

theorem pick_ctl {α : Type} (b : Body) (l : List α) : (b.pick l).2.ctl = b.ctl := by
  unfold Body.pick
  split
  · rfl
  · rfl
  · rfl

theorem replaceWay_ctl (b : Body) (u : UseOrder) (set : Nat) (ws : List Nat) (ovf : Bool) : (b.replaceWay u set ws ovf).2.ctl = b.ctl := by
  unfold Body.replaceWay
  split
  · rfl
  · exact pick_ctl _ _

theorem l3Fill_ctl (b : Body) (d : CDieId) (l : Line) (data : LineData) (dirty : Bool) (slot : Byte) (mask : BitVec 16) (part : Byte) :
    (b.l3Fill d l data dirty slot mask part).1.ctl = b.ctl := by
  unfold Body.l3Fill
  extract_lets put new
  split
  · rfl
  · split
    · rfl
    · split
      rename_i ws ovf _
      extract_lets b1
      have h1 : b1.ctl = b.ctl := by
        simp only [b1]
        split
        · rfl
        · rfl
      split
      · exact h1
      · have h2 := replaceWay_ctl b1 (b1.die d).l3Use (l3Slot l 0 / 16) ws ovf
        split
        · rename_i b2 h
          rw [h] at h2
          exact h2.trans h1
        · rename_i w b2 h
          rw [h] at h2
          have h3 : b2.ctl = b.ctl := h2.trans h1
          extract_lets k
          split
          · split
            · exact (sendBack_ctl _ _).trans h3
            · exact h3
          · exact h3

theorem homeAccept_ctl (b : Body) (l : Line) (d : LineData) (slot : Byte) (nol3 : Bool) (mask : BitVec 16) (part : Byte) (fill : Bool) :
    (b.homeAccept l d slot nol3 mask part fill).1.ctl = b.ctl := by
  unfold Body.homeAccept
  split
  · refine (memWrite_ctl _ _ _ _).trans ?_
    split
    · rfl
    · rfl
  · split
    · rfl
    · split
      · split
        · exact l3Fill_ctl _ _ _ _ _ _ _ _
        · exact memWrite_ctl _ _ _ _
      · exact memWrite_ctl _ _ _ _

theorem acceptBack_ctl (b : Body) (d : Departing) : (b.acceptBack d).ctl = b.ctl := by
  have h := homeAccept_ctl b d.line d.data d.slot d.nol3 d.l3mask 0 true
  unfold Body.acceptBack
  extract_lets drop
  split
  · exact memWrite_ctl _ _ _ _
  · split
    · rename_i b' e
      rw [e] at h
      exact h
    · rename_i b' e
      rw [e] at h
      exact h

theorem awaitBack_ctl (b : Body) (l : Line) : (b.awaitBack l).ctl = b.ctl := by
  unfold Body.awaitBack
  extract_lets round
  have h : ∀ x : Body, (round x).ctl = x.ctl := fun x => foldl_ctl acceptBack_ctl _ x
  split
  · rfl
  · rw [h, h, h]

theorem l2Remove_ctl (b : Body) (c : ClusterId) (slot : Nat) (e : L2Line) (keep : Bool) : (b.l2Remove c slot e keep).ctl = b.ctl := by
  have hr : ∀ x : Body, (x.endLineResv c e.line).ctl = x.ctl := fun x => by
    unfold Body.endLineResv
    extract_lets g
    split
    · rfl
    · exact Body.mapStrands_ctl _ _
  have hl : ∀ x : Body, (x.dropL1 c e.line).ctl = x.ctl := fun x => by simp only [Body.dropL1]
  simp only [Body.l2Remove, Body.dirDrop, Body.setDir_ctl, hr, hl, Body.modCluster_ctl]

theorem invalidateOthers_ctl (b : Body) (l : Line) (keep : Option ClusterId) : (b.invalidateOthers l keep).ctl = b.ctl := by
  refine foldl_ctl (fun x c => ?_) _ b
  dsimp only
  split
  · refine (l2Remove_ctl _ _ _ _ _).trans ?_
    split
    · exact homeAccept_ctl _ _ _ _ _ _ _ _
    · rfl
  · rfl

theorem homeStore_ctl (b : Body) (pa : Nat) (bs : List Byte) (slot : Byte) (clear : Bool) : (b.homeStore pa bs slot clear).ctl = b.ctl := by
  have hd : ∀ (x : Body) (o : Option (CDieId × Nat × L3Line)), (match o with
      | some (h, k, _) => x.modDie h fun y => { y with l3 := tDel y.l3 k }
      | none => x).ctl = x.ctl := fun x o => by
    split
    · exact Body.modDie_ctl _ _ _
    · rfl
  have hp : ∀ (x : Body) (q : Bool) (f : MemSys → MemSys), (if q then x.modMem f else x).ctl = x.ctl := fun x q f => by
    split
    · exact Body.modMem_ctl _ _
    · rfl
  rw [Body.homeStore, Body.endResvAt, Body.mapStrands_ctl, hp, memWrite_ctl, Body.setDir_ctl]
  exact (hd _ _).trans ((invalidateOthers_ctl _ _ _).trans (awaitBack_ctl _ _))

theorem writeSup_ctl (slot : Byte) (fuel : Nat) (b : Body) (pa : Nat) (bs : List Byte) : (b.writeSup slot pa bs fuel).ctl = b.ctl := by
  induction fuel generalizing b pa bs with
  | zero => rfl
  | succ fuel ih =>
    unfold Body.writeSup
    split
    · rfl
    · exact (ih _ _ _).trans (homeStore_ctl _ _ _ _ _)

theorem keepReply_ctl (b : Body) (src : FSource) (seq : BitVec 32) (bs : List Byte) :
    ∃ conns, (b.keepReply src seq bs).ctl = { b.ctl with conns := conns } := by
  cases src with
  | conn n => exact ⟨_, rfl⟩
  | mailbox i n => exact ⟨b.ctl.conns, rfl⟩

theorem sendReply_ctl (b : Body) (src : FSource) (bs : List Byte) : ∃ outbox, (b.sendReply src bs).ctl = { b.ctl with outbox := outbox } := by
  cases src with
  | conn n =>
    unfold Body.sendReply
    by_cases h : (tGet b.ctl.conns n).isSome
    · exact ⟨b.ctl.outbox ++ [(n, bs)], by simp only [if_pos h, Body.modCtl_ctl]⟩
    · exact ⟨b.ctl.outbox, by simp only [if_neg h]⟩
  | mailbox i n =>
    have h : (b.sendReply (.mailbox i n) bs).ctl = b.ctl := by
      simp only [Body.sendReply]
      split
      · rfl
      · exact (writeSup_ctl _ _ _ _ _).trans (writeSup_ctl _ _ _ _ _)
    exact ⟨b.ctl.outbox, h⟩

/-- An answer changes the control hierarchy by the connections' replies alone. -/
theorem answered_ctl (t : State) (src : FSource) (p : Packet) (bs : List Byte) :
    ∃ conns outbox, (t.answered src p bs).body.ctl = { t.body.ctl with conns := conns, outbox := outbox } := by
  obtain ⟨conns, h1⟩ := keepReply_ctl t.body src p.sequence bs
  obtain ⟨outbox, h2⟩ := sendReply_ctl (t.body.keepReply src p.sequence bs) src bs
  exact ⟨conns, outbox, by rw [State.answered, h2, h1]⟩

/-- An answer on a connection leaves the strands. -/
theorem answered_conn_strands (t : State) (n : Nat) (p : Packet) (bs : List Byte) : (t.answered (.conn n) p bs).body.strands = t.body.strands := by
  have h : ∀ b : Body, (b.sendReply (.conn n) bs).strands = b.strands := fun b => by
    simp only [Body.sendReply]
    split
    · rfl
    · rfl
  exact h _

end Sys2Proof.Machine
end

section
/-! The rails' and domains' commands, and REJOIN (R34, R466, R467, R486, R505). -/

namespace Sys2Proof.Machine

/-! ## Limits of the rails (R34, R505) -/

theorem vget_of_fin {α : Type} {n : Nat} (v : Vector α n) (i : Fin n) (d : α) : vget v i.val d = v[i] := dif_pos i.isLt

/-- A setpoint is not below its floor. -/
theorem floor_le_clampRail (cfg : FlashCfg) (d : Fin 232) (mv : Nat) : (cfg.floor[d]).toNat ≤ (clampRail cfg d.val mv).toNat := by
  have hf := (cfg.floor[d]).isLt
  have hc := (cfg.ceil[d]).isLt
  simp only [clampRail, vget_of_fin, BitVec.toNat_ofNat]
  split <;> omega

/-- Where no clocked island needs more, a setpoint is not above its ceiling. -/
theorem clampRail_le_ceil {cfg : FlashCfg} {d : Fin 232} (h : (cfg.floor[d]).toNat ≤ (cfg.ceil[d]).toNat) (hk : clockedDomain d.val = false) (mv : Nat) :
    (clampRail cfg d.val mv).toNat ≤ (cfg.ceil[d]).toNat := by
  have hc := (cfg.ceil[d]).isLt
  simp only [clampRail, vget_of_fin, BitVec.toNat_ofNat, hk, Bool.false_eq_true, if_false]
  omega

/-- New limits for a range of domains. -/
def FlashCfg.limited (c : FlashCfg) (first last lo hi : Nat) : FlashCfg := { c with
  floor := Vector.ofFn fun d => if first ≤ d.val && d.val ≤ last then BitVec.ofNat 16 lo else c.floor[d]
  ceil := Vector.ofFn fun d => if first ≤ d.val && d.val ≤ last then BitVec.ofNat 16 hi else c.ceil[d] }

theorem limited_limits (c : FlashCfg) {first last lo hi : Nat} (hl : lo ≤ 950) (hh : hi ≤ 950) (d : Fin 232) :
    ((c.limited first last lo hi).floor[d]).toNat = (if first ≤ d.val ∧ d.val ≤ last then lo else (c.floor[d]).toNat) ∧
      ((c.limited first last lo hi).ceil[d]).toNat = (if first ≤ d.val ∧ d.val ≤ last then hi else (c.ceil[d]).toNat) := by
  simp only [FlashCfg.limited, Fin.getElem_fin, Vector.getElem_ofFn, Bool.and_eq_true, decide_eq_true_eq]
  split
  · simp only [BitVec.toNat_ofNat]
    omega
  · exact ⟨rfl, rfl⟩

/-- Every setpoint of a list's domains is clamped at once. -/
def Body.clampRails (b : Body) (cfg : FlashCfg) (ds : List Nat) : Body :=
  ds.foldl (fun (b : Body) d => b.setRail d (clampRail cfg d (b.domain d).rail.toNat)) b

theorem clampRails_domainsOnly (b : Body) (cfg : FlashCfg) (ds : List Nat) : DomainsOnly b (b.clampRails cfg ds) := .foldl (fun _ _ => ⟨_, rfl⟩) _ _

/-- A clamped setpoint stands within the limits. -/
theorem clampRails_within {cfg : FlashCfg} {d : Fin 232} (h : (cfg.floor[d]).toNat ≤ (cfg.ceil[d]).toNat) (hk : clockedDomain d.val = false)
    (ds : List Nat) (b : Body) (hd : d.val ∈ ds ∨ (cfg.floor[d]).toNat ≤ (b.domain d.val).rail.toNat ∧ (b.domain d.val).rail.toNat ≤ (cfg.ceil[d]).toNat) :
    (cfg.floor[d]).toNat ≤ ((b.clampRails cfg ds).domain d.val).rail.toNat ∧ ((b.clampRails cfg ds).domain d.val).rail.toNat ≤ (cfg.ceil[d]).toNat := by
  induction ds generalizing b with
  | nil => simpa [Body.clampRails] using hd
  | cons e ds ih =>
    refine ih (b.setRail e (clampRail cfg e (b.domain e).rail.toNat)) ?_
    by_cases he : e = d.val
    · subst he
      rw [(b.domain_setRail_self d.isLt _).2]
      exact .inr ⟨floor_le_clampRail cfg d _, clampRail_le_ceil h hk _⟩
    · rw [b.domain_setRail_ne he]
      simpa only [List.mem_cons, Ne.symm he, false_or] using hd

section
variable {s : State} {r : FReq}

theorem setRailLimits_run (h1 : pf r.params 0 2 ≤ pf r.params 2 2) (h2 : pf r.params 2 2 ≤ 231) (h3 : pf r.params 4 2 % 5 = 0)
    (h4 : pf r.params 6 2 % 5 = 0) (h5 : 650 ≤ pf r.params 4 2) (h6 : pf r.params 4 2 ≤ pf r.params 6 2) (h7 : pf r.params 6 2 ≤ 950) :
    doSetRailLimits r s =
      let cfg := s.cfg.limited (pf r.params 0 2) (pf r.params 2 2) (pf r.params 4 2) (pf r.params 6 2)
      done { s with cfg := cfg, body := s.body.clampRails cfg ((List.range 232).filter fun d => pf r.params 0 2 ≤ d && d ≤ pf r.params 2 2) } [] :=
  checked_passes (by simp [h1, h2, h3, h4, h5, h6, h7, h1.trans h2, h6.trans h7]) _

theorem setRail_run (hd : pf r.params 0 2 ≤ 231) (hm : pf r.params 2 2 % 5 = 0) (hs : s.body.isSplit = false) : doSetRail r s =
    done (withBody s fun x => x.setRail (pf r.params 0 2) (clampRail s.cfg (pf r.params 0 2) (pf r.params 2 2)))
      (leBytes 2 (clampRail s.cfg (pf r.params 0 2) (pf r.params 2 2)).toNat) :=
  checked_passes (by simp [hd, hm, Body.otherHalf, hs]) _

/-! ## Domains (R486, R505) -/

section
variable (hd : pf r.params 0 2 ≤ 231) (ho : pf r.params 2 1 ≤ 1) (hz : zeroBytes r.params 3 1) (hs : s.body.isSplit = false)
include hd ho hz hs

theorem setDomain_passes {why : Option Byte} (hw : why ≠ some stBadParameter) :
    Passes ([(0, decide (pf r.params 0 2 ≤ 231) && !s.body.otherHalf r.island (domainHalf (pf r.params 0 2)) && why != some stBadParameter),
      (2, decide (pf r.params 2 1 ≤ 1))] ++ zeros r.params 3 1) := by
  simp [hd, ho, passes_zeros hz, Body.otherHalf, hs, hw]

theorem setDomain_busy (hb : s.body.domainBusy (pf r.params 0 2) = some stBusy) : doSetDomain r s = only s stBusy := by
  simp only [doSetDomain, hb]
  exact checked_passes (setDomain_passes hd ho hz hs (by decide)) _

theorem setDomain_off (hb : s.body.domainBusy (pf r.params 0 2) = none) (h0 : pf r.params 2 1 = 0) : doSetDomain r s =
    done (withBody s fun x => (x.clearDomain (pf r.params 0 2)).switch (pf r.params 0 2) false) [] := by
  have hoff : decide (pf r.params 2 1 = 1) = false := by simp [h0]
  simp only [doSetDomain, hb, hoff, Bool.false_and, Bool.false_eq_true, if_false, dite_eq_ite, ite_self]
  exact checked_passes (setDomain_passes hd ho hz hs (by decide)) _

end

theorem setDomain_bad (hb : s.body.domainBusy (pf r.params 0 2) = some stBadParameter) : doSetDomain r s = bad s 0 := by
  simp only [doSetDomain, hb, bne_self_eq_false, Bool.and_false]
  rfl

/-! ## REJOIN (R466, R467) -/

/-- Step 1 of R467: the bundles that are ready are up again. -/
def Body.rejoining (b : Body) (t : BitVec 32) (i : HubId) : Body :=
  let up := ([0, 1] : List BundleId).filter fun n => b.ctl.bundleReady[n]
  b.modCtl fun c => { c with
    rejoin := some (t, i)
    bundles := up.foldl (fun (v : Vector Bool 2) (n : BundleId) => v.set n true) c.bundles
    bundleTest := up.foldl (fun (v : Vector (Option Nat) 2) (n : BundleId) => v.set n none) c.bundleTest }

/-- The bundles and the rejoin are recorded. -/
def Body.rejoinLogged (b : Body) (i : HubId) : Body :=
  ((([0, 1] : List BundleId).filter fun n => b.ctl.bundleReady[n]).foldl
    (fun (b : Body) (n : BundleId) => b.report (bundleLoc i n) 0x0505 (dataOf [(1, n.val)])) b).report (islandLoc i) 0x0602

theorem rejoinLogged_logOnly (b : Body) (i : HubId) : LogOnly b (b.rejoinLogged i) :=
  (LogOnly.foldl (fun _ _ => .report _ _ _ _) _ b).trans (.report _ _ _ _)

theorem doRejoin_run (h1 : s.body.ctl.rejoin = none) (h2 : (s.body.ctl.halves[r.island]).half = .lead) (h3 : s.body.ctl.bundleReady[(0 : BundleId)] = true) :
    doRejoin r s = .start fun t x => withBody x fun b => (b.rejoining t r.island).rejoinLogged r.island := by
  have hl : (HalfSt.lead = HalfSt.fenced) = False := by simp
  simp only [doRejoin, h1, h2, h3, hl, Option.isSome_none, Bool.true_or, Bool.not_true, Bool.or_self, Bool.false_eq_true, bne_self_eq_false,
    Bool.false_and, if_false]
  rfl

theorem rejoining_bundle {b : Body} (h : b.ctl.bundleReady[(0 : BundleId)] = true) (t : BitVec 32) (i : HubId) :
    ((b.rejoining t i).ctl.bundles[(0 : BundleId)]) = true := by
  simp only [Body.rejoining, Body.modCtl_ctl, List.filter_cons, h, if_true, List.filter_nil, List.foldl_cons]
  split
  · simp
  · simp

theorem issueTicket_bundleReady {b b' : Body} {h : HubId} {role : Role} {op : BitVec 16} {hdr : List Byte} (hi : b.issueTicket h role op hdr = some b') :
    b'.ctl.bundleReady = b.ctl.bundleReady := by
  unfold Body.issueTicket at hi
  split at hi
  · cases hi
  · obtain rfl := Option.some.inj hi
    rfl

end

end Sys2Proof.Machine
end

section
/-! The configuration commands as requests. -/

namespace Sys2Proof.Machine

section
variable {s : State} {c : Cmd} {src : FSource} {role : Role} {island : HubId} {p : Packet}

/-- A request that asks a command for a reply that closes nothing. -/
theorem Asked.next_reply (h : Asked s c src role island p) {i : Instr} (hi : exec i s = flelet c src p s) {t : State} {status : Byte} {ps : List Byte}
    {close : Nat → Conn → Bool} (hr : c.run (requestOf src role island p) (s.heard src p) = .reply t status 0 ps false close) :
    ∃ bs, exec i s = .next { t.answered src p bs with body := (t.answered src p bs).body.closeConns close } :=
  ⟨_, hi.trans (flelet_asked h (performCmd_reply h hr))⟩

/-- What a long command does is seen in the state that accepts it. -/
theorem Starts.of_eq {i : Instr} {f g : BitVec 32 → State → State} (h : Starts s i c src role island p f)
    (hfg : ∀ t b, f t { s.heard src p with body := b } = g t { s.heard src p with body := b }) : Starts s i c src role island p g :=
  fun b hb => by rw [← hfg]; exact h b hb

/-- The owner asks on a connection. -/
theorem Asked.conn_of_owner (h : Asked s c src role island p) (hc : c.roles s.cfg role = rolesO s.cfg role) : ∃ n, src = .conn n := by
  have ho : role = .owner := by simpa [rolesO] using hc.symm.trans h.allowed
  cases src with
  | conn n => exact ⟨n, rfl⟩
  | mailbox i n => exact absurd (h.session.2.symm.trans ho) (by decide)

theorem closeConns_conns (b : Body) (close : Nat → Conn → Bool) : ∀ e ∈ (b.closeConns close).ctl.conns, close e.1 e.2 = false := by
  intro e he
  simpa using (List.mem_filter.1 he).2

/-- SET_MGMT_NET ends the connections of its port (R503). -/
theorem setMgmtNet_closes (h : Asked s cmdSetMgmtNet src role island p) {k : HubId} (h0 : pf p.params 0 1 = k.val) (h1 : pf p.params 1 1 < 4)
    (h2 : pf p.params 2 1 ≤ 32) (h3 : pf p.params 3 1 ≤ 128) (hs : s.body.isSplit = false ∨ k = island) :
    ∃ t : State, exec (.setMgmtNet src p) s = .next t ∧ t.cfg = { s.cfg with mgmtNet := s.cfg.mgmtNet.set k p.params } ∧
      ∀ e ∈ t.body.ctl.conns, e.2.port ≠ k := by
  obtain ⟨bs, hx⟩ := h.next_reply (i := .setMgmtNet src p) rfl (setMgmtNet_run (r := requestOf src role island p) h0 h1 h2 h3 (by rw [heard_isSplit]; exact hs))
  refine ⟨_, hx, ?_, fun e he => ?_⟩
  · change { (s.heard src p).cfg with mgmtNet := (s.heard src p).cfg.mgmtNet.set k p.params } = _
    rw [heard_cfg]
  · exact of_decide_eq_false (closeConns_conns _ _ e he)

/-- What SET_RAIL_LIMITS leaves (R34, R505). -/
structure RailsLimited (s t : State) (first last lo hi : Nat) : Prop where
  strands : t.body.strands = s.body.strands
  limits : ∀ d : Fin 232, (t.cfg.floor[d]).toNat = (if first ≤ d.val ∧ d.val ≤ last then lo else (s.cfg.floor[d]).toNat) ∧
    (t.cfg.ceil[d]).toNat = (if first ≤ d.val ∧ d.val ≤ last then hi else (s.cfg.ceil[d]).toNat)
  rails : ∀ d : Fin 232, first ≤ d.val → d.val ≤ last → clockedDomain d.val = false →
    lo ≤ (t.body.domain d.val).rail.toNat ∧ (t.body.domain d.val).rail.toNat ≤ hi

theorem setRailLimits_limited (h : Asked s cmdSetRailLimits src role island p) (h1 : pf p.params 0 2 ≤ pf p.params 2 2) (h2 : pf p.params 2 2 ≤ 231)
    (h3 : pf p.params 4 2 % 5 = 0) (h4 : pf p.params 6 2 % 5 = 0) (h5 : 650 ≤ pf p.params 4 2) (h6 : pf p.params 4 2 ≤ pf p.params 6 2)
    (h7 : pf p.params 6 2 ≤ 950) : ∃ t : State, exec (.setRailLimits src p) s = .next t ∧
      RailsLimited s t (pf p.params 0 2) (pf p.params 2 2) (pf p.params 4 2) (pf p.params 6 2) := by
  obtain ⟨n, rfl⟩ := h.conn_of_owner rfl
  obtain ⟨bs, hx⟩ := h.next_reply (i := .setRailLimits (.conn n) p) rfl (setRailLimits_run (r := requestOf (.conn n) role island p) h1 h2 h3 h4 h5 h6 h7)
  rw [closeConns_noClose, heard_cfg] at hx
  have hlim := limited_limits s.cfg (first := pf p.params 0 2) (last := pf p.params 2 2) (h6.trans h7) h7
  generalize hcfg : s.cfg.limited (pf p.params 0 2) (pf p.params 2 2) (pf p.params 4 2) (pf p.params 6 2) = cfg at hx hlim
  generalize hds : (List.range 232).filter (fun d => decide (pf p.params 0 2 ≤ d) && decide (d ≤ pf p.params 2 2)) = ds at hx
  refine ⟨_, hx, ?_, hlim, fun d hf hl hk => ?_⟩
  · refine (answered_conn_strands _ _ _ _).trans ?_
    obtain ⟨_, e⟩ := clampRails_domainsOnly (s.heard (.conn n) p).body cfg ds
    exact (congrArg Body.strands e).trans heard_strands
  · have hd : d.val ∈ ds := by
      rw [← hds]
      exact List.mem_filter.2 ⟨List.mem_range.2 d.isLt, by simp [hf, hl]⟩
    obtain ⟨hfl, hce⟩ := hlim d
    rw [if_pos ⟨hf, hl⟩] at hfl hce
    have hin := clampRails_within (cfg := cfg) (d := d) (by omega) hk ds (s.heard (.conn n) p).body (.inl hd)
    rw [hfl, hce] at hin
    obtain ⟨_, _, e⟩ := answered_ctl { s.heard (.conn n) p with cfg := cfg, body := (s.heard (.conn n) p).body.clampRails cfg ds } (.conn n) p bs
    have hdom : ∀ x : Body, x.domain d.val = vget x.ctl.domains d.val {} := fun _ => rfl
    rw [hdom] at hin ⊢
    rw [e]
    exact hin

/-- REJOIN starts by readmitting the bundles that are ready (R466, R467). -/
theorem rejoin_starts (h : Asked s cmdRejoin src role island p) (h1 : s.body.ctl.rejoin = none) (h2 : (s.body.ctl.halves[island]).half = .lead)
    (h3 : s.body.ctl.bundleReady[(0 : BundleId)] = true) {r : Body}
    (hr : (s.heard src p).body.issueTicket island role 0x0208
      (replyHeader (s.heard src p).body island 0x0208 1 0 p.sequence p.session 0 ((s.heard src p).body.nextTicket island)) = some r) :
    ∃ t : State, exec (.rejoin src p) s = .next t ∧
      t.body.ctl.rejoin = some (BitVec.ofNat 32 ((s.heard src p).body.nextTicket island), island) ∧ t.body.ctl.bundles[(0 : BundleId)] = true := by
  have hx := h.starts (i := .rejoin src p) rfl (doRejoin_run (r := requestOf src role island p) (heard_rejoin.trans h1)
    (by rw [heard_halves]; exact h2) (by rw [heard_bundleReady]; exact h3)) r hr
  have hready : r.ctl.bundleReady[(0 : BundleId)] = true := by
    rw [issueTicket_bundleReady hr, heard_bundleReady]
    exact h3
  have hb := rejoining_bundle hready (BitVec.ofNat 32 ((s.heard src p).body.nextTicket island)) island
  obtain ⟨_, _, hlog⟩ := rejoinLogged_logOnly (r.rejoining (BitVec.ofNat 32 ((s.heard src p).body.nextTicket island)) island) island
  refine ⟨_, hx, ?_⟩
  obtain ⟨_, _, e⟩ := answered_ctl (withBody { s.heard src p with body := r } fun b =>
    (b.rejoining (BitVec.ofNat 32 ((s.heard src p).body.nextTicket island)) island).rejoinLogged island) src p
      (replyHeader (s.heard src p).body island 0x0208 1 0 p.sequence p.session 0 ((s.heard src p).body.nextTicket island))
  have hlog' := congrArg Body.ctl hlog
  constructor
  · refine (congrArg Ctl.rejoin e).trans ?_
    exact congrArg Ctl.rejoin hlog'
  · refine (congrArg (fun k : Ctl => k.bundles[(0 : BundleId)]) e).trans ?_
    exact (congrArg (fun k : Ctl => k.bundles[(0 : BundleId)]) hlog').trans hb

end

/-- Settles O55: each command passes its checks and has the effect of its row. -/
theorem fleletConfiguration : Obligations.FleletConfiguration := by
  intro s src role island p q b asked cfg body
  refine ⟨?_, ?_, ?_, ?_, ?_, ?_, ?_, ?_, ?_, ?_, ?_, ?_, ?_, ?_, ?_, ?_, ?_, ?_, ?_, ?_, ?_, ?_⟩
  · intro alg h hn hm ha h0 hz hk hs hl
    exact h.answers rfl (setOwnerAnchor_run (by rw [heard_cfg]; exact hn) (heard_mode.trans hm) ha h0 hz hk hs hl)
  · intro k h h0 h1 h2 h3
    refine ⟨fun hs hh => h.answers rfl (setMgmtNet_bad h0 (heard_isSplit.trans hs) hh), fun hs => setMgmtNet_closes h h0 h1 h2 h3 hs⟩
  · exact fun h => ⟨fun h0 => h.answers rfl (setAutostart_run h0), fun h0 => h.answers rfl (setAutostart_bad h0)⟩
  · exact fun k h h0 => h.answers rfl (setPreferredHalf_run h0)
  · intro h h1 h2 h3 h4 h5 h6 h7
    obtain ⟨t, hx, ht⟩ := setRailLimits_limited h h1 h2 h3 h4 h5 h6 h7
    exact ⟨t, hx, ht.strands, fun d => ⟨(ht.limits d).1, (ht.limits d).2, ht.rails d⟩⟩
  · intro h hd hm hs hl v
    have hrun := setRail_run (s := s.heard src p) (r := requestOf src role island p) hd hm (heard_isSplit.trans hs)
    rw [heard_cfg] at hrun
    refine ⟨h.answers rfl hrun, fun d hd => ?_⟩
    have hv : v = clampRail s.cfg d.val (pf q 2 2) := by rw [← hd]
    obtain ⟨-, -, -, hle, -⟩ := hl.rails d
    rw [hv]
    exact ⟨floor_le_clampRail _ _ _, fun hk => clampRail_le_ceil hle hk _⟩
  · intro h hd ho hz hs
    refine ⟨fun hb => h.answers rfl ?_, fun hb h0 => h.answers rfl ?_, fun hb => h.answers rfl ?_⟩
    · exact setDomain_busy hd ho hz (heard_isSplit.trans hs) ((heard_domainBusy _).trans hb)
    · exact setDomain_off hd ho hz (heard_isSplit.trans hs) ((heard_domainBusy _).trans hb) h0
    · exact setDomain_bad ((heard_domainBusy _).trans hb)
  · exact fun o h h0 hl hs => h.answers rfl (setOctet_run h0 hl (heard_serving.trans hs))
  · exact fun h hq => h.answers rfl (setFarmem_nil hq)
  · exact fun h hl h0 h1 hz hb => h.answers rfl (setFarmem_one hl h0 h1 hz hb)
  · exact fun k h h0 hv => h.answers rfl (setActiveSlot_run h0 (by rw [heard_cfg]; exact hv))
  · intro n hsrc h h0 ha hs hg
    exact h.answers rfl (imageBegin_run hsrc h0 ha hs (by rw [heard_staging]; exact hg))
  · intro n y hsrc hg hy hz
    have hg' : tGet (s.heard src p).body.ctl.staging (pf q 0 1) = some y := by rw [heard_staging]; exact hg
    refine ⟨fun h hl => h.answers rfl (imageData_run hsrc hg' hy hz hl), fun h h1 h5 => h.answers rfl (imageAbort_run hsrc hg' hy hz h1 h5),
      fun h hs => h.starts rfl (imageCommit_run hsrc hg' hy hz (heard_switching.trans hs))⟩
  · exact fun h => h.answers rfl rfl
  · exact fun h hm => h.answers rfl (thawSilt_run (by rw [heard_mode]; exact hm))
  · exact fun i h h0 hz hw => h.answers rfl (clearRetained_run h0 hz (by rw [heard_silt]; exact hw))
  · exact fun h => h.starts rfl rfl
  · intro h hc
    have hrun := powerOff_run (s := s.heard src p) (r := requestOf src role island p) (by rw [heard_serving]; exact hc)
    rw [heard_cfg] at hrun
    exact h.answers rfl hrun
  · exact fun h => (h.starts rfl rfl).of_eq fun _ x => by rw [heard_cfg]; rfl
  · exact fun h => (h.starts rfl rfl).of_eq fun _ x => by rw [heard_cfg]; rfl
  · intro t h ht
    exact ⟨fun hr => h.answers rfl (releaseResult_run ht hr), fun hr => h.answers rfl (releaseResult_busy ht hr)⟩
  · intro k h hk h1 h2 h3 r hr
    subst hk
    exact rejoin_starts h h1 h2 h3 hr

end Sys2Proof.Machine
end

section
/-! Taking a trap, the instructions that raise one, and the return from it (R57 to R65, R71, R90, R91, R115, R554). -/

namespace Sys2Proof.Machine

/-! ## Entry to a handler (R60 to R62) -/

/-- What the copy of the trap registers saves of a trap. -/
def TrapReq.savedBy (r : TrapReq) (u : Strand) (tpc : BitVec 48) : TrapCopy :=
  { cause := r.cause, pc := tpc, info0 := r.info0, info1 := r.info1, info2 := r.info2, info3 := u.status }

/-- The strand at the vector of a handler, its trap registers and windows being those of the trap already. -/
def Strand.atHandler (u : Strand) (prv : BitVec 2) (tl : Nat) (cause : Byte) : Strand :=
  { u with status := entryStatus u.status prv tl, pc := u.vector prv tl cause, act := .ready, oldSlip := false, resv := none, hold := false }

section
variable {u : Strand} {r : TrapReq} {tpc : BitVec 48} {prv : BitVec 2}

theorem Strand.abandon_of_none (h : u.micro = none) : u.abandon = u := by simp only [Strand.abandon, h]

theorem Strand.enter_level0 (h : u.micro = none) (hw : ¬(r.cause = 0x0E ∨ r.cause = 0x0F)) : u.enter r tpc 0 prv =
    { u with
      trapK := if prv = 2#2 then u.trapK else r.savedBy u tpc
      trapS := if prv = 2#2 then r.savedBy u tpc else u.trapS
      wcur := u.wcur + 1 }.atHandler prv 0 r.cause := by
  obtain ⟨hE, hF⟩ := not_or.1 hw
  by_cases hp : prv = 2#2
  · simp only [Strand.enter, Strand.abandon_of_none h, hE, hF, hp, if_true, if_false]
    rfl
  · simp only [Strand.enter, Strand.abandon_of_none h, hE, hF, hp, if_false]
    rfl

theorem Strand.enter_level1 (h : u.micro = none) : u.enter r tpc 1 prv =
    { u with
      trap1 := r.savedBy u tpc
      winTrap := decide (r.cause = 0x0E ∨ r.cause = 0x0F)
      spsel := if r.cause = 0x0E then u.wbase else if r.cause = 0x0F then u.wcur - 1 else u.spsel }.atHandler prv 1 r.cause := by
  simp only [Strand.enter, Strand.abandon_of_none h]
  split
  · rfl
  · split
    · rfl
    · rfl

theorem Strand.enter_level2 (h : u.micro = none) (hw : ¬(r.cause = 0x0E ∨ r.cause = 0x0F)) : u.enter r tpc 2 prv =
    { u with trap2 := r.savedBy u tpc }.atHandler prv 2 r.cause := by
  obtain ⟨hE, hF⟩ := not_or.1 hw
  simp only [Strand.enter, Strand.abandon_of_none h, hE, hF, if_false]
  rfl

end

/-! ## Which entry a trap takes (R57, R62, R554) -/

section
variable {b : Body} {t : StrandId} {r : TrapReq} {tpc : BitVec 48} {completed : Bool}

theorem Strand.replaces_iff (u : Strand) : u.replaces r = true ↔
    u.tl = 0 ∧ u.resident = 14 ∧ ¬(r.cause = 0x0E ∨ r.cause = 0x0F ∨ r.cause = 0x20) := by
  simp only [Strand.replaces, Bool.and_eq_true, Bool.not_eq_true', Bool.or_eq_false_iff, decide_eq_true_eq, decide_eq_false_iff_not, not_or,
    and_assoc]

theorem takeTrap_level0 (h : (b.strand t).tl = 0) (hw : ¬(r.cause = 0x0E ∨ r.cause = 0x0F ∨ r.cause = 0x20)) (hr : (b.strand t).resident ≠ 14) :
    b.takeTrap t r tpc completed = b.setStrand t ((b.strand t).enter r tpc 0 (handlerPrv r.rule (b.strand t).prv)) := by
  have hn : ¬(b.strand t).replaces r = true := fun k => hr ((Strand.replaces_iff _).1 k).2.1
  simp only [Body.takeTrap, h, if_true, if_neg hn, if_neg hw]

/-- The strand with another held event. -/
def Strand.withHeld (u : Strand) (h : Option TrapReq) : Strand := { u with held := h }

/-- A strand with 14 resident frames takes WINDOW_OVERFLOW in the place of another trap. -/
theorem takeTrap_replaced (h : (b.strand t).tl = 0) (hw : ¬(r.cause = 0x0E ∨ r.cause = 0x0F ∨ r.cause = 0x20)) (hr : (b.strand t).resident = 14) :
    b.takeTrap t r tpc completed = b.setStrand t (((b.strand t).withHeld (if completed then some r else (b.strand t).held)).enter
      (trapWinOver (b.strand t).wbase 1) tpc 1 (handlerPrv .upK (b.strand t).prv)) := by
  have hy : (b.strand t).replaces r = true := (Strand.replaces_iff _).2 ⟨h, hr, hw⟩
  simp only [Body.takeTrap, h, if_true, if_pos hy, Strand.withHeld]

theorem takeTrap_window (h : (b.strand t).tl = 0) (hw : r.cause = 0x0E ∨ r.cause = 0x0F ∨ r.cause = 0x20) :
    b.takeTrap t r tpc completed = b.setStrand t ((b.strand t).enter r tpc 1 (handlerPrv r.rule (b.strand t).prv)) := by
  have hn : ¬(b.strand t).replaces r = true := fun k => ((Strand.replaces_iff _).1 k).2.2 hw
  simp only [Body.takeTrap, h, if_true, if_neg hn, if_pos hw]

theorem takeTrap_level1 (h : (b.strand t).tl = 1) :
    b.takeTrap t r tpc completed = b.setStrand t ((b.strand t).enter r tpc 2 (handlerPrv r.rule (b.strand t).prv)) := by
  have h0 : ¬(b.strand t).tl = 0 := by omega
  simp only [Body.takeTrap, if_neg h0, if_pos h]

theorem takeTrap_level2 (h : (b.strand t).tl = 2) : b.takeTrap t r tpc completed = b.bankNesting t r tpc := by
  have h0 : ¬(b.strand t).tl = 0 := by omega
  have h1 : ¬(b.strand t).tl = 1 := by omega
  simp only [Body.takeTrap, if_neg h0, if_neg h1]

end

/-! ## A strand that stops at TL 2 (R64, R65) -/

section
variable {b : Body} {t v : StrandId}

theorem raiseCheck_self : (b.raiseCheck t).strand t = b.strand t := by
  simp only [Body.raiseCheck]
  split
  · split
    · rfl
    · rename_i h hne
      exact Body.strand_setStrand_ne _ _ fun e => hne (congrArg Fin.val e).symm
  · rfl

theorem raiseCheck_other (hv : v.val ≠ (b.strand t).chktgt.toNat) : (b.raiseCheck t).strand v = b.strand v := by
  simp only [Body.raiseCheck]
  split
  · split
    · rfl
    · exact Body.strand_setStrand_ne _ _ fun e => hv (by rw [e])
  · rfl

theorem mem_raiseCheck (hv : v ≠ t) (hc : v.val = (b.strand t).chktgt.toNat) : t.val ∈ ((b.raiseCheck t).strand v).checkSrc := by
  have hlt : (b.strand t).chktgt.toNat < 576 := hc ▸ v.isLt
  have hne : ¬(b.strand t).chktgt.toNat = t.val := fun e => hv (Fin.ext (hc.trans e))
  have hvt : (⟨(b.strand t).chktgt.toNat, hlt⟩ : StrandId) = v := Fin.ext hc.symm
  simp only [Body.raiseCheck, hlt, dif_pos, if_neg hne, hvt, Body.modStrand_eq, Body.strand_setStrand]
  split
  · rename_i h
    exact List.contains_iff_mem.1 h
  · exact List.mem_append_right _ (List.mem_singleton_self _)

/-- The strand with its strand-check record. -/
def Strand.stoppedBy (u : Strand) (r : TrapReq) (tpc : BitVec 48) : Strand :=
  { u with run := .stopped, check := some { cause := r.cause, pc := tpc, info0 := r.info0, info1 := r.info1, info2 := r.info2 } }

/-- BANK_NESTING, its record apart: the strand stops, and its source is raised. -/
theorem bankNesting_stops (b : Body) (t : StrandId) (r : TrapReq) (tpc : BitVec 48) : ∃ x : Body, (∀ v, x.strand v = b.strand v) ∧
    b.bankNesting t r tpc = (x.setStrand t ((b.strand t).abandon.stoppedBy r tpc)).raiseCheck t :=
  ⟨b.report (strandLoc t) 0x0201 (dataOf [(1, r.cause.toNat), (1, 0), (6, tpc.toNat), (8, r.info0.toNat)]), fun _ => rfl, rfl⟩

end

/-- Settles O10, level by level: the entry of each level by its equation, and at TL 2 the stop and the source that it raises. -/
theorem trapEntry : Obligations.TrapEntry := by
  refine ⟨?_, ?_⟩
  · intro b t r tpc completed u prv saved entered window hm
    have hprv : handlerPrv r.rule u.prv = prv := by
      simp only [prv, handlerPrv]
      cases r.rule <;> rfl
    have hwin : (r.cause = 0x0E ∨ r.cause = 0x0F ∨ r.cause = 0x20) ↔ (window ∨ r.cause = 0x20) := or_assoc.symm
    refine ⟨fun h0 hw hf h14 => ?_, fun h0 hw hf h14 => ?_, fun h0 hw => ?_, fun h1 hw => ?_⟩
    · rw [takeTrap_level0 h0 (fun k => (hwin.1 k).elim hw hf) h14, hprv, Strand.enter_level0 hm hw]
      rfl
    · have hh : (u.withHeld (if completed then some r else u.held)).micro = none := hm
      rw [takeTrap_replaced h0 (fun k => (hwin.1 k).elim hw hf) h14, Strand.enter_level1 hh]
      rfl
    · rw [takeTrap_window h0 (hwin.2 hw), hprv, Strand.enter_level1 hm]
      rfl
    · rw [takeTrap_level1 h1, hprv, Strand.enter_level2 hm hw]
      rfl
  · intro b t v r tpc h2 hm b'
    obtain ⟨x, hx, hb⟩ := bankNesting_stops b t r tpc
    rw [Strand.abandon_of_none hm] at hb
    have hb' : b' = (x.setStrand t ((b.strand t).stoppedBy r tpc)).raiseCheck t := (takeTrap_level2 h2).trans hb
    have ht : (x.setStrand t ((b.strand t).stoppedBy r tpc)).strand t = (b.strand t).stoppedBy r tpc := Body.strand_setStrand _ _ _
    rw [hb']
    refine ⟨raiseCheck_self.trans ht, fun hv hc => ?_, fun hv hc => ?_⟩
    · rw [raiseCheck_other (by rw [ht]; exact hc), Body.strand_setStrand_ne _ _ hv, hx]
    · exact mem_raiseCheck hv (by rw [ht]; exact hc)

/-! ## SVC, BRK and bytes that are no instruction (R71, R90, R115) -/

section
variable {s : State} {t : StrandId} {b : Body}

@[simp] theorem Body.setStrand_strand (b : Body) (t : StrandId) : b.setStrand t (b.strand t) = b := by
  simp [Body.setStrand, Body.strand]

/-- A trap at an instruction that leaves the boundary state, no floating exception being pending. -/
theorem Runs.traps {i : Instr} {f : Bool} (h : Runs s t i b f) (hp : (b.strand t).pend = false) {x : Body → Res} {r : TrapReq}
    (hx : x b = .trap b r) {q : TrapReq} (hq : fillBytes r (insnBytes i) = q) :
    insn t i x f s = .next { s with body := b.takeTrap t q (b.strand t).pc } := by
  rw [h.insn_trap hx hp, hq]

theorem unassigned_traps {bytes : List Byte} (hr : (s.body.strand t).ready = true) (hd : s.body.dueFirst t false = none)
    (hf : s.body.fetchBytes t = .ok b bytes) (hn : decodeInsn t (leNat bytes) = none) (hp : (b.strand t).pend = false) :
    execUnassignedInstruction t s = .next { s with
      body := b.takeTrap t { cause := 0x01, rule := .upK, info0 := BitVec.ofNat 64 (leNat bytes) } (b.strand t).pc } := by
  have htl : ¬((b.strand t).tl = 0 ∧ (b.strand t).pend = true ∧ (1 : Byte) ≠ 0x0E ∧ (1 : Byte) ≠ 0x0F ∧ (1 : Byte) ≠ 0x20) := by simp [hp]
  simp only [execUnassignedInstruction, onBody, hr, hd, hf, hn, Bool.not_true, Bool.false_eq_true, if_false, Body.settle, illegal, trapIllegal,
    fillBytes, Body.trapOrFp, true_or, if_true, if_neg htl]

end

/-- Settles O11: each of the three by the outcome of its command. -/
theorem systemCallBreakpointAndUnassigned : Obligations.SystemCallBreakpointAndUnassigned := by
  refine ⟨fun s t b imm hp => ⟨fun h => ?_, fun h => ?_⟩, fun s t b bytes hr hd hf hn hp => unassigned_traps hr hd hf hn hp⟩
  · have hx : Res.next b (trapSvc imm) = .next (b.setStrand t (b.strand t)) (trapSvc imm) := by rw [Body.setStrand_strand]
    exact h.insn_next (x := fun b => .next b (trapSvc imm)) hx hp
  · exact h.traps (x := fun b => .trap b (trapBrk imm)) hp rfl rfl

/-! ## RTT (R63) -/

section
variable {b : Body} {t : StrandId}

theorem Strand.resident_eq_zero (u : Strand) : u.resident = 0 ↔ u.wcur = u.wbase := by
  rw [Strand.resident, ← BitVec.toNat_zero (w := 4), BitVec.toNat_inj, BitVec.sub_eq_iff_eq_add, BitVec.zero_add]

/-- The strand that RTT leaves, but for its pc. -/
def Strand.returned (u : Strand) : Strand :=
  let c := u.copy u.curCopy
  let tl := if u.tl = 0 then 0 else min (c.info3.extractLsb' 0 2).toNat (u.tl - 1)
  let prv := min (c.info3.extractLsb' 2 2).toNat u.prv.toNat
  { u with
    status := (c.info3 &&& 0xF3F0) ||| BitVec.ofNat 64 (prv * 4 + tl)
    wcur := if u.tl = 0 then u.wcur - 1 else u.wcur
    winTrap := u.winTrap && tl = 1
    resv := none
    hold := false }

theorem prv_pos {p : BitVec 2} (h : p ≠ 0) : 1 ≤ p.toNat := Nat.pos_of_ne_zero fun k => h (BitVec.eq_of_toNat_eq k)

theorem needPrv_of_le {x : Res} {n : Nat} (h : n ≤ (b.strand t).prv.toNat) : needPrv b t n x = x := if_neg (Nat.not_lt.2 h)

theorem needPrv_of_lt {x : Res} {n : Nat} (h : (b.strand t).prv.toNat < n) : needPrv b t n x = .trap b trapPrivileged := if_pos h

theorem rttRes_returns (hp : (b.strand t).prv ≠ 0) (hw : ¬((b.strand t).tl = 0 ∧ (b.strand t).wcur = (b.strand t).wbase)) :
    rttRes b t = .ok (b.setStrand t (b.strand t).returned) (some ((b.strand t).copy (b.strand t).curCopy).pc) := by
  have hw' : ¬((b.strand t).tl = 0 ∧ (b.strand t).resident = 0) := fun h => hw ⟨h.1, (Strand.resident_eq_zero _).1 h.2⟩
  rw [rttRes, needPrv_of_le (prv_pos hp)]
  simp only [if_neg hw', Strand.returned, Strand.endResv]

theorem rttRes_underflow (hp : (b.strand t).prv ≠ 0) (h0 : (b.strand t).tl = 0) (hw : (b.strand t).wcur = (b.strand t).wbase) :
    rttRes b t = .trap b (trapWinUnder ((b.strand t).wcur - 1) 1) := by
  have hw' : (b.strand t).tl = 0 ∧ (b.strand t).resident = 0 := ⟨h0, (Strand.resident_eq_zero _).2 hw⟩
  rw [rttRes, needPrv_of_le (prv_pos hp)]
  exact if_pos hw'

theorem Strand.curCopy_eq (u : Strand) : u.copy u.curCopy =
    if u.tl = 1 then u.trap1 else if u.tl = 2 then u.trap2 else if u.prv = 2 then u.trapS else u.trapK := by
  simp only [Strand.curCopy, apply_ite u.copy]
  rfl

end

/-- Settles O13: the return, and the two traps that take its place. -/
theorem returnFromTrap : Obligations.ReturnFromTrap := by
  intro s t b u c tl prv h
  have hc : u.copy u.curCopy = c := Strand.curCopy_eq u
  refine ⟨fun hp hw => ?_, fun hp hf => ?_, fun hp h0 hw hf => ?_⟩
  · refine (h.insn_ok (x := fun b => rttRes b t) (rttRes_returns hp hw)).trans ?_
    simp only [Strand.returned, show (b.strand t).copy (b.strand t).curCopy = c from hc]
    rfl
  · have hlt : u.prv.toNat < 1 := by rw [hp]; decide
    exact h.traps (x := fun b => rttRes b t) hf (needPrv_of_lt hlt) rfl
  · exact h.traps (x := fun b => rttRes b t) hf (rttRes_underflow hp h0 hw) rfl

end Sys2Proof.Machine
end

section
/-! The control-state registers: what CSRD reads and what it and CSWR refuse (R73 to R84). -/

namespace Sys2Proof.Machine

/-- Lowest privilege that reads a register by its number: 2 for an S copy (R73, R74). -/
def CsReg.readPrv (r : CsReg) : Nat := if r.selectsS then 2 else (csPrv r).1

/-- Lowest privilege that writes it. -/
def CsReg.writePrv (r : CsReg) : Nat := if r.selectsS then 2 else (csPrv r).2

section
variable {s : State} {t : StrandId} {b : Body} {rd ra : Reg} {num : BitVec 12} {r : CsReg}

/-! ## The two instructions -/

theorem csrdRes_read (hr : csReg num = some r) (hp : r.readPrv ≤ (b.strand t).prv.toNat) :
    csrdRes b t rd num = .ok (b.setStrand t ((b.strand t).setReg rd (b.csRead t r))) none := by
  simp only [csrdRes, hr]
  exact needPrv_of_le hp

theorem csrdRes_illegal (hr : csReg num = none) : csrdRes b t rd num = .trap b trapIllegal := by
  simp only [csrdRes, hr, illegal]

theorem csrdRes_privileged {p : Nat} (hp : (b.strand t).prv.toNat < p) (hr : (csReg num).any (fun r => decide (p ≤ r.readPrv)) = true) :
    csrdRes b t rd num = .trap b trapPrivileged := by
  obtain ⟨r, hr, hle⟩ := (Option.any_eq_true _ _).1 hr
  simp only [csrdRes, hr]
  exact needPrv_of_lt (hp.trans_le (of_decide_eq_true hle))

theorem cswrRes_written (hr : csReg num = some r) (hp : r.writePrv ≤ (b.strand t).prv.toNat) (hd : r = .status → (b.strand t).prv ≠ 0) :
    cswrRes b t num ra = .ok (b.csWrite t r ((b.strand t).reg ra)) none := by
  have hu : (b.strand t).userDenied r ((b.strand t).reg ra) = false := by
    by_cases h : r = .status
    · have h0 : ¬(b.strand t).prv = 0#2 := hd h
      simp only [Strand.userDenied, h0, decide_false, Bool.false_and]
    · simp only [Strand.userDenied, h, decide_false, Bool.and_false, Bool.false_and]
  simp only [cswrRes, hr, hu]
  exact needPrv_of_le hp

theorem cswrRes_illegal (hr : csReg num = none) : cswrRes b t num ra = .trap b trapIllegal := by
  simp only [cswrRes, hr, illegal]

theorem cswrRes_privileged {p : Nat} (hp : (b.strand t).prv.toNat < p) (hr : (csReg num).any (fun r => decide (p ≤ r.writePrv)) = true) :
    cswrRes b t num ra = .trap b trapPrivileged := by
  obtain ⟨r, hr, hle⟩ := (Option.any_eq_true _ _).1 hr
  simp only [cswrRes, hr]
  exact needPrv_of_lt (hp.trans_le (of_decide_eq_true hle))

/-- A write at U that would change IE or FIE. -/
theorem cswrRes_userDenied (hp : (b.strand t).prv = 0) (hv : ((b.strand t).reg ra ^^^ (b.strand t).status) &&& 0x30 ≠ 0) :
    cswrRes b t 0x000 ra = .trap b trapPrivileged := by
  have hu : (b.strand t).userDenied .status ((b.strand t).reg ra) = true := by
    have h0 : (b.strand t).prv = 0#2 := hp
    simp only [Strand.userDenied, h0, decide_true, Bool.true_and, bne_iff_ne]
    exact hv
  have h0 : csReg 0x000 = some .status := rfl
  simp only [cswrRes, h0, hu, if_true]
  exact needPrv_of_le (Nat.zero_le _)

/-- CSRD of another register than CS.FPSTAT. -/
theorem exec_csrd (hn : num ≠ 1) : exec (.csrd t rd num) s = insn t (.csrd t rd num) (fun b => csrdRes b t rd num) false s := by
  rw [← decide_eq_false hn]
  rfl

theorem exec_cswr (hn : num ≠ 1) : exec (.cswr t num ra) s = insn t (.cswr t num ra) (fun b => cswrRes b t num ra) false s := by
  rw [← decide_eq_false hn]
  rfl

/-- The command traps, with its bytes in CS.TINFO0, whenever it runs. -/
def TrapsAt (s : State) (t : StrandId) (b : Body) (i : Instr) (cause : Byte) (rule : HandlerRule) : Prop :=
  Runs s t i b → exec i s = .next { s with body := b.takeTrap t { cause := cause, rule := rule, info0 := insnBytes i } (b.strand t).pc }

theorem ne_one_of_unlisted (hr : csReg num = none) : num ≠ 1 := by
  rintro rfl
  exact nomatch (show some CsReg.fpstat = none from hr)

theorem ne_one_of_readPrv {p : Nat} (h1 : 1 ≤ p) (hr : (csReg num).any (fun r => decide (p ≤ r.readPrv)) = true) : num ≠ 1 := by
  rintro rfl
  have h0 : p ≤ CsReg.fpstat.readPrv := of_decide_eq_true hr
  exact absurd h0 (Nat.not_le.2 h1)

theorem ne_one_of_writePrv {p : Nat} (h1 : 1 ≤ p) (hr : (csReg num).any (fun r => decide (p ≤ r.writePrv)) = true) : num ≠ 1 := by
  rintro rfl
  have h0 : p ≤ CsReg.fpstat.writePrv := of_decide_eq_true hr
  exact absurd h0 (Nat.not_le.2 h1)

section
variable (hf : (b.strand t).pend = false)
include hf

theorem csrd_illegal (hr : csReg num = none) : TrapsAt s t b (.csrd t rd num) 0x01 .upK := fun h => by
  rw [exec_csrd (ne_one_of_unlisted hr)]
  exact h.traps hf (csrdRes_illegal hr) rfl

theorem cswr_illegal (hr : csReg num = none) : TrapsAt s t b (.cswr t num ra) 0x01 .upK := fun h => by
  rw [exec_cswr (ne_one_of_unlisted hr)]
  exact h.traps hf (cswrRes_illegal hr) rfl

theorem csrd_privileged {p : Nat} (hp : (b.strand t).prv.toNat < p) (hr : (csReg num).any (fun r => decide (p ≤ r.readPrv)) = true) :
    TrapsAt s t b (.csrd t rd num) 0x02 .next := fun h => by
  rw [exec_csrd (ne_one_of_readPrv (Nat.zero_lt_of_lt hp) hr)]
  exact h.traps hf (csrdRes_privileged hp hr) rfl

theorem cswr_privileged {p : Nat} (hp : (b.strand t).prv.toNat < p) (hr : (csReg num).any (fun r => decide (p ≤ r.writePrv)) = true) :
    TrapsAt s t b (.cswr t num ra) 0x02 .next := fun h => by
  rw [exec_cswr (ne_one_of_writePrv (Nat.zero_lt_of_lt hp) hr)]
  exact h.traps hf (cswrRes_privileged hp hr) rfl

end

/-! ## The numbers that the statement names -/

theorem unlisted_numbers (hm : num ∈ [0x005, 0x00F, 0x013, 0x014, 0x01D, 0x027, 0x048, 0x053, 0x06B, 0x071, 0x07B, 0x081, 0x0FF, 0x3FF, 0x440, 0xFFF]) :
    csReg num = none := by
  have hl : ([0x005, 0x00F, 0x013, 0x014, 0x01D, 0x027, 0x048, 0x053, 0x06B, 0x071, 0x07B, 0x081, 0x0FF, 0x3FF, 0x440, 0xFFF] : List (BitVec 12)).all
      (fun n => (csReg n).isNone) = true := by decide
  exact Option.isNone_iff_eq_none.1 (List.all_eq_true.1 hl num hm)

theorem read_above_user (hm : num ∈ [0x011, 0x018, 0x023, 0x028, 0x050, 0x059, 0x080, 0x400, 0x43F]) :
    (csReg num).any (fun r => decide (1 ≤ r.readPrv)) = true := by
  have hl : ([0x011, 0x018, 0x023, 0x028, 0x050, 0x059, 0x080, 0x400, 0x43F] : List (BitVec 12)).all
      (fun n => (csReg n).any fun r => decide (1 ≤ r.readPrv)) = true := by decide
  exact List.all_eq_true.1 hl num hm

theorem written_above_user (hm : num ∈ [0x002, 0x011, 0x018, 0x050, 0x058, 0x060, 0x400]) :
    (csReg num).any (fun r => decide (1 ≤ r.writePrv)) = true := by
  have hl : ([0x002, 0x011, 0x018, 0x050, 0x058, 0x060, 0x400] : List (BitVec 12)).all
      (fun n => (csReg n).any fun r => decide (1 ≤ r.writePrv)) = true := by decide
  exact List.all_eq_true.1 hl num hm

theorem supervisor_only (hm : num ∈ [0x012, 0x01A, 0x022, 0x052, 0x068, 0x069, 0x06A, 0x07A, 0x088]) :
    (csReg num).any (fun r => decide (2 ≤ r.readPrv)) = true ∧ (csReg num).any (fun r => decide (2 ≤ r.writePrv)) = true := by
  have hl : ([0x012, 0x01A, 0x022, 0x052, 0x068, 0x069, 0x06A, 0x07A, 0x088] : List (BitVec 12)).all (fun n =>
      (csReg n).any (fun r => decide (2 ≤ r.readPrv)) && (csReg n).any (fun r => decide (2 ≤ r.writePrv))) = true := by decide
  exact Bool.and_eq_true_iff.1 (List.all_eq_true.1 hl num hm)

/-- CS.TOD and CS.IPEND are written at no privilege. -/
theorem read_only (hm : num = 0x070 ∨ num = 0x080) : (csReg num).any (fun r => decide (3 ≤ r.writePrv)) = true := by
  rcases hm with rfl | rfl
  · rfl
  · rfl

/-! ## Values as the statements write them -/

theorem ofNat_shift16 (x : BitVec 32) : BitVec.ofNat 64 (x.toNat * 65536) = x.setWidth 64 <<< 16 := by
  apply BitVec.eq_of_toNat_eq
  rw [BitVec.toNat_shiftLeft, BitVec.toNat_setWidth_of_le (by decide), BitVec.toNat_ofNat, Nat.shiftLeft_eq]

theorem ofNat_pair16 (x y : BitVec 16) : BitVec.ofNat 64 (x.toNat * 65536 + y.toNat) = x.setWidth 64 <<< 16 ||| y.setWidth 64 := by
  have hx := x.isLt
  have hy := y.isLt
  apply BitVec.eq_of_toNat_eq
  rw [BitVec.toNat_or, BitVec.toNat_shiftLeft, BitVec.toNat_setWidth_of_le (by decide), BitVec.toNat_setWidth_of_le (by decide), BitVec.toNat_ofNat,
    Nat.mod_eq_of_lt (a := x.toNat <<< 16) (by rw [Nat.shiftLeft_eq]; omega), ← Nat.shiftLeft_add_eq_or_of_lt hy, Nat.shiftLeft_eq]
  omega

/-! ## Reads -/

/-- The number reads `v` at privilege `prv` and above. -/
def Body.Reads (b : Body) (t : StrandId) (num : BitVec 12) (prv : Nat) (v : W) : Prop :=
  ∃ r, csReg num = some r ∧ r.readPrv = prv ∧ b.csRead t r = v

theorem Body.Reads.csrd {prv : Nat} {v : W} (hr : b.Reads t num prv v) (h : Runs s t (.csrd t rd num) b (num = 1)) (hp : prv ≤ (b.strand t).prv.toNat) :
    exec (.csrd t rd num) s = .next (finish s b t ((b.strand t).setReg rd v) (b.seqPc t 6)) := by
  obtain ⟨r, hn, rfl, rfl⟩ := hr
  exact h.insn_ok (x := fun b => csrdRes b t rd num) (csrdRes_read hn hp)

/-- The five numbers of a trap register. -/
theorem trapRegister_reads {base : BitVec 12} {reg : Nat → CsReg} {f : TrapCopy → W}
    (hn : ∀ k : Fin 5, csReg (base + BitVec.ofNat 12 k.val) = some (reg k.val)) (hp : ∀ k : Fin 5, (reg k.val).readPrv = if k = 2 then 2 else 1)
    (hv : ∀ sel, b.csRead t (reg sel) = f ((b.strand t).copy ((b.strand t).selCopy sel))) :
    ∀ e ∈ [(base, 1, f ((b.strand t).copy (b.strand t).curCopy)), (base + 1, 1, f (b.strand t).trapK), (base + 2, 2, f (b.strand t).trapS),
      (base + 3, 1, f (b.strand t).trap1), (base + 4, 1, f (b.strand t).trap2)], b.Reads t e.1 e.2.1 e.2.2 := by
  have h0 : csReg base = some (reg 0) := by simpa using hn 0
  simp only [List.forall_mem_cons, List.not_mem_nil, false_imp_iff, implies_true, and_true]
  exact ⟨⟨reg 0, h0, hp 0, hv 0⟩, ⟨reg 1, hn 1, hp 1, hv 1⟩, ⟨reg 2, hn 2, hp 2, hv 2⟩, ⟨reg 3, hn 3, hp 3, hv 3⟩, ⟨reg 4, hn 4, hp 4, hv 4⟩⟩

end

/-- Settles O15: each number by its register, the trap registers as families of five; and what a number refuses by the privilege that it asks for. -/
theorem controlStateReads : Obligations.ControlStateReads := by
  refine ⟨?_, ?_⟩
  · intro s t b rd num prv v u cur copies table trapTable hm h hp
    have hcur : u.copy u.curCopy = cur := Strand.curCopy_eq u
    have plain : ∀ e ∈ table, b.Reads t e.1 e.2.1 e.2.2 := by
      simp only [table, List.forall_mem_cons, List.not_mem_nil, false_imp_iff, implies_true, and_true]
      exact ⟨⟨.status, rfl, rfl, rfl⟩, ⟨.fpstat, rfl, rfl, rfl⟩, ⟨.win, rfl, rfl, rfl⟩, ⟨.lsp, rfl, rfl, rfl⟩, ⟨.wsp, rfl, rfl, rfl⟩,
        ⟨.tvec 1, rfl, rfl, ofNat_shift16 _⟩, ⟨.tvec 2, rfl, rfl, ofNat_shift16 _⟩, ⟨.itbr, rfl, rfl, rfl⟩, ⟨.dtbr, rfl, rfl, rfl⟩, ⟨.s2tbr, rfl, rfl, rfl⟩,
        ⟨.asid, rfl, rfl, rfl⟩, ⟨.part, rfl, rfl, rfl⟩, ⟨.iob 0, rfl, rfl, rfl⟩, ⟨.iob 1, rfl, rfl, rfl⟩, ⟨.iob 2, rfl, rfl, rfl⟩, ⟨.iob 3, rfl, rfl, rfl⟩,
        ⟨.waymask, rfl, rfl, ofNat_pair16 _ _⟩, ⟨.tod, rfl, rfl, (BitVec.ofNat_toNat _ _).trans (BitVec.setWidth_eq _)⟩, ⟨.tcmp 1, rfl, rfl, rfl⟩,
        ⟨.tcmp 2, rfl, rfl, rfl⟩, ⟨.chktgt, rfl, rfl, rfl⟩, ⟨.bank 0, rfl, rfl, rfl⟩, ⟨.bank 63, rfl, rfl, rfl⟩⟩
    have traps : ∀ e ∈ trapTable, b.Reads t e.1 e.2.1 e.2.2 := by
      simp only [trapTable, copies, ← hcur, List.forall_mem_append]
      exact ⟨⟨⟨⟨⟨trapRegister_reads (base := 0x018) (reg := .tcause) (f := fun c => c.cause.setWidth 64) (by decide) (by decide) fun _ => rfl,
        trapRegister_reads (base := 0x020) (reg := .tpc) (f := fun c => c.pc.setWidth 64) (by decide) (by decide) fun _ => rfl⟩,
        trapRegister_reads (base := 0x028) (reg := .tinfo 0) (f := TrapCopy.info0) (by decide) (by decide) fun _ => rfl⟩,
        trapRegister_reads (base := 0x030) (reg := .tinfo 1) (f := TrapCopy.info1) (by decide) (by decide) fun _ => rfl⟩,
        trapRegister_reads (base := 0x038) (reg := .tinfo 2) (f := TrapCopy.info2) (by decide) (by decide) fun _ => rfl⟩,
        trapRegister_reads (base := 0x040) (reg := .tinfo 3) (f := TrapCopy.info3) (by decide) (by decide) fun _ => rfl⟩
    exact ((List.mem_append.1 hm).elim (plain _) (traps _)).csrd h hp
  · intro s t b rd ra num hf u trap
    have below1 (h0 : u.prv = 0) : u.prv.toNat < 1 := by rw [h0]; decide
    refine ⟨fun hm => ?_, fun hm h0 => ?_, fun hm h0 => ?_, fun hm h2 => ?_, fun hm h2 => ?_, fun h0 hv h => ?_⟩
    · have hn := unlisted_numbers hm
      exact ⟨csrd_illegal hf hn, cswr_illegal hf hn⟩
    · exact csrd_privileged hf (below1 h0) (read_above_user hm)
    · exact cswr_privileged hf (below1 h0) (written_above_user hm)
    · obtain ⟨hread, hwrite⟩ := supervisor_only hm
      exact ⟨csrd_privileged hf h2 hread, cswr_privileged hf h2 hwrite⟩
    · exact cswr_privileged hf (Nat.lt_succ_of_le h2) (read_only hm)
    · rw [exec_cswr (by decide)]
      exact h.traps hf (cswrRes_userDenied h0 hv) rfl

end Sys2Proof.Machine
end

section
/-! What the writes of CS.SPAD and CS.CACHECTL leave alone: lines that go home change memory and the L3s (R180, R190, R191). -/

namespace Sys2Proof.Machine

/-! ## Lines that a home accepts past its L3's fill -/

/-- The two machines differ at most in memory and in the compute dies. -/
def HomeOnly (b b' : Body) : Prop := ∃ mem dies, b' = { b with mem := mem, dies := dies }

theorem HomeOnly.refl (b : Body) : HomeOnly b b := ⟨b.mem, b.dies, rfl⟩

theorem HomeOnly.trans {a b c : Body} (h : HomeOnly a b) (k : HomeOnly b c) : HomeOnly a c := by
  obtain ⟨_, _, rfl⟩ := h
  obtain ⟨_, _, rfl⟩ := k
  exact ⟨_, _, rfl⟩

theorem HomeOnly.foldl {α : Type} {f : Body → α → Body} (step : ∀ b a, HomeOnly b (f b a)) (l : List α) (b : Body) : HomeOnly b (l.foldl f b) :=
  foldl_rel HomeOnly.refl (fun _ _ _ => HomeOnly.trans) step l b

theorem HomeOnly.strands {b b' : Body} (h : HomeOnly b b') : b'.strands = b.strands := by obtain ⟨_, _, rfl⟩ := h; rfl
theorem HomeOnly.cores {b b' : Body} (h : HomeOnly b b') : b'.cores = b.cores := by obtain ⟨_, _, rfl⟩ := h; rfl
theorem HomeOnly.clusters {b b' : Body} (h : HomeOnly b b') : b'.clusters = b.clusters := by obtain ⟨_, _, rfl⟩ := h; rfl
theorem HomeOnly.io {b b' : Body} (h : HomeOnly b b') : b'.io = b.io := by obtain ⟨_, _, rfl⟩ := h; rfl

theorem HomeOnly.modMem (b : Body) (f : MemSys → MemSys) : HomeOnly b (b.modMem f) := ⟨_, _, rfl⟩
theorem HomeOnly.modDie (b : Body) (d : CDieId) (f : Die → Die) : HomeOnly b (b.modDie d f) := ⟨_, _, rfl⟩

theorem HomeOnly.memWrite (b : Body) (l : Line) (slot : Byte) (d : LineData) : HomeOnly b (b.memWrite l slot d) := by
  unfold Body.memWrite
  extract_lets w
  have hw : ∀ (x : Body) (k : Line), HomeOnly x (w x k) := fun x k => .modMem _ _
  split
  · exact hw _ _
  · split
    · exact hw _ _
    · split
      · exact hw _ _
      · exact (hw _ _).trans (hw _ _)

/-- A line that may not be filled into the L3. -/
theorem HomeOnly.homeAccept (b : Body) (l : Line) (d : LineData) (slot : Byte) (mask : BitVec 16) (part : Byte) (fill : Bool) :
    HomeOnly b (b.homeAccept l d slot true mask part fill).1 := by
  unfold Body.homeAccept
  split
  · refine HomeOnly.trans ?_ (.memWrite _ _ _ _)
    split
    · exact .modDie _ _ _
    · exact .refl _
  · split
    · exact ⟨_, _, rfl⟩
    · split
      · rw [Bool.not_true, Bool.and_false, if_neg Bool.false_ne_true]
        exact .memWrite _ _ _ _
      · exact .memWrite _ _ _ _

/-! ## CS.CACHECTL (R190, R191) -/

@[simp] theorem Body.cluster_modCluster (b : Body) (c : ClusterId) (f : Cluster → Cluster) : (b.modCluster c f).cluster c = f (b.cluster c) := by
  simp [Body.cluster, Body.modCluster]

@[simp] theorem Body.die_modDie (b : Body) (d : CDieId) (f : Die → Die) : (b.modDie d f).die d = f (b.die d) := by
  simp [Body.die, Body.modDie]

theorem HomeOnly.cleanL2 (b : Body) (c : ClusterId) : HomeOnly b (b.cleanL2 c) := by
  refine .foldl (fun x e => ?_) _ b
  split
  · exact .homeAccept _ _ _ _ _ _ _
  · exact .refl _

/-- What switching a level of the cache leaves, and the enable of cluster `c`'s L2. -/
structure LevelSet (c : ClusterId) (b b' : Body) (on : Bool) : Prop where
  strands : b'.strands = b.strands
  cores : b'.cores = b.cores
  io : b'.io = b.io
  l2e : (b'.cluster c).l2e = on

theorem l2Off_levelSet (b : Body) (c : ClusterId) : LevelSet c b (b.l2Off c) false where
  strands := (HomeOnly.cleanL2 b c).strands
  cores := (HomeOnly.cleanL2 b c).cores
  io := (HomeOnly.cleanL2 b c).io
  l2e := by
    simp only [Body.l2Off, Body.cluster, Body.modMem_clusters]
    exact congrArg Cluster.l2e (Body.cluster_modCluster (b.cleanL2 c) c _)

theorem HomeOnly.l3Off (b : Body) (d : CDieId) : HomeOnly b (b.l3Off d) := by
  unfold Body.l3Off
  refine HomeOnly.trans (.foldl (fun x e => ?_) _ b) (.modDie _ _ _)
  split
  · exact .memWrite _ _ _ _
  · exact .refl _

theorem l3Off_l3e (b : Body) (d : CDieId) : ((b.l3Off d).die d).l3e = false := congrArg Die.l3e (Body.die_modDie _ d _)

/-- CS.CACHECTL's L2 enable. -/
def Body.setL2e (b : Body) (c : ClusterId) (on : Bool) : Body :=
  if on then b.modCluster c fun k => { k with l2e := true } else if (b.cluster c).l2e then b.l2Off c else b

/-- CS.CACHECTL's L3 enable. -/
def Body.setL3e (b : Body) (d : CDieId) (on : Bool) : Body :=
  if on then b.modDie d fun x => { x with l3e := true } else if (b.die d).l3e then b.l3Off d else b

theorem setL2e_levelSet (b : Body) (c : ClusterId) (on : Bool) : LevelSet c b (b.setL2e c on) on := by
  unfold Body.setL2e
  split
  · rename_i h
    rw [h]
    exact ⟨rfl, rfl, rfl, congrArg Cluster.l2e (Body.cluster_modCluster b c _)⟩
  · rename_i h
    rw [Bool.eq_false_of_not_eq_true h]
    split
    · exact l2Off_levelSet b c
    · rename_i h2
      exact ⟨rfl, rfl, rfl, Bool.eq_false_of_not_eq_true h2⟩

theorem HomeOnly.setL3e (b : Body) (d : CDieId) (on : Bool) : HomeOnly b (b.setL3e d on) := by
  unfold Body.setL3e
  split
  · exact .modDie _ _ _
  · split
    · exact .l3Off _ _
    · exact .refl _

theorem setL3e_l3e (b : Body) (d : CDieId) (on : Bool) : ((b.setL3e d on).die d).l3e = on := by
  unfold Body.setL3e
  split
  · rename_i h
    rw [h]
    exact congrArg Die.l3e (Body.die_modDie b d _)
  · rename_i h
    rw [Bool.eq_false_of_not_eq_true h]
    split
    · exact l3Off_l3e b d
    · rename_i h3
      exact Bool.eq_false_of_not_eq_true h3

theorem writeCachectl_eq (b : Body) (t : StrandId) (v : W) : b.writeCachectl t v =
    ((b.modCore (coreOf t) fun k => { k with l1ie := v.getLsbD 0, l1de := v.getLsbD 1 }).setL2e (clusterOfStrand t) (v.getLsbD 2)).setL3e
      (dieOf (clusterOfStrand t)) (v.getLsbD 3) := rfl

/-- What a write of CS.CACHECTL leaves. -/
structure EnablesSet (b b' : Body) (t : StrandId) (v : W) : Prop where
  strands : b'.strands = b.strands
  io : b'.io = b.io
  l1ie : (b'.core (coreOf t)).l1ie = v.getLsbD 0
  l1de : (b'.core (coreOf t)).l1de = v.getLsbD 1
  l2e : (b'.cluster (clusterOfStrand t)).l2e = v.getLsbD 2
  l3e : (b'.die (dieOf (clusterOfStrand t))).l3e = v.getLsbD 3

theorem writeCachectl_enables (b : Body) (t : StrandId) (v : W) : EnablesSet b (b.writeCachectl t v) t v := by
  rw [writeCachectl_eq]
  generalize hb1 : b.modCore (coreOf t) (fun k => { k with l1ie := v.getLsbD 0, l1de := v.getLsbD 1 }) = b1
  have h2 := setL2e_levelSet b1 (clusterOfStrand t) (v.getLsbD 2)
  generalize b1.setL2e (clusterOfStrand t) (v.getLsbD 2) = b2 at h2
  have h3 := HomeOnly.setL3e b2 (dieOf (clusterOfStrand t)) (v.getLsbD 3)
  have hcore : (b2.setL3e (dieOf (clusterOfStrand t)) (v.getLsbD 3)).core (coreOf t) =
      { b.core (coreOf t) with l1ie := v.getLsbD 0, l1de := v.getLsbD 1 } := by
    rw [Body.core, h3.cores, h2.cores, ← hb1]
    exact Body.core_modCore b (coreOf t) _
  constructor
  case strands => rw [h3.strands, h2.strands, ← hb1]; rfl
  case io => rw [h3.io, h2.io, ← hb1]; rfl
  case l1ie => rw [hcore]
  case l1de => rw [hcore]
  case l2e => rw [Body.cluster, h3.clusters]; exact h2.l2e
  case l3e => exact setL3e_l3e _ _ _

/-! ## CS.SPAD (R180) -/

/-- What the emptying of L2 ways leaves: I/O, the sizes of the scratchpads, and a strand without a reservation. -/
structure WaysEmptied (t : StrandId) (b b' : Body) : Prop where
  io : b'.io = b.io
  ways : ∀ c, (b'.cluster c).ways = (b.cluster c).ways
  strand : (b.strand t).resv = none → b'.strand t = b.strand t

theorem WaysEmptied.refl (t : StrandId) (b : Body) : WaysEmptied t b b := ⟨rfl, fun _ => rfl, fun _ => rfl⟩

theorem WaysEmptied.trans {t : StrandId} {a b c : Body} (h : WaysEmptied t a b) (k : WaysEmptied t b c) : WaysEmptied t a c where
  io := k.io.trans h.io
  ways x := (k.ways x).trans (h.ways x)
  strand hr := by
    have hb := h.strand hr
    exact (k.strand (by rw [hb]; exact hr)).trans hb

theorem WaysEmptied.foldl {α : Type} {t : StrandId} {f : Body → α → Body} (step : ∀ b a, WaysEmptied t b (f b a)) (l : List α) (b : Body) :
    WaysEmptied t b (l.foldl f b) :=
  foldl_rel (WaysEmptied.refl t) (fun _ _ _ => WaysEmptied.trans) step l b

theorem HomeOnly.waysEmptied {b b' : Body} (h : HomeOnly b b') (t : StrandId) : WaysEmptied t b b' := by
  obtain ⟨_, _, rfl⟩ := h
  exact ⟨rfl, fun _ => rfl, fun _ => rfl⟩

theorem WaysEmptied.modL2 (t : StrandId) (b : Body) (c : ClusterId) (f : Table L2Line → Table L2Line) :
    WaysEmptied t b (b.modCluster c fun k => { k with l2 := f k.l2 }) where
  io := rfl
  ways x := by
    by_cases h : x = c
    · rw [h, Body.cluster_modCluster]
    · have h' : c.val ≠ x.val := fun e => h (Fin.ext e.symm)
      simp [Body.cluster, Body.modCluster, Vector.getElem_set_ne, h']
  strand _ := rfl

theorem WaysEmptied.dropL1 (t : StrandId) (b : Body) (c : ClusterId) (l : Line) : WaysEmptied t b (b.dropL1 c l) := by
  have h : ∃ cores, b.dropL1 c l = { b with cores := cores } := ⟨_, rfl⟩
  obtain ⟨_, h⟩ := h
  rw [h]
  exact ⟨rfl, fun _ => rfl, fun _ => rfl⟩

theorem Body.strand_mapStrands (b : Body) (f : StrandId → Strand → Strand) (t : StrandId) : (b.mapStrands f).strand t = f t (b.strand t) := by
  simp [Body.strand, Body.mapStrands]

theorem WaysEmptied.endLineResv (t : StrandId) (b : Body) (c : ClusterId) (l : Line) : WaysEmptied t b (b.endLineResv c l) := by
  unfold Body.endLineResv
  extract_lets g
  split
  · exact .refl _ _
  · refine ⟨Body.mapStrands_io _ _, fun x => by simp only [Body.cluster, Body.mapStrands_clusters], fun hr => ?_⟩
    have hn : ¬(clusterOfStrand t = c ∧ (b.strand t).resv = some g) := by simp [hr]
    rw [Body.strand_mapStrands, if_neg hn]

theorem WaysEmptied.dirDrop (t : StrandId) (b : Body) (c : ClusterId) (l : Line) : WaysEmptied t b (b.dirDrop c l) := by
  unfold Body.dirDrop Body.setDir
  exact (HomeOnly.modMem _ _).waysEmptied t

theorem WaysEmptied.l2Remove (t : StrandId) (b : Body) (c : ClusterId) (slot : Nat) (e : L2Line) (keep : Bool) : WaysEmptied t b (b.l2Remove c slot e keep) :=
  (((WaysEmptied.modL2 t b c fun l2 => if keep && e.locked then tPut l2 slot { e with st := .le, data := 0 } else tDel l2 slot).trans
    (.dropL1 t _ c e.line)).trans (.endLineResv t _ c e.line)).trans (.dirDrop t _ c e.line)

theorem WaysEmptied.emptyWay (t : StrandId) (b : Body) (c : ClusterId) (w : Nat) : WaysEmptied t b (b.emptyWay c w) := by
  refine .foldl (fun x e => ?_) _ b
  refine WaysEmptied.trans ?_ (.l2Remove t _ c e.1 e.2 false)
  split
  · exact (HomeOnly.homeAccept _ _ _ _ _ _ _).waysEmptied t
  · exact .refl _ _

/-- What a write of CS.SPAD leaves, of a strand without a reservation. -/
structure SpadSet (b b' : Body) (t : StrandId) (v : W) : Prop where
  io : b'.io = b.io
  strand : b'.strand t = b.strand t
  ways : (b'.cluster (b.spadHome t)).ways = if 8 < (v.extractLsb' 0 4).toNat then (b.cluster (b.spadHome t)).ways else v.extractLsb' 0 4

theorem writeSpad_sets {b : Body} {t : StrandId} (hr : (b.strand t).resv = none) (v : W) : SpadSet b (b.writeSpad t v) t v := by
  unfold Body.writeSpad
  extract_lets c new old taken b1
  split
  · rename_i h
    exact ⟨rfl, rfl, (if_pos h).symm⟩
  · rename_i h
    have h1 : WaysEmptied t b b1 := .foldl (fun x w => .emptyWay t x c w) _ b
    refine ⟨h1.io, h1.strand hr, ?_⟩
    rw [if_neg h, Body.cluster_modCluster]
    exact (BitVec.ofNat_toNat _ _).trans (BitVec.setWidth_eq _)

end Sys2Proof.Machine
end

section
/-! What CSWR writes (R55, R67, R75 to R84, R180, R190, R191). -/

namespace Sys2Proof.Machine

section
variable {s : State} {t : StrandId} {b : Body} {ra : Reg} {num : BitVec 12}

/-! ## Completed writes -/

/-- A completed instruction that has changed more than its strand. -/
theorem Runs.insn_ok_body {i : Instr} {f : Bool} (h : Runs s t i b f) {x : Body → Res} {b' : Body} (hx : x b = .ok b' none)
    (hp : (b'.strand t).pend = (b.strand t).pend) :
    insn t i x f s = .next (finish s b' t (b'.strand t) (b.seqPc t (lenOf i))) := by
  rw [h.insn_eq, hx]
  simp only [Body.settle, Body.modStrand, finish, Body.seqPc, Strand.retire, hp, Option.getD_none]

/-- The number is written at privilege `prv` and above, and leaves the strand `u'`. -/
def Body.Writes (b : Body) (t : StrandId) (v : W) (num : BitVec 12) (prv : Nat) (u' : Strand) : Prop :=
  ∃ r, csReg num = some r ∧ r.writePrv ≤ prv ∧ (r = .status → 1 ≤ prv) ∧ b.csWrite t r v = b.setStrand t u'

theorem Body.Writes.cswrRes {v : W} {prv : Nat} {u' : Strand} (hw : b.Writes t v num prv u') (hv : (b.strand t).reg ra = v)
    (hp : prv ≤ (b.strand t).prv.toNat) : cswrRes b t num ra = .ok (b.setStrand t u') none := by
  obtain ⟨r, hn, hle, hs, hb⟩ := hw
  have hd : r = .status → (b.strand t).prv ≠ 0 := fun hr h0 => by
    have := (hs hr).trans hp
    rw [h0] at this
    exact absurd this (by decide)
  rw [cswrRes_written hn (hle.trans hp) hd, hv, hb]

theorem Body.Writes.cswr {prv : Nat} {u' : Strand} (hw : b.Writes t ((b.strand t).reg ra) num prv u')
    (h : Runs s t (.cswr t num ra) b (num = 1)) (hp : prv ≤ (b.strand t).prv.toNat) :
    exec (.cswr t num ra) s = .next (finish s b t u' (b.seqPc t 6)) :=
  h.insn_ok (x := fun b => Machine.cswrRes b t num ra) (hw.cswrRes rfl hp)

/-! ## Fields as the statement writes them -/

/-- A RM of 5 to 7 keeps its field (R76). -/
theorem fpstat_written (f v : W) (p : Prop) [Decidable p] :
    (f &&& if p then 0x1000000 else 0x1000007) ||| (v &&& if p then 0x1F1F07 else 0x1F1F00) =
      (f &&& 0x1000000) ||| (if p then v &&& 7 else f &&& 7) ||| (v &&& 0x1F1F00) := by
  have h1 : (0x1000007 : W) = 0x1000000 ||| 7 := rfl
  have h2 : (0x1F1F07 : W) = 7 ||| 0x1F1F00 := rfl
  by_cases h : p
  · simp only [if_pos h, h2, BitVec.and_or_distrib_left, BitVec.or_assoc]
  · simp only [if_neg h, h1, BitVec.and_or_distrib_left]

/-- Four numbers of a trap register, past that of the current copy. -/
theorem trapRegister_writes {base : BitVec 12} {reg : Nat → CsReg} {f : TrapCopy → TrapCopy} {v : W}
    (hn : ∀ k : Fin 5, csReg (base + BitVec.ofNat 12 k.val) = some (reg k.val)) (hp : ∀ k : Fin 5, (reg k.val).writePrv = if k = 2 then 2 else 1)
    (hs : ∀ sel, reg sel ≠ .status)
    (hv : ∀ sel, b.csWrite t (reg sel) v =
      b.setStrand t ((b.strand t).setCopy (f ((b.strand t).copy ((b.strand t).selCopy sel))) ((b.strand t).selCopy sel))) :
    ∀ e ∈ [(base + 1, 1, { b.strand t with trapK := f (b.strand t).trapK }), (base + 2, 2, { b.strand t with trapS := f (b.strand t).trapS }),
      (base + 3, 1, { b.strand t with trap1 := f (b.strand t).trap1 }), (base + 4, 1, { b.strand t with trap2 := f (b.strand t).trap2 })],
      b.Writes t v e.1 e.2.1 e.2.2 := by
  simp only [List.forall_mem_cons, List.not_mem_nil, false_imp_iff, implies_true, and_true]
  exact ⟨⟨reg 1, hn 1, (hp 1).le, fun e => absurd e (hs 1), hv 1⟩, ⟨reg 2, hn 2, (hp 2).le, fun e => absurd e (hs 2), hv 2⟩,
    ⟨reg 3, hn 3, (hp 3).le, fun e => absurd e (hs 3), hv 3⟩, ⟨reg 4, hn 4, (hp 4).le, fun e => absurd e (hs 4), hv 4⟩⟩

/-- A CHKTGT of 576 to 1,022 keeps the register (R65). -/
theorem csWrite_chktgt (v : W) : b.csWrite t .chktgt v = b.setStrand t { b.strand t with
    chktgt := if 576 ≤ (v.setWidth 10).toNat ∧ (v.setWidth 10).toNat ≤ 1022 then (b.strand t).chktgt else v.setWidth 10 } := by
  have hg : v.setWidth 10 = v.extractLsb' 0 10 := BitVec.setWidth_eq_extractLsb' (by decide)
  simp only [Body.csWrite, hg]
  split
  · exact (Body.setStrand_strand b t).symm
  · rfl

theorem csWrite_win (v : W) : b.csWrite t .win v = b.setStrand t
    (if v.extractLsb' 0 4 - v.extractLsb' 8 4 = 15 then b.strand t else { b.strand t with wcur := v.extractLsb' 0 4, wbase := v.extractLsb' 8 4 }) := by
  simp only [Body.csWrite]
  by_cases h : v.extractLsb' 0 4 - v.extractLsb' 8 4 = 15#4
  · exact (if_pos h).trans (((Body.setStrand_strand b t).symm).trans (congrArg _ (if_pos h).symm))
  · exact (if_neg h).trans (congrArg _ (if_neg h).symm)

theorem csWrite_waymask (v : W) : b.csWrite t .waymask v = b.setStrand t { b.strand t with
    waymaskL2 := if v.setWidth 16 = 0 then (b.strand t).waymaskL2 else v.setWidth 16
    waymaskL3 := if v.extractLsb' 16 16 = 0 then (b.strand t).waymaskL3 else v.extractLsb' 16 16 } := by
  have hg : v.setWidth 16 = v.extractLsb' 0 16 := BitVec.setWidth_eq_extractLsb' (by decide)
  simp only [Body.csWrite, hg]

theorem csWrite_fpstat (v : W) : b.csWrite t .fpstat v = b.setStrand t { b.strand t with
    fpstat := ((b.strand t).fpstat &&& 0x1000000) ||| (if (v.setWidth 3).toNat ≤ 4 then v &&& 7 else (b.strand t).fpstat &&& 7) |||
      (v &&& 0x1F1F00) } := by
  have hg : v.setWidth 3 = v.extractLsb' 0 3 := BitVec.setWidth_eq_extractLsb' (by decide)
  rw [hg, ← fpstat_written]
  rfl

/-! ## The rows with a behaviour of their own -/

theorem writeCsTcmp_exec {sel : BitVec 3} {k : Nat} (h : Runs s t (.writeCsTcmp t sel ra) b) (hn : csReg (0x078 + sel.setWidth 12) = some (.tcmp k))
    (hp : (CsReg.tcmp k).writePrv ≤ (b.strand t).prv.toNat) :
    exec (.writeCsTcmp t sel ra) s = .next (finish s b t (if (b.strand t).selS k then { b.strand t with tcmpS := (b.strand t).reg ra }
      else { b.strand t with tcmpK := (b.strand t).reg ra }) (b.seqPc t 6)) := by
  refine h.insn_ok (x := fun b => cswrRes b t (0x078 + sel.setWidth 12) ra) (pc := none) ?_
  rw [cswrRes_written hn hp nofun]
  simp only [Body.csWrite]
  split
  · rfl
  · rfl

theorem writeCsSpad_exec (h : Runs s t (.writeCsSpad t ra) b) (hp : 2 ≤ (b.strand t).prv.toNat) :
    ∃ b' : Body, exec (.writeCsSpad t ra) s = .next (finish s b' t (b'.strand t) (b.seqPc t 6)) ∧
      SpadSet (b.setStrand t (b.strand t).endResv) b' t ((b.strand t).reg ra) := by
  have hr : ((b.setStrand t (b.strand t).endResv).strand t).resv = none := by rw [Body.strand_setStrand]; rfl
  have hs := writeSpad_sets hr ((b.strand t).reg ra)
  refine ⟨_, ?_, hs⟩
  refine h.insn_ok_body (x := fun b => cswrRes b t 0x069 ra) (cswrRes_written (r := .spad) rfl hp nofun) ?_
  rw [hs.strand, Body.strand_setStrand]
  rfl

theorem writeCsCachectl_exec (h : Runs s t (.writeCsCachectl t ra) b) (hp : 2 ≤ (b.strand t).prv.toNat) :
    ∃ b' : Body, exec (.writeCsCachectl t ra) s = .next (finish s b' t (b'.strand t) (b.seqPc t 6)) ∧
      EnablesSet (b.setStrand t (b.strand t).endResv) b' t ((b.strand t).reg ra) := by
  have hs := writeCachectl_enables (b.setStrand t (b.strand t).endResv) t ((b.strand t).reg ra)
  refine ⟨_, ?_, hs⟩
  refine h.insn_ok_body (x := fun b => cswrRes b t 0x068 ra) (cswrRes_written (r := .cachectl) rfl hp nofun) ?_
  have ht : ((b.setStrand t (b.strand t).endResv).writeCachectl t ((b.strand t).reg ra)).strand t = (b.strand t).endResv :=
    (congrArg (fun x : Vector Strand 576 => x[t]) hs.strands).trans (Body.strand_setStrand b t _)
  exact (congrArg Strand.pend ht).trans rfl

end

/-- Settles O16: each number by the strand that its write leaves, and the four rows of their own. -/
theorem controlStateWrites : Obligations.ControlStateWrites := by
  refine ⟨?_, ?_⟩
  · intro s t b ra num prv u' u v low fp noResv copies table hm h hp
    have written : ∀ e ∈ table, b.Writes t v e.1 e.2.1 e.2.2 := by
      simp only [table, copies, List.forall_mem_append]
      refine ⟨⟨⟨⟨?_, trapRegister_writes (base := 0x018) (reg := .tcause) (f := fun c => { c with cause := low 8 })
          (by decide) (by decide) (fun _ => nofun) fun _ => rfl⟩,
        trapRegister_writes (base := 0x020) (reg := .tpc) (f := fun c => { c with pc := low 48 }) (by decide) (by decide) (fun _ => nofun) fun _ => rfl⟩,
        trapRegister_writes (base := 0x028) (reg := .tinfo 0) (f := fun c => { c with info0 := v }) (by decide) (by decide) (fun _ => nofun) fun _ => rfl⟩,
        trapRegister_writes (base := 0x040) (reg := .tinfo 3) (f := fun c => { c with info3 := v }) (by decide) (by decide) (fun _ => nofun) fun _ => rfl⟩
      simp only [List.forall_mem_cons, List.not_mem_nil, false_imp_iff, implies_true, and_true]
      exact ⟨⟨.status, rfl, Nat.zero_le _, fun _ => Nat.le_refl 1, rfl⟩, ⟨.fpstat, rfl, Nat.le_refl _, nofun, csWrite_fpstat v⟩,
        ⟨.lsp, rfl, Nat.le_refl _, nofun, rfl⟩, ⟨.wsp, rfl, Nat.le_refl _, nofun, rfl⟩, ⟨.tvec 1, rfl, Nat.le_refl _, nofun, rfl⟩,
        ⟨.tvec 2, rfl, Nat.le_refl _, nofun, rfl⟩, ⟨.itbr, rfl, Nat.le_refl _, nofun, rfl⟩, ⟨.dtbr, rfl, Nat.le_refl _, nofun, rfl⟩,
        ⟨.s2tbr, rfl, Nat.le_refl _, nofun, rfl⟩, ⟨.asid, rfl, Nat.le_refl _, nofun, rfl⟩, ⟨.part, rfl, Nat.le_refl _, nofun, rfl⟩,
        ⟨.iob 0, rfl, Nat.le_refl _, nofun, rfl⟩, ⟨.iob 3, rfl, Nat.le_refl _, nofun, rfl⟩, ⟨.waymask, rfl, Nat.le_refl _, nofun, csWrite_waymask v⟩,
        ⟨.chktgt, rfl, Nat.le_refl _, nofun, csWrite_chktgt v⟩⟩
    exact (written _ hm).cswr h hp
  · intro s t b ra u v
    refine ⟨fun h hp => ?_, fun sel h => ⟨fun hsel hp => ?_, fun hsel hp => ?_⟩, fun h hp => ?_, fun h hp => ?_⟩
    · refine h.insn_ok (x := fun b => cswrRes b t 0x002 ra) (pc := none) ?_
      rw [cswrRes_written (r := .win) rfl hp nofun, csWrite_win]
    · rcases hsel with rfl | ⟨rfl, hk⟩
      · exact writeCsTcmp_exec h (k := 1) rfl hp
      · have hS : u.selS 0 = false := by simp [Strand.selS, hk]
        refine (writeCsTcmp_exec h (k := 0) rfl hp).trans ?_
        rw [hS]
        rfl
    · have hp2 : 2 ≤ u.prv.toNat := by rw [hp]; decide
      rcases hsel with rfl | rfl
      · exact writeCsTcmp_exec h (k := 2) rfl hp2
      · have hS : u.selS 0 = true := by simp [Strand.selS, hp]
        refine (writeCsTcmp_exec h (k := 0) rfl (Nat.le_of_lt hp2)).trans ?_
        rw [hS]
        rfl
    · obtain ⟨b', hx, hb⟩ := writeCsSpad_exec h hp
      have ht : b'.strand t = u.endResv := hb.strand.trans (Body.strand_setStrand _ _ _)
      have hh : b'.spadHome t = b.spadHome t := by rw [Body.spadHome, ht]; rfl
      have hh' : (b.setStrand t u.endResv).spadHome t = b.spadHome t := by rw [Body.spadHome, Body.strand_setStrand]; rfl
      refine ⟨b', hx, hb.io, ht, ?_⟩
      rw [hh, ← hh']
      exact hb.ways
    · obtain ⟨b', hx, hb⟩ := writeCsCachectl_exec h hp
      exact ⟨b', hx, hb.io, (congrArg (fun x : Vector Strand 576 => x[t]) hb.strands).trans (Body.strand_setStrand b t _),
        hb.l1ie, hb.l1de, hb.l2e, hb.l3e⟩

end Sys2Proof.Machine
end

section
/-! Interrupts at a strand's boundary, and the events held for it (R57, R66 to R69, R163, R263, R357, R554). -/

namespace Sys2Proof.Machine

/-! ## The interrupt that is due (R66, R68) -/

theorem minOf_eq_min? (l : List Nat) : minOf l = l.min? := by
  induction l with
  | nil => rfl
  | cons x r ih =>
    rw [minOf, ih, List.min?_cons]
    cases r.min? with
    | none => rfl
    | some y => rfl

theorem minOf_of_lowest {l : List Nat} {n : Nat} (h : n ∈ l ∧ ∀ m ∈ l, n ≤ m) : minOf l = some n := by
  rw [minOf_eq_min?, List.min?_eq_some_iff]
  exact h

/-- The request of a timer that stands at or past its compare value, when it is enabled. -/
def Body.timerReq (b : Body) (t : StrandId) (tgt : TimerTarget) : Option TrapReq :=
  match tgt with
  | .s => if (b.strand t).takes true false && b.timerOn t .s then
      some { cause := 0x22, rule := .target 2, info0 := (b.strand t).tcmpS } else none
  | .k => if (b.strand t).takes false false && b.timerOn t .k then
      some { cause := 0x22, rule := .target 1, info0 := (b.strand t).tcmpK } else none

/-- The request of the lowest source of a kind, when it is enabled. -/
def Body.sourceReq (b : Body) (t : StrandId) (k : IntrKind) : Option TrapReq :=
  match k with
  | .sup => if (b.strand t).takes true false then
      (minOf (b.sources t .sup)).map fun n => { cause := 0x21, rule := .target 2, info0 := BitVec.ofNat 64 n } else none
  | .fast => if (b.strand t).takes false true then
      (minOf (b.sources t .fast)).map fun n => { cause := 0x20, rule := .target 1, info0 := BitVec.ofNat 64 n } else none
  | .ext => if (b.strand t).takes false false then
      (minOf (b.sources t .ext)).map fun n => { cause := 0x21, rule := .target 1, info0 := BitVec.ofNat 64 n } else none

section
variable {b : Body} {t : StrandId} {n : Nat}

/-- The order of R68, items 4 to 7. -/
theorem dueInterrupt_eq (b : Body) (t : StrandId) : b.dueInterrupt t =
    (b.timerReq t .s).or ((b.sourceReq t .sup).or ((b.sourceReq t .fast).or ((b.timerReq t .k).or (b.sourceReq t .ext)))) := by
  simp only [Body.dueInterrupt, Body.timerReq, Body.sourceReq, BitVec.ofNat_toNat, BitVec.setWidth_eq]
  split
  · rfl
  · rw [Option.none_or]
    split
    · rename_i h
      rw [h, Option.some_or]
    · rename_i h
      rw [h, Option.none_or]
      split
      · rename_i h
        rw [h, Option.some_or]
      · rename_i h
        rw [h, Option.none_or]
        split
        · rfl
        · rfl

theorem takes_sup (h : (b.strand t).tl = 0) : (b.strand t).takes true false = true ↔ (b.strand t).ie = true ∨ (b.strand t).prv ≠ 2 := by
  simp [Strand.takes, h]

theorem takes_fast (h : (b.strand t).tl = 0) : (b.strand t).takes false true = true ↔ (b.strand t).fie = true ∧ (b.strand t).prv ≠ 2 := by
  simp [Strand.takes, h, and_comm]

theorem takes_ext (h : (b.strand t).tl = 0) : (b.strand t).takes false false = true ↔ (b.strand t).ie = true ∧ (b.strand t).prv ≠ 2 := by
  simp [Strand.takes, h, and_comm]

theorem takes_none (h : (b.strand t).tl ≠ 0) (sup fast : Bool) : (b.strand t).takes sup fast = false := by
  simp [Strand.takes, h]

theorem timerOn_s : b.timerOn t .s = true ↔ (b.strand t).tcmpS.toNat ≤ (b.ctl.tod[halfOfStrand t]).toNat := decide_eq_true_iff
theorem timerOn_k : b.timerOn t .k = true ↔ (b.strand t).tcmpK.toNat ≤ (b.ctl.tod[halfOfStrand t]).toNat := decide_eq_true_iff

/-! ### Which requests there are at TL 0 -/

section
variable (h : (b.strand t).tl = 0)
include h

theorem timerReq_s_iff : ((b.strand t).takes true false && b.timerOn t .s) = true ↔
    ((b.strand t).ie = true ∨ (b.strand t).prv ≠ 2) ∧ (b.strand t).tcmpS.toNat ≤ (b.ctl.tod[halfOfStrand t]).toNat := by
  rw [Bool.and_eq_true, takes_sup h, timerOn_s]

theorem timerReq_k_iff : ((b.strand t).takes false false && b.timerOn t .k) = true ↔
    ((b.strand t).ie = true ∧ (b.strand t).prv ≠ 2) ∧ (b.strand t).tcmpK.toNat ≤ (b.ctl.tod[halfOfStrand t]).toNat := by
  rw [Bool.and_eq_true, takes_ext h, timerOn_k]

theorem sourceReq_sup_none (hn : ¬(((b.strand t).ie = true ∨ (b.strand t).prv ≠ 2) ∧ b.sources t .sup ≠ [])) : b.sourceReq t .sup = none := by
  simp only [Body.sourceReq]
  split
  · rename_i ht
    have hl : b.sources t .sup = [] := not_not.1 fun k => hn ⟨(takes_sup h).1 ht, k⟩
    rw [hl]
    rfl
  · rfl

theorem sourceReq_fast_none (hn : ¬(((b.strand t).fie = true ∧ (b.strand t).prv ≠ 2) ∧ b.sources t .fast ≠ [])) : b.sourceReq t .fast = none := by
  simp only [Body.sourceReq]
  split
  · rename_i ht
    have hl : b.sources t .fast = [] := not_not.1 fun k => hn ⟨(takes_fast h).1 ht, k⟩
    rw [hl]
    rfl
  · rfl

theorem sourceReq_sup_some (ho : (b.strand t).ie = true ∨ (b.strand t).prv ≠ 2) (hl : n ∈ b.sources t .sup ∧ ∀ m ∈ b.sources t .sup, n ≤ m) :
    b.sourceReq t .sup = some { cause := 0x21, rule := .target 2, info0 := BitVec.ofNat 64 n } := by
  simp only [Body.sourceReq, if_pos ((takes_sup h).2 ho), minOf_of_lowest hl, Option.map_some]

theorem sourceReq_fast_some (ho : (b.strand t).fie = true ∧ (b.strand t).prv ≠ 2) (hl : n ∈ b.sources t .fast ∧ ∀ m ∈ b.sources t .fast, n ≤ m) :
    b.sourceReq t .fast = some { cause := 0x20, rule := .target 1, info0 := BitVec.ofNat 64 n } := by
  simp only [Body.sourceReq, if_pos ((takes_fast h).2 ho), minOf_of_lowest hl, Option.map_some]

theorem sourceReq_ext_some (ho : (b.strand t).ie = true ∧ (b.strand t).prv ≠ 2) (hl : n ∈ b.sources t .ext ∧ ∀ m ∈ b.sources t .ext, n ≤ m) :
    b.sourceReq t .ext = some { cause := 0x21, rule := .target 1, info0 := BitVec.ofNat 64 n } := by
  simp only [Body.sourceReq, if_pos ((takes_ext h).2 ho), minOf_of_lowest hl, Option.map_some]

end

/-! ### The interrupt at a quiet boundary -/

section
variable (h : (b.strand t).tl = 0)
include h

theorem dueInterrupt_sTimer (ho : (b.strand t).ie = true ∨ (b.strand t).prv ≠ 2)
    (hc : (b.strand t).tcmpS.toNat ≤ (b.ctl.tod[halfOfStrand t]).toNat) :
    b.dueInterrupt t = some { cause := 0x22, rule := .target 2, info0 := (b.strand t).tcmpS } := by
  have hr : b.timerReq t .s = some { cause := 0x22, rule := .target 2, info0 := (b.strand t).tcmpS } := if_pos ((timerReq_s_iff h).2 ⟨ho, hc⟩)
  rw [dueInterrupt_eq, hr, Option.some_or]

theorem dueInterrupt_kTimer
    (h1 : ¬(((b.strand t).ie = true ∨ (b.strand t).prv ≠ 2) ∧ (b.strand t).tcmpS.toNat ≤ (b.ctl.tod[halfOfStrand t]).toNat))
    (h2 : ¬(((b.strand t).ie = true ∨ (b.strand t).prv ≠ 2) ∧ b.sources t .sup ≠ []))
    (h3 : ¬(((b.strand t).fie = true ∧ (b.strand t).prv ≠ 2) ∧ b.sources t .fast ≠ []))
    (h4 : ((b.strand t).ie = true ∧ (b.strand t).prv ≠ 2) ∧ (b.strand t).tcmpK.toNat ≤ (b.ctl.tod[halfOfStrand t]).toNat) :
    b.dueInterrupt t = some { cause := 0x22, rule := .target 1, info0 := (b.strand t).tcmpK } := by
  have hs : b.timerReq t .s = none := if_neg fun k => h1 ((timerReq_s_iff h).1 k)
  have hr : b.timerReq t .k = some { cause := 0x22, rule := .target 1, info0 := (b.strand t).tcmpK } := if_pos ((timerReq_k_iff h).2 h4)
  rw [dueInterrupt_eq, hs, sourceReq_sup_none h h2, sourceReq_fast_none h h3, hr, Option.none_or, Option.none_or, Option.none_or, Option.some_or]

end

theorem dueInterrupt_none (h : (b.strand t).tl ≠ 0) : b.dueInterrupt t = none := by
  simp [dueInterrupt_eq, Body.timerReq, Body.sourceReq, takes_none h]

theorem onBody_of_eq {s : State} {f : Body → Body} {b' : Body} (h : f s.body = b') : onBody f s = .next { s with body := b' } := by
  rw [onBody, h]

theorem takeDue_of_due {r : TrapReq} (hi : (b.strand t).interruptible = true) (hb : b.boundary t false = none) (hp : (b.strand t).pend = false)
    (hd : b.dueInterrupt t = some r) : b.takeDue t = b.takeTrap t r (b.strand t).pc := by
  simp only [Body.takeDue, Body.takeInterrupt, hi, hb, hd, hp, Bool.not_true, Bool.false_and, Bool.false_eq_true, if_false, Option.map_some,
    Option.getD_some]

theorem takeDue_of_none (hb : b.boundary t false = none) (hd : b.dueInterrupt t = none) : b.takeDue t = b := by
  simp only [Body.takeDue, Body.takeInterrupt, hb, hd, Option.map_none, Option.getD_none, ite_self]

end

/-- Settles O17: the sources above the one that is taken give no request. -/
theorem interruptPriority : Obligations.InterruptPriority := by
  refine ⟨?_, ?_⟩
  · intro s t n b u sOn kOn fOn sTimer kTimer sup fast lowest taken hi hb hp h
    have hs (hn : ¬sTimer) : b.timerReq t .s = none := if_neg fun k => hn ((timerReq_s_iff h).1 k)
    have hk (hn : ¬kTimer) : b.timerReq t .k = none := if_neg fun k => hn ((timerReq_k_iff h).1 k)
    have due {r : TrapReq} (hd : b.dueInterrupt t = some r) : exec (.interruptTaken t) s = .next { s with body := b.takeTrap t r u.pc } :=
      onBody_of_eq (f := fun b => b.takeDue t) (takeDue_of_due hi hb hp hd)
    refine ⟨fun h1 => due (dueInterrupt_sTimer h h1.1 h1.2), fun h1 ho hl => due ?_, fun h1 h2 ho hl => ?_,
      fun h1 h2 h3 h4 => due (dueInterrupt_kTimer h h1 h2 h3 h4), fun h1 h2 h3 h4 ho hl => due ?_⟩
    · rw [dueInterrupt_eq, hs h1, sourceReq_sup_some h ho hl, Option.none_or, Option.some_or]
    · have hd : b.dueInterrupt t = some { cause := 0x20, rule := .target 1, info0 := BitVec.ofNat 64 n } := by
        rw [dueInterrupt_eq, hs h1, sourceReq_sup_none h h2, sourceReq_fast_some h ho hl, Option.none_or, Option.none_or, Option.some_or]
      have hf : (u.takes false true && !(b.sources t .fast).isEmpty) = true := by
        rw [Bool.and_eq_true, takes_fast h]
        exact ⟨ho, by simpa using List.ne_nil_of_mem hl.1⟩
      exact ⟨due hd, onBody_of_eq (f := fun b => if (b.strand t).takes false true && !(b.sources t .fast).isEmpty then b.takeDue t else b)
        ((if_pos hf).trans (takeDue_of_due hi hb hp hd))⟩
    · rw [dueInterrupt_eq, hs h1, sourceReq_sup_none h h2, sourceReq_fast_none h h3, hk h4, sourceReq_ext_some h ho hl, Option.none_or, Option.none_or,
        Option.none_or, Option.none_or]
  · intro s t h hb
    have hf : ((s.body.strand t).takes false true && !(s.body.sources t .fast).isEmpty) = false := by rw [takes_none h, Bool.false_and]
    exact ⟨onBody_of_eq (f := fun b => b.takeDue t) (takeDue_of_none hb (dueInterrupt_none h)),
      onBody_of_eq (f := fun b => if (b.strand t).takes false true && !(b.sources t .fast).isEmpty then b.takeDue t else b)
        (if_neg (Bool.eq_false_iff.1 hf))⟩

/-! ## The events of a strand that are commands of their own (R68, R69, R163, R357, R554) -/

section
variable {b : Body} {t : StrandId}

/-- TIMER at a quiet boundary, `b` being the machine at the moment of the compare value. -/
theorem timer_taken {s : State} {tgt : TimerTarget} {r : TrapReq} (hx : exec (.timer t tgt) s = .next { s with body := b.takeDue t })
    (hi : (b.strand t).interruptible = true) (hb : b.boundary t false = none) (hp : (b.strand t).pend = false) (hd : b.dueInterrupt t = some r) :
    exec (.timer t tgt) s = .next { s with body := b.takeTrap t r (b.strand t).pc } := by
  rw [hx, takeDue_of_due hi hb hp hd]

theorem Strand.abandon_windows (u : Strand) : u.abandon.wcur = u.wcur ∧ u.abandon.wbase = u.wbase := by
  unfold Strand.abandon
  split
  · exact ⟨rfl, rfl⟩
  · exact ⟨rfl, rfl⟩

/-- What an abandoned customer routine leaves of the exception that is pending, and of the pc. -/
theorem Strand.abandon_pending (u : Strand) :
    u.abandon.fpPrv = u.fpPrv ∧ u.abandon.fpAddr = u.fpAddr ∧ u.abandon.fpKind = u.fpKind ∧ u.abandon.pc = u.pc := by
  unfold Strand.abandon
  split
  · exact ⟨rfl, rfl, rfl, rfl⟩
  · exact ⟨rfl, rfl, rfl, rfl⟩

theorem Strand.not_replaces (u : Strand) (r : TrapReq) (h : u.resident ≠ 14) : ¬u.replaces r = true :=
  fun k => h ((Strand.replaces_iff u).1 k).2.1

/-- FP_DEFERRED that WINDOW_OVERFLOW does not replace. -/
theorem deliverFp_eq (hr : (b.strand t).resident ≠ 14) : b.deliverFp t =
    (b.setStrand t { (b.strand t).abandon with fpstat := (b.strand t).abandon.fpstat &&& ~~~0x1000000#64 }).takeTrap t
      { cause := 0x0D
        rule := .target (if (b.strand t).fpPrv = 2 then 2 else 1)
        info0 := (b.strand t).fpAddr.setWidth 64
        info1 := (b.strand t).fpKind } (b.strand t).pc := by
  obtain ⟨hcur, hbase⟩ := (b.strand t).abandon_windows
  obtain ⟨hprv, haddr, hkind, hpc⟩ := (b.strand t).abandon_pending
  have hr' : (b.strand t).abandon.resident ≠ 14 := by rw [Strand.resident, hcur, hbase]; exact hr
  simp only [Body.deliverFp, if_neg (Strand.not_replaces _ _ hr'), hprv, haddr, hkind, hpc]
  rfl

/-- The held event at a boundary where nothing comes before it. -/
theorem boundary_held {r : TrapReq} (h0 : (b.strand t).tl = 0) (hp : (b.strand t).pend = false) (hm : (b.strand t).mcheck = none)
    (hh : (b.strand t).held = some r) (forced : Bool) :
    b.boundary t forced = some ((b.setStrand t { b.strand t with held := none }).takeTrap t r (b.strand t).pc true) := by
  simp only [Body.boundary, h0, hp, hm, hh, Bool.false_eq_true, false_and, and_false, if_false, if_true]

end

theorem completionEventDelay_exec {s : State} {n : SliceId} {e : Nat} (hst : (s.body.slice n).st ≠ .free) (harm : (s.body.slice n).arm = true)
    (hde : (s.body.slice n).delayEnd = some e) : exec (.completionEventDelay n) s =
      .next { s with body := s.body.reach (s.body.servingHub n (s.body.slice n).part) e } := by
  have hc : ((s.body.slice n).st != .free && (s.body.slice n).arm) = true := by simp [hst, harm]
  show execCompletionEventDelay n s = _
  simp only [execCompletionEventDelay, onBody, hde, hc, if_true]

/-- The oldest entry's DELAY has ended: the slice's event is asserted. -/
theorem sliceEvent_reach {b : Body} {n : SliceId} {e : Nat} (hst : (b.slice n).st ≠ .free) (harm : (b.slice n).arm = true)
    (hne : (b.slice n).cq.head ≠ (b.slice n).cq.tail) (hde : (b.slice n).delayEnd = some e) (hlt : e < 2 ^ 64) :
    (b.reach (b.servingHub n (b.slice n).part) e).sliceEvent n = true := by
  have hnow := b.le_tod_reach (b.servingHub n (b.slice n).part) hlt
  have hev : (b.slice n).eventAt ((b.reach (b.servingHub n (b.slice n).part) e).tod (b.servingHub n (b.slice n).part)) = true := by
    simp only [Slice.eventAt, harm, hde, hnow, bne_iff_ne.2 hne.symm, decide_true, Bool.and_self, Bool.or_true, Bool.true_or]
  exact Bool.and_eq_true_iff.2 ⟨bne_iff_ne.2 hst, hev⟩

/-- Settles O18: TIMER by the interrupt that is due once the timebase stands at the compare value, the others by the event that they deliver. -/
theorem timerAndHeldEvents : Obligations.TimerAndHeldEvents := by
  refine ⟨?_, ?_⟩
  · intro s t tgt h u cmp d b
    have hle : cmp.toNat ≤ (b.ctl.tod[h]).toNat := s.body.le_tod_reach h cmp.isLt
    refine ⟨hle, fun hi hb hp h0 => ⟨fun ht ho => ?_, fun ht hie hprv hS hsup hfast => ?_⟩⟩
    · subst ht
      exact timer_taken (b := b) rfl hi hb hp (dueInterrupt_sTimer (b := b) h0 ho hle)
    · subst ht
      exact timer_taken (b := b) rfl hi hb hp (dueInterrupt_kTimer (b := b) h0 (fun k => absurd k.2 (Nat.not_le.2 hS)) (fun k => k.2 hsup)
        (fun k => k.2 hfast) ⟨⟨hie, hprv⟩, hle⟩)
  · intro s t b u
    refine ⟨fun hi h0 hp hr => ?_, fun r hi h0 hp hm hh => ?_, ?_⟩
    · have hc : (u.interruptible && u.tl = 0 && u.pend) = true := by simp [hi, h0, hp]
      exact onBody_of_eq (f := fun b => if (b.strand t).interruptible && (b.strand t).tl = 0 && (b.strand t).pend then b.deliverFp t else b)
        ((if_pos hc).trans (deliverFp_eq hr))
    · have hc : (u.interruptible && u.tl = 0 && u.held.isSome) = true := by simp [hi, h0, hh]
      refine onBody_of_eq
        (f := fun b => if (b.strand t).interruptible && (b.strand t).tl = 0 && (b.strand t).held.isSome then (b.boundary t true).getD b else b) ?_
      rw [if_pos hc, boundary_held h0 hp hm hh, Option.getD_some]
    · intro n e x hst harm hne hde hlt
      exact ⟨_, completionEventDelay_exec hst harm hde, sliceEvent_reach hst harm hne hde hlt, rfl⟩

end Sys2Proof.Machine
end

section
/-! Flelet's commands on lost lines, strands, keys and diagnostics, on valid parameters (R64, R252, R392 to R396, R437, R483, R513 to R517). -/

namespace Sys2Proof.Machine

section
variable {s : State} {r : FReq}

/-! ## Lost lines and strands (R64, R437, R513, R514) -/

theorem clearPoison_run (ha : pf r.params 0 8 % 128 = 0) (hlt : pf r.params 0 8 < 2 ^ 52) (hp : s.body.poisoned (lineNo (pf r.params 0 8)) = true)
    (hc : s.body.cutOff r.island (pf r.params 0 8) = false) (hk : (tGet s.body.mem.slots (pf r.params 8 1)).isSome = true)
    (hz : zeroBytes r.params 9 7) : doClearPoison r s =
      done (withBody s fun x => x.homeStore (pf r.params 0 8) ((r.params.drop 16).take 128) (r.params.getD 8 0) true) [] := by
  refine checked_passes ?_ _
  simp only [passes_append, passes_cons, passes_nil, ha, hlt, hp, hc, hk, passes_zeros hz, decide_true, Bool.not_false, Bool.and_self, and_self]

theorem strandNamed_eq {t : StrandId} {i : HubId} (h : pf r.params 0 2 = t.val) (hs : s.body.isSplit = false) :
    s.body.strandNamed i r.params = some t := by
  have hlt : pf r.params 0 2 < 576 := h ▸ t.isLt
  have hok : s.body.strandOk i (pf r.params 0 2) = true := by simp [Body.strandOk, Body.otherHalf, hs, hlt]
  simp only [Body.strandNamed, hlt, hok, dif_pos, if_true]
  exact congrArg some (Fin.ext h)

section
variable {t : StrandId} (hn : s.body.strandNamed r.island r.params = some t) (hz : zeroBytes r.params 2 2)
  (hr : (s.body.strand t).run = .stopped ∨ (s.body.strand t).run = .neverStarted)
include hn hz hr

theorem startStrand_run (hc : (s.body.ctl.cores[coreOf t]).role = .assignable) (hd : s.body.domainOn (coreOf t).val = true) :
    doStartStrand r s = if field (r.params.drop 4) 0xC40 8 / 4 % 4 = 3 then bad s 0xC40 else
      done (withBody s fun x => (x.setStrand t { imageStrand (r.params.drop 4) with
        spHome := (x.ctl.cores[coreOf t]).spHome, checkSrc := (x.strand t).checkSrc }).dropCheck t) [] := by
  have hrun : ((s.body.strand t).run = .stopped || (s.body.strand t).run = .neverStarted) = true := by simpa using hr
  have hp : Passes ((0, ((s.body.strand t).run = .stopped || (s.body.strand t).run = .neverStarted) &&
      decide ((s.body.ctl.cores[coreOf t]).role = .assignable) && s.body.domainOn (coreOf t).val) :: zeros r.params 2 2) := by
    simp only [passes_cons, hrun, hc, hd, decide_true, Bool.and_self, passes_zeros hz, and_self]
  simp only [doStartStrand, hn, withBody, checked_passes hp]

theorem releaseStrand_run : doReleaseStrand r s =
    done (withBody s fun x => (x.setStrand t { checkSrc := (x.strand t).checkSrc }).dropCheck t) [] := by
  have hrun : ((s.body.strand t).run = .stopped || (s.body.strand t).run = .neverStarted) = true := by simpa using hr
  have hp : Passes ((0, (s.body.strand t).run = .stopped || (s.body.strand t).run = .neverStarted) :: zeros r.params 2 2) := by
    simp only [passes_cons, hrun, passes_zeros hz, and_self]
  simp only [doReleaseStrand, hn, withBody, checked_passes hp]

end

/-! ## Keys (R252, R392 to R396, R515, R516) -/

theorem loadKey_unsigned (h : s.cfg.anchor = none) : doLoadKey r s = only s stSignatureBad := by
  simp only [doLoadKey, h, Bool.not_false, if_true]

/-- What LOAD_KEY answers once the table has taken the key or refused it. -/
def keyAnswer (s : State) : Except Byte (BitVec 32) × Body → Answer
  | (.error _, _) => bad s 0
  | (.ok h, b) => done { s with body := b } (leBytes 4 h.toNat)

section
variable {a : Anchor} (ha : s.cfg.anchor = some a)
include ha

theorem loadKey_refused (hv : Config.verifies a.alg a.sign (r.params.take (1608 + pf r.params 6 2)) (r.params.drop (1608 + pf r.params 6 2)) = false) :
    doLoadKey r s = only s stSignatureBad := by
  simp only [doLoadKey, ha, hv, Bool.and_false, Bool.not_false, if_true]

section
variable (halg : r.params.getD 3 0 = a.alg) (hsig : pf r.params 8 2 = algSig a.alg)
  (hv : Config.verifies a.alg a.sign (r.params.take (1608 + pf r.params 6 2)) (r.params.drop (1608 + pf r.params 6 2)) = true)
include halg hsig hv

theorem loadKey_unopened (ho : Config.openTransport ((r.params.drop 24).take 1568) ((r.params.drop 12).take 12) (r.params.take 12)
    ((r.params.drop 1592).take (pf r.params 6 2 + 16)) = none) : doLoadKey r s = bad s 24 := by
  simp only [doLoadKey, ha, halg, hsig, hv, ho, decide_true, Bool.and_self, Bool.not_true, Bool.false_eq_true, if_false]

/-- A key whose blob opens, its parameters being valid: the table takes it or refuses it. -/
theorem loadKey_opened {m : List Byte} (ho : Config.openTransport ((r.params.drop 24).take 1568) ((r.params.drop 12).take 12) (r.params.take 12)
      ((r.params.drop 1592).take (pf r.params 6 2 + 16)) = some m)
    (hk : (keyUsages (r.params.getD 1 0)).isSome = true) (hu : keyKindOk (r.params.getD 1 0) (r.params.getD 2 0) = true)
    (hl : keyLenOk (r.params.getD 1 0) (pf r.params 6 2) = true) (hz : zeroBytes r.params 10 2) (he : s.body.partExists (pf r.params 0 1) = true) :
    doLoadKey r s = keyAnswer s (s.body.newKey r.island (r.params.getD 1 0) (r.params.getD 2 0) (r.params.getD 0 0)
      (BitVec.ofNat 16 (pf r.params 4 2)) (padTo (pf r.params 6 2) m)) := by
  have he' : s.body.partExists (r.params.getD 0 0).toNat = true := by rw [← field_one]; exact he
  have hp : Passes ([(1, (keyUsages (r.params.getD 1 0)).isSome), (2, keyKindOk (r.params.getD 1 0) (r.params.getD 2 0)),
      (6, keyLenOk (r.params.getD 1 0) (pf r.params 6 2))] ++ zeros r.params 10 2 ++ [(0, s.body.partExists (r.params.getD 0 0).toNat)]) := by
    simp only [passes_append, passes_cons, passes_nil, hk, hu, hl, he', passes_zeros hz, and_self]
  simp only [doLoadKey, ha, halg, hsig, hv, ho, decide_true, Bool.and_self, Bool.not_true, Bool.false_eq_true, if_false, checked_passes hp]
  split
  · rename_i hx
    rw [hx, keyAnswer]
  · rename_i hx
    rw [hx, keyAnswer]

end

end

theorem loadMemkey_run {k : KeyEntry} (h1 : 1 ≤ pf r.params 0 1) (hz : zeroBytes r.params 2 2) (hs : pf r.params 1 1 = 1)
    (hk : s.body.keyOf r.island (BitVec.ofNat 32 (pf r.params 4 4)) = some k) (hok : memKeyOk (pf r.params 0 1) k = true) :
    doLoadMemkey r s = done (withBody s fun x => x.modMem fun m => { m with slots := tPut m.slots (pf r.params 0 1) k.material }) [] := by
  simp only [doLoadMemkey, hk, hs, hok, if_true]
  exact checked_passes (by simp [passes_zeros hz, h1]) _

theorem loadMemkey_random (h1 : 1 ≤ pf r.params 0 1) (hz : zeroBytes r.params 2 2) (hs : pf r.params 1 1 = 0) :
    doLoadMemkey r s = done (withBody s fun x => (x.modMem fun m =>
      { m with slots := tPut m.slots (pf r.params 0 1) (freeBytes s.body.freeCtr 64) }).spend) [] := by
  simp only [doLoadMemkey, hs, Nat.zero_ne_one, if_false, withBody]
  exact checked_passes (by simp [passes_zeros hz, h1]) _

theorem clearMemkey_run (h1 : 1 ≤ pf r.params 0 1) (hz : zeroBytes r.params 1 3) :
    doClearMemkey r s = done (withBody s fun x => x.modMem fun m => { m with slots := tDel m.slots (pf r.params 0 1) }) [] :=
  checked_passes (by simp [passes_zeros hz, h1]) _

theorem setKeyQuota_run (he : s.body.partExists (pf r.params 0 1) = true) (hz : zeroBytes r.params 1 1) (h1 : 1 ≤ pf r.params 2 2) :
    doSetKeyQuota r s = done (withBody s fun x => x.modIo fun i => { i with
      parts := tMod i.parts (pf r.params 0 1) fun y => { y with kquota := BitVec.ofNat 16 (pf r.params 2 2) } }) [] :=
  checked_passes (by simp [passes_zeros hz, he, h1]) _

section
variable {k : KeyEntry} (hk : s.body.keyOf r.island (BitVec.ofNat 32 (pf r.params 0 4)) = some k)
include hk

theorem reassignKey_run (he : s.body.partExists (pf r.params 4 1) = true) (hz : zeroBytes r.params 5 1) :
    doReassignKey r s = if s.body.handleUsed (BitVec.ofNat 32 (pf r.params 0 4)) then only s stBusy else
      done (withBody s fun x => x.putKey r.island ((BitVec.ofNat 32 (pf r.params 0 4)).toNat % 65536)
        { k with part := r.params.getD 4 0, asid := BitVec.ofNat 16 (pf r.params 6 2) }) [] := by
  simp only [doReassignKey, hk]
  exact checked_passes (by simp [passes_zeros hz, he]) _

theorem destroyKey_run : doDestroyKey r s = if s.body.handleUsed (BitVec.ofNat 32 (pf r.params 0 4)) then .wait else
    done (withBody s fun x => x.putKey r.island ((BitVec.ofNat 32 (pf r.params 0 4)).toNat % 65536) { k with live := false, material := [] }) [] := by
  simp only [doDestroyKey, hk]

end

/-! ## Diagnostics (R483, R517) -/

/-- The result of a self-test: whether the unit passes, which is free, and its signature. -/
def selftestResult (ctr : Nat) (loc : BitVec 16) : List Byte :=
  (if Config.selfTest ctr loc.toNat then 1 else 0) :: padTo 16 (Config.testSignature loc.toNat)

theorem selftestResult_length (ctr : Nat) (loc : BitVec 16) : (selftestResult ctr loc).length = 17 := by
  simp only [selftestResult, padTo, List.length_cons, List.length_append, List.length_take, List.length_replicate]
  omega

theorem selftestResult_verdict (ctr : Nat) (loc : BitVec 16) : (selftestResult ctr loc).getD 0 0 = 0 ∨ (selftestResult ctr loc).getD 0 0 = 1 := by
  simp only [selftestResult, List.getD_cons_zero]
  split
  · exact .inr rfl
  · exact .inl rfl

theorem runSelftest_run (h : locValid (BitVec.ofNat 16 (pf r.params 0 2)) = true) : doRunSelftest r s =
    .start fun t x => withBody x fun b => b.spend.finishTicket t stDone 0 (selftestResult b.freeCtr (BitVec.ofNat 16 (pf r.params 0 2))) :=
  checked_passes (by simpa [locOf] using h) _

section
variable (hd : pf r.params 0 2 < 230) (hz : zeroBytes r.params 3 1)
include hd hz

theorem diagDomain_on (h : pf r.params 2 1 = 1) : doDiagDomain r s = done (withBody s fun b => b.switch (pf r.params 0 2) true) [] := by
  simp only [doDiagDomain, h, Body.setDomain, decide_true, if_true]
  exact checked_passes (by simp [passes_zeros hz, hd]) _

theorem diagDomain_off (h : pf r.params 2 1 = 0) :
    doDiagDomain r s = done (withBody s fun b => (b.clearDomain (pf r.params 0 2)).switch (pf r.params 0 2) false) [] := by
  simp only [doDiagDomain, h, Body.setDomain, Nat.zero_ne_one, decide_false, Bool.false_eq_true, if_false]
  exact checked_passes (by simp [passes_zeros hz, hd]) _

end

theorem testPort_open (h : pf r.params 0 1 = 1) :
    doTestPort r s = done (withBody s fun b => b.modCtl fun c => { c with port := { c.port with isOpen := true } }) [] := by
  simp only [doTestPort, h, if_true]
  exact checked_passes (by simp) _

theorem testPort_close (h : pf r.params 0 1 = 0) : doTestPort r s = done (withBody s fun b => b.modCtl fun c => { c with port := {} }) [] := by
  simp only [doTestPort, h, Nat.zero_ne_one, if_false]
  exact checked_passes (by simp) _

end

end Sys2Proof.Machine
end

section
/-! The commands on lost lines, strands, keys and diagnostics as requests. -/

namespace Sys2Proof.Machine

section
variable {s : State} {c : Cmd} {src : FSource} {role : Role} {island : HubId} {p : Packet}

/-! ## A command that waits (R396, R492) -/

@[simp] theorem heard_io : (s.heard src p).body.io = s.body.io := by obtain ⟨_, h⟩ := heard_eq s src p; rw [h]
@[simp] theorem heard_outbox : (s.heard src p).body.ctl.outbox = s.body.ctl.outbox := by obtain ⟨_, h⟩ := heard_eq s src p; rw [h]

/-- Items 1 to 4 of R497, whatever the command answers. -/
theorem checkHeader_accepts (h : Asked s c src role island p) :
    checkHeader (some c) c.op src island false p { s with body := s.body.touchConn src } =
      acceptCmd (some c) c.op (requestOf src role island p) false p (s.heard src p) := by
  have hsession := h.session
  cases src with
  | conn n =>
    obtain ⟨x, hx, hs, hr, hm⟩ := hsession
    have hx' : tGet (s.body.touchConn (.conn n)).ctl.conns n = some { x with lastPacket := s.body.now } := by
      simp only [Body.touchConn, Body.modCtl_ctl, tGet_tMod_self, hx, Option.map_some]
    have hw : (s.body.touchConn (.conn n)).waitsFor (.conn n) p.sequence = false := by
      have hg : (s.body.touchConn (.conn n)).ctl.genWait = [] := h.calm
      simp only [Body.waitsFor, hg, List.any_nil]
    simp only [checkHeader, h.length, h.header, State.heard, hx', hs, hr, hw, Nat.not_le.2 hm, bne_self_eq_false, Bool.false_eq_true, if_false]
  | mailbox i n =>
    obtain ⟨hs, hr⟩ := hsession
    subst hr
    simp only [checkHeader, h.length, h.header, State.heard, hs, bne_self_eq_false, Bool.false_eq_true, if_false]

/-- A command that waits leaves the request in the queue, and nothing else. -/
theorem Asked.waits (h : Asked s c src role island p) {i : Instr} (hi : exec i s = flelet c src p s)
    (hr : c.run (requestOf src role island p) (s.heard src p) = .wait) : exec i s = .next { s.heard src p with
      body := (s.heard src p).body.modCtl fun x => { x with genWait := [{ src := src, opcode := c.op, packet := p }] } } := by
  have hs : s.body.sweepSwitch = s.body := sweepSwitch_none h.settled
  have hg : (s.heard src p).body.ctl.genWait = [] := heard_genWait.trans h.calm
  obtain ⟨h1, h2, h3⟩ := performCmd_asked h
  have hp : performCmd (some c) c.op (requestOf src role island p) false p (s.heard src p) = (s.heard src p, true) := by
    simp only [performCmd, Bool.false_and, Bool.false_eq_true, if_false, h1, h2, h3, Bool.not_true, hr]
  rw [hi]
  simp only [flelet, pump_calm cmdOf h.calm, request, hs, h.reaches]
  rw [checkHeader_accepts h]
  simp only [acceptCmd, hg, List.any_nil, Bool.false_eq_true, if_false, hp, Body.modCtl, List.nil_append]

/-! ## RUN_SELFTEST (R517) -/

theorem issueTicket_freeCtr {b b' : Body} {h : HubId} {op : BitVec 16} {hdr : List Byte} (hi : b.issueTicket h role op hdr = some b') :
    b'.freeCtr = b.freeCtr := by
  unfold Body.issueTicket at hi
  split at hi
  · cases hi
  · obtain rfl := Option.some.inj hi
    rfl

/-- The verdict is that of the counter of free choices as the request finds it. -/
theorem runSelftest_starts (h : Asked s cmdRunSelftest src role island p) (hl : locValid (BitVec.ofNat 16 (pf p.params 0 2)) = true) :
    Starts s (.runSelftest src p) cmdRunSelftest src role island p fun t => fun x => { x with
      body := x.body.spend.finishTicket t 0 0 (selftestResult (s.heard src p).body.freeCtr (BitVec.ofNat 16 (pf p.params 0 2))) } := by
  intro b hb
  rw [← issueTicket_freeCtr hb]
  exact h.starts rfl (runSelftest_run hl) b hb

end

/-- Settles O57: each command passes its checks and has the effect of its row. -/
theorem fleletUnits : Obligations.FleletUnits := by
  intro s src role island p q b asked body
  refine ⟨?_, ?_, ?_, ?_, ?_, ?_, ?_, ?_, ?_, ?_⟩
  · exact fun h ha hlt hp hc hk hz => h.answers rfl (clearPoison_run ha hlt hp hc hk hz)
  · intro t hs ht hz hr
    have hn : b.strandNamed island q = some t := strandNamed_eq (r := requestOf src role island p) ht (heard_isSplit.trans hs)
    refine ⟨fun h hc hd => ?_, fun h => h.answers rfl (releaseStrand_run hn hz hr)⟩
    have hrun := startStrand_run (s := s.heard src p) (r := requestOf src role island p) hn hz hr hc hd
    exact ⟨fun h3 => h.answers rfl (hrun.trans (if_neg h3)), fun h3 => h.answers rfl (hrun.trans (if_pos h3))⟩
  · intro h
    refine ⟨fun ha => h.answers rfl (loadKey_unsigned (by rw [heard_cfg]; exact ha)), fun a ha halg hsig hk hu hl hz he => ?_⟩
    intro answers
    have ha' : (s.heard src p).cfg.anchor = some a := by rw [heard_cfg]; exact ha
    split
    · rename_i hv
      exact h.answers rfl (loadKey_refused ha' hv)
    · rename_i hv ho
      exact h.answers rfl (loadKey_unopened ha' halg hsig hv ho)
    · rename_i m hv ho
      have hrun := loadKey_opened (r := requestOf src role island p) ha' halg hsig hv ho hk hu hl hz he
      split
      · rename_i k b' hx
        exact h.answers rfl (hrun.trans (congrArg (keyAnswer _) hx))
      · rename_i e b' hx
        exact h.answers rfl (hrun.trans (congrArg (keyAnswer _) hx))
  · intro h h1 hz
    refine ⟨fun k hs hk hty hu hp => ?_, fun hs => ⟨_, h.answers rfl (loadMemkey_random h1 hz hs)⟩⟩
    have hok : memKeyOk (pf q 0 1) k = true := by
      simp only [memKeyOk, hty, hu, decide_true, Bool.and_self, Bool.true_and, Bool.or_eq_true, decide_eq_true_eq]
      exact hp
    exact h.answers rfl (loadMemkey_run h1 hz hs hk hok)
  · exact fun h h1 hz => h.answers rfl (clearMemkey_run h1 hz)
  · exact fun h he hz h1 => h.answers rfl (setKeyQuota_run he hz h1)
  · intro k hd hk
    refine ⟨fun h he hz => ?_, fun h => ?_⟩
    · have hrun := reassignKey_run (s := s.heard src p) (r := requestOf src role island p) hk he hz
      exact ⟨fun hu => h.answers rfl (hrun.trans (if_neg (Bool.eq_false_iff.1 hu))), fun hu => h.answers rfl (hrun.trans (if_pos hu))⟩
    · have hrun := destroyKey_run (s := s.heard src p) (r := requestOf src role island p) hk
      exact ⟨fun hu => h.answers rfl (hrun.trans (if_neg (Bool.eq_false_iff.1 hu))),
        fun hu => ⟨_, h.waits rfl (hrun.trans (if_pos hu)), rfl, heard_io, heard_outbox⟩⟩
  · exact fun h hl => ⟨_, selftestResult_length _ _, selftestResult_verdict _ _, runSelftest_starts h hl⟩
  · exact fun h hd hz => ⟨fun ho => h.answers rfl (diagDomain_on hd hz ho), fun ho => h.answers rfl (diagDomain_off hd hz ho)⟩
  · exact fun h => ⟨fun ho => h.answers rfl (testPort_open ho), fun ho => h.answers rfl (testPort_close ho)⟩

end Sys2Proof.Machine
end

section
/-! The words of instructions (R87 to R92): their fields, and what a word of each format decodes to. -/

namespace Sys2Proof.Machine

section
variable {t : StrandId} {op fn : Nat} {rd ra rb : Reg} {x : Bool}

/-! ## Fields of a word (R88, R89) -/

/-- imm6 of the SI format stands where the S format has x and rb. -/
theorem encSI_cons : encSI op rd ra (BitVec.cons x rb) = encS op rd ra rb x := by
  have hi : (BitVec.cons x rb).toNat = rb.toNat + x.toNat * 32 := by
    rw [BitVec.toNat_cons', Nat.shiftLeft_eq]
    omega
  simp only [encSI, encS, hi]
  congr 1
  omega

theorem decodeInsn_encS (hop : op < 0xC0) :
    decodeInsn t (encS op rd ra rb x).bits = (decodeShort t op rd ra rb x (BitVec.cons x rb)).filter WellFormed := by
  have hrd := rd.isLt
  have hra := ra.isLt
  have hrb := rb.isLt
  have hx : x.toNat < 2 := x.toNat_lt
  generalize hw : (encS op rd ra rb x).bits = w
  have hw' : op + rd.toNat * 256 + ra.toNat * 8192 + rb.toNat * 262144 + x.toNat * 8388608 = w := hw
  have h0 : w % 256 = op := by omega
  have h1 : BitVec.ofNat 5 (w / 256) = rd := BitVec.eq_of_toNat_eq (by rw [BitVec.toNat_ofNat]; omega)
  have h2 : BitVec.ofNat 5 (w / 8192) = ra := BitVec.eq_of_toNat_eq (by rw [BitVec.toNat_ofNat]; omega)
  have h3 : BitVec.ofNat 5 (w / 262144) = rb := BitVec.eq_of_toNat_eq (by rw [BitVec.toNat_ofNat]; omega)
  have h4 : decide (w / 8388608 % 2 = 1) = x := by
    rw [show w / 8388608 % 2 = x.toNat by omega]
    cases x <;> rfl
  have h5 : BitVec.ofNat 6 (w / 262144) = BitVec.cons x rb := BitVec.eq_of_toNat_eq (by
    rw [BitVec.toNat_ofNat, BitVec.toNat_cons', Nat.shiftLeft_eq]
    omega)
  simp only [decodeInsn, h0, h1, h2, h3, h4, h5, if_pos hop]

theorem decodeInsn_encL {v : BitVec 24} (hop : 0xC0 ≤ op) (hop' : op < 256) (hfn : fn < 64) :
    decodeInsn t (encL op rd ra fn v.toNat).bits =
      (decodeLong t op rd ra fn v.toNat (ra.setWidth 2) (ra.toNat / 4 + fn * 8)).filter WellFormed := by
  have hv := v.isLt
  have hrd := rd.isLt
  have hra := ra.isLt
  generalize hw : (encL op rd ra fn v.toNat).bits = w
  have hw' : op + rd.toNat * 256 + ra.toNat * 8192 + fn * 262144 + v.toNat * 16777216 = w := hw
  have h0 : w % 256 = op := by omega
  have h1 : BitVec.ofNat 5 (w / 256) = rd := BitVec.eq_of_toNat_eq (by rw [BitVec.toNat_ofNat]; omega)
  have h2 : BitVec.ofNat 5 (w / 8192) = ra := BitVec.eq_of_toNat_eq (by rw [BitVec.toNat_ofNat]; omega)
  have h3 : w / 262144 % 64 = fn := by omega
  have h4 : w / 16777216 % 16777216 = v.toNat := by omega
  have h5 : BitVec.ofNat 2 (w / 8192) = ra.setWidth 2 := BitVec.eq_of_toNat_eq (by
    rw [BitVec.toNat_ofNat, BitVec.toNat_setWidth]
    omega)
  have h6 : w / 32768 % 512 = ra.toNat / 4 + fn * 8 := by omega
  simp only [decodeInsn, h0, h1, h2, h3, h4, h5, h6, if_neg (Nat.not_lt.2 hop)]

theorem exists_encS {w : Nat} (hw : w < 2 ^ 24) : ∃ rd ra rb x, (encS (w % 256) rd ra rb x).bits = w := by
  refine ⟨BitVec.ofNat 5 (w / 256), BitVec.ofNat 5 (w / 8192), BitVec.ofNat 5 (w / 262144), decide (w / 8388608 = 1), ?_⟩
  have hx : (decide (w / 8388608 = 1)).toNat = w / 8388608 := by
    have h2 : w / 8388608 < 2 := by omega
    interval_cases w / 8388608 <;> rfl
  simp only [encS, hx, BitVec.toNat_ofNat]
  omega

theorem exists_encL {w : Nat} (hw : w < 2 ^ 48) :
    ∃ (rd ra : Reg) (fn : Nat) (v : BitVec 24), fn < 64 ∧ (encL (w % 256) rd ra fn v.toNat).bits = w := by
  refine ⟨BitVec.ofNat 5 (w / 256), BitVec.ofNat 5 (w / 8192), w / 262144 % 64, BitVec.ofNat 24 (w / 16777216), by omega, ?_⟩
  simp only [encL, BitVec.toNat_ofNat]
  omega

/-- LA format: the bank and fn9 stand where the other long formats have ra and fn6. -/
theorem encLA_eq {iob : BitVec 2} {n : Nat} {a : BitVec 24} (hn : ra.toNat + fn * 32 = iob.toNat + n * 4) :
    encLA rd iob n a = encL 0xF0 rd ra fn a.toNat := by
  exact congrArg (Enc.mk 6) (by omega)

end

end Sys2Proof.Machine
end

section
/-! A word that decodes to an instruction is the one that the instruction encodes to (R90, R92). -/

namespace Sys2Proof.Machine

/-! ## Codes of operand types -/

section
variable {t : StrandId} {op fn imm m : Nat} {rd ra rb : Reg} {x : Bool} {i : Instr}

theorem fmtOf_code (h : m < 3) : (fmtOf m).code = m := by
  interval_cases m
  · rfl
  · rfl
  · rfl

theorem code_lt (f : FFmt) : f.code < 3 := by
  cases f
  · decide
  · decide
  · decide

/-! ## Rows that need a field to be 0 (R90) -/

theorem forall_mem_need {c : Bool} {j : Instr} {p : Instr → Prop} : (∀ i ∈ need c j, p i) ↔ (c = true → p j) := by
  simp only [need]
  split
  · simp [*]
  · simp [*]

theorem forall_mem_ite {c : Prop} [Decidable c] {y z : Option Instr} {p : Instr → Prop} :
    (∀ i ∈ (if c then y else z), p i) ↔ (c → ∀ i ∈ y, p i) ∧ (¬c → ∀ i ∈ z, p i) := by
  split
  · simp [*]
  · simp [*]

theorem encodes_none {o : Option Instr} {w : Enc} (h : o = none) : ∀ i ∈ o, encodeInsn i = some w := by
  rw [h]
  exact fun i hi => nomatch hi

theorem encodes_some {o : Option Instr} {j : Instr} {w : Enc} (h : o = some j) (hj : encodeInsn j = some w) : ∀ i ∈ o, encodeInsn i = some w := by
  rw [h]
  rintro i ⟨⟩
  exact hj

theorem encodes_need {o : Option Instr} {c : Bool} {j : Instr} {w : Enc} (h : o = need c j) (hj : c = true → encodeInsn j = some w) :
    ∀ i ∈ o, encodeInsn i = some w := by
  rw [h]
  exact forall_mem_need.2 hj

/-! ## 24-bit words -/

theorem encodeInsn_sqOp {f : FFmt} (h : rb.toNat ≤ 2) : encodeInsn (sqOp t f rd ra rb) = some (encS (0x78 + f.code) rd ra rb false) := by
  have hrb : rb = 0 ∨ rb = 1 ∨ rb = 2 := by
    simp only [← BitVec.toNat_inj]
    show rb.toNat = 0 ∨ rb.toNat = 1 ∨ rb.toNat = 2
    omega
  rcases hrb with rfl | rfl | rfl
  · rfl
  · rfl
  · rfl

/-- Rows whose word has rb, but for those of loads and stores. A row has no condition, or needs fields to be 0. -/
theorem encodeInsn_of_decodeShort_regs (h : op < 0x40 ∨ (0x60 ≤ op ∧ op < 0x80) ∨ (0x90 ≤ op ∧ op < 0xC0)) {v : BitVec 6} :
    ∀ i ∈ decodeShort t op rd ra rb x v, encodeInsn i = some (encS op rd ra rb x) := by
  rcases h with h | ⟨h, h'⟩ | ⟨h, h'⟩
  all_goals interval_cases op
  any_goals exact encodes_none rfl
  any_goals exact encodes_some rfl rfl
  all_goals
    refine encodes_need rfl ?_
    simp +contextual only [Bool.and_eq_true, Bool.not_eq_true', beq_iff_eq, decide_eq_true_eq, and_imp, encodeInsn_sqOp]
    intros
    rfl

/-- Rows of loads and stores. The width of 0x8C to 0x8E is x. -/
theorem encodeInsn_of_decodeShort_mem (h : 0x80 ≤ op) (h' : op < 0x90) {v : BitVec 6} :
    ∀ i ∈ decodeShort t op rd ra rb x v, encodeInsn i = some (encS op rd ra rb x) := by
  cases x
  all_goals interval_cases op
  any_goals exact encodes_none rfl
  any_goals exact encodes_some rfl rfl
  all_goals
    refine encodes_need rfl ?_
    simp +contextual only [beq_iff_eq]
    intros
    rfl

/-- Rows with imm6. -/
theorem encodeInsn_of_decodeShort_imm6 (h : 0x40 ≤ op) (h' : op < 0x60) {v : BitVec 6} :
    ∀ i ∈ decodeShort t op rd ra rb x v, encodeInsn i = some (encSI op rd ra v) := by
  interval_cases op
  any_goals exact encodes_none rfl
  any_goals exact encodes_some rfl rfl
  all_goals
    refine encodes_need rfl ?_
    simp +contextual only [beq_iff_eq]
    intros
    rfl

theorem encodeInsn_of_decodeShort (h : op < 0xC0) :
    ∀ i ∈ decodeShort t op rd ra rb x (BitVec.cons x rb), encodeInsn i = some (encS op rd ra rb x) := by
  have hop : (0x80 ≤ op ∧ op < 0x90) ∨ (0x40 ≤ op ∧ op < 0x60) ∨ op < 0x40 ∨ (0x60 ≤ op ∧ op < 0x80) ∨ (0x90 ≤ op ∧ op < 0xC0) := by omega
  rcases hop with ⟨h1, h2⟩ | ⟨h1, h2⟩ | hr
  · exact encodeInsn_of_decodeShort_mem h1 h2
  · exact encSI_cons (op := op) (rd := rd) ▸ encodeInsn_of_decodeShort_imm6 h1 h2
  · exact encodeInsn_of_decodeShort_regs hr

/-! ## 48-bit words -/

theorem encL_congr {fn' imm' : Nat} (hf : fn = fn') (hi : imm = imm') : encL op rd ra fn imm = encL op rd ra fn' imm' := by rw [hf, hi]

theorem encodeInsn_of_decodeLI {wd : Width} {v : BitVec 24} : ∀ i ∈ decodeLI t wd rd ra fn v, encodeInsn i = some (encL (iMaj wd) rd ra fn v.toNat) := by
  cases wd
  all_goals
    unfold decodeLI
    split
  all_goals simp +contextual only [forall_mem_need, Option.mem_some_iff, forall_eq', Option.not_mem_none, false_imp_iff, implies_true, beq_iff_eq,
    Width.isD, Bool.false_eq_true]
  all_goals
    intros
    rfl

theorem encodeInsn_of_decodeDec : ∀ i ∈ decodeDec t rd ra fn imm, encodeInsn i = some (encL 0xD0 rd ra fn imm) := by
  unfold decodeDec
  refine forall_mem_ite.2 ⟨fun h => ?_, fun _ => by simp only [Option.not_mem_none, false_imp_iff, implies_true]⟩
  have hi : (BitVec.ofNat 4 (imm / 16)).toNat * 16 + (BitVec.ofNat 4 imm).toNat = imm := by
    simp only [BitVec.toNat_ofNat]
    omega
  split
  all_goals simp only [Option.mem_some_iff, forall_eq', Option.not_mem_none, false_imp_iff, implies_true]
  all_goals exact congrArg some (encL_congr rfl hi)

theorem encodeInsn_of_decodeMem {v : BitVec 24} : ∀ i ∈ decodeMem t rd ra fn v, encodeInsn i = some (encL 0xE8 rd ra fn v.toNat) := by
  unfold decodeMem
  split
  all_goals simp only [Option.mem_some_iff, forall_eq', Option.not_mem_none, false_imp_iff, implies_true]
  all_goals rfl

theorem encodeInsn_of_decodeLA {iob : BitVec 2} {v : BitVec 24} : ∀ i ∈ decodeLA t rd iob fn v, encodeInsn i = some (encLA rd iob fn v) := by
  unfold decodeLA
  split
  all_goals simp only [Option.mem_some_iff, forall_eq', Option.not_mem_none, false_imp_iff, implies_true]
  all_goals rfl

theorem decide_mod_two (n : Nat) : (decide (n % 2 = 1)).toNat = n % 2 := by
  rcases Nat.mod_two_eq_zero_or_one n with h | h
  · rw [h]
    rfl
  · rw [h]
    rfl

theorem encodeInsn_of_decodeFpE0 (himm : imm < 2 ^ 24) : ∀ i ∈ decodeFpLong t 0xE0 rd ra fn imm, encodeInsn i = some (encL 0xE0 rd ra fn imm) := by
  have hv : (BitVec.ofNat 24 imm).toNat = imm := by bv_omega
  simp only [decodeFpLong, forall_mem_ite, Option.mem_some_iff, forall_eq', Option.not_mem_none, false_imp_iff, implies_true, and_true]
  refine ⟨fun h => congrArg some (encL_congr ?_ hv), fun _ h => congrArg some (encL_congr ?_ hv)⟩
  · rw [fmtOf_code (by omega)]
    omega
  · rw [fmtOf_code (by omega)]
    omega

theorem encodeInsn_of_decodeFpE1 : ∀ i ∈ decodeFpLong t 0xE1 rd ra fn imm, encodeInsn i = some (encL 0xE1 rd ra fn imm) := by
  simp only [decodeFpLong]
  refine forall_mem_ite.2 ⟨?_, fun _ => by simp only [Option.not_mem_none, false_imp_iff, implies_true]⟩
  rintro ⟨himm, h3⟩
  have hi : (BitVec.ofNat 5 imm).toNat + (BitVec.ofNat 5 (imm / 32)).toNat * 32 + (BitVec.ofNat 3 (imm / 1024)).toNat * 1024 = imm := by bv_omega
  split
  all_goals simp only [Option.mem_some_iff, forall_eq', Option.not_mem_none, false_imp_iff, implies_true]
  all_goals
    refine congrArg some (encL_congr ?_ hi)
    rw [fmtOf_code h3]
    omega

theorem encodeInsn_of_decodeFpE2 : ∀ i ∈ decodeFpLong t 0xE2 rd ra fn imm, encodeInsn i = some (encL 0xE2 rd ra fn imm) := by
  simp only [decodeFpLong]
  refine forall_mem_ite.2 ⟨fun h3 => ?_, fun _ => by simp only [Option.not_mem_none, false_imp_iff, implies_true]⟩
  split
  all_goals simp only [forall_mem_need, Option.not_mem_none, false_imp_iff, implies_true, Bool.and_eq_true, decide_eq_true_eq, beq_iff_eq]
  all_goals
    intro himm
    refine congrArg some (encL_congr ?_ ?_)
    · rw [fmtOf_code h3]
      omega
    · bv_omega

theorem encodeInsn_of_decodeFpE3 : ∀ i ∈ decodeFpLong t 0xE3 rd ra fn imm, encodeInsn i = some (encL 0xE3 rd ra fn imm) := by
  have hrnd (h : imm % 1024 = 0) (h' : imm < 8192) : (BitVec.ofNat 3 (imm / 1024)).toNat * 1024 = imm := by bv_omega
  simp only [decodeFpLong]
  split
  -- Last comes the row of the forms whose fn6 has fields.
  rotate_right
  · simp only [forall_mem_ite, forall_mem_need, Option.not_mem_none, false_imp_iff, implies_true, and_true, Bool.and_eq_true, decide_eq_true_eq, beq_iff_eq]
    refine ⟨fun h hi => congrArg some (encL_congr ?_ (hrnd hi.1 hi.2)), fun _ => ⟨fun h hi => congrArg some (encL_congr ?_ (hrnd hi.1 hi.2)),
      fun _ h hi => congrArg some (encL_congr ?_ ?_)⟩⟩
    · rw [decide_mod_two, fmtOf_code (by omega)]
      omega
    · rw [decide_mod_two, fmtOf_code (by omega)]
      omega
    · rw [fmtOf_code (by omega)]
      omega
    · rw [decide_mod_two]
      bv_omega
  all_goals
    simp only [forall_mem_need, Bool.and_eq_true, decide_eq_true_eq, beq_iff_eq]
    exact fun hi => congrArg some (encL_congr rfl (hrnd hi.1 hi.2))

theorem encodeInsn_of_decodeLong {v : BitVec 24} (hfn : fn < 64) :
    ∀ i ∈ decodeLong t op rd ra fn v.toNat (ra.setWidth 2) (ra.toNat / 4 + fn * 8), encodeInsn i = some (encL op rd ra fn v.toNat) := by
  have hLA : encLA rd (ra.setWidth 2) (ra.toNat / 4 + fn * 8) v = encL 0xF0 rd ra fn v.toNat := encLA_eq (by bv_omega)
  have h12 (h : v.toNat < 4096) : (v.setWidth 12).toNat = v.toNat := by bv_omega
  unfold decodeLong
  simp only [BitVec.ofNat_toNat, BitVec.setWidth_eq]
  split
  · exact encodeInsn_of_decodeLI
  · exact encodeInsn_of_decodeLI
  · exact encodeInsn_of_decodeDec
  · exact encodeInsn_of_decodeFpE0 v.isLt
  · exact encodeInsn_of_decodeFpE1
  · exact encodeInsn_of_decodeFpE2
  · exact encodeInsn_of_decodeFpE3
  · exact encodeInsn_of_decodeMem
  · simp +contextual only [forall_mem_ite, Option.mem_some_iff, forall_eq', Option.not_mem_none, false_imp_iff, implies_true, and_true]
    exact ⟨fun _ => rfl, fun _ _ => rfl⟩
  · split
    all_goals simp +contextual only [forall_mem_need, Option.not_mem_none, false_imp_iff, implies_true, beq_iff_eq]
    all_goals exact fun _ => rfl
  · simp +contextual only [forall_mem_need, Bool.and_eq_true, beq_iff_eq, and_imp]
    exact fun _ _ _ => rfl
  · split
    all_goals simp +contextual only [forall_mem_need, Option.not_mem_none, false_imp_iff, implies_true, Bool.and_eq_true, beq_iff_eq, decide_eq_true_eq, and_imp]
    all_goals exact fun _ h => congrArg some (encL_congr rfl (h12 h))
  · split
    all_goals simp +contextual only [forall_mem_need, Option.not_mem_none, false_imp_iff, implies_true, Bool.and_eq_true, beq_iff_eq, and_imp]
    · exact fun _ _ => rfl
    · exact fun _ _ => rfl
    · exact fun _ _ _ => rfl
  · exact fun i hi => (encodeInsn_of_decodeLA i hi).trans (congrArg some hLA)
  · refine forall_mem_ite.2 ⟨fun h => ?_, fun _ => by simp only [Option.not_mem_none, false_imp_iff, implies_true]⟩
    simp only [Option.mem_some_iff, forall_eq']
    exact congrArg some (encL_congr (by bv_omega) rfl)
  · simp only [Option.not_mem_none, false_imp_iff, implies_true]

end

/-- Bytes that decode to an instruction are the ones that it encodes to. -/
theorem encodeInsn_of_decodeInsn {t : StrandId} {w : Nat} {i : Instr} (hw : w < 256 ^ insnLen (w % 256)) (h : decodeInsn t w = some i) :
    encodeInsn i = some ⟨insnLen (w % 256), w⟩ ∧ WellFormed i = true := by
  by_cases hop : w % 256 < 0xC0
  · have hl : insnLen (w % 256) = 3 := if_pos hop
    rw [hl] at hw ⊢
    obtain ⟨rd, ra, rb, x, hx⟩ := exists_encS hw
    rw [← hx, decodeInsn_encS hop, Option.filter_eq_some_iff] at h
    exact ⟨(encodeInsn_of_decodeShort hop i h.1).trans (congrArg some (congrArg (Enc.mk 3) hx)), h.2⟩
  · have hl : insnLen (w % 256) = 6 := if_neg hop
    rw [hl] at hw ⊢
    obtain ⟨rd, ra, fn, v, hfn, hx⟩ := exists_encL hw
    rw [← hx, decodeInsn_encL (Nat.not_lt.1 hop) (Nat.mod_lt _ (by decide)) hfn, Option.filter_eq_some_iff] at h
    exact ⟨(encodeInsn_of_decodeLong hfn i h.1).trans (congrArg some (congrArg (Enc.mk 6) hx)), h.2⟩

end Sys2Proof.Machine
end

section
/-! The bytes that an instruction encodes to decode to it (R87 to R92). -/

namespace Sys2Proof.Machine

/-- The word decodes to the instruction, and its length is the one that its first byte fixes (R87). -/
def DecodesTo (e : Enc) (i : Instr) : Prop :=
  ∃ t : StrandId, decodeInsn t e.bits = some i ∧ e.len = insnLen (e.bits % 256) ∧ e.bits < 256 ^ e.len

/-- The word of a well-formed instruction decodes to it, unless the instruction is one of the four rows that are writes of one CS register, which have the
words of CSWR. -/
def Decodes (i : Instr) : Prop :=
  WellFormed i = true → (∀ t ra, i ≠ .writeCsSpad t ra) → (∀ t ra, i ≠ .writeCsCachectl t ra) → (∀ t sel ra, i ≠ .writeCsTcmp t sel ra) →
    (∀ t ra, i ≠ .writeCsWin t ra) → ∀ e, encodeInsn i = some e → DecodesTo e i

section
variable {t : StrandId} {op fn imm : Nat} {rd ra rb fb fc : Reg} {r : BitVec 3} {x : Bool} {i : Instr}

/-! ## By format -/

theorem decodes_of_none (h : encodeInsn i = none) : Decodes i := fun _ _ _ _ _ _ he => nomatch h.symm.trans he

theorem decodes_of_eq {e : Enc} (he : encodeInsn i = some e) (h : WellFormed i = true → DecodesTo e i) : Decodes i := by
  intro hw _ _ _ _ e' he'
  obtain rfl := Option.some.inj (he.symm.trans he')
  exact h hw

theorem decodes_encS (he : encodeInsn i = some (encS op rd ra rb x)) (hop : op < 0xC0)
    (hd : decodeShort t op rd ra rb x (BitVec.cons x rb) = some i) : Decodes i := by
  have hrd := rd.isLt
  have hra := ra.isLt
  have hrb := rb.isLt
  have hx := x.toNat_lt
  have h0 : (encS op rd ra rb x).bits % 256 = op := by
    simp only [encS]
    omega
  refine decodes_of_eq he fun hw => ⟨t, ?_, ?_, ?_⟩
  · rw [decodeInsn_encS hop, Option.filter_eq_some_iff]
    exact ⟨hd, hw⟩
  · rw [h0]
    exact (if_pos hop).symm
  · simp only [encS]
    omega

theorem decodes_encSI {v : BitVec 6} (he : encodeInsn i = some (encSI op rd ra v)) (hop : op < 0xC0)
    (hd : decodeShort t op rd ra (v.setWidth 5) v.msb v = some i) : Decodes i := by
  have hv : BitVec.cons v.msb (v.setWidth 5) = v := BitVec.cons_msb_setWidth v
  rw [← hv, encSI_cons] at he
  exact decodes_encS he hop (by rw [hv]; exact hd)

theorem decodes_encL (he : encodeInsn i = some (encL op rd ra fn imm)) (hop : 0xC0 ≤ op ∧ op < 256) (hfn : fn < 64) (hi : imm < 2 ^ 24)
    (hd : decodeLong t op rd ra fn imm (ra.setWidth 2) (ra.toNat / 4 + fn * 8) = some i) : Decodes i := by
  obtain ⟨v, rfl⟩ : ∃ v : BitVec 24, v.toNat = imm := ⟨BitVec.ofNatLT imm hi, rfl⟩
  have hrd := rd.isLt
  have hra := ra.isLt
  have h0 : (encL op rd ra fn v.toNat).bits % 256 = op := by
    simp only [encL]
    omega
  refine decodes_of_eq he fun hw => ⟨t, ?_, ?_, ?_⟩
  · rw [decodeInsn_encL hop.1 hop.2 hfn, Option.filter_eq_some_iff]
    exact ⟨hd, hw⟩
  · rw [h0]
    exact (if_neg (Nat.not_lt.2 hop.1)).symm
  · simp only [encL]
    omega

/-- A row whose operand imm24 is the whole field. -/
theorem decodes_imm24 {f : BitVec 24 → Instr} {v : BitVec 24} (he : encodeInsn (f v) = some (encL op rd ra fn v.toNat)) (hop : 0xC0 ≤ op ∧ op < 256)
    (hfn : fn < 64) (hd : ∀ n, decodeLong t op rd ra fn n (ra.setWidth 2) (ra.toNat / 4 + fn * 8) = some (f (BitVec.ofNat 24 n))) : Decodes (f v) :=
  decodes_encL he hop hfn v.isLt ((hd v.toNat).trans (by rw [BitVec.ofNat_toNat, BitVec.setWidth_eq]))

theorem decodes_encLA {f : BitVec 24 → Instr} {iob : BitVec 2} {n : Nat} {v : BitVec 24} (he : encodeInsn (f v) = some (encLA rd iob n v)) (hn : n < 512)
    (hd : ∀ a, decodeLA t rd iob n a = some (f a)) : Decodes (f v) := by
  have hiob := iob.isLt
  have hra : (BitVec.ofNat 5 (iob.toNat + n * 4)).toNat + n / 8 * 32 = iob.toNat + n * 4 := by
    rw [BitVec.toNat_ofNat]
    omega
  have h9 : (BitVec.ofNat 5 (iob.toNat + n * 4)).toNat / 4 + n / 8 * 8 = n := by
    rw [BitVec.toNat_ofNat]
    omega
  have h2 : (BitVec.ofNat 5 (iob.toNat + n * 4)).setWidth 2 = iob := BitVec.eq_of_toNat_eq (by
    rw [BitVec.toNat_setWidth, BitVec.toNat_ofNat]
    omega)
  rw [encLA_eq hra] at he
  exact decodes_imm24 he (by decide) (by omega) fun a => by
    rw [h9, h2]
    exact hd _

/-! ## By instruction -/

/-- The rounding field alone (R149). -/
theorem rnd_field (r : BitVec 3) : r.toNat * 1024 < 8192 ∧ BitVec.ofNat 3 (r.toNat * 1024 / 1024) = r ∧ r.toNat * 1024 % 1024 = 0 :=
  ⟨by bv_omega, by bv_omega, by omega⟩

theorem decodes (i : Instr) : Decodes i := by
  cases i
  case writeCsSpad t ra => exact fun _ h _ _ _ => absurd rfl (h t ra)
  case writeCsCachectl t ra => exact fun _ _ h _ _ => absurd rfl (h t ra)
  case writeCsTcmp t sel ra => exact fun _ _ _ h _ => absurd rfl (h t sel ra)
  case writeCsWin t ra => exact fun _ _ _ _ h => absurd rfl (h t ra)
  case ld t sz m rd =>
    cases m with
    | idx ra rb x =>
      cases sz
      all_goals exact decodes_encS (t := t) rfl (by decide) rfl
    | disp b d =>
      cases sz
      all_goals exact decodes_imm24 (t := t) (f := fun d => .ld t _ (.disp b d) rd) rfl (by decide) (by decide) fun _ => rfl
  case lds t sz m rd =>
    cases m with
    | idx ra rb x =>
      cases sz
      case d => exact fun hw => nomatch hw
      all_goals exact decodes_encS (t := t) rfl (by decide) rfl
    | disp b d =>
      cases sz
      case d => exact fun hw => nomatch hw
      all_goals exact decodes_imm24 (t := t) (f := fun d => .lds t _ (.disp b d) rd) rfl (by decide) (by decide) fun _ => rfl
  case st t sz m rd =>
    cases m with
    | idx ra rb x =>
      cases sz
      all_goals exact decodes_encS (t := t) rfl (by decide) rfl
    | disp b d =>
      cases sz
      all_goals exact decodes_imm24 (t := t) (f := fun d => .st t _ (.disp b d) rd) rfl (by decide) (by decide) fun _ => rfl
  case add t wd x rd ra rb | sub t wd x rd ra rb | adc t wd x rd ra rb | sbc t wd x rd ra rb | and t wd x rd ra rb | or t wd x rd ra rb
      | xor t wd x rd ra rb | andn t wd x rd ra rb | sll t wd x rd ra rb | srl t wd x rd ra rb | sra t wd x rd ra rb | rol t wd x rd ra rb
      | ror t wd x rd ra rb | mul t wd x rd ra rb | mulh t wd x rd ra rb | mulhu t wd x rd ra rb | dstart t wd x rd ra rb | dend t wd x rd ra rb
      | neg t wd rd ra | abs t wd rd ra | cmp t wd ra rb | ldr t wd rd ra | stc t wd rd ra rb | cas t wd rd ra rb =>
    cases wd
    all_goals exact decodes_encS (t := t) rfl (by decide) rfl
  case addq t wd rd ra v | sllq t wd rd ra v | srlq t wd rd ra v | sraq t wd rd ra v | rorq t wd rd ra v | cmpq t wd ra v =>
    cases wd
    all_goals exact decodes_encSI (t := t) rfl (by decide) rfl
  case fdstart t f fd fa fb | fdstep t f fd fa fb | fdend t f fd fa fb | fsqstart t f fd fa | fsqstep t f fd fa | fsqend t f fd fa | fcmp t f sig fa fb =>
    cases f
    all_goals exact decodes_encS (t := t) rfl (by decide) rfl
  case dstep t rd ra rb | fpsync t | fmov t rd ra | fmvg t x rd ra rb | jr t ra | callr t ra | ret t | rtt t | fenceM t | fenceIo t | tsync t | nop t
      | clock t ra | cunlock t ra | cinvRange t sc ra rb | iflushRange t sc ra rb | cinvAll t sc | tlbiAll t sc | wciAll t sc | tlbiVa t sc ra rb x
      | wciVa t sc ra rb x | tlbiTag t sc rb | wciTag t sc rb | bmove t rd ra rb =>
    exact decodes_encS (t := t) rfl (by decide) rfl
  case addi t wd cc rd ra v | andi t wd cc rd ra v | ori t wd cc rd ra v | xori t wd cc rd ra v | muli t wd cc rd ra v =>
    cases wd
    all_goals
      cases cc
      all_goals exact decodes_imm24 (t := t) rfl (by decide) (by decide) fun _ => rfl
  case movi t wd rd v | cmpi t wd ra v =>
    cases wd
    all_goals exact decodes_imm24 (t := t) rfl (by decide) (by decide) fun _ => rfl
  case shli24 t rd ra v | bCond t c v | bz t ra v | bnz t ra v | bltz t ra v | bgez t ra v | call t v | svc t v | brk t v =>
    exact decodes_imm24 (t := t) rfl (by decide) (by decide) fun _ => rfl
  case fld t f fd b v | fst t f fd b v =>
    cases f
    all_goals exact decodes_imm24 (t := t) rfl (by decide) (by decide) fun _ => rfl
  case ird t b v rd => exact decodes_imm24 (t := t) (f := fun v => .ird t b v rd) rfl (by decide) (by decide) fun _ => rfl
  case iwr t b v rd => exact decodes_imm24 (t := t) (f := fun v => .iwr t b v rd) rfl (by decide) (by decide) fun _ => rfl
  case xInstruction t n rd ra v =>
    refine decodes_encL (t := t) rfl (by decide) (by bv_omega) v.isLt ?_
    have hn : BitVec.ofNat 4 (0x30 + n.toNat) = n := by bv_omega
    simp only [decodeLong, hn, if_pos (Nat.le_add_right 0x30 n.toNat), BitVec.ofNat_toNat, BitVec.setWidth_eq]
  case csrd t rd n | cswr t n ra =>
    refine decodes_encL (t := t) rfl (by decide) (by decide) (by bv_omega) ?_
    simp only [decodeLong, n.isLt, BitVec.ofNat_toNat, BitVec.setWidth_eq]
    rfl
  case wait t => exact decodes_encL (t := t) rfl (by decide) (by decide) (by decide) rfl
  case iold t wd rd iob a | iost t wd rd iob a =>
    cases wd
    all_goals exact decodes_encLA (t := t) rfl (by decide) fun _ => rfl
  case iodb t rd iob a | setiob t rd iob a =>
    exact decodes_encLA (t := t) rfl (by decide) fun _ => rfl
  case dadd t rd ra l1 l2 | dsub t rd ra l1 l2 | dcmp t rd ra l1 l2 | dmove t rd ra l1 l2 =>
    refine decodes_encL (t := t) rfl (by decide) (by decide) (by bv_omega) ?_
    have h1 : BitVec.ofNat 4 ((l1.toNat * 16 + l2.toNat) / 16) = l1 := by bv_omega
    have h2 : BitVec.ofNat 4 (l1.toNat * 16 + l2.toNat) = l2 := by bv_omega
    have h3 : l1.toNat * 16 + l2.toNat < 256 := by bv_omega
    simp only [decodeLong, decodeDec, h1, h2, if_pos h3]
  case fadd t f r fd fa fb | fsub t f r fd fa fb | fmul t f r fd fa fb =>
    cases r with
    | short =>
      cases f
      all_goals exact decodes_encS (t := t) rfl (by decide) rfl
    | long r =>
      have hfn := code_lt f
      refine decodes_encL (t := t) rfl (by decide) (by omega) (by bv_omega) ?_
      have hi : fb.toNat + r.toNat * 1024 < 8192 := by bv_omega
      have h0 : (fb.toNat + r.toNat * 1024) / 32 % 32 = 0 := by bv_omega
      have hb : BitVec.ofNat 5 (fb.toNat + r.toNat * 1024) = fb := by bv_omega
      have hr : BitVec.ofNat 3 ((fb.toNat + r.toNat * 1024) / 1024) = r := by bv_omega
      simp only [decodeLong, decodeFpLong, hi, h0, hb, hr]
      cases f
      all_goals rfl
  case fmadd t f r fd fa fb fc | fmsub t f r fd fa fb fc | fnmadd t f r fd fa fb fc | fnmsub t f r fd fa fb fc =>
    have hfn := code_lt f
    refine decodes_encL (t := t) rfl (by decide) (by omega) (by bv_omega) ?_
    have hi : fb.toNat + fc.toNat * 32 + r.toNat * 1024 < 8192 := by bv_omega
    have hb : BitVec.ofNat 5 (fb.toNat + fc.toNat * 32 + r.toNat * 1024) = fb := by bv_omega
    have hc : BitVec.ofNat 5 ((fb.toNat + fc.toNat * 32 + r.toNat * 1024) / 32) = fc := by bv_omega
    have hr : BitVec.ofNat 3 ((fb.toNat + fc.toNat * 32 + r.toNat * 1024) / 1024) = r := by bv_omega
    simp only [decodeLong, decodeFpLong, hi, hb, hc, hr, true_and]
    cases f
    all_goals rfl
  case fmin t f fd fa fb | fmax t f fd fa fb | fminnum t f fd fa fb | fmaxnum t f fd fa fb | fcpysgn t f fd fa fb =>
    have hfn := code_lt f
    refine decodes_encL (t := t) rfl (by decide) (by omega) (by bv_omega) ?_
    simp only [decodeLong, decodeFpLong, fb.isLt, BitVec.ofNat_toNat, BitVec.setWidth_eq]
    cases f
    all_goals rfl
  case fneg t f fd fa | fabs t f fd fa =>
    cases f
    all_goals exact decodes_encL (t := t) rfl (by decide) (by decide) (by decide) rfl
  case fcvt t c r fd fa =>
    obtain ⟨hi, hr, h0⟩ := rnd_field r
    cases c
    all_goals
      refine decodes_encL (t := t) rfl (by decide) (by decide) (hi.trans (by decide)) ?_
      simp only [decodeLong, decodeFpLong, hi, hr, h0]
      rfl
  case fcvtfi t f u r fd ra | fcvtif t f u r fd ra =>
    obtain ⟨hi, hr, h0⟩ := rnd_field r
    cases f
    all_goals
      cases u
      all_goals
        refine decodes_encL (t := t) rfl (by decide) (by decide) (hi.trans (by decide)) ?_
        simp only [decodeLong, decodeFpLong, hi, hr, h0]
        rfl
  case frint t f r e fd fa =>
    have he := e.toNat_lt
    have hlt := r.isLt
    have hi : r.toNat * 1024 + e.toNat * 8192 < 16384 := by omega
    have h0 : (r.toNat * 1024 + e.toNat * 8192) % 1024 = 0 := by omega
    have hr : BitVec.ofNat 3 ((r.toNat * 1024 + e.toNat * 8192) / 1024) = r := BitVec.eq_of_toNat_eq (by
      rw [BitVec.toNat_ofNat]
      omega)
    have hx : decide ((r.toNat * 1024 + e.toNat * 8192) / 8192 % 2 = 1) = e := by
      rw [show (r.toNat * 1024 + e.toNat * 8192) / 8192 % 2 = e.toNat by omega]
      cases e
      · rfl
      · rfl
    cases f
    all_goals
      refine decodes_encL (t := t) rfl (by decide) (by decide) (hi.trans (by decide)) ?_
      simp only [decodeLong, decodeFpLong, hi, hr, h0, hx]
      rfl
  all_goals exact decodes_of_none rfl

end

/-- Settles O58: the words of each instruction by its format, and the instructions of each word by the decoder's rows. -/
theorem decodeEncode : Obligations.DecodeEncode := by
  refine ⟨fun i e h hw h1 h2 h3 h4 => decodes i hw h1 h2 h3 h4 e h, fun t w i hw h => encodeInsn_of_decodeInsn hw h, fun t ra => ⟨rfl, rfl, rfl⟩,
    fun t sel ra hs => ?_⟩
  have hn : (0x078 + sel.setWidth 12 : BitVec 12).toNat = 0x078 + sel.toNat := by bv_omega
  exact congrArg some (encL_congr rfl hn.symm)

end Sys2Proof.Machine
end

section
/-! What the accesses of a strand leave alone: translations (R235 to R238), reads through the caches (R166, R173, R196) and lines that go home (R169, R176). -/

namespace Sys2Proof.Machine

/-! ## Lines on their way home (R175 to R177) -/

/-- The two machines differ at most in memory, the compute dies, the counts of partitions and the counter of free choices. -/
def HomeSide (b b' : Body) : Prop := ∃ mem dies io ctr, b' = { b with mem := mem, dies := dies, io := io, freeCtr := ctr }

theorem HomeSide.refl (b : Body) : HomeSide b b := ⟨b.mem, b.dies, b.io, b.freeCtr, rfl⟩

theorem HomeSide.trans {a b c : Body} (h : HomeSide a b) (k : HomeSide b c) : HomeSide a c := by
  obtain ⟨_, _, _, _, rfl⟩ := h
  obtain ⟨_, _, _, _, rfl⟩ := k
  exact ⟨_, _, _, _, rfl⟩

theorem HomeOnly.homeSide {b b' : Body} (h : HomeOnly b b') : HomeSide b b' := by
  obtain ⟨_, _, rfl⟩ := h
  exact ⟨_, _, _, _, rfl⟩

theorem HomeSide.strands {b b' : Body} (h : HomeSide b b') : b'.strands = b.strands := by obtain ⟨_, _, _, _, rfl⟩ := h; rfl

theorem HomeSide.foldl {α : Type} {f : Body → α → Body} (step : ∀ b a, HomeSide b (f b a)) (l : List α) (b : Body) : HomeSide b (l.foldl f b) :=
  foldl_rel HomeSide.refl (fun _ _ _ => HomeSide.trans) step l b

theorem HomeSide.sendBack (b : Body) (d : Departing) : HomeSide b (b.sendBack d) := by
  unfold Body.sendBack Body.crossing
  split
  rename_i h
  split at h
  · cases h
    exact ⟨_, _, _, _, rfl⟩
  · split at h
    · cases h
      exact ⟨_, _, _, _, rfl⟩
    · cases h
      exact ⟨_, _, _, _, rfl⟩

theorem HomeSide.replaceWay {b b' : Body} {u : UseOrder} {set : Nat} {ws : List Nat} {ovf : Bool} {w : Option Nat} (h : b.replaceWay u set ws ovf = (w, b')) :
    HomeSide b b' := by
  unfold Body.replaceWay Body.pick at h
  split at h
  · cases h
    exact .refl _
  · split at h
    · cases h
      exact .refl _
    · cases h
      exact .refl _
    · cases h
      exact ⟨_, _, _, _, rfl⟩

theorem HomeSide.l3Fill (b : Body) (d : CDieId) (l : Line) (data : LineData) (dirty : Bool) (slot : Byte) (mask : BitVec 16) (part : Byte) :
    HomeSide b (b.l3Fill d l data dirty slot mask part).1 := by
  unfold Body.l3Fill
  extract_lets put new
  have hput : ∀ (x : Body) (k : Nat) (y : L3Line), HomeSide x (put x k y).1 := fun x k y => ⟨_, _, _, _, rfl⟩
  split
  · exact hput _ _ _
  · split
    · exact .refl _
    · split
      rename_i ws ovf _
      extract_lets b1
      have h1 : HomeSide b b1 := by
        simp only [b1]
        split
        · exact ⟨_, _, _, _, rfl⟩
        · exact .refl _
      split
      · exact h1.trans (hput _ _ _)
      · split
        · rename_i h
          exact h1.trans (.replaceWay h)
        · rename_i h
          have h2 := h1.trans (.replaceWay h)
          extract_lets k
          split
          · split
            · exact h2.trans (HomeSide.trans ⟨_, _, _, _, rfl⟩ (.sendBack _ _))
            · exact h2.trans (hput _ _ _)
          · exact h2.trans (hput _ _ _)

theorem HomeSide.homeAccept (b : Body) (l : Line) (d : LineData) (slot : Byte) (nol3 : Bool) (mask : BitVec 16) (part : Byte) (fill : Bool) :
    HomeSide b (b.homeAccept l d slot nol3 mask part fill).1 := by
  unfold Body.homeAccept
  split
  · refine HomeSide.trans ?_ (HomeOnly.memWrite _ _ _ _).homeSide
    split
    · exact ⟨_, _, _, _, rfl⟩
    · exact .refl _
  · split
    · exact ⟨_, _, _, _, rfl⟩
    · split
      · split
        · exact .l3Fill _ _ _ _ _ _ _ _
        · exact (HomeOnly.memWrite _ _ _ _).homeSide
      · exact (HomeOnly.memWrite _ _ _ _).homeSide

theorem HomeSide.acceptBack (b : Body) (d : Departing) : HomeSide b (b.acceptBack d) := by
  unfold Body.acceptBack
  extract_lets drop
  have hdrop : ∀ x, HomeSide x (drop x) := fun _ => ⟨_, _, _, _, rfl⟩
  have h := HomeSide.homeAccept b d.line d.data d.slot d.nol3 d.l3mask 0 true
  split
  · exact (hdrop _).trans (HomeOnly.memWrite _ _ _ _).homeSide
  · split
    · rename_i e
      rw [e] at h
      exact h.trans (hdrop _)
    · rename_i e
      rw [e] at h
      exact h

theorem HomeSide.awaitBack (b : Body) (l : Line) : HomeSide b (b.awaitBack l) := by
  unfold Body.awaitBack
  extract_lets round
  have hround : ∀ x, HomeSide x (round x) := fun x => .foldl HomeSide.acceptBack _ x
  split
  · exact .refl _
  · exact ((hround _).trans (hround _)).trans (hround _)

theorem downgrade_strands (b : Body) (l : Line) : (b.downgrade l).strands = b.strands := by
  unfold Body.downgrade
  split
  · rfl
  · dsimp only
    split
    · exact (HomeSide.homeAccept _ _ _ _ _ _ _ _).strands
    · rfl

theorem dmaLine_strands (b : Body) (l : Line) (slot : Byte) : (b.dmaLine l slot).2.strands = b.strands :=
  (downgrade_strands _ _).trans (HomeSide.awaitBack _ _).strands

/-! ## Translation (R235 to R238) -/

theorem SameButTlb.refl (b : Body) : SameButTlb b b :=
  ⟨rfl, fun c => ⟨(b.cluster c).l2Use, rfl⟩, rfl, rfl, rfl, rfl, fun _ => ⟨rfl, rfl, rfl, rfl, rfl⟩⟩

theorem SameButTlb.trans {a b c : Body} (h : SameButTlb a b) (k : SameButTlb b c) : SameButTlb a c where
  strands := k.strands.trans h.strands
  clusters x := by
    obtain ⟨o, ho⟩ := h.clusters x
    obtain ⟨p, hp⟩ := k.clusters x
    exact ⟨p, by rw [hp, ho]⟩
  dies := k.dies.trans h.dies
  mem := k.mem.trans h.mem
  io := k.io.trans h.io
  ctl := k.ctl.trans h.ctl
  l1 x := by
    obtain ⟨h1, h2, h3, h4, h5⟩ := h.l1 x
    obtain ⟨k1, k2, k3, k4, k5⟩ := k.l1 x
    exact ⟨k1.trans h1, k2.trans h2, k3.trans h3, k4.trans h4, k5.trans h5⟩

theorem SameButTlb.strand {a b : Body} (h : SameButTlb a b) (t : StrandId) : b.strand t = a.strand t := by
  simp only [Body.strand, h.strands]

theorem SameButTlb.l2e {a b : Body} (h : SameButTlb a b) (c : ClusterId) : (b.cluster c).l2e = (a.cluster c).l2e := by
  obtain ⟨o, ho⟩ := h.clusters c
  rw [ho]

/-- A core keeps what the L1s hold and whether they are enabled, and the operations that it owes. -/
def Core.KeepsL1 (k k' : Core) : Prop := k'.l1i = k.l1i ∧ k'.l1d = k.l1d ∧ k'.l1ie = k.l1ie ∧ k'.l1de = k.l1de ∧ k'.inval = k.inval

theorem SameButTlb.modCore (b : Body) (c : CoreId) {f : Core → Core} (hf : ∀ k : Core, k.KeepsL1 (f k)) : SameButTlb b (b.modCore c f) where
  strands := rfl
  clusters x := ⟨(b.cluster x).l2Use, rfl⟩
  dies := rfl
  mem := rfl
  io := rfl
  ctl := rfl
  l1 x := by
    by_cases h : x = c
    · rw [h, Body.core_modCore]
      exact hf _
    · have h' : c.val ≠ x.val := fun e => h (Fin.ext e.symm)
      simp [Body.core, Body.modCore, Vector.getElem_set_ne, h']

theorem SameButTlb.spend (b : Body) : SameButTlb b b.spend :=
  ⟨rfl, fun c => ⟨(b.cluster c).l2Use, rfl⟩, rfl, rfl, rfl, rfl, fun _ => ⟨rfl, rfl, rfl, rfl, rfl⟩⟩

theorem look_ok {b : Body} {c : WalkCtx} {hit : Option TlbEntry} {v : Nat × Bool × Bool} (h : (b.look c hit).out = .ok v) : (b.look c hit).b = b.spend := by
  revert h
  unfold Body.look
  dsimp only
  split
  · exact fun _ => rfl
  · split
    · exact fun h => nomatch h
    · exact fun _ => rfl

theorem cache_keepsL1 (k : Core) (ctr : Nat) (e : TlbEntry) : k.KeepsL1 (k.cache ctr e) := by
  unfold Core.cache
  split
  · exact ⟨rfl, rfl, rfl, rfl, rfl⟩
  · exact ⟨rfl, rfl, rfl, rfl, rfl⟩

theorem translate1_ok {b b' : Body} {t : StrandId} {need : Need} {prv : BitVec 2} {va len : Nat} {p : Piece} (h : b.translate1 t need prv va len = .ok b' p) :
    SameButTlb b b' ∧ p.len = len := by
  unfold Body.translate1 at h
  dsimp only at h
  split at h
  · exact nomatch h
  · split at h
    · exact nomatch h
    · split at h
      · exact nomatch h
      · rename_i hout
        obtain ⟨rfl, rfl⟩ := TRes.ok.inj h
        refine ⟨SameButTlb.trans (look_ok hout ▸ .spend b) (.modCore _ _ fun k => ?_), rfl⟩
        split
        · split
          · exact cache_keepsL1 (k.uncache _) _ _
          · exact cache_keepsL1 k _ _
        · split
          · exact ⟨rfl, rfl, rfl, rfl, rfl⟩
          · exact ⟨rfl, rfl, rfl, rfl, rfl⟩

/-- A translated access leaves the machine but for cached translations, and its pieces are as long as it. -/
theorem translate_ok {b b' : Body} {t : StrandId} {need : Need} {prv : BitVec 2} {va n : Nat} {ps : List Piece} (h : b.translate t need prv va n = .ok b' ps) :
    SameButTlb b b' ∧ (ps.map (·.len)).sum = n := by
  unfold Body.translate at h
  extract_lets top n1 at h
  have hn1 : n1 ≤ n := Nat.min_le_left _ _
  split at h
  · exact nomatch h
  · rename_i hp
    obtain ⟨hs, hl⟩ := translate1_ok hp
    split at h
    · rename_i hle
      cases h
      exact ⟨hs, by simp [hl]; omega⟩
    · split at h
      · exact nomatch h
      · rename_i hq
        obtain ⟨hs', hl'⟩ := translate1_ok hq
        cases h
        exact ⟨hs.trans hs', by simp [hl, hl']; omega⟩

/-! ## Segments of an access -/

theorem cutLines_length (p : Piece) {fuel pa len : Nat} (h : len ≠ 0 → pa % 128 + len ≤ fuel * 128) : ((cutLines p fuel pa len).map (·.len)).sum = len := by
  induction fuel generalizing pa len with
  | zero =>
    have h0 : len = 0 := by omega
    rw [h0]
    rfl
  | succ fuel ih =>
    simp only [cutLines]
    split
    · rename_i h0
      rw [h0]
      rfl
    · generalize hn : min len (128 - pa % 128) = n
      have hr := ih (pa := pa + n) (len := len - n) (by omega)
      simp only [List.map_cons, List.sum_cons, hr]
      omega

theorem segsOf_length (ps : List Piece) : ((segsOf ps).map (·.len)).sum = (ps.map (·.len)).sum := by
  induction ps with
  | nil => rfl
  | cons p ps ih =>
    have h : segsOf (p :: ps) = cutLines p (p.len / 128 + 2) p.pa p.len ++ segsOf ps := List.flatMap_cons
    rw [h, List.map_append, List.sum_append, ih, cutLines_length p (by omega), List.map_cons, List.sum_cons]

end Sys2Proof.Machine
end

section
/-! Loads and stores of a strand: what they leave of the machine, and how much they yield (R107, R111, R173, R196, R197). -/

namespace Sys2Proof.Machine

section
variable {b b' : Body} {t : StrandId} {need : Need} {prv : BitVec 2} {va n : Nat} {bytes : List Byte} {g : Seg} {gs : List Seg}

/-! ## Reads (R166, R173, R179) -/

theorem lineGet_length (d : LineData) (off n : Nat) : (lineGet d off n).length = n := by simp [lineGet]

theorem spadRead_length (c : Cluster) (off n : Nat) : (c.spadRead off n).length = n := by simp [Cluster.spadRead]

theorem forward_length (sb : List StoreEntry) (pa : Nat) (bs : List Byte) : (forward sb pa bs).length = bs.length := by simp [forward]

theorem SameButTlb.useL1 (b : Body) (c : CoreId) (fetch : Bool) (slot : Nat) : SameButTlb b (b.useL1 c fetch slot) := .modCore _ _ fun k => by
  split
  · exact ⟨rfl, rfl, rfl, rfl, rfl⟩
  · exact ⟨rfl, rfl, rfl, rfl, rfl⟩

theorem SameButTlb.useL2 (b : Body) (c : ClusterId) (slot : Nat) : SameButTlb b (b.useL2 c slot) where
  strands := rfl
  clusters x := by
    by_cases h : x = c
    · rw [h, Body.useL2, Body.cluster_modCluster]
      exact ⟨_, rfl⟩
    · have h' : c.val ≠ x.val := fun e => h (Fin.ext e.symm)
      exact ⟨(b.cluster x).l2Use, by simp [Body.cluster, Body.useL2, Body.modCluster, Vector.getElem_set_ne, h']⟩
  dies := rfl
  mem := rfl
  io := rfl
  ctl := rfl
  l1 _ := ⟨rfl, rfl, rfl, rfl, rfl⟩

/-- What a read of the caches leaves: with the cluster's L2 enabled, all but the order of use; past a disabled one, the strands. -/
structure ReadLeaves (t : StrandId) (b b' : Body) : Prop where
  strands : b'.strands = b.strands
  same : (b.cluster (clusterOfStrand t)).l2e = true → SameButTlb b b'

theorem SameButTlb.readLeaves (h : SameButTlb b b') : ReadLeaves t b b' := ⟨h.strands, fun _ => h⟩

theorem ReadLeaves.trans {a b c : Body} (h : ReadLeaves t a b) (k : ReadLeaves t b c) : ReadLeaves t a c where
  strands := k.strands.trans h.strands
  same he := (h.same he).trans (k.same ((h.same he).l2e _ ▸ he))

theorem ReadLeaves.strand (h : ReadLeaves t b b') (v : StrandId) : b'.strand v = b.strand v := by simp only [Body.strand, h.strands]

theorem readSeg_ok {fetch : Bool} (h : b.readSeg t g fetch = .ok b' bytes) : ReadLeaves t b b' ∧ bytes.length = g.len := by
  unfold Body.readSeg at h
  dsimp only at h
  split at h
  · exact nomatch h
  · split at h
    · obtain ⟨rfl, rfl⟩ := LRes.ok.inj h
      exact ⟨(SameButTlb.refl _).readLeaves, spadRead_length _ _ _⟩
    · split at h
      · exact nomatch h
      · split at h
        · split at h
          · obtain ⟨rfl, rfl⟩ := LRes.ok.inj h
            exact ⟨(SameButTlb.useL1 _ _ _ _).readLeaves, lineGet_length _ _ _⟩
          · exact nomatch h
        · split at h
          · split at h
            · obtain ⟨rfl, rfl⟩ := LRes.ok.inj h
              exact ⟨(SameButTlb.useL2 _ _ _).readLeaves, lineGet_length _ _ _⟩
            · exact nomatch h
          · rename_i hoff
            obtain ⟨rfl, rfl⟩ := LRes.ok.inj h
            exact ⟨⟨dmaLine_strands _ _ _, fun he => absurd he hoff⟩, lineGet_length _ _ _⟩

theorem readSegs_ok (h : b.readSegs t gs = .ok b' bytes) : ReadLeaves t b b' ∧ bytes.length = (gs.map (·.len)).sum := by
  induction gs generalizing b b' bytes with
  | nil =>
    obtain ⟨rfl, rfl⟩ := LRes.ok.inj h
    exact ⟨(SameButTlb.refl _).readLeaves, rfl⟩
  | cons g gs ih =>
    simp only [Body.readSegs] at h
    split at h
    · rename_i hg
      obtain ⟨hl, hn⟩ := readSeg_ok hg
      split at h
      · rename_i hgs
        obtain ⟨hl', hn'⟩ := ih hgs
        obtain ⟨rfl, rfl⟩ := LRes.ok.inj h
        exact ⟨hl.trans hl', by rw [List.length_append, forward_length, hn, hn', List.map_cons, List.sum_cons]⟩
      · exact nomatch h
      · exact nomatch h
    · exact nomatch h
    · exact nomatch h

theorem loadVa_ok (h : b.loadVa t need prv va n = .ok b' bytes) : ReadLeaves t b b' ∧ bytes.length = n := by
  unfold Body.loadVa at h
  split at h
  · exact nomatch h
  · rename_i ht
    obtain ⟨hs, hl⟩ := translate_ok ht
    obtain ⟨hr, hn⟩ := readSegs_ok h
    exact ⟨hs.readLeaves.trans hr, by rw [hn, segsOf_length, hl]⟩

/-! ## Stores (R111, R197) -/

theorem storeVa_ok (h : b.storeVa t need prv va n = .ok b' gs) : SameButTlb b b' := by
  unfold Body.storeVa at h
  split at h
  · exact nomatch h
  · rename_i ht
    dsimp only at h
    split at h
    · exact nomatch h
    · obtain ⟨rfl, -⟩ := LRes.ok.inj h
      exact (translate_ok ht).1

/-- A store that ends normally leaves its strand but for the store buffer. -/
theorem plainStore_strand (h : b.plainStore t need prv va bytes = .ok b' ()) : ∃ sb, b'.strand t = { b.strand t with sb := sb } := by
  unfold Body.plainStore at h
  split at h
  · exact nomatch h
  · exact nomatch h
  · rename_i hs
    split at h
    · rename_i hb
      obtain ⟨rfl, -⟩ := LRes.ok.inj h
      unfold Body.bufferStore at hb
      dsimp only at hb
      split at hb
      · cases hb
        rw [Body.strand_setStrand, (storeVa_ok hs).strand]
        exact ⟨_, rfl⟩
      · exact nomatch hb
    · exact nomatch h

end

/-! ## Completion -/

section
variable {s : State} {t : StrandId} {i : Instr} {b b' : Body} {f : Bool} {x : Body → Res} {pc : Option (BitVec 48)}

/-- A completed instruction whose access has left the machine as `b'`, and whose strand is then `u`. -/
theorem Runs.insn_done (h : Runs s t i b f) {u : Strand} (hx : x b = .ok (b'.setStrand t u) pc) (hp : (b'.strand t).pend = (b.strand t).pend) :
    insn t i x f s = .next (finish s b' t u (pc.getD (b.seqPc t (lenOf i)))) := by
  rw [h.insn_eq, hx]
  simp only [Body.settle, Body.modStrand, Body.strand_setStrand, Body.setStrand_setStrand, finish, Body.seqPc, Strand.retire, hp]

/-- An instruction that waits. -/
theorem Runs.insn_hold (h : Runs s t i b f) (hx : x b = .hold b') : insn t i x f s = .next { s with body := b' } := by
  rw [h.insn_eq, hx]
  rfl

end

end Sys2Proof.Machine
end

section
/-! Branches, calls and returns (R52, R53, R97, R113 to R115). -/

namespace Sys2Proof.Machine

/-- The conditions of R113 in the order of their codes, on N, Z, V and C. -/
def branchConds (n z v c : Prop) : List Prop :=
  [True, z, ¬z, c, ¬c, n, ¬n, v, ¬v, c ∧ ¬z, ¬c ∨ z, (n ↔ v), ¬(n ↔ v), ¬z ∧ (n ↔ v), z ∨ ¬(n ↔ v)]

theorem low48 (v : W) : v.extractLsb' 0 48 = v.setWidth 48 := by
  ext i h
  simp

section
variable {s : State} {t : StrandId} {b b' : Body} {off : BitVec 24} {len : Nat} {target : BitVec 48}

/-! ## Branches (R113, R114) -/

theorem condHolds_of_lt (cc : BitVec 4) (k : Fin 15) :
    ∃ h, condHolds (BitVec.ofNat 5 k.val) cc = some h ∧
      (h = true ↔ (branchConds (ccN cc = true) (ccZ cc = true) (ccV cc = true) (ccC cc = true)).getD k.val False) := by
  fin_cases k
  all_goals exact ⟨_, rfl, by simp [branchConds]⟩

theorem condHolds_of_ge {cond : BitVec 5} {cc : BitVec 4} (h : 15 ≤ cond.toNat) : condHolds cond cc = none := by
  unfold condHolds
  dsimp only
  split
  rotate_right
  · rfl
  all_goals omega

theorem ccN_cc (u : Strand) : ccN u.cc = u.status.getLsbD 15 := by simp [ccN, Strand.cc]
theorem ccZ_cc (u : Strand) : ccZ u.cc = u.status.getLsbD 14 := by simp [ccZ, Strand.cc]
theorem ccV_cc (u : Strand) : ccV u.cc = u.status.getLsbD 13 := by simp [ccV, Strand.cc]
theorem ccC_cc (u : Strand) : ccC u.cc = u.status.getLsbD 12 := by simp [ccC, Strand.cc]

/-- A branch on a condition goes to its target or on. -/
def Branches (s : State) (t : StrandId) (b : Body) (off : BitVec 24) (i : Instr) (taken : Prop) : Prop := Runs s t i b →
  (taken → exec i s = .next (finish s b t (b.strand t) ((b.strand t).pc + off.signExtend 48))) ∧
  (¬taken → exec i s = .next (finish s b t (b.strand t) (b.seqPc t 6)))

theorem branches_of_res {i : Instr} {x : Body → Res} {c : Bool} {taken : Prop} (hx : exec i s = insn t i x false s) (hl : lenOf i = 6)
    (hr : x b = branchRes b t off c) (hc : c = true ↔ taken) : Branches s t b off i taken := by
  intro h
  have hd := h.insn_ok_same hr
  rw [hl] at hd
  refine ⟨fun ht => ?_, fun ht => ?_⟩
  · rw [hx, hd, hc.2 ht]
    rfl
  · rw [hx, hd, Bool.eq_false_iff.2 (mt hc.1 ht)]
    rfl

/-! ## Calls and returns (R52, R53) -/

theorem callRes_illegal (h : (b.strand t).tl ≠ 0) : callRes b t len target = .trap b trapIllegal := if_pos h

theorem callRes_overflow (h0 : (b.strand t).tl = 0) (h : (b.strand t).resident = 14) :
    callRes b t len target = .trap b (trapWinOver (b.strand t).wbase 0) := by
  simp only [callRes, h0, h, ne_eq, not_true_eq_false, if_false, if_true]

theorem callRes_calls (h0 : (b.strand t).tl = 0) (h : (b.strand t).resident ≠ 14)
    (hs : b.plainStore t needPush (b.strand t).prv ((b.strand t).lsp - 8).toNat (leBytes 8 (b.seqPc t len).toNat) = .ok b' ()) :
    callRes b t len target =
      .ok (b'.setStrand t { b'.strand t with lsp := (b.strand t).lsp - 8, wcur := (b'.strand t).wcur + 1 }) (some target) := by
  simp only [Body.seqPc] at hs
  simp only [callRes, h0, ne_eq, not_true_eq_false, if_false, if_neg h, hs, LRes.then, Body.modStrand_eq]

theorem retRes_illegal (h : (b.strand t).tl ≠ 0) : retRes b t = .trap b trapIllegal := if_pos h

theorem retRes_underflow (h0 : (b.strand t).tl = 0) (h : (b.strand t).resident = 0) : retRes b t = .trap b (trapWinUnder ((b.strand t).wcur - 1) 0) := by
  simp only [retRes, h0, h, ne_eq, not_true_eq_false, if_false, if_true]

theorem retRes_returns {bytes : List Byte} (h0 : (b.strand t).tl = 0) (h : (b.strand t).resident ≠ 0)
    (hl : b.loadVa t needPop (b.strand t).prv (b.strand t).lsp.toNat 8 = .ok b' bytes) :
    retRes b t = .ok (b'.setStrand t { b'.strand t with lsp := (b'.strand t).lsp + 8, wcur := (b'.strand t).wcur - 1 })
      (some (BitVec.ofNat 48 (leNat bytes))) := by
  simp only [retRes, h0, ne_eq, not_true_eq_false, if_false, if_neg h, hl, LRes.then, Body.modStrand_eq]

theorem plainStore_pend {need : Need} {prv : BitVec 2} {va : Nat} {bytes : List Byte} (h : b.plainStore t need prv va bytes = .ok b' ()) :
    (b'.strand t).pend = (b.strand t).pend := by
  obtain ⟨sb, hs⟩ := plainStore_strand h
  rw [hs]
  rfl

theorem loadVa_pend {need : Need} {prv : BitVec 2} {va n : Nat} {bytes : List Byte} (h : b.loadVa t need prv va n = .ok b' bytes) :
    (b'.strand t).pend = (b.strand t).pend := by rw [(loadVa_ok h).1.strand]

end

/-- Settles O12: each branch by its condition, and a call or return by what it comes to: its access, a window trap, or no instruction of its level. -/
theorem branchesCallsAndReturns : Obligations.BranchesCallsAndReturns := by
  refine ⟨?_, ?_⟩
  · intro s t b ra off u n z v c goes conds
    have sign : (u.reg ra).msb = true ↔ (u.reg ra).toInt < 0 := by rw [BitVec.msb_eq_toInt, decide_eq_true_eq]
    refine ⟨fun k => ?_, fun cond hc h hp => ?_, ?_, ?_, ?_, ?_, fun h => ?_, fun h => ?_⟩
    · obtain ⟨hb, hs, hiff⟩ := condHolds_of_lt u.cc k
      rw [ccN_cc, ccZ_cc, ccV_cc, ccC_cc] at hiff
      exact branches_of_res (x := fun b => bCondRes b t _ off) rfl rfl (by simp only [bCondRes, show condHolds _ (b.strand t).cc = _ from hs]) hiff
    · exact h.traps (x := fun b => bCondRes b t cond off) (r := trapIllegal) hp (by simp only [bCondRes, condHolds_of_ge hc, illegal]) rfl
    · exact branches_of_res (x := fun b => branchRes b t off ((b.strand t).reg ra == 0)) rfl rfl rfl beq_iff_eq
    · exact branches_of_res (x := fun b => branchRes b t off ((b.strand t).reg ra != 0)) rfl rfl rfl bne_iff_ne
    · exact branches_of_res (x := fun b => branchRes b t off ((b.strand t).reg ra).msb) rfl rfl rfl sign
    · exact branches_of_res (x := fun b => branchRes b t off (!((b.strand t).reg ra).msb)) rfl rfl rfl
        (by rw [Bool.not_eq_true', ← Bool.not_eq_true, sign, not_lt])
    · exact (h.insn_ok_same (x := fun b => .ok b (some (((b.strand t).reg ra).setWidth 48))) rfl).trans (by rw [low48]; rfl)
    · exact h.insn_ok_same (x := fun b => .ok b none) rfl
  · intro s t b off ra hp u calls
    have called {i : Instr} {x : Body → Res} {len : Nat} {target : BitVec 48} (hx : exec i s = insn t i x false s) (hr : x b = callRes b t len target) : calls i len target := by
      refine fun h => ⟨fun b' h0 h14 hs => ?_, fun h0 h14 => ?_, fun h0 => ?_⟩
      · exact hx.trans (h.insn_done (pc := some target) (hr.trans (callRes_calls h0 h14 hs)) (plainStore_pend hs))
      · exact hx.trans (h.traps hp (hr.trans (callRes_overflow h0 h14)) rfl)
      · exact hx.trans (h.traps hp (hr.trans (callRes_illegal h0)) rfl)
    refine ⟨called (x := fun b => callRes b t 6 ((b.strand t).target off)) rfl rfl,
      called (x := fun b => callRes b t 3 (((b.strand t).reg ra).setWidth 48)) rfl (by rw [low48]),
      fun h => ⟨fun b' bytes h0 hr hl => ?_, fun h0 hr => ?_, fun h0 => ?_⟩⟩
    · exact h.insn_done (x := fun b => retRes b t) (retRes_returns h0 hr hl) (loadVa_pend hl)
    · exact h.traps (x := fun b => retRes b t) hp (retRes_underflow h0 hr) rfl
    · exact h.traps (x := fun b => retRes b t) hp (retRes_illegal h0) rfl

end Sys2Proof.Machine
end

section
/-! WAIT and the fences (R115, R201, R211). -/

namespace Sys2Proof.Machine

section
variable {s : State} {t : StrandId} {b b' : Body} {len : Nat} {bytes : W}

/-! ## Completion of an instruction that waited -/

/-- The strand, ready for an instruction again. -/
def Strand.resumed (u : Strand) : Strand := { u with act := .ready }

theorem complete_eq (s : State) (b : Body) (t : StrandId) (len : Nat) :
    ({ s with body := b.complete t len } : State) = finish s b t (b.strand t).resumed (b.seqPc t len) := rfl

/-- The machine in which a waiting strand is ready again. -/
def Body.resume (b : Body) (t : StrandId) : Body := b.setStrand t (b.strand t).resumed

@[simp] theorem strand_resume (b : Body) (t : StrandId) : (b.resume t).strand t = (b.strand t).resumed := Body.strand_setStrand _ _ _

/-- A waiting instruction that goes on and completes: it has left the machine as `b'`, and its strand is then `u`. -/
theorem settle_resumed_ok {u : Strand} (hp : (b'.strand t).pend = (b.strand t).pend) :
    ({ s with body := (b.resume t).settle t len bytes (.ok (b'.setStrand t u) none) } : State) = finish s b' t u (b.seqPc t len) := by
  have hr : (b.strand t).resumed.pend = (b'.strand t).pend := hp.symm
  simp only [Body.settle, Body.modStrand, Body.strand_setStrand, Body.setStrand_setStrand, finish, Body.seqPc, Strand.retire, strand_resume, Option.getD_none, hr]
  rfl

theorem settle_resumed_next {u : Strand} {r : TrapReq} (hn : (b.strand t).pend = false) :
    ({ s with body := (b.resume t).settle t len bytes (.next ((b.resume t).setStrand t u) r) } : State) =
      { s with body := (finish s b t u (b.seqPc t len)).body.takeTrap t r (b.seqPc t len) true } := by
  have hr : (b.strand t).resumed.pend = false := hn
  simp only [Body.settle, Body.trapOrFp, hn, hr, Bool.false_eq_true, false_and, and_false, if_false, Body.modStrand, finish, Body.resume,
    Body.strand_setStrand, Body.setStrand_setStrand, Body.seqPc, Strand.retire]
  rfl

/-- No event is due before the instruction of a strand without pending ones. -/
theorem boundary_none (hp : (b.strand t).pend = false) (hm : (b.strand t).mcheck = none) (hh : (b.strand t).held = none ∨ (b.strand t).tl ≠ 0) :
    b.boundary t false = none := by
  simp only [Body.boundary, hp, hm, Bool.false_eq_true, false_and, and_false, if_false]
  split
  · rename_i r hr
    have h0 : (b.strand t).tl ≠ 0 := hh.resolve_left (by rw [hr]; exact Option.some_ne_none r)
    exact if_neg h0
  · rfl

/-! ## WAIT (R115) -/

theorem wakes_iff (b : Body) (t : StrandId) : b.wakes t = true ↔ b.ipend t ≠ 0 ∨ (b.strand t).mcheck.isSome = true := by
  simp only [Body.wakes, Bool.or_eq_true, bne_iff_ne]

theorem waitRes_illegal (h : (b.strand t).tl ≠ 0) : waitRes b t = .trap b trapIllegal := if_pos h

theorem waitRes_privileged (h0 : (b.strand t).tl = 0) (hp : (b.strand t).prv = 0) : waitRes b t = .trap b trapPrivileged := by
  have h1 : (b.strand t).prv.toNat < 1 := by rw [hp]; decide
  rw [waitRes, if_neg (not_not.2 h0), needPrv_of_lt h1]

theorem waitRes_waits (h0 : (b.strand t).tl = 0) (hp : (b.strand t).prv ≠ 0) :
    waitRes b t = if b.wakes t then .ok b none else .hold (b.setStrand t { b.strand t with act := .waiting }) := by
  rw [waitRes, if_neg (not_not.2 h0), needPrv_of_le (prv_pos hp)]
  rfl

/-! ## Fences (R201, R211) -/

theorem fenceMRes_done (h : (b.strand t).sb = []) : fenceMRes b t = .ok b none := by simp only [fenceMRes, h, List.isEmpty_nil, if_true]

theorem fenceMRes_waits (h : (b.strand t).sb ≠ []) : fenceMRes b t = .hold (b.setStrand t { b.strand t with act := .fenceM }) :=
  if_neg fun k => h (List.isEmpty_iff.1 k)

theorem any_posted : b.io.posted.any (·.strand = t) = true ↔ ∃ p ∈ b.io.posted, p.strand = t := by
  simp only [List.any_eq_true, decide_eq_true_eq]

theorem fenceIoRes_waits (h : ∃ p ∈ b.io.posted, p.strand = t) : fenceIoRes b t = .hold (b.setStrand t { b.strand t with act := .fenceIo }) :=
  if_pos (any_posted.2 h)

theorem fenceIoRes_done (h : ¬∃ p ∈ b.io.posted, p.strand = t) (hf : (b.strand t).fail = none) : fenceIoRes b t = .ok b none := by
  simp only [fenceIoRes, if_neg (mt any_posted.1 h), hf]

theorem fenceIoRes_delivers {f : FailRecord} (h : ¬∃ p ∈ b.io.posted, p.strand = t) (hf : (b.strand t).fail = some f) :
    fenceIoRes b t = .next (b.setStrand t { b.strand t with fail := none, further := 0 }) (trapDeferred f (b.strand t).further) := by
  simp only [fenceIoRes, if_neg (mt any_posted.1 h), hf]

/-- A waiting FENCE.IO whose stores are all gone executes as when it is first met. -/
theorem fenceIoComplete_settles (hr : (s.body.strand t).run = .running) (ha : (s.body.strand t).act = .fenceIo)
    (h : ¬∃ p ∈ s.body.io.posted, p.strand = t) (hp : (s.body.strand t).pend = false) (hm : (s.body.strand t).mcheck = none)
    (hh : (s.body.strand t).held = none ∨ (s.body.strand t).tl ≠ 0) :
    exec (.fenceIoComplete t) s = .next { s with body := (s.body.resume t).settle t 3 0 (fenceIoRes (s.body.resume t) t) } := by
  have hn : (s.body.resume t).boundary t false = none := boundary_none (by rw [strand_resume]; exact hp) (by rw [strand_resume]; exact hm)
    (by rw [strand_resume]; exact hh)
  have hany : s.body.io.posted.any (·.strand = t) = false := Bool.eq_false_iff.2 (mt any_posted.1 h)
  have hmod : (s.body.modStrand t fun s => { s with act := .ready }) = s.body.resume t := rfl
  show execFenceIoComplete t s = _
  simp only [execFenceIoComplete, onBody, hr, ha, hany, hmod, hn, decide_true, Bool.and_self, Bool.not_true, Bool.or_self, Bool.false_eq_true, if_false]

end

/-- Settles O14: each of the three when it is met, and when what it waits for has come. -/
theorem waitsAndFences : Obligations.WaitsAndFences := by
  refine ⟨?_, ?_⟩
  · intro s t b u woken
    refine ⟨fun h h0 hp => ⟨fun hw => ?_, fun hw => ?_⟩, fun h hf h0 => ?_, fun h hf h0 hp => ?_, fun hr ha hw => ?_⟩
    · exact h.insn_ok_same (x := fun b => waitRes b t) ((waitRes_waits h0 hp).trans (if_pos ((wakes_iff b t).2 hw)))
    · exact h.insn_hold (x := fun b => waitRes b t) ((waitRes_waits h0 hp).trans (if_neg (mt (wakes_iff b t).1 hw)))
    · exact h.traps (x := fun b => waitRes b t) hf (waitRes_illegal h0) rfl
    · exact h.traps (x := fun b => waitRes b t) hf (waitRes_privileged h0 hp) rfl
    · show execWaitWake t s = _
      simp only [execWaitWake, onBody, hr, ha, (wakes_iff s.body t).2 hw, decide_true, Bool.and_self, if_true, complete_eq, Strand.resumed]
  · intro s t b u record posted
    refine ⟨fun h => ⟨fun he => ?_, fun he => ?_⟩, fun h => ⟨fun hp => ?_, fun hp hf => ?_, fun f hp hf hn => ?_⟩, fun hr ha hm he => ?_,
      fun hr ha hp hn hm hh => ⟨fun hf => ?_, fun f hf => ?_⟩⟩
    · exact h.insn_ok_same (x := fun b => fenceMRes b t) (fenceMRes_done he)
    · exact h.insn_hold (x := fun b => fenceMRes b t) (fenceMRes_waits he)
    · exact h.insn_hold (x := fun b => fenceIoRes b t) (fenceIoRes_waits hp)
    · exact h.insn_ok_same (x := fun b => fenceIoRes b t) (fenceIoRes_done hp hf)
    · exact h.insn_next (x := fun b => fenceIoRes b t) (fenceIoRes_delivers hp hf) hn
    · show execFenceMComplete t s = _
      simp only [execFenceMComplete, onBody, hr, ha, hm, he, decide_true, Bool.and_self, Bool.not_true, Bool.false_eq_true, if_false, Option.isSome_none,
        List.isEmpty_nil, if_true, complete_eq, Strand.resumed]
    · have hx : fenceIoRes (s.body.resume t) t = .ok (s.body.resume t) none := fenceIoRes_done hp (by rw [strand_resume]; exact hf)
      rw [fenceIoComplete_settles hr ha hp hn hm hh, hx]
      exact congrArg _ (settle_resumed_ok rfl)
    · have hx := fenceIoRes_delivers (b := s.body.resume t) (t := t) (f := f) hp (by rw [strand_resume]; exact hf)
      rw [fenceIoComplete_settles hr ha hp hn hm hh, hx, strand_resume]
      exact congrArg _ (settle_resumed_next hn)

end Sys2Proof.Machine
end

section
/-! Loads and stores (R95, R97, R111, R120, R197). -/

namespace Sys2Proof.Machine

section
variable {s : State} {t : StrandId} {i : Instr} {b b' : Body} {sz : Size} {m : MemForm} {rd base : Reg} {disp : BitVec 24} {bytes : List Byte}

/-- Bytes of an instruction with a form of operand in memory (R89). -/
def memLen : MemForm → Nat
  | .idx _ _ _ => 3
  | .disp _ _ => 6

/-- Effective address of an access of `n` bytes (R95). -/
def Strand.effective (u : Strand) (m : MemForm) (n : Nat) : W :=
  match m with
  | .idx ra rb x => u.reg ra + u.reg rb * (if x then BitVec.ofNat 64 n else 1)
  | .disp base d => u.reg base + d.signExtend 64

theorem ea_eq (u : Strand) (m : MemForm) (n : Nat) : u.ea m n = (u.effective m n).toNat := by
  cases m with
  | idx ra rb x =>
    cases x
    · rfl
    · rfl
  | disp base d => rfl

theorem lenOf_ld : lenOf (.ld t sz m rd) = memLen m := by
  cases m
  · rfl
  · rfl

theorem lenOf_lds : lenOf (.lds t sz m rd) = memLen m := by
  cases m
  · rfl
  · rfl

theorem lenOf_st : lenOf (.st t sz m rd) = memLen m := by
  cases m
  · rfl
  · rfl

theorem sextBytes_eq {n : Nat} (h : bytes.length = n) : sextBytes bytes = (BitVec.ofNat (8 * n) (leNat bytes)).signExtend 64 := by
  subst h
  rfl

/-! ## What a load or store comes to -/

/-- An instruction that writes `rd` with what it makes of the bytes that its load obtains. -/
theorem Runs.insn_load (h : Runs s t i b) {need : Need} {prv : BitVec 2} {va n : Nat} (hl : b.loadVa t need prv va n = .ok b' bytes)
    {x : Body → Res} {f : List Byte → W} (hx : x b = (b.loadVa t need prv va n).then fun b bs => doneReg b t rd (f bs)) :
    insn t i x false s = .next (finish s b' t ((b'.strand t).setReg rd (f bytes)) (b.seqPc t (lenOf i))) :=
  h.insn_done (pc := none) (hx.trans (by rw [hl]; exact congrArg (Res.ok · none) (Body.modStrand_eq ..))) (loadVa_pend hl)

/-- An instruction that buffers a store. -/
theorem Runs.insn_store (h : Runs s t i b) {need : Need} {prv : BitVec 2} {va : Nat} (hs : b.plainStore t need prv va bytes = .ok b' ())
    {x : Body → Res} (hx : x b = (b.plainStore t need prv va bytes).then fun b _ => .ok b none) :
    insn t i x false s = .next (finish s b' t (b'.strand t) (b.seqPc t (lenOf i))) :=
  h.insn_ok_body (hx.trans (by rw [hs]; rfl)) (plainStore_pend hs)

theorem loadRes_eq (b : Body) (t : StrandId) (sz : Size) (m : MemForm) (rd : Reg) (sgn : Bool) :
    loadRes b t sz m rd sgn =
      (b.loadVa t needLoad (b.strand t).dataPrv ((b.strand t).effective m (sizeBytes sz)).toNat (sizeBytes sz)).then
        fun b bs => doneReg b t rd (if sgn then sextBytes bs else zext8 bs) := by
  rw [← ea_eq]
  rfl

theorem storeRes_eq (b : Body) (t : StrandId) (sz : Size) (m : MemForm) (rd : Reg) :
    storeRes b t sz m rd =
      (b.plainStore t needStore (b.strand t).dataPrv ((b.strand t).effective m (sizeBytes sz)).toNat
        (leBytes (sizeBytes sz) ((b.strand t).reg rd).toNat)).then fun b _ => .ok b none := by
  rw [← ea_eq]
  rfl

theorem exec_ld (h : Runs s t (.ld t sz m rd) b)
    (hl : b.loadVa t needLoad (b.strand t).dataPrv ((b.strand t).effective m (sizeBytes sz)).toNat (sizeBytes sz) = .ok b' bytes) :
    exec (.ld t sz m rd) s = .next (finish s b' t ((b'.strand t).setReg rd (zext8 bytes)) (b.seqPc t (memLen m))) := by
  rw [← lenOf_ld (t := t) (sz := sz) (rd := rd)]
  exact h.insn_load hl (loadRes_eq b t sz m rd false)

theorem exec_lds (h : Runs s t (.lds t sz m rd) b) (hd : sz ≠ .d)
    (hl : b.loadVa t needLoad (b.strand t).dataPrv ((b.strand t).effective m (sizeBytes sz)).toNat (sizeBytes sz) = .ok b' bytes) :
    exec (.lds t sz m rd) s = .next (finish s b' t ((b'.strand t).setReg rd (sextBytes bytes)) (b.seqPc t (memLen m))) := by
  rw [← lenOf_lds (t := t) (sz := sz) (rd := rd)]
  exact h.insn_load hl ((if_neg hd).trans (loadRes_eq b t sz m rd true))

theorem exec_st (h : Runs s t (.st t sz m rd) b)
    (hs : b.plainStore t needStore (b.strand t).dataPrv ((b.strand t).effective m (sizeBytes sz)).toNat
      (leBytes (sizeBytes sz) ((b.strand t).reg rd).toNat) = .ok b' ()) :
    exec (.st t sz m rd) s = .next (finish s b' t (b'.strand t) (b.seqPc t (memLen m))) := by
  rw [← lenOf_st (t := t) (sz := sz) (rd := rd)]
  exact h.insn_store hs (storeRes_eq b t sz m rd)

end

/-- Settles O19: a load by what it obtains, and what it obtains by the pieces of its translation and the segments read. -/
theorem loads : Obligations.Loads := by
  refine ⟨fun s t b b' sz m base rd disp bytes => ?_, fun b b' t need prv va n bytes he _ _ h => ?_⟩
  · intro u n len ea
    have hea : ea = u.effective m n := by cases m <;> rfl
    have hlen : len = memLen m := by cases m <;> rfl
    have hn : n = sizeBytes sz := by cases sz <;> rfl
    clear_value ea len n
    subst hea hlen hn
    refine ⟨exec_ld, fun h hd hl => ?_, fun h hf => ?_, fun h hp hl => ?_, fun i hi h hp hf => ?_⟩
    · rw [exec_lds h hd hl, sextBytes_eq (loadVa_ok hl).2]
    · exact h.traps (x := fun b => if Size.d = .d then illegal b else loadRes b t .d m rd true) hf rfl rfl
    · exact h.insn_load (f := zext8) hl (needPrv_of_le hp)
    · have hlt : (b.strand t).prv.toNat < 1 := by rw [show (b.strand t).prv = 0 from hp]; exact Nat.one_pos
      rcases List.mem_pair.1 hi with rfl | rfl
      · exact h.traps hf (needPrv_of_lt hlt) rfl
      · exact h.traps hf (needPrv_of_lt hlt) rfl
  · obtain ⟨hl, hlen⟩ := loadVa_ok h
    exact ⟨hl.same he, hlen⟩

/-- Settles O20: ST and IWR each by the store that they buffer. -/
theorem stores : Obligations.Stores := by
  intro s t b b' sz m base rd disp u n len ea
  have hea : ea = u.effective m n := by cases m <;> rfl
  have hlen : len = memLen m := by cases m <;> rfl
  have hn : n = sizeBytes sz := by cases sz <;> rfl
  clear_value ea len n
  subst hea hlen hn
  exact ⟨exec_st, fun h hp hs => h.insn_store hs (needPrv_of_le hp)⟩

end Sys2Proof.Machine
end

section
/-! Reservations: what performing a store, or reading a line for write, leaves of the strands (R195, R213 to R218). -/

namespace Sys2Proof.Machine

/-- Every strand is as before but for its reservation. -/
def ButResv (b b' : Body) : Prop := ∀ t, ∃ r h, b'.strand t = { b.strand t with resv := r, hold := h }

section
variable {b b' : Body} {t : StrandId} {g : Seg} {bytes : List Byte}

theorem ButResv.of_strands (h : b'.strands = b.strands) : ButResv b b' := fun t => ⟨(b.strand t).resv, (b.strand t).hold, by rw [Body.strand, h]; rfl⟩

theorem ButResv.refl (b : Body) : ButResv b b := .of_strands rfl

theorem ButResv.trans {a b c : Body} (h : ButResv a b) (k : ButResv b c) : ButResv a c := fun t => by
  obtain ⟨_, _, e⟩ := h t
  obtain ⟨r, i, f⟩ := k t
  exact ⟨r, i, by rw [f, e]⟩

theorem ButResv.pend (h : ButResv b b') (t : StrandId) : (b'.strand t).pend = (b.strand t).pend := by
  obtain ⟨_, _, e⟩ := h t
  rw [e]
  rfl

theorem ButResv.endWhere (b : Body) (p : StrandId → Strand → Prop) [∀ u s, Decidable (p u s)] :
    ButResv b (b.mapStrands fun u s => if p u s then s.endResv else s) := fun t => by
  rw [Body.strand_mapStrands]
  split
  · exact ⟨none, false, rfl⟩
  · exact ⟨_, _, rfl⟩

theorem ButResv.endLineResv (b : Body) (c : ClusterId) (l : Line) : ButResv b (b.endLineResv c l) := by
  unfold Body.endLineResv
  split
  · exact .refl b
  · exact .endWhere b fun t s => clusterOfStrand t = c ∧ s.resv = some (granuleOf (lineAddr l))

theorem ButResv.endResvAt (b : Body) (pa : Nat) : ButResv b (b.endResvAt pa) := .endWhere b fun _ s => s.resv = some (granuleOf pa)

theorem storeL1_strands (b : Body) (t : StrandId) (l : Line) (d : LineData) : (b.storeL1 t l d).strands = b.strands := by simp only [Body.storeL1]

theorem dropL1_strands (b : Body) (c : ClusterId) (l : Line) : (b.dropL1 c l).strands = b.strands := by simp only [Body.dropL1]

theorem ButResv.l2Remove (b : Body) (c : ClusterId) (k : Nat) (e : L2Line) (keep : Bool) : ButResv b (b.l2Remove c k e keep) := by
  unfold Body.l2Remove
  extract_lets b1
  have h1 : ButResv b b1 := .of_strands (Body.modCluster_strands _ _ _)
  refine (h1.trans (.of_strands (dropL1_strands b1 c e.line))).trans ((ButResv.endLineResv _ c e.line).trans (.of_strands ?_))
  exact Body.setDir_strands _ _ _

theorem ButResv.invalidateOthers (b : Body) (l : Line) (keep : Option ClusterId) : ButResv b (b.invalidateOthers l keep) := by
  refine foldl_rel ButResv.refl (fun _ _ _ => ButResv.trans) (fun b c => ?_) _ b
  split
  · refine ButResv.trans ?_ (.l2Remove _ _ _ _ _)
    split
    · exact .of_strands (HomeSide.homeAccept _ _ _ _ _ _ _ _).strands
    · exact .refl b
  · exact .of_strands (Body.setDir_strands _ _ _)

theorem ButResv.homeStore (b : Body) (pa : Nat) (bs : List Byte) (slot : Byte) (clear : Bool) : ButResv b (b.homeStore pa bs slot clear) := by
  unfold Body.homeStore
  extract_lets l b1 d b2 b3 b4 b5 b6
  have h1 : ButResv b b1 := .of_strands (HomeSide.awaitBack b l).strands
  have h2 : ButResv b1 b2 := .invalidateOthers b1 l none
  have h3 : ButResv b2 b3 := by
    simp only [b3]
    split
    · exact .of_strands (Body.modDie_strands _ _ _)
    · exact .refl b2
  have h5 : ButResv b3 b5 := .of_strands ((HomeOnly.memWrite b4 _ _ _).strands.trans (Body.setDir_strands _ _ _))
  have h6 : ButResv b5 b6 := by
    simp only [b6]
    split
    · exact .of_strands (Body.modMem_strands _ _)
    · exact .refl b5
  exact ((((h1.trans h2).trans h3).trans h5).trans h6).trans (.endResvAt b6 pa)

theorem ButResv.spadWrite (b : Body) (c : ClusterId) (off : Nat) (bs : List Byte) : ButResv b (b.spadWrite c off bs) := by
  unfold Body.spadWrite
  extract_lets lim keep b1
  have h1 : ButResv b b1 := .of_strands (Body.modCluster_strands _ _ _)
  split
  · exact h1.trans (.of_strands (Body.count_strands _ _ _ _))
  · exact h1

/-- A store that is performed leaves the strands but for the reservations that it ends (R215). -/
theorem perform_yes {bs : List Byte} (h : b.perform t g bs = .yes b') : ButResv b b' := by
  unfold Body.perform at h
  extract_lets l c hm b1 at h
  split at h
  · exact nomatch h
  · split at h
    · rw [← Performed.yes.inj h]
      exact (ButResv.spadWrite b hm _ bs).trans (.endWhere b1 fun u s => s.resv = some (granuleOf g.pa) ∧ s.spHome.getD (clusterOfStrand u) = hm)
    · split at h
      · exact nomatch h
      · split at h
        · split at h
          · exact nomatch h
          · rw [← Performed.yes.inj h]
            exact .homeStore _ _ _ _ _
        · split at h
          · split at h
            · extract_lets d b2 at h
              have h2 : ButResv b b2 := by
                simp only [b2]
                split
                · exact .of_strands ((HomeSide.homeAccept _ _ _ _ _ _ _ _).strands.trans (Body.setL2_strands _ _ _ _))
                · exact .of_strands (Body.setL2_strands _ _ _ _)
              rw [← Performed.yes.inj h]
              exact (h2.trans (.of_strands ((storeL1_strands _ _ _ _).trans (Body.useL2_strands _ _ _)))).trans (.endResvAt _ _)
            · exact nomatch h
          · exact nomatch h

/-- A datum that is read for write leaves the strands but for the reservations that this ends (R215). -/
theorem exclusiveRead_ok (h : b.exclusiveRead t g = .ok b' bytes) : ButResv b b' := by
  unfold Body.exclusiveRead at h
  extract_lets l c b1 d b2 at h
  split at h
  · exact nomatch h
  · split at h
    · rw [← (LRes.ok.inj h).1]
      exact .refl b
    · split at h
      · split at h
        · exact nomatch h
        · rw [← (LRes.ok.inj h).1]
          exact ((ButResv.of_strands (HomeSide.awaitBack b l).strands).trans (.invalidateOthers b1 l none)).trans
            (.endWhere b2 fun u s => clusterOfStrand u ≠ c ∧ s.resv = some (granuleOf g.pa))
      · split at h
        · split at h
          · rw [← (LRes.ok.inj h).1]
            exact .of_strands (Body.useL2_strands _ _ _)
          · exact nomatch h
        · exact nomatch h

end

end Sys2Proof.Machine
end

section
/-! LDR, STC and CAS (R112, R213 to R218). -/

namespace Sys2Proof.Machine

section
variable {s : State} {t : StrandId} {b b1 b2 b3 : Body} {wd : Width} {rd ra rb : Reg} {ps : List Piece} {g : Seg} {gs : List Seg} {bytes : List Byte}

theorem mkCC_zero (z : Bool) : mkCC false z false false = if z then 4 else 0 := by
  cases z
  · rfl
  · rfl

theorem readSegs_pend (h : b.readSegs t gs = .ok b1 bytes) : (b1.strand t).pend = (b.strand t).pend := by rw [(readSegs_ok h).1.strand]

theorem storeVa_pend {need : Need} {prv : BitVec 2} {va n : Nat} (h : b.storeVa t need prv va n = .ok b1 gs) : (b1.strand t).pend = (b.strand t).pend := by
  rw [(storeVa_ok h).strand]

theorem translate_pend {need : Need} {prv : BitVec 2} {va n : Nat} (h : b.translate t need prv va n = .ok b1 ps) : (b1.strand t).pend = (b.strand t).pend := by
  rw [(translate_ok h).1.strand]

/-! ## What each comes to -/

/-- No other cluster's request for write waits for a line of the granule, so that the reservation holds the lines (R217). -/
def Body.holds (b : Body) (t : StrandId) (gr : Nat) : Bool :=
  !(b.mem.reqs.any fun r => r.write && r.cluster != clusterOfStrand t && (granuleLines gr).contains r.line)

theorem holds_of_reqs (h : ∀ r ∈ b.mem.reqs, r.write = true → r.cluster = clusterOfStrand t) (gr : Nat) : b.holds t gr = true := by
  rw [Body.holds, Bool.not_eq_true', List.any_eq_false]
  intro r hr hw
  simp only [Bool.and_eq_true, bne_iff_ne] at hw
  exact hw.1.2 (h r hr hw.1.1)

theorem ldrRes_done (ha : ((b.strand t).reg ra).toNat % widthBytes wd = 0)
    (ht : b.translate t needLdr (b.strand t).dataPrv ((b.strand t).reg ra).toNat (widthBytes wd) = .ok b1 ps) (hg : segsOf ps = g :: gs)
    (hr : b1.readSegs t (segsOf ps) = .ok b2 bytes) (hc : g.cls ≠ .scratchpad) (he : (b2.cluster (clusterOfStrand t)).l2e = true)
    (ho : b2.obtainGranule t (granuleOf g.pa) g.slot g.nol3 = none) :
    ldrRes b t wd rd ra = .ok (b2.setStrand t
      (({ b2.strand t with resv := some (granuleOf g.pa), hold := b2.holds t (granuleOf g.pa) }).setReg rd (zext8 bytes))) none := by
  rw [hg] at hr
  simp only [ldrRes, if_neg (not_not.2 ha), ht, hg, hr, LRes.then, hc, he, ho, decide_false, Bool.not_true, Bool.or_false, Bool.false_eq_true, if_false,
    doneReg, Body.modStrand_eq, Body.strand_setStrand, Body.setStrand_setStrand, Body.holds]

/-- The end of a conditional store. -/
def Strand.stored (u : Strand) (rd : Reg) (ok : Bool) : Strand := ((u.endResv).setReg rd (if ok then 0 else 1)).setCC (mkCC false ok false false)

theorem stcRes_fails (ha : ((b.strand t).reg ra).toNat % widthBytes wd = 0)
    (hs : b.storeVa t needStc (b.strand t).dataPrv ((b.strand t).reg ra).toNat (widthBytes wd) = .ok b1 (g :: gs))
    (hr : (b1.strand t).resv ≠ some (granuleOf g.pa)) : stcRes b t wd rd ra rb = .ok (b1.setStrand t ((b1.strand t).stored rd false)) none := by
  simp only [stcRes, if_neg (not_not.2 ha), hs, LRes.then, bne_iff_ne.2 hr, Bool.true_or, if_true, Body.modStrand_eq, Strand.stored]

theorem stcRes_stores (ha : ((b.strand t).reg ra).toNat % widthBytes wd = 0)
    (hs : b.storeVa t needStc (b.strand t).dataPrv ((b.strand t).reg ra).toNat (widthBytes wd) = .ok b1 (g :: gs))
    (hr : (b1.strand t).resv = some (granuleOf g.pa)) (hb : (b1.strand t).sb = []) (he : (b1.cluster (clusterOfStrand t)).l2e = true)
    (hp : b1.perform t g (leBytes (widthBytes wd) ((b.strand t).reg rb).toNat) = .yes b2) :
    stcRes b t wd rd ra rb = .ok (b2.setStrand t ((b2.strand t).stored rd true)) none := by
  simp only [stcRes, if_neg (not_not.2 ha), hs, LRes.then, hr, bne_self_eq_false, he, Bool.not_true, Bool.and_false, Bool.or_false, Bool.false_eq_true,
    if_false, hb, List.isEmpty_nil, hp, Body.modStrand_eq, Strand.stored]

/-- The end of a compare and swap. -/
def Strand.swapped (u : Strand) (rd : Reg) (old : List Byte) (same : Bool) : Strand := (u.setReg rd (zext8 old)).setCC (mkCC false same false false)

theorem casRes_differs (ha : ((b.strand t).reg ra).toNat % widthBytes wd = 0)
    (hs : b.storeVa t needCas (b.strand t).dataPrv ((b.strand t).reg ra).toNat (widthBytes wd) = .ok b1 (g :: gs)) (hb : (b1.strand t).sb = [])
    (hx : b1.exclusiveRead t g = .ok b2 bytes) (hd : bytes ≠ leBytes (widthBytes wd) ((b.strand t).reg rd).toNat) :
    casRes b t wd rd ra rb = .ok (b2.setStrand t ((b2.strand t).swapped rd bytes false)) none := by
  simp only [casRes, if_neg (not_not.2 ha), hs, LRes.then, hb, List.isEmpty_nil, Bool.not_true, Bool.false_eq_true, if_false, hx,
    beq_eq_false_iff_ne.2 hd, Body.modStrand_eq, Strand.swapped]

theorem casRes_swaps (ha : ((b.strand t).reg ra).toNat % widthBytes wd = 0)
    (hs : b.storeVa t needCas (b.strand t).dataPrv ((b.strand t).reg ra).toNat (widthBytes wd) = .ok b1 (g :: gs)) (hb : (b1.strand t).sb = [])
    (hx : b1.exclusiveRead t g = .ok b2 bytes) (hd : bytes = leBytes (widthBytes wd) ((b.strand t).reg rd).toNat)
    (hp : b2.perform t g (leBytes (widthBytes wd) ((b.strand t).reg rb).toNat) = .yes b3) :
    casRes b t wd rd ra rb = .ok (b3.setStrand t ((b3.strand t).swapped rd bytes true)) none := by
  simp only [casRes, if_neg (not_not.2 ha), hs, LRes.then, hb, List.isEmpty_nil, Bool.not_true, Bool.false_eq_true, if_false, hx,
    beq_iff_eq.2 hd, if_true, hp, Body.modStrand_eq, Strand.swapped]

end

/-- Settles O23: each by the outcome of its accesses, which leave the pending exception of the strand as it was. -/
theorem atomics : Obligations.Atomics := by
  intro s t b b1 b2 b3 wd rd ra rb ps g gs bytes u n va c seq cc
  have hn : n = widthBytes wd := by cases wd <;> rfl
  have hcc (z : Bool) : cc z = mkCC false z false false := (mkCC_zero z).symm
  clear_value n cc
  subst hn
  simp only [hcc]
  refine ⟨fun h ha ht hg hr hc he ho => ⟨b2.holds t (granuleOf g.pa), ?_, fun hw => holds_of_reqs hw _⟩, fun h ha hs => ⟨fun hr => ?_, fun hr hb he hp => ?_⟩,
    fun h ha hs hb hx => ⟨fun hd => ?_, fun hd hp => ?_⟩, fun i hi h ha hf => ?_⟩
  · exact h.insn_done (x := fun b => ldrRes b t wd rd ra) (ldrRes_done ha ht hg hr hc he ho) ((readSegs_pend hr).trans (translate_pend ht))
  · exact h.insn_done (x := fun b => stcRes b t wd rd ra rb) (stcRes_fails ha hs hr) (storeVa_pend hs)
  · exact h.insn_done (x := fun b => stcRes b t wd rd ra rb) (stcRes_stores ha hs hr hb he hp) (((perform_yes hp).pend t).trans (storeVa_pend hs))
  · exact h.insn_done (x := fun b => casRes b t wd rd ra rb) (casRes_differs ha hs hb hx hd) (((exclusiveRead_ok hx).pend t).trans (storeVa_pend hs))
  · exact h.insn_done (x := fun b => casRes b t wd rd ra rb) (casRes_swaps ha hs hb hx hd hp)
      (((perform_yes hp).pend t).trans (((exclusiveRead_ok hx).pend t).trans (storeVa_pend hs)))
  · simp only [List.mem_cons, List.not_mem_nil, or_false] at hi
    rcases hi with rfl | rfl | rfl
    · exact h.traps (x := fun b => ldrRes b t wd rd ra) hf (if_pos ha) rfl
    · exact h.traps (x := fun b => stcRes b t wd rd ra rb) hf (if_pos ha) rfl
    · exact h.traps (x := fun b => casRes b t wd rd ra rb) hf (if_pos ha) rfl

end Sys2Proof.Machine
end

section
/-! IOLD, IOST, IODB and SETIOB (R101 to R106, R117, R204 to R208). -/

namespace Sys2Proof.Machine

/-- Offsets that a store to I/O space may name (R101). -/
def StoreWindow (a : Nat) : Prop := (0x1000 ≤ a ∧ a < 0x1028) ∨ (0x2000 ≤ a ∧ a < 0x2028) ∨ (0x10000 ≤ a ∧ a < 0x20000)

/-- Offsets that a load from I/O space may name (R101). -/
def LoadWindow (a : Nat) : Prop := StoreWindow a ∨ (0x3000 ≤ a ∧ a < 0x3018)

/-- The offsets that an access of `size` bytes may name. -/
def Window : IoKind → Nat → Nat → Prop
  | .doorbell, _, a => a = 0
  | .store, size, a => a % size = 0 ∧ StoreWindow a
  | .load, size, a => a % size = 0 ∧ LoadWindow a

/-- The slice is bound to the partition and the address space (R101). -/
def Slice.Owned (x : Slice) (part : Byte) (asid : BitVec 16) : Prop := x.st ≠ .free ∧ x.part = part ∧ x.asid = asid

section
variable {s : State} {t : StrandId} {b : Body} {k : IoKind} {size a : Nat} {wd : Width} {rd : Reg} {iob : BitVec 2} {addr : BitVec 24} {f : SliceId → Res}
variable {i : Instr} {x : Body → Res} {l : IoBell}

/-! ## The checks of R101 -/

theorem windowOk_store : windowOk .store size a = true ↔ Window .store size a := by
  simp only [windowOk, Window, StoreWindow, Bool.and_eq_true, Bool.or_eq_true, decide_eq_true_eq]
  tauto

theorem windowOk_load : windowOk .load size a = true ↔ Window .load size a := by
  simp only [windowOk, Window, LoadWindow, StoreWindow, Bool.and_eq_true, Bool.or_eq_true, decide_eq_true_eq]
  tauto

theorem windowOk_doorbell : windowOk .doorbell size a = true ↔ Window .doorbell size a := by
  simp only [windowOk, Window, Bool.and_eq_true, decide_eq_true_eq, and_iff_right_iff_imp]
  rintro rfl
  exact Nat.zero_mod size

theorem windowOk_iff : windowOk k size a = true ↔ Window k size a := by
  cases k
  · exact windowOk_load
  · exact windowOk_store
  · exact windowOk_doorbell

theorem owns_iff {x : Slice} {part : Byte} {asid : BitVec 16} : x.owns part asid = true ↔ x.Owned part asid := by
  simp only [Slice.owns, Slice.Owned, Bool.and_eq_true, bne_iff_ne, decide_eq_true_eq, and_assoc]

/-- The trap of an access that the checks refuse. -/
def ioTrap (u : Strand) (iob : BitVec 2) (addr : BitVec 24) (cause : Byte) : TrapReq :=
  { cause := cause, rule := .upK, info0 := iob.setWidth 64, info1 := BitVec.ofNat 64 (u.iobSlice iob).val, info2 := addr.setWidth 64 }

theorem trapOwner_eq (u : Strand) (iob : BitVec 2) (addr : BitVec 24) :
    trapOwner iob.toNat (u.iobSlice iob).val addr.toNat = ioTrap u iob addr 0x10 := by
  simp only [trapOwner, ioTrap, BitVec.ofNat_toNat]

theorem trapWindowIo_eq (u : Strand) (iob : BitVec 2) (addr : BitVec 24) :
    trapWindowIo iob.toNat (u.iobSlice iob).val addr.toNat = ioTrap u iob addr 0x14 := by
  simp only [trapWindowIo, trapOwner, ioTrap, BitVec.ofNat_toNat]

theorem ioCheck_passes (hw : Window k size addr.toNat)
    (ho : (b.slice ((b.strand t).iobSlice iob)).Owned (b.strand t).part (b.strand t).asid) :
    ioCheck b t k size iob addr f = f ((b.strand t).iobSlice iob) := by
  simp only [ioCheck, windowOk_iff.2 hw, owns_iff.2 ho, Bool.not_true, Bool.false_eq_true, if_false]

theorem ioCheck_window (hw : ¬Window k size addr.toNat) : ioCheck b t k size iob addr f = .trap b (ioTrap (b.strand t) iob addr 0x14) := by
  simp only [ioCheck, Bool.eq_false_iff.2 (mt windowOk_iff.1 hw), Bool.not_false, if_true, trapWindowIo_eq]

theorem ioCheck_owner (hw : Window k size addr.toNat)
    (ho : ¬(b.slice ((b.strand t).iobSlice iob)).Owned (b.strand t).part (b.strand t).asid) :
    ioCheck b t k size iob addr f = .trap b (ioTrap (b.strand t) iob addr 0x10) := by
  simp only [ioCheck, windowOk_iff.2 hw, Bool.eq_false_iff.2 (mt owns_iff.1 ho), Bool.not_true, Bool.not_false, Bool.false_eq_true, if_false, if_true,
    trapOwner_eq]

/-- An access outside its window. -/
theorem Runs.refuses_window (h : Runs s t i b) (hx : x b = ioCheck b t k size iob addr f) (hp : (b.strand t).pend = false)
    (hw : ¬Window k size addr.toNat) :
    insn t i x false s = .next { s with body := b.takeTrap t (ioTrap (b.strand t) iob addr 0x14) (b.strand t).pc } :=
  h.traps hp (hx.trans (ioCheck_window hw)) rfl

/-- An access to a slice of another owner. -/
theorem Runs.refuses_owner (h : Runs s t i b) (hx : x b = ioCheck b t k size iob addr f) (hp : (b.strand t).pend = false)
    (hw : Window k size addr.toNat) (ho : ¬(b.slice ((b.strand t).iobSlice iob)).Owned (b.strand t).part (b.strand t).asid) :
    insn t i x false s = .next { s with body := b.takeTrap t (ioTrap (b.strand t) iob addr 0x10) (b.strand t).pc } :=
  h.traps hp (hx.trans (ioCheck_owner hw ho)) rfl

/-! ## Posting (R204, R208) -/

/-- A store or doorbell under way with its tag and its expiry. -/
def Body.posting (b : Body) (t : StrandId) (wd : Width) (l : IoBell) : Posted :=
  { strand := t, slice := l.slice, off := l.off, wd := wd, data := l.data, part := l.part, asid := l.asid, gen := l.gen
    expiry := b.tod (halfOfStrand t) + b.ioTimeout l.part }

/-- The machine with one more posted store. -/
def Body.posted (b : Body) (p : Posted) : Body := { b with io := { b.io with posted := b.io.posted ++ [p] } }

theorem postTagged_posts (h : b.ioCut t l.slice l.part = false) : b.postTagged t wd l = b.posted (b.posting t wd l) :=
  if_neg (Bool.eq_false_iff.1 h)

theorem postTagged_cut (h : b.ioCut t l.slice l.part = true) :
    b.postTagged t wd l = b.setStrand t ((b.strand t).ioFail ((b.posting t wd l).failure 3)) := if_pos h

theorem ioFail_first {u : Strand} (h : u.fail = none) (r : FailRecord) : u.ioFail r = { u with fail := some r } := by
  rw [Strand.ioFail, h]
  rfl

theorem postBell_posts (h : (b.strand t).sb = []) : b.postBell t l = .ok (b.postTagged t .d l) none := by
  simp only [Body.postBell, h, List.isEmpty_nil, if_true]

theorem postBell_waits (h : (b.strand t).sb ≠ []) : b.postBell t l = .hold (b.setStrand t { b.strand t with act := .iodb l }) :=
  if_neg fun k => h (List.isEmpty_iff.1 k)

/-! ## What each comes to -/

section
variable (ho : (b.slice ((b.strand t).iobSlice iob)).Owned (b.strand t).part (b.strand t).asid)
include ho

theorem iostRes_passes (ha : addr.toNat % widthSize wd = 0) (hw : StoreWindow addr.toNat) :
    iostRes b t wd rd iob addr = .ok (b.postStore t ((b.strand t).iobSlice iob) addr wd ((b.strand t).reg rd)) none :=
  ioCheck_passes (k := .store) ⟨ha, hw⟩ ho

theorem iodbRes_passes (ha : addr.toNat = 0) :
    iodbRes b t rd iob addr = b.postBell t (b.tagStore t ((b.strand t).iobSlice iob) addr ((b.strand t).reg rd)) :=
  ioCheck_passes (k := .doorbell) ha ho

/-- The load that an IOLD waits for. -/
def Body.ioLoad (b : Body) (t : StrandId) (wd : Width) (rd : Reg) (sl : SliceId) (addr : BitVec 24) : IoLoad :=
  { wd := wd, rd := rd, slice := sl, off := addr, part := (b.strand t).part, asid := (b.strand t).asid, gen := (b.slice sl).gen
    expiry := b.tod (halfOfStrand t) + b.ioTimeout (b.strand t).part }

theorem ioldRes_passes (ha : addr.toNat % widthSize wd = 0) (hw : LoadWindow addr.toNat) :
    ioldRes b t wd rd iob addr =
      if b.ioCut t ((b.strand t).iobSlice iob) (b.strand t).part then
        .ok (b.setStrand t (((b.strand t).ioFail ((b.ioLoad t wd rd ((b.strand t).iobSlice iob) addr).failure 3)).setReg rd (ioOnes wd))) none
      else .hold (b.setStrand t { b.strand t with act := .iold (b.ioLoad t wd rd ((b.strand t).iobSlice iob) addr) }) :=
  ioCheck_passes (k := .load) ⟨ha, hw⟩ ho

end

theorem waitsBell_ready {u : Strand} (h : u.ready = true) : u.waitsBell = none := by
  simp only [Strand.ready, Bool.and_eq_true, decide_eq_true_eq] at h
  simp only [Strand.waitsBell, h.1.2, ite_self]

/-- A strand that is ready waits for no doorbell, so that IODB executes. -/
theorem exec_iodb (h : Runs s t (.iodb t rd iob addr) b) :
    exec (.iodb t rd iob addr) s = insn t (.iodb t rd iob addr) (fun b => iodbRes b t rd iob addr) false s := by
  show execIodb t rd iob addr s = _
  rw [execIodb, waitsBell_ready h.ready]

/-- An IODB that waits goes on with the doorbell that it has been checked with. -/
theorem exec_iodb_posts (hr : (s.body.strand t).run = .running) (ha : (s.body.strand t).act = .iodb l) (hs : (s.body.strand t).sb = [])
    (hc : s.body.ioCut t l.slice l.part = false) :
    exec (.iodb t rd iob addr) s = .next (finish s (s.body.posted (s.body.posting t .d l)) t (s.body.strand t).resumed (s.body.seqPc t 6)) := by
  have hw : (s.body.strand t).waitsBell = some l := by simp only [Strand.waitsBell, hr, ha, if_true]
  have hx : (s.body.resume t).postBell t l = .ok ((s.body.posted (s.body.posting t .d l)).setStrand t (s.body.strand t).resumed) none := by
    rw [postBell_posts (by rw [strand_resume]; exact hs), postTagged_posts (b := s.body.resume t) hc]
    rfl
  show execIodb t rd iob addr s = _
  rw [execIodb, hw]
  show Host.Outcome.next { s with body := (s.body.resume t).settle t 6 _ ((s.body.resume t).postBell t l) } = _
  rw [hx]
  exact congrArg _ (settle_resumed_ok rfl)

end

section
variable {s : State} {t : StrandId} {b : Body} {rd : Reg} {iob : BitVec 2} {addr : BitVec 24}

/-! ## SETIOB (R106, R117) -/

theorem setiobRes_illegal (h : 8191 < ((b.strand t).reg rd).toNat + addr.toNat) : setiobRes b t rd iob addr = .trap b trapIllegal := if_pos h

theorem setiobRes_checks (h : ((b.strand t).reg rd).toNat + addr.toNat ≤ 8191) :
    setiobRes b t rd iob addr = needPrv b t 1 (.ok (b.setStrand t { b.strand t with
      iob := (b.strand t).iob.setIfInBounds iob.toNat (BitVec.ofNat 13 (((b.strand t).reg rd).toNat + addr.toNat)) }) none) :=
  if_neg (Nat.not_lt.2 h)

end

/-- Settles O33: the checks of R101, what an access that passes comes to, and SETIOB. -/
theorem ioInstructions : Obligations.IoInstructions := by
  intro s t b wd rd iob addr u sl x n a within storeWin loadWin owned expiry store posted bell failure load trap refused
  have hn : n = widthSize wd := by cases wd <;> rfl
  clear_value n
  subst hn
  refine ⟨fun h ha hw ho hc => ?_, fun h ha ho hc => ⟨fun hs => ?_, fun hs => ?_⟩, fun l hr ha hs hc => exec_iodb_posts hr ha hs hc,
    fun hc ho hf => ⟨fun h ha hw => ?_, fun h ha hw => ?_, fun h ha hs => ?_⟩, fun h ha hw ho hc => ?_, fun hw h hp => ?_, fun hw h hp => ?_,
    fun ha h hp => ?_, fun ha hw ho h hp => ?_, fun ha hw ho h hp => ?_, fun ha ho h hp => ?_, fun h => ⟨fun hv hp => ?_, fun hv hp hf => ?_, fun hv hf => ?_⟩⟩
  · have hr := (iostRes_passes (rd := rd) ho ha hw).trans (congrArg (Res.ok · none) (postTagged_posts hc))
    exact h.insn_ok_body (x := fun b => iostRes b t wd rd iob addr) hr rfl
  · have hr := ((iodbRes_passes (rd := rd) ho ha).trans (postBell_posts hs)).trans (congrArg (Res.ok · none) (postTagged_posts hc))
    exact (exec_iodb h).trans (h.insn_ok_body hr rfl)
  · exact (exec_iodb h).trans (h.insn_hold ((iodbRes_passes ho ha).trans (postBell_waits hs)))
  · have hr := (ioldRes_passes (rd := rd) ho ha hw).trans (if_pos hc)
    rw [ioFail_first hf] at hr
    exact h.insn_ok (x := fun b => ioldRes b t wd rd iob addr) hr
  · have hr := (iostRes_passes (rd := rd) ho ha hw).trans (congrArg (Res.ok · none) (postTagged_cut hc))
    rw [ioFail_first hf] at hr
    exact h.insn_ok (x := fun b => iostRes b t wd rd iob addr) hr
  · have hr := ((iodbRes_passes (rd := rd) ho ha).trans (postBell_posts hs)).trans (congrArg (Res.ok · none) (postTagged_cut hc))
    rw [ioFail_first hf] at hr
    exact (exec_iodb h).trans (h.insn_ok (x := fun b => iodbRes b t rd iob addr) hr)
  · have hr := (ioldRes_passes (rd := rd) ho ha hw).trans (if_neg (Bool.eq_false_iff.1 hc))
    exact h.insn_hold (x := fun b => ioldRes b t wd rd iob addr) hr
  · exact h.refuses_window (x := fun b => iostRes b t wd rd iob addr) rfl hp fun ⟨ha, hb⟩ => hw.elim (· hb) (· ha)
  · exact h.refuses_window (x := fun b => ioldRes b t wd rd iob addr) rfl hp fun ⟨ha, hb⟩ => hw.elim (· hb) (· ha)
  · exact (exec_iodb h).trans (h.refuses_window rfl hp ha)
  · exact h.refuses_owner (x := fun b => iostRes b t wd rd iob addr) rfl hp ⟨ha, hw⟩ ho
  · exact h.refuses_owner (x := fun b => ioldRes b t wd rd iob addr) rfl hp ⟨ha, hw⟩ ho
  · exact (exec_iodb h).trans (h.refuses_owner rfl hp ha ho)
  · exact h.insn_ok (x := fun b => setiobRes b t rd iob addr) ((setiobRes_checks hv).trans (needPrv_of_le hp))
  · have hlt : (b.strand t).prv.toNat < 1 := by rw [show (b.strand t).prv = 0 from hp]; exact Nat.one_pos
    exact h.traps (x := fun b => setiobRes b t rd iob addr) hf ((setiobRes_checks hv).trans (needPrv_of_lt hlt)) rfl
  · exact h.traps (x := fun b => setiobRes b t rd iob addr) hf (setiobRes_illegal hv) rfl

end Sys2Proof.Machine
end

section
/-! Replies to IOLD and the timeouts of I/O space (R104, R205, R208, R209). -/

namespace Sys2Proof.Machine

section
variable {s : State} {t : StrandId} {b : Body} {l : IoLoad} {u : Strand} {cause : BitVec 4} {v : W}

/-! ## The value of a load (R348) -/

theorem shifted_low32 (v : W) (k : Nat) : v >>> k &&& 0xFFFFFFFF = (v.extractLsb' k 32).setWidth 64 := by
  have hmask : (0xFFFFFFFF : W).toNat = 2 ^ 32 - 1 := rfl
  apply BitVec.eq_of_toNat_eq
  simp only [BitVec.toNat_and, BitVec.toNat_ushiftRight, hmask, Nat.and_two_pow_sub_one_eq_mod, BitVec.toNat_setWidth,
    BitVec.extractLsb'_toNat]
  omega

theorem ioPart_lower {off : Nat} (h : off % 8 = 0) (v : W) : ioPart .w off v = (v.extractLsb' 0 32).setWidth 64 := by
  rw [← shifted_low32, ioPart, h]

theorem ioPart_upper {off : Nat} (h : off % 8 = 4) (v : W) : ioPart .w off v = (v.extractLsb' 32 32).setWidth 64 := by
  rw [← shifted_low32, ioPart, h]

/-! ## Completion of a load -/

theorem setReg_pc (u : Strand) (r : Reg) (v : W) : (u.setReg r v).pc = u.pc := by
  unfold Strand.setReg
  cases u.place r
  all_goals rfl

theorem setReg_pend (u : Strand) (r : Reg) (v : W) : (u.setReg r v).pend = u.pend := by
  unfold Strand.setReg
  cases u.place r
  all_goals rfl

theorem waitsLoad_eq (hr : u.run = .running) (ha : u.act = .iold l) : u.waitsLoad = some l := by
  simp only [Strand.waitsLoad, hr, ha, if_true]

theorem loadDone_eq : ({ s with body := b.loadDone t l v } : State) = finish s b t ((b.strand t).setReg l.rd v).resumed (b.seqPc t 6) := by
  simp only [Body.loadDone, complete_eq, Body.modStrand_eq, finish, Body.seqPc, Body.strand_setStrand, Body.setStrand_setStrand, setReg_pc, setReg_pend]

theorem loadFail_eq (hf : (b.strand t).fail = none) : ({ s with body := b.loadFail t l cause } : State) =
    finish s b t (({ b.strand t with fail := some (l.failure cause) }).setReg l.rd (ioOnes l.wd)).resumed (b.seqPc t 6) := by
  simp only [Body.loadFail, Body.modStrand_eq, ioFail_first hf, loadDone_eq, finish, Body.seqPc, Body.strand_setStrand, Body.setStrand_setStrand]
  rfl

/-! ## The commands -/

theorem taggedAs_iff {x : Slice} : (x.owns l.part l.asid && decide (x.gen = l.gen)) = true ↔ x.st ≠ .free ∧ x.part = l.part ∧ x.asid = l.asid ∧ x.gen = l.gen := by
  simp only [Bool.and_eq_true, owns_iff, Slice.Owned, decide_eq_true_eq, and_assoc]

/-- A reply that comes in time, after the strand's older stores to the slice. -/
theorem exec_ioldReply (hw : (s.body.strand t).waitsLoad = some l) (hp : ∀ p ∈ s.body.io.posted, ¬(p.strand = t ∧ p.slice = l.slice))
    (he : s.body.tod (halfOfStrand t) ≤ l.expiry) : exec (.ioldReply t) s = .next { s with
      body := if (s.body.slice l.slice).owns l.part l.asid && decide ((s.body.slice l.slice).gen = l.gen) then
        s.body.loadDone t l (ioPart l.wd l.off.toNat (s.body.sliceRead l.slice (l.off.toNat / 8 * 8))) else s.body.loadFail t l 2 } := by
  have hany : s.body.io.posted.any (fun p => decide (p.strand = t) && decide (p.slice = l.slice)) = false := by
    simpa only [List.any_eq_false, Bool.and_eq_true, decide_eq_true_eq] using hp
  show execIoldReply t s = _
  simp only [execIoldReply, onBody, hw, hany, decide_eq_false (Nat.not_lt.2 he), Bool.or_false, Bool.false_eq_true, if_false]

/-- The timeout of the only posted store of the machine. -/
theorem exec_ioStoreTimeout {sl : SliceId} {p : Posted} (hp : s.body.io.posted = [p]) (ht : p.strand = t) (hs : p.slice = sl) :
    exec (.ioStoreTimeout t sl) s = .next { s with body :=
      ((s.body.reach (halfOfStrand t) p.expiry).dropPosted p).setStrand t ((s.body.strand t).ioFail (p.failure 1)) } := by
  have ho : s.body.oldestPosted t sl = some p := by
    simp only [Body.oldestPosted, hp, List.find?_cons, ht, hs, decide_true, Bool.and_self]
  have hq : (s.body.reach (halfOfStrand t) p.expiry).io.posted = [p] := hp
  have hf : [p].filter (fun q => decide (q.strand = t) && decide (q.expiry ≤ p.expiry)) = [p] := by
    simp only [List.filter_cons, ht, le_refl, decide_true, Bool.and_self, if_true, List.filter_nil]
  show execIoStoreTimeout t sl s = _
  simp only [execIoStoreTimeout, onBody, ho, hq, hf, List.foldl_cons, List.foldl_nil]
  rfl

end

/-- Settles O34: a load by whether its tag still holds, or by its expiry; a posted store by its expiry. -/
theorem ioRepliesAndTimeouts : Obligations.IoRepliesAndTimeouts := by
  refine ⟨?_, ?_⟩
  · intro s t l b u x off full v ones owned record hr ha hf hd h4
    have hw : (s.body.strand t).waitsLoad = some l := waitsLoad_eq hr ha
    have hv : ioPart l.wd off full = v := by
      have h8 : off % 8 = 0 ∨ off % 8 = 4 := by omega
      simp only [v]
      split
      · rename_i hwd
        rw [hwd]
        rfl
      · rename_i hwd
        rw [hwd]
        split
        · exact ioPart_lower (by omega) full
        · exact ioPart_upper (by omega) full
    refine ⟨fun hp he => ⟨fun ho => ?_, fun ho => ?_⟩, b.reach (halfOfStrand t) l.expiry, rfl, ?_⟩
    · rw [exec_ioldReply hw hp he, if_pos (taggedAs_iff.2 ho), ← hv]
      exact congrArg _ loadDone_eq
    · rw [exec_ioldReply hw hp he, if_neg (mt taggedAs_iff.1 ho)]
      exact congrArg _ (loadFail_eq hf)
    · show execIoldTimeout t s = _
      simp only [execIoldTimeout, onBody, hw]
      exact congrArg _ (loadFail_eq (b := b.reach (halfOfStrand t) l.expiry) hf)
  · intro s t sl p hp ht hs hf
    refine ⟨_, exec_ioStoreTimeout hp ht hs, ?_, ?_, rfl, rfl⟩
    · show s.body.io.posted.erase p = []
      rw [hp, List.erase_cons_head]
    · rw [Body.strand_setStrand, ioFail_first hf, ← hs]
      rfl

end Sys2Proof.Machine
end

section
/-! Integer arithmetic: each operation of the model gives the value and the CC of its row (R122 to R125). -/

namespace Sys2Proof.Machine

/-! ## CC from its bits (R75) -/

section
variable (n z v c : Bool)

@[simp] theorem ccN_mkCC : ccN (mkCC n z v c) = n := by revert n z v c; decide
@[simp] theorem ccZ_mkCC : ccZ (mkCC n z v c) = z := by revert n z v c; decide
@[simp] theorem ccV_mkCC : ccV (mkCC n z v c) = v := by revert n z v c; decide
@[simp] theorem ccC_mkCC : ccC (mkCC n z v c) = c := by revert n z v c; decide

end

/-! ## Results with their CC -/

/-- A row's result as the model's arithmetic holds it. -/
def IntRule.alu {w : Nat} (r : IntRule w) : Alu w := aluNZ r.val r.v r.c

/-- The operation `f` has the results of the rule `r`. -/
def Computes (f : (w : Nat) → BitVec w → BitVec w → Alu w) (r : (w : Nat) → BitVec w → BitVec w → IntRule w) : Prop :=
  ∀ (w : Nat) (a b : BitVec w), 0 < w → f w a b = (r w a b).alu

theorem mkCC_eq_append (n z v c : Bool) :
    mkCC n z v c = BitVec.ofBool n ++ BitVec.ofBool z ++ BitVec.ofBool v ++ BitVec.ofBool c := by
  revert n z v c
  decide

theorem IntRule.alu_cc {w : Nat} (r : IntRule w) : r.alu.cc = r.cc := mkCC_eq_append _ _ _ _

theorem IntRule.ccV_alu {w : Nat} (r : IntRule w) : ccV r.alu.cc = r.v := ccV_mkCC _ _ _ _

section
variable {w : Nat}

/-! ## Signed numbers of `w` bits -/

theorem fits_iff (z : Int) : fits w z = true ↔ -(2 ^ (w - 1)) ≤ z ∧ z < 2 ^ (w - 1) := by
  simp only [fits, Bool.and_eq_true, decide_eq_true_eq]

theorem fits_toInt (a : BitVec w) : fits w a.toInt = true := (fits_iff _).2 ⟨a.le_toInt, a.toInt_lt⟩

/-- A number is kept by its word exactly when it fits. -/
theorem toInt_ofInt_iff_fits (hw : 0 < w) (z : Int) : (BitVec.ofInt w z).toInt = z ↔ fits w z = true :=
  ⟨fun h => h ▸ fits_toInt _, fun h => BitVec.toInt_ofInt_eq_self hw ((fits_iff z).1 h).1 ((fits_iff z).1 h).2⟩

/-- The model's overflow test is the rule's. -/
theorem bne_toInt {r : BitVec w} (hw : 0 < w) {z : Int} (h : BitVec.ofInt w z = r) : (z != r.toInt) = !fits w z := by
  rw [← h, Bool.eq_iff_iff, bne_iff_ne, Bool.not_eq_true', ← Bool.not_eq_true, ← toInt_ofInt_iff_fits hw, ne_comm]

/-- Only the most negative number is the negative of none. -/
theorem fits_neg_toInt (hw : 0 < w) (a : BitVec w) : fits w (-a.toInt) = (a != BitVec.intMin w) := by
  have hlo := a.le_toInt
  have hhi := a.toInt_lt
  rw [Bool.eq_iff_iff, fits_iff, bne_iff_ne, ne_eq, ← BitVec.toInt_inj, BitVec.toInt_intMin_of_pos hw]
  omega

theorem fits_natAbs_toInt (hw : 0 < w) (a : BitVec w) : fits w a.toInt.natAbs = (a != BitVec.intMin w) := by
  have hlo := a.le_toInt
  have hhi := a.toInt_lt
  have hpos : (0 : Int) < 2 ^ (w - 1) := by positivity
  rw [Bool.eq_iff_iff, fits_iff, bne_iff_ne, ne_eq, ← BitVec.toInt_inj, BitVec.toInt_intMin_of_pos hw]
  omega

end

/-! ## Arithmetic and logic (R122, R125) -/

theorem ite_toNat (c : Bool) : (if c then 1 else 0) = c.toNat := by cases c <;> rfl

theorem ite_toInt (c : Bool) : (if c then (1 : Int) else 0) = c.toNat := by cases c <;> rfl

theorem computes_add (c : Bool) : Computes (aluAdd c) (addRule c.toNat) := by
  intro w a b hw
  have hr : BitVec.ofNat w (a.toNat + b.toNat + c.toNat) = a + b + BitVec.ofNat w c.toNat := by
    simp only [BitVec.ofNat_add, BitVec.ofNat_toNat, BitVec.setWidth_eq]
  have hz : BitVec.ofInt w (a.toInt + b.toInt + c.toNat) = a + b + BitVec.ofNat w c.toNat := by
    simp only [BitVec.ofInt_add, BitVec.ofInt_toInt, BitVec.ofInt_natCast]
  simp only [aluAdd, addRule, IntRule.alu, ite_toNat, hr, bne_toInt hw hz]

theorem computes_sub (c : Bool) : Computes (aluSub c) (subRule c.toNat) := by
  intro w a b hw
  have hz : BitVec.ofInt w (a.toInt - b.toInt - c.toNat) = a - b - BitVec.ofNat w c.toNat := by
    simp only [Int.sub_eq_add_neg, BitVec.sub_eq_add_neg, BitVec.ofInt_add, BitVec.ofInt_neg, BitVec.ofInt_toInt, BitVec.ofInt_natCast]
  simp only [aluSub, subRule, IntRule.alu, ite_toInt, hz, bne_toInt hw hz, ← Int.natCast_add, Int.ofNat_le]

theorem computes_logic (f : (w : Nat) → BitVec w → BitVec w → BitVec w) : Computes (aluLogic f) (plainRule f) := fun _ _ _ _ => rfl

theorem computes_mul : Computes aluMul mulRule := by
  intro w a b hw
  have hz : BitVec.ofInt w (a.toInt * b.toInt) = a * b := by rw [BitVec.ofInt_mul, BitVec.ofInt_toInt, BitVec.ofInt_toInt]
  simp only [aluMul, mulRule, IntRule.alu, hz, bne_toInt hw hz]

theorem computes_neg : Computes aluNeg negRule := by
  intro w a b hw
  have hr : 0 - a = -a := BitVec.zero_sub a
  simp only [aluNeg, negRule, IntRule.alu, fits_neg_toInt hw, hr, bne, Bool.not_not, beq_eq_decide]

theorem computes_abs : Computes aluAbs absRule := by
  intro w a b hw
  have hr : (if a.msb then -a else a) = BitVec.ofNat w a.toInt.natAbs := by
    rw [← BitVec.ofInt_natCast, BitVec.msb_eq_toInt]
    by_cases h : a.toInt < 0
    · rw [if_pos (decide_eq_true h), Int.ofNat_natAbs_of_nonpos h.le, BitVec.ofInt_neg, BitVec.ofInt_toInt]
    · rw [if_neg (by simpa using h), Int.natAbs_of_nonneg (not_lt.1 h), BitVec.ofInt_toInt]
  simp only [aluAbs, absRule, IntRule.alu, hr, fits_natAbs_toInt hw, bne, Bool.not_not]

/-- The part of a number between two powers of 2. -/
theorem emod_mul_self_ediv (z : Int) {p : Int} (hp : 0 < p) : z % (p * p) / p = z / p % p := by
  have hr := Int.emod_nonneg z hp.ne'
  have hr' := Int.emod_lt_of_pos z hp
  have hs := Int.emod_nonneg (z / p) hp.ne'
  have hs' := Int.emod_lt_of_pos (z / p) hp
  have hz := Int.emod_add_mul_ediv z p
  have hq := Int.emod_add_mul_ediv (z / p) p
  have hm : z % (p * p) = z % p + p * (z / p % p) := by
    refine ((Int.ediv_emod_unique (q := z / p / p) (by positivity)).2 ⟨?_, by positivity, by nlinarith⟩).2
    linear_combination hz + p * hq
  rw [hm, Int.add_mul_ediv_left _ _ hp.ne', Int.ediv_eq_zero_of_lt hr hr', zero_add]

/-- The upper half of a double word. -/
theorem extract_ofInt (w : Nat) (z : Int) : (BitVec.ofInt (w + w) z).extractLsb' w w = BitVec.ofInt w (z / 2 ^ w) := by
  have hp : (0 : Int) < 2 ^ w := by positivity
  refine BitVec.eq_of_toNat_eq (Int.ofNat_inj.1 ?_)
  rw [BitVec.extractLsb'_toNat, BitVec.toNat_ofInt, BitVec.toNat_ofInt, Nat.shiftRight_eq_div_pow]
  push_cast
  rw [Int.toNat_of_nonneg (Int.emod_nonneg _ (by positivity)), Int.toNat_of_nonneg (Int.emod_nonneg _ hp.ne'), pow_add,
    emod_mul_self_ediv z hp, Int.emod_emod_of_dvd _ dvd_rfl]

theorem computes_mulh : Computes aluMulh mulhRule := by
  intro w a b hw
  have hs (x : BitVec w) : x.signExtend (w + w) = BitVec.ofInt (w + w) x.toInt := rfl
  have hr : (a.signExtend (w + w) * b.signExtend (w + w)).extractLsb' w w = BitVec.ofInt w (a.toInt * b.toInt / 2 ^ w) := by
    rw [hs, hs, ← BitVec.ofInt_mul, extract_ofInt]
  simp only [aluMulh, mulhRule, IntRule.alu, hr]

theorem computes_mulhu : Computes aluMulhu mulhuRule := by
  intro w a b hw
  have hs (x : BitVec w) : x.setWidth (w + w) = BitVec.ofInt (w + w) x.toNat := by rw [BitVec.ofInt_natCast, BitVec.ofNat_toNat]
  have hr : (a.setWidth (w + w) * b.setWidth (w + w)).extractLsb' w w = BitVec.ofNat w (a.toNat * b.toNat / 2 ^ w) := by
    rw [hs, hs, ← BitVec.ofInt_mul, extract_ofInt, ← BitVec.ofInt_natCast]
    norm_cast
  simp only [aluMulhu, mulhuRule, IntRule.alu, hr]

/-! ## Shifts and rotates (R124) -/

section
variable {n w : Nat}

theorem shl_eq (a : BitVec w) : shl n w a = BitVec.ofNat w (a.toNat * 2 ^ n) := by
  have hs : shl n w a = a <<< n := by
    rw [shl]
    split
    · rename_i h
      exact (BitVec.shiftLeft_eq_zero h).symm
    · rfl
  refine BitVec.eq_of_toNat_eq ?_
  rw [hs, BitVec.toNat_shiftLeft, BitVec.toNat_ofNat, Nat.shiftLeft_eq]

theorem shr_eq (a : BitVec w) : shr n w a = BitVec.ofNat w (a.toNat / 2 ^ n) := by
  have hs : shr n w a = a >>> n := by
    rw [shr]
    split
    · rename_i h
      exact (BitVec.ushiftRight_eq_zero h).symm
    · rfl
  refine BitVec.eq_of_toNat_eq ?_
  rw [hs, BitVec.toNat_ushiftRight, BitVec.toNat_ofNat, Nat.shiftRight_eq_div_pow,
    Nat.mod_eq_of_lt ((Nat.div_le_self _ _).trans_lt a.isLt)]

/-- A number of `w` bits divided by `2 ^ w` or more is its sign. -/
theorem toInt_ediv_pow (hw : 0 < w) (a : BitVec w) (h : w ≤ n) : a.toInt / 2 ^ n = if a.toInt < 0 then -1 else 0 := by
  have hlo := a.le_toInt
  have hhi := a.toInt_lt
  have hp : (2 : Int) ^ (w - 1) ≤ 2 ^ n := pow_le_pow_right₀ (by norm_num) (by omega)
  split
  · exact Int.ediv_eq_neg_one_of_neg_of_le (by omega) (by omega)
  · exact Int.ediv_eq_zero_of_lt (by omega) (by omega)

theorem sar_eq (hw : 0 < w) (a : BitVec w) : sar n w a = BitVec.ofInt w (a.toInt / 2 ^ n) := by
  have hs : sar n w a = BitVec.ofInt w (a.toInt / 2 ^ min n w) := by
    show BitVec.ofInt w (a.toInt >>> min n w) = _
    rw [Int.shiftRight_eq_div_pow, Nat.cast_pow, Nat.cast_ofNat]
  rw [hs]
  rcases le_total n w with h | h
  · rw [min_eq_left h]
  · rw [min_eq_right h, toInt_ediv_pow hw a le_rfl, toInt_ediv_pow hw a h]

theorem rol_eq (hw : 0 < w) (a : BitVec w) : rol n w a = BitVec.ofFnLE fun i : Fin w => a.getLsbD ((i.val + (w - n % w)) % w) := by
  have hn := Nat.mod_lt n hw
  refine BitVec.eq_of_getLsbD_eq fun i hi => ?_
  rw [rol, BitVec.getLsbD_rotateLeft, BitVec.getLsbD_ofFnLE, dif_pos hi, Nat.mod_mod, decide_eq_true hi, Bool.true_and]
  generalize n % w = k at hn
  by_cases h : i < k
  · rw [decide_eq_true h, cond_true, Nat.mod_eq_of_lt (show i + (w - k) < w by omega), add_comm]
  · rw [decide_eq_false h, cond_false, show i + (w - k) = i - k + w by omega, Nat.add_mod_right, Nat.mod_eq_of_lt (by omega)]

theorem ror_eq (hw : 0 < w) (a : BitVec w) : ror n w a = BitVec.ofFnLE fun i : Fin w => a.getLsbD ((i.val + n) % w) := by
  have hn := Nat.mod_lt n hw
  refine BitVec.eq_of_getLsbD_eq fun i hi => ?_
  rw [ror, BitVec.getLsbD_rotateRight, BitVec.getLsbD_ofFnLE, dif_pos hi, Nat.mod_mod, decide_eq_true hi, Bool.true_and, Nat.add_mod,
    Nat.mod_eq_of_lt hi]
  generalize n % w = k at hn
  by_cases h : i < w - k
  · rw [decide_eq_true h, cond_true, Nat.mod_eq_of_lt (by omega), add_comm]
  · rw [decide_eq_false h, cond_false, show i + k = i - (w - k) + w by omega, Nat.add_mod_right, Nat.mod_eq_of_lt (by omega)]

end

section
variable (n : Nat)

theorem computes_shift {f : Nat → (w : Nat) → BitVec w → BitVec w} {r : (w : Nat) → BitVec w → BitVec w → IntRule w}
    (h : ∀ (w : Nat) (a b : BitVec w), 0 < w → r w a b = { val := f n w a }) : Computes (aluShift f n) r := by
  intro w a b hw
  rw [h w a b hw]
  rfl

theorem computes_sll : Computes (aluShift shl n) (sllRule n) := computes_shift n fun _ a _ _ => by rw [sllRule, shl_eq a]
theorem computes_srl : Computes (aluShift shr n) (srlRule n) := computes_shift n fun _ a _ _ => by rw [srlRule, shr_eq a]
theorem computes_sra : Computes (aluShift sar n) (sraRule n) := computes_shift n fun _ a _ hw => by rw [sraRule, sar_eq hw a]
theorem computes_rol : Computes (aluShift rol n) (rolRule n) := computes_shift n fun _ a _ hw => by rw [rolRule, rol_eq hw a]
theorem computes_ror : Computes (aluShift ror n) (rorRule n) := computes_shift n fun _ a _ hw => by rw [rorRule, ror_eq hw a]

end

end Sys2Proof.Machine
end

section
/-! Integer instructions: results, frame and the overflow trap (R120 to R126). -/

namespace Sys2Proof.Machine

section
variable {f : (w : Nat) → BitVec w → BitVec w → Alu w} {r : (w : Nat) → BitVec w → BitVec w → IntRule w}

/-! ## Results at the width of a form (R120) -/

theorem atWidth_eq (h : Computes f r) (wd : Width) (zext : Bool) (a c : W) :
    atWidth wd zext a c f = ((atForm wd zext r a c).1, (atForm wd zext r a c).2.1) := by
  cases wd with
  | d =>
    simp only [atWidth, atForm, h 64 a c (by omega), ← IntRule.alu_cc]
    rfl
  | w =>
    have hlow (v : W) : v.extractLsb' 0 32 = v.setWidth 32 := (BitVec.setWidth_eq_extractLsb' (by omega)).symm
    simp only [atWidth, atForm, hlow, h 32 _ _ (by omega), ← IntRule.alu_cc]
    rfl

theorem ccV_atForm (wd : Width) (zext : Bool) (a c : W) : ccV (atForm wd zext r a c).2.1 = (atForm wd zext r a c).2.2 := by
  cases wd <;> simp only [atForm, ← IntRule.alu_cc, IntRule.ccV_alu]

/-! ## What an instruction with an integer result comes to (R121, R126) -/

variable {s : State} {t : StrandId} {b : Body} {i : Instr} {x : Body → Res} {len : Nat} {rd : Option Reg} {wcc traps : Bool}

section
variable {v : W × BitVec 4 × Bool}

theorem ccV_zero : ccV 0 = false := BitVec.getLsbD_zero

theorem writeInt_done (hv : ccV v.2.1 = v.2.2) (h : ¬(traps = true ∧ v.2.2 = true ∧ (b.strand t).ioe = true)) :
    b.writeInt t rd (v.1, v.2.1) wcc traps = .ok (b.setStrand t ((b.strand t).intWrite rd wcc v)) none := by
  refine if_neg ?_
  rwa [hv, Bool.and_eq_true, Bool.and_eq_true, and_assoc]

theorem writeInt_overflows (hv : ccV v.2.1 = v.2.2) (ho : v.2.2 = true) (hi : (b.strand t).ioe = true) :
    b.writeInt t rd (v.1, v.2.1) wcc true = .next (b.setStrand t ((b.strand t).intWrite rd wcc v)) trapOverflow := by
  refine if_pos ?_
  rw [hv, ho, hi]
  rfl

theorem intDone_of_res (hx : exec i s = insn t i x false s) (hl : lenOf i = len) (hr : x b = b.writeInt t rd (v.1, v.2.1) wcc traps)
    (hv : ccV v.2.1 = v.2.2) : IntDone s t b i len rd wcc traps v := by
  intro h hn
  rw [hx, h.insn_ok (hr.trans (writeInt_done hv hn)), hl]
  rfl

theorem intOverflow_of_res (hx : exec i s = insn t i x false s) (hl : lenOf i = len) (hr : x b = b.writeInt t rd (v.1, v.2.1) wcc true)
    (hv : ccV v.2.1 = v.2.2) : IntOverflow s t b i len rd wcc v := by
  intro h ho hi hp
  rw [hx, h.insn_next (hr.trans (writeInt_overflows hv ho hi)) hp, hl]
  rfl

end

variable {wd : Width} {zext : Bool} {a c : W}

theorem Computes.done (h : Computes f r) (hx : exec i s = insn t i x false s) (hl : lenOf i = len)
    (hr : x b = b.writeInt t rd (atWidth wd zext a c f) wcc traps) : IntDone s t b i len rd wcc traps (atForm wd zext r a c) :=
  intDone_of_res hx hl (hr.trans (by rw [atWidth_eq h])) (ccV_atForm ..)

theorem Computes.overflows (h : Computes f r) (hx : exec i s = insn t i x false s) (hl : lenOf i = len)
    (hr : x b = b.writeInt t rd (atWidth wd zext a c f) wcc true) : IntOverflow s t b i len rd wcc (atForm wd zext r a c) :=
  intOverflow_of_res hx hl (hr.trans (by rw [atWidth_eq h])) (ccV_atForm ..)

/-! ## The carry of ADC and SBC -/

theorem carryIn_eq (b : Body) (t : StrandId) : (b.strand t).carryIn = (carry b t).toNat := by
  rw [Strand.carryIn, carry, ccC_cc, ite_toNat]

theorem computes_adc : Computes (aluAdd (carry b t)) (addRule (b.strand t).carryIn) := by
  rw [carryIn_eq]
  exact computes_add _

theorem computes_sbc : Computes (aluSub (!carry b t)) (subRule (1 - (b.strand t).carryIn)) := by
  have hc : 1 - (carry b t).toNat = (!carry b t).toNat := by cases carry b t <;> rfl
  rw [carryIn_eq, hc]
  exact computes_sub _

end

/-- Settles O4: each form computes its row of R122. -/
theorem integerRegisterResults : Obligations.IntegerRegisterResults := by
  intro s t b wd x rd ra rb a c cin
  exact ⟨(computes_add false).done rfl rfl rfl, (computes_sub false).done rfl rfl rfl, computes_adc.done rfl rfl rfl,
    computes_sbc.done rfl rfl rfl, (computes_logic _).done rfl rfl rfl, (computes_logic _).done rfl rfl rfl,
    (computes_logic _).done rfl rfl rfl, (computes_logic _).done rfl rfl rfl, computes_mul.done rfl rfl rfl,
    computes_mulh.done rfl rfl rfl, computes_mulhu.done rfl rfl rfl⟩

/-- Settles O5: the five operations, with the count of rb or of imm6. -/
theorem shiftsAndRotates : Obligations.ShiftsAndRotates := by
  intro s t b wd x rd ra rb imm a n k
  exact ⟨(computes_sll n).done rfl rfl rfl, (computes_srl n).done rfl rfl rfl, (computes_sra n).done rfl rfl rfl,
    (computes_rol n).done rfl rfl rfl, (computes_ror n).done rfl rfl rfl, (computes_sll k).done rfl rfl rfl,
    (computes_srl k).done rfl rfl rfl, (computes_sra k).done rfl rfl rfl, (computes_ror k).done rfl rfl rfl⟩

/-- Settles O6: MOVI and SHLI24 by their value, the others by their row of R122. -/
theorem unaryAndImmediateResults : Obligations.UnaryAndImmediateResults := by
  intro s t b wd cc rd ra rb q i a c
  have hs : BitVec.ofNat 64 (a.toNat * 2 ^ 24) = a <<< 24 := by
    refine BitVec.eq_of_toNat_eq ?_
    rw [BitVec.toNat_ofNat, BitVec.toNat_shiftLeft, Nat.shiftLeft_eq]
  refine ⟨computes_neg.done rfl rfl rfl, computes_abs.done rfl rfl rfl, (computes_sub false).done rfl rfl rfl,
    (computes_add false).done rfl rfl rfl, (computes_sub false).done rfl rfl rfl, (computes_add false).done rfl rfl rfl,
    (computes_logic _).done rfl rfl rfl, (computes_logic _).done rfl rfl rfl, (computes_logic _).done rfl rfl rfl,
    computes_mul.done rfl rfl rfl, intDone_of_res rfl rfl rfl ccV_zero, ?_, (computes_sub false).done rfl rfl rfl⟩
  rw [hs]
  exact intDone_of_res rfl rfl rfl ccV_zero

/-- Settles O7: each form computes its row of R122, and its overflow is trapped. -/
theorem overflowTrapsAfterWriting : Obligations.OverflowTrapsAfterWriting := by
  intro s t b wd x rd ra rb q i a c cin
  exact ⟨(computes_add false).overflows rfl rfl rfl, (computes_sub false).overflows rfl rfl rfl, computes_adc.overflows rfl rfl rfl,
    computes_sbc.overflows rfl rfl rfl, computes_mul.overflows rfl rfl rfl, computes_neg.overflows rfl rfl rfl,
    computes_abs.overflows rfl rfl rfl, (computes_add false).overflows rfl rfl rfl, (computes_add false).overflows rfl rfl rfl,
    computes_mul.overflows rfl rfl rfl⟩

end Sys2Proof.Machine
end

section
/-! A division sequence: DSTART, the steps and DEND as functions of registers (R129 to R132). -/

namespace Sys2Proof.Machine

/-! ## The steps (R130) -/

section
variable {d : W}

/-- One step on an accumulator below the divisor: accumulator and shifter as one number of 128 bits move left by a digit, the digit `q` of
the quotient comes in, and `q` times the divisor leaves the accumulator. -/
theorem divStep_moves {acc sh : W} (h : acc.toNat < d.toNat) :
    ∃ q < 16, (divStep acc sh d).1.toNat < d.toNat ∧
      (divStep acc sh d).1.toNat * 2 ^ 64 + (divStep acc sh d).2.toNat + q * (d.toNat * 2 ^ 64) = 16 * (acc.toNat * 2 ^ 64 + sh.toNat) + q := by
  have hd : d ≠ 0 := by rintro rfl; exact absurd h (Nat.not_lt_zero _)
  have hpos : 0 < d.toNat := by omega
  have hsh := sh.isLt
  set u := acc.toNat * 16 + sh.toNat / 2 ^ 60 with hu
  have hq : u / d.toNat < 16 := by rw [Nat.div_lt_iff_lt_mul hpos]; omega
  have hr : u - u / d.toNat * d.toNat = u % d.toNat := by rw [Nat.mod_eq_sub_div_mul]
  have hlt : u % d.toNat < d.toNat := Nat.mod_lt _ hpos
  have hacc : (divStep acc sh d).1.toNat = u % d.toNat := by
    simp only [divStep, if_neg hd, ← hu, min_eq_right (Nat.le_of_lt_succ hq), hr, BitVec.toNat_ofNat]
    exact Nat.mod_eq_of_lt (by omega)
  have hshift : (divStep acc sh d).2.toNat = sh.toNat * 16 % 2 ^ 64 + u / d.toNat := by
    simp only [divStep, if_neg hd, ← hu, min_eq_right (Nat.le_of_lt_succ hq), BitVec.toNat_ofNat]
    exact Nat.mod_eq_of_lt (by omega)
  have hdm := Nat.mod_add_div' u d.toNat
  refine ⟨u / d.toNat, hq, hacc ▸ hlt, ?_⟩
  rw [hacc, hshift, ← mul_assoc]
  omega

theorem divSteps_succ (n : Nat) (acc sh : W) :
    divSteps d (n + 1) (acc, sh) = divSteps d n ((divStep acc sh d).1, (divStep acc sh d).2) := rfl

/-- What the digits of `n` steps leave: the quotient `q` that they make has come in from the right. -/
theorem divSteps_moves (n : Nat) {acc sh : W} (h : acc.toNat < d.toNat) :
    ∃ q < 16 ^ n, (divSteps d n (acc, sh)).1.toNat < d.toNat ∧
      (divSteps d n (acc, sh)).1.toNat * 2 ^ 64 + (divSteps d n (acc, sh)).2.toNat + q * (d.toNat * 2 ^ 64) =
        16 ^ n * (acc.toNat * 2 ^ 64 + sh.toNat) + q := by
  induction n generalizing acc sh with
  | zero => exact ⟨0, by omega, h, by simp [divSteps]⟩
  | succ n ih =>
    obtain ⟨q, hq, hlt, he⟩ := divStep_moves (sh := sh) h
    obtain ⟨p, hp, hlt', he'⟩ := ih (sh := (divStep acc sh d).2) hlt
    refine ⟨16 ^ n * q + p, by rw [pow_succ]; nlinarith, hlt', ?_⟩
    rw [divSteps_succ]
    linear_combination he' + 16 ^ n * he

/-- The digits of a dividend of `n` digits at the left end of the shifter: `n` steps divide it. -/
theorem divSteps_divides {n a : Nat} (hn : n ≤ 16) (ha : a < 16 ^ n) (hd : d ≠ 0) :
    (divSteps d n (0, BitVec.ofNat 64 (a * 2 ^ (64 - 4 * n)))).1.toNat = a % d.toNat ∧
    (divSteps d n (0, BitVec.ofNat 64 (a * 2 ^ (64 - 4 * n)))).2.toNat = a / d.toNat := by
  have hpos : 0 < d.toNat := Nat.pos_of_ne_zero fun h => hd (BitVec.eq_of_toNat_eq h)
  have hpow : 16 ^ n * 2 ^ (64 - 4 * n) = 2 ^ 64 := by
    rw [show (16 : Nat) = 2 ^ 4 from rfl, ← pow_mul, ← pow_add]
    exact congrArg _ (by omega)
  have hn64 : 16 ^ n ≤ 2 ^ 64 := Nat.le_of_dvd (by norm_num) ⟨_, hpow.symm⟩
  have hsh : (BitVec.ofNat 64 (a * 2 ^ (64 - 4 * n))).toNat = a * 2 ^ (64 - 4 * n) := by
    rw [BitVec.toNat_ofNat, Nat.mod_eq_of_lt]
    calc a * 2 ^ (64 - 4 * n) < 16 ^ n * 2 ^ (64 - 4 * n) := Nat.mul_lt_mul_of_pos_right ha (Nat.two_pow_pos _)
      _ = 2 ^ 64 := hpow
  obtain ⟨q, hq, hlt, he⟩ := divSteps_moves (d := d) n (acc := 0) (sh := BitVec.ofNat 64 (a * 2 ^ (64 - 4 * n))) hpos
  set e := divSteps d n (0, BitVec.ofNat 64 (a * 2 ^ (64 - 4 * n)))
  have h16 : 16 ^ n * (a * 2 ^ (64 - 4 * n)) = a * 2 ^ 64 := by rw [← hpow]; ring
  rw [hsh, show (0 : W).toNat = 0 from rfl, zero_mul, zero_add, h16, ← mul_assoc] at he
  have hsq : e.2.toNat = q ∧ e.1.toNat + q * d.toNat = a := by
    have := e.2.isLt
    omega
  obtain ⟨hs, hm⟩ := hsq
  have hdiv : a / d.toNat = q := by rw [← hm, Nat.add_mul_div_right _ _ hpos, Nat.div_eq_of_lt hlt, zero_add]
  have hmod : a % d.toNat = e.1.toNat := by rw [← hm, Nat.add_mul_mod_self_right, Nat.mod_eq_of_lt hlt]
  exact ⟨hmod.symm, by rw [hs, hdiv]⟩

end

/-! ## Operands and results as integers (R129, R131) -/

section
variable {w : Nat} {x : Bool}

/-- Is the operand negative, and is its sign looked at? -/
def divNeg (w : Nat) (x : Bool) (v : W) : Bool := !x && 2 ^ (w - 1) ≤ v.toNat % 2 ^ w

/-- What DSTART divides for an operand: the number without its sign. -/
def divMag (w : Nat) (x : Bool) (v : W) : Nat := if divNeg w x v then 2 ^ w - v.toNat % 2 ^ w else v.toNat % 2 ^ w

/-- The number that an operand stands for at width `w`. -/
def divVal (w : Nat) (x : Bool) (v : W) : Int := if x then ((v.setWidth w).toNat : Int) else (v.setWidth w).toInt

/-- A number as a result of DEND at width `w` (R120). -/
def divExt (w : Nat) (x : Bool) (z : Int) : W := if x then (BitVec.ofInt w z).setWidth 64 else (BitVec.ofInt w z).signExtend 64

/-- A number from its sign and what it is without it. -/
def signed (neg : Bool) (m : Nat) : Int := if neg then -(m : Int) else m

theorem divStart_eq (w : Nat) (x : Bool) (a d : W) :
    divStart w x a d = (mkCC (divNeg w x a != divNeg w x d) (divMag w x d = 0)
      (!x && a.toNat % 2 ^ w = 2 ^ (w - 1) && d.toNat % 2 ^ w = 2 ^ w - 1) (divNeg w x a),
      BitVec.ofNat 64 (divMag w x a * 2 ^ (64 - w)), BitVec.ofNat 64 (divMag w x d)) := rfl

theorem divNeg_iff (v : W) : divNeg w x v = true ↔ x = false ∧ 2 ^ (w - 1) ≤ v.toNat % 2 ^ w := by
  simp only [divNeg, Bool.and_eq_true, Bool.not_eq_true', decide_eq_true_eq]

theorem divMag_lt (v : W) : divMag w x v < 2 ^ w := by
  have hp := Nat.two_pow_pos (w - 1)
  rw [divMag]
  split
  · rename_i hn
    have hge := ((divNeg_iff v).1 hn).2
    omega
  · exact Nat.mod_lt v.toNat (Nat.two_pow_pos w)

theorem divMag_eq_zero (v : W) : divMag w x v = 0 ↔ v.setWidth w = 0 := by
  have h := Nat.mod_lt v.toNat (Nat.two_pow_pos w)
  have hp := Nat.two_pow_pos (w - 1)
  rw [← BitVec.toNat_inj, BitVec.toNat_setWidth, show (0 : BitVec w).toNat = 0 from BitVec.toNat_zero, divMag]
  split
  · rename_i hn
    have hge := ((divNeg_iff v).1 hn).2
    omega
  · exact Iff.rfl

theorem divVal_eq (hw : 0 < w) (v : W) : divVal w x v = signed (divNeg w x v) (divMag w x v) := by
  have h := Nat.mod_lt v.toNat (Nat.two_pow_pos w)
  have hp : 2 ^ w = 2 * 2 ^ (w - 1) := by rw [← pow_succ', Nat.sub_add_cancel hw]
  cases x
  · have hi := BitVec.toInt_eq_toNat_cond (v.setWidth w)
    simp only [BitVec.toNat_setWidth] at hi
    simp only [divVal, signed, divMag, divNeg, hi, Bool.false_eq_true, if_false, Bool.not_false, Bool.true_and, decide_eq_true_eq]
    by_cases hn : 2 ^ (w - 1) ≤ v.toNat % 2 ^ w
    · rw [if_pos hn, if_pos hn, if_neg (by omega)]
      omega
    · rw [if_neg hn, if_neg hn, if_pos (by omega)]
  · simp only [divVal, signed, divMag, divNeg, Bool.not_true, Bool.false_and, Bool.false_eq_true, if_true, if_false, BitVec.toNat_setWidth]

/-- The sign that DEND gives to what the steps have left. -/
theorem divExt_signed {n : Nat} (h : n < 2 ^ w) (neg : Bool) :
    divExt w x (signed neg n) =
      (let m := if neg then (2 ^ w - n) % 2 ^ w else n
       if x then BitVec.ofNat 64 m else (BitVec.ofNat w m).signExtend 64) := by
  have hm : BitVec.ofInt w (signed neg n) = BitVec.ofNat w (if neg then (2 ^ w - n) % 2 ^ w else n) := by
    cases neg
    · simp [signed]
    · have hneg : BitVec.ofNat w ((2 ^ w - n) % 2 ^ w) = -BitVec.ofNat w n := by
        refine BitVec.eq_of_toNat_eq ?_
        rw [BitVec.toNat_neg, BitVec.toNat_ofNat, BitVec.toNat_ofNat, Nat.mod_eq_of_lt h, Nat.mod_mod]
      rw [if_pos rfl, hneg, BitVec.neg_ofNat_eq_ofInt_neg]
      rfl
  have hlt : (if neg then (2 ^ w - n) % 2 ^ w else n) < 2 ^ w := by
    split
    · exact Nat.mod_lt _ (Nat.two_pow_pos w)
    · exact h
  simp only [divExt, hm]
  cases x
  · rfl
  · refine BitVec.eq_of_toNat_eq ?_
    simp only [if_true, BitVec.toNat_setWidth, BitVec.toNat_ofNat, Nat.mod_eq_of_lt hlt]

theorem tdiv_signed (p q : Bool) (m k : Nat) : (signed p m).tdiv (signed q k) = signed (p != q) (m / k) := by
  have h : (m : Int).tdiv k = (m / k : Nat) := rfl
  cases p
  · cases q
    · exact h
    · exact (Int.tdiv_neg _ _).trans (congrArg _ h)
  · cases q
    · exact (Int.neg_tdiv _ _).trans (congrArg _ h)
    · exact (Int.neg_tdiv_neg _ _).trans h

theorem tmod_signed (p q : Bool) (m k : Nat) : (signed p m).tmod (signed q k) = signed p (m % k) := by
  have h : (m : Int).tmod (signed q k) = (m % k : Nat) := by
    cases q
    · rfl
    · exact Int.tmod_neg _ _
  cases p
  · exact h
  · exact (Int.neg_tmod _ _).trans (congrArg _ h)

/-- DEND on what the steps have left, the divisor not being zero. -/
theorem divEnd_signed {cc : BitVec 4} (hz : ccZ cc = false) {acc sh : W} (ha : acc.toNat < 2 ^ w) (hs : sh.toNat < 2 ^ w) :
    (divEnd w x cc acc sh).1 = divExt w x (signed (ccN cc) sh.toNat) ∧
    (divEnd w x cc acc sh).2.1 = divExt w x (signed (ccC cc) acc.toNat) := by
  rw [divExt_signed hs, divExt_signed ha]
  simp only [divEnd, hz, Bool.false_eq_true, if_false, Nat.mod_eq_of_lt ha, Nat.mod_eq_of_lt hs, and_self]

/-- DSTART, a step for each digit of the width, and DEND. -/
theorem division_exact {n : Nat} (h0 : 0 < n) (hn : n ≤ 16) (x : Bool) (a : W) {d : W} (hd : d.setWidth (4 * n) ≠ 0) :
    let p := divStart (4 * n) x a d
    let e := divSteps p.2.2 n (0, p.2.1)
    let r := divEnd (4 * n) x p.1 e.1 e.2
    r.1 = divExt (4 * n) x ((divVal (4 * n) x a).tdiv (divVal (4 * n) x d)) ∧
      r.2.1 = divExt (4 * n) x ((divVal (4 * n) x a).tmod (divVal (4 * n) x d)) := by
  intro p e r
  have hmd : divMag (4 * n) x d ≠ 0 := mt (divMag_eq_zero d).1 hd
  have h16 : 2 ^ (4 * n) = 16 ^ n := by rw [pow_mul]; norm_num
  have h64 : 2 ^ (4 * n) ≤ 2 ^ 64 := Nat.pow_le_pow_right (by omega) (by omega)
  have hma : divMag (4 * n) x a < 2 ^ (4 * n) := divMag_lt a
  have hdlt : divMag (4 * n) x d < 2 ^ (4 * n) := divMag_lt d
  have hdn : (BitVec.ofNat 64 (divMag (4 * n) x d)).toNat = divMag (4 * n) x d := by
    rw [BitVec.toNat_ofNat, Nat.mod_eq_of_lt (by omega)]
  have hd0 : BitVec.ofNat 64 (divMag (4 * n) x d) ≠ 0 := fun h => hmd (by rw [← hdn, h]; rfl)
  obtain ⟨hr, hq⟩ := divSteps_divides hn (h16 ▸ hma) hd0
  rw [hdn] at hr hq
  obtain ⟨h1, h2⟩ := divEnd_signed (w := 4 * n) (x := x) (cc := p.1) (acc := e.1) (sh := e.2)
    (by simp [p, divStart_eq, hmd])
    (hr ▸ (Nat.mod_le _ _).trans_lt hma) (hq ▸ (Nat.div_le_self _ _).trans_lt hma)
  have hN : ccN p.1 = (divNeg (4 * n) x a != divNeg (4 * n) x d) := by simp [p, divStart_eq]
  have hC : ccC p.1 = divNeg (4 * n) x a := by simp [p, divStart_eq]
  rw [divVal_eq (by omega), divVal_eq (by omega), tdiv_signed, tmod_signed]
  exact ⟨h1.trans (by rw [hN]; exact congrArg _ (congrArg _ hq)), h2.trans (by rw [hC]; exact congrArg _ (congrArg _ hr))⟩

end

/-- Settles O9: 16 digits for .D, 8 for .W. -/
theorem divisionSequenceIsExact : Obligations.DivisionSequenceIsExact := by
  intro wd x a d
  cases wd with
  | d => exact division_exact (n := 16) (by omega) (by omega) x a
  | w => exact division_exact (n := 8) (by omega) (by omega) x a

end Sys2Proof.Machine
end

section
/-! DSTART, DSTEP and DEND: registers, CC and traps (R127 to R131). -/

namespace Sys2Proof.Machine

/-! ## Registers and CC in the terms of the rules -/

theorem divRegs_iff {rd ra rb : Reg} : divRegs rd ra rb = true ↔ rd ≠ 0 ∧ ra ≠ 0 ∧ rb ≠ 0 ∧ rd ≠ ra ∧ rd ≠ rb ∧ ra ≠ rb := by
  simp only [divRegs, Bool.and_eq_true, bne_iff_ne, and_assoc]

theorem mkCC_of_iff {n z v c : Bool} {N Z V C : Prop} [Decidable N] [Decidable Z] [Decidable V] [Decidable C] (hn : n = true ↔ N)
    (hz : z = true ↔ Z) (hv : v = true ↔ V) (hc : c = true ↔ C) :
    mkCC n z v c = BitVec.ofNat 4 ((if N then 8 else 0) + (if Z then 4 else 0) + (if V then 2 else 0) + (if C then 1 else 0)) := by
  rw [mkCC, if_congr hn rfl rfl, if_congr hz rfl rfl, if_congr hv rfl rfl, if_congr hc rfl rfl]

/-- What DSTART leaves, the signs being `sa` and `sd` (R129). -/
theorem divStart_of_signs {w : Nat} {x : Bool} {a d : W} {sa sd : Prop} [Decidable sa] [Decidable sd] (ha : divNeg w x a = true ↔ sa)
    (hd : divNeg w x d = true ↔ sd) :
    divStart w x a d =
      (BitVec.ofNat 4 ((if ¬(sa ↔ sd) then 8 else 0) + (if d.toNat % 2 ^ w = 0 then 4 else 0) +
        (if x = false ∧ a.toNat % 2 ^ w = 2 ^ (w - 1) ∧ d.toNat % 2 ^ w = 2 ^ w - 1 then 2 else 0) + (if sa then 1 else 0)),
      BitVec.ofNat 64 ((if sa then 2 ^ w - a.toNat % 2 ^ w else a.toNat % 2 ^ w) * 2 ^ (64 - w)),
      BitVec.ofNat 64 (if sd then 2 ^ w - d.toNat % 2 ^ w else d.toNat % 2 ^ w)) := by
  have hzero : divMag w x d = 0 ↔ d.toNat % 2 ^ w = 0 := by
    rw [divMag_eq_zero, ← BitVec.toNat_inj, BitVec.toNat_setWidth]
    exact Iff.of_eq (congrArg _ BitVec.toNat_zero)
  rw [divStart_eq, mkCC_of_iff (N := ¬(sa ↔ sd)) (by rw [bne_iff_ne, ne_eq, Bool.eq_iff_iff, ha, hd]) (decide_eq_true_iff.trans hzero)
    (V := x = false ∧ a.toNat % 2 ^ w = 2 ^ (w - 1) ∧ d.toNat % 2 ^ w = 2 ^ w - 1)
    (by simp only [Bool.and_eq_true, Bool.not_eq_true', decide_eq_true_eq, and_assoc]) ha,
    divMag, divMag, if_congr ha rfl rfl, if_congr hd rfl rfl]

/-- DEND, a zero divisor giving the quotient and the CC that R131 states for it. -/
theorem divEnd_eq (w : Nat) (x : Bool) (cc : BitVec 4) (acc sh : W) :
    divEnd w x cc acc sh =
      (let neg (p : Bool) (v : Nat) : Nat := if p then (2 ^ w - v) % 2 ^ w else v
       let ext (v : Nat) : W := if x then BitVec.ofNat 64 v else (BitVec.ofNat w v).signExtend 64
       let q := if ccZ cc = true then 2 ^ w - 1 else neg (ccN cc) (sh.toNat % 2 ^ w)
       (ext q, ext (neg (ccC cc) (acc.toNat % 2 ^ w)),
        if ccZ cc = true then 14 else BitVec.ofNat 4 ((if 2 ^ (w - 1) ≤ q then 8 else 0) + (if q = 0 then 4 else 0) +
          (if ¬ccZ cc = true ∧ ccV cc = true ∧ x = false then 2 else 0)))) := by
  by_cases hz : ccZ cc = true
  · simp only [divEnd, hz, if_true]
    rfl
  · simp only [divEnd, hz, Bool.false_eq_true, if_false, not_false_eq_true, true_and]
    rw [mkCC_of_iff decide_eq_true_iff decide_eq_true_iff (V := ccV cc = true ∧ x = false)
      (by rw [Bool.and_eq_true, Bool.not_eq_true']) (C := False) (by simp)]
    rfl

/-- A step, whose accumulator keeps its value when the divisor is zero (R130). -/
theorem divStep_eq (acc sh d : W) :
    divStep acc sh d =
      (let v := acc.toNat * 16 + sh.toNat / 2 ^ 60
       let q := if d = 0 then 15 else min 15 (v / d.toNat)
       (BitVec.ofNat 64 (v - q * d.toNat), BitVec.ofNat 64 (sh.toNat * 16 % 2 ^ 64 + q))) := by
  by_cases hd : d = 0
  · subst hd
    rfl
  · simp only [divStep, if_neg hd]

section
variable {s : State} {t : StrandId} {b : Body} {wd : Width} {x : Bool} {rd ra rb : Reg}

/-! ## What each instruction comes to -/

theorem dstartRes_done (hg : divRegs rd ra rb = true)
    (hz : ¬(((b.strand t).reg rb).toNat % 2 ^ widthBits wd = 0 ∧ (b.strand t).dze = true)) :
    dstartRes b t wd x rd ra rb = .ok (b.setStrand t
      (((((b.strand t).setReg rd 0).setReg ra (divStart (widthBits wd) x ((b.strand t).reg ra) ((b.strand t).reg rb)).2.1).setReg rb
        (divStart (widthBits wd) x ((b.strand t).reg ra) ((b.strand t).reg rb)).2.2).setCC
          (divStart (widthBits wd) x ((b.strand t).reg ra) ((b.strand t).reg rb)).1)) none := by
  simp only [dstartRes, hg, Bool.not_true, Bool.false_eq_true, if_false, Bool.and_eq_true, decide_eq_true_eq, if_neg hz]

theorem dstartRes_check (hg : divRegs rd ra rb = true) (hz : ((b.strand t).reg rb).toNat % 2 ^ widthBits wd = 0)
    (hd : (b.strand t).dze = true) : dstartRes b t wd x rd ra rb = .trap b trapDivide := by
  simp only [dstartRes, hg, Bool.not_true, Bool.false_eq_true, if_false, hz, hd, decide_true, Bool.and_self, if_true]

theorem dstepRes_done (hg : divRegs rd ra rb = true) :
    dstepRes b t rd ra rb = .ok (b.setStrand t
      (((b.strand t).setReg ra (divStep ((b.strand t).reg rd) ((b.strand t).reg ra) ((b.strand t).reg rb)).2).setReg rd
        (divStep ((b.strand t).reg rd) ((b.strand t).reg ra) ((b.strand t).reg rb)).1)) none := by
  simp only [dstepRes, hg, Bool.not_true, Bool.false_eq_true, if_false]

/-- The registers after DEND. -/
def Strand.divided (u : Strand) (wd : Width) (x : Bool) (rd ra : Reg) : Strand :=
  let e := divEnd (widthBits wd) x u.cc (u.reg rd) (u.reg ra)
  ((u.setReg ra e.1).setReg rd e.2.1).setCC e.2.2

/-- DEND finds the overflow that DSTART has left in V. -/
def Strand.divOverflow (u : Strand) (x : Bool) : Prop := ¬u.status.getLsbD 14 = true ∧ u.status.getLsbD 13 = true ∧ x = false

theorem ccV_divEnd {w : Nat} {cc : BitVec 4} (hz : ccZ cc = false) (acc sh : W) : ccV (divEnd w x cc acc sh).2.2 = (ccV cc && !x) := by
  simp only [divEnd, hz, Bool.false_eq_true, if_false, ccV_mkCC]

theorem divOverflow_iff {w : Nat} (u : Strand) (acc sh : W) :
    (!ccZ u.cc && ccV (divEnd w x u.cc acc sh).2.2 && u.ioe) = true ↔ u.divOverflow x ∧ u.ioe = true := by
  rw [Strand.divOverflow, ← ccZ_cc, ← ccV_cc]
  cases hz : ccZ u.cc
  · simp [ccV_divEnd hz, and_assoc]
  · simp

theorem dendRes_done (hg : divRegs rd ra rb = true) (h : ¬((b.strand t).divOverflow x ∧ (b.strand t).ioe = true)) :
    dendRes b t wd x rd ra rb = .ok (b.setStrand t ((b.strand t).divided wd x rd ra)) none := by
  simp only [dendRes, hg, Bool.not_true, Bool.false_eq_true, if_false]
  exact if_neg (mt (divOverflow_iff _ _ _).1 h)

theorem dendRes_overflows (hg : divRegs rd ra rb = true) (h : (b.strand t).divOverflow x) (hi : (b.strand t).ioe = true) :
    dendRes b t wd x rd ra rb = .next (b.setStrand t ((b.strand t).divided wd x rd ra)) trapOverflow := by
  simp only [dendRes, hg, Bool.not_true, Bool.false_eq_true, if_false]
  exact if_pos ((divOverflow_iff _ _ _).2 ⟨h, hi⟩)

theorem division_illegal (hg : ¬divRegs rd ra rb = true) :
    dstartRes b t wd x rd ra rb = .trap b trapIllegal ∧ dstepRes b t rd ra rb = .trap b trapIllegal ∧
      dendRes b t wd x rd ra rb = .trap b trapIllegal := by
  simp only [dstartRes, dstepRes, dendRes, hg, Bool.not_false, if_true, illegal, and_self]

end

/-- Settles O8: the registers of the three by the functions of the rules, and their traps. -/
theorem divisionInstructions : Obligations.DivisionInstructions := by
  intro s t b wd x rd ra rb u w low good a d sa sd mag flag
  have hw : w = widthBits wd := by cases wd <;> rfl
  clear_value w
  subst hw
  refine ⟨fun h hg hz => ?_, fun h hg hz hd hp => ?_, fun h hg => ?_, fun h hg => ?_, fun i hi h hg hp => ?_⟩
  · refine (h.insn_ok (x := fun b => dstartRes b t wd x rd ra rb) (dstartRes_done (divRegs_iff.2 hg) hz)).trans ?_
    rw [divStart_of_signs (divNeg_iff _) (divNeg_iff _)]
    rfl
  · exact h.traps (x := fun b => dstartRes b t wd x rd ra rb) hp (dstartRes_check (divRegs_iff.2 hg) hz hd) rfl
  · intro v q
    refine (h.insn_ok (x := fun b => dstepRes b t rd ra rb) (dstepRes_done (divRegs_iff.2 hg))).trans ?_
    rw [divStep_eq]
    rfl
  · intro zero neg q r ovf ext cc u'
    have hu : (b.strand t).divided wd x rd ra = u' := by
      simp only [Strand.divided, divEnd_eq, ccZ_cc, ccN_cc, ccC_cc, ccV_cc]
      rfl
    rw [← hu]
    refine ⟨fun hn => ?_, fun ho hi hp => ?_⟩
    · exact h.insn_ok (x := fun b => dendRes b t wd x rd ra rb) (dendRes_done (divRegs_iff.2 hg) hn)
    · exact h.insn_next (x := fun b => dendRes b t wd x rd ra rb) (dendRes_overflows (divRegs_iff.2 hg) ho hi) hp
  · obtain ⟨hstart, hstep, hend⟩ := division_illegal (b := b) (t := t) (wd := wd) (x := x) (mt divRegs_iff.1 hg)
    simp only [List.mem_cons, List.not_mem_nil, or_false] at hi
    rcases hi with rfl | rfl | rfl
    · exact h.traps (x := fun b => dstartRes b t wd x rd ra rb) hp hstart rfl
    · exact h.traps (x := fun b => dstepRes b t rd ra rb) hp hstep rfl
    · exact h.traps (x := fun b => dendRes b t wd x rd ra rb) hp hend rfl

end Sys2Proof.Machine
end

section
/-! BMOVE (R139, R140). -/

namespace Sys2Proof.Machine

section
variable {s : State} {t : StrandId} {b b1 b2 b3 b4 : Body} {rd ra rb : Reg} {ps : List Piece} {gs : List Seg} {bytes : List Byte}

/-- Bytes of the next chunk. -/
def Strand.chunk (u : Strand) (rb : Reg) : Nat := min (u.reg rb).toNat 256

/-- The three registers, advanced by `n` bytes. -/
def Strand.copied (u : Strand) (rd ra rb : Reg) (n : Nat) : Strand :=
  ((u.setReg rd (u.reg rd + BitVec.ofNat 64 n)).setReg ra (u.reg ra + BitVec.ofNat 64 n)).setReg rb (u.reg rb - BitVec.ofNat 64 n)

theorem bufferStore_pend (h : b.bufferStore t gs bytes = some b1) : (b1.strand t).pend = (b.strand t).pend := by
  unfold Body.bufferStore at h
  dsimp only at h
  split at h
  · rw [← Option.some.inj h, Body.strand_setStrand]
    rfl
  · exact nomatch h

theorem bmoveRes_illegal (hg : ¬divRegs rd ra rb = true) : bmoveRes b t rd ra rb = .trap b trapIllegal := by
  have h := Bool.eq_false_iff.2 hg
  rw [divRegs] at h
  simp only [bmoveRes, h, Bool.not_false, if_true, illegal]

theorem bmoveRes_nothing (hg : divRegs rd ra rb = true) (h0 : (b.strand t).reg rb = 0) : bmoveRes b t rd ra rb = .ok b none := by
  rw [divRegs] at hg
  simp only [bmoveRes, hg, Bool.not_true, Bool.false_eq_true, if_false, if_pos h0]

/-- A chunk that is read and buffered: the registers advance, and with nothing left the instruction completes. -/
theorem bmoveRes_chunk (hg : divRegs rd ra rb = true) (h0 : (b.strand t).reg rb ≠ 0)
    (ht : b.translate t needLoad (b.strand t).dataPrv ((b.strand t).reg ra).toNat ((b.strand t).chunk rb) = .ok b1 ps)
    (hc : b1.readCheck t (segsOf ps) = none)
    (hs : b1.storeVa t needStore (b.strand t).dataPrv ((b.strand t).reg rd).toNat ((b.strand t).chunk rb) = .ok b2 gs)
    (hr : b2.readSegs t (segsOf ps) = .ok b3 bytes) (hb : b3.bufferStore t gs bytes = some b4) :
    bmoveRes b t rd ra rb =
      (let v := (b4.strand t).copied rd ra rb ((b.strand t).chunk rb)
       if v.reg rb = 0 then .ok (b4.setStrand t v) none else .hold (b4.setStrand t { v with oldSlip := false })) := by
  rw [divRegs] at hg
  rw [Strand.chunk] at ht hs
  simp only [bmoveRes, hg, Bool.not_true, Bool.false_eq_true, if_false, if_neg h0, ht, hc, hs, hr, hb, LRes.then, Body.modStrand_eq,
    Body.strand_setStrand, Body.setStrand_setStrand, Body.interiorCommit]
  rfl

end

/-- Settles O22: a chunk by what its accesses obtain, and the floating exception that may be pending by what they leave of the strand. -/
theorem blockMove : Obligations.BlockMove := by
  intro s t b b1 b2 b3 b4 rd ra rb ps gs bytes u n k good v v' h
  refine ⟨fun hg h0 => ?_, fun hg h0 ht hc hs hr hb => ?_, fun hg hp => ?_⟩
  · exact h.insn_ok_same (x := fun b => bmoveRes b t rd ra rb) (bmoveRes_nothing (divRegs_iff.2 hg) h0)
  · have hx := bmoveRes_chunk (divRegs_iff.2 hg) h0 ht hc hs hr hb
    have hp : (b4.strand t).pend = (b.strand t).pend :=
      (bufferStore_pend hb).trans ((readSegs_pend hr).trans ((storeVa_pend hs).trans (translate_pend ht)))
    refine ⟨fun hz => ?_, fun hz => ?_⟩
    · exact h.insn_done (x := fun b => bmoveRes b t rd ra rb) (hx.trans (if_pos hz)) hp
    · exact h.insn_hold (x := fun b => bmoveRes b t rd ra rb) (hx.trans (if_neg hz))
  · exact h.traps (x := fun b => bmoveRes b t rd ra rb) hp (bmoveRes_illegal (mt divRegs_iff.1 hg)) rfl

end Sys2Proof.Machine
end

section
/-! Completion of a floating instruction, and FCVTIF, FCMP, FMOV, FMVG, FLD, FST and FPSYNC (R148, R149, R157, R161, R164). -/

namespace Sys2Proof.Machine

section
variable {s : State} {t : StrandId} {i : Instr} {b b' b1 : Body} {f : FFmt} {rnd : BitVec 3} {rd fd fa fb ra base : Reg} {disp : BitVec 24}

/-- The rounding fields that R149 allows. -/
theorem rndOk_iff : rndOk rnd = true ↔ rnd.toNat ≤ 4 ∨ rnd = 7 := by
  revert rnd
  decide

/-- At TL 0 a floating instruction is legal (R49). -/
theorem fpLevel_of_tl (h : (b.strand t).tl = 0) (x : Res) : fpLevel b t x = x := if_pos h

/-- A floating instruction that completes at TL 0 and has changed its own strand alone. -/
theorem Runs.float_ok (h : Runs s t i b) (h0 : (b.strand t).tl = 0) {y : Body → Res} {u : Strand} (hy : y b = .ok (b.setStrand t u) none) :
    insn t i (fun b => fpLevel b t (y b)) false s = .next (finish s b t u (b.seqPc t (lenOf i))) :=
  h.insn_ok (x := fun b => fpLevel b t (y b)) ((fpLevel_of_tl h0 _).trans hy)

/-- The same of an instruction with a rounding field that R149 allows. -/
theorem Runs.float_ok_of_rndOk (h : Runs s t i b) (h0 : (b.strand t).tl = 0) (hr : rndOk rnd = true) {y : Body → Res} {u : Strand}
    (hy : y b = .ok (b.setStrand t u) none) :
    insn t i (fun b => if rndOk rnd then fpLevel b t (y b) else illegal b) false s = .next (finish s b t u (b.seqPc t (lenOf i))) := by
  simp only [hr, if_true]
  exact h.float_ok h0 hy

/-! ## FMVG (R148) -/

theorem fmvgRes_read (h : (b.strand t).tl = 0) {hi : Reg} (hh : hi.toNat ≤ 1) :
    fmvgRes b t true rd fa hi =
      .ok (b.setStrand t ((b.strand t).setReg rd (((b.strand t).freg fa).extractLsb' (if hi = 0 then 0 else 64) 64))) none := by
  simp only [fmvgRes, if_neg (Nat.not_lt.2 hh), fpLevel_of_tl h, if_true, doneReg, Body.modStrand_eq]

/-- The f register that FMVG leaves, of its old value and a general register. -/
def fmvgWord (hi : Reg) (x : W) (old : BitVec 128) : BitVec 128 :=
  if hi = 0 then x.setWidth 128 else (x.setWidth 128 <<< 64) ||| (old.extractLsb' 0 64).setWidth 128

theorem fmvgRes_write (h : (b.strand t).tl = 0) {hi : Reg} (hh : hi.toNat ≤ 1) :
    fmvgRes b t false fd ra hi =
      .ok (b.setStrand t ((b.strand t).setFreg fd (fmvgWord hi ((b.strand t).reg ra) ((b.strand t).freg fd)))) none := by
  simp only [fmvgRes, if_neg (Nat.not_lt.2 hh), fpLevel_of_tl h, Bool.false_eq_true, if_false, fmvgWord]

theorem fmvgRes_writeLow (h : (b.strand t).tl = 0) :
    fmvgRes b t false fd ra 0 = .ok (b.setStrand t ((b.strand t).setFreg fd (((b.strand t).reg ra).setWidth 128))) none :=
  fmvgRes_write h (hi := 0) (by decide)

/-- The high half of an f register above its low half. -/
theorem append_eq_shift_or (x y : W) : x ++ y = (x.setWidth 128 <<< 64) ||| y.setWidth 128 :=
  (BitVec.setWidth_eq (x ++ y)).symm.trans BitVec.setWidth_append_eq_shiftLeft_setWidth_or

theorem fmvgRes_writeHigh (h : (b.strand t).tl = 0) :
    fmvgRes b t false fd ra 1 =
      .ok (b.setStrand t ((b.strand t).setFreg fd ((b.strand t).reg ra ++ ((b.strand t).freg fd).extractLsb' 0 64))) none := by
  rw [append_eq_shift_or]
  exact fmvgRes_write h (hi := 1) (by decide)

/-! ## FLD and FST (R146, R149) -/

theorem fldRes_loads (h : (b.strand t).tl = 0) {bytes : List Byte}
    (hl : b.loadVa t needLoad (b.strand t).dataPrv ((b.strand t).reg base + disp.signExtend 64).toNat (fpWidth f / 8) = .ok b' bytes) :
    fldRes b t f fd base disp = .ok (b'.setStrand t ((b'.strand t).setFreg fd (BitVec.ofNat 128 (leNat bytes)))) none := by
  rw [fldRes, fpLevel_of_tl h, ea_eq]
  exact congrArg (LRes.then · _) hl

theorem fstRes_stores (h : (b.strand t).tl = 0) {gs : List Seg}
    (hs : b.storeVa t needStore (b.strand t).dataPrv ((b.strand t).reg base + disp.signExtend 64).toNat (fpWidth f / 8) = .ok b1 gs)
    (hb : b1.bufferStore t (if f = .q then splitSegs 8 gs else gs) (leBytes (fpWidth f / 8) ((b.strand t).freg fd).toNat) = some b') :
    fstRes b t f fd base disp = .ok b' none := by
  simp only [fstRes, fpLevel_of_tl h, ea_eq]
  refine (congrArg (LRes.then · _) hs).trans ?_
  simp only [LRes.then, fpBytes, hb]

end

/-- Settles O30: each form by what it comes to at TL 0. -/
theorem floatingMovesAndCompares : Obligations.FloatingMovesAndCompares := by
  intro s t b b' f rnd flag fd fa fb base disp bytes gs u v ea h0
  refine ⟨fun h hr => ?_, fun h => ?_, fun h => ?_, fun h => ?_, fun h => ?_, fun h => ?_, fun h => ?_, fun h hl => ?_, fun b1 h hs hb => ?_,
    fun h => ?_⟩
  · exact h.float_ok_of_rndOk h0 (rndOk_iff.2 hr) rfl
  · exact h.float_ok h0 rfl
  · exact h.float_ok h0 rfl
  · exact h.insn_ok (x := fun b => fmvgRes b t true fd fa 0) (fmvgRes_read h0 (hi := 0) (by decide))
  · exact h.insn_ok (x := fun b => fmvgRes b t true fd fa 1) (fmvgRes_read h0 (hi := 1) (by decide))
  · exact h.insn_ok (x := fun b => fmvgRes b t false fd fa 0) (fmvgRes_writeLow h0)
  · exact h.insn_ok (x := fun b => fmvgRes b t false fd fa 1) (fmvgRes_writeHigh h0)
  · exact h.insn_done (x := fun b => fldRes b t f fd base disp) (fldRes_loads h0 hl) (loadVa_pend hl)
  · exact h.insn_ok_body (x := fun b => fstRes b t f fd base disp) (fstRes_stores h0 hs hb) ((bufferStore_pend hb).trans (storeVa_pend hs))
  · exact h.insn_ok_same (x := fun b => fpLevel b t (.ok b none)) (fpLevel_of_tl h0 _)

end Sys2Proof.Machine
end

section
/-! What a detected exception leaves: flags, and the pending exception (R152, R162). -/

namespace Sys2Proof.Machine

/-! ## Fields of CS.FPSTAT (R76) -/

/-- CS.FPSTAT with flags added, and with PEND when an exception becomes pending. -/
def fpstatWith (x : W) (flags : BitVec 5) (pending : Bool) : W :=
  x ||| ((flags.setWidth 64 <<< 8) ||| (if pending then 0x1000000#64 else 0#64))

section
variable (x : W) (flags : BitVec 5) (pending : Bool)

theorem extractLsb'_fpstatWith (k n : Nat) :
    (fpstatWith x flags pending).extractLsb' k n = x.extractLsb' k n ||| (fpstatWith 0#64 flags pending).extractLsb' k n := by
  rw [fpstatWith, fpstatWith, BitVec.zero_or, BitVec.extractLsb'_or]

theorem flags_fpstatWith : (fpstatWith x flags pending).extractLsb' 8 5 = x.extractLsb' 8 5 ||| flags := by
  have h : (fpstatWith 0#64 flags pending).extractLsb' 8 5 = flags := by revert flags pending; decide
  rw [extractLsb'_fpstatWith, h]

theorem low_fpstatWith : (fpstatWith x flags pending).extractLsb' 0 8 = x.extractLsb' 0 8 := by
  have h : (fpstatWith 0#64 flags pending).extractLsb' 0 8 = 0#8 := by revert flags pending; decide
  rw [extractLsb'_fpstatWith, h, BitVec.or_zero]

theorem enables_fpstatWith : (fpstatWith x flags pending).extractLsb' 16 8 = x.extractLsb' 16 8 := by
  have h : (fpstatWith 0#64 flags pending).extractLsb' 16 8 = 0#8 := by revert flags pending; decide
  rw [extractLsb'_fpstatWith, h, BitVec.or_zero]

theorem pend_fpstatWith : (fpstatWith x flags pending).getLsbD 24 = (x.getLsbD 24 || pending) := by
  have h : ((flags.setWidth 64 <<< 8) ||| (if pending then 0x1000000#64 else 0#64)).getLsbD 24 = pending := by revert flags pending; decide
  rw [fpstatWith, BitVec.getLsbD_or, h]

end

/-! ## The kind word (R162) -/

section
variable (i : Instr) (enabled flags : BitVec 5)

/-- The two fields of flags, below the opcode and fn. -/
theorem fpKindWord_toNat : ∃ k, (fpKindWord i enabled flags).toNat = (enabled.toNat + flags.toNat * 256 + k * 65536) % 2 ^ 64 := by
  refine ⟨(insnBytes i).toNat % 256 + (if lenOf i = 6 then (insnBytes i).toNat / 2 ^ 18 % 64 else 0) * 256, ?_⟩
  rw [fpKindWord, BitVec.toNat_ofNat]
  congr 1
  ring

theorem fpKindWord_enabled : (fpKindWord i enabled flags).extractLsb' 0 5 = enabled := by
  obtain ⟨k, hk⟩ := fpKindWord_toNat i enabled flags
  apply BitVec.eq_of_toNat_eq
  rw [BitVec.extractLsb'_toNat, hk, Nat.shiftRight_zero]
  have := enabled.isLt
  omega

theorem fpKindWord_flags : (fpKindWord i enabled flags).extractLsb' 8 5 = flags := by
  obtain ⟨k, hk⟩ := fpKindWord_toNat i enabled flags
  apply BitVec.eq_of_toNat_eq
  rw [BitVec.extractLsb'_toNat, hk, Nat.shiftRight_eq_div_pow]
  have := enabled.isLt
  have := flags.isLt
  omega

end

/-! ## The strand -/

section
variable {u : Strand} {i : Instr} {flags : BitVec 5}

/-- The exceptions of an instruction that CS.FPSTAT enables. -/
def Strand.enabledOf (u : Strand) (flags : BitVec 5) : BitVec 5 := flags &&& u.fpstat.extractLsb' 16 5

/-- An enabled exception, none being pending, becomes pending. -/
theorem raise_pending (hp : u.pend = false) (he : u.enabledOf flags ≠ 0) :
    u.raise i flags =
      { u with
        fpstat := fpstatWith u.fpstat flags true, fpAddr := u.pc, fpKind := fpKindWord i (u.enabledOf flags) flags, fpPrv := u.prv
        fpCount := 0 } := by
  have hc : (u.enabledOf flags != 0 && !u.pend) = true := by rw [hp, Bool.not_false, Bool.and_true, bne_iff_ne]; exact he
  rw [fpstatWith, ← BitVec.or_assoc]
  exact if_pos hc

/-- Otherwise the flags are added alone. -/
theorem raise_flags (h : u.pend = true ∨ u.enabledOf flags = 0) :
    u.raise i flags = { u with fpstat := fpstatWith u.fpstat flags false } := by
  have hc : ¬(u.enabledOf flags != 0 && !u.pend) = true := by
    rcases h with h | h
    · simp [h]
    · simp [h]
  rw [fpstatWith, if_neg Bool.false_ne_true, BitVec.or_zero]
  exact if_neg hc

/-- Whether an exception becomes pending or not, `raise` changes CS.FPSTAT by `fpstatWith`, and else only the record of the exception. -/
theorem raise_eq (u : Strand) (i : Instr) (flags : BitVec 5) :
    (u.raise i flags).fpstat = fpstatWith u.fpstat flags (!u.pend && u.enabledOf flags != 0) ∧
      u.raise i flags = { u with
        fpstat := (u.raise i flags).fpstat, fpAddr := (u.raise i flags).fpAddr, fpKind := (u.raise i flags).fpKind
        fpPrv := (u.raise i flags).fpPrv, fpCount := (u.raise i flags).fpCount } := by
  cases hp : u.pend with
  | true =>
    rw [raise_flags (.inl hp)]
    exact ⟨rfl, rfl⟩
  | false =>
    by_cases he : u.enabledOf flags = 0
    · rw [raise_flags (.inr he), he]
      exact ⟨rfl, rfl⟩
    · rw [raise_pending hp he, bne_iff_ne.2 he]
      exact ⟨rfl, rfl⟩

theorem pend_raise (u : Strand) (i : Instr) (flags : BitVec 5) :
    (u.raise i flags).pend = true ↔ u.pend = true ∨ u.enabledOf flags ≠ 0 := by
  rw [Strand.pend, (raise_eq u i flags).1, pend_fpstatWith, ← Strand.pend]
  cases u.pend
  · simp
  · simp

end

end Sys2Proof.Machine
end

section
/-! Step form of divisions and square roots: START, the STEPs and END (R159, R160). -/

namespace Sys2Proof.Machine

section
variable {op n : Nat} {f : FFmt} {sqrt : Bool} {rm ctr : Nat} {x d : BitVec 128} {w : BitVec 246}

/-! ## Step form -/

/-- Step form is read back: its tag, and under it the working state. -/
theorem tagOf_packStep {tag : Nat} (ht : tag < 1024) (w : BitVec 246) : tagOf (packStep tag w).1 = tag := by
  have hw := (Config.stepPerm tag w).isLt
  rw [tagOf, packStep, BitVec.toNat_ofNat]
  omega

theorem unpackStep_packStep (tag : Nat) (w : BitVec 246) : unpackStep tag (packStep tag w).1 (packStep tag w).2 = w := by
  have hw := (Config.stepPerm tag w).isLt
  have h : BitVec.ofNat 246 ((packStep tag w).1.toNat % 2 ^ 118 * 2 ^ 128 + (packStep tag w).2.toNat) = Config.stepPerm tag w := by
    apply BitVec.eq_of_toNat_eq
    rw [packStep, BitVec.toNat_ofNat, BitVec.toNat_ofNat, BitVec.toNat_setWidth]
    omega
  rw [unpackStep, h, Equiv.symm_apply_apply]

theorem stepTag_lt (ho : op < 4) (hn : n < 64) : stepTag op f n < 1024 := by
  have := code_lt f
  rw [stepTag]
  omega

theorem tagCount_packStep (ho : op < 4) (hn : n < 64) (w : BitVec 246) : tagCount op f (packStep (stepTag op f n) w).1 = some n := by
  have hdiv : stepTag op f n / 64 = op * 4 + f.code := by rw [stepTag]; omega
  have hmod : stepTag op f n % 64 = n := by rw [stepTag]; omega
  rw [tagCount, tagOf_packStep (stepTag_lt ho hn)]
  simp only [hdiv, hmod, if_true]

theorem stepCount_lt (sqrt : Bool) (f : FFmt) : stepCount sqrt f < 64 := by cases sqrt <;> cases f <;> decide

/-! ## The working state -/

theorem stepState_toNat (f : FFmt) (x d : BitVec 128) : (stepState f x d).toNat = stepMark f d * 2 ^ 128 + x.toNat := by
  have hm : stepMark f d < 2 ^ 118 := (Config.divisorMark _).isLt
  have hx := x.isLt
  rw [stepState, BitVec.toNat_ofNat]
  omega

/-- The divisor that the working state stands for is still there. -/
theorem stepState_mark (f : FFmt) (x d : BitVec 128) : (stepState f x d).toNat / 2 ^ 128 = stepMark f d := by
  have hx := x.isLt
  rw [stepState_toNat]
  omega

theorem stepState_operand (f : FFmt) (x d : BitVec 128) : (stepState f x d).setWidth 128 = x := by
  have hx := x.isLt
  apply BitVec.eq_of_toNat_eq
  rw [BitVec.toNat_setWidth, stepState_toNat]
  omega

/-! ## STEP and END of a sequence whose registers nothing has changed -/

/-- Step form after `n` STEPs. -/
def stepForm (op : Nat) (f : FFmt) (x d : BitVec 128) (n : Nat) : BitVec 128 × BitVec 128 := packStep (stepTag op f n) (stepState f x d)

section
variable {fd fa : BitVec 128}

/-- A STEP that advances: its divisor is that of the working state. -/
theorem fstep_of_tagCount (hc : tagCount op f fd = some n) (hn : n < stepCount sqrt f)
    (hw : (unpackStep (tagOf fd) fd fa).toNat / 2 ^ 128 = stepMark f d) :
    fstep op f sqrt ctr fd fa d = packStep (stepTag op f (n + 1)) (unpackStep (tagOf fd) fd fa) := by
  simp only [fstep, hc, if_pos hn, if_pos hw]

/-- An END at the required count: the operation on the operand of the working state. -/
theorem fend_of_tagCount (hc : tagCount op f fd = some (stepCount sqrt f))
    (hw : (unpackStep (tagOf fd) fd fa).toNat / 2 ^ 128 = stepMark f d) :
    fend op f sqrt rm ctr fd fa d =
      if sqrt then fpSqrtVal f rm (fpDecode f ((unpackStep (tagOf fd) fd fa).setWidth 128))
      else fpDivVal f rm (fpDecode f ((unpackStep (tagOf fd) fd fa).setWidth 128)) (fpDecode f d) := by
  simp only [fend, if_pos hc, if_pos hw]

end

theorem unpackStep_stepForm (ho : op < 4) (hn : n < 64) :
    unpackStep (tagOf (stepForm op f x d n).1) (stepForm op f x d n).1 (stepForm op f x d n).2 = stepState f x d := by
  rw [stepForm, tagOf_packStep (stepTag_lt ho hn), unpackStep_packStep]

theorem tagCount_stepForm (ho : op < 4) (hn : n < 64) : tagCount op f (stepForm op f x d n).1 = some n := tagCount_packStep ho hn _

theorem fstep_stepForm (ho : op < 4) (hn : n < stepCount sqrt f) :
    fstep op f sqrt ctr (stepForm op f x d n).1 (stepForm op f x d n).2 d = stepForm op f x d (n + 1) := by
  have h64 : n < 64 := hn.trans (stepCount_lt sqrt f)
  rw [fstep_of_tagCount (tagCount_stepForm ho h64) hn (by rw [unpackStep_stepForm ho h64, stepState_mark]), unpackStep_stepForm ho h64,
    stepForm]

/-- The registers after `n` STEPs that find the registers `p`. -/
def stepsFrom (op : Nat) (f : FFmt) (sqrt : Bool) (d : BitVec 128) (n : Nat) (p : BitVec 128 × BitVec 128) : BitVec 128 × BitVec 128 :=
  (List.range n).foldl (fun p k => fstep op f sqrt k p.1 p.2 d) p

theorem stepsFrom_zero (p : BitVec 128 × BitVec 128) : stepsFrom op f sqrt d 0 p = p := rfl

theorem stepsFrom_succ (p : BitVec 128 × BitVec 128) :
    stepsFrom op f sqrt d (n + 1) p = fstep op f sqrt n (stepsFrom op f sqrt d n p).1 (stepsFrom op f sqrt d n p).2 d := by
  simp only [stepsFrom, List.range_succ, List.foldl_append, List.foldl_cons, List.foldl_nil]

theorem stepsFrom_fstart (ho : op < 4) (hn : n ≤ stepCount sqrt f) : stepsFrom op f sqrt d n (fstart op f x d) = stepForm op f x d n := by
  induction n with
  | zero => rw [stepsFrom_zero, fstart, stepForm]
  | succ n ih => rw [stepsFrom_succ, ih (Nat.le_of_succ_le hn), fstep_stepForm ho hn]

/-- END after fewer STEPs than required. -/
theorem fend_early (ho : op < 4) (hn : n < stepCount sqrt f) :
    fend op f sqrt rm ctr (stepsFrom op f sqrt d n (fstart op f x d)).1 (stepsFrom op f sqrt d n (fstart op f x d)).2 d = (fpDnan f, 0x10) := by
  have h64 : n < 64 := hn.trans (stepCount_lt sqrt f)
  rw [stepsFrom_fstart ho hn.le, fend, tagCount_stepForm ho h64]
  exact if_neg fun h => hn.ne (Option.some.inj h)

/-- END after the required STEPs. -/
theorem fend_complete (ho : op < 4) {e : BitVec 128 × BitVec 128} (he : e = stepsFrom op f sqrt d (stepCount sqrt f) (fstart op f x d)) :
    fend op f sqrt rm ctr e.1 e.2 d =
      if sqrt then fpSqrtVal f rm (fpDecode f x) else fpDivVal f rm (fpDecode f x) (fpDecode f d) := by
  have h64 := stepCount_lt sqrt f
  rw [he, stepsFrom_fstart ho le_rfl]
  rw [fend_of_tagCount (tagCount_stepForm ho h64) (by rw [unpackStep_stepForm ho h64, stepState_mark]), unpackStep_stepForm ho h64,
    stepState_operand]

end

/-! ## The instructions (R159) -/

section
variable {s : State} {t : StrandId} {i : Instr} {b : Body} {fd fa fb : Reg} {distinct : Bool}
  {f : Strand → Nat → (BitVec 128 × BitVec 128) × BitVec 5}

theorem three_iff : three fd fa fb = true ↔ fd ≠ fa ∧ fd ≠ fb ∧ fa ≠ fb := by
  simp only [three, Bool.and_eq_true, bne_iff_ne, and_assoc]

/-- The registers and flags that an END leaves: its result, and zero in fa. -/
def endOf (r : FRes) : (BitVec 128 × BitVec 128) × BitVec 5 := ((r.1, 0), r.2)

theorem Runs.step_done (h : Runs s t i b) (h0 : (b.strand t).tl = 0) (hd : distinct = true) :
    stepInsn t i distinct fd fa f s = .next (finish s { b with freeCtr := b.freeCtr + 2 } t
      ((((b.strand t).setFreg fa (f (b.strand t) b.freeCtr).1.2).setFreg fd (f (b.strand t) b.freeCtr).1.1).raise i
        (f (b.strand t) b.freeCtr).2) (b.seqPc t (lenOf i))) := by
  subst hd
  exact h.insn_done (b' := { b with freeCtr := b.freeCtr + 2 }) (pc := none) ((if_neg Bool.false_ne_true).trans (fpLevel_of_tl h0 _)) rfl

theorem Runs.step_illegal (h : Runs s t i b) (hd : distinct = false) (hp : (b.strand t).pend = false) :
    stepInsn t i distinct fd fa f s = .next { s with
      body := b.takeTrap t { cause := 0x01, rule := .upK, info0 := insnBytes i } (b.strand t).pc } := by
  subst hd
  exact h.traps hp rfl rfl

/-- An instruction of a sequence that checks its registers as the rule says: it completes, or is illegal. -/
theorem Runs.step_cases {Distinct : Prop} (hd : distinct = true ↔ Distinct) (h : Runs s t i b) :
    ((b.strand t).tl = 0 → Distinct → stepInsn t i distinct fd fa f s = .next (finish s { b with freeCtr := b.freeCtr + 2 } t
      ((((b.strand t).setFreg fa (f (b.strand t) b.freeCtr).1.2).setFreg fd (f (b.strand t) b.freeCtr).1.1).raise i
        (f (b.strand t) b.freeCtr).2) (b.seqPc t (lenOf i)))) ∧
    (¬Distinct → (b.strand t).pend = false → stepInsn t i distinct fd fa f s = .next { s with
      body := b.takeTrap t { cause := 0x01, rule := .upK, info0 := insnBytes i } (b.strand t).pc }) :=
  ⟨fun h0 hx => h.step_done h0 (hd.2 hx), fun hx hp => h.step_illegal (Bool.eq_false_iff.2 (mt hd.1 hx)) hp⟩

end

/-- Settles O31: the pending exception by what `raise` leaves, the sequences by the step form, and each instruction by its check of registers. -/
theorem floatingStepsAndPendingException : Obligations.FloatingStepsAndPendingException := by
  refine ⟨fun u i flags => ?_, fun s t b f rm ctr fd fa fb x d => ?_⟩
  · intro u' enabled
    obtain ⟨hst, hrec⟩ := raise_eq u i flags
    refine ⟨?_, ?_, ?_, pend_raise u i flags, fun hp he => ?_, fun h => ?_, hrec⟩
    · rw [hst, flags_fpstatWith]
    · rw [hst, low_fpstatWith]
    · rw [hst, enables_fpstatWith]
    · have hr : u' = _ := raise_pending hp he
      rw [hr]
      exact ⟨rfl, rfl, fpKindWord_enabled .., fpKindWord_flags ..⟩
    · have hr : u' = _ := raise_flags h
      rw [hr]
  · intro u steps start nDiv nSqrt e1 e2
    have hDiv : nDiv = stepCount false f := by cases f <;> rfl
    have hSqrt : nSqrt = stepCount true f := by cases f <;> rfl
    clear_value nDiv nSqrt
    subst hDiv hSqrt
    refine ⟨fend_complete (by decide) rfl, fend_complete (by decide) rfl, fun n hn => fend_early (by decide) hn,
      fun n hn => fend_early (by decide) hn, ?_⟩
    intro done d3 q1 q2
    refine ⟨fun h => ?_, fun h => ?_, fun h => ?_, fun h => ?_, fun h => ?_, fun h => ?_⟩
    · exact h.step_cases (f := fun u _ => (fstart 1 f (u.freg fa) (u.freg fb), fNone)) three_iff
    · exact h.step_cases (f := fun u c => (fstep 1 f false c (u.freg fd) (u.freg fa) (u.freg fb), fNone)) three_iff
    · exact h.step_cases (f := fun u c => endOf (fend 1 f false (u.rm 7) c (u.freg fd) (u.freg fa) (u.freg fb))) three_iff
    · exact h.step_cases (f := fun u _ => (fstart 2 f (u.freg fa) 0, fNone)) bne_iff_ne
    · exact h.step_cases (f := fun u c => (fstep 2 f true c (u.freg fd) (u.freg fa) 0, fNone)) bne_iff_ne
    · exact h.step_cases (f := fun u c => endOf (fend 2 f true (u.rm 7) c (u.freg fd) (u.freg fa) 0)) bne_iff_ne

end Sys2Proof.Machine
end

section
/-! Dyadic numbers m × 2^e, and rounding of one that the format represents (R145, R150, R151). -/

namespace Sys2Proof.Machine

section
variable {m c : ℕ} {e q : ℤ} {rm : ℕ} {neg : Bool}

/-! ## Two spellings of a dyadic number -/

/-- Of two spellings the one with the lower exponent has the larger significand. -/
theorem dyadic_shift (h : (m : ℚ) * 2 ^ e = c * 2 ^ q) (hq : q ≤ e) : m * 2 ^ (e - q).toNat = c := by
  have hpow : (2 : ℚ) ^ e = 2 ^ (e - q).toNat * 2 ^ q := by
    rw [← zpow_natCast, Int.toNat_of_nonneg (Int.sub_nonneg.2 hq), ← zpow_add₀ two_ne_zero, Int.sub_add_cancel]
  rw [hpow, ← mul_assoc] at h
  exact_mod_cast mul_right_cancel₀ (zpow_ne_zero q two_ne_zero) h

theorem log2_mul_two_pow (hm : m ≠ 0) (k : ℕ) : Nat.log2 (m * 2 ^ k) = Nat.log2 m + k := by
  rw [Nat.log2_eq_iff (Nat.mul_ne_zero hm (Nat.two_pow_pos k).ne'), Nat.add_right_comm, Nat.pow_add, Nat.pow_add _ (m.log2 + 1)]
  exact ⟨Nat.mul_le_mul_right _ (Nat.log2_self_le hm), Nat.mul_lt_mul_of_pos_right Nat.lt_log2_self (Nat.two_pow_pos k)⟩

/-- Both have their leading bit at one place. -/
theorem dyadic_lead (hm : m ≠ 0) (hc : c ≠ 0) (h : (m : ℚ) * 2 ^ e = c * 2 ^ q) : e + Nat.log2 m = q + Nat.log2 c := by
  rcases le_total q e with hq | hq
  · have hl := congrArg Nat.log2 (dyadic_shift h hq)
    rw [log2_mul_two_pow hm] at hl
    omega
  · have hl := congrArg Nat.log2 (dyadic_shift h.symm hq)
    rw [log2_mul_two_pow hc] at hl
    omega

/-- A multiple of 2^q is not changed where rounding cuts at 2^q. -/
theorem roundAt_multiple (h : (m : ℚ) * 2 ^ e = c * 2 ^ q) : roundAt rm neg m e q false = (c, false) := by
  by_cases hq : q ≤ e
  · rw [roundAt, if_pos hq, dyadic_shift h hq]
  · obtain rfl := dyadic_shift h.symm (le_of_not_ge hq)
    simp [roundAt, if_neg hq]

end

/-! ## Finite values -/

section
variable {s t : Bool} {m n : ℕ} {e g : ℤ}

theorem exists_fin {v : FVal} (h : v.isFin = true) : ∃ s m e, v = .fin s m e := by
  cases v with
  | nan => exact nomatch h
  | inf => exact nomatch h
  | fin s m e => exact ⟨s, m, e, rfl⟩

theorem sign_bne (s t : Bool) : (if (s != t) = true then -1 else 1 : ℚ) = (if s = true then -1 else 1) * (if t = true then -1 else 1) := by
  cases s
  · simp
  · cases t
    · simp
    · simp

theorem num_fin_mul : (FVal.fin s m e).num * (FVal.fin t n g).num = (FVal.fin (s != t) (m * n) (e + g)).num := by
  simp only [FVal.num, zpow_add₀ (two_ne_zero (α := ℚ)), Nat.cast_mul, sign_bne]
  ring

/-- The magnitude of a finite value. -/
theorem abs_num_fin (s : Bool) (m : ℕ) (e : ℤ) : |(FVal.fin s m e).num| = m * 2 ^ e := by
  have hnonneg : (0 : ℚ) ≤ m * 2 ^ e := by positivity
  cases s
  · simp [FVal.num, abs_of_nonneg hnonneg]
  · simp [FVal.num, abs_of_nonneg hnonneg]

theorem num_fin_ne_zero : (FVal.fin s m e).num ≠ 0 ↔ m ≠ 0 := by
  rw [← abs_ne_zero, abs_num_fin, mul_ne_zero_iff, Nat.cast_ne_zero, and_iff_left (zpow_ne_zero e two_ne_zero)]

/-- Its sign. -/
theorem num_fin_neg_iff (hm : m ≠ 0) : (FVal.fin s m e).num < 0 ↔ s = true := by
  have hpos : (0 : ℚ) < m * 2 ^ e := by positivity
  cases s
  · simp [FVal.num, hpos.le]
  · simp [FVal.num, hpos]

theorem num_fin_signed (v : ℤ) : (FVal.fin (v < 0) v.natAbs e).num = v * 2 ^ e := by
  rcases lt_or_ge v 0 with h | h
  · have : ((v.natAbs : ℤ) : ℚ) = -v := by rw [Int.ofNat_natAbs_of_nonpos h.le, Int.cast_neg]
    simp only [FVal.num, h, decide_true, if_true, ← Int.cast_natCast (R := ℚ), this]
    ring
  · have : ((v.natAbs : ℤ) : ℚ) = v := by rw [Int.natAbs_of_nonneg h]
    simp only [FVal.num, not_lt.2 h, decide_false, Bool.false_eq_true, if_false, ← Int.cast_natCast (R := ℚ), this]
    ring

theorem num_fin_pos (h : 0 < (FVal.fin s m e).num) : s = false :=
  Bool.eq_false_iff.2 fun hs => h.not_gt ((num_fin_neg_iff (num_fin_ne_zero.1 h.ne')).2 hs)

/-- Equal values that are not 0 have one sign and one magnitude. -/
theorem num_fin_inj (hm : m ≠ 0) (h : (FVal.fin s m e).num = (FVal.fin t n g).num) : s = t ∧ (m : ℚ) * 2 ^ e = n * 2 ^ g := by
  have hn : n ≠ 0 := num_fin_ne_zero.1 (h ▸ num_fin_ne_zero.2 hm)
  constructor
  · rw [Bool.eq_iff_iff, ← num_fin_neg_iff hm, h, num_fin_neg_iff hn]
  · rw [← abs_num_fin s, h, abs_num_fin]

end

end Sys2Proof.Machine
end

section
/-! A finite encoding of a format, and rounding to it of the value that it stands for (R145, R150, R151). -/

namespace Sys2Proof.Machine

section
variable {f : FFmt} {z : BitVec 128} {neg s : Bool} {m mc : ℕ} {e ec : ℤ} {rm : ℕ}

/-! ## Encodings -/

theorem fpP_pos (f : FFmt) : 0 < fpP f := by cases f <;> decide

theorem fpExpMask_eq (f : FFmt) : (fpExpMask f : ℤ) = 2 * fpEmax f + 1 := by cases f <;> decide

/-- The sign bit lies above exponent and fraction. -/
theorem fpSignBit_eq (f : FFmt) : fpSignBit f = 2 ^ (fpP f - 1) * (fpExpMask f + 1) := by cases f <;> decide

theorem two_pow_fpWidth (f : FFmt) : 2 ^ fpWidth f = 2 * fpSignBit f := by cases f <;> decide

/-- An encoding is made of its own fields. -/
theorem fpSigned_fields (hz : z.toNat < 2 ^ fpWidth f) :
    fpSigned f (fpSignBit f ≤ z.toNat)
      (z.toNat / 2 ^ (fpP f - 1) % (fpExpMask f + 1) * 2 ^ (fpP f - 1) + z.toNat % 2 ^ (fpP f - 1)) = z := by
  have hlow : z.toNat / 2 ^ (fpP f - 1) % (fpExpMask f + 1) * 2 ^ (fpP f - 1) + z.toNat % 2 ^ (fpP f - 1) = z.toNat % fpSignBit f := by
    rw [fpSignBit_eq, Nat.mod_mul, Nat.mul_comm, Nat.add_comm]
  rw [two_pow_fpWidth] at hz
  rw [fpSigned, hlow]
  by_cases hs : fpSignBit f ≤ z.toNat
  · rw [if_pos (decide_eq_true hs), Nat.mod_eq_sub_mod hs, Nat.mod_eq_of_lt (by omega), Nat.sub_add_cancel hs, BitVec.ofNat_toNat,
      BitVec.setWidth_eq]
  · rw [if_neg (by simpa using hs), Nat.mod_eq_of_lt (Nat.not_le.1 hs), Nat.add_zero, BitVec.ofNat_toNat, BitVec.setWidth_eq]

/-- What the fields of a finite encoding say: a subnormal number or zero, or a normal number with biased exponent `x`. -/
inductive Encodes (f : FFmt) (z : BitVec 128) (neg : Bool) : ℕ → ℤ → Prop
  | subnormal {m : ℕ} (hm : m < 2 ^ (fpP f - 1)) (hz : fpSigned f neg m = z) : Encodes f z neg m (fpEmin f - fpP f + 1)
  | normal {x fr : ℕ} (h0 : 0 < x) (hx : x < fpExpMask f) (hfr : fr < 2 ^ (fpP f - 1)) (hz : fpSigned f neg (x * 2 ^ (fpP f - 1) + fr) = z) :
      Encodes f z neg (fr + 2 ^ (fpP f - 1)) (x - fpEmax f - (fpP f - 1))

theorem encodes_of_fpDecode (hz : z.toNat < 2 ^ fpWidth f) (h : fpDecode f z = .fin neg m e) : Encodes f z neg m e := by
  have hfields := fpSigned_fields hz
  have hfr : z.toNat % 2 ^ (fpP f - 1) < 2 ^ (fpP f - 1) := Nat.mod_lt _ (Nat.two_pow_pos _)
  have hx : z.toNat / 2 ^ (fpP f - 1) % (fpExpMask f + 1) < fpExpMask f + 1 := Nat.mod_lt _ (Nat.succ_pos _)
  simp only [fpDecode, Nat.mod_eq_of_lt hz] at h
  generalize z.toNat / 2 ^ (fpP f - 1) % (fpExpMask f + 1) = x at *
  generalize z.toNat % 2 ^ (fpP f - 1) = fr at *
  split at h
  · split at h
    · exact nomatch h
    · exact nomatch h
  · rename_i hmask
    split at h
    · rename_i h0
      obtain ⟨rfl, rfl, rfl⟩ := FVal.fin.inj h
      rw [h0, Nat.zero_mul, Nat.zero_add] at hfields
      rw [← sub_add]
      exact .subnormal hfr hfields
    · rename_i h0
      obtain ⟨rfl, rfl, rfl⟩ := FVal.fin.inj h
      exact .normal (Nat.pos_of_ne_zero h0) (by omega) hfr hfields

theorem Encodes.lt_two_pow (h : Encodes f z neg m e) : m < 2 ^ fpP f := by
  have hp : 2 ^ fpP f = 2 * 2 ^ (fpP f - 1) := (mul_pow_sub_one (fpP_pos f).ne' 2).symm
  cases h with
  | subnormal hm _ => omega
  | normal _ _ hfr _ => omega

/-! ## Rounding -/

/-- With an unbounded exponent range the value has `p` digits, from its leading bit down. -/
theorem roundAt_digits (hm : m ≠ 0) (hc : mc ≠ 0) (hlt : mc < 2 ^ fpP f) (h : (m : ℚ) * 2 ^ e = mc * 2 ^ ec) :
    roundAt rm s m e (e + Nat.log2 m + 1 - fpP f) false = (mc * 2 ^ (fpP f - 1 - Nat.log2 mc), false) := by
  have hlog : Nat.log2 mc < fpP f := (Nat.log2_lt hc).2 hlt
  apply roundAt_multiple
  rw [h, Nat.cast_mul, mul_assoc, Nat.cast_pow, Nat.cast_ofNat, ← zpow_natCast, ← zpow_add₀ two_ne_zero, dyadic_lead hm hc h]
  congr 2
  omega

/-- The exponent that `fpRound` finds is that of the leading bit. -/
theorem fpRound_exponent (hm : m ≠ 0) (hc : mc ≠ 0) (hlt : mc < 2 ^ fpP f) (h : (m : ℚ) * 2 ^ e = mc * 2 ^ ec) :
    e + Nat.log2 m + 1 - fpP f + (Nat.log2 (mc * 2 ^ (fpP f - 1 - Nat.log2 mc)) : ℕ) = ec + Nat.log2 mc := by
  have hlog : Nat.log2 mc < fpP f := (Nat.log2_lt hc).2 hlt
  rw [log2_mul_two_pow hc, dyadic_lead hm hc h]
  omega

theorem fpRound_normal (hm : m ≠ 0) (hc : mc ≠ 0) (hlt : mc < 2 ^ fpP f) (h : (m : ℚ) * 2 ^ e = mc * 2 ^ ec)
    (hmax : ec + Nat.log2 mc ≤ fpEmax f) (hmin : fpEmin f ≤ ec + Nat.log2 mc) :
    fpRound f rm s m e false =
      (fpSigned f s ((ec + Nat.log2 mc + fpEmax f).toNat * 2 ^ (fpP f - 1) +
        (mc * 2 ^ (fpP f - 1 - Nat.log2 mc) - 2 ^ (fpP f - 1))), 0) := by
  have hlog : Nat.log2 mc < fpP f := (Nat.log2_lt hc).2 hlt
  have hne : mc * 2 ^ (fpP f - 1 - Nat.log2 mc) ≠ 2 ^ fpP f := fun he => by
    have hl := congrArg Nat.log2 he
    rw [log2_mul_two_pow hc, Nat.log2_two_pow] at hl
    omega
  have hmin' : fpEmin f ≤ e + Nat.log2 m + 1 - 1 := by rw [add_sub_cancel_right, dyadic_lead hm hc h]; exact hmin
  simp only [fpRound, roundAt_digits hm hc hlt h, fpRound_exponent hm hc hlt h, if_neg (not_lt.2 hmax), hmin, hmin', decide_true, Bool.and_self,
    if_true, if_neg hne, Bool.false_eq_true, if_false, fNone]

theorem fpRound_subnormal (hm : m ≠ 0) (hc : mc ≠ 0) (hlt : mc < 2 ^ fpP f) (h : (m : ℚ) * 2 ^ e = mc * 2 ^ (fpEmin f - fpP f + 1))
    (hmax : fpEmin f ≤ fpEmax f) (hmin : fpEmin f - fpP f + 1 + Nat.log2 mc < fpEmin f) :
    fpRound f rm s m e false = (fpSigned f s mc, 0) := by
  simp only [fpRound, roundAt_digits hm hc hlt h, fpRound_exponent hm hc hlt h, if_neg (not_lt.2 (hmin.le.trans hmax)), not_le.2 hmin,
    decide_false, Bool.false_and, Bool.false_eq_true, if_false, roundAt_multiple h, fNone]

theorem fpEmin_le_fpEmax (f : FFmt) : fpEmin f ≤ fpEmax f := by cases f <;> decide

/-- The leading bit of a normal significand. -/
theorem log2_normal {p fr : ℕ} (hfr : fr < 2 ^ p) : Nat.log2 (fr + 2 ^ p) = p := by
  have := Nat.two_pow_pos p
  rw [Nat.log2_eq_iff (by omega), Nat.pow_succ]
  omega

/-- Rounding delivers the encoding of a value that the format represents, without a flag. -/
theorem Encodes.fpRound_eq (hz : Encodes f z neg mc ec) (hc : mc ≠ 0) (hm : m ≠ 0) (h : (m : ℚ) * 2 ^ e = mc * 2 ^ ec) :
    fpRound f rm neg m e false = (z, 0) := by
  have hlt := hz.lt_two_pow
  have hp := fpP_pos f
  cases hz with
  | subnormal hsub hz =>
    have hlog : Nat.log2 mc < fpP f - 1 := (Nat.log2_lt hc).2 hsub
    rw [fpRound_subnormal hm hc hlt h (fpEmin_le_fpEmax f) (by omega), hz]
  | @normal x fr h0 hx hfr hz =>
    have hlog : Nat.log2 (fr + 2 ^ (fpP f - 1)) = fpP f - 1 := log2_normal hfr
    have hmask := fpExpMask_eq f
    have hmin : fpEmin f = 1 - fpEmax f := rfl
    have hlead : (x : ℤ) - fpEmax f - (fpP f - 1) + Nat.log2 (fr + 2 ^ (fpP f - 1)) = x - fpEmax f := by rw [hlog]; omega
    rw [fpRound_normal hm hc hlt h (by omega) (by omega), hlead, hlog, sub_add_cancel, Int.toNat_natCast, Nat.sub_self, pow_zero, mul_one,
      Nat.add_sub_cancel, hz]

end

/-- The same of the value that a finite operand of any spelling stands for. -/
theorem fpRound_of_num {f : FFmt} {z : BitVec 128} {s : Bool} {m : ℕ} {e : ℤ} {rm : ℕ} (hz : z.toNat < 2 ^ fpWidth f)
    (hfin : (fpDecode f z).isFin = true) (h0 : (fpDecode f z).num ≠ 0) (h : (FVal.fin s m e).num = (fpDecode f z).num) :
    fpRound f rm s m e false = (z, 0) := by
  obtain ⟨neg, mc, ec, hd⟩ := exists_fin hfin
  rw [hd] at h h0
  have hm : m ≠ 0 := num_fin_ne_zero.1 (h ▸ h0)
  obtain ⟨rfl, hv⟩ := num_fin_inj hm h
  exact (encodes_of_fpDecode hz hd).fpRound_eq (num_fin_ne_zero.1 h0) hm hv

end Sys2Proof.Machine
end

section
/-! Sums, products, quotients and square roots that the format represents (R150, R151). -/

namespace Sys2Proof.Machine

section
variable {f : FFmt} {rm : ℕ} {z : BitVec 128} {s t u : Bool} {m n mc : ℕ} {e g ec : ℤ}

/-! ## Sum and product -/

theorem signedM_cast (s : Bool) (m : ℕ) : (signedM s m : ℚ) = (if s then -1 else 1) * m := by
  cases s
  · simp [signedM]
  · simp [signedM]

/-- A finite value brought to a lower exponent. -/
theorem signedM_shift (s : Bool) (m : ℕ) {e g : ℤ} (h : g ≤ e) :
    (signedM s (m * 2 ^ (e - g).toNat) : ℚ) * 2 ^ g = (FVal.fin s m e).num := by
  rw [signedM_cast, FVal.num, Nat.cast_mul, Nat.cast_pow, Nat.cast_ofNat, ← zpow_natCast, Int.toNat_of_nonneg (Int.sub_nonneg.2 h), mul_assoc,
    mul_assoc, ← zpow_add₀ two_ne_zero, Int.sub_add_cancel, mul_assoc]

theorem fpSum_value (s : Bool) (m : ℕ) (e : ℤ) (t : Bool) (n : ℕ) (g : ℤ) :
    ((fpSum s m e t n g).1 : ℚ) * 2 ^ (fpSum s m e t n g).2 = (FVal.fin s m e).num + (FVal.fin t n g).num := by
  rw [← signedM_shift s m (min_le_left e g), ← signedM_shift t n (min_le_right e g), ← add_mul, fpSum, Int.cast_add]

theorem fpRoundInt_of_num {zs : Bool} {v : ℤ} (hz : z.toNat < 2 ^ fpWidth f) (hfin : (fpDecode f z).isFin = true) (h0 : (fpDecode f z).num ≠ 0)
    (h : (v : ℚ) * 2 ^ e = (fpDecode f z).num) : fpRoundInt f rm zs v e = (z, 0) := by
  have hv : v ≠ 0 := fun hv => h0 (by rw [← h, hv, Int.cast_zero, zero_mul])
  rw [fpRoundInt, if_neg hv]
  exact fpRound_of_num hz hfin h0 ((num_fin_signed v).trans h)

theorem fpAddVal_exact (hz : z.toNat < 2 ^ fpWidth f) (hfin : (fpDecode f z).isFin = true) (h0 : (fpDecode f z).num ≠ 0)
    (h : (fpDecode f z).num = (FVal.fin s m e).num + (FVal.fin t n g).num) : fpAddVal f rm (.fin s m e) (.fin t n g) = (z, 0) :=
  fpRoundInt_of_num hz hfin h0 ((fpSum_value s m e t n g).trans h.symm)

theorem fpMulVal_exact (hz : z.toNat < 2 ^ fpWidth f) (hfin : (fpDecode f z).isFin = true) (h0 : (fpDecode f z).num ≠ 0)
    (h : (fpDecode f z).num = (FVal.fin s m e).num * (FVal.fin t n g).num) : fpMulVal f rm (.fin s m e) (.fin t n g) = (z, 0) := by
  rw [num_fin_mul] at h
  have hmn : m * n ≠ 0 := num_fin_ne_zero.1 (h ▸ h0)
  exact (if_neg hmn).trans (fpRound_of_num hz hfin h0 h.symm)

/-! ## Quotient -/

/-- Digits below the dividend's, of which a quotient in the format takes none. -/
def divDigits (f : FFmt) (n : ℕ) : ℕ := fpP f + 4 + Nat.log2 n + 1

theorem fpDivVal_fin (hm : m ≠ 0) (hn : n ≠ 0) :
    fpDivVal f rm (.fin s m e) (.fin t n g) =
      fpRound f rm (s != t) (m * 2 ^ divDigits f n / n) (e - g - divDigits f n) (m * 2 ^ divDigits f n % n != 0) :=
  (if_neg hn).trans (if_neg hm)

theorem num_fin_shift (s : Bool) (m k : ℕ) (e : ℤ) : (FVal.fin s (m * 2 ^ k) (e - k)).num = (FVal.fin s m e).num := by
  rw [FVal.num, FVal.num, Nat.cast_mul, Nat.cast_pow, Nat.cast_ofNat, ← zpow_natCast, mul_assoc, mul_assoc, mul_assoc,
    ← zpow_add₀ two_ne_zero, add_sub_cancel]

/-- A value of fewer than `k` significant digits is a multiple of the place `k` below the last of an equal one. -/
theorem dyadic_widen {c k : ℕ} (hm : m ≠ 0) (hc : c ≠ 0) (hlog : Nat.log2 c < k) (h : (m : ℚ) * 2 ^ e = c * 2 ^ g) :
    e - k ≤ g ∧ c * 2 ^ (g - (e - k)).toNat = m * 2 ^ k := by
  have hlead := dyadic_lead hm hc h
  have hle : e - k ≤ g := by omega
  refine ⟨hle, dyadic_shift ?_ hle⟩
  rw [← h, Nat.cast_mul, Nat.cast_pow, Nat.cast_ofNat, ← zpow_natCast, mul_assoc, ← zpow_add₀ two_ne_zero, add_sub_cancel]

theorem log2_mul_lt {a b c d : ℕ} (hc : c ≠ 0) (hd : d ≠ 0) (hca : c < 2 ^ a) (hdb : d < 2 ^ b) : Nat.log2 (c * d) < a + b := by
  rw [Nat.log2_lt (Nat.mul_ne_zero hc hd), Nat.pow_add]
  exact Nat.mul_lt_mul'' hca hdb

/-- The divisor divides the widened dividend. -/
theorem dvd_of_quotient (hm : m ≠ 0) (hc : mc ≠ 0) (hn : n ≠ 0) (hlt : mc < 2 ^ fpP f)
    (h : (m : ℚ) * 2 ^ e = (mc * n : ℕ) * 2 ^ ec) : n ∣ m * 2 ^ divDigits f n := by
  have hlog : Nat.log2 (mc * n) < divDigits f n := by
    have := log2_mul_lt hc hn hlt Nat.lt_log2_self
    rw [divDigits]
    omega
  rw [← (dyadic_widen hm (Nat.mul_ne_zero hc hn) hlog h).2]
  exact Dvd.dvd.mul_right (Nat.dvd_mul_left n mc) _

theorem fpDivVal_exact (hz : z.toNat < 2 ^ fpWidth f) (hfin : (fpDecode f z).isFin = true) (h0 : (fpDecode f z).num ≠ 0)
    (hb : (FVal.fin t n g).num ≠ 0) (h : (fpDecode f z).num * (FVal.fin t n g).num = (FVal.fin s m e).num) :
    fpDivVal f rm (.fin s m e) (.fin t n g) = (z, 0) := by
  have hn : n ≠ 0 := num_fin_ne_zero.1 hb
  have hm : m ≠ 0 := num_fin_ne_zero.1 (h ▸ mul_ne_zero h0 hb)
  have hdvd : n ∣ m * 2 ^ divDigits f n := by
    obtain ⟨u, mc, ec, hd⟩ := exists_fin hfin
    have hlt := (encodes_of_fpDecode hz hd).lt_two_pow
    rw [hd] at h h0
    rw [num_fin_mul] at h
    exact dvd_of_quotient hm (num_fin_ne_zero.1 h0) hn hlt (num_fin_inj hm h.symm).2
  have hquot : (FVal.fin (s != t) (m * 2 ^ divDigits f n / n) (e - g - divDigits f n)).num = (fpDecode f z).num := by
    apply mul_right_cancel₀ hb
    rw [num_fin_mul, h, Nat.div_mul_cancel hdvd, Bool.bne_assoc, bne_self_eq_false, Bool.bne_false, sub_right_comm, sub_add_cancel,
      num_fin_shift]
  rw [fpDivVal_fin hm hn, Nat.mod_eq_zero_of_dvd hdvd, bne_self_eq_false]
  exact fpRound_of_num hz hfin h0 hquot

/-! ## Square root -/

/-- The bits of the root are found from above. -/
theorem isqrt_square (q k : ℕ) {r : ℕ} (hr : r ≤ q) (hq : q < r + 2 ^ k) : isqrt (q * q) k r = q := by
  induction k generalizing r with
  | zero => rw [isqrt]; omega
  | succ k ih =>
    rw [Nat.pow_succ] at hq
    simp only [isqrt, Nat.mul_self_le_mul_self_iff]
    by_cases hle : r + 2 ^ k ≤ q
    · rw [if_pos hle]
      exact ih hle (by omega)
    · rw [if_neg hle]
      exact ih hr (by omega)

theorem isqrt_log2 (q : ℕ) : isqrt (q * q) (Nat.log2 (q * q) / 2 + 1) 0 = q := by
  refine isqrt_square q _ (Nat.zero_le q) ?_
  rw [Nat.zero_add]
  refine Nat.mul_self_lt_mul_self_iff.1 (Nat.lt_log2_self.trans_le ?_)
  rw [← Nat.pow_add]
  exact Nat.pow_le_pow_right Nat.two_pos (by omega)

/-- Digits below the radicand's, such that the exponent is even. -/
def sqrtDigits (f : FFmt) (e : ℤ) : ℕ := if (e - (2 * fpP f + 4 : ℕ)) % 2 = 0 then 2 * fpP f + 4 else 2 * fpP f + 4 + 1

theorem sqrtDigits_even (f : FFmt) (e : ℤ) : 2 * ((e - sqrtDigits f e) / 2) = e - sqrtDigits f e := by
  rw [sqrtDigits]
  split
  · omega
  · omega

theorem le_sqrtDigits (f : FFmt) (e : ℤ) : 2 * fpP f + 4 ≤ sqrtDigits f e := by
  rw [sqrtDigits]
  split
  · exact le_rfl
  · exact Nat.le_succ _

/-- A radicand that the widening makes a square. -/
theorem fpSqrtVal_of_square {r : ℕ} (hm : m ≠ 0) (hr : m * 2 ^ sqrtDigits f e = r * r) :
    fpSqrtVal f rm (.fin false m e) = fpRound f rm false r ((e - sqrtDigits f e) / 2) false := by
  have hval : fpSqrtVal f rm (.fin false m e) =
      fpRound f rm false (isqrt (m * 2 ^ sqrtDigits f e) (Nat.log2 (m * 2 ^ sqrtDigits f e) / 2 + 1) 0) ((e - sqrtDigits f e) / 2)
        (isqrt (m * 2 ^ sqrtDigits f e) (Nat.log2 (m * 2 ^ sqrtDigits f e) / 2 + 1) 0 *
          isqrt (m * 2 ^ sqrtDigits f e) (Nat.log2 (m * 2 ^ sqrtDigits f e) / 2 + 1) 0 != m * 2 ^ sqrtDigits f e) :=
    (if_neg hm).trans (if_neg Bool.false_ne_true)
  rw [hval, hr, isqrt_log2, bne_self_eq_false]

/-- The widened radicand is the square of the root at its exponent. -/
theorem square_of_root (hm : m ≠ 0) (hc : mc ≠ 0) (hlt : mc < 2 ^ fpP f) (h : (m : ℚ) * 2 ^ e = (mc * mc : ℕ) * 2 ^ (ec + ec)) :
    ∃ j : ℕ, (e - sqrtDigits f e) / 2 + j = ec ∧ m * 2 ^ sqrtDigits f e = mc * 2 ^ j * (mc * 2 ^ j) := by
  have hdig := le_sqrtDigits f e
  have heven := sqrtDigits_even f e
  have hlog := log2_mul_lt hc hc hlt hlt
  obtain ⟨hle, hsq⟩ := dyadic_widen hm (Nat.mul_ne_zero hc hc) (k := sqrtDigits f e) (by omega) h
  refine ⟨(ec - (e - sqrtDigits f e) / 2).toNat, by omega, ?_⟩
  have hexp : (ec + ec - (e - sqrtDigits f e)).toNat = (ec - (e - sqrtDigits f e) / 2).toNat + (ec - (e - sqrtDigits f e) / 2).toNat := by
    omega
  rw [← hsq, hexp, Nat.pow_add, Nat.mul_mul_mul_comm]

theorem fpSqrtVal_exact (hz : z.toNat < 2 ^ fpWidth f) (hfin : (fpDecode f z).isFin = true) (h0 : 0 < (fpDecode f z).num)
    (h : (FVal.fin s m e).num = (fpDecode f z).num * (fpDecode f z).num) : fpSqrtVal f rm (.fin s m e) = (z, 0) := by
  obtain rfl : s = false := num_fin_pos (h ▸ mul_pos h0 h0)
  have hm : m ≠ 0 := num_fin_ne_zero.1 (h ▸ (mul_pos h0 h0).ne')
  obtain ⟨u, mc, ec, hd⟩ := exists_fin hfin
  have hlt := (encodes_of_fpDecode hz hd).lt_two_pow
  have hu : u = false := num_fin_pos (hd ▸ h0)
  have hc : mc ≠ 0 := num_fin_ne_zero.1 (hd ▸ h0.ne')
  have hsq : (m : ℚ) * 2 ^ e = (mc * mc : ℕ) * 2 ^ (ec + ec) := by
    rw [hd, num_fin_mul] at h
    exact (num_fin_inj hm h).2
  obtain ⟨j, rfl, hroot⟩ := square_of_root hm hc hlt hsq
  rw [fpSqrtVal_of_square hm hroot]
  refine fpRound_of_num hz hfin h0.ne' ?_
  rw [hd, hu, ← num_fin_shift false mc j, add_sub_cancel_right]

end

/-- Settles O32: the exact result of each operation is one that `fpRound` delivers as its encoding. -/
theorem exactFloatingResults : Obligations.ExactFloatingResults := by
  intro f rm x y z a b c _ ha hb hc hz h0
  clear_value a b
  obtain ⟨s, m, e, rfl⟩ := exists_fin ha
  obtain ⟨t, n, g, rfl⟩ := exists_fin hb
  exact ⟨fpAddVal_exact hz hc h0, fpMulVal_exact hz hc h0, fpDivVal_exact hz hc h0, fpSqrtVal_exact hz hc⟩

end Sys2Proof.Machine
end

section
/-! A write of bytes of one line at its home: what it leaves alone, and that its bytes read back (R169, R347, R450). -/

namespace Sys2Proof.Machine

/-! ## Bytes of a line -/

theorem leBytes_leNat (bs : List Byte) : leBytes bs.length (leNat bs) = bs := by
  induction bs with
  | nil => rfl
  | cons x xs ih =>
    have hx := x.isLt
    have hlow : BitVec.ofNat 8 (x.toNat + 256 * leNat xs) = x := BitVec.eq_of_toNat_eq (by rw [BitVec.toNat_ofNat]; omega)
    have hhigh : (x.toNat + 256 * leNat xs) / 256 = leNat xs := by omega
    rw [List.length_cons, leNat, leBytes, hlow, hhigh, ih]

theorem lineBytes_lineOf {bs : List Byte} (h : bs.length = 128) : lineBytes (lineOf bs) = bs := by
  have hlt := leNat_lt bs
  rw [h, show 256 = 2 ^ 8 from rfl, ← Nat.pow_mul, show 8 * 128 = 1024 from rfl] at hlt
  rw [lineBytes, lineOf, BitVec.toNat_ofNat, Nat.mod_eq_of_lt hlt, ← h, leBytes_leNat]

theorem lineBytes_length (d : LineData) : (lineBytes d).length = 128 := leBytes_length _ _

/-- Bytes that are set in a line read back. -/
theorem lineBytes_lineSet {d : LineData} {off i : Nat} {bs : List Byte} (hfit : off + bs.length ≤ 128) (hi : i < bs.length) :
    (lineBytes (lineSet d off bs)).getD (off + i) 0 = bs.getD i 0 := by
  have hoff : ((lineBytes d).take off).length = off := by rw [List.length_take, lineBytes_length]; omega
  have hlen : ((lineBytes d).take off ++ bs ++ (lineBytes d).drop (off + bs.length)).length = 128 := by
    rw [List.length_append, List.length_append, hoff, List.length_drop, lineBytes_length]
    omega
  rw [lineSet, lineBytes_lineOf hlen, List.append_assoc, List.getD_append_right _ _ _ _ (by omega), hoff, Nat.add_sub_cancel_left,
    List.getD_append _ _ _ _ hi]

theorem lineNo_toNat {pa : Nat} (h : pa < 2 ^ 52) : (lineNo pa).toNat = pa / 128 := by
  rw [lineNo, BitVec.toNat_ofNat, Nat.mod_eq_of_lt (by omega)]

/-! ## Writes to memory outside a mirrored range (R450) -/

section
variable {b b' : Body} {l : Line} {slot : Byte} {d : LineData}

@[simp] theorem MemSys.dirtyParity_cells (m : MemSys) (l : Line) : (m.dirtyParity l).cells = m.cells := by
  simp only [MemSys.dirtyParity]
  split
  · split
    · rfl
    · rfl
  · rfl

@[simp] theorem MemSys.dirtyParity_dir (m : MemSys) (l : Line) : (m.dirtyParity l).dir = m.dir := by
  simp only [MemSys.dirtyParity]
  split
  · split
    · rfl
    · rfl
  · rfl

theorem memWrite_unmirrored (h : b.mirrored (lineAddr l) = none) : b.memWrite l slot d = b.modMem fun m => (m.write l slot d).dirtyParity l := by
  simp only [Body.memWrite, h]

theorem memWrite_cells (h : b.mirrored (lineAddr l) = none) :
    (b.memWrite l slot d).mem.cells = cellPuts unwritten b.mem.cells (lineAddr l) (lineBytes d) := by
  rw [memWrite_unmirrored h, Body.modMem_mem, MemSys.dirtyParity_cells, MemSys.write]

theorem memWrite_dir (h : b.mirrored (lineAddr l) = none) : (b.memWrite l slot d).mem.dir = b.mem.dir := by
  rw [memWrite_unmirrored h, Body.modMem_mem, MemSys.dirtyParity_dir, MemSys.write]

theorem mirrored_congr (h : b'.io = b.io) (pa : Nat) : b'.mirrored pa = b.mirrored pa := by rw [Body.mirrored, h]; rfl

/-! ## What work on one line leaves alone -/

/-- Of memory's bytes `b'` may differ from `b` in those of line `l` alone, and it keeps memory's canonical form and the I/O state. -/
structure LineOnly (l : Line) (b b' : Body) : Prop where
  io : b'.io = b.io
  wf : Memory.wf unwritten b.mem.cells = true → Memory.wf unwritten b'.mem.cells = true
  others : ∀ a, a / 128 ≠ l.toNat → cellGet unwritten b'.mem.cells a = cellGet unwritten b.mem.cells a

theorem LineOnly.of_cells (hio : b'.io = b.io) (hcells : b'.mem.cells = b.mem.cells) : LineOnly l b b' :=
  ⟨hio, fun h => hcells ▸ h, fun _ _ => hcells ▸ rfl⟩

theorem LineOnly.refl (b : Body) : LineOnly l b b := .of_cells rfl rfl

theorem LineOnly.trans {a b c : Body} (h : LineOnly l a b) (k : LineOnly l b c) : LineOnly l a c :=
  ⟨k.io.trans h.io, k.wf ∘ h.wf, fun i hi => (k.others i hi).trans (h.others i hi)⟩

theorem LineOnly.unmirrored (h : LineOnly l b b') (hm : b.mirrored (lineAddr l) = none) : b'.mirrored (lineAddr l) = none :=
  (mirrored_congr h.io _).trans hm

theorem LineOnly.setDir (b : Body) (k : Line) (e : Option DirEntry) : LineOnly l b (b.setDir k e) := .of_cells rfl rfl

theorem LineOnly.memWrite (hm : b.mirrored (lineAddr l) = none) : LineOnly l b (b.memWrite l slot d) := by
  refine ⟨(HomeOnly.memWrite b l slot d).io, fun h => ?_, fun a ha => ?_⟩
  · rw [memWrite_cells hm]
    exact wf_cellPuts _ _ h
  · rw [memWrite_cells hm, cellGet_puts_outside]
    rw [lineBytes_length, lineAddr]
    omega

theorem LineOnly.homeAccept (hm : b.mirrored (lineAddr l) = none) (mask : BitVec 16) (part : Byte) (fill : Bool) :
    LineOnly l b (b.homeAccept l d slot true mask part fill).1 := by
  unfold Body.homeAccept
  rw [hm, Option.isSome_none, if_neg Bool.false_ne_true]
  split
  · exact .of_cells rfl rfl
  · split
    · rw [Bool.not_true, Bool.and_false, if_neg Bool.false_ne_true]
      exact .memWrite hm
    · exact .memWrite hm

theorem LineOnly.mapStrands (b : Body) (f : StrandId → Strand → Strand) : LineOnly l b (b.mapStrands f) :=
  .of_cells (b.mapStrands_io f) (by rw [Body.mapStrands_mem])

theorem LineOnly.endResvAt (b : Body) (pa : Nat) : LineOnly l b (b.endResvAt pa) := .mapStrands b _

theorem LineOnly.endLineResv (b : Body) (c : ClusterId) (k : Line) : LineOnly l b (b.endLineResv c k) := by
  unfold Body.endLineResv
  split
  · exact .refl b
  · exact .mapStrands b _

theorem LineOnly.dropL1 (b : Body) (c : ClusterId) (k : Line) : LineOnly l b (b.dropL1 c k) :=
  .of_cells (by simp only [Body.dropL1]) (by simp only [Body.dropL1])

theorem LineOnly.l2Remove (b : Body) (c : ClusterId) (k : Nat) (e : L2Line) (keep : Bool) : LineOnly l b (b.l2Remove c k e keep) := by
  unfold Body.l2Remove
  extract_lets b1
  have h1 : LineOnly l b b1 := .of_cells rfl rfl
  exact ((h1.trans (.dropL1 b1 c e.line)).trans (.endLineResv _ c e.line)).trans (.setDir _ _ _)

theorem LineOnly.invalidateOthers (hm : b.mirrored (lineAddr l) = none) (keep : Option ClusterId) : LineOnly l b (b.invalidateOthers l keep) := by
  refine foldl_rel (R := fun x y : Body => x.mirrored (lineAddr l) = none → LineOnly l x y) (fun x _ => .refl x)
    (fun x y z hxy hyz hx => (hxy hx).trans (hyz ((hxy hx).unmirrored hx))) (fun x c hx => ?_) _ b hm
  dsimp only
  split
  · refine LineOnly.trans ?_ (.l2Remove _ _ _ _ _)
    split
    · exact .homeAccept hx _ _ _
    · exact .refl x
  · exact .setDir _ _ _

/-! ## A write at its home (R169) -/

/-- What a write at its home does when no write-back of the line is on its way and no range mirrors it: it leaves the other lines and the I/O
state, lists no L2 for the line, and its bytes read back. -/
theorem homeStore_written {pa : Nat} {bs : List Byte} {clear : Bool} (hd : b.isDeparting (lineNo pa) = false)
    (hm : b.mirrored (lineAddr (lineNo pa)) = none) (hpa : pa < 2 ^ 52) (hfit : pa % 128 + bs.length ≤ 128)
    (hwf : Memory.wf unwritten b.mem.cells = true) :
    LineOnly (lineNo pa) b (b.homeStore pa bs slot clear) ∧ (b.homeStore pa bs slot clear).dirAt (lineNo pa) = none ∧
      ∀ i < bs.length, cellGet unwritten (b.homeStore pa bs slot clear).mem.cells (pa + i) = bs.getD i 0 := by
  generalize hx : b.homeStore pa bs slot clear = x
  unfold Body.homeStore at hx
  extract_lets l b1 d b2 b3 b4 b5 b6 at hx
  have h1 : b1 = b := by simp only [b1, Body.awaitBack, l, hd, Bool.not_false, if_true]
  have h2 : LineOnly l b1 b2 := .invalidateOthers (h1 ▸ hm) none
  have h3 : LineOnly l b2 b3 := by
    simp only [b3]
    split
    · exact .of_cells rfl rfl
    · exact .refl b2
  have h4 : LineOnly l b b4 := h1 ▸ (h2.trans h3).trans (.setDir b3 l none)
  have hm4 := h4.unmirrored hm
  have h5 : b5 = b4.memWrite l slot (lineSet d (pa % 128) bs) := rfl
  clear_value b5
  obtain ⟨hio, hcells, hdir⟩ : b6.io = b5.io ∧ b6.mem.cells = b5.mem.cells ∧ b6.mem.dir = b5.mem.dir := by
    simp only [b6]
    split
    · exact ⟨rfl, rfl, rfl⟩
    · exact ⟨rfl, rfl, rfl⟩
  subst h5
  rw [← hx]
  refine ⟨((h4.trans (.memWrite hm4)).trans (.of_cells hio hcells)).trans (.endResvAt b6 pa), ?_, fun i hi => ?_⟩
  · rw [Body.dirAt, Body.endResvAt, Body.mapStrands_mem, hdir, memWrite_dir hm4]
    exact tGet_tDel_self _ _
  · have haddr : pa + i = lineAddr l + (pa % 128 + i) := by
      rw [lineAddr, lineNo_toNat hpa]
      omega
    rw [Body.endResvAt, Body.mapStrands_mem, hcells, memWrite_cells hm4, haddr,
      cellGet_puts_inside _ _ _ (h4.wf hwf) (by rw [lineBytes_length]; omega), lineBytes_lineSet hfit hi]

end

end Sys2Proof.Machine
end

section
/-! Engine writes in flight, the records that wait for a completion ring, and generations (R217, R347, R352 to R356). -/

namespace Sys2Proof.Machine

/-! ## The commands on writes in flight (R217, R347) -/

section
variable {s : State} {w : TagWrite} {rest : List TagWrite}

/-- The machine with `ws` as the engine writes in flight. -/
def Body.withWrites (b : Body) (ws : List TagWrite) : Body := b.modIo fun i => { i with writes := ws }

@[simp] theorem Body.slice_setSlice (b : Body) (n : SliceId) (x : Slice) : (b.setSlice n x).slice n = x := by
  rw [Body.slice, Body.setSlice, Body.modIo_io, tGet_tPut_self, Option.getD_some]

/-- A dropped write of a slice is counted. -/
def Body.countDropped (b : Body) (n : SliceId) : Body := b.setSlice n { b.slice n with dropped := sat32 (b.slice n).dropped }

theorem countDropped_dropped (b : Body) (n : SliceId) : ((b.countDropped n).slice n).dropped = sat32 (b.slice n).dropped :=
  congrArg Slice.dropped (Body.slice_setSlice b n _)

theorem exec_dmaWrite (hw : s.body.io.writes = w :: rest) (hh : s.body.lineHeld (lineNo w.pa) = false) :
    exec .dmaWrite s = .next { s with body := (s.body.withWrites rest).landWrite w } := by
  show execDmaWrite s = _
  simp only [execDmaWrite, onBody, hw, hh, Bool.false_eq_true, if_false, Body.withWrites]

/-- A write without a completion record, of the slice's generation. -/
theorem landWrite_current {b : Body} (hg : (b.slice w.slice).gen = w.gen) (hd : w.done = none) :
    b.landWrite w = b.homeStore w.pa w.bytes w.slot true := by
  simp only [Body.landWrite, hg, hd, if_true]

/-- A write without a completion record, of another generation. -/
theorem landWrite_stale {b : Body} (hg : (b.slice w.slice).gen ≠ w.gen) (hd : w.done = none) : b.landWrite w = b.countDropped w.slice := by
  simp only [Body.landWrite, hg, hd, if_false, Body.countDropped]

/-- A write without a completion record whose time in flight has passed. -/
theorem exec_staleWriteExpiry (hw : s.body.io.writes = w :: rest) (hd : w.done = none) :
    let b := s.body.reach (s.body.servingHub w.slice (s.body.slice w.slice).part) (w.issued + 100000000)
    exec .staleWriteExpiry s = .next { s with body := (b.withWrites rest).countDropped w.slice } := by
  show execStaleWriteExpiry s = _
  simp only [execStaleWriteExpiry, onBody, hw, hd]
  rfl

end

/-! ## Records that wait for the completion ring (R352 to R356) -/

section
variable {b b1 : Body} {sl : SliceId} {r : HeldRec} {rest : List HeldRec} {ps : List Piece}

theorem exec_heldRecordWrite {s : State} {b' : Body} (hs : s.body.serving = true) (hp : s.body.placeRecord sl false = some b') :
    exec (.heldRecordWrite sl) s = .next { s with body := b' } := by
  show execHeldRecordWrite sl s = _
  simp only [execHeldRecordWrite, onBody, hs, hp, if_true, Option.getD_some]

/-- The slice `x` whose oldest record has got the next completion counter. -/
def Slice.assigned (x : Slice) (rest : List HeldRec) : Slice :=
  { x with waiting := rest, cqNext := x.cqNext + 1, reserved := x.reserved ++ [x.cqNext] }

/-- The writes of the record's entry, under the next completion counter of the slice `x`. -/
def Body.entryWrites (b : Body) (x : Slice) (o : Owner) (r : HeldRec) (ps : List Piece) : List TagWrite :=
  tagWrites o (b.tod o.half) (some (x.cqNext, r)) (segsOf ps) (withPhase r.bytes (x.cq.phase x.cqNext))

/-- Writes that are issued one after the other stand behind those in flight. -/
theorem foldl_issue (ws : List TagWrite) (b : Body) :
    ws.foldl (fun b w => b.modIo fun i => { i with writes := i.writes ++ [w] }) b = b.withWrites (b.io.writes ++ ws) := by
  induction ws generalizing b with
  | nil => rw [List.foldl_nil, List.append_nil]; rfl
  | cons w ws ih => rw [List.foldl_cons, ih, Body.modIo_io, List.append_assoc, List.singleton_append]; rfl

theorem placeRecord_stale {g : BitVec 16} (hw : (b.slice sl).waiting = r :: rest) (hj : r.src = .job) (hr : r.gen = some g) (hg : g ≠ (b.slice sl).gen)
    (now : Bool) : b.placeRecord sl now =
      some (b.setSlice sl { b.slice sl with waiting := rest, dropped := sat32 (b.slice sl).dropped }) := by
  simp only [Body.placeRecord, hw, hj, hr, bne_iff_ne, ne_eq, hg, not_false_eq_true, if_true]

/-- The record of a job takes the next counter of a ring that is enabled, has not stopped and has room. -/
theorem placeRecord_next {x : Slice} {o : Owner} (hx : b.slice sl = x) (ho : b.ownerOf sl x.gen (b.servingHub sl x.part) = o)
    (hw : x.waiting = r :: rest) (hj : r.src = .job) (hr : r.gen = some x.gen) (hc : r.ctr = none) (hen : x.cq.en = true)
    (hst : x.cq.stopped = false) (hroom : (x.cqNext - x.cq.head).toNat < x.cq.size)
    (hmap : b.engMap o needStore (x.cq.entryAt x.cqNext 32) 32 = (b1, .ok ps)) (hcut : ∀ g ∈ segsOf ps, b1.cutOff o.half g.pa = false) :
    b.placeRecord sl false = some ((b1.setSlice sl (x.assigned rest)).withWrites (b1.io.writes ++ b1.entryWrites x o r ps)) := by
  have hown : { o with eng := b.recEngine sl RecSrc.job } = o := ho ▸ rfl
  have hreach : (segsOf ps).find? (fun g => b1.cutOff o.half g.pa) = none :=
    List.find?_eq_none.2 fun g hg => by rw [hcut g hg]; exact Bool.false_ne_true
  simp only [Body.placeRecord, hx, hw, hj, hr, hc, hen, hst, hroom, ho, hown, hmap, hreach, bne_self_eq_false, Bool.false_eq_true, if_false,
    Bool.not_true, Bool.or_self, Option.getD_none, Option.isNone_none, decide_true, Bool.and_false, if_true, Bool.false_and, foldl_issue]
  rfl

end

/-! ## Generations (R347) -/

theorem nextGen_ne_zero (g : BitVec 16) : nextGen g ≠ 0 := by
  unfold nextGen
  split
  · decide
  · bv_omega

theorem nextGen_ne_self (g : BitVec 16) : nextGen g ≠ g := by
  unfold nextGen
  split
  · rename_i h
    rw [h]
    decide
  · bv_omega

theorem nextGen_of_ne {g : BitVec 16} (h : g ≠ 0xFFFF) : nextGen g = g + 1 := if_neg h

/-- Settles O36: a write by its generation, its expiry and a record by what each leaves, and the generations one by one. -/
theorem engineWritesAndRecords : Obligations.EngineWritesAndRecords := by
  refine ⟨fun s w rest => ?_, fun s sl r rest b1 ps => ?_, fun g => ⟨nextGen_ne_zero g, nextGen_ne_self g, nextGen_of_ne⟩⟩
  · intro b x l hw hd
    refine ⟨fun hg hh hdep hm hpa hfit hwf => ?_, fun hg hh => ?_, ?_⟩
    · obtain ⟨hline, hdir, hbytes⟩ := homeStore_written (b := b.withWrites rest) (slot := w.slot) (clear := true) hdep hm hpa hfit hwf
      have hexec := exec_dmaWrite hw hh
      rw [landWrite_current (b := b.withWrites rest) hg hd] at hexec
      exact ⟨_, hexec, congrArg Io.writes hline.io, hdir, hbytes, fun a ha => hline.others a (lineNo_toNat hpa ▸ ha),
        (congrArg Io.slices hline.io).trans rfl⟩
    · have hexec := exec_dmaWrite hw hh
      rw [landWrite_stale (b := b.withWrites rest) hg hd] at hexec
      exact hexec
    · exact ⟨_, exec_staleWriteExpiry hw hd, rfl, countDropped_dropped _ _, rfl, rfl⟩
  · intro b x i size o hs hw
    refine ⟨fun hj hr hc hen hst hroom hmap hcut => ?_, fun hj ⟨g, hr, hg⟩ => ?_⟩
    · have hplace := placeRecord_next rfl rfl hw hj hr hc hen hst hroom hmap hcut
      have hslice := Body.slice_setSlice b1 sl (x.assigned rest)
      exact ⟨_, exec_heldRecordWrite hs hplace, congrArg Slice.cqNext hslice, congrArg Slice.reserved hslice, congrArg Slice.waiting hslice,
        (congrArg Slice.cq hslice).trans rfl, rfl⟩
    · have hslice := Body.slice_setSlice b sl { x with waiting := rest, dropped := sat32 x.dropped }
      exact ⟨_, exec_heldRecordWrite hs (placeRecord_stale hw hj hr hg false), congrArg Slice.waiting hslice, congrArg Slice.dropped hslice, rfl, rfl⟩

end Sys2Proof.Machine
end

section
/-! The store buffer: what a plain store appends, what its strand sees of it, and what performing the oldest store leaves (R171, R195 to R197, R215). -/

namespace Sys2Proof.Machine

/-! ## Appending (R197) -/

theorem storeEntries_length (gs : List Seg) (bs : List Byte) : (storeEntries gs bs).length = gs.length := by
  induction gs generalizing bs with
  | nil => rfl
  | cons g gs ih => rw [storeEntries, List.length_cons, ih, List.length_cons]

theorem storeEntries_pa (gs : List Seg) (bs : List Byte) : (storeEntries gs bs).map (·.pa) = gs.map (·.pa) := by
  induction gs generalizing bs with
  | nil => rfl
  | cons g gs ih => rw [storeEntries, List.map_cons, ih, List.map_cons]

/-- The entries hold, in order, the bytes that their segments have room for. -/
theorem storeEntries_bytes (gs : List Seg) (bs : List Byte) : (storeEntries gs bs).flatMap (·.bytes) = bs.take (gs.map (·.len)).sum := by
  induction gs generalizing bs with
  | nil => rfl
  | cons g gs ih => rw [storeEntries, List.flatMap_cons, ih, List.map_cons, List.sum_cons, List.take_add]

section
variable {b b1 b' : Body} {t : StrandId} {need : Need} {prv : BitVec 2} {va n : Nat} {bytes : List Byte} {gs : List Seg}

/-- The segments of a store are as long, together, as the store. -/
theorem storeVa_length (h : b.storeVa t need prv va n = .ok b1 gs) : (gs.map (·.len)).sum = n := by
  unfold Body.storeVa at h
  split at h
  · exact nomatch h
  · rename_i ht
    dsimp only at h
    split at h
    · exact nomatch h
    · rw [← (LRes.ok.inj h).2, segsOf_length, (translate_ok ht).2]

theorem bufferStore_some (h : b.bufferStore t gs bytes = some b') :
    b' = b.setStrand t { b.strand t with sb := (b.strand t).sb ++ storeEntries gs bytes } ∧ (b.strand t).sb.length + gs.length ≤ 16 := by
  unfold Body.bufferStore at h
  dsimp only at h
  split at h
  · rename_i hroom
    exact ⟨(Option.some.inj h).symm, hroom⟩
  · exact nomatch h

/-- A plain store that ends normally has buffered its bytes at the segments of its translated address. -/
theorem plainStore_bufferStore (hs : b.storeVa t need prv va bytes.length = .ok b1 gs) (h : b.plainStore t need prv va bytes = .ok b' ()) :
    b1.bufferStore t gs bytes = some b' := by
  simp only [Body.plainStore, hs] at h
  split at h
  · rename_i hb
    rw [hb, (LRes.ok.inj h).1]
  · exact nomatch h

end

/-! ## Forwarding (R196) -/

/-- The entry of a store buffer holds the byte at an address. -/
def StoreEntry.covers (e : StoreEntry) (a : Nat) : Bool := e.pa ≤ a && a < e.pa + e.bytes.length

theorem StoreEntry.covers_iff (e : StoreEntry) (a : Nat) : e.covers a = true ↔ e.pa ≤ a ∧ a < e.pa + e.bytes.length := by
  simp only [StoreEntry.covers, Bool.and_eq_true, decide_eq_true_eq]

/-- A byte after forwarding: that of the youngest entry that covers its address, else the byte read. -/
theorem forward_getD (sb : List StoreEntry) (pa : Nat) {bytes : List Byte} {i : Nat} (hi : i < bytes.length) :
    (forward sb pa bytes).getD i 0 =
      match sb.reverse.find? (·.covers (pa + i)) with
      | some e => e.bytes.getD (pa + i - e.pa) 0
      | none => bytes.getD i 0 := by
  rw [forward, List.getD_eq_getElem _ _ (by simpa using hi), List.getElem_map, List.getElem_range]
  rfl

theorem forward_covered {sb : List StoreEntry} {e : StoreEntry} {pa i : Nat} {bytes : List Byte} (hi : i < bytes.length)
    (he : e.covers (pa + i) = true) : (forward (sb ++ [e]) pa bytes).getD i 0 = e.bytes.getD (pa + i - e.pa) 0 := by
  have hfirst : (sb ++ [e]).reverse.find? (·.covers (pa + i)) = some e := by
    rw [List.reverse_append, List.reverse_singleton, List.singleton_append]
    exact List.find?_cons_of_pos he
  rw [forward_getD _ _ hi, hfirst]

theorem forward_uncovered {sb : List StoreEntry} {pa i : Nat} {bytes : List Byte} (hi : i < bytes.length)
    (h : ∀ e ∈ sb, e.covers (pa + i) = false) : (forward sb pa bytes).getD i 0 = bytes.getD i 0 := by
  have hnone : sb.reverse.find? (·.covers (pa + i)) = none := by
    rw [List.find?_eq_none]
    intro e he
    rw [h e (List.mem_reverse.1 he)]
    exact Bool.false_ne_true
  rw [forward_getD _ _ hi, hnone]

/-! ## Performing the oldest store (R171, R195, R215) -/

theorem Body.cluster_modCluster_ne (b : Body) {c d : ClusterId} (f : Cluster → Cluster) (h : d ≠ c) : (b.modCluster c f).cluster d = b.cluster d := by
  have h' : c.val ≠ d.val := fun e => h (Fin.ext e.symm)
  simp [Body.cluster, Body.modCluster, Vector.getElem_set_ne, h']

@[simp] theorem Body.cluster_modStrand (b : Body) (t : StrandId) (f : Strand → Strand) (c : ClusterId) : (b.modStrand t f).cluster c = b.cluster c := rfl

/-- A strand once the granule of an address has been stored to. -/
def Strand.afterStore (u : Strand) (pa : Nat) : Strand := if u.resv = some (pa / 256) then u.endResv else u

theorem Body.strand_endResvAt (b : Body) (pa : Nat) (t : StrandId) : (b.endResvAt pa).strand t = (b.strand t).afterStore pa :=
  Body.strand_mapStrands _ _ t

/-- The strand's cluster holds the line of an address in slot `k` as `l2`, and has stored bytes at the address there. -/
def Body.storeL2 (b : Body) (t : StrandId) (k : Nat) (l2 : L2Line) (pa : Nat) (bs : List Byte) : Body :=
  let c := clusterOfStrand t
  let d := lineSet l2.data (pa % 128) bs
  (((b.setL2 c k { l2 with data := d, st := .m }).useL2 c k).storeL1 t (lineNo pa) d).endResvAt pa

section
variable (b : Body) (t : StrandId) (k : Nat) (l2 : L2Line) (pa : Nat) (bs : List Byte)

@[simp] theorem Body.storeL2_mem : (b.storeL2 t k l2 pa bs).mem = b.mem := by simp [Body.storeL2, Body.endResvAt, Body.storeL1]
@[simp] theorem Body.storeL2_dies : (b.storeL2 t k l2 pa bs).dies = b.dies := by simp [Body.storeL2, Body.endResvAt, Body.storeL1]
@[simp] theorem Body.storeL2_io : (b.storeL2 t k l2 pa bs).io = b.io := by simp [Body.storeL2, Body.endResvAt, Body.storeL1]
@[simp] theorem Body.storeL2_ctl : (b.storeL2 t k l2 pa bs).ctl = b.ctl := by simp [Body.storeL2, Body.endResvAt, Body.storeL1]

/-- Past the L2 slot and its order of use, performing the store touches no cluster. -/
theorem Body.storeL2_clusters : (b.storeL2 t k l2 pa bs).clusters =
    ((b.setL2 (clusterOfStrand t) k { l2 with data := lineSet l2.data (pa % 128) bs, st := .m }).useL2 (clusterOfStrand t) k).clusters := by
  simp only [Body.storeL2, Body.endResvAt, Body.mapStrands_clusters, Body.storeL1]

theorem Body.storeL2_l2 : ((b.storeL2 t k l2 pa bs).cluster (clusterOfStrand t)).l2 =
    tPut (b.cluster (clusterOfStrand t)).l2 k { l2 with st := .m, data := lineSet l2.data (pa % 128) bs } := by
  rw [Body.cluster, Body.storeL2_clusters, ← Body.cluster, Body.useL2, Body.cluster_modCluster, Body.setL2, Body.cluster_modCluster]

theorem Body.storeL2_cluster_ne {c : ClusterId} (h : c ≠ clusterOfStrand t) : (b.storeL2 t k l2 pa bs).cluster c = b.cluster c := by
  rw [Body.cluster, Body.storeL2_clusters, ← Body.cluster, Body.useL2, Body.cluster_modCluster_ne _ _ h, Body.setL2, Body.cluster_modCluster_ne _ _ h]

theorem Body.storeL2_strand (v : StrandId) : (b.storeL2 t k l2 pa bs).strand v = (b.strand v).afterStore pa := by
  rw [Body.storeL2, Body.strand_endResvAt, Body.strand, storeL1_strands, Body.useL2_strands, Body.setL2_strands, ← Body.strand]

end

section
variable {b : Body} {t : StrandId} {k : Nat} {l2 : L2Line}

/-- A store to a line that the cluster's enabled L2 holds in E or M, of an address that has no copy in the other half, is performed there (R195). -/
theorem perform_l2 {g : Seg} {bs : List Byte} (hcls : g.cls ≠ .scratchpad) (hline : b.lineCheck t g.pa false = none)
    (hon : (b.cluster (clusterOfStrand t)).l2e = true) (hhas : b.l2Has (clusterOfStrand t) (lineNo g.pa) = some (k, l2))
    (hst : l2.st = .e ∨ l2.st = .m) (hm : b.mirrored g.pa = none) : b.perform t g bs = .yes (b.storeL2 t k l2 g.pa bs) := by
  have hcheck : b.dataCheck t g.cls g.pa = none := by rw [Body.dataCheck, if_neg hcls, hline]
  have hw : l2.writable = true := by
    simp only [L2Line.writable, Bool.or_eq_true, decide_eq_true_eq]
    exact hst
  simp only [Body.perform, hcheck, hcls, hon, hhas, hw, hm, if_false, if_true, Bool.not_true, Bool.and_false, Bool.false_eq_true, Option.isSome_none]
  rfl

/-- The oldest buffered store, once it is performed, has left the buffer. -/
theorem drainOne_performed {e : StoreEntry} {rest : List StoreEntry} (hsb : (b.strand t).sb = e :: rest) (hcls : b.classOf e.pa ≠ .scratchpad)
    (hline : b.lineCheck t e.pa false = none) (hon : (b.cluster (clusterOfStrand t)).l2e = true)
    (hhas : b.l2Has (clusterOfStrand t) (lineNo e.pa) = some (k, l2)) (hst : l2.st = .e ∨ l2.st = .m) (hm : b.mirrored e.pa = none) :
    b.drainOne t = (b.storeL2 t k l2 e.pa e.bytes).modStrand t fun u => { u with sb := rest } := by
  have hperf := perform_l2 (g := { pa := e.pa, len := e.bytes.length, slot := e.slot, nol3 := e.nol3, cls := b.classOf e.pa, via := e.via })
    (bs := e.bytes) hcls hline hon hhas hst hm
  simp only [Body.drainOne, hsb, hperf]

end

theorem exec_storePerformed {s : State} {t : StrandId} {b : Body} (h : s.body.drainOne t = b) :
    exec (.storePerformed t) s = .next { s with body := b } :=
  onBody_of_eq (f := fun b => b.drainOne t) h

/-- Settles O21: a store by the entries that it appends, forwarding by the youngest entry that covers a byte, and STORE_PERFORMED by what the
store leaves of the L2 slot, the clusters and the strands. -/
theorem storeBuffer : Obligations.StoreBuffer := by
  refine ⟨fun b b1 b' t need prv va bytes gs hs hp => ?_, fun sb e pa i bytes hi => ⟨fun h1 h2 => ?_, fun h => ?_⟩,
    fun s t v e rest k l2 c => ?_⟩
  · obtain ⟨hb', hroom⟩ := bufferStore_some (plainStore_bufferStore hs hp)
    refine ⟨storeVa_ok hs, storeEntries gs bytes, hb', ?_, storeEntries_pa gs bytes, fun _ _ => ?_⟩
    · rw [List.length_append, storeEntries_length]
      exact hroom
    · rw [storeEntries_bytes, storeVa_length hs, List.take_length]
  · exact forward_covered hi ((e.covers_iff _).2 ⟨h1, h2⟩)
  · refine forward_uncovered hi fun x hx => Bool.eq_false_iff.2 fun hc => ?_
    obtain ⟨hlo, hhi⟩ := (x.covers_iff _).1 hc
    have hout := h x hx
    omega
  · intro b l here hsb hcls hline hon hhas hst hm
    refine ⟨_, exec_storePerformed (drainOne_performed hsb hcls hline hon hhas hst hm), ?_, ?_, fun j hj => ?_, fun hc => ?_,
      ?_, ?_, ?_, ?_, fun hv => ?_, ?_⟩
    · rw [Body.modStrand_eq, Body.strand_setStrand]
    · rw [Body.cluster_modStrand, Body.storeL2_l2, tGet_tPut_self]
    · rw [Body.cluster_modStrand, Body.storeL2_l2, tGet_tPut_ne _ _ hj]
    · rw [Body.cluster_modStrand, Body.storeL2_cluster_ne _ _ _ _ _ _ hc]
    · rw [Body.modStrand_mem, Body.storeL2_mem]
    · rw [Body.modStrand_dies, Body.storeL2_dies]
    · rw [Body.modStrand_io, Body.storeL2_io]
    · rw [Body.modStrand_ctl, Body.storeL2_ctl]
    · rw [Body.modStrand_eq, Body.strand_setStrand_ne _ _ hv, Body.storeL2_strand]
      rfl
    · rw [Body.modStrand_eq, Body.strand_setStrand, Body.storeL2_strand]
      rfl

end Sys2Proof.Machine
end

section
/-! Customer micro-routines: dispatch of an X-instruction, a routine of one operate word, the budget, and the fetch of a micro-word (R254 to R263, R270, R278). -/

namespace Sys2Proof.Machine

/-! ## Fetch of a micro-word (R254, R270) -/

theorem redirect_none {ms : List (BitVec 32)} {a : Nat} (h : ∀ r ∈ ms, r.getLsbD 31 = true → (r.extractLsb' 16 15).toNat ≠ a) : redirect ms a = none := by
  have hno : ms.find? (fun m => matchOn m && matchAddr m = a) = none := by
    rw [List.find?_eq_none]
    intro r hr hm
    obtain ⟨hon, ha⟩ := (Bool.and_eq_true _ _).mp hm
    exact h r hr hon (of_decide_eq_true ha)
  rw [redirect, hno, Option.map_none]

theorem redirect_some {ms : List (BitVec 32)} {a : Nat} {m : BitVec 32}
    (h : ms.find? (fun r => r.getLsbD 31 && (r.extractLsb' 16 15).toNat = a) = some m) : redirect ms a = some (matchSlot m) :=
  congrArg (Option.map matchSlot) h

section
variable {k : SlipBank} {a : Nat}

theorem fetch_rom (ha : a < slipBase) (h : redirect k.matchRegs a = none) : k.fetch a = some (Config.coreRom a) := by
  rw [SlipBank.fetch, if_pos ha, h]

theorem fetch_redirected (ha : a < slipBase) {n : Nat} (h : redirect k.matchRegs a = some n) : k.fetch a = k.patch[n]? := by
  rw [SlipBank.fetch, if_pos ha, h]

theorem fetch_patch (h1 : slipBase ≤ a) (h2 : a < customerBase) : k.fetch a = k.patch[a - slipBase]? := by
  rw [SlipBank.fetch, if_neg (Nat.not_lt.2 h1), if_pos h2]

theorem fetch_customer (h : customerBase ≤ a) : k.fetch a = k.code[a - customerBase]? := by
  rw [SlipBank.fetch, if_neg (Nat.not_lt.2 (Nat.le_trans (by decide) h)), if_neg (Nat.not_lt.2 h)]

end

/-! ## A word that operates and retires (R256 to R263) -/

theorem Strand.setReg_micro (u : Strand) (r : Reg) (v : W) : (u.setReg r v).micro = u.micro := by
  rw [Strand.setReg]
  cases u.place r <;> rfl

/-- A micro-register that names a general register, by its number or as the rd of the instruction. -/
theorem microSet_general (u : Strand) (m : MicroRun) {x : XInsn} {n : Nat} {d : Reg} (h : n = d.toNat ∨ (n = 49 ∧ d = x.rd)) (v : W) :
    microSet u m x n v = (u.setReg d v, m) := by
  obtain rfl | ⟨rfl, rfl⟩ := h
  · simp only [microSet, if_pos d.isLt, BitVec.ofNat_toNat, BitVec.setWidth_eq]
  · rfl

/-- The micro-CC after an operation that yields `cc`. -/
def MicroRun.withCc (m : MicroRun) (cc : Option (BitVec 4)) : MicroRun :=
  match cc with
  | some k => { m with cc := k, wroteCc := true }
  | none => m

/-- The strand after a final commit that finds `cc` written. -/
def Strand.retireCc (u : Strand) (cc : Option (BitVec 4)) : Strand :=
  match cc with
  | some k => u.setCC k
  | none => u

theorem MicroRun.withCc_written (m : MicroRun) (h : m.wroteCc = false) (cc : Option (BitVec 4)) :
    (if (m.withCc cc).wroteCc then some (m.withCc cc).cc else none) = cc := by
  cases cc with
  | some k => rfl
  | none => rw [MicroRun.withCc, h, if_neg Bool.false_ne_true]

theorem Strand.without_micro {u : Strand} (h : u.micro = none) : { u with micro := none } = u := by rw [← h]

theorem Strand.retireCc_micro (u : Strand) (cc : Option (BitVec 4)) : (u.retireCc cc).micro = u.micro := by cases cc <;> rfl

section
variable {b b' : Body} {t : StrandId} {x : XInsn} {w : MicroWord} {m m' : MicroRun}

/-- Operands of a word. -/
def microArgs (u : Strand) (m : MicroRun) (x : XInsn) (w : MicroWord) : List W := [microGet u m x w.srcA, microGet u m x w.srcB, microGet u m x w.srcC]

theorem microOp_operate (hc : w.cls ≤ 1) {d : Reg} (hd : w.dst = d.toNat ∨ (w.dst = 49 ∧ d = x.rd)) : b.microOp t x w m =
    .ok (b.setStrand t ((b.strand t).setReg d (Config.uop (BitVec.ofNat 8 w.cls) w.uop (microArgs (b.strand t) m x w) w.imm m.cc)))
      (m.withCc (Config.uopCc (BitVec.ofNat 8 w.cls) w.uop (microArgs (b.strand t) m x w) w.imm m.cc)) := by
  have h01 : w.cls = 0 ∨ w.cls = 1 := by omega
  obtain h | h := h01 <;> simp only [Body.microOp, h, microSet_general _ _ hd] <;> rfl

theorem microRun_retires {bank : SlipBank} {bytes : W} {fuel : Nat} {raw : BitVec 160} (h0 : m.words < 65536) (hf : bank.fetch m.pos = some raw)
    (ho : (microWord raw).opens = false) (hc : (microWord raw).commit = true) (hs : (microWord raw).seq = 3)
    (hop : b.microOp t x (microWord raw) m = .ok b' m') (hb : m'.bad = none) :
    b.microRun t x bank bytes (fuel + 1) m =
      .ok (b'.modStrand t fun u => { u.retireCc (if m'.wroteCc then some m'.cc else none) with micro := none }) none := by
  have hbudget : ¬(65536 ≤ m.words ∧ (!m.inSpan) = true) := fun h => absurd h.1 (Nat.not_le.2 h0)
  simp only [Body.microRun, hbudget, hf, ho, hc, hs, hop, hb, Bool.or_false, Bool.false_and, Bool.not_true, Bool.false_eq_true, if_false, if_true]
  rfl

end

/-! ## Dispatch (R118, R261) -/

section
variable {s : State} {b : Body} {t : StrandId} {fn : BitVec 4} {rd ra : Reg} {imm : BitVec 24} {raw : BitVec 160}

/-- The decode entry of an X-instruction. -/
def Body.entryOf (b : Body) (t : StrandId) (fn : BitVec 4) : BitVec 32 := (b.bankOf t).entries.getD fn.toNat 0

/-- The instruction as its micro-routine sees it. -/
def Body.xInsn (b : Body) (t : StrandId) (fn : BitVec 4) (rd ra : Reg) (imm : BitVec 24) : XInsn :=
  { rd := rd, ra := ra, rb := BitVec.ofNat 5 (16 + fn.toNat), imm := imm, pc := (b.strand t).pc }

/-- A routine at the entry `e`, no word of which has run. -/
def Body.entryRun (b : Body) (t : StrandId) (e : BitVec 32) : MicroRun :=
  { pos := entryAddr e, temps := freeTemps b.freeCtr, cc := BitVec.ofNat 4 (Config.freeNat (b.freeCtr + 16)), wroteCc := false,
    snap := (b.strand t).snapshot, snapCc := none, pins := [], inSpan := false, bad := none, words := 0 }

theorem exec_xInstruction (h : Runs s t (.xInstruction t fn rd ra imm) b) :
    exec (.xInstruction t fn rd ra imm) s = insn t (.xInstruction t fn rd ra imm) (fun b => xRes b t fn rd ra imm) false s := by
  have hr := h.ready
  simp only [Strand.ready, Bool.and_eq_true, decide_eq_true_eq, Option.isNone_iff_eq_none] at hr
  obtain ⟨-, hmicro⟩ := hr
  refine (if_neg ?_ :)
  rw [hmicro, Option.isSome_none, Bool.and_false]
  exact Bool.false_ne_true

theorem xRes_invalid (hm : (b.strand t).micro = none) (hv : entryValid (b.entryOf t fn) = false) : xRes b t fn rd ra imm = .trap b trapIllegal := by
  have hv' : entryValid ((b.bankOf t).entries.getD fn.toNat 0) = false := hv
  simp only [xRes, hm, hv', Bool.not_false, if_true, illegal]

theorem xRes_valid (hm : (b.strand t).micro = none) (hv : entryValid (b.entryOf t fn) = true) : xRes b t fn rd ra imm =
    needPrv b t (entryPrv (b.entryOf t fn)) (Body.microRun { b with freeCtr := b.freeCtr + 17 } t (b.xInsn t fn rd ra imm) (b.bankOf t)
      (insnBytes (.xInstruction t fn rd ra imm)) 65600 (b.entryRun t (b.entryOf t fn))) := by
  have hv' : entryValid ((b.bankOf t).entries.getD fn.toNat 0) = true := hv
  simp only [xRes, hm, hv', Bool.not_true, Bool.false_eq_true, if_false]
  rfl

/-- An X-instruction whose routine is one operate word that commits and retires. -/
theorem xInstruction_retires (h : Runs s t (.xInstruction t fn rd ra imm) b) (hm : (b.strand t).micro = none) (hv : entryValid (b.entryOf t fn) = true)
    (hp : entryPrv (b.entryOf t fn) ≤ (b.strand t).prv.toNat) (hf : (b.bankOf t).fetch (entryAddr (b.entryOf t fn)) = some raw)
    (hcls : (microWord raw).cls ≤ 1) (hcommit : (microWord raw).commit = true) (hseq : (microWord raw).seq = 3) (hopens : (microWord raw).opens = false)
    {d : Reg} (hd : (microWord raw).dst = d.toNat ∨ ((microWord raw).dst = 49 ∧ d = rd)) :
    let w := microWord raw
    let run := b.entryRun t (b.entryOf t fn)
    let args := microArgs (b.strand t) run (b.xInsn t fn rd ra imm) w
    exec (.xInstruction t fn rd ra imm) s = .next (finish s { b with freeCtr := b.freeCtr + 17 } t
      (((b.strand t).setReg d (Config.uop (BitVec.ofNat 8 w.cls) w.uop args w.imm run.cc)).retireCc (Config.uopCc (BitVec.ofNat 8 w.cls) w.uop args w.imm run.cc))
      (b.seqPc t 6)) := by
  intro w run args
  have hop := microOp_operate (b := { b with freeCtr := b.freeCtr + 17 }) (t := t) (x := b.xInsn t fn rd ra imm) (m := run) hcls hd
  have hbad : (run.withCc (Config.uopCc (BitVec.ofNat 8 w.cls) w.uop args w.imm run.cc)).bad = none := by
    unfold MicroRun.withCc
    split <;> rfl
  have hrun := microRun_retires (bytes := insnBytes (.xInstruction t fn rd ra imm)) (fuel := 65599) (show 0 < 65536 by decide) hf hopens hcommit hseq hop hbad
  rw [exec_xInstruction h]
  refine h.insn_done (b' := { b with freeCtr := b.freeCtr + 17 }) (pc := none) ?_ rfl
  rw [xRes_valid hm hv, needPrv_of_le hp, hrun]
  have hmicro : (((b.strand t).setReg d (Config.uop (BitVec.ofNat 8 w.cls) w.uop args w.imm run.cc)).retireCc
      (Config.uopCc (BitVec.ofNat 8 w.cls) w.uop args w.imm run.cc)).micro = none := by
    rw [Strand.retireCc_micro, Strand.setReg_micro, hm]
  rw [run.withCc_written rfl, Body.modStrand_eq, Body.strand_setStrand, Body.setStrand_setStrand]
  exact congrArg (fun u => Res.ok (Body.setStrand { b with freeCtr := b.freeCtr + 17 } t u) none) (Strand.without_micro hmicro)

end

/-! ## The budget (R278) -/

theorem xBudget_raises {s : State} {t : StrandId} {bytes : W} (hr : (s.body.strand t).run = .running) (ha : (s.body.strand t).act = .xBudget bytes)
    (hd : (s.body.resume t).dueFirst t ((s.body.strand t).tl = 0) = none) :
    exec (.xBudget t) s = .next { s with
      body := ((s.body.resume t).report (strandLoc t) 0x0203
        (dataOf [(1, bytes.toNat / 2 ^ 18 % 64), (1, 0), (6, (s.body.strand t).pc.toNat)])).takeTrap t
          { cause := 0x01, rule := .upK, info0 := bytes } (s.body.strand t).pc } := by
  have hd' : (s.body.modStrand t fun u => { u with act := .ready }).dueFirst t ((s.body.strand t).tl = 0) = none := hd
  show execXBudget t s = _
  refine onBody_of_eq ?_
  simp only [hr, ha, hd']
  rfl

/-- Settles O40: an X-instruction by its decode entry and the one word of its routine, the budget by its command, and a fetch by the part of the
address space in which the micro-address lies. -/
theorem microRoutines : Obligations.MicroRoutines := by
  intro s t b fn rd ra imm raw u i e
  refine ⟨fun h hm => ⟨fun hv hp => ?_, fun hv hlt hp => ?_, fun hv hle hf => ?_⟩, fun bytes => ?_,
    fun k a m => ⟨fun ha h => fetch_rom ha (redirect_none h), fun ha h => fetch_redirected ha (redirect_some h), fetch_patch, fetch_customer⟩⟩
  · rw [exec_xInstruction h]
    exact h.traps hp (xRes_invalid hm hv) rfl
  · rw [exec_xInstruction h]
    exact h.traps hp ((xRes_valid hm hv).trans (needPrv_of_lt hlt)) rfl
  · intro m k run x args v cc hcls hcommit hseq hopens d hd w
    exact xInstruction_retires h hm hv hle hf hcls hcommit hseq hopens hd
  · intro v b0 hr ha hd
    exact ⟨_, xBudget_raises hr ha hd, rfl⟩

end Sys2Proof.Machine
end

section
/-! What the accesses, records and programs of channel engines leave of the engines' service (R326, R347): no work changes it. -/

namespace Sys2Proof.Machine

/-- The service states of the channel engines. -/
def Body.services (b : Body) : Vector Service 32 := b.io.chans.map (·.service)

theorem services_of_io {b b' : Body} (h : b'.io = b.io) : b'.services = b.services := by rw [Body.services, h, Body.services]

theorem foldl_services {α : Type} {f : Body → α → Body} (step : ∀ b a, (f b a).services = b.services) (l : List α) (b : Body) :
    (l.foldl f b).services = b.services :=
  foldl_rel (R := fun b b' : Body => b'.services = b.services) (fun _ => rfl) (fun _ _ _ h k => Eq.trans k h) step l b

/-! ## Memory and the ways home (R169, R175 to R177) -/

@[simp] theorem spend_services (b : Body) : b.spend.services = b.services := rfl
@[simp] theorem modMem_services (b : Body) (f : MemSys → MemSys) : (b.modMem f).services = b.services := rfl
@[simp] theorem modDie_services (b : Body) (d : CDieId) (f : Die → Die) : (b.modDie d f).services = b.services := rfl
@[simp] theorem useL3_services (b : Body) (d : CDieId) (k : Nat) : (b.useL3 d k).services = b.services := rfl
@[simp] theorem setL2_services (b : Body) (c : ClusterId) (slot : Nat) (e : L2Line) : (b.setL2 c slot e).services = b.services := rfl
@[simp] theorem setDir_services (b : Body) (l : Line) (e : Option DirEntry) : (b.setDir l e).services = b.services := rfl
@[simp] theorem report_services (b : Body) (loc code : BitVec 16) (data : BitVec 128) : (b.report loc code data).services = b.services := rfl
@[simp] theorem count_services (b : Body) (kind loc : Nat) (f : Tilth → Tilth) : (b.count kind loc f).services = b.services := rfl
@[simp] theorem countOverflow_services (b : Body) (p : Byte) : (b.countOverflow p).services = b.services := rfl
@[simp] theorem memWrite_services (b : Body) (l : Line) (slot : Byte) (d : LineData) : (b.memWrite l slot d).services = b.services :=
  services_of_io (HomeOnly.memWrite b l slot d).io

@[simp] theorem pick_services {α : Type} (b : Body) (l : List α) : (b.pick l).2.services = b.services := by
  unfold Body.pick; grind [spend_services]

theorem crossing_services (b : Body) (src dst : HubId) (l : Option Line) : (b.crossing src dst l).2.services = b.services := by
  unfold Body.crossing; grind [modMem_services]

theorem sendBack_services (b : Body) (d : Departing) : (b.sendBack d).services = b.services := by
  unfold Body.sendBack; grind [crossing_services, modMem_services]

theorem replaceWay_services (b : Body) (u : UseOrder) (set : Nat) (ws : List Nat) (ovf : Bool) : (b.replaceWay u set ws ovf).2.services = b.services := by
  unfold Body.replaceWay; grind [pick_services]

theorem l3Fill_services (b : Body) (d : CDieId) (l : Line) (data : LineData) (dirty : Bool) (slot : Byte) (mask : BitVec 16) (part : Byte) :
    (b.l3Fill d l data dirty slot mask part).1.services = b.services := by
  unfold Body.l3Fill
  grind [sendBack_services, replaceWay_services, modDie_services, useL3_services, countOverflow_services]

theorem homeAccept_services (b : Body) (l : Line) (d : LineData) (slot : Byte) (nol3 : Bool) (mask : BitVec 16) (part : Byte) (fill : Bool) :
    (b.homeAccept l d slot nol3 mask part fill).1.services = b.services := by
  unfold Body.homeAccept
  grind [l3Fill_services, memWrite_services, modDie_services, useL3_services]

theorem acceptBack_services (b : Body) (d : Departing) : (b.acceptBack d).services = b.services := by
  unfold Body.acceptBack
  grind [homeAccept_services, memWrite_services, modMem_services]

theorem awaitBack_services (b : Body) (l : Line) : (b.awaitBack l).services = b.services := by
  unfold Body.awaitBack
  grind [foldl_services acceptBack_services]

theorem downgrade_services (b : Body) (l : Line) : (b.downgrade l).services = b.services := by
  unfold Body.downgrade
  grind [homeAccept_services, setL2_services, setDir_services]

theorem dmaLine_services (b : Body) (l : Line) (slot : Byte) : (b.dmaLine l slot).2.services = b.services :=
  (downgrade_services _ _).trans (awaitBack_services _ _)

theorem loseLine_services (b : Body) (l : Line) (kind : Nat) : (b.loseLine l kind).services = b.services := by
  unfold Body.loseLine
  grind [modMem_services, report_services]

theorem look_services (b : Body) (c : WalkCtx) (hit : Option TlbEntry) : (b.look c hit).b.services = b.services := by
  unfold Body.look
  grind [loseLine_services, spend_services]

/-! ## Engine accesses and records (R350 to R361) -/

@[simp] theorem setSlice_services (b : Body) (s : SliceId) (x : Slice) : (b.setSlice s x).services = b.services := rfl
@[simp] theorem modSlice_services (b : Body) (s : SliceId) (f : Slice → Slice) : (b.modSlice s f).services = b.services := rfl
@[simp] theorem modSubch_services (b : Body) (key : Nat) (f : Subch → Subch) : (b.modSubch key f).services = b.services := rfl
@[simp] theorem modRunning_services (b : Body) (ix : Nat) (f : Running → Running) : (b.modRunning ix f).services = b.services := rfl
@[simp] theorem modStream_services (b : Body) (n : Nat) (f : Stream → Stream) : (b.modStream n f).services = b.services := rfl
@[simp] theorem jPut_services (b : Body) (ix : Nat) (e : JEntry) : (b.jPut ix e).services = b.services := rfl
@[simp] theorem send_services (b : Body) (e : HubId × Fin 16) (nvme : Bool) (c : DevCmd) : (b.send e nvme c).services = b.services := rfl
@[simp] theorem engCache_services (b : Body) (s : SliceId) (e : TlbEntry) : (b.engCache s e).services = b.services := rfl
@[simp] theorem engUncache_services (b : Body) (s : SliceId) (g : TlbTag) : (b.engUncache s g).services = b.services := rfl

theorem modIo_services (b : Body) (f : Io → Io) (h : (f b.io).chans = b.io.chans) : (b.modIo f).services = b.services := by
  rw [Body.services, Body.modIo_io, h, Body.services]

theorem engXlat_services (b : Body) (o : Owner) (need : Need) (va len : Nat) : (b.engXlat o need va len).1.services = b.services := by
  unfold Body.engXlat
  extract_lets c on1 cached x b1 b2
  have hx : x.b.services = b.services := look_services ..
  have h1 : b1.services = x.b.services := by grind [engUncache_services]
  have h2 : b2.services = b1.services := by grind [engCache_services]
  clear_value x b1 b2
  grind

theorem engPieces_services (o : Owner) (need : Need) (fuel : Nat) (b : Body) (va n : Nat) : (b.engPieces o need fuel va n).1.services = b.services := by
  induction fuel generalizing b va n with
  | zero => rfl
  | succ fuel ih =>
    unfold Body.engPieces
    grind [engXlat_services]

theorem engMap_services (b : Body) (o : Owner) (need : Need) (va n : Nat) : (b.engMap o need va n).1.services = b.services := engPieces_services ..

theorem engLine_services {b b' : Body} {half : HubId} {l : Line} {pa : Nat} (h : b.engLine half l = some (pa, b')) : b'.services = b.services := by
  unfold Body.engLine at h
  grind [loseLine_services]

theorem engSegs_services (half : HubId) (gs : List Seg) (b : Body) : (b.engSegs half gs).1.services = b.services := by
  induction gs generalizing b with
  | nil => rfl
  | cons g gs ih =>
    unfold Body.engSegs
    grind [engLine_services, dmaLine_services]

theorem engRead_services (b : Body) (o : Owner) (va n : Nat) : (b.engRead o va n).1.services = b.services := by
  unfold Body.engRead
  grind [engMap_services, engSegs_services]

theorem engWrite_services (b : Body) (o : Owner) (va : Nat) (bs : List Byte) : (b.engWrite o va bs).1.services = b.services := by
  unfold Body.engWrite Body.engEmit
  grind [engMap_services, modIo_services]

theorem areaRead_services (o : Owner) (a : Area) (b : Body) : (b.areaRead o a).1.services = b.services := by
  induction a generalizing b with
  | nil => rfl
  | cons g a ih =>
    unfold Body.areaRead
    grind [engRead_services]

theorem areaWrite_services (o : Owner) (a : Area) (b : Body) (bs : List Byte) : (b.areaWrite o a bs).1.services = b.services := by
  induction a generalizing b bs with
  | nil => rfl
  | cons g a ih =>
    unfold Body.areaWrite
    grind [engWrite_services]

theorem cceAcc_services {α : Type} (x : Eng α) (reason : Byte) : (cceAcc x reason).1.services = x.1.services := by
  unfold cceAcc
  grind

theorem gather_services (b : Body) (o : Owner) (g : Group) (off n : Nat) : (b.gather o g off n).1.services = b.services := by
  unfold Body.gather
  grind [cceAcc_services, areaRead_services]

theorem storeGroup_services (b : Body) (o : Owner) (g : Group) (off : Nat) (data : List Byte) : (b.storeGroup o g off data).1.services = b.services :=
  (cceAcc_services _ _).trans (areaWrite_services _ _ _ _)

theorem jMod_services (b : Body) (ix : Nat) (f : JEntry → JEntry) : (b.jMod ix f).services = b.services := by
  unfold Body.jMod
  grind [jPut_services]

theorem toOrphan_services (b : Body) (ix : Nat) : (b.toOrphan ix).services = b.services := by
  unfold Body.toOrphan
  grind [modIo_services]

theorem placeRecord_services {b b' : Body} {s : SliceId} (h : b.placeRecord s false = some b') : b'.services = b.services := by
  unfold Body.placeRecord at h
  extract_lets x at h
  split at h
  · exact nomatch h
  · rename_i r rest hw
    extract_lets b1 i o bs at h
    have hmap := engMap_services b o needStore (x.cq.entryAt i 32) 32
    obtain ⟨-, h⟩ | ⟨-, h⟩ := ite_eq_iff.mp h
    · grind [setSlice_services, toOrphan_services]
    · obtain ⟨-, h⟩ | ⟨-, h⟩ := ite_eq_iff.mp h
      · exact nomatch h
      · obtain ⟨-, h⟩ | ⟨-, h⟩ := ite_eq_iff.mp h
        · exact nomatch h
        · split at h
          · rename_i he
            rw [he] at hmap
            cases h
            exact hmap
          · rename_i b2 ps he
            rw [he] at hmap
            split at h
            · cases h
              exact hmap
            · extract_lets b3 b4 ws at h
              cases h
              have h4 : b4.services = b3.services := by grind [jMod_services]
              refine (foldl_services (fun _ _ => ?_) ws b4).trans (h4.trans hmap)
              rw [Bool.false_and, if_neg Bool.false_ne_true]
              rfl

theorem placeRecords_services (s : SliceId) (n : Nat) (b : Body) : (b.placeRecords s false n).services = b.services := by
  induction n generalizing b with
  | zero => rfl
  | succ n ih =>
    unfold Body.placeRecords
    grind [placeRecord_services]

theorem postRecord_services (b : Body) (s : SliceId) (r : HeldRec) : (b.postRecord s r).services = b.services := placeRecords_services ..

/-! ## Programs (R301, R320, R326, R333) -/

theorem modChan_services (b : Body) (h : HubId) (n : Fin 16) (f : ChanEng → ChanEng) :
    (b.modChan h n f).services = b.services.set (chanIx h n) (f (b.chan h n)).service := by
  rw [Body.services, Body.modChan, Body.modIo_io, Vector.map_set]
  rfl

theorem services_get (b : Body) (h : HubId) (n : Fin 16) : b.services[chanIx h n] = (b.chan h n).service := Vector.getElem_map _ _

theorem modChan_services_keep (b : Body) (h : HubId) (n : Fin 16) {f : ChanEng → ChanEng} (hf : ∀ g, (f g).service = g.service) :
    (b.modChan h n f).services = b.services := by
  rw [modChan_services, hf, ← services_get]
  exact Vector.set_getElem_self _

theorem touchChan_services (b : Body) (e : HubId × Fin 16) : (b.touchChan e).services = b.services := modChan_services_keep _ _ _ fun _ => rfl

theorem writeFinal_services (b : Body) (ix : Nat) (sc ds : Byte) : (b.writeFinal ix sc ds).services = b.services := by
  unfold Body.writeFinal
  grind [touchChan_services, jPut_services, modIo_services, modSubch_services]

theorem endProgram_services (b : Body) (ix : Nat) (sc ds : Byte) : (b.endProgram ix sc ds).services = b.services := by
  unfold Body.endProgram
  grind [writeFinal_services, modRunning_services]

theorem endErr_services (b : Body) (ix : Nat) (e : CceErr) : (b.endErr ix e).services = b.services := by
  unfold Body.endErr Body.hold
  grind [endProgram_services, modSubch_services]

theorem spoilRead_services (b : Body) (ix : Nat) : (b.spoilRead ix).services = b.services := by
  unfold Body.spoilRead
  grind [storeGroup_services, spend_services]

theorem issue_services (b : Body) (ix : Nat) (c : DevCmd) : (b.issue ix c).services = b.services := by
  unfold Body.issue
  grind [send_services, jPut_services]

theorem cbind_services {α β : Type} (x : Cce α) (f : Body → α → Cce β) (hf : ∀ b v, (f b v).1.services = b.services) : (cbind x f).1.services = x.1.services := by
  unfold cbind
  grind

theorem again_services (b : Body) (ix : Nat) (k : DevCmd) (recov : Nat) : (b.again ix k recov).services = b.services := by
  unfold Body.again
  grind [endErr_services, issue_services, gather_services, cceAcc_services, areaRead_services, cbind_services]

theorem redrive_services (ix fuel : Nat) (b : Body) : (b.redrive ix fuel).services = b.services := by
  induction fuel generalizing b with
  | zero => rfl
  | succ fuel ih =>
    unfold Body.redrive Body.waits
    grind [modRunning_services, again_services]

theorem leaveDevice_services (b : Body) (ix : Nat) : (b.leaveDevice ix).services = b.services := by
  unfold Body.leaveDevice
  grind [modRunning_services, jMod_services, modIo_services]

theorem readFormat_services (b : Body) (key path : Nat) : (b.readFormat key path).2.services = b.services := by
  unfold Body.readFormat
  grind [modSubch_services, spend_services, count_services]

theorem newPath_services (ix : Nat) (needs : Bool) (fuel : Nat) (b : Body) : (b.newPath ix needs fuel).2.services = b.services := by
  induction fuel generalizing b with
  | zero => rfl
  | succ fuel ih =>
    unfold Body.newPath
    grind [readFormat_services, jPut_services]

theorem pickEngine_services (b : Body) (h : HubId) : (b.pickEngine h).2.services = b.services := pick_services ..

theorem waits_services (b : Body) (ix : Nat) : (b.waits ix).services = b.services := rfl

theorem changePath_services (b : Body) (ix : Nat) : (b.changePath ix).services = b.services := by
  unfold Body.changePath
  split
  · rename_i r0 _ _
    extract_lets doubt
    have hp := newPath_services ix r0.moves 8 (b.leaveDevice ix)
    rw [leaveDevice_services] at hp
    split
    rename_i b1 e
    rw [e] at hp
    split
    · exact hp
    · split
      · grind [jPut_services, spoilRead_services, modSubch_services, spend_services, modRunning_services, endProgram_services]
      · extract_lets near at'
        split
        rename_i e2 b2 he
        have h2 : b2.services = b1.services := by grind [pickEngine_services]
        grind [modSubch_services, modRunning_services, endProgram_services, jMod_services, redrive_services, waits_services]
  · rfl

/-! ## Drains and takeovers (R326, R337) -/

theorem drainDoubt_services (b : Body) (n : Nat) : (b.drainDoubt n).services = b.services := by
  unfold Body.drainDoubt
  grind [modIo_services, modStream_services]

theorem drainMore_services (n fuel : Nat) (b : Body) : (b.drainMore n fuel).services = b.services := by
  induction fuel generalizing b with
  | zero => rfl
  | succ fuel ih =>
    unfold Body.drainMore
    grind [send_services]

theorem drainPath_services (b : Body) (n : Nat) (avoid : BitVec 16) : (b.drainPath n avoid).services = b.services := by
  unfold Body.drainPath
  grind [drainDoubt_services, pickEngine_services, modStream_services, modSubch_services, drainMore_services]

theorem spreadDrains_services (b : Body) (h : HubId) (n : Fin 16) : (b.spreadDrains h n).services = b.services := by
  refine foldl_services (fun x t => ?_) _ b
  grind [pickEngine_services, modStream_services, drainPath_services]

theorem takeOver_services (b : Body) (ix : Nat) (e : HubId × Fin 16) (from' : HubId) : (b.takeOver ix e from').services = b.services := by
  unfold Body.takeOver
  grind [jPut_services, touchChan_services, postRecord_services, modIo_services, modRunning_services, changePath_services]

theorem spreadWork_services (b : Body) (h : HubId) (n : Fin 16) : (b.spreadWork h n).services = b.services := by
  unfold Body.spreadWork
  extract_lets held b1
  have h1 : b1.services = b.services := foldl_services (fun x t => by grind [pickEngine_services, takeOver_services, count_services]) _ b
  split
  rename_i e b2 he
  have h2 : b2.services = b1.services := by grind [spreadDrains_services, pickEngine_services]
  extract_lets b3
  have h3 : b3.services = b2.services := modChan_services_keep _ _ _ fun _ => rfl
  refine Eq.trans ?_ (h3.trans (h2.trans h1))
  refine Vector.ext fun i hi => ?_
  simp only [Body.services, Body.modIo_io, Vector.getElem_map]
  split
  · rfl
  · rfl

end Sys2Proof.Machine
end

section
/-! A channel engine's banks and micro-words, event by event, and its check-stop (R273, R279, R280, R326). -/

namespace Sys2Proof.Machine

/-! ## A channel engine that check-stops (R280, R326, R429, R430) -/

theorem service_of_services {b b' : Body} (h : b'.services = b.services) (g : HubId) (n : Fin 16) : (b'.chan g n).service = (b.chan g n).service := by
  rw [← services_get, h, services_get]

theorem chan_modChan_self (b : Body) (h : HubId) (n : Fin 16) (f : ChanEng → ChanEng) : (b.modChan h n f).chan h n = f (b.chan h n) := by
  rw [Body.chan, Body.modChan, Body.modIo_io]
  exact Vector.getElem_set_self _

theorem outChan_service (b : Body) (h : HubId) (n : Fin 16) : ((b.outChan h n).chan h n).service = .outUntilProving := by
  unfold Body.outChan
  extract_lets b1 g
  have h1 : (b1.chan h n).service = .outUntilProving := by rw [chan_modChan_self]
  split
  · exact h1
  · exact h1

theorem leaveService_ne {mark : Service} (hm : mark ≠ .inService) (returned : Option Nat) (now : Nat) : leaveService mark returned now ≠ .inService := by
  unfold leaveService
  split
  · split
    · decide
    · exact hm
  · exact hm

theorem dropChan_leaves (b : Body) (h : HubId) (n : Fin 16) {mark : Service} (hm : mark ≠ .inService) (code : BitVec 16) (data : BitVec 128) :
    ((b.dropChan h n mark code data).chan h n).service ≠ .inService := by
  unfold Body.dropChan
  extract_lets to' b1 b2 b3 b4
  have h1 : (b1.chan h n).service = to' := by rw [chan_modChan_self]
  have h4 : (b4.chan h n).service ≠ .inService := by
    simp only [b4]
    split
    · rw [outChan_service]
      decide
    · rw [show (b3.chan h n).service = to' from h1]
      exact leaveService_ne hm _ _
  rwa [service_of_services (spreadWork_services b4 h n)]

theorem FreezeOnly.chan {b b' : Body} (k : FreezeOnly b b') (h : HubId) (n : Fin 16) : b'.chan h n = b.chan h n := by obtain ⟨_, _, _, rfl⟩ := k; rfl

theorem chanCheckstop_leaves (b : Body) (h : HubId) (n : Fin 16) : ((b.chanCheckstop h n).chan h n).service ≠ .inService := by
  rw [Body.chanCheckstop, (Body.freezeSilt_freezeOnly _ _ _).chan]
  exact dropChan_leaves b h n (by decide) _ _

theorem chanUp_of_service {b : Body} {h : HubId} {n : Fin 16} (hs : (b.chan h n).service ≠ .inService) : b.chanUp h n = false := by
  rw [Body.chanUp, decide_eq_false hs, Bool.false_and]

/-! ## Banks (R279, R280) -/

section
variable {g : ChanEng}

/-- A bank below the check bank. -/
theorem ne_check_of_le {x : BitVec 2} (h : x.toNat ≤ 2) : x ≠ 3 := by
  rintro rfl
  exact absurd h (by decide)

theorem meet_event_base (h : g.bank = 0) : g.meet false = g.enter 1 := by simp only [ChanEng.meet, h, if_true, Bool.false_eq_true, if_false]

theorem meet_event_queued (h : g.bank ≠ 0) (hq : (g.queue.filter (! ·)).length < 256) : g.meet false = { g with queue := g.queue ++ [false] } := by
  simp only [ChanEng.meet, h, hq, if_true, Bool.false_eq_true, if_false]

theorem meet_event_full (h : g.bank ≠ 0) (hq : 256 ≤ (g.queue.filter (! ·)).length) : g.meet false = g := by
  simp only [ChanEng.meet, h, Nat.not_lt.2 hq, Bool.false_eq_true, if_false]

theorem meet_fault_enters (h : g.bank.toNat ≤ 1) : g.meet true = g.enter 2 := by simp only [ChanEng.meet, h, if_true]

theorem meet_fault_queued (h : g.bank = 2) : g.meet true = { g with queue := g.queue ++ [true] } := by
  have h2 : ¬(2 : BitVec 2).toNat ≤ 1 := by decide
  simp only [ChanEng.meet, h, h2, if_true, if_false]

theorem ownFault_enters_fault (h : g.bank.toNat ≤ 1) : g.ownFault = g.enter 2 := if_pos h

theorem ownFault_enters_check (h : g.bank = 2) : g.ownFault = g.enter 3 := if_neg (by rw [h]; decide)

/-- The engine has made an ordered switch if it is at a point where it changes banks. -/
theorem settleSlip_eq : g.settleSlip = { g with slipOld := g.slipOld && !(decide (g.bank = 0) && g.stack.isEmpty && g.atCommit) } := by
  unfold ChanEng.settleSlip
  cases hc : (decide (g.bank = 0) && g.stack.isEmpty && g.atCommit)
  · simp
  · simp

theorem giveBack_idle {k : BitVec 2} {rest : List (BitVec 2)} (hs : g.stack = k :: rest) (hq : g.queue = []) : g.giveBack =
    { g with bank := k, stack := rest, slipOld := g.slipOld && !(decide (k = 0) && rest.isEmpty && g.atCommit) } := by
  simp only [ChanEng.giveBack, hs, settleSlip_eq, hq, List.contains_nil, Bool.false_eq_true, and_false, if_false]

theorem giveBack_fault {k : BitVec 2} {rest : List (BitVec 2)} (hs : g.stack = k :: rest) (hk : k.toNat ≤ 1) (hq : g.queue = [true]) : g.giveBack =
    ChanEng.enter { g with bank := k, stack := rest, slipOld := g.slipOld && !(decide (k = 0) && rest.isEmpty && g.atCommit), queue := [] } 2 := by
  simp [ChanEng.giveBack, hs, settleSlip_eq, hq, hk]

/-! ## Micro-words (R273, R279) -/

/-- The engine with the commit mark of a word of its base bank. -/
def ChanEng.noteCommit (g : ChanEng) (commit : Bool) : ChanEng := if g.bank = 0 then { g with atCommit := commit } else g

/-- The engine after a word, with the commit mark `commit`, that goes on at an address of its bank. -/
def ChanEng.goes (g : ChanEng) (commit : Bool) (a : Nat) : ChanEng :=
  ChanEng.settleSlip { g.noteCommit commit with addr := vset (g.noteCommit commit).addr (g.noteCommit commit).bank.toNat a }

theorem goes_eq (commit : Bool) (a : Nat) : g.goes commit a =
    { g with
      addr := g.addr.setIfInBounds g.bank.toNat a
      atCommit := if g.bank = 0 then commit else g.atCommit
      slipOld := g.slipOld && !(decide (g.bank = 0) && g.stack.isEmpty && if g.bank = 0 then commit else g.atCommit) } := by
  rw [ChanEng.goes, settleSlip_eq]
  by_cases h : g.bank = 0
  · simp only [ChanEng.noteCommit, h, if_true, vset]
  · simp only [ChanEng.noteCommit, h, if_false, vset]

theorem toList_getD_eq_vget {α : Type} {n : Nat} (v : Vector α n) (i : Nat) (d : α) : v.toList.getD i d = vget v i d := by
  rw [List.getD_eq_getElem?_getD, Vector.getElem?_toList, vget]
  split
  · rename_i h
    rw [Vector.getElem?_eq_getElem h, Option.getD_some]
  · rename_i h
    rw [Vector.getElem?_eq_none (Nat.not_lt.1 h), Option.getD_none]

/-- The engine with its bank halted. -/
def ChanEng.asleep (g : ChanEng) : ChanEng := { g with halted := true }

/-- Where a word leads, by its BR. -/
def ChanEng.follow (g : ChanEng) (x : EngineWord) (code : BitVec 14) (c : BitVec 6 → Bool) : EngineBr → Option ChanEng
  | .next => some (g.goes x.commit x.next)
  | .alt => some (g.goes x.commit (if c x.cond then x.alt else x.next))
  | .dispatch => some (g.goes x.commit ((x.next + code.toNat) % 2 ^ 14))
  | .ret => some (g.noteCommit x.commit).giveBack
  | .halt => some (g.goes x.commit x.next).asleep
  | .reserved => none

theorem runWord_eq {k : EngineBank} {w : BitVec 128} (hf : k.fetch (g.addr.toList.getD g.bank.toNat 0) = some w) (code : BitVec 14) (c : BitVec 6 → Bool) :
    g.runWord k code c = g.follow (engineWord w) code c (engineBr (w.extractLsb' 124 3)) := by
  rw [toList_getD_eq_vget] at hf
  rw [ChanEng.runWord, hf]
  show _ = g.follow (engineWord w) code c (engineWord w).br
  cases hb : (engineWord w).br <;> simp only [Option.map_some, hb] <;> rfl

end

theorem engineBankOf_eq (b : Body) (g : ChanEng) :
    b.engineBankOf g = if b.ctl.engActive ≠ g.slipOld then b.ctl.engSlip[1] else b.ctl.engSlip[0] := by
  simp only [Body.engineBankOf, bne_iff_ne]

/-! ## The command (R279, R280) -/

/-- The event leaves the engine `g'` and nothing else of the strands, the control hierarchy and memory. -/
def EngineBecomes (s : State) (h : HubId) (n : Fin 16) (k : EngineEvent) (g' : ChanEng) : Prop :=
  ∃ b' : Body, exec (.engineFault h n k) s = .next { s with body := b' } ∧ b'.chan h n = g' ∧ b'.strands = s.body.strands ∧ b'.ctl = s.body.ctl ∧
    b'.mem = s.body.mem

/-- The engine with its bank no longer halted. -/
def ChanEng.woken (g : ChanEng) : ChanEng := { g with halted := false }

/-- What an event does at an engine in service. -/
def Body.engineActs (b : Body) (h : HubId) (n : Fin 16) : EngineEvent → Body
  | .event => b.modChan h n fun g => g.woken.meet false
  | .bankReturn => b.modChan h n ChanEng.giveBack
  | .fault => if (b.chan h n).bank = 3 then b.chanCheckstop h n else b.modChan h n fun g => g.meet true
  | .ownFault => if (b.chan h n).bank = 3 then b.chanCheckstop h n else b.modChan h n ChanEng.ownFault
  | .internal => if (b.chan h n).bank = 3 then b.chanCheckstop h n else b.modChan h n fun g => g.enter 3
  | .word code =>
    if (b.chan h n).halted then b
    else match (b.chan h n).runWord (b.engineBankOf (b.chan h n)) code fun c => Config.engineCond c b.freeCtr with
      | some g => (b.modChan h n fun _ => g).spend
      | none => if (b.chan h n).bank = 3 then b.chanCheckstop h n else b.modChan h n fun g => g.enter 3

theorem exec_engine_down {s : State} {h : HubId} {n : Fin 16} (hd : s.body.chanUp h n = false) (k : EngineEvent) :
    exec (.engineFault h n k) s = .next s := by
  show execEngineFault h n k s = _
  simp only [execEngineFault, onBody, hd, Bool.not_false, Bool.or_true, if_true]

section
variable {s : State} {h : HubId} {n : Fin 16} {k : EngineEvent} (hs : s.body.serving = true) (hu : s.body.chanUp h n = true)
include hs hu

theorem exec_engine_up : exec (.engineFault h n k) s = .next { s with body := s.body.engineActs h n k } := by
  have hup : ¬(!s.body.serving || !s.body.chanUp h n) = true := by rw [hs, hu]; decide
  show execEngineFault h n k s = _
  rw [execEngineFault, onBody, if_neg hup]
  cases k <;> rfl

theorem engineBecomes_of_acts {f : ChanEng → ChanEng} {g' : ChanEng} (ha : s.body.engineActs h n k = s.body.modChan h n f)
    (hf : f (s.body.chan h n) = g') : EngineBecomes s h n k g' :=
  ⟨_, (exec_engine_up hs hu).trans (congrArg (fun b => Host.Outcome.next { s with body := b }) ha), (chan_modChan_self _ h n f).trans hf, rfl, rfl, rfl⟩

theorem engineBecomes_of_follow {w : BitVec 128} {code : BitVec 14} {g' : ChanEng} (hh : (s.body.chan h n).halted = false)
    (hf : (s.body.engineBankOf (s.body.chan h n)).fetch ((s.body.chan h n).addr.toList.getD (s.body.chan h n).bank.toNat 0) = some w)
    {y : BitVec 3} (hb : (w.extractLsb' 124 3).toNat = y.toNat)
    (hg : (s.body.chan h n).follow (engineWord w) code (fun c => Config.engineCond c s.body.freeCtr) (engineBr y) = some g') :
    EngineBecomes s h n (.word code) g' := by
  have ha : s.body.engineActs h n (.word code) = (s.body.modChan h n fun _ => g').spend := by
    simp only [Body.engineActs, hh, runWord_eq hf, BitVec.eq_of_toNat_eq hb, hg, Bool.false_eq_true, if_false]
  exact ⟨(s.body.modChan h n fun _ => g').spend, (exec_engine_up hs hu).trans (congrArg (fun b => Host.Outcome.next { s with body := b }) ha),
    chan_modChan_self s.body h n fun _ => g', rfl, rfl, rfl⟩

/-- A fault or an internal error at check level. -/
theorem engine_checkstops (h3 : (s.body.chan h n).bank = 3) (hk : k = .fault ∨ k = .ownFault ∨ k = .internal) :
    exec (.engineFault h n k) s = .next { s with body := s.body.chanCheckstop h n } := by
  rw [exec_engine_up hs hu]
  rcases hk with rfl | rfl | rfl <;> rw [Body.engineActs, if_pos h3]

end

end Sys2Proof.Machine
end

section
/-! The drain of a stream: its barrier, the blocks that its drive confirms, and the block that it rejects (R337, R338, R341). -/

namespace Sys2Proof.Machine

/-! ## Streams and subchannels under a change (R281, R337) -/

theorem stream_modStream {b : Body} {n : Nat} {t : Stream} (h : tGet b.io.streams n = some t) (f : Stream → Stream) :
    tGet (b.modStream n f).io.streams n = some (f t) := by
  rw [Body.modStream, Body.modIo_io, tGet_tMod_self, h, Option.map_some]

theorem subch_modSubch {b : Body} {key : Nat} {c : Subch} (h : b.subch key = some c) (f : Subch → Subch) : (b.modSubch key f).subch key = some (f c) := by
  rw [Body.subch, Body.modSubch, Body.modIo_io, tGet_tMod_self, ← Body.subch, h, Option.map_some]

/-! ## Issuing blocks (R337) -/

/-- At most device commands are added, with new numbers; beside them the list of known controllers and the counter of free choices may differ. -/
structure SendsOnly (b b' : Body) : Prop where
  frame : ∃ cmds next controllers ctr, b' =
    { b with io := { b.io with cmds := cmds, nextCmd := next, controllers := controllers }, freeCtr := ctr }
  next : b.io.nextCmd ≤ b'.io.nextCmd
  cmds : ∀ q ∈ b'.io.cmds, q ∈ b.io.cmds ∨ b.io.nextCmd ≤ q.id

theorem SendsOnly.refl (b : Body) : SendsOnly b b := ⟨⟨_, _, _, _, rfl⟩, Nat.le_refl _, fun _ => Or.inl⟩

theorem SendsOnly.trans {a b c : Body} (h : SendsOnly a b) (k : SendsOnly b c) : SendsOnly a c where
  frame := by
    obtain ⟨_, _, _, _, e⟩ := h.frame
    obtain ⟨_, _, _, _, e'⟩ := k.frame
    exact ⟨_, _, _, _, by rw [e', e]⟩
  next := Nat.le_trans h.next k.next
  cmds q hq := (k.cmds q hq).elim (h.cmds q) fun hn => .inr (Nat.le_trans h.next hn)

theorem SendsOnly.send (b : Body) (e : HubId × Fin 16) (nvme : Bool) (c : DevCmd) : SendsOnly b (b.send e nvme c) where
  frame := ⟨_, _, _, _, rfl⟩
  next := Nat.le_succ _
  cmds q hq := (List.mem_append.1 hq).imp_right fun hn => by rw [List.mem_singleton.1 hn]

theorem SendsOnly.drainMore (n fuel : Nat) (b : Body) : SendsOnly b (b.drainMore n fuel) := by
  induction fuel generalizing b with
  | zero => exact .refl b
  | succ fuel ih =>
    unfold Body.drainMore
    split
    · exact .refl b
    · split
      · exact .refl b
      · extract_lets i h out ok
        split
        · exact .refl b
        · split
          · exact .refl b
          · extract_lets k b1
            have h1 : SendsOnly b b1 := .send _ _ _ _
            split
            · exact h1
            · exact h1.trans (ih b1)

theorem SendsOnly.streams {b b' : Body} (h : SendsOnly b b') : b'.io.streams = b.io.streams := by obtain ⟨_, _, _, _, e⟩ := h.frame; rw [e]
theorem SendsOnly.subchs {b b' : Body} (h : SendsOnly b b') : b'.io.subchs = b.io.subchs := by obtain ⟨_, _, _, _, e⟩ := h.frame; rw [e]
theorem SendsOnly.mem {b b' : Body} (h : SendsOnly b b') : b'.mem = b.mem := by obtain ⟨_, _, _, _, e⟩ := h.frame; rw [e]

theorem mem_dropCmd {b : Body} {id : Nat} {q : DevCmd} (h : q ∈ (b.dropCmd id).io.cmds) : q.id ≠ id := by
  obtain ⟨-, hid⟩ := List.mem_filter.1 h
  exact bne_iff_ne.1 hid

/-! ## The drive's answer (R337, R341) -/

section
variable {s : State} {b : Body} {n : Fin 64} {t : Stream} {c : Subch} {k : DevCmd} {more : List DevCmd} {ans : DevResult} {key : Nat}

theorem exec_drainBlockConfirmed (ht : tGet s.body.io.streams n.val = some t) (hs : s.body.serving = true)
    (hc : s.body.subch (subchKey t.slice.val t.image.toNat) = some c) (hk : s.body.drainCmds n.val = k :: more) (hp : s.body.portUp k.port = true)
    (ha : k.abort = none) : exec (.drainBlockConfirmed n ans) s =
      .next { s with body := s.body.drainAnswer n.val t (subchKey t.slice.val t.image.toNat) c k ans } := by
  show execDrainBlockConfirmed n ans s = _
  simp only [execDrainBlockConfirmed, onBody, ht, hs, hc, hk, hp, ha, Bool.not_true, Bool.false_eq_true, if_false, Option.isNone_none, Bool.and_self,
    if_true]

theorem drainAnswer_busy (h : ans.cls = .busy) : b.drainAnswer n.val t key c k ans = b := by simp only [Body.drainAnswer, h]

/-- The machine once the drive has confirmed the first block of a drain by the command `id`. -/
def Body.blockLeaves (b : Body) (n id : Nat) : Body :=
  (b.dropCmd id).modStream n fun t => { t with recov := false, blocks := t.blocks.drop 1 }

theorem drainAnswer_good (h : ans.cls = .good) (hr : k.recov = 0) (hb : 1 < t.blocks.length) :
    b.drainAnswer n.val t key c k ans = (b.blockLeaves n.val k.id).drainMore n.val 64 := by
  have h0 : ¬(0 : Nat) = 1 := by decide
  simp only [Body.drainAnswer, h, hr, h0, if_false, Body.drained, Nat.not_le.2 hb, Body.blockLeaves]

theorem blockLeaves_leaves (ht : tGet b.io.streams n.val = some t) {x : BitVec 64 × List Byte} {rest : List (BitVec 64 × List Byte)}
    (hx : t.blocks = x :: rest) (id : Nat) :
    let b' := (b.blockLeaves n.val id).drainMore n.val 64
    tGet b'.io.streams n.val = some { t with blocks := rest, recov := false } ∧ b'.io.subchs = b.io.subchs ∧ b'.mem = b.mem ∧
      (id < b.io.nextCmd → ∀ q ∈ b'.io.cmds, q.id ≠ id) := by
  have hsend := SendsOnly.drainMore n.val 64 (b.blockLeaves n.val id)
  refine ⟨?_, hsend.subchs, hsend.mem, fun hid q hq => ?_⟩
  · rw [hsend.streams, Body.blockLeaves, stream_modStream (b := b.dropCmd id) ht, hx, List.drop_one, List.tail_cons]
  · obtain hq | hq := hsend.cmds q hq
    · exact mem_dropCmd hq
    · exact Nat.ne_of_gt (Nat.lt_of_lt_of_le hid hq)

/-- The sense block of a drain's command that the drive rejects. -/
def rejectSense (c : Subch) (k : DevCmd) (r : DevResult) : List Byte :=
  let i := c.lastPath.getD 0
  senseBlock ((c.paths[i]?.map (·.proto)).getD 0) r.sense.kind r.sense.key r.sense.code (BitVec.ofNat 8 i) r.sense.sfl k.pos r.sense.raw

theorem drainAnswer_error (h : ans.cls = .error) (hr : k.recov = 0) : b.drainAnswer n.val t key c k ans =
    (b.dropCmd k.id).drainStop n.val key k.pos 0x24 0x80 (some (rejectSense c k ans)) := by
  have h0 : ¬(0 : Nat) = 1 := by decide
  simp only [Body.drainAnswer, h, hr, h0, if_false]
  rfl

theorem drainStop_stream (ht : tGet b.io.streams n.val = some t) (lon : BitVec 64) (sc ds : Byte) (sense : Option (List Byte)) :
    tGet (b.drainStop n.val key lon sc ds sense).io.streams n.val = some { t with blocks := [], active := false, recov := false } :=
  stream_modStream (b := b) ht fun t => { t with blocks := [], active := false, recov := false }

theorem drainStop_subch (hc : b.subch key = some c) (n : Nat) (lon : BitVec 64) (sc ds : Byte) (sense : Option (List Byte)) :
    (b.drainStop n key lon sc ds sense).subch key = some { c with lon := lon, reports := c.reports ++ [(sc, ds, sense)] } := by
  rw [Body.drainStop, Body.streamReport]
  exact subch_modSubch (subch_modSubch hc _) _

theorem drainStop_cmds (n : Nat) (lon : BitVec 64) (sc ds : Byte) (sense : Option (List Byte)) :
    ∀ q ∈ (b.drainStop n key lon sc ds sense).io.cmds, q.who = .drain n → q.live = false := by
  intro q hq hw
  obtain ⟨p, -, rfl⟩ := List.mem_map.1 (show q ∈ List.map _ _ from hq)
  by_cases hp : p.who = .drain n
  · simp only [if_pos hp]
  · simp only [if_neg hp] at hw
    exact absurd hw hp

end

/-! ## The barrier (R338) -/

section
variable {s : State} {n : Fin 64} {t : Stream}

/-- The machine with the barrier of a stream released. -/
def Body.barrierDown (b : Body) (n : Nat) : Body := b.modStream n fun x => { x with barrier := false, active := false }

/-- The transaction of a subchannel that waits to go on. -/
def Body.dueOn (b : Body) (key : Nat) : Option (Nat × JEntry) := b.outstanding.find? fun e => e.2.subchKey = key && (e.2.st = 2 || e.2.st = 3)

theorem exec_barrier_idle (ht : tGet s.body.io.streams n.val = some t) (h : t.barrier = false ∨ t.blocks ≠ []) : exec (.drainBarrierRelease n) s = .next s := by
  have hidle : (!s.body.serving || !t.barrier || !t.blocks.isEmpty) = true := by
    obtain h | h := h
    · rw [h, Bool.not_false, Bool.or_true, Bool.true_or]
    · rw [List.isEmpty_eq_false_iff.2 h, Bool.not_false, Bool.or_true]
  show execDrainBarrierRelease n s = _
  simp only [execDrainBarrierRelease, onBody, ht, hidle, if_true]

theorem exec_barrier_release (ht : tGet s.body.io.streams n.val = some t) (hs : s.body.serving = true) (hb : t.barrier = true) (he : t.blocks = []) :
    exec (.drainBarrierRelease n) s = .next { s with
      body := match (s.body.barrierDown n.val).dueOn (subchKey t.slice.val t.image.toNat) with
        | some e => (s.body.barrierDown n.val).runProgram e.1
        | none => s.body.barrierDown n.val } := by
  show execDrainBarrierRelease n s = _
  simp only [execDrainBarrierRelease, onBody, ht, hs, hb, he, Bool.not_true, List.isEmpty_nil, Bool.or_self, Bool.false_eq_true, if_false]
  rfl

end

/-- Settles O44: an event by what its engine does in service, a check-stop by the services that its takeovers leave, a stream by what the release of
its barrier and the drive's answer leave. -/
theorem channelEngineBanksAndDrains : Obligations.ChannelEngineBanksAndDrains := by
  refine ⟨fun s h n => ?_, fun s n t c ans x rest => ?_⟩
  · intro b g becomes to'
    refine ⟨fun hs hu => ⟨fun h0 => ?_, fun h0 hq => ?_, fun h0 hq => ?_, fun h1 => ⟨?_, ?_⟩, fun h2 => ⟨?_, ?_⟩, fun h2 => ?_, fun k rest hst => ?_,
      fun code w hh hf => ?_, fun h3 k hk => ?_⟩, exec_engine_down⟩
    · exact engineBecomes_of_acts (f := fun g => g.woken.meet false) hs hu rfl (meet_event_base (g := g.woken) h0)
    · exact engineBecomes_of_acts (f := fun g => g.woken.meet false) hs hu rfl (meet_event_queued (g := g.woken) h0 hq)
    · exact engineBecomes_of_acts (f := fun g => g.woken.meet false) hs hu rfl (meet_event_full (g := g.woken) h0 hq)
    · exact engineBecomes_of_acts hs hu (if_neg (ne_check_of_le (Nat.le_succ_of_le h1))) (meet_fault_enters h1)
    · exact engineBecomes_of_acts hs hu (if_neg (ne_check_of_le (Nat.le_succ_of_le h1))) (ownFault_enters_fault h1)
    · exact engineBecomes_of_acts hs hu (if_neg (h2.trans_ne (by decide))) (meet_fault_queued h2)
    · exact engineBecomes_of_acts hs hu (if_neg (h2.trans_ne (by decide))) (ownFault_enters_check h2)
    · exact engineBecomes_of_acts (f := fun g => g.enter 3) hs hu (if_neg (ne_check_of_le h2)) rfl
    · exact ⟨fun hq => engineBecomes_of_acts hs hu rfl (giveBack_idle hst hq), fun hk hq => engineBecomes_of_acts hs hu rfl (giveBack_fault hst hk hq)⟩
    · have hfetch : (b.engineBankOf g).fetch (g.addr.toList.getD g.bank.toNat 0) = some w := by
        rw [engineBankOf_eq]
        exact hf
      intro br next atCommit goes
      refine ⟨fun hb => ?_, fun hb => ?_, fun hb => ?_, fun hb => ?_⟩
      · exact engineBecomes_of_follow hs hu hh hfetch (y := 0) hb (congrArg some (goes_eq _ _))
      · exact engineBecomes_of_follow hs hu hh hfetch (y := 1) hb (congrArg some (goes_eq _ _))
      · exact engineBecomes_of_follow hs hu hh hfetch (y := 2) hb (congrArg some (goes_eq _ _))
      · exact engineBecomes_of_follow hs hu hh hfetch (y := 4) hb (congrArg (fun x : ChanEng => some x.asleep) (goes_eq _ _))
    · exact ⟨_, engine_checkstops hs hu h3 hk, chanCheckstop_leaves _ h n, chanUp_of_service (chanCheckstop_leaves _ h n)⟩
  · intro b key ht hs
    refine ⟨exec_barrier_idle ht, fun hb he => ?_, fun k more hc hx hk hr hp ha => ?_⟩
    · have hexec := exec_barrier_release ht hs hb he
      refine ⟨stream_modStream ht _, fun hd => ?_, fun e hd => ?_⟩
      · rw [hexec, show (s.body.barrierDown n.val).dueOn key = none from hd]
        rfl
      · rw [hexec, show (s.body.barrierDown n.val).dueOn key = some e from hd]
        rfl
    · have hexec := exec_drainBlockConfirmed (ans := ans) ht hs hc hk hp ha
      refine ⟨fun h => ?_, fun h hrest => ?_, fun h => ?_⟩
      · rw [hexec, drainAnswer_busy h]
      · have hlen : 1 < t.blocks.length := by
          rw [hx, List.length_cons]
          exact Nat.succ_lt_succ (List.length_pos_iff.2 hrest)
        rw [drainAnswer_good h hr hlen] at hexec
        exact ⟨_, hexec, blockLeaves_leaves ht hx k.id⟩
      · rw [drainAnswer_error h hr] at hexec
        exact ⟨_, _, hexec, drainStop_stream (b := s.body.dropCmd k.id) ht _ _ _ _, drainStop_subch (b := s.body.dropCmd k.id) hc _ _ _ _ _,
          drainStop_cmds (b := s.body.dropCmd k.id) _ _ _ _ _⟩

end Sys2Proof.Machine
end

section
/-! Flelet's commands on slices, partitions, subchannels, targets, network addresses, streams and orphans, on valid parameters (R281 to R283, R331,
R335, R336, R344 to R349, R359, R366, R449, R450, R509 to R512). -/

namespace Sys2Proof.Machine

/-! ## The branch that a match takes

A `match` of the model is a function of what it matches and of its branches. With what is matched replaced by what it equals, the branch taken follows by
definition, and the function around it need not be unfolded. -/

theorem match_congr {α β γ δ : Sort*} {F : α → β → γ → δ} {x y : α} {p : β} {q : γ} (h : x = y) : F x p q = F y p q := h ▸ rfl

theorem match_congr₂ {α α' β γ δ : Sort*} {F : α → α' → β → γ → δ} {x y : α} {x' y' : α'} {p : β} {q : γ} (h : x = y) (h' : x' = y') :
    F x x' p q = F y y' p q := h ▸ h' ▸ rfl

theorem next_of_body {s : State} {b b' : Body} (h : b = b') : (Host.Outcome.next { s with body := b } : Host.Outcome State Fault Refusal) = .next { s with body := b' } :=
  h ▸ rfl

section
variable {s : State} {r : FReq}

/-! ## Checks that pass -/

theorem Passes.cons {o : Nat} {ok : Bool} {cs : List (Nat × Bool)} (h : ok = true) (t : Passes cs) : Passes ((o, ok) :: cs) := (passes_cons o ok cs).2 ⟨h, t⟩

theorem Passes.append {cs ds : List (Nat × Bool)} (h : Passes cs) (t : Passes ds) : Passes (cs ++ ds) := (passes_append cs ds).2 ⟨h, t⟩

theorem Passes.ite {p : Prop} [Decidable p] {cs ds : List (Nat × Bool)} (h : p → Passes cs) (h' : ¬p → Passes ds) : Passes (if p then cs else ds) := by
  split
  · exact h ‹_›
  · exact h' ‹_›

theorem both_true {a b : Bool} (ha : a = true) (hb : b = true) : (a && b) = true := Bool.and_eq_true_iff.2 ⟨ha, hb⟩

theorem either_true {p q : Prop} [Decidable p] [Decidable q] (h : p ∨ q) : (decide p || decide q) = true := by
  rw [Bool.or_eq_true, decide_eq_true_eq, decide_eq_true_eq]
  exact h

/-- A check that excludes a value under a condition. -/
theorem not_both {p : Prop} [Decidable p] {b : Bool} (h : p → b = false) : (!(decide p && b)) = true := by
  by_cases hp : p
  · rw [h hp, Bool.and_false]; rfl
  · rw [decide_eq_false hp, Bool.false_and]; rfl

/-! ## Slices (R344 to R349, R366) -/

theorem otherHalf_unsplit {b : Body} (h : b.isSplit = false) (i k : HubId) : b.otherHalf i k = false := by rw [Body.otherHalf, h]; rfl

theorem ownHalf_unsplit {b : Body} (h : b.isSplit = false) (i k : HubId) : (!b.otherHalf i k) = true := by rw [otherHalf_unsplit h, Bool.not_false]

theorem servesHere_unsplit {b : Body} (h : b.isSplit = false) (i : HubId) (sl : SliceId) : b.servesHere i sl = true := ownHalf_unsplit h i _

theorem strandOk_unsplit {b : Body} (h : b.isSplit = false) (i : HubId) {n : Nat} (hn : n < 576) : b.strandOk i n = true := by
  rw [Body.strandOk, dif_pos hn]
  exact ownHalf_unsplit h i _

theorem sliceOf_eq {q : List Byte} {sl : SliceId} (h : pf q 0 2 = sl.val) : sliceOf q = some sl := by
  have hlt : pf q 0 2 < 8192 := h ▸ sl.isLt
  rw [sliceOf, dif_pos hlt]
  exact congrArg some (Fin.ext h)

/-- A byte of the parameters, whose value has been checked as a number. -/
theorem byte_of_field (q : List Byte) (i : Nat) : BitVec.ofNat 8 (pf q i 1) = q.getD i 0 := by
  rw [pf, field_one, BitVec.ofNat_toNat, BitVec.setWidth_eq]

theorem byte_of_value {q : List Byte} {i v : Nat} (h : pf q i 1 = v) : q.getD i 0 = BitVec.ofNat 8 v := by rw [← byte_of_field, h]

section
variable {sl : SliceId} (hn : pf r.params 0 2 = sl.val)
include hn

theorem spaced_soon (h : s.body.tooSoon sl = true) (k : SliceId → Answer) : spaced s r.params k = .wait :=
  (match_congr (sliceOf_eq hn)).trans (if_pos h)

theorem bindSlice_waits (h : s.body.tooSoon sl = true) : doBindSlice r s = .wait := spaced_soon hn h _

theorem spaced_late (h : s.body.tooSoon sl = false) (k : SliceId → Answer) : spaced s r.params k = k sl :=
  (match_congr (sliceOf_eq hn)).trans (if_neg (by rw [h]; exact Bool.false_ne_true))

section
variable (hs : s.body.isSplit = false)
include hs

/-- A command on a slice that is not FREE, its other parameters being valid. -/
theorem onSlice_run (hst : (s.body.slice sl).st ≠ .free) {cs : Slice → List (Nat × Bool)} (hc : Passes (cs (s.body.slice sl))) (f : Slice → Slice) :
    onSlice r s cs f = done (withBody s fun b => b.modSlice sl f) [] := by
  rw [onSlice, sliceOf_eq hn]
  exact checked_passes (.cons (both_true (servesHere_unsplit hs _ _) (bne_iff_ne.2 hst)) hc) _

theorem setShare_run (hst : (s.body.slice sl).st ≠ .free) (h2 : 1 ≤ pf r.params 2 2) (h4 : 1 ≤ pf r.params 4 2) (hz : zeroBytes r.params 6 2) :
    doSetShare r s = done (withBody s fun b => b.modSlice sl fun y =>
      { y with weight := BitVec.ofNat 16 (pf r.params 2 2), limit := BitVec.ofNat 16 (pf r.params 4 2) }) [] := by
  rw [doSetShare]
  refine onSlice_run hn hs hst ?_ _
  exact .append (.cons (decide_eq_true h2) (.cons (decide_eq_true h4) passes_nil)) (passes_zeros hz)

theorem setRoute_run (hst : (s.body.slice sl).st ≠ .free) (h2 : pf r.params 2 2 < 576) (h4 : pf r.params 4 1 ≤ 3)
    (hp : pf r.params 4 1 = 3 → (s.body.slice sl).part = 0) (hz : zeroBytes r.params 5 3) : doSetRoute r s =
      done (withBody s fun b => b.modSlice sl fun y => { y with target := pf r.params 2 2, rkind := r.params.getD 4 0 }) [] := by
  rw [doSetRoute]
  refine onSlice_run hn hs hst ?_ _
  exact .append (.cons (strandOk_unsplit hs _ h2) (.cons (both_true (decide_eq_true h4) (not_both fun h => by rw [hp h]; rfl)) passes_nil)) (passes_zeros hz)

section
variable (hl : s.body.tooSoon sl = false)
include hl

theorem bindSlice_run (hst : (s.body.slice sl).st = .free) (h2 : 1 ≤ pf r.params 2 1) (h2' : pf r.params 2 1 ≤ 4) (h6 : 1 ≤ pf r.params 6 2)
    (h8 : rootOk (pf r.params 8 8) = true) (h16 : 1 ≤ pf r.params 16 2) (h18 : pf r.params 18 2 < 576) (h20 : pf r.params 20 1 ≤ 3)
    (h20' : pf r.params 20 1 = 3 → pf r.params 3 1 = 0) (h21 : engMaskOk (pf r.params 2 1) (pf r.params 21 1) = true) (hz : zeroBytes r.params 22 10) :
    doBindSlice r s = done (withBody s fun b => b.bindSlice sl r.params) [] := by
  refine (spaced_late hn hl _).trans ((checked_passes ?_ _).trans (if_neg (by rw [hst]; decide)))
  exact .append (.cons (both_true (ownHalf_unsplit hs _ _) (by rw [hst]; rfl)) (.cons (both_true (decide_eq_true h2) (decide_eq_true h2'))
    (.cons (decide_eq_true h6) (.cons h8 (.cons (decide_eq_true h16) (.cons (strandOk_unsplit hs _ h18)
      (.cons (both_true (decide_eq_true h20) (not_both fun h => by rw [h20' h]; rfl)) (.cons h21 passes_nil)))))))) (passes_zeros hz)

section
variable (hst : (s.body.slice sl).st ≠ .free) (hz : zeroBytes r.params 2 2)
include hst hz

theorem doDrain_answer (toFree : Bool) : doDrain toFree r s =
    if ((s.body.slice sl).st != .bound && !toFree) = true then only s stBusy
    else .start fun t x => withBody x fun b => b.startDrain sl toFree (some t) :=
  (spaced_late hn hl _).trans (checked_passes (.append (.cons (both_true (servesHere_unsplit hs _ _) (bne_iff_ne.2 hst)) passes_nil) (passes_zeros hz)) _)

/-- UNBIND_SLICE and RESET_SLICE, unless the slice is being drained and RESET_SLICE is asked. -/
theorem doDrain_run {toFree : Bool} (hb : toFree = true ∨ (s.body.slice sl).st = .bound) :
    doDrain toFree r s = .start fun t x => withBody x fun b => b.startDrain sl toFree (some t) := by
  refine (doDrain_answer hn hs hl hst hz toFree).trans (if_neg ?_)
  rcases hb with rfl | hb
  · rw [Bool.not_true, Bool.and_false]; exact Bool.false_ne_true
  · rw [hb]; exact Bool.false_ne_true

theorem resetSlice_busy {free : Bool} (hd : (s.body.slice sl).st = .draining free) : doResetSlice r s = only s stBusy :=
  (doDrain_answer hn hs hl hst hz false).trans (if_pos (by rw [hd]; rfl))

end

end

/-! ## Subchannels and paths (R281 to R283, R331) -/

theorem channelSlice_unsplit (hst : (s.body.slice sl).st ≠ .free) (hk : (s.body.slice sl).kind = 1) : s.body.channelSlice r.island r.params = true := by
  refine (match_congr (sliceOf_eq hn)).trans ?_
  exact both_true (both_true (bne_iff_ne.2 hst) (decide_eq_true hk)) (servesHere_unsplit hs _ _)

/-- The checks of SET_SUBCHANNEL; `room` says that the subchannel is there or may be added. -/
noncomputable def Body.subchChecks (b : Body) (i : HubId) (q : List Byte) (room : Bool) : List (Nat × Bool) :=
  [(0, b.channelSlice i q)] ++ zeros q 2 6 ++
    [(8, decide (pf q 8 2 ≤ 4095) && room), (10, pf q 10 1 = 1 || pf q 10 1 = 2), (11, 1 ≤ pf q 11 1 && pf q 11 1 ≤ 8),
     (12, if pf q 10 1 = 1 then pf q 12 4 = 512 || pf q 12 4 = 4096 else pf q 12 4 = 0)] ++
    ((List.range (pf q 11 1)).flatMap fun i => b.pathChecks q (pf q 10 1) (16 + 16 * i)) ++ zeros q (16 + 16 * pf q 11 1) (128 - 16 * pf q 11 1)

/-- The paths that SET_SUBCHANNEL gives. -/
noncomputable def pathsOf (q : List Byte) : List Path := (List.range (pf q 11 1)).map fun i => pathOf q (16 + 16 * i)

/-- A subchannel as SET_SUBCHANNEL declares it again. -/
noncomputable def Subch.redeclared (c : Subch) (q : List Byte) (kind : Byte) : Subch :=
  { c with kind := kind, blksz := BitVec.ofNat 32 (pf q 12 4), paths := pathsOf q, lastPath := none }

/-- A subchannel as SET_SUBCHANNEL declares it first. -/
noncomputable def subchOf (q : List Byte) (kind : Byte) : Subch := { kind := kind, blksz := BitVec.ofNat 32 (pf q 12 4), paths := pathsOf q }

/-- The table of subchannels changes by `f`. -/
noncomputable def State.withSubchs (s : State) (f : Table Subch → Table Subch) : State := withBody s fun b => b.modIo fun i => { i with subchs := f i.subchs }

section
variable (hst : (s.body.slice sl).st ≠ .free) (hk : (s.body.slice sl).kind = 1) (hz : zeroBytes r.params 2 6)
  (h8 : pf r.params 8 2 ≤ 4095) (h10 : pf r.params 10 1 = 1 ∨ pf r.params 10 1 = 2) (h11 : 1 ≤ pf r.params 11 1) (h11' : pf r.params 11 1 ≤ 8)
  (h12 : if pf r.params 10 1 = 1 then pf r.params 12 4 = 512 ∨ pf r.params 12 4 = 4096 else pf r.params 12 4 = 0)
  (hp : ∀ i < pf r.params 11 1, Passes (s.body.pathChecks r.params (pf r.params 10 1) (16 + 16 * i)))
  (hrest : zeroBytes r.params (16 + 16 * pf r.params 11 1) (128 - 16 * pf r.params 11 1))
include hst hk hz h8 h10 h11 h11' h12 hp hrest

theorem subchChecks_pass {room : Bool} (hroom : room = true) : Passes (s.body.subchChecks r.island r.params room) := by
  refine .append (.append (.append (.append (.cons (channelSlice_unsplit hn hs hst hk) passes_nil) (passes_zeros hz))
    (.cons (both_true (decide_eq_true h8) hroom) (.cons (either_true h10) (.cons (both_true (decide_eq_true h11) (decide_eq_true h11'))
      (.cons ?_ passes_nil))))) fun x hx => ?_) (passes_zeros hrest)
  · split
    · rw [if_pos ‹_›] at h12; exact either_true h12
    · rw [if_neg ‹_›] at h12; exact decide_eq_true h12
  · obtain ⟨i, hi, hx⟩ := List.mem_flatMap.1 hx
    exact hp i (List.mem_range.1 hi) x hx

/-- SET_SUBCHANNEL with valid parameters: a subchannel in use stays as it is (R281, R282). -/
theorem setSubchannel_busy {c : Subch} (hc : s.body.subch (subchKey sl.val (pf r.params 8 2)) = some c) (hb : c.busy = true) :
    doSetSubchannel r s = only s stBusy := by
  have hc' : s.body.subch (subchKey (pf r.params 0 2) (pf r.params 8 2)) = some c := hn.symm ▸ hc
  exact (checked_passes (subchChecks_pass hn hs hst hk hz h8 h10 h11 h11' h12 hp hrest (by rw [hc']; rfl)) _).trans ((match_congr hc').trans (if_pos hb))

theorem setSubchannel_run {c : Subch} (hc : s.body.subch (subchKey sl.val (pf r.params 8 2)) = some c) (hb : c.busy = false) :
    doSetSubchannel r s = done (withBody s fun b => b.modSubch (subchKey sl.val (pf r.params 8 2)) fun c => c.redeclared r.params (r.params.getD 10 0)) [] := by
  have hc' : s.body.subch (subchKey (pf r.params 0 2) (pf r.params 8 2)) = some c := hn.symm ▸ hc
  exact (checked_passes (subchChecks_pass hn hs hst hk hz h8 h10 h11 h11' h12 hp hrest (by rw [hc']; rfl)) _).trans ((match_congr hc').trans
    ((if_neg (by rw [hb]; exact Bool.false_ne_true)).trans (congrArg₂ (fun n kind => done (withBody s fun b => b.modSubch (subchKey n (pf r.params 8 2)) fun c =>
      c.redeclared r.params kind) []) hn (byte_of_field ..))))

theorem setSubchannel_new (hc : s.body.subch (subchKey sl.val (pf r.params 8 2)) = none) (hroom : s.body.io.subchs.length < 65536) :
    doSetSubchannel r s = done (s.withSubchs fun t => tPut t (subchKey sl.val (pf r.params 8 2)) (subchOf r.params (r.params.getD 10 0))) [] := by
  have hc' : s.body.subch (subchKey (pf r.params 0 2) (pf r.params 8 2)) = none := hn.symm ▸ hc
  exact (checked_passes (subchChecks_pass hn hs hst hk hz h8 h10 h11 h11' h12 hp hrest (by rw [decide_eq_true hroom, Bool.or_true])) _).trans ((match_congr hc').trans
    (congrArg₂ (fun n kind => done (s.withSubchs fun t => tPut t (subchKey n (pf r.params 8 2)) (subchOf r.params kind)) []) hn (byte_of_field ..)))

end

theorem namedSubch_eq {c : Subch} (h2 : pf r.params 2 2 ≤ 4095) (hc : s.body.subch (subchKey sl.val (pf r.params 2 2)) = some c) :
    s.body.namedSubch r.island r.params = .ok (subchKey sl.val (pf r.params 2 2), c) :=
  (match_congr (sliceOf_eq hn)).trans ((if_neg (by rw [servesHere_unsplit hs]; exact Bool.false_ne_true)).trans
    ((match_congr (α := Option Subch) hc).trans (if_pos h2)))

end

end

section
variable {key : Nat} {c : Subch} (hk : s.body.namedSubch r.island r.params = .ok (key, c))
include hk

theorem removeSubchannel_run (hb : c.busy = false) :
    doRemoveSubchannel r s = done (s.withSubchs fun t => tDel t key) [] :=
  (match_congr hk).trans (if_neg (by rw [hb]; exact Bool.false_ne_true))

theorem removeSubchannel_busy (hb : c.busy = true) : doRemoveSubchannel r s = only s stBusy := by
  exact (match_congr hk).trans (if_pos hb)

/-- What SET_PATH_STATE makes of a path: a FAILED one stays FAILED until its next successful probe (R331). -/
noncomputable def Path.ordered (st : Byte) (x : Path) : Path :=
  if st = 1 && x.st = 2 then x else { x with st := st, probed := x.probed && !(st = 1 && x.st = 0) }

theorem setPathState_run (h4 : pf r.params 4 1 < c.paths.length) (h5 : pf r.params 5 1 ≤ 1) : doSetPathState r s =
    done (withBody s fun b => b.modSubch key fun c => { c with paths := c.paths.modify (pf r.params 4 1) (Path.ordered (r.params.getD 5 0)) }) [] := by
  exact (match_congr hk).trans (checked_passes (.cons (decide_eq_true h4) (.cons (decide_eq_true h5) passes_nil)) _)

end

theorem Path.ordered_offline (x : Path) : (x.ordered 0#8).st = 0 := by simp [Path.ordered]

theorem Path.ordered_online (x : Path) : if x.st = 2 then x.ordered 1#8 = x else (x.ordered 1#8).st = 1 := by
  split
  · rename_i h
    rw [Path.ordered, h]
    rfl
  · rename_i h
    rw [Path.ordered, decide_eq_false h]
    rfl


/-! ## Partitions (R359, R449, R450, R510) -/

theorem setWake_run (hs : s.body.isSplit = false) (he : s.body.partExists (pf r.params 0 1) = true) (h1 : pf r.params 1 1 ≤ 1) (h2 : pf r.params 2 2 < 576) :
    doSetWake r s = done (withBody s fun b => b.modIo fun i => { i with parts := tMod i.parts (pf r.params 0 1) fun x =>
      { x with wakeMask := decide (pf r.params 1 1 = 1), wakeTarget := some (pf r.params 2 2) } }) [] :=
  checked_passes (.cons (both_true he (by rw [hs]; rfl)) (.cons (decide_eq_true h1) (.cons (strandOk_unsplit hs _ h2) passes_nil))) _

/-- A partition with the fields of SET_PARTITION that are not 0. -/
noncomputable def Partition.given (x : Partition) (q : List Byte) : Partition := { x with
  kquota := orKeep (pf q 2 2) x.kquota
  iotmo := orKeep (pf q 4 2) x.iotmo
  blktmo := orKeep (pf q 6 2) x.blktmo
  tapetmo := orKeep (pf q 8 2) x.tapetmo
  s2root := orKeep (pf q 16 8) x.s2root
  domain := orKeep (pf q 24 8) x.domain }

theorem setPartition_run (hz : zeroBytes r.params 1 1) (h4 : pf r.params 4 2 ≤ 1000) (h6 : pf r.params 6 2 ≤ 3600) (h8 : pf r.params 8 2 ≤ 3600)
    (hz' : zeroBytes r.params 10 6) (hr : rootOk (pf r.params 16 8) = true) (h0 : pf r.params 0 1 = 0 → pf r.params 16 8 = 0) :
    doSetPartition r s = done (withBody s fun b => b.modIo fun i => { i with
      parts := tPut i.parts (pf r.params 0 1) (((tGet s.body.io.parts (pf r.params 0 1)).getD (newPartition (pf r.params 0 1))).given r.params) }) [] := by
  refine checked_passes ?_ _
  exact .append (.append (.append (passes_zeros hz) (.cons (decide_eq_true h4) (.cons (decide_eq_true h6) (.cons (decide_eq_true h8) passes_nil)))) (passes_zeros hz'))
    (.cons (both_true hr (not_both fun h => by rw [h0 h]; rfl)) passes_nil)

/-- The partition `n` changes by `f`. -/
noncomputable def State.withPart (s : State) (n : Nat) (f : Partition → Partition) : State :=
  withBody s fun b => b.modIo fun i => { i with parts := tMod i.parts n f }

/-- A partition with the twin range of SET_PLACEMENT's parameters, placed as `place`. -/
noncomputable def Partition.placed (x : Partition) (q : List Byte) (place : Byte) (t : Option (BitVec 32)) : Partition :=
  { x with place := place, mbase := BitVec.ofNat 16 (pf q 4 2), msize := BitVec.ofNat 16 (pf q 6 2), copying := t }

/-- No other partition has a twin range. -/
theorem no_twins {ps : Table Partition} {n : Nat} (ho : ∀ e ∈ ps, e.1 ≠ n → e.2.place ≠ 3 ∧ e.2.copying = none) (f : Nat × Partition → Bool) :
    (!(ps.filter fun e => e.1 != n && (e.2.place = 3 || e.2.copying.isSome)).any f) = true := by
  refine (Bool.not_eq_true' _).mpr (List.any_eq_false.2 fun e he => ?_)
  obtain ⟨hmem, hbad⟩ := List.mem_filter.1 he
  obtain ⟨hne, htwin⟩ := Bool.and_eq_true_iff.1 hbad
  obtain ⟨hpl, hco⟩ := ho e hmem (bne_iff_ne.1 hne)
  rw [hco, decide_eq_false hpl] at htwin
  exact Bool.noConfusion htwin

section
variable (h0 : 1 ≤ pf r.params 0 1) (he : s.body.partExists (pf r.params 0 1) = true) (hz : zeroBytes r.params 2 2) (hz' : zeroBytes r.params 8 8)
  (hc : (s.body.part (BitVec.ofNat 8 (pf r.params 0 1))).copying = none)
include h0 he hz hz' hc

theorem setPlacement_run (h1 : pf r.params 1 1 ≤ 2) (h4 : pf r.params 4 2 = 0) (h6 : pf r.params 6 2 = 0) : doSetPlacement r s =
    done (s.withPart (pf r.params 0 1) fun x => { x with place := BitVec.ofNat 8 (pf r.params 1 1), mbase := 0, msize := 0, copying := none }) [] := by
  have hmir : ¬decide (pf r.params 1 1 = 3) = true := fun h => absurd h1 (by rw [of_decide_eq_true h]; decide)
  refine (checked_passes (.append (.append (.append (.cons (both_true (decide_eq_true h0) he) (.cons (decide_eq_true (Nat.le_succ_of_le h1)) passes_nil))
      (passes_zeros hz)) (.cons ((if_neg hmir).trans (decide_eq_true h4)) (.cons ((if_neg hmir).trans (decide_eq_true h6)) passes_nil))) (passes_zeros hz')) _).trans
    ((if_neg (by rw [hc]; exact Bool.false_ne_true)).trans ((if_neg hmir).trans ?_))
  refine congrArg (fun f => done (s.withPart (pf r.params 0 1) f) []) (funext fun x => ?_)
  exact (congrArg (x.placed r.params · none) (if_neg hmir)).trans
    (congrArg₂ (fun m n => ({ x with place := BitVec.ofNat 8 (pf r.params 1 1), mbase := BitVec.ofNat 16 m, msize := BitVec.ofNat 16 n, copying := none } : Partition)) h4 h6)

/-- A mirrored placement, where no other partition has a twin range. -/
theorem setPlacement_mirrored (h1 : pf r.params 1 1 = 3) (h6 : 1 ≤ pf r.params 6 2) (hsum : pf r.params 4 2 + pf r.params 6 2 ≤ 144)
    (ho : ∀ e ∈ s.body.io.parts, e.1 ≠ pf r.params 0 1 → e.2.place ≠ 3 ∧ e.2.copying = none) : doSetPlacement r s =
      .start fun t x => x.withPart (pf r.params 0 1) fun x => x.placed r.params 0 (some t) := by
  have hmir : decide (pf r.params 1 1 = 3) = true := decide_eq_true h1
  have h4 : pf r.params 4 2 ≤ 143 := Nat.le_of_lt_succ (Nat.lt_of_lt_of_le (Nat.lt_add_of_pos_right h6) hsum)
  exact (checked_passes (.append (.append (.append (.cons (both_true (decide_eq_true h0) he) (.cons (decide_eq_true (Nat.le_of_eq h1)) passes_nil)) (passes_zeros hz))
      (.cons ((if_pos hmir).trans (both_true (decide_eq_true h4) (no_twins ho _)))
        (.cons ((if_pos hmir).trans (both_true (decide_eq_true h6) (decide_eq_true hsum))) passes_nil))) (passes_zeros hz')) _).trans
    ((if_neg (by rw [hc]; exact Bool.false_ne_true)).trans ((if_pos hmir).trans (congrArg (fun place => Answer.start fun t x =>
      x.withPart (pf r.params 0 1) fun x => x.placed r.params place (some t)) (if_pos hmir))))

end

/-! ## Targets and network addresses (R511, R512) -/

theorem not_used {cs : Table Subch} {n : Nat} (hu : ∀ e ∈ cs, ∀ x ∈ e.2.paths, x.target.toNat ≠ n) :
    ¬(cs.any fun e => e.2.paths.any fun x => x.target.toNat = n) = true := by
  intro h
  obtain ⟨e, he, hany⟩ := List.any_eq_true.1 h
  obtain ⟨x, hx, hn⟩ := List.any_eq_true.1 hany
  exact hu e he x hx (of_decide_eq_true hn)

theorem setTarget_run (h0 : 1 ≤ pf r.params 0 2) (h0' : pf r.params 0 2 ≤ 4095) (h2 : pf r.params 2 1 ≤ 4) (hz3 : zeroBytes r.params 3 1)
    (hz4 : if pf r.params 2 1 = 1 then zeroBytes r.params 6 2 else zeroBytes r.params 4 4) (hz8 : pf r.params 2 1 ≤ 1 → zeroBytes r.params 8 16)
    (hz8' : pf r.params 2 1 = 4 → zeroBytes r.params 8 8) (hz24 : pf r.params 2 1 ≠ 3 → zeroBytes r.params 24 2) (hz26 : zeroBytes r.params 26 6)
    (hu : ∀ e ∈ s.body.io.subchs, ∀ x ∈ e.2.paths, x.target.toNat ≠ pf r.params 0 2) : doSetTarget r s =
      done (withBody s fun b => b.modIo fun i => { i with
        targets := if pf r.params 2 1 = 0 then tDel i.targets (pf r.params 0 2) else tPut i.targets (pf r.params 0 2) r.params }) [] := by
  have kinds : ∀ k ≤ 4, ¬(k = 2 ∨ k = 3) → ¬k = 4 → k ≤ 1 := by decide
  refine (checked_passes (.append (.append (.append (.append (.append (.cons (both_true (decide_eq_true h0) (decide_eq_true h0')) (.cons (decide_eq_true h2) passes_nil))
    (passes_zeros hz3)) ?_) (.ite (fun _ => passes_nil) fun h23 => .ite (fun h => passes_zeros (hz8' h)) fun h => passes_zeros (hz8 (kinds _ h2 h23 h))))
    (.ite (fun _ => passes_nil) fun h => passes_zeros (hz24 h))) (passes_zeros hz26)) _).trans (if_neg (not_used hu))
  exact .ite (fun h => passes_zeros (by rwa [if_pos h] at hz4)) fun h => passes_zeros (by rwa [if_neg h] at hz4)

/-- The table of network addresses changes by `f`. -/
noncomputable def State.withNetaddrs (s : State) (f : Table NetAddr → Table NetAddr) : State := withBody s fun b => b.modIo fun i => { i with netaddrs := f i.netaddrs }

/-- SET_NETADDR's address, for slice number `n` and the other port `alt`. -/
noncomputable def netaddrOf (q : List Byte) (n : Nat) (alt : Option Byte) : NetAddr where
  slice := BitVec.ofNat 16 n
  port := q.getD 6 0
  alt := alt
  mac := (q.drop 8).take 6
  vlan := BitVec.ofNat 16 (pf q 14 2)
  ip := (q.drop 16).take 16
  rip := (q.drop 32).take 16

/-- The checks of an address that is declared for slice `sl`. -/
noncomputable def Body.netaddrChecks (b : Body) (i : HubId) (q : List Byte) (sl : SliceId) : List (Nat × Bool) :=
  [(4, pf q 4 2 < 8192 && (b.slice sl).st != .free && (b.slice sl).kind = 4 && !b.otherHalf i (b.servingHub sl (b.slice sl).part)),
   (6, b.etherPort (q.getD 6 0) (b.servingHub sl (b.slice sl).part)),
   (7, if decide (pf q 1 1 / 2 % 2 = 1) then b.etherPort (q.getD 7 0) (otherHub (b.servingHub sl (b.slice sl).part)) else q.getD 7 0 = 0),
   (15, pf q 15 1 < 128)]

/-- Bit 0 of the flags declares an address, bit 1 gives it another port. -/
theorem declared {n : Nat} (h : n = 1 ∨ n = 3) : n % 2 = 1 ∧ n < 4 := by rcases h with rfl | rfl <;> decide

theorem removed {n : Nat} (h : n = 0 ∨ n = 2) : ¬n % 2 = 1 ∧ n < 4 := by rcases h with rfl | rfl <;> decide

theorem alt_port {n : Nat} (h : n = 1 ∨ n = 3) {x : Bool} {p : Prop} [Decidable p] (ha : if n = 3 then x = true else p) :
    (if decide (n / 2 % 2 = 1) then x else decide p) = true := by
  rcases h with rfl | rfl
  · exact decide_eq_true ha
  · exact ha

theorem alt_choice {n : Nat} (h : n = 1 ∨ n = 3) (x : Byte) : (if decide (n / 2 % 2 = 1) then some x else none) = if n = 3 then some x else none := by
  rcases h with rfl | rfl <;> rfl

/-- The slice of a number of the parameters that is one. -/
theorem slice_of_number {n : Nat} {sl : SliceId} (h : n = sl.val) : (⟨n % 8192, Nat.mod_lt _ (by decide)⟩ : SliceId) = sl :=
  Fin.ext ((congrArg (· % 8192) h).trans (Nat.mod_eq_of_lt sl.isLt))

theorem netaddrChecks_pass {b : Body} {i : HubId} {q : List Byte} {sl : SliceId} (hs : b.isSplit = false) (h1 : pf q 1 1 = 1 ∨ pf q 1 1 = 3)
    (hn : pf q 4 2 = sl.val) (hst : (b.slice sl).st ≠ .free) (hk : (b.slice sl).kind = 4) (hp : b.etherPort (q.getD 6 0) (b.servingHub sl (b.slice sl).part) = true)
    (ha : if pf q 1 1 = 3 then b.etherPort (q.getD 7 0) (otherHub (b.servingHub sl (b.slice sl).part)) = true else q.getD 7 0 = 0) (hv : pf q 15 1 < 128) :
    Passes (b.netaddrChecks i q sl) :=
  .cons (both_true (both_true (both_true (decide_eq_true (by rw [hn]; exact sl.isLt)) (bne_iff_ne.2 hst)) (decide_eq_true hk)) (ownHalf_unsplit hs _ _))
    (.cons hp (.cons (alt_port h1 ha) (.cons (decide_eq_true hv) passes_nil)))

section
variable (he : s.body.partExists (pf r.params 0 1) = true) (h2 : pf r.params 2 2 ≤ 4095) (hu : s.body.netaddrUsed (pf r.params 0 1) (pf r.params 2 2) = false)
include he h2 hu

theorem setNetaddr_removes (h1 : pf r.params 1 1 = 0 ∨ pf r.params 1 1 = 2) : doSetNetaddr r s =
    done (s.withNetaddrs fun t => tDel t (pf r.params 0 1 * 4096 + pf r.params 2 2)) [] :=
  (checked_passes (.append (.cons he (.cons (decide_eq_true (removed h1).2) (.cons (decide_eq_true h2) passes_nil)))
      (.ite (fun h => absurd h (removed h1).1) fun _ => passes_nil)) _).trans
    ((if_neg (by rw [hu]; exact Bool.false_ne_true)).trans (congrArg (fun f => done (s.withNetaddrs f) []) (funext fun _ => if_neg (removed h1).1)))

theorem setNetaddr_run {sl : SliceId} (h1 : pf r.params 1 1 = 1 ∨ pf r.params 1 1 = 3) (hn : pf r.params 4 2 = sl.val)
    (hc : Passes (s.body.netaddrChecks r.island r.params sl)) : doSetNetaddr r s =
    done (s.withNetaddrs fun t => tPut t (pf r.params 0 1 * 4096 + pf r.params 2 2)
      (netaddrOf r.params sl.val (if pf r.params 1 1 = 3 then some (r.params.getD 7 0) else none))) [] :=
  (checked_passes (.append (.cons he (.cons (decide_eq_true (declared h1).2) (.cons (decide_eq_true h2) passes_nil)))
      (.ite (fun _ => (slice_of_number hn).symm ▸ hc) fun _ => passes_nil)) _).trans
    ((if_neg (by rw [hu]; exact Bool.false_ne_true)).trans (congrArg (fun f => done (s.withNetaddrs f) []) (funext fun t =>
      (if_pos (declared h1).1).trans (congrArg₂ (fun n alt => tPut t _ (netaddrOf r.params n alt)) hn (alt_choice h1 _)))))

end

/-! ## Streams and orphans (R335, R336) -/

/-- A range of whole MEMORY granules. -/
theorem classOf_granules {b : Body} {base n : Nat} (hm : ∀ a, base ≤ a → a < base + n * 0x100000 → b.classOf a = .memory) (he : n % 2 = 0) :
    ((List.range ((n + 1) / 2)).all fun k => b.classOf (base + k * 0x200000) = .memory) = true := by
  refine List.all_eq_true.2 fun k hk => decide_eq_true (hm _ (Nat.le_add_right _ _) (Nat.add_lt_add_left ?_ _))
  obtain ⟨m, rfl⟩ := Nat.dvd_of_mod_eq_zero he
  have hk : k < (2 * m + 1) / 2 := List.mem_range.1 hk
  rw [Nat.mul_add_div Nat.two_pos, Nat.add_zero] at hk
  rw [Nat.mul_comm 2, Nat.mul_assoc]
  exact Nat.mul_lt_mul_of_pos_right hk (by decide)

/-- The table of streams changes by `f`. -/
noncomputable def State.withStreams (s : State) (f : Table Stream → Table Stream) : State := withBody s fun b => b.modIo fun i => { i with streams := f i.streams }

/-- The stream of DECLARE_STREAM's parameters. -/
noncomputable def streamOn (q : List Byte) (sl : SliceId) : Stream :=
  { slice := sl, image := BitVec.ofNat 12 (pf q 4 2), rate := BitVec.ofNat 16 (pf q 6 2), bufbase := BitVec.ofNat 64 (pf q 8 8),
    bufsize := BitVec.ofNat 32 (pf q 16 4) }

theorem declareStream_run {sl : SliceId} {c : Subch} (h0 : pf r.params 0 1 ≤ 63) (hfree : tGet s.body.io.streams (pf r.params 0 1) = none)
    (hz : zeroBytes r.params 1 1) (hn : pf r.params 2 2 = sl.val) (hch : s.body.channelSlice r.island (r.params.drop 2) = true)
    (h4 : pf r.params 4 2 ≤ 4095) (hc : s.body.subch (subchKey sl.val (pf r.params 4 2)) = some c) (hk : c.kind = 2) (hb : c.busy = false)
    (hno : s.body.hasStream (subchKey sl.val (pf r.params 4 2)) = false) (h6 : 1 ≤ pf r.params 6 2) (h6' : pf r.params 6 2 ≤ 2000)
    (h8 : pf r.params 8 8 % 0x200000 = 0)
    (hm : ∀ a, pf r.params 8 8 ≤ a → a < pf r.params 8 8 + pf r.params 16 4 * 0x100000 → s.body.classOf a = .memory)
    (he : pf r.params 16 4 % 2 = 0) (h16 : 2 ≤ pf r.params 16 4) (h16' : pf r.params 16 4 ≤ 256)
    (hr : pf r.params 6 2 * 8000 ≤ pf r.params 16 4 * 0x100000) (hz' : zeroBytes r.params 20 12) : doDeclareStream r s =
      done (s.withStreams fun t => tPut t (pf r.params 0 1) (streamOn r.params sl)) [] := by
  refine (checked_passes ?_ _).trans (congrArg (fun sl => done (s.withStreams fun t => tPut t (pf r.params 0 1) (streamOn r.params sl)) []) (slice_of_number hn))
  refine .append (.append (.append (.cons (both_true (decide_eq_true h0) (by rw [hfree]; rfl)) passes_nil) (passes_zeros hz))
    (.cons hch (.cons (both_true (decide_eq_true h4) ?_) (.cons (both_true (decide_eq_true h6) (decide_eq_true h6'))
      (.cons (both_true (decide_eq_true h8) (classOf_granules hm he))
        (.cons (both_true (both_true (both_true (decide_eq_true he) (decide_eq_true h16)) (decide_eq_true h16')) (decide_eq_true hr)) passes_nil))))))
    (passes_zeros hz')
  rw [hn, hc]
  exact both_true (both_true (decide_eq_true hk) ((Bool.not_eq_true' _).mpr hb)) ((Bool.not_eq_true' _).mpr hno)

section
variable {x : Machine.Stream} (hx : tGet s.body.io.streams (pf r.params 0 1) = some x) (hz : zeroBytes r.params 1 3)
  (hb : ∀ c, s.body.subch (subchKey x.slice.val x.image.toNat) = some c → c.busy = false)
include hx hz hb

/-- The stream's subchannel is not in use. -/
theorem removeStream_run (he : x.blocks = []) :
    doRemoveStream r s = done (s.withStreams fun t => tDel t (pf r.params 0 1)) [] := by
  refine (match_congr hx).trans ((checked_passes (passes_zeros hz) _).trans (if_neg ?_))
  rw [he]
  split
  · rw [hb _ ‹_›]; exact Bool.false_ne_true
  · exact Bool.false_ne_true

omit hb in
theorem removeStream_busy (he : x.blocks ≠ []) : doRemoveStream r s = only s stBusy := by
  refine (match_congr hx).trans ((checked_passes (passes_zeros hz) _).trans (if_pos ?_))
  rw [List.isEmpty_eq_false_iff.2 he, Bool.not_false, Bool.or_true]

end

theorem readOrphans_run {h : HubId} (hs : s.body.isSplit = false) (h0 : pf r.params 0 1 = h.val) (h1 : 1 ≤ pf r.params 1 1) (hz : zeroBytes r.params 2 2) :
    doReadOrphans r s =
      let out := (s.body.io.orphans.get h).take (pf r.params 1 1)
      done (withBody s fun b => (out.foldl (fun (y : Body) o => y.retire o.ix) (b.modIo fun i =>
        { i with orphans := i.orphans.set h.val ((i.orphans.get h).drop (pf r.params 1 1)) h.isLt })).refillOrphans h)
        (leBytes 4 out.length ++ out.flatMap Orphan.bytes) := by
  have hle : pf r.params 0 1 ≤ 1 := by rw [h0]; exact Nat.le_of_lt_succ h.isLt
  have hh := hub_of_field h0
  subst hh
  exact checked_passes (.append (.cons (both_true (decide_eq_true hle) (ownHalf_unsplit hs _ _)) (.cons (decide_eq_true h1) passes_nil)) (passes_zeros hz)) _

end

/-! ## The ends of a slice's waits and drains (R349, R366) -/

section
variable {s : State} {sl : SliceId}

theorem generationWaitExpiry_idle (h : (s.body.slice sl).lastAdv = none ∨ s.body.ctl.genWait = []) : exec (.generationWaitExpiry sl) s = .next s := by
  cases hadv : (s.body.slice sl).lastAdv with
  | none => exact match_congr hadv
  | some t =>
    refine (match_congr hadv).trans (if_pos (List.isEmpty_iff.2 (h.resolve_left fun hnone => ?_)))
    rw [hadv] at hnone
    exact Option.some_ne_none t hnone

theorem generationWaitExpiry_ends {t0 : Nat} (h : (s.body.slice sl).lastAdv = some t0) (hw : s.body.ctl.genWait ≠ []) :
    exec (.generationWaitExpiry sl) s =
      .next (pump cmdOf { s with body := s.body.reach (s.body.servingHub sl (s.body.slice sl).part) (t0 + 20000) }) := by
  exact (match_congr h).trans (if_neg fun hne => hw (List.isEmpty_iff.1 hne))

/-- With 20 µs past its last advance, a slice's generation may advance again. -/
theorem tooSoon_reach {b : Body} {t0 : Nat} (h : (b.slice sl).lastAdv = some t0) (hlt : t0 + 20000 < 2 ^ 64) :
    (b.reach (b.servingHub sl (b.slice sl).part) (t0 + 20000)).tooSoon sl = false := by
  have hle := b.le_tod_reach (b.servingHub sl (b.slice sl).part) hlt
  exact (match_congr (h : ((b.reach (b.servingHub sl (b.slice sl).part) (t0 + 20000)).slice sl).lastAdv = some t0)).trans (decide_eq_false (Nat.not_lt.2 hle))

/-! ## The end of a drain (R366, R368) -/

/-- The tickets of a drain are finished. -/
noncomputable def Body.finishTickets (b : Body) (ts : List (BitVec 32)) : Body := ts.foldl (fun b t => b.finishTicket t 0 0 []) b

/-- A drained slice is BOUND: what its ring reserved and never got has an entry that says so, before what waits. -/
noncomputable def Slice.drained (x : Slice) (flying : List (BitVec 32)) : Slice := { x with
  st := .bound
  waiting := ((x.reserved.filter fun i => !(x.waiting.filterMap (·.ctr)).contains i && !flying.contains i).map fun i =>
    ({ src := .void, gen := some x.gen, ctr := some i, bytes := voidEntry } : HeldRec)) ++ x.waiting
  drainTickets := []
  sq := { x.sq with head := x.sq.tail } }

/-- A drained slice for which nothing waits. -/
noncomputable def Slice.rebound (x : Slice) : Slice := { x with st := .bound, drainTickets := [], sq := { x.sq with head := x.sq.tail } }

/-- A slice whose ring has been read is BOUND again. -/
noncomputable def Body.reset (b : Body) (sl : SliceId) : Body :=
  b.setSlice sl ((b.slice sl).drained ((b.io.writes.filter fun w => w.slice = sl && w.gen = (b.slice sl).gen).filterMap fun w => w.done.map (·.1)))

/-- The records of a slice that is BOUND again go out. -/
noncomputable def Body.drainedTo (b : Body) (sl : SliceId) : Body := (b.reset sl).placeRecords sl true ((b.reset sl).slice sl).waiting.length

section
variable {b : Body} {refuse : Body → List Byte → List Byte}

/-- The end of a drain of a slice in a given state. -/
noncomputable def Body.drainEnd (b : Body) (sl : SliceId) (refuse : Body → List Byte → List Byte) : SliceSt → Body
  | .draining toFree =>
    if b.io.jobs.any fun j => j.slice = sl then b
    else if toFree then ((b.engForget sl).setSlice sl { gen := (b.slice sl).gen, lastAdv := (b.slice sl).lastAdv }).finishTickets (b.slice sl).drainTickets
    else ((if (b.slice sl).kind = 1 then b.refuseStarts sl refuse (2 ^ 16 + 1)
      else if (b.slice sl).kind = 2 ∨ (b.slice sl).kind = 3 then b.readJobs sl (2 ^ 16 + 1) else b).drainedTo sl).finishTickets (b.slice sl).drainTickets
  | _ => b

theorem endDrain_eq {st : SliceSt} (h : (b.slice sl).st = st) : b.endDrain sl refuse = b.drainEnd sl refuse st := congrArg (b.drainEnd sl refuse) h

theorem endDrain_still (h : (b.slice sl).st = .free ∨ (b.slice sl).st = .bound) : b.endDrain sl refuse = b := h.elim endDrain_eq endDrain_eq

theorem endDrain_waits (h : (b.io.jobs.any fun j => j.slice = sl) = true) : b.endDrain sl refuse = b := by
  cases hst : (b.slice sl).st with
  | free => exact endDrain_eq hst
  | bound => exact endDrain_eq hst
  | draining _ => exact (endDrain_eq hst).trans (if_pos h)

/-- A ring that is off has no entry to read. -/
theorem readEntryAtHead_off (h : (b.slice sl).sq.en = false) (n : Nat) : b.readEntryAtHead sl n = (none, b) := if_pos (by rw [h]; rfl)

theorem refuseStarts_off (h : (b.slice sl).sq.en = false) (n : Nat) : b.refuseStarts sl refuse (n + 1) = b := match_congr (readEntryAtHead_off h 32)

theorem readJobs_off (h : (b.slice sl).sq.en = false) (n : Nat) : b.readJobs sl (n + 1) = b :=
  match_congr (match_congr (readEntryAtHead_off h 64) : b.readJob sl = none)

/-- What the ring of a draining slice still holds is read first; one that is off holds nothing. -/
theorem endDrain_reads (h : (b.slice sl).sq.en = false) :
    (if (b.slice sl).kind = 1 then b.refuseStarts sl refuse (2 ^ 16 + 1)
      else if (b.slice sl).kind = 2 ∨ (b.slice sl).kind = 3 then b.readJobs sl (2 ^ 16 + 1) else b) = b := by
  rw [refuseStarts_off h, readJobs_off h, ite_self, ite_self]

theorem drained_idle {x : Slice} (hw : x.waiting = []) (hr : x.reserved = []) (flying : List (BitVec 32)) : x.drained flying = x.rebound := by
  rw [Slice.drained, Slice.rebound, hr, hw]
  rfl

theorem drainedTo_idle (hw : (b.slice sl).waiting = []) (hr : (b.slice sl).reserved = []) : b.drainedTo sl = b.setSlice sl (b.slice sl).rebound := by
  rw [Body.drainedTo, Body.reset, drained_idle hw hr, Body.slice_setSlice]
  exact congrArg (fun w : List HeldRec => (b.setSlice sl (b.slice sl).rebound).placeRecords sl true w.length) hw

section
variable (hj : ¬(b.io.jobs.any fun j => j.slice = sl) = true)
include hj

theorem endDrain_frees (h : (b.slice sl).st = .draining true) : b.endDrain sl refuse =
    ((b.engForget sl).setSlice sl { gen := (b.slice sl).gen, lastAdv := (b.slice sl).lastAdv }).finishTickets (b.slice sl).drainTickets :=
  (endDrain_eq h).trans ((if_neg hj).trans (if_pos rfl))

theorem endDrain_binds (h : (b.slice sl).st = .draining false) (hq : (b.slice sl).sq.en = false) (hw : (b.slice sl).waiting = [])
    (hr : (b.slice sl).reserved = []) : b.endDrain sl refuse =
      (b.setSlice sl (b.slice sl).rebound).finishTickets (b.slice sl).drainTickets := by
  rw [← drainedTo_idle hw hr]
  exact (endDrain_eq h).trans ((if_neg hj).trans ((if_neg Bool.false_ne_true).trans
    (congrArg (fun k : Body => (k.drainedTo sl).finishTickets (b.slice sl).drainTickets) (endDrain_reads hq))))

end

end

section
variable (hs : s.body.serving = true)
include hs

theorem sliceDrainComplete_serving {b' : Body} (h : s.body.endDrain sl (fun b d => b.drainRefusal sl d) = b') :
    exec (.sliceDrainComplete sl) s = .next { s with body := b' } :=
  onBody_of_eq ((if_pos hs).trans h)

end

/-- A drain without its occasion: the slice is not being drained, or a job of it is left. -/
theorem sliceDrainComplete_idle (h : s.body.serving = false ∨ (s.body.slice sl).st = .free ∨ (s.body.slice sl).st = .bound ∨ ∃ j ∈ s.body.io.jobs, j.slice = sl) :
    exec (.sliceDrainComplete sl) s = .next s := by
  by_cases hs : s.body.serving = true
  · refine sliceDrainComplete_serving hs ?_
    rcases h with h | h | h | ⟨j, hj, hsl⟩
    · exact absurd hs (by rw [h]; exact Bool.false_ne_true)
    · exact endDrain_still (.inl h)
    · exact endDrain_still (.inr h)
    · exact endDrain_waits (List.any_eq_true.2 ⟨j, hj, decide_eq_true hsl⟩)
  · exact onBody_of_eq (if_neg hs)

theorem noJob_left {b : Body} (h : ∀ j ∈ b.io.jobs, j.slice ≠ sl) : ¬(b.io.jobs.any fun j => j.slice = sl) = true := by
  intro hany
  obtain ⟨j, hj, hsl⟩ := List.any_eq_true.1 hany
  exact h j hj (of_decide_eq_true hsl)

end

end Sys2Proof.Machine
end

section
/-! The commands on slices, partitions, subchannels, targets, network addresses and streams as requests. -/

namespace Sys2Proof.Machine

theorem heard_unsplit {s : State} {src : FSource} {p : Packet} (hs : s.body.isSplit = false) : (s.heard src p).body.isSplit = false := heard_isSplit.trans hs

/-- Settles O56: each command passes its checks and has the effect of its row, the ends of waits and drains by their commands. -/
theorem fleletSlices : Obligations.FleletSlices := by
  intro s src role island p q b asked body io
  refine ⟨?_, ?_, ?_, ?_, ?_, ?_, ?_, ?_, ?_, ?_, ?_⟩
  · intro sl hn hs
    refine ⟨fun hl h => ⟨_, h.waits rfl (bindSlice_waits hn hl), rfl, heard_io, heard_outbox⟩, fun hl => ⟨?_, ?_, ?_, ?_⟩,
      fun hst => ⟨?_, ?_⟩⟩
    · intro h hst h2 h2' h6 h8 h16 h18 h20 h20' h21 hz
      exact h.answers rfl (bindSlice_run hn (heard_unsplit hs) hl hst h2 h2' h6 h8 h16 h18 h20 h20' h21 hz)
    · exact fun h hst hz => h.starts rfl (doDrain_run hn (heard_unsplit hs) hl hst hz (.inl rfl))
    · exact fun h hst hz => h.starts rfl (doDrain_run hn (heard_unsplit hs) hl (by rw [hst]; decide) hz (.inr hst))
    · exact fun free h hst hz => h.answers rfl (resetSlice_busy hn (heard_unsplit hs) hl (by rw [hst]; exact SliceSt.noConfusion) hz hst)
    · exact fun h h2 h4 hz => h.answers rfl (setShare_run hn (heard_unsplit hs) hst h2 h4 hz)
    · exact fun h h2 h4 hp hz => h.answers rfl (setRoute_run hn (heard_unsplit hs) hst h2 h4 hp hz)
  · exact fun h hs he h1 h2 => h.answers rfl (setWake_run (heard_unsplit hs) he h1 h2)
  · intro h hz h4 h6 h8 hz' hr h0 x kept
    exact h.answers rfl (setPartition_run hz h4 h6 h8 hz' hr h0)
  · intro h h0 he hz hz' hc
    exact ⟨fun h1 h4 h6 => h.answers rfl (setPlacement_run h0 he hz hz' hc h1 h4 h6),
      fun h1 h6 hsum ho => h.starts rfl (setPlacement_mirrored h0 he hz hz' hc h1 h6 hsum ho)⟩
  · intro sl hn hs
    refine ⟨?_, fun c h2 hc => ?_⟩
    · intro h hst hk hz h8 h10 h11 h11' h12 hp hrest paths
      exact ⟨fun hc hlen => h.answers rfl (setSubchannel_new hn (heard_unsplit hs) hst hk hz h8 h10 h11 h11' h12 hp hrest hc hlen),
        fun c hc => ⟨fun hb => h.answers rfl (setSubchannel_busy hn (heard_unsplit hs) hst hk hz h8 h10 h11 h11' h12 hp hrest hc hb),
          fun hb => h.answers rfl (setSubchannel_run hn (heard_unsplit hs) hst hk hz h8 h10 h11 h11' h12 hp hrest hc hb)⟩⟩
    · refine ⟨fun h hb => h.answers rfl (removeSubchannel_run (namedSubch_eq hn (heard_unsplit hs) h2 hc) hb),
        fun h hb => h.answers rfl (removeSubchannel_busy (namedSubch_eq hn (heard_unsplit hs) h2 hc) hb), fun h h4 h5 => ?_⟩
      refine ⟨Path.ordered (q.getD 5 0), h.answers rfl (setPathState_run (namedSubch_eq hn (heard_unsplit hs) h2 hc) h4 h5), fun h5 x => ?_, fun h5 x => ?_⟩
      · rw [byte_of_value h5]; exact Path.ordered_offline x
      · rw [byte_of_value h5]; exact Path.ordered_online x
  · exact fun h h0 h0' h2 hz3 hz4 hz8 hz8' hz24 hz26 hu => h.answers rfl (setTarget_run h0 h0' h2 hz3 hz4 hz8 hz8' hz24 hz26 hu)
  · intro h he h2 hu
    exact ⟨fun h1 => h.answers rfl (setNetaddr_removes he h2 hu h1),
      fun sl hs h1 hn hst hk hp ha hv => h.answers rfl (setNetaddr_run (s := s.heard src p) (r := requestOf src role island p) he h2 hu h1 hn
        (netaddrChecks_pass (heard_unsplit hs) h1 hn hst hk hp ha hv))⟩
  · intro sl c h h0 hfree hz hn hch h4 hc hk hb hno h6 h6' h8 hm he h16 h16' hr hz'
    exact h.answers rfl (declareStream_run h0 hfree hz hn hch h4 hc hk hb hno h6 h6' h8 hm he h16 h16' hr hz')
  · intro x h hx hz hb
    exact ⟨fun he => h.answers rfl (removeStream_run hx hz hb he), fun he => h.answers rfl (removeStream_busy hx hz he)⟩
  · intro k h hs h0 h1 hz out
    exact h.answers rfl (readOrphans_run (heard_unsplit hs) h0 h1 hz)
  · intro sl x
    refine ⟨generationWaitExpiry_idle, fun t0 ht hw hlt => ?_, sliceDrainComplete_idle, fun hs hj => ?_⟩
    · intro b'
      exact ⟨generationWaitExpiry_ends ht hw, tooSoon_reach ht hlt⟩
    · intro ended
      exact ⟨fun h => sliceDrainComplete_serving hs (endDrain_frees (noJob_left hj) h),
        fun h hq hw hr => sliceDrainComplete_serving hs (endDrain_binds (noJob_left hj) h hq hw hr)⟩

end Sys2Proof.Machine
end

section
/-! The journal of the channel engines: an entry written is the one read back (R315 to R317). -/

namespace Sys2Proof.Machine

/-- What a hub's copy of the journal gives of what it holds under a number: the entry of an outstanding transaction. -/
noncomputable def Body.given (b : Body) (h : HubId) (o : Option JEntry) : Option JEntry :=
  match o with
  | some e => if e.st != 0 && b.journalUp h && (!b.isSplit || b.entryHub e = h) then some e else none
  | none => none

/-- A hub's answer to a read of the journal. -/
noncomputable def Body.copyAt (b : Body) (h : HubId) (ix : Nat) : Option JEntry := b.given h (tGet (b.io.journal.get h) ix)

theorem findSome_hubs {α : Type} (f : HubId → Option α) : ([0, 1] : List HubId).findSome? f = (f 0).or (f 1) := by
  rw [← List.findSome?_singleton (f := f), ← List.findSome?_singleton (f := f)]
  exact List.findSome?_append (xs := [0])

theorem jGet_eq (b : Body) (ix : Nat) : b.jGet ix = (b.copyAt 0 ix).or (b.copyAt 1 ix) := findSome_hubs _

/-- Does a hub's copy of the journal take the entry of a transaction? -/
noncomputable def Body.takes (b : Body) (h : HubId) (e : JEntry) : Bool := b.journalUp h && (!b.isSplit || b.entryHub e = h)

theorem jPut_journal (b : Body) (ix : Nat) (e : JEntry) (h : HubId) : (b.jPut ix e).io.journal.get h =
    if b.takes h e then tPut (b.io.journal.get h) ix e else b.io.journal.get h := Vector.getElem_ofFn h.isLt

section
variable {b : Body} {ix : Nat} {j e : JEntry}

theorem given_taken {h : HubId} (hst : e.st ≠ 0) (ht : b.takes h e = true) : b.given h (some e) = some e :=
  if_pos ((Bool.and_assoc ..).trans (both_true (bne_iff_ne.2 hst) ht))

theorem copyAt_jPut (hst : e.st ≠ 0) (h : HubId) : (b.jPut ix e).copyAt h ix = if b.takes h e then some e else b.copyAt h ix := by
  rw [Body.copyAt, jPut_journal]
  split
  · rw [tGet_tPut_self]
    exact given_taken (b := b) hst ‹_›
  · rfl

theorem given_some {h : HubId} : ∀ {o : Option JEntry}, b.given h o = some j → j.st ≠ 0 ∧ b.takes h j = true
  | none, hn => nomatch hn
  | some x, hx => by
    obtain ⟨hp, hx⟩ := Option.ite_none_right_eq_some.1 hx
    cases hx
    exact (Bool.and_eq_true_iff.1 ((Bool.and_assoc ..).symm.trans hp)).imp_left bne_iff_ne.1

theorem copyAt_some {h : HubId} (hc : b.copyAt h ix = some j) : j.st ≠ 0 ∧ b.takes h j = true := given_some hc

theorem or_put {x y : Option JEntry} {p q : Bool} (h : p = true ∨ x = none ∧ q = true) :
    (if p then some e else x).or (if q then some e else y) = some e := by
  rcases h with rfl | ⟨rfl, rfl⟩
  · rfl
  · cases p <;> rfl

/-- An entry written over that of the same transaction is the one read back, in every arrangement of the halves. -/
theorem jGet_jPut (hj : b.jGet ix = some j) (hh : b.entryHub e = b.entryHub j) (hst : e.st ≠ 0) : (b.jPut ix e).jGet ix = some e := by
  rw [jGet_eq] at hj ⊢
  rw [copyAt_jPut hst, copyAt_jPut hst]
  have htakes (h : HubId) (hc : b.copyAt h ix = some j) : b.takes h e = true := by
    rw [Body.takes, hh]
    exact (copyAt_some hc).2
  exact or_put ((Option.or_eq_some_iff.1 hj).imp (htakes 0) (.imp_right (htakes 1)))

/-- A transaction's entry is not free. -/
theorem st_of_jGet (h : b.jGet ix = some j) : j.st ≠ 0 := by
  rw [jGet_eq] at h
  exact (Option.or_eq_some_iff.1 h).elim (fun h => (copyAt_some h).1) (fun h => (copyAt_some h.2).1)

theorem takes_unsplit (hs : b.isSplit = false) (h : HubId) (e : JEntry) : b.takes h e = b.journalUp h := by
  rw [Body.takes, hs]
  exact Bool.and_true _

/-- A new entry is read back; in SPLIT the other half must hold none under its number. -/
theorem jGet_jPut_new {h : HubId} (hh : b.entryHub e = h) (hup : b.journalUp h = true) (hst : e.st ≠ 0)
    (hs : b.isSplit = true → tGet (b.io.journal.get (otherHub h)) ix = none) : (b.jPut ix e).jGet ix = some e := by
  rw [jGet_eq, copyAt_jPut hst, copyAt_jPut hst]
  have own : b.takes h e = true := both_true hup (Bool.or_eq_true_iff.2 (.inr (decide_eq_true hh)))
  have hub : ∀ h : HubId, h = 0 ∨ h = 1 := by decide
  obtain rfl | rfl := hub h
  · exact or_put (.inl own)
  · refine or_put ((Bool.eq_false_or_eq_true _).imp_right fun h0 => ⟨?_, own⟩)
    cases hsp : b.isSplit with
    | true => exact congrArg (b.given 0) (hs hsp)
    | false =>
      refine Option.eq_none_iff_forall_ne_some.2 fun x hx => Bool.false_ne_true (h0.symm.trans ?_)
      rw [takes_unsplit hsp, ← takes_unsplit hsp 0 x]
      exact (copyAt_some hx).2

end

end Sys2Proof.Machine
end

section
/-! Records that wait for room in a completion ring (R354, R356). -/

namespace Sys2Proof.Machine

/-- A completion ring that is off or stopped leaves a record of its generation waiting. -/
theorem placeRecord_waits {b : Body} {sl : SliceId} {x : Slice} (hx : b.slice sl = x) {r : HeldRec} {rest : List HeldRec} (hw : x.waiting = r :: rest)
    (hg : r.gen = some x.gen) (hc : x.cq.stopped = true ∨ x.cq.en = false) (now : Bool) : b.placeRecord sl now = none := by
  subst hx
  refine (match_congr hw).trans ((if_neg ?_).trans (if_pos ?_))
  · rw [hg]
    exact fun h => Bool.false_ne_true ((bne_self_eq_false _).symm.trans h)
  · exact Bool.or_eq_true_iff.2 (hc.imp_right fun h => by rw [h]; rfl)

theorem slice_modSlice (b : Body) (sl : SliceId) (f : Slice → Slice) : (b.modSlice sl f).slice sl = f (b.slice sl) := Body.slice_setSlice ..

theorem postRecord_waits {b : Body} {sl : SliceId} {r : HeldRec} (hw : (b.slice sl).waiting = []) (hg : r.gen = some (b.slice sl).gen)
    (hc : (b.slice sl).cq.stopped = true ∨ (b.slice sl).cq.en = false) :
    b.postRecord sl r = b.modSlice sl fun x => { x with waiting := [r] } := by
  have hadd : (b.modSlice sl fun x => { x with waiting := x.waiting ++ [r] }) = b.modSlice sl fun x => { x with waiting := [r] } :=
    congrArg (fun w => b.setSlice sl { b.slice sl with waiting := w }) (by rw [hw]; rfl)
  rw [Body.postRecord, hadd, slice_modSlice]
  exact match_congr (placeRecord_waits (slice_modSlice ..) rfl hg hc false)

end Sys2Proof.Machine
end

section
/-! Start Records: the order of refusals and what an accepted start leaves (R287 to R290, R303, R312, R314 to R317, R362, R368). -/

namespace Sys2Proof.Machine

section
variable {b : Body} {sl : SliceId} {e : HubId × Fin 16} {d : List Byte}

/-! ## The reasons of an invalid start (R303) -/

/-- A reserved bit or a field that SFLAGS does not ask for. -/
def strayFields (d : List Byte) : Prop :=
  d.getD 19 0 &&& 0xF8 ≠ 0 ∨ d.getD 23 0 ≠ 0 ∨ field d 28 4 ≠ 0 ∨ ((d.getD 19 0).getLsbD 2 = false ∧ field d 20 2 ≠ 0) ∨
    ((d.getD 19 0).getLsbD 1 = false ∧ (d.getD 22 0).toNat ≠ 0)

theorem strayFields_iff : (d.getD 19 0 &&& 0xF8 ≠ 0 ∨ d.getD 23 0 ≠ 0 ∨ field d 28 4 ≠ 0 ∨ (!(d.getD 19 0).getLsbD 2) = true ∧ field d 20 2 ≠ 0 ∨
    (!(d.getD 19 0).getLsbD 1) = true ∧ (d.getD 22 0).toNat ≠ 0) ↔ strayFields d := by
  rw [Bool.not_eq_true', Bool.not_eq_true']
  rfl

/-- What is wrong with the subchannel that a start names, or with its path or stream. -/
noncomputable def Body.subchReason (b : Body) (sl : SliceId) (d : List Byte) : Option Subch → Option Byte
  | none => some 1
  | some c =>
    if (d.getD 19 0).getLsbD 1 ∧ c.paths.length ≤ (d.getD 22 0).toNat then some 6
    else if (d.getD 19 0).getLsbD 2 ∧ !(match tGet b.io.streams (field d 20 2) with
        | some t => t.slice = sl && t.image.toNat = field d 16 2
        | none => false) then some 4
    else none

theorem startReason_stray (h3 : strayFields d) : b.startReason sl d = some 3 := if_pos (strayFields_iff.2 h3)

section
variable (h3 : ¬strayFields d)
include h3

theorem startReason_priority (h2 : 7 < (d.getD 18 0).toNat) : b.startReason sl d = some 2 := (if_neg (mt strayFields_iff.1 h3)).trans (if_pos h2)

variable (h2 : ¬7 < (d.getD 18 0).toNat)
include h2

theorem startReason_alignment (h5 : field d 0 8 % 16 ≠ 0) : b.startReason sl d = some 5 :=
  (if_neg (mt strayFields_iff.1 h3)).trans ((if_neg h2).trans (if_pos h5))

variable (h5 : ¬field d 0 8 % 16 ≠ 0)
include h5

theorem startReason_ordered {o : Option Subch} (ho : (if field d 16 2 < 4096 then b.subch (subchKey sl.val (field d 16 2)) else none) = o) :
    b.startReason sl d = b.subchReason sl d o :=
  (if_neg (mt strayFields_iff.1 h3)).trans ((if_neg h2).trans ((if_neg h5).trans (congrArg (b.subchReason sl d) ho)))

theorem startReason_subchannel (h1 : 4096 ≤ field d 16 2 ∨ b.subch (subchKey sl.val (field d 16 2)) = none) : b.startReason sl d = some 1 := by
  refine startReason_ordered h3 h2 h5 (o := none) ?_
  rcases h1 with h | h
  · exact if_neg (Nat.not_lt.2 h)
  · rw [h, ite_self]

variable {c : Subch} (h1 : field d 16 2 < 4096) (hc : b.subch (subchKey sl.val (field d 16 2)) = some c)
include h1 hc

theorem startReason_path (hpin : (d.getD 19 0).getLsbD 1 = true) (hp : c.paths.length ≤ (d.getD 22 0).toNat) : b.startReason sl d = some 6 :=
  (startReason_ordered h3 h2 h5 ((if_pos h1).trans hc)).trans (if_pos ⟨hpin, hp⟩)

theorem startReason_stream (hpin : (d.getD 19 0).getLsbD 1 = false ∨ (d.getD 22 0).toNat < c.paths.length) (hst : (d.getD 19 0).getLsbD 2 = true)
    (ht : tGet b.io.streams (field d 20 2) = none) : b.startReason sl d = some 4 := by
  refine (startReason_ordered h3 h2 h5 ((if_pos h1).trans hc)).trans ((if_neg fun ⟨h, hle⟩ => ?_).trans (if_pos ⟨hst, by rw [ht]; rfl⟩))
  rcases hpin with hp | hp
  · exact Bool.false_ne_true (hp.symm.trans h)
  · exact Nat.not_le.2 hp hle

end

/-! ## Deciding a start (R288, R290, R365, R368) -/

/-- The one record of a refusal, of generation `g`. -/
noncomputable def Body.refuse (b : Body) (sl : SliceId) (g : BitVec 16) (d : List Byte) (sc ds : Byte) : Body :=
  b.postRecord sl { src := .notice, gen := some g, bytes := b.refusal sl d sc ds }

/-- The path that a start names itself (R290). -/
noncomputable def namedPath (d : List Byte) : Option Nat := if (d.getD 19 0).getLsbD 1 then some (d.getD 22 0).toNat else none

/-- How a start ends with the path chosen, the status being `sc` where there is none. -/
noncomputable def Body.startOn (b : Body) (sl : SliceId) (e : HubId × Fin 16) (d : List Byte) (c : Subch) (sc : Byte) : Body :=
  match b.choosePath (b.servingHub sl (b.slice sl).part) c (namedPath d) with
  | none => b.refuse sl (b.slice sl).gen d sc 0
  | some path =>
    match b.freeEntry (b.servingHub sl (b.slice sl).part) with
    | none => b.refuse sl (b.slice sl).gen d 0x07 0
    | some ix => b.acceptStart sl e d ix path c

/-- A valid start of a slice in `st`, whose subchannel is `o`. -/
noncomputable def Body.startIn (b : Body) (sl : SliceId) (e : HubId × Fin 16) (d : List Byte) (sc : Subch → Byte) : SliceSt → Option Subch → Body
  | .draining toFree, _ => if toFree then b else b.refuse sl (b.slice sl).gen d 0x02 0
  | _, none => b
  | _, some c =>
    if (b.slice sl).limit.toNat ≤ b.occ sl then
      (b.modSlice sl fun x => { x with qfull := sat32 x.qfull }).refuse sl (b.slice sl).gen d 0x03 0
    else if c.busy then b.refuse sl (b.slice sl).gen d 0x01 0
    else b.startOn sl e d c (sc c)

theorem decideStart_eq (b : Body) (sl : SliceId) (e : HubId × Fin 16) (d : List Byte) : ∃ sc : Subch → Byte, (b.isSplit = false → ∀ c, sc c = 5) ∧
    b.decideStart sl e d =
      match b.startReason sl d with
      | some r => b.refuse sl (b.slice sl).gen d 0x04 r
      | none => b.startIn sl e d sc (b.slice sl).st (b.subch (subchKey sl.val (field d 16 2))) := by
  refine ⟨_, fun hs c => if_neg fun hany => ?_, rfl⟩
  obtain ⟨p, -, hp⟩ := List.any_eq_true.1 hany
  exact Bool.false_ne_true (hs.symm.trans (Bool.and_elim_left (Bool.and_elim_left (Bool.and_elim_left hp))))

theorem decideStart_invalid {r : Byte} (hr : b.startReason sl d = some r) : b.decideStart sl e d = b.refuse sl (b.slice sl).gen d 0x04 r := by
  obtain ⟨sc, -, h⟩ := decideStart_eq b sl e d
  exact h.trans (match_congr hr)

section
variable (hr : b.startReason sl d = none)
include hr

theorem decideStart_draining {free : Bool} (hst : (b.slice sl).st = .draining free) :
    b.decideStart sl e d = if free then b else b.refuse sl (b.slice sl).gen d 0x02 0 := by
  obtain ⟨sc, -, h⟩ := decideStart_eq b sl e d
  exact h.trans ((match_congr hr).trans (congrArg (fun st => b.startIn sl e d sc st _) hst))

variable {c : Subch} (hst : (b.slice sl).st = .bound) (hc : b.subch (subchKey sl.val (field d 16 2)) = some c)
include hst hc

theorem decideStart_bound : ∃ sc, (b.isSplit = false → sc = 5) ∧ b.decideStart sl e d =
    if (b.slice sl).limit.toNat ≤ b.occ sl then (b.modSlice sl fun x => { x with qfull := sat32 x.qfull }).refuse sl (b.slice sl).gen d 0x03 0
    else if c.busy then b.refuse sl (b.slice sl).gen d 0x01 0
    else b.startOn sl e d c sc := by
  obtain ⟨sc, hsc, h⟩ := decideStart_eq b sl e d
  exact ⟨sc c, fun hs => hsc hs c, h.trans ((match_congr hr).trans (congrArg₂ (b.startIn sl e d sc) hst hc))⟩

theorem decideStart_full (hl : (b.slice sl).limit.toNat ≤ b.occ sl) :
    b.decideStart sl e d = (b.modSlice sl fun x => { x with qfull := sat32 x.qfull }).refuse sl (b.slice sl).gen d 0x03 0 := by
  obtain ⟨sc, -, h⟩ := decideStart_bound (e := e) hr hst hc
  exact h.trans (if_pos hl)

variable (hl : b.occ sl < (b.slice sl).limit.toNat)
include hl

theorem decideStart_busy (hb : c.busy = true) : b.decideStart sl e d = b.refuse sl (b.slice sl).gen d 0x01 0 := by
  obtain ⟨sc, -, h⟩ := decideStart_bound (e := e) hr hst hc
  exact h.trans ((if_neg (Nat.not_le.2 hl)).trans (if_pos hb))

variable (hb : c.busy = false)
include hb

theorem decideStart_free : ∃ sc, (b.isSplit = false → sc = 5) ∧ b.decideStart sl e d = b.startOn sl e d c sc := by
  obtain ⟨sc, hsc, h⟩ := decideStart_bound (e := e) hr hst hc
  refine ⟨sc, hsc, h.trans ((if_neg (Nat.not_le.2 hl)).trans (if_neg ?_))⟩
  rw [hb]
  exact Bool.false_ne_true

theorem decideStart_noPath (hs : b.isSplit = false) (hp : b.choosePath (b.servingHub sl (b.slice sl).part) c (namedPath d) = none) :
    b.decideStart sl e d = b.refuse sl (b.slice sl).gen d 0x05 0 := by
  obtain ⟨sc, hsc, h⟩ := decideStart_free (e := e) hr hst hc hl hb
  rw [hsc hs] at h
  exact h.trans (match_congr hp)

variable {path : Nat} (hp : b.choosePath (b.servingHub sl (b.slice sl).part) c (namedPath d) = some path)
include hp

theorem decideStart_journalFull (hf : b.freeEntry (b.servingHub sl (b.slice sl).part) = none) :
    b.decideStart sl e d = b.refuse sl (b.slice sl).gen d 0x07 0 := by
  obtain ⟨sc, -, h⟩ := decideStart_free (e := e) hr hst hc hl hb
  exact h.trans ((match_congr hp).trans (match_congr hf))

theorem decideStart_accepts {ix : Nat} (hf : b.freeEntry (b.servingHub sl (b.slice sl).part) = some ix) :
    b.decideStart sl e d = b.acceptStart sl e d ix path c := by
  obtain ⟨sc, -, h⟩ := decideStart_free (e := e) hr hst hc hl hb
  exact h.trans ((match_congr hp).trans (match_congr hf))

end

/-! ## What an accepted start leaves (R312, R314 to R317) -/

theorem pick_keeps {α : Type} (b : Body) : ∀ l : List α, ∃ n, (b.pick l).2 = { b with freeCtr := n }
  | [] => ⟨_, rfl⟩
  | [_] => ⟨_, rfl⟩
  | _ :: _ :: _ => ⟨_, rfl⟩

/-- The journal entry of a start that `engine` accepts at the time `tod`. -/
noncomputable def Body.startEntry (b : Body) (sl : SliceId) (h : HubId) (d : List Byte) (path : Nat) (c : Subch) (engine : Byte) (tod : BitVec 64) : JEntry where
  txn := BitVec.ofNat 64 (h.val * 2 ^ 63 + b.io.txnCount.get h % 2 ^ 63)
  tag := BitVec.ofNat 64 (field d 8 8)
  program := BitVec.ofNat 64 (field d 0 8)
  slice := BitVec.ofNat 13 sl.val
  gen := (b.slice sl).gen
  subch := BitVec.ofNat 16 (field d 16 2)
  part := (b.slice sl).part
  st := 1
  asid := (b.slice sl).asid
  prio := d.getD 18 0
  sflags := d.getD 19 0
  stream := BitVec.ofNat 16 (field d 20 2)
  path := BitVec.ofNat 8 path
  engine := engine
  cslice := BitVec.ofNat 16 (field d 24 2)
  cdepth := d.getD 26 0
  cmode := d.getD 27 0
  ckcce := 0
  recov := 0
  ckaddr := BitVec.ofNat 64 (field d 0 8)
  ckpos := if c.kind = 2 then c.lon else 0
  ckxfer := 0
  ckdone := 0
  ckresid := 0
  dups := 0
  issued := 0
  jflags := 0
  acctod := tod
  ckseq := 0
  ringix := 0xFFFFFFFF
  final := List.replicate 32 0

/-- The run of an accepted start. -/
noncomputable def Body.startRun (b : Body) (sl : SliceId) (d : List Byte) (c : Subch) (ix : Nat) : Running where
  ix := ix
  root := (b.slice sl).s1root
  addr := BitVec.ofNat 64 (field d 0 8)
  ccno := 0
  pos := none
  group := none
  resid := 0
  xfer := 0
  ending := c.reports.head?.map fun _ => (0, 1)

/-- A transaction enters: its entry, its run, its engine's work and its subchannel. -/
noncomputable def Body.enter (b : Body) (ix : Nat) (j : JEntry) (r : Running) (key path : Nat) : Body :=
  (((b.jPut ix j).touchChan (engineOf j.engine)).modIo fun i => { i with running := i.running ++ [r] }).modSubch key fun c =>
    { c with busy := true, lastPath := some path }

/-- The free choices and the transaction number of an accepted start are taken. -/
noncomputable def Body.numbered (b : Body) (h : HubId) (n : Nat) : Body := { ((b.spend).takeTxn h).2 with freeCtr := n }

/-- An accepted start has entered, and has its notice where SFLAGS asks for one. -/
noncomputable def Body.accepted (b : Body) (sl : SliceId) (ix : Nat) (j : JEntry) (r : Running) (key path : Nat) : Body :=
  if j.sflags.getLsbD 0 then (b.enter ix j r key path).postRecord sl ((b.enter ix j r key path).acceptedNotice ix j) else b.enter ix j r key path

/-- The engine that a start on a path is given, and the choices left (R312). -/
noncomputable def Body.startPick (b : Body) (h : HubId) (c : Subch) (path : Nat) : Option (HubId × Fin 16) × Body :=
  ((b.spend).takeTxn h).2.pickEngine (((c.paths[path]?).map fun p => portHalf p.port).getD h)

theorem Body.startPick_keeps (b : Body) (h : HubId) (c : Subch) (path : Nat) : ∃ n, (b.startPick h c path).2 = b.numbered h n := pick_keeps ..

theorem acceptStart_eq (b : Body) (sl : SliceId) (e : HubId × Fin 16) (d : List Byte) (ix path : Nat) (c : Subch) : ∃ (n : Nat) (engine : Byte),
    b.acceptStart sl e d ix path c = (b.numbered e.1 n).accepted sl ix (b.startEntry sl e.1 d path c engine (b.ctl.tod.get e.1)) (b.startRun sl d c ix)
      (subchKey sl.val (field d 16 2)) path := by
  obtain ⟨n, hn⟩ := b.startPick_keeps e.1 c path
  exact ⟨n, engineByte ((b.startPick e.1 c path).1.getD e), (congrArg (fun y : Body => y.accepted sl ix
    (b.startEntry sl e.1 d path c (engineByte ((b.startPick e.1 c path).1.getD e)) (y.ctl.tod.get e.1)) (b.startRun sl d c ix) (subchKey sl.val (field d 16 2)) path) hn :)⟩

theorem numbered_count (b : Body) (h : HubId) (n : Nat) : (b.numbered h n).io.txnCount.get h = b.io.txnCount.get h + 1 := Vector.getElem_set_self h.isLt

/-- What stands in `k` of a transaction that has entered `b`, whose counts, strands and memory it keeps. -/
structure Entered (b k : Body) (ix : Nat) (j : JEntry) (r : Running) (key : Nat) (c : Subch) : Prop where
  entry : k.jGet ix = some j
  found : k.running ix ≠ none
  run : r ∈ k.io.running
  subch : k.subch key = some c
  count : k.io.txnCount = b.io.txnCount
  strands : k.strands = b.strands
  mem : k.mem = b.mem

/-- The clock of an engine's pool after a start. -/
noncomputable def Body.served (b : Body) (e : HubId × Fin 16) (pool : PoolClock) : Body :=
  b.modIo fun i => { i with chanPools := i.chanPools.set (chanIx e.1 e.2) pool }

theorem ite_both {α β : Type} {P : α → β → Prop} {x y : α} {v w : β} {f : Bool} (h : P x v) (h' : P y w) : P (if f then x else y) (if f then v else w) := by
  cases f
  · exact h'
  · exact h

section
variable {j : JEntry} {r : Running} {ix key path : Nat} {c : Subch}

theorem enter_subch (hc : b.subch key = some c) : (b.enter ix j r key path).subch key = some { c with busy := true, lastPath := some path } :=
  subch_modSubch (b := ((b.jPut ix j).touchChan (engineOf j.engine)).modIo fun i => { i with running := i.running ++ [r] }) hc _

theorem enter_entered {hub : HubId} (hh : b.entryHub j = hub) (hup : b.journalUp hub = true) (hst : j.st ≠ 0)
    (hs : b.isSplit = true → tGet (b.io.journal.get (otherHub hub)) ix = none) (hr : r.ix = ix) (hc : b.subch key = some c) :
    Entered b (b.enter ix j r key path) ix j r key { c with busy := true, lastPath := some path } := by
  have hmem : r ∈ (b.enter ix j r key path).io.running := List.mem_append_right b.io.running (List.mem_singleton_self r)
  exact ⟨jGet_jPut_new hh hup hst hs, fun hnone => List.find?_eq_none.1 hnone r hmem (decide_eq_true hr), hmem, enter_subch hc, rfl, rfl, rfl⟩

theorem Entered.modSlice {k : Body} (h : Entered b k ix j r key c) (f : Slice → Slice) : Entered b (k.modSlice sl f) ix j r key c :=
  ⟨h.entry, h.found, h.run, h.subch, h.count, h.strands, h.mem⟩

/-- The notice of an accepted start waits, where SFLAGS asks for one. -/
theorem accepted_entered (he : Entered b (b.enter ix j r key path) ix j r key c) (hw : (b.slice sl).waiting = [])
    (hg : j.gen = (b.slice sl).gen) (hc : (b.slice sl).cq.stopped = true ∨ (b.slice sl).cq.en = false) :
    Entered b (b.accepted sl ix j r key path) ix j r key c ∧
      ((b.accepted sl ix j r key path).slice sl).waiting = if j.sflags.getLsbD 0 then [(b.enter ix j r key path).acceptedNotice ix j] else [] := by
  refine ite_both (P := fun k w => Entered b k ix j r key c ∧ (k.slice sl).waiting = w) ?_ ⟨he, hw⟩
  rw [postRecord_waits (b := b.enter ix j r key path) hw (congrArg some hg) hc]
  exact ⟨he.modSlice _, congrArg Slice.waiting (slice_modSlice ..)⟩

end

theorem startEntry_slice (b : Body) (sl : SliceId) (h : HubId) (d : List Byte) (path : Nat) (c : Subch) (engine : Byte) (tod : BitVec 64) :
    (b.startEntry sl h d path c engine tod).slice.toNat = sl.val := Nat.mod_eq_of_lt sl.isLt

theorem startEntry_subch (b : Body) (sl : SliceId) (h : HubId) {d : List Byte} (hd : field d 16 2 < 4096) (path : Nat) (c : Subch) (engine : Byte) (tod : BitVec 64) :
    (b.startEntry sl h d path c engine tod).subch.toNat = field d 16 2 := Nat.mod_eq_of_lt (Nat.lt_trans hd (by decide))

theorem startEntry_hub (b : Body) (sl : SliceId) (h : HubId) (d : List Byte) (path : Nat) (c : Subch) (engine : Byte) (tod : BitVec 64) :
    b.entryHub (b.startEntry sl h d path c engine tod) = b.servingHub sl (b.slice sl).part :=
  congrArg (fun n => b.servingHub n (b.slice sl).part) (Fin.ext (startEntry_slice b sl h d path c engine tod))

/-- The ACCEPTED notice of a start's entry. -/
noncomputable def JEntry.startNotice (j : JEntry) (d : List Byte) (ix : Nat) (c : Subch) : HeldRec where
  src := .accepted ix
  gen := some j.gen
  bytes := chanRecord j.txn.toNat (field d 8 8) 0 0 (field d 16 2) 0 0x10 0 j.path c.sense.isSome

theorem senseHeld_of_subch {key : Nat} {c : Subch} (hc : b.subch key = some c) : b.senseHeld key = c.sense.isSome := match_congr hc

section
variable {c : Subch} (h1 : field d 16 2 < 4096)
include h1

/-- The ACCEPTED notice, with the fields of the Start Record. -/
theorem acceptedNotice_startEntry {k : Body} {c' : Subch} (hk : k.subch (subchKey sl.val (field d 16 2)) = some c') (hsense : c'.sense = c.sense) (ix path : Nat)
    (h : HubId) (engine : Byte) (tod : BitVec 64) : k.acceptedNotice ix (b.startEntry sl h d path c engine tod) =
      (b.startEntry sl h d path c engine tod).startNotice d ix c := by
  have hkey : (b.startEntry sl h d path c engine tod).subchKey = subchKey sl.val (field d 16 2) :=
    congrArg₂ subchKey (startEntry_slice b sl h d path c engine tod) (startEntry_subch b sl h h1 path c engine tod)
  have htag : (b.startEntry sl h d path c engine tod).tag.toNat = field d 8 8 :=
    Nat.mod_eq_of_lt (Nat.lt_of_lt_of_le (field_lt d 8 8) (by decide))
  rw [Body.acceptedNotice, hkey, senseHeld_of_subch hk, hsense, htag, startEntry_subch b sl h h1 path c engine tod]
  rfl

end

/-! ## A start that its pool serves (R289, R342, R362) -/

/-- An accepted start's transaction, in `k`: its entry, its run, its subchannel, and the notice that waits. -/
def Begun (b k : Body) (sl : SliceId) (h : HubId) (d : List Byte) (ix path : Nat) (c : Subch) (j : JEntry) (r : Running) : Prop :=
  k.jGet ix = some j ∧ k.running ix ≠ none ∧ r ∈ k.io.running ∧
    j.st = 1 ∧ j.txn = BitVec.ofNat 64 (h.val * 2 ^ 63 + b.io.txnCount.get h % 2 ^ 63) ∧ k.io.txnCount.get h = b.io.txnCount.get h + 1 ∧
    j.tag = BitVec.ofNat 64 (field d 8 8) ∧ j.program = BitVec.ofNat 64 (field d 0 8) ∧ j.slice.toNat = sl.val ∧ j.subch.toNat = field d 16 2 ∧
    j.gen = (b.slice sl).gen ∧ j.part = (b.slice sl).part ∧ j.prio = d.getD 18 0 ∧ j.sflags = d.getD 19 0 ∧ j.path = BitVec.ofNat 8 path ∧
    j.jflags = 0 ∧ j.ckaddr = j.program ∧ j.ckcce = 0 ∧ j.issued = 0 ∧ r.ix = ix ∧ r.addr = j.program ∧ r.ccno = 0 ∧ r.group = none ∧
    k.subch (subchKey sl.val (field d 16 2)) = some { c with busy := true, lastPath := some path } ∧
    (k.slice sl).waiting = (if (d.getD 19 0).getLsbD 0 then
      [{ src := .accepted ix, gen := some (b.slice sl).gen, bytes := chanRecord j.txn.toNat (field d 8 8) 0 0 (field d 16 2) 0 0x10 0 j.path c.sense.isSome }] else []) ∧
    k.strands = b.strands ∧ k.mem = b.mem

section
variable {c : Subch} {ix path : Nat} (h1 : field d 16 2 < 4096)

theorem Begun.served {k : Body} {h : HubId} {j : JEntry} {r : Running} (hb : Begun b k sl h d ix path c j r) (e : HubId × Fin 16) (pool : PoolClock) :
    Begun b (k.served e pool) sl h d ix path c j r := hb

include h1

/-- What an accepted start's entry and notice hold (R314 to R317). -/
theorem Entered.begun {k : Body} {h : HubId} {n : Nat} {engine : Byte} {tod : BitVec 64}
    (he : Entered (b.numbered h n) k ix (b.startEntry sl h d path c engine tod) (b.startRun sl d c ix) (subchKey sl.val (field d 16 2))
      { c with busy := true, lastPath := some path })
    (hw : (k.slice sl).waiting = if (d.getD 19 0).getLsbD 0 then [(b.startEntry sl h d path c engine tod).startNotice d ix c] else []) :
    Begun b k sl h d ix path c (b.startEntry sl h d path c engine tod) (b.startRun sl d c ix) :=
  ⟨he.entry, he.found, he.run, rfl, rfl, (congrArg (fun v : Vector Nat 2 => v.get h) he.count).trans (numbered_count ..), rfl, rfl,
    startEntry_slice b sl h d path c engine tod, startEntry_subch b sl h h1 path c engine tod,
    rfl, rfl, rfl, rfl, rfl, rfl, rfl, rfl, rfl, rfl, rfl, rfl, rfl, he.subch, hw, he.strands, he.mem⟩

variable (hw : (b.slice sl).waiting = []) (hc : (b.slice sl).cq.stopped = true ∨ (b.slice sl).cq.en = false)
  (hs : b.subch (subchKey sl.val (field d 16 2)) = some c) (hup : b.journalUp (b.servingHub sl (b.slice sl).part) = true)
  (hsp : b.isSplit = true → tGet (b.io.journal.get (otherHub (b.servingHub sl (b.slice sl).part))) ix = none)
include hw hc hs hup hsp

theorem accepted_begun {h : HubId} (n : Nat) (engine : Byte) (tod : BitVec 64) :
    Begun b ((b.numbered h n).accepted sl ix (b.startEntry sl h d path c engine tod) (b.startRun sl d c ix) (subchKey sl.val (field d 16 2)) path) sl h d ix path c
      (b.startEntry sl h d path c engine tod) (b.startRun sl d c ix) := by
  have hin := enter_entered (b := b.numbered h n) (path := path) (startEntry_hub b sl h d path c engine tod) hup (by decide : (1 : Byte) ≠ 0) hsp
    (rfl : (b.startRun sl d c ix).ix = ix) hs
  have hent := accepted_entered (sl := sl) hin hw rfl hc
  exact hent.1.begun h1 (hent.2.trans (congrArg (fun x => if (d.getD 19 0).getLsbD 0 then [x] else []) (acceptedNotice_startEntry (c := c) h1 hin.subch rfl ..)))

theorem acceptStart_begun (e : HubId × Fin 16) : ∃ j r, Begun b (b.acceptStart sl e d ix path c) sl e.1 d ix path c j r := by
  obtain ⟨n, engine, hk⟩ := acceptStart_eq b sl e d ix path c
  exact ⟨_, _, hk ▸ accepted_begun h1 hw hc hs hup hsp n engine (b.ctl.tod.get e.1)⟩

end

/-- START_RECORD leaves `k`, but for the clock of the engine's pool. -/
def Turned (s : State) (sl : SliceId) (e : HubId × Fin 16) (k : Body) : Prop := ∃ pool, exec (.startRecord sl) s = .next { s with body := k.served e pool }

section
variable {s : State}

theorem served_modSlice (b : Body) (sl : SliceId) (f : Slice → Slice) (e : HubId × Fin 16) (pool : PoolClock) :
    ((b.modSlice sl f).served e pool).slice sl = f (b.slice sl) := slice_modSlice ..

/-- START_RECORD refuses with one record; `qfull` is the slice's count of full queues then. -/
def Refused (s : State) (b : Body) (sl : SliceId) (d : List Byte) (sc ds : Byte) (qfull : BitVec 32) : Prop :=
  ∃ b' : Body, exec (.startRecord sl) s = .next { s with body := b' } ∧ b'.io.journal = b.io.journal ∧ b'.io.running = b.io.running ∧ b'.io.subchs = b.io.subchs ∧
    (b'.slice sl).waiting = [{ src := .notice, gen := some (b.slice sl).gen, bytes := b.refusal sl d sc ds }] ∧ (b'.slice sl).qfull = qfull

/-- START_RECORD accepts. -/
def Accepted (s : State) (b : Body) (sl : SliceId) (h : HubId) (d : List Byte) (ix path : Nat) (c : Subch) : Prop :=
  ∃ (b' : Body) (j : JEntry) (r : Running), exec (.startRecord sl) s = .next { s with body := b' } ∧ Begun b b' sl h d ix path c j r

/-- The Start Record that the pool serves is decided. -/
theorem turn_decides {k : Body} (hs : s.body.serving = true) (he : s.body.ringEngine sl = some e)
    (hp : s.body.poolNext ((s.body.io.chanPools[chanIx e.1 e.2]).join ((sliceIds s.body).filter (s.body.startReady e))) (fun _ => 1)
      ((sliceIds s.body).filter (s.body.startReady e)) = some sl)
    (hr : s.body.readEntryAtHead sl 32 = (some d, b)) (hk : b.decideStart sl e d = k) : Turned s sl e k := by
  rw [← hk]
  refine ⟨_, next_of_body ((match_congr he).trans ((if_neg ?_).trans (match_congr hr)))⟩
  rw [hs, hp, bne_self_eq_false]
  exact Bool.false_ne_true

theorem Turned.of_eq {k k' : Body} (h : Turned s sl e k) (hk : k = k') : Turned s sl e k' := hk ▸ h

theorem turn_drained (ht : Turned s sl e (if true = true then b else b.refuse sl (b.slice sl).gen d 0x02 0)) (hw : (b.slice sl).waiting = []) :
    ∃ b' : Body, exec (.startRecord sl) s = .next { s with body := b' } ∧ (b'.slice sl).waiting = [] ∧ b'.io.journal = b.io.journal :=
  have ⟨_, hx⟩ := ht
  ⟨_, hx, hw, rfl⟩

section
variable (hw : (b.slice sl).waiting = []) (hc : (b.slice sl).cq.stopped = true ∨ (b.slice sl).cq.en = false)
include hw hc

theorem turn_refuses {sc ds : Byte} (ht : Turned s sl e (b.refuse sl (b.slice sl).gen d sc ds)) :
    Refused s b sl d sc ds (b.slice sl).qfull := by
  obtain ⟨pool, hx⟩ := ht.of_eq (postRecord_waits hw rfl hc)
  exact ⟨_, hx, rfl, rfl, rfl, congrArg Slice.waiting (served_modSlice ..), (congrArg Slice.qfull (served_modSlice ..)).trans rfl⟩

theorem turn_full (ht : Turned s sl e ((b.modSlice sl fun x => { x with qfull := sat32 x.qfull }).refuse sl (b.slice sl).gen d 0x03 0)) :
    Refused s b sl d 0x03 0 (sat32 (b.slice sl).qfull) := by
  have hs : (b.modSlice sl fun x => { x with qfull := sat32 x.qfull }).slice sl = { b.slice sl with qfull := sat32 (b.slice sl).qfull } := slice_modSlice ..
  obtain ⟨pool, hx⟩ := ht.of_eq (postRecord_waits (by rw [hs]; exact hw) (by rw [hs]) (by rw [hs]; exact hc))
  exact ⟨_, hx, rfl, rfl, rfl, congrArg Slice.waiting (served_modSlice ..), (congrArg Slice.qfull (served_modSlice ..)).trans (congrArg Slice.qfull hs)⟩

theorem turn_accepts {c : Subch} {ix path : Nat} (ht : Turned s sl e (b.acceptStart sl e d ix path c)) (h1 : field d 16 2 < 4096)
    (hs : b.subch (subchKey sl.val (field d 16 2)) = some c) (hup : b.journalUp (b.servingHub sl (b.slice sl).part) = true)
    (hsp : b.isSplit = true → tGet (b.io.journal.get (otherHub (b.servingHub sl (b.slice sl).part))) ix = none) : Accepted s b sl e.1 d ix path c := by
  obtain ⟨pool, hx⟩ := ht
  obtain ⟨j, r, hb⟩ := acceptStart_begun h1 hw hc hs hup hsp e
  exact ⟨_, j, r, hx, hb.served e pool⟩

end
end
end

/-- Settles O41: the checks in their order, and the entry, run and notice of an accepted start. -/
theorem channelStarts : Obligations.ChannelStarts := by
  intro s sl b e d x h fl image key pathNo pin refused wrong3 wrong2 wrong5 wrong1 ready hs he hp hr hw hc
  refine ⟨fun h3 => turn_refuses hw hc (turn_decides hs he hp hr <| decideStart_invalid (startReason_stray h3)),
    fun h3 h2 => turn_refuses hw hc (turn_decides hs he hp hr <| decideStart_invalid (startReason_priority h3 h2)),
    fun h3 h2 h5 => turn_refuses hw hc (turn_decides hs he hp hr <| decideStart_invalid (startReason_alignment h3 h2 h5)),
    fun h3 h2 h5 h1 => turn_refuses hw hc (turn_decides hs he hp hr <| decideStart_invalid (startReason_subchannel h3 h2 h5 h1)),
    fun c h3 h2 h5 h1 hsub => ⟨fun hpin hn => ?_, fun hpin hst ht => ?_, fun hok => ⟨fun hst => ?_, fun hst => ?_, fun hst => ⟨fun hl => ?_, fun hl =>
      ⟨fun hb => ?_, fun hb => ⟨fun hpath hsp => ?_, fun path hpath hf => ?_, fun path ix hpath hf hup hsp => ?_⟩⟩⟩⟩⟩⟩
  · exact turn_refuses hw hc (turn_decides hs he hp hr <| decideStart_invalid (startReason_path h3 h2 h5 (Nat.not_le.1 fun h => h1 (.inl h)) hsub hpin hn))
  · exact turn_refuses hw hc (turn_decides hs he hp hr <| decideStart_invalid (startReason_stream h3 h2 h5 (Nat.not_le.1 fun h => h1 (.inl h)) hsub hpin hst ht))
  · exact turn_refuses hw hc (turn_decides hs he hp hr <| decideStart_draining hok hst)
  · exact turn_drained (turn_decides hs he hp hr (decideStart_draining hok hst)) hw
  · exact turn_full hw hc (turn_decides hs he hp hr <| decideStart_full hok hst hsub hl)
  · exact turn_refuses hw hc (turn_decides hs he hp hr <| decideStart_busy hok hst hsub hl hb)
  · exact turn_refuses hw hc (turn_decides hs he hp hr <| decideStart_noPath hok hst hsub hl hb hsp hpath)
  · exact turn_refuses hw hc (turn_decides hs he hp hr <| decideStart_journalFull hok hst hsub hl hb hpath hf)
  · exact turn_accepts hw hc (turn_decides hs he hp hr <| decideStart_accepts hok hst hsub hl hb hpath hf) (Nat.not_le.1 fun h => h1 (.inl h)) hsub hup hsp

end Sys2Proof.Machine
end

section
/-! The working state of a channel transaction under the changes of its program, and the end of a program (R298, R301, R316, R319). -/

namespace Sys2Proof.Machine

/-! ## A transaction at work -/

theorem running_modRunning {b : Body} {ix : Nat} {r : Running} (h : b.running ix = some r) {f : Running → Running} (hf : ∀ x, (f x).ix = x.ix) :
    (b.modRunning ix f).running ix = some (f r) := by
  have hp : (fun x : Running => decide (x.ix = ix)) ∘ (fun x => if x.ix = ix then f x else x) = fun x => decide (x.ix = ix) :=
    funext fun x => congrArg (fun i => decide (i = ix)) ((apply_ite Running.ix ..).trans (by rw [hf, ite_self]))
  have hr : r.ix = ix := of_decide_eq_true (List.find?_some (p := fun x : Running => decide (x.ix = ix)) h)
  refine List.find?_map.trans ?_
  rw [hp]
  exact (congrArg (Option.map _) h).trans (congrArg some (if_pos hr))

/-- The entry, the run and the subchannel of a transaction. -/
structure AtWork (b : Body) (ix : Nat) (j : JEntry) (r : Running) (c : Subch) : Prop where
  entry : b.jGet ix = some j
  run : b.running ix = some r
  subch : b.subch j.subchKey = some c

section
variable {b : Body} {ix : Nat} {j : JEntry} {r : Running} {c : Subch}

theorem AtWork.modRunning (h : AtWork b ix j r c) {f : Running → Running} (hf : ∀ x, (f x).ix = x.ix) : AtWork (b.modRunning ix f) ix j (f r) c :=
  ⟨h.entry, running_modRunning h.run hf, h.subch⟩

theorem AtWork.modSubch (h : AtWork b ix j r c) (f : Subch → Subch) : AtWork (b.modSubch j.subchKey f) ix j r (f c) :=
  ⟨h.entry, h.run, subch_modSubch h.subch f⟩

theorem AtWork.jPut (h : AtWork b ix j r c) {e : JEntry} (hs : e.slice = j.slice) (hp : e.part = j.part) (hc : e.subch = j.subch) (hst : e.st ≠ 0) :
    AtWork (b.jPut ix e) ix e r c := by
  have hh : b.entryHub e = b.entryHub j :=
    congrArg₂ (fun (n : BitVec 13) p => b.servingHub ⟨n.toNat, n.isLt⟩ p) hs hp
  have hk : e.subchKey = j.subchKey := by rw [JEntry.subchKey, hs, hc]; rfl
  exact ⟨jGet_jPut h.entry hh hst, h.run, by rw [hk]; exact h.subch⟩

theorem AtWork.jMod (h : AtWork b ix j r c) {f : JEntry → JEntry} (hs : (f j).slice = j.slice) (hp : (f j).part = j.part)
    (hc : (f j).subch = j.subch) (hst : (f j).st ≠ 0) : AtWork (b.jMod ix f) ix (f j) r c := by
  rw [Body.jMod, h.entry]
  exact h.jPut hs hp hc hst

/-! ## The end of a program (R301, R319) -/

/-- The entry of a transaction whose FINAL is written. -/
noncomputable def JEntry.ended (j : JEntry) (r : Running) (sc ds : Byte) (held : Bool) : JEntry :=
  { j with
    st := 4
    ckresid := r.resid
    issued := 0
    ckseq := j.ckseq + 1
    final := chanRecord j.txn.toNat j.tag.toNat r.resid j.ckxfer j.subch.toNat (r.ccno.toNat - 1) sc ds j.path held }

/-- `k` is `b` with the transaction ended; its commands in doubt are gone. -/
structure Ended (b k : Body) (ix : Nat) (e : JEntry) : Prop where
  entry : k.jGet ix = some e
  cmds : k.io.cmds = b.io.cmds.filter fun q => !(q.who = .txn ix && q.live)
  strands : k.strands = b.strands
  mem : k.mem = b.mem

section
variable (h : AtWork b ix j r c) (hrep : c.reports = [])
include h hrep

/-- The commands in doubt of a transaction go. -/
noncomputable def Body.settled (b : Body) (ix : Nat) : Body := b.modIo fun i => { i with cmds := i.cmds.filter fun c => !(c.who = .txn ix && c.live) }

theorem writeFinal_eq (sc ds : Byte) : b.writeFinal ix sc ds =
    ((b.settled ix).jPut ix (j.ended r sc ds (b.senseHeld j.subchKey))).touchChan (engineOf j.engine) := by
  have hnone : (if sc = 0 then (b.subch j.subchKey).bind (·.reports.head?) else none) = none := by
    rw [h.subch, Option.bind_some, hrep, List.head?_nil, ite_self]
  refine (match_congr₂ h.entry h.run).trans ?_
  simp only [hnone]
  rfl

theorem writeFinal_ended (sc ds : Byte) : Ended b (b.writeFinal ix sc ds) ix (j.ended r sc ds (b.senseHeld j.subchKey)) := by
  rw [writeFinal_eq h hrep]
  exact ⟨jGet_jPut (b := b.settled ix) h.entry rfl (by decide : (4 : Byte) ≠ 0), rfl, rfl, rfl⟩

/-- The status with which a program ends is kept. -/
noncomputable def Running.ends (r : Running) (sc ds : Byte) : Running := { r with ending := some (r.ending.getD (sc, ds)) }

section
variable (hend : r.ending = none) (hredo : r.redo = []) (hd : b.inDoubt ix = [])
include hend hredo hd

/-- With no command in doubt a program ends at once. -/
theorem endProgram_ended (sc ds : Byte) : Ended b (b.endProgram ix sc ds) ix (j.ended r sc ds (b.senseHeld j.subchKey)) := by
  have h' : AtWork (b.modRunning ix fun r => r.ends sc ds) ix j (r.ends sc ds) c := h.modRunning fun _ => rfl
  have hidle : (((b.inDoubt ix).filter fun c => !c.answered).isEmpty && r.redo.isEmpty) = true := by rw [hd, hredo]; rfl
  have hw : b.endProgram ix sc ds = (b.modRunning ix fun r => r.ends sc ds).writeFinal ix sc ds :=
    (match_congr h'.run).trans ((if_pos hidle).trans
      (congrArg (fun o : Option (Byte × Byte) => (b.modRunning ix fun r => r.ends sc ds).writeFinal ix (o.getD (sc, ds)).1 (o.getD (sc, ds)).2) hend))
  rw [hw]
  obtain ⟨hentry, hcmds, hstrands, hmem⟩ := writeFinal_ended h' hrep sc ds
  exact ⟨hentry, hcmds, hstrands, hmem⟩

end

end

/-- With none in doubt no command goes. -/
theorem filter_inDoubt (hd : b.inDoubt ix = []) : b.io.cmds.filter (fun q => !(q.who = .txn ix && q.live)) = b.io.cmds :=
  List.filter_eq_self.2 fun q hq => (Bool.not_eq_true' _).mpr (Bool.eq_false_iff.2 (List.filter_eq_nil_iff.1 hd q hq))

/-- No byte of the command is left to move. -/
noncomputable def Running.done (r : Running) : Running := { r with resid := 0 }

/-- The checkpoint past a device command whose CCE is done. -/
noncomputable def JEntry.past (j : JEntry) (r : Running) : JEntry :=
  { j with ckcce := r.ccno.setWidth 16, ckaddr := r.addr, ckdone := 0, ckresid := 0, ckseq := j.ckseq + 1 }

theorem commandEnded_eq (h : AtWork b ix j r c) (device : Bool) : b.commandEnded ix 0 1 0 device =
    (if device then (b.modRunning ix Running.done).jPut ix (j.past r) else b.modRunning ix Running.done).endProgram ix 0 1 :=
  match_congr₂ (h.modRunning (f := Running.done) fun _ => rfl).entry (h.modRunning (f := Running.done) fun _ => rfl).run

section
variable (h : AtWork b ix j r c) (hrep : c.reports = []) (hend : r.ending = none) (hredo : r.redo = []) (hd : b.inDoubt ix = [])
include h hrep hend hredo hd

/-- A command without a device action that does not chain ends the program with OK (R301). -/
theorem commandEnded_last : Ended b (b.commandEnded ix 0 1 0 false) ix (j.ended r.done 0 1 (b.senseHeld j.subchKey)) := by
  rw [commandEnded_eq h]
  obtain ⟨hentry, hcmds, hstrands, hmem⟩ := endProgram_ended (h.modRunning (f := Running.done) fun _ => rfl) hrep hend hredo hd 0 1
  exact ⟨hentry, hcmds, hstrands, hmem⟩

/-- A device command that does not chain ends the program with OK, past its CCE. -/
theorem commandEnded_device : Ended b (b.commandEnded ix 0 1 0 true) ix ((j.past r).ended r.done 0 1 (b.senseHeld j.subchKey)) := by
  rw [commandEnded_eq h]
  obtain ⟨hentry, hcmds, hstrands, hmem⟩ := endProgram_ended
    ((h.modRunning (f := Running.done) fun _ => rfl).jPut (e := j.past r) rfl rfl rfl (st_of_jGet (j := j) h.entry)) hrep hend hredo hd 0 1
  exact ⟨hentry, hcmds, hstrands, hmem⟩

end

end

end Sys2Proof.Machine
end

section
/-! CCE_FETCH of a single CCE: one without a command, a NOP, and a FLUSH of a block device (R291 to R293, R297, R301, R303, R308, R321). -/

namespace Sys2Proof.Machine

/-! ## One CCE (R291, R301, R303) -/

/-- A fetched CCE's ordinal is kept in the working state. -/
noncomputable def Running.counted (r : Running) (n : Nat) : Running := { r with ccno := BitVec.ofNat 32 (n + 1) }

noncomputable def Body.counted (b : Body) (ix n : Nat) : Body := b.modRunning ix fun r => r.counted n

/-- The commands but SENSE, NOP and JUMP clear the held sense (R302). -/
noncomputable def Body.senseCleared (b : Body) (key : Nat) : Body := b.modSubch key fun x => { x with sense := none }

theorem flagsOf_none : ∀ (cmd : Byte) (t : Bool), flagsOf cmd false = none → flagsOf cmd t = none ∧ ¬(cmd = 0x31 ∨ cmd = 0x41 ∨ cmd = 0x40) := by
  decide

/-- The fetch of a command's first CCE. -/
noncomputable def Running.fetched (r : Running) : Fetch where
  addr := r.addr.toNat
  ccno := r.ccno.toNat
  jumped := false
  grp := none

section
variable {b0 b : Body} {ix : Nat} {p : Prog} {r : Running} (hn : r.ccno.toNat < 65535) (fuel : Nat)
include hn

theorem fetch_unknown {cce : List Byte} (hr : b0.engRead p.owner r.addr.toNat 16 = (b, .ok cce)) (h : flagsOf (cce.getD 0 0) false = none) :
    b0.fetch ix p (fuel + 1) r.fetched = ((b.counted ix r.ccno.toNat).senseCleared p.key, .error (.check 0x20 1)) := by
  obtain ⟨hf, hc⟩ := flagsOf_none _ (decide (p.kind = 2) && p.stream.isSome) h
  exact (if_neg (Nat.not_le.2 hn)).trans ((congrArg₂ cbind (congrArg (cceAcc · 1) hr) rfl).trans
    ((match_congr hf).trans (congrArg (fun x => progCheck x 1) (if_neg hc))))

theorem fetch_nop (hr : b0.engRead p.owner r.addr.toNat 16 = (b, .ok (0x41 :: List.replicate 15 0))) : b0.fetch ix p (fuel + 1) r.fetched =
    (b.counted ix r.ccno.toNat, .ok (.nop 0, (r.addr.toNat + 16) % 2 ^ 64, r.ccno.toNat + 1)) :=
  (if_neg (Nat.not_le.2 hn)).trans (congrArg₂ cbind (congrArg (cceAcc · 1) hr) rfl)

theorem fetch_flush (hr : b0.engRead p.owner r.addr.toNat 16 = (b, .ok (0x50 :: 0 :: 2 :: List.replicate 13 0))) (hk : p.kind = 1) :
    b0.fetch ix p (fuel + 1) r.fetched =
      ((b.counted ix r.ccno.toNat).senseCleared p.key, .ok (.control 0 2 0, (r.addr.toNat + 16) % 2 ^ 64, r.ccno.toNat + 1)) := by
  obtain ⟨owner, kind, blksz, located, stream, key⟩ := p
  cases hk
  exact (if_neg (Nat.not_le.2 hn)).trans (congrArg₂ cbind (congrArg (cceAcc · 1) hr) rfl)

end

/-! ## What a fetched CCE does (R297, R301, R308, R321) -/

/-- Facts about the program of a transaction that its fetches use. -/
noncomputable def Body.progOf (b : Body) (j : JEntry) (r : Running) (c : Subch) : Prog where
  owner := b.txOwner j r
  kind := c.kind
  blksz := max c.blksz.toNat 1
  located := r.pos.isSome
  stream := if j.sflags.getLsbD 2 then (b.streamOf j.subchKey).map fun t => t.2.bufsize.toNat * mib else none
  key := j.subchKey

section
variable {b b' : Body} {ix : Nat} {j : JEntry} {r : Running} {c : Subch}

theorem fetchNext_fails {e : CceErr} (hf : b.fetch ix (b.progOf j r c) 65537 r.fetched = (b', .error e)) :
    b.fetchNext ix j r c = b'.failCmd ix e := by
  rw [Body.progOf, Running.fetched] at hf
  exact match_congr hf

theorem fetchNext_performs (hs : b.streamOf j.subchKey = none) {a : Act} {next n : Nat} (hf : b.fetch ix (b.progOf j r c) 65537 r.fetched = (b', .ok (a, next, n))) :
    b.fetchNext ix j r c = b'.performAct ix j r c (b.progOf j r c) a next := by
  rw [Body.progOf, Running.fetched] at hf
  exact (match_congr hf).trans (match_congr hs)

/-- The working state of a fetch that goes on to the transaction's next CCE. -/
theorem cceFetch_fetches {s : State} (hs : s.body.serving = true) (hu : s.body.chanUp (engineOf j.engine).1 (engineOf j.engine).2 = true)
    (hy : s.body.yields ix = false) (hj : s.body.jGet ix = some j) (hst : j.st = 2 ∨ j.st = 3)
    (h : AtWork (s.body.modRunning ix fun x => { x with idle := false }) ix j r c)
    (hend : r.ending = none) (hg : r.group = none) (hstop : r.stop = none) (hl : r.lost = false) (hredo : r.redo = []) :
    exec (.cceFetch ix) s = .next { s with body := (s.body.modRunning ix fun x => { x with idle := false }).fetchNext ix j r c } := by
  have h1 : j.st ≠ 1 := by rcases hst with h | h <;> rw [h] <;> decide
  have hrun : s.body.runProgram ix = (s.body.modRunning ix fun x => { x with idle := false }).fetchNext ix j r c := by
    refine (match_congr₂ h.entry h.run).trans ((match_congr h.subch).trans ((match_congr hstop).trans ((if_neg ?_).trans ((if_neg ?_).trans ((match_congr hend).trans (if_neg ?_))))))
    · rw [hl]; exact Bool.false_ne_true
    · rw [hredo]; exact Bool.false_ne_true
    · rw [hg]; exact Bool.false_ne_true
  refine next_of_body ((match_congr hj).trans ((if_neg ?_).trans ((if_neg h1).trans ((if_pos hst).trans hrun))))
  rw [hs, hu, hy]
  exact Bool.false_ne_true

/-- A check ends the program with its status. -/
theorem failCmd_ended (h : AtWork b ix j r c) (hrep : c.reports = []) (hend : r.ending = none) (hd : b.inDoubt ix = []) (sc ds : Byte) :
    Ended b (b.failCmd ix (.check sc ds)) ix (j.ended r sc ds (b.senseHeld j.subchKey)) := by
  obtain ⟨hentry, hcmds, hstrands, hmem⟩ :=
    endProgram_ended (h.modRunning (f := fun x => { x with lost := false, redo := [] }) fun _ => rfl) hrep hend rfl hd sc ds
  exact ⟨hentry, hcmds, hstrands, hmem⟩

theorem AtWork.counted (h : AtWork b ix j r c) (n : Nat) : AtWork (b.counted ix n) ix j (r.counted n) c := h.modRunning fun _ => rfl

theorem AtWork.senseCleared (h : AtWork b ix j r c) : AtWork (b.senseCleared j.subchKey) ix j r { c with sense := none } := h.modSubch _

/-- The working state of a command of group `g` that begins, as `r0` was when it was fetched. -/
noncomputable def Running.begun (r r0 : Running) (next : Nat) (g : Option Group) : Running :=
  { r with caddr := r0.addr, cccno := r0.ccno, addr := BitVec.ofNat 64 next, group := g, lost := false, redo := if g.isNone then [] else r.redo }

theorem AtWork.begun (h : AtWork b ix j r c) (r0 : Running) (next : Nat) (g : Option Group) :
    AtWork (b.beginCmd ix r0 next g) ix j (r.begun r0 next g) c := h.modRunning fun _ => rfl

/-- A NOP that does not chain ends the program with OK. -/
theorem performAct_nop (h : AtWork b ix j r c) (r0 : Running) (c0 : Subch) (p : Prog) (next : Nat) (hrep : c.reports = []) (hend : r.ending = none)
    (hd : b.inDoubt ix = []) :
    Ended b (b.performAct ix j r0 c0 p (.nop 0) next) ix (j.ended (r.begun r0 next none).done 0 1 (b.senseHeld j.subchKey)) := by
  obtain ⟨hentry, hcmds, hstrands, hmem⟩ := commandEnded_last (h.begun r0 next none) hrep hend rfl hd
  exact ⟨hentry, hcmds, hstrands, hmem⟩

/-! ## A device command goes out (R308, R310, R321, R324) -/

/-- In `k` the FLUSH of a transaction has gone out to a path, as the command `q`. -/
def FlushSent (b k : Body) (ix : Nat) (j e : JEntry) (p : Path) (q : DevCmd) : Prop :=
  k.jGet ix = some e ∧ e.st = 3 ∧ e.issued = j.issued + 1 ∧ e.ckseq = j.ckseq + 1 ∧ k.io.cmds = b.io.cmds ++ [q] ∧ q.id = b.io.nextCmd ∧ q.who = .txn ix ∧
    q.wire.code = (if p.proto.toNat ≤ 3 then 0x00 else if p.proto = 4 then 0x91 else q.wire.code) ∧ q.port = p.port ∧ q.target = p.target.toNat ∧
    q.cmd = 0x50 ∧ q.order = 2 ∧ q.live = true ∧ q.ckseq = e.ckseq ∧ k.io.nextCmd = b.io.nextCmd + 1 ∧ k.strands = b.strands ∧ k.mem = b.mem

/-- The entry of a transaction whose command goes out, at block position `pos`. -/
noncomputable def JEntry.issuing (j : JEntry) (r : Running) (pos : BitVec 64) : JEntry :=
  { j with st := 3, issued := j.issued + 1, ckcce := r.cccno.setWidth 16, ckaddr := r.caddr, ckpos := pos, ckseq := j.ckseq + 1 }

/-- A command of the transaction `ix`, whose entry is `e`. -/
noncomputable def DevCmd.ofTxn (w : DevCmd) (ix : Nat) (e : JEntry) : DevCmd := { w with who := .txn ix, txn := e.txn, ckseq := e.ckseq }

theorem issue_eq (h : AtWork b ix j r c) (want : DevCmd) : ∃ pos, b.issue ix want =
    (b.jPut ix (j.issuing r pos)).send (engineOf j.engine) (c.nvme j.path.toNat) (want.ofTxn ix (j.issuing r pos)) :=
  ⟨_, (match_congr₂ h.entry h.run).trans (match_congr h.subch)⟩

/-- A command as it is sent: with its number, its identifier and its queue. -/
noncomputable def Body.sent (b : Body) (e : HubId × Fin 16) (nvme : Bool) (w : DevCmd) : DevCmd :=
  { w with
    queue := engineByte e
    id := b.io.nextCmd
    cid := b.freshCid ((b.sameQueue nvme { w with queue := engineByte e }).map (·.cid))
    issuedAt := b.tod e.1
    abort := none
    live := true
    answered := false
    stale := false
    retried := false }

theorem wireOf_flush (proto : Byte) (pos : BitVec 64) (blksz : Nat) : (wireOf proto 0x50 2 pos 0 blksz 0 0).code =
    if proto.toNat ≤ 3 then 0x00 else if proto = 4 then 0x91 else (wireOf proto 0x50 2 pos 0 blksz 0 0).code := by
  split
  · exact congrArg Wire.code (if_pos (c := isNvme proto = true) (decide_eq_true ‹_›))
  · split
    · subst ‹proto = 4›; rfl
    · rfl

theorem cmdOn_path {i : Nat} {p : Path} (hp : c.paths[i]? = some p) (pos : BitVec 64) : (cmdOn c i 0x50 2 pos 0 0 0 [] 0).port = p.port ∧
    (cmdOn c i 0x50 2 pos 0 0 0 [] 0).target = p.target.toNat ∧ (cmdOn c i 0x50 2 pos 0 0 0 [] 0).wire = wireOf p.proto 0x50 2 pos 0 c.blksz.toNat 0 0 := by
  rw [cmdOn, hp]
  exact ⟨rfl, rfl, rfl⟩

/-- A FLUSH goes out to the transaction's path. -/
theorem issue_flush (h : AtWork b ix j r c) {w : DevCmd} {p : Path} (hport : w.port = p.port) (htarget : w.target = p.target.toNat) {blksz : Nat}
    (hwire : w.wire = wireOf p.proto 0x50 2 j.ckpos 0 blksz 0 0) (hcmd : w.cmd = 0x50) (horder : w.order = 2) : ∃ e q, FlushSent b (b.issue ix w) ix j e p q := by
  obtain ⟨pos, hw⟩ := issue_eq h w
  rw [hw]
  refine ⟨j.issuing r pos, (b.jPut ix (j.issuing r pos)).sent (engineOf j.engine) (c.nvme j.path.toNat) (w.ofTxn ix (j.issuing r pos)),
    jGet_jPut h.entry rfl (by decide : (3 : Byte) ≠ 0), rfl, rfl, rfl, rfl, rfl, rfl, ?_, hport, htarget, hcmd, horder, rfl, rfl, rfl, rfl, rfl⟩
  show w.wire.code = if _ then _ else if _ then _ else w.wire.code
  rw [hwire]
  exact wireOf_flush ..

/-- The group of a FLUSH. -/
noncomputable def flushGroup : Group where
  cmd := 0x50
  flags := 0
  order := 2
  area := []
  count := 0
  sent := 0
  got := []
  staged := none
  packing := false
  xlen := 0

theorem performAct_flush {path : Path} (hp : c.paths[j.path.toNat]? = some path) (hs : b.isSplit = false) (hredo : r.redo = []) (hd : b.inDoubt ix = [])
    (p : Prog) (next : Nat) : b.performAct ix j r c p (.control 0 2 0) next =
      (b.beginCmd ix r next (some flushGroup)).issue ix (cmdOn c j.path.toNat 0x50 2 j.ckpos 0 0 0 [] 0) := by
  have hmay : ¬(!((c.paths[j.path.toNat]?.map fun q => b.mayIssue (b.entryHub j) q).getD false)) = true := by
    rw [hp, Option.map_some, Body.mayIssue, hs]
    exact Bool.false_ne_true
  have hgo : ¬(!r.redo.isEmpty) = true := by rw [hredo]; decide
  have hnone : ¬(!(b.inDoubt ix).isEmpty) = true := by rw [hd]; decide
  rw [Body.performAct]
  refine (match_congr (rfl : cceAcc (b.areaRead p.owner []) 4 = (b, .ok []))).trans ?_
  exact (if_neg (by decide : ¬(2 : Byte) = 1)).trans ((if_neg hmay).trans ((if_neg hgo).trans (if_neg hnone)))

/-- A FLUSH that was fetched with the facts `r` and `c` goes out. -/
theorem performAct_sent {r' : Running} {c' : Subch} (h : AtWork b ix j r' c') {path : Path} (hp : c.paths[j.path.toNat]? = some path) (hs : b.isSplit = false)
    (hredo : r.redo = []) (hd : b.inDoubt ix = []) (p : Prog) (next : Nat) :
    ∃ e q, FlushSent b (b.performAct ix j r c p (.control 0 2 0) next) ix j e path q := by
  rw [performAct_flush hp hs hredo hd]
  obtain ⟨hport, htarget, hwire⟩ := cmdOn_path hp j.ckpos
  exact issue_flush (h.begun r next (some flushGroup)) hport htarget hwire rfl rfl

/-! ## What CCE_FETCH leaves (R298, R301, R308) -/

/-- The entry `e` of a transaction that has ended, in `k`, and its FINAL record. -/
def Finished (j : JEntry) (k : Body) (ix : Nat) (sc ds : Byte) (cno : Nat) (resid : BitVec 32) (e : JEntry) : Prop :=
  k.jGet ix = some e ∧ e.st = 4 ∧ e.txn = j.txn ∧ e.ckseq = j.ckseq + 1 ∧
    ∃ held, e.final = chanRecord j.txn.toNat j.tag.toNat resid e.ckxfer j.subch.toNat cno sc ds j.path held

theorem counted_ccno {n : Nat} (h : n < 65535) : (BitVec.ofNat 32 (n + 1)).toNat - 1 = n :=
  congrArg (· - 1) (Nat.mod_eq_of_lt (Nat.lt_trans (Nat.succ_lt_succ h) (by decide)))

/-- The record of a program that ends at a CCE just fetched. -/
theorem Ended.finished {k : Body} {n : Nat} {sc ds : Byte} {held : Bool} (h : Ended b k ix (j.ended r sc ds held)) (hr : r.ccno = BitVec.ofNat 32 (n + 1))
    (hn : n < 65535) : Finished j k ix sc ds n r.resid (j.ended r sc ds held) := by
  refine ⟨h.entry, rfl, rfl, rfl, held, ?_⟩
  rw [JEntry.ended, hr, counted_ccno hn]

section
variable {s : State} {b0 : Body} (hgo : exec (.cceFetch ix) s = .next { s with body := b0.fetchNext ix j r c }) (hn : r.ccno.toNat < 65535) (hw : AtWork b ix j r c)
  (hend : r.ending = none) (hd : b.inDoubt ix = [])
include hgo hn hw hend hd

theorem cceFetch_unknown (hrep : c.reports = []) {cce : List Byte} (hr : b0.engRead (b0.txOwner j r) r.addr.toNat 16 = (b, .ok cce))
    (h : flagsOf (cce.getD 0 0) false = none) : ∃ (b' : Body) (e : JEntry), exec (.cceFetch ix) s = .next { s with body := b' } ∧
      Finished j b' ix 0x20 1 r.ccno.toNat r.resid e ∧ b'.strands = b.strands ∧ b'.mem = b.mem := by
  rw [fetchNext_fails (fetch_unknown (p := b0.progOf j r c) hn 65536 hr h)] at hgo
  have he := failCmd_ended (hw.counted r.ccno.toNat).senseCleared hrep hend hd 0x20 1
  exact ⟨_, _, hgo, he.finished rfl hn, he.strands, he.mem⟩

variable (hs : b0.streamOf j.subchKey = none)
include hs

theorem cceFetch_nop (hrep : c.reports = []) (hr : b0.engRead (b0.txOwner j r) r.addr.toNat 16 = (b, .ok (0x41 :: List.replicate 15 0))) :
    ∃ (b' : Body) (e : JEntry), exec (.cceFetch ix) s = .next { s with body := b' } ∧
      Finished j b' ix 0 1 r.ccno.toNat 0 e ∧ b'.io.cmds = b.io.cmds ∧ b'.strands = b.strands ∧ b'.mem = b.mem := by
  rw [fetchNext_performs hs (fetch_nop (p := b0.progOf j r c) hn 65536 hr)] at hgo
  have he := performAct_nop (hw.counted r.ccno.toNat) r c (b0.progOf j r c) ((r.addr.toNat + 16) % 2 ^ 64) hrep hend hd
  exact ⟨_, _, hgo, he.finished rfl hn, he.cmds.trans (filter_inDoubt hd), he.strands, he.mem⟩

omit hend in
theorem cceFetch_flush (hredo : r.redo = []) (hr : b0.engRead (b0.txOwner j r) r.addr.toNat 16 = (b, .ok (0x50 :: 0 :: 2 :: List.replicate 13 0)))
    (hk : c.kind = 1) {p : Path} (hp : c.paths[j.path.toNat]? = some p) (hsp : b.isSplit = false) :
    ∃ (b' : Body) (e : JEntry) (q : DevCmd), exec (.cceFetch ix) s = .next { s with body := b' } ∧ FlushSent b b' ix j e p q := by
  rw [fetchNext_performs hs (fetch_flush (p := b0.progOf j r c) hn 65536 hr hk)] at hgo
  obtain ⟨e, q, hq⟩ := performAct_sent (hw.counted r.ccno.toNat).senseCleared hp hsp hredo hd (b0.progOf j r c) ((r.addr.toNat + 16) % 2 ^ 64)
  exact ⟨_, e, q, hgo, hq⟩

end

end
end Sys2Proof.Machine
end

section
/-! Answers of devices to the commands of a transaction, and the posting of its final record (R306, R307, R321, R324, R330, R334). -/

namespace Sys2Proof.Machine

/-! ## An entry as its half holds it (R317) -/

/-- What a hub's copy of the journal holds under a number. -/
noncomputable def Body.rawAt (b : Body) (h : HubId) (ix : Nat) : Option JEntry := if b.journalUp h then tGet (b.io.journal.get h) ix else none

theorem jRaw_eq (b : Body) (ix : Nat) : b.jRaw ix = (b.rawAt 0 ix).or (b.rawAt 1 ix) := findSome_hubs _

theorem or_either {α : Type} {x x' y y' : Option α} {j e : α} (hx : x' = some e ∨ x' = x) (hy : y' = some e ∨ y' = y) (h : x.or y = some j) :
    x'.or y' = some e ∨ x'.or y' = some j := by
  rcases hx with rfl | rfl
  · exact .inl rfl
  · cases x' with
    | some _ => exact .inr h
    | none => exact hy.imp_right fun hy => hy.trans h

/-- `e` is `j` but for its flags. -/
noncomputable def JEntry.flag (j : JEntry) (fl : Byte) : JEntry := { j with jflags := fl }

/-- DUPS with one more suppressed answer. -/
noncomputable def JEntry.dup (j : JEntry) : JEntry := { j with dups := if j.dups = 0xFFFF then j.dups else j.dups + 1 }

section
variable {b : Body} {ix : Nat} {j e : JEntry} {k : DevCmd}

theorem rawAt_jPut (h : HubId) : (b.jPut ix e).rawAt h ix = some e ∨ (b.jPut ix e).rawAt h ix = b.rawAt h ix := by
  rw [Body.rawAt, jPut_journal]
  by_cases ht : b.takes h e = true
  · rw [if_pos ht]
    exact .inl ((if_pos (Bool.and_elim_left ht)).trans (tGet_tPut_self ..))
  · rw [if_neg ht]
    exact .inr rfl

/-- After a write the raw read gives the new entry, or the one it gave before from a half that the write does not reach. -/
theorem jRaw_jPut (hraw : b.jRaw ix = some j) : (b.jPut ix e).jRaw ix = some e ∨ (b.jPut ix e).jRaw ix = some j := by
  rw [jRaw_eq] at hraw ⊢
  exact or_either (rawAt_jPut 0) (rawAt_jPut 1) hraw

theorem jMod_eq (hj : b.jGet ix = some j) (f : JEntry → JEntry) : b.jMod ix f = b.jPut ix (f j) := match_congr hj

/-! ## A suppressed answer (R320, R324) -/

/-- In `k` the transaction has its entry of `b`, but for its flags. -/
def Reflagged (b k : Body) (ix : Nat) (j : JEntry) : Prop :=
  (∃ fl, k.jGet ix = some (j.flag fl)) ∧ (∃ fl, k.jRaw ix = some (j.flag fl)) ∧
    k.io.running = b.io.running ∧ k.io.slices = b.io.slices ∧ k.io.cmds = b.io.cmds

theorem settleStale_reflagged (hj : b.jGet ix = some j) (hraw : b.jRaw ix = some j) : Reflagged b (b.settleStale ix) ix j := by
  rw [Body.settleStale, jMod_eq hj]
  split
  · exact ⟨⟨_, hj⟩, ⟨_, hraw⟩, rfl, rfl, rfl⟩
  · exact ⟨⟨_, jGet_jPut hj rfl (st_of_jGet hj :)⟩, (jRaw_jPut hraw).elim (⟨_, ·⟩) (⟨_, ·⟩), rfl, rfl, rfl⟩

theorem countDup_eq (hk : k.who = .txn ix) (hraw : b.jRaw ix = some e) (ht : e.txn = k.txn) : ∃ loc f, b.countDup k = (b.jPut ix e.dup).count 0x05 loc f := by
  have hix : k.ix = some ix := match_congr hk
  have hown : (b.jRaw ix).filter (fun x => decide (x.txn = k.txn)) = some e := (congrArg (Option.filter _) hraw).trans (if_pos (decide_eq_true ht))
  have hfound : k.ix.bind (fun ix => ((b.jRaw ix).filter fun x => decide (x.txn = k.txn)).map fun x => (ix, x)) = some (ix, e) := by
    rw [hix]
    exact congrArg (Option.map (Prod.mk ix)) hown
  exact ⟨_, _, match_congr hfound⟩

theorem suppress_eq (hk : k.who = .txn ix) : b.suppress k = ((b.dropCmd k.id).settleStale ix).countDup k :=
  congrArg (Body.countDup · k) (match_congr (match_congr hk : k.ix = some ix))

/-- In `k` the answer to the command `id` is counted, and nothing else of the transaction has changed. -/
def Suppressed (b k : Body) (ix id : Nat) (j e : JEntry) : Prop :=
  k.jGet ix = some e ∧ e.dups = (if j.dups = 0xFFFF then j.dups else j.dups + 1) ∧ e.st = j.st ∧ e.final = j.final ∧
    k.io.running = b.io.running ∧ k.io.slices = b.io.slices ∧ k.io.cmds = b.io.cmds.filter (fun q => q.id != id)

theorem suppress_counts (hk : k.who = .txn ix) (ht : j.txn = k.txn) (hj : b.jGet ix = some j) (hraw : b.jRaw ix = some j) :
    ∃ e, Suppressed b (b.suppress k) ix k.id j e := by
  obtain ⟨⟨_, hentry⟩, ⟨fl, hraw'⟩, hrun, hslices, hcmds⟩ := settleStale_reflagged (b := b.dropCmd k.id) hj hraw
  obtain ⟨loc, f, hdup⟩ := countDup_eq hk hraw' ht
  rw [suppress_eq hk, hdup]
  exact ⟨(j.flag fl).dup, jGet_jPut hentry rfl (st_of_jGet hj :), rfl, rfl, rfl, hrun, hslices, hcmds⟩

end

section
variable {s : State} {id ix : Nat} {ans : DevResult} {k : DevCmd} {j : JEntry}

theorem deviceCompletion_unknown (h : s.body.io.cmds.find? (fun q => q.id = id) = none) : exec (.deviceCompletion id ans) s = .next s :=
  next_of_body (match_congr h)

/-- What the answer to a transaction's command does, `o` being the entry that awaits it. -/
noncomputable def Body.answer (b : Body) (ix : Nat) (k : DevCmd) (x : DevResult) : Option JEntry → Body
  | none => b.suppress k
  | some j =>
    match b.subch j.subchKey with
    | none => b
    | some c =>
      if !b.portUp k.port ∨ (c.kind = 1 ∧ k.cmd = 0x21 ∧ x.cls = .good ∧ x.data.length ≠ k.len) then b
      else if k.abort.isSome then b.countDup k
      else if b.isLost k then b
      else b.completes ix j c k x

section
variable (h : s.body.io.cmds.find? (fun q => q.id = id) = some k) (hs : s.body.serving = true) (hk : k.who = .txn ix) (ha : k.answered = false)
include h hs hk ha

theorem deviceCompletion_answers {o : Option JEntry} (ho : (if k.live then (s.body.jGet ix).filter (fun x => decide (x.txn = k.txn)) else none) = o) :
    exec (.deviceCompletion id ans) s = .next { s with body := s.body.answer ix k ans o } := by
  refine next_of_body ((match_congr h).trans ((if_neg ?_).trans ((match_congr hk).trans (congrArg (s.body.answer ix k ans) ho))))
  rw [hs, ha]
  exact Bool.false_ne_true

theorem deviceCompletion_suppressed (hj : s.body.jGet ix = some j) (hl : k.live = false) (ht : j.txn = k.txn) (hraw : s.body.jRaw ix = some j) :
    ∃ (b' : Body) (e : JEntry), exec (.deviceCompletion id ans) s = .next { s with body := b' } ∧ Suppressed s.body b' ix id j e := by
  have hid : k.id = id := of_decide_eq_true (List.find?_some (p := fun q : DevCmd => decide (q.id = id)) h)
  obtain ⟨e, he⟩ := suppress_counts hk ht hj hraw
  rw [hid] at he
  exact ⟨_, e, deviceCompletion_answers h hs hk ha (if_neg (by rw [hl]; exact Bool.false_ne_true)), he⟩

end

end

end Sys2Proof.Machine
end

section
/-! GOOD to the FLUSH that a program ends with, and FINAL_POST (R296, R301, R307, R321, R334, R335). -/

namespace Sys2Proof.Machine

/-! ## GOOD to a FLUSH (R296, R301, R321) -/

/-- A command is confirmed: one less is issued. -/
noncomputable def JEntry.confirmed (j : JEntry) : JEntry := { j with issued := j.issued - 1 }

/-- An entry past a command: its position, its counts and its flags are those given. -/
noncomputable def JEntry.moved (j : JEntry) (pos : BitVec 64) (xfer done : BitVec 32) (flags : Byte) : JEntry :=
  { j with ckpos := pos, ckxfer := xfer, ckdone := done, jflags := flags }

section
variable {b : Body} {ix : Nat} {j : JEntry} {r : Running} {c : Subch} {k : DevCmd} {g : Group}

theorem AtWork.confirm (h : AtWork b ix j r c) (id : Nat) : AtWork (b.confirm ix id) ix j.confirmed r c := by
  have hd : AtWork (b.dropCmd id) ix j r c := ⟨h.entry, h.run, h.subch⟩
  exact hd.jMod (f := JEntry.confirmed) rfl rfl rfl (st_of_jGet h.entry :)

/-- A command of the transaction is confirmed, and its entry moves. -/
noncomputable def Body.flushed (b : Body) (ix id : Nat) (pos : JEntry → BitVec 64) (xfer done : JEntry → BitVec 32) (flags : JEntry → Byte) : Body :=
  (b.confirm ix id).spend.jMod ix fun j => j.moved (pos j) (xfer j) (done j) (flags j)

/-- A FLUSH that a block device confirms moves no byte. -/
theorem singleEnd_flush (h : AtWork b ix j r c) (hkind : c.kind = 1) (hcmd : k.cmd = 0x50) (x : DevResult) :
    ∃ pos xfer done flags, b.singleEnd ix j r g k x 1 = (b.flushed ix k.id pos xfer done flags).commandEnded ix g.flags 1 0 true := by
  have hread : ¬k.cmd = 0x21 := by rw [hcmd]; decide
  have htape : (match (b.confirm ix k.id).subch j.subchKey with | some s => decide (s.kind = 2) | none => false) = false :=
    (match_congr (α := Option Subch) (h.confirm k.id).subch).trans (decide_eq_false (by rw [hkind]; decide))
  exact ⟨_, _, _, _, (match_congr (α := Cce Unit) (if_neg hread)).trans
    (congrArg₂ (fun (b : Body) resid => b.commandEnded ix g.flags 1 resid true) ((if_neg Bool.false_ne_true).trans (if_neg fun ht => Bool.false_ne_true (htape.symm.trans ht))) (if_pos hcmd))⟩

theorem finishCmd_single (h : AtWork b ix j r c) (hg : r.group = some g) (hcmd : k.cmd = 0x50) {ans : DevResult} (hgood : ans.cls = .good) :
    b.finishCmd ix j k ans = b.singleEnd ix j r g k ans 1 :=
  (match_congr₂ h.run h.subch).trans ((match_congr (α := Option Group) hg).trans ((if_neg (c := c.kind = 1 ∧ k.cmd ≠ 0x50) fun hk => hk.2 hcmd).trans
    (congrArg (fun cls => b.singleEnd ix j r g k ans (b.dstat cls)) hgood)))

/-- In `k` the transaction has ended with OK, by the answer to its command `id`. -/
def EndsWell (b k : Body) (ix id : Nat) (j e : JEntry) (r : Running) : Prop :=
  k.jGet ix = some e ∧ e.st = 4 ∧ e.issued = 0 ∧
    (∃ held, e.final = chanRecord j.txn.toNat j.tag.toNat 0 e.ckxfer j.subch.toNat (r.ccno.toNat - 1) 0 1 j.path held) ∧
    k.io.cmds = b.io.cmds.filter (fun q => q.id != id)

/-- With every other command of the transaction done, none is in doubt once the last is dropped. -/
theorem inDoubt_dropped {k : Body} {id : Nat} (hc : k.io.cmds = b.io.cmds.filter (fun q => q.id != id)) (hd : ∀ q ∈ b.inDoubt ix, q.id = id) : k.inDoubt ix = [] := by
  rw [Body.inDoubt, hc, List.filter_filter, List.filter_eq_nil_iff]
  intro q hq hp
  obtain ⟨hdoubt, hne⟩ := Bool.and_eq_true_iff.1 hp
  exact bne_iff_ne.1 hne (hd q (List.mem_filter.2 ⟨hq, hdoubt⟩))

section
variable (h : AtWork b ix j r c) (hrep : c.reports = []) (hend : r.ending = none) (hredo : r.redo = [])
include h hrep hend hredo

theorem flushed_ends (pos : JEntry → BitVec 64) (xfer done : JEntry → BitVec 32) (flags : JEntry → Byte) {id : Nat} (hd : ∀ q ∈ b.inDoubt ix, q.id = id) :
    ∃ e, EndsWell b ((b.flushed ix id pos xfer done flags).commandEnded ix 0 1 0 true) ix id j e r := by
  have hc := h.confirm id
  have hw := AtWork.jMod (b := (b.confirm ix id).spend) ⟨hc.entry, hc.run, hc.subch⟩
    (f := fun j => j.moved (pos j) (xfer j) (done j) (flags j)) rfl rfl rfl (st_of_jGet h.entry :)
  have hcmds : (b.flushed ix id pos xfer done flags).io.cmds = b.io.cmds.filter (fun q => q.id != id) := by
    rw [Body.flushed, jMod_eq (b := (b.confirm ix id).spend) hc.entry, Body.confirm, jMod_eq (b := b.dropCmd id) h.entry]
    rfl
  have hdone := commandEnded_device hw hrep hend hredo (inDoubt_dropped hcmds hd)
  exact ⟨_, hdone.entry, rfl, rfl, ⟨_, rfl⟩, hdone.cmds.trans ((filter_inDoubt (inDoubt_dropped hcmds hd)).trans hcmds)⟩

/-- GOOD to the FLUSH that a program ends with. -/
theorem finishCmd_ends (hkind : c.kind = 1) (hcmd : k.cmd = 0x50) (hg : r.group = some g) (hfl : g.flags = 0)
    (hd : ∀ q ∈ b.inDoubt ix, q.id = k.id) {ans : DevResult} (hgood : ans.cls = .good) : ∃ e, EndsWell b (b.finishCmd ix j k ans) ix k.id j e r := by
  obtain ⟨pos, xfer, done, flags, he⟩ := singleEnd_flush (g := g) h hkind hcmd ans
  rw [finishCmd_single h hg hcmd hgood, he, hfl]
  exact flushed_ends h hrep hend hredo pos xfer done flags hd

end

end

section
variable {s : State} {id ix : Nat} {ans : DevResult} {k : DevCmd} {j : JEntry} {r : Running} {c : Subch} {g : Group}

theorem isLost_eq {b : Body} (hk : k.who = .txn ix) (hr : b.running ix = some r) : b.isLost k = r.lost :=
  match_congr ((congrArg (Option.bind · b.running) (match_congr hk : k.ix = some ix)).trans hr)

theorem completes_finishes {b : Body} (hgood : ans.cls = .good) (hrec : k.recov = 0) : b.completes ix j c k ans = b.finishCmd ix j k ans := by
  obtain ⟨cls, data, pos, sense⟩ := ans
  cases hgood
  exact if_neg fun h => h hrec

theorem answer_finishes {b : Body} (hw : AtWork b ix j r c) (hk : k.who = .txn ix) (hab : k.abort = none) (hp : b.portUp k.port = true) (hrec : k.recov = 0)
    (hcmd : k.cmd = 0x50) (hgood : ans.cls = .good) (hlost : r.lost = false) : b.answer ix k ans (some j) = b.finishCmd ix j k ans := by
  refine (match_congr hw.subch).trans ((if_neg ?_).trans ((if_neg ?_).trans ((if_neg ?_).trans (completes_finishes hgood hrec))))
  · rw [hp, hcmd]; exact fun h => h.elim (by decide) fun h => absurd h.2.1 (by decide)
  · rw [hab]; exact Bool.false_ne_true
  · rw [isLost_eq hk hw.run, hlost]; exact Bool.false_ne_true

/-- The good answer to a FLUSH in doubt that its program ends with. -/
theorem deviceCompletion_finishes (h : s.body.io.cmds.find? (fun q => q.id = id) = some k) (hs : s.body.serving = true) (hk : k.who = .txn ix)
    (ha : k.answered = false) (hw : AtWork s.body ix j r c) (hl : k.live = true) (ht : j.txn = k.txn) (hab : k.abort = none) (hkind : c.kind = 1) (hrep : c.reports = [])
    (hp : s.body.portUp k.port = true) (hrec : k.recov = 0) (hcmd : k.cmd = 0x50) (hgood : ans.cls = .good) (hlost : r.lost = false) (hredo : r.redo = [])
    (hend : r.ending = none) (hg : r.group = some g) (hfl : g.flags = 0) (hd : ∀ q ∈ s.body.inDoubt ix, q.id = id) :
    ∃ (b' : Body) (e : JEntry), exec (.deviceCompletion id ans) s = .next { s with body := b' } ∧ EndsWell s.body b' ix id j e r := by
  have hid : k.id = id := of_decide_eq_true (List.find?_some (p := fun q : DevCmd => decide (q.id = id)) h)
  obtain ⟨e, he⟩ := finishCmd_ends hw hrep hend hredo hkind hcmd hg hfl (fun q hq => (hd q hq).trans hid.symm) hgood
  rw [hid, ← answer_finishes hw hk hab hp hrec hcmd hgood hlost] at he
  exact ⟨_, e, deviceCompletion_answers h hs hk ha
    ((if_pos hl).trans ((congrArg (Option.filter _) hw.entry).trans (if_pos (decide_eq_true ht)))), he⟩

end

/-! ## FINAL_POST (R307, R334, R335) -/

/-- The slice of a journal entry. -/
noncomputable def JEntry.owner (j : JEntry) : SliceId := ⟨j.slice.toNat, by have := j.slice.isLt; omega⟩

/-- The entry of a transaction whose final record is posted. -/
noncomputable def JEntry.posted (j : JEntry) : JEntry := { j with st := 5 }

/-- What the orphan queue holds of a transaction. -/
noncomputable def Body.orphanOf (b : Body) (ix : Nat) (e : JEntry) : Orphan where
  ix := ix
  final := e.final.set 31 ((e.final.getD 31 0) &&& 0x7F)
  slice := e.slice.setWidth 16
  gen := e.gen
  part := e.part
  asid := e.asid
  tod := BitVec.ofNat 64 (((b.running ix).map (·.resetTod)).getD 0)

/-- An orphan enters the queue of a hub. -/
noncomputable def Body.queued (b : Body) (h : HubId) (o : Orphan) : Body := b.modIo fun i => { i with orphans := i.orphans.set h.val (b.io.orphans.get h ++ [o]) h.isLt }

theorem room_of_empty {q : List Orphan} {ix : Nat} (h : q = []) : q.length < 4096 ∧ (!q.any (·.ix = ix)) = true := h ▸ ⟨by decide, rfl⟩

theorem toOrphan_queued {b : Body} {ix : Nat} {e : JEntry} (he : b.jGet ix = some e) (hq : b.io.orphans.get (b.entryHub e) = []) :
    b.toOrphan ix = b.queued (b.entryHub e) (b.orphanOf ix e) :=
  (match_congr he).trans (if_pos (room_of_empty hq))

theorem queued_orphans {b : Body} {h : HubId} (hq : b.io.orphans.get h = []) (o : Orphan) : (b.queued h o).io.orphans.get h = [o] :=
  (Vector.getElem_set_self h.isLt).trans (congrArg (· ++ [o]) hq)

section
variable {s : State} {ix : Nat} {j : JEntry} (hs : s.body.serving = true) (hj : s.body.jGet ix = some j) (hst : j.st = 4) (hfl : j.jflags.getLsbD 2 = false)
include hj

theorem jGet_posted : (s.body.jPut ix j.posted).jGet ix = some j.posted := jGet_jPut hj rfl (by decide : (5 : Byte) ≠ 0)

include hs hst hfl

theorem finalPost_eq : exec (.finalPost ix) s = .next { s with
    body := if j.orphan then (s.body.jPut ix j.posted).toOrphan ix
      else (s.body.jPut ix j.posted).postRecord j.owner { src := .final ix, gen := some j.gen, bytes := j.final } } := by
  refine next_of_body ((match_congr hj).trans ((if_neg ?_).trans (if_pos ⟨hst, ?_⟩)))
  · rw [hs]; exact Bool.false_ne_true
  · rw [hfl]; rfl

theorem finalPost_posts (ho : j.orphan = false) (hg : (s.body.slice j.owner).gen = j.gen) (hw : (s.body.slice j.owner).waiting = [])
    (hc : (s.body.slice j.owner).cq.stopped = true ∨ (s.body.slice j.owner).cq.en = false) :
    ∃ b' : Body, exec (.finalPost ix) s = .next { s with body := b' } ∧ b'.jGet ix = some j.posted ∧
      (b'.slice j.owner).waiting = [{ src := .final ix, gen := some j.gen, bytes := j.final }] := by
  have hx := finalPost_eq hs hj hst hfl
  rw [if_neg (by rw [ho]; exact Bool.false_ne_true), postRecord_waits (b := s.body.jPut ix j.posted) hw (congrArg some hg.symm) hc] at hx
  exact ⟨_, hx, jGet_posted hj, congrArg Slice.waiting (slice_modSlice ..)⟩

theorem finalPost_orphan (ho : j.orphan = true) (hq : ∀ h : HubId, s.body.io.orphans.get h = []) :
    ∃ (b' : Body) (o : Orphan), exec (.finalPost ix) s = .next { s with body := b' } ∧ b'.jGet ix = some j.posted ∧
      b'.io.orphans.get (s.body.entryHub j) = [o] ∧ o.ix = ix ∧ o.gen = j.gen ∧ b'.io.slices = s.body.io.slices := by
  have hx := finalPost_eq hs hj hst hfl
  rw [if_pos ho] at hx
  have hempty : (s.body.jPut ix j.posted).io.orphans.get ((s.body.jPut ix j.posted).entryHub j.posted) = [] := hq _
  rw [toOrphan_queued (jGet_posted hj) hempty] at hx
  exact ⟨_, _, hx, jGet_posted hj, queued_orphans hempty _, rfl, rfl, rfl⟩

end

end Sys2Proof.Machine
end

section
/-! The statement about channel programs. -/

namespace Sys2Proof.Machine

/-- Settles O42: each program step from the fetched CCE on, the answers of devices, and the posting of the final record. -/
theorem channelPrograms : Obligations.ChannelPrograms := by
  intro s ix b j r c cce final b0
  refine ⟨fun hs hu hy hj0 hj' hst hsub0 hrun0 hend hg hstop hl hredo hso hread hn hj hr hc hd hrep => ⟨fun hbad => ?_, fun hnop => ?_, fun p hflush hkind hp hsp => ?_⟩,
    fun id ans k => ⟨deviceCompletion_unknown, fun h hs hk ha hj => ⟨fun hl ht hraw => ?_,
      fun g hl ht hab hsub hkind hrep hp hrec hcmd hgood hrun hlost hredo hend hg hfl hd => ?_⟩⟩,
    fun hs hj hst hfl => ⟨fun ho hg hw hc => ?_, fun ho hq => ?_⟩⟩
  · exact cceFetch_unknown (cceFetch_fetches hs hu hy hj' hst ⟨hj0, hrun0, hsub0⟩ hend hg hstop hl hredo) hn ⟨hj, hr, hc⟩ hend hd hrep hread hbad
  · exact cceFetch_nop (cceFetch_fetches hs hu hy hj' hst ⟨hj0, hrun0, hsub0⟩ hend hg hstop hl hredo) hn ⟨hj, hr, hc⟩ hend hd hso hrep (hnop ▸ hread)
  · exact cceFetch_flush (cceFetch_fetches hs hu hy hj' hst ⟨hj0, hrun0, hsub0⟩ hend hg hstop hl hredo) hn ⟨hj, hr, hc⟩ hd hso hredo (hflush ▸ hread) hkind hp hsp
  · exact deviceCompletion_suppressed h hs hk ha hj hl ht hraw
  · exact deviceCompletion_finishes h hs hk ha ⟨hj, hrun, hsub⟩ hl ht hab hkind hrep hp hrec hcmd hgood hlost hredo hend hg hfl hd
  · exact finalPost_posts hs hj hst hfl ho hg hw hc
  · exact finalPost_orphan hs hj hst hfl ho hq

end Sys2Proof.Machine
end
